-- ==== Sys2Proof/Word.lean ====
section
/-! DEFINITION. The word types of the Yilkor 7200 and the one canonical form of sparse data: a list of
(key, value) pairs with strictly rising keys and no pair whose value equals the value an unlisted key reads as. -/

namespace Sys2Proof

/-- One byte of memory. -/
abbrev Byte := BitVec 8
/-- A general register, and every 64-bit quantity of the manual (R195). -/
abbrev Word := BitVec 64
/-- A 32-bit parcel of a fetch line (R17). -/
abbrev Parcel := BitVec 32

/-- Sparse data by natural key. -/
abbrev Sparse (α : Type) := List (Nat × α)

/-- The value at key `k`; an unlisted key reads as `d`. -/
def Sparse.get {α : Type} (d : α) : List (Nat × α) → Nat → α
  | [], _ => d
  | (j, x) :: rest, k => if j = k then x else Sparse.get d rest k

/-- The list without key `k`. -/
def Sparse.erase {α : Type} : List (Nat × α) → Nat → List (Nat × α)
  | [], _ => []
  | (j, y) :: rest, k => if j = k then Sparse.erase rest k else (j, y) :: Sparse.erase rest k

/-- The pair `(k, x)` put before the first larger key. -/
def Sparse.insert {α : Type} (k : Nat) (x : α) : List (Nat × α) → List (Nat × α)
  | [] => [(k, x)]
  | (j, y) :: rest => if k < j then (k, x) :: (j, y) :: rest else (j, y) :: Sparse.insert k x rest

/-- Sets key `k` to `x`, keeping the canonical form. -/
def Sparse.put {α : Type} [DecidableEq α] (d : α) (l : List (Nat × α)) (k : Nat) (x : α) : List (Nat × α) :=
  if x = d then Sparse.erase l k else Sparse.insert k x (Sparse.erase l k)

/-- Every key of the list is at or above `lo`, keys rise strictly, and no value is `d`. -/
def Sparse.wfFrom {α : Type} [DecidableEq α] (d : α) : Nat → List (Nat × α) → Bool
  | _, [] => true
  | lo, (k, x) :: rest => decide (lo ≤ k) && decide (x ≠ d) && Sparse.wfFrom d (k + 1) rest

/-- The canonical form of sparse data. -/
def Sparse.wf {α : Type} [DecidableEq α] (d : α) (l : List (Nat × α)) : Bool := Sparse.wfFrom d 0 l

end Sys2Proof
end

