-- ==== Sys2Proof/Fields.lean ====
section
/-! DEFINITION. The operand fields of the instruction formats (R27), the agents and ports that events name
(R138, R281), and the data that outside events carry. -/

namespace Sys2Proof

/-- Format F, the long window floating-point form (R27). -/
structure FFields where
  dbl : Bool
  d : BitVec 5
  a : BitVec 5
  b : BitVec 5
  od : BitVec 8
  oa : BitVec 8
  ob : BitVec 8
  deriving DecidableEq, Repr

/-- Format M (R27, R110). -/
structure MFields where
  ord : BitVec 3
  x : BitVec 5
  c : BitVec 4
  t : BitVec 5
  ty : BitVec 7
  y : BitVec 5
  off : BitVec 20
  deriving DecidableEq, Repr

/-- Format Q (R27, R32). -/
structure QFields where
  scope : BitVec 2
  ob : Bool
  x : BitVec 5
  c : BitVec 4
  d : BitVec 5
  imm : BitVec 32
  deriving DecidableEq, Repr

/-- Format MQ (R27). -/
structure MQFields where
  sub : BitVec 3
  x : BitVec 5
  c : BitVec 4
  d : BitVec 5
  imm : BitVec 32
  deriving DecidableEq, Repr

/-- Format C (R27). -/
structure CFields where
  y : BitVec 5
  x : BitVec 5
  ca : BitVec 4
  cd : BitVec 4
  imm : BitVec 32
  deriving DecidableEq, Repr

/-- Format V (R27, R231). -/
structure VFields where
  mz : Bool
  m : BitVec 2
  vc : BitVec 3
  vb : BitVec 3
  va : BitVec 3
  vd : BitVec 3
  imm8 : BitVec 8
  g : BitVec 5
  sat : Bool
  rnd : BitVec 3
  ty : BitVec 6
  deriving DecidableEq, Repr

/-- Format W, the sweeps (R27, R247). -/
structure WFields where
  sat : Bool
  ty : BitVec 6
  cb : BitVec 4
  ca : BitVec 4
  cd : BitVec 4
  sa : BitVec 16
  sd : BitVec 16
  sb : BitVec 16
  rnd : BitVec 3
  count : BitVec 12
  deriving DecidableEq, Repr

/-- Format K, CENTER (R27, R65). -/
structure KFields where
  dt : BitVec 4
  ck : BitVec 4
  gkeep : BitVec 32
  ckeep : BitVec 16
  deriving DecidableEq, Repr

/-- Format G, MSTREAM (R27, R280). -/
structure GFields where
  size : BitVec 5
  sel : BitVec 5
  x : BitVec 5
  c : BitVec 4
  tag : BitVec 5
  acc : Bool
  p : BitVec 7
  fmt : BitVec 6
  rows : BitVec 12
  slot : BitVec 8
  step : BitVec 16
  deriving DecidableEq, Repr

/-- A fabric port (R138): the UCIe port of a die, the bridge port of a card, the PCIe port of a card. -/
inductive Port where
  | ucie (die : Nat)
  | bridge (card : Nat)
  | pcie (card : Nat)
  deriving DecidableEq, Repr

/-- An agent of the Model Press (R138). -/
inductive Agent where
  | ctx (core slot : Nat)
  /-- A continuation that has been written back: it keeps its identity, named by its record's address and the core it
  last ran on, and its store-queue and FIFO entries (R152). -/
  | cont (core rec : Nat)
  | copy (core : Nat)
  | epi (core : Nat)
  | gateway (p : Port) (n : Nat)
  /-- The sweep hart of an L2 slice (R69, R158). -/
  | sweep (die slice : Nat)
  | port (p : Port)
  | command (hart : Nat)
  | host (card : Nat)
  deriving DecidableEq, Repr

/-- The five steps of R89, in the order firmware takes them. -/
inductive MigrationPhase where
  | setMig | firstShootdown | copyPage | writeLeaf | secondShootdown
  deriving DecidableEq, Repr

/-- The memory in which an error is detected (R344, R346). -/
inductive MemKind where
  | gddr | l2 | localMem | weightStore | fetch | registerFile | link
  deriving DecidableEq, Repr

/-- What the hardware reports of one detected error (R344, R346). -/
structure ErrorReport where
  mem : MemKind
  addr : Nat
  core : Nat
  set : Nat
  way : Nat
  /-- Wrong 8-bit symbols of a GDDR-7 sector (R73), wrong bits of a SEC-DED word or of a parity group (R344). -/
  errors : Nat
  consumed : Bool
  synd : BitVec 32
  deriving DecidableEq, Repr

/-- A 256-byte flit: 16-byte header and body (R282). -/
structure Flit where
  word0 : BitVec 64
  word1 : BitVec 64
  body : List Byte
  deriving DecidableEq, Repr
/-- A flit as one of a port's four modules receives it (R281). -/
structure FlitArrival where
  via : BitVec 2
  flit : Flit
  deriving DecidableEq, Repr

/-- An entry of the host window table (R393): window offsets [base, limit), host address and PASID. -/
structure HostWindow where
  valid : Bool
  base : Nat
  limit : Nat
  hostAddr : Nat
  pasid : Nat
  deriving DecidableEq, Repr

/-- A bridge acceptance window (R288). -/
structure AcceptWindow where
  base : Nat
  limit : Nat
  read : Bool
  write : Bool
  deriving DecidableEq, Repr

/-- The security state (R383). -/
inductive Security where
  | locked | owner | vendor
  deriving DecidableEq, Repr

/-- What a debug-port read or write names (R373, R383). -/
inductive DebugTarget where
  | g (core slot n : Nat)
  | w (core entry : Nat)
  | c (core slot n : Nat)
  | v (core slot n byte : Nat)
  | m (core slot n part : Nat)
  | vw (core slot n : Nat)
  | sysreg (core slot num : Nat)
  | pc (core slot : Nat)
  | localMem (core granule : Nat)
  | galley (core slot index : Nat)
  | unit (core n : Nat)
  | bank (core n index : Nat)
  | barrier (core n : Nat)
  | device (addr : Nat)
  | status
  | errorLog (die k : Nat)
  | commandHart (hart : Nat)
  /-- FCAP, EFCAP and ESAVE of a context, and its binding entries (R53, R132, R335, R336). -/
  | special (core slot n : Nat)
  /-- A trace unit's write index and what it has lost (R377). -/
  | traceUnit (die : Nat)
  /-- A counter bank that the hypervisor holds: PMC0 to PMC7, then PMCTL (R380). -/
  | counters (core n : Nat)
  /-- Granule `part` of a colophon that the front end has written (R383). -/
  | colophon (place part : Nat)
  /-- The tag of a capability register of a context: c0 to c15, then FCAP, EFCAP and ESAVE (R373). -/
  | capMark (core slot n : Nat)
  /-- The tag and the poison of a granule of local memory (R373). -/
  | granuleMark (core granule : Nat)
  /-- The tag and the cause of a weight-buffer unit (R254). -/
  | unitMark (core n : Nat)
  /-- A granule of the core state as R342 lays it out, and, from 256 on, its tag. -/
  | coreState (core granule : Nat)
  /-- The monitor's and the firmware's memory (R383): 32 bytes at an offset of the firmware cells. -/
  | firmware (offset : Nat)
  deriving DecidableEq, Repr

/-- A counter bank or a trace unit (R379). -/
inductive MonitorUnit where
  | bank (core : Nat)
  | trace (die : Nat)
  deriving DecidableEq, Repr

/-- A guarded access of so many bytes, by the right it needs (R353). -/
inductive GuardAccess where
  | read (bytes : Nat) | write (bytes : Nat) | exec (bytes : Nat)
  deriving DecidableEq, Repr

/-- A section the loader places (R403): a .data section or another one, virtual and physical base, lease, bytes. -/
structure Section where
  data : Bool
  va : Nat
  pa : Nat
  lease : Nat
  bytes : List Byte
  deriving DecidableEq, Repr

/-- A .cap constant (R46): where it is written and what it names; extents as counted. -/
structure CapConst where
  addr : Nat
  base : Nat
  fmt : Nat
  ext : List Nat
  str : List Int
  perm : Nat
  scope : Nat
  deriving DecidableEq, Repr

/-- A binary as the loader gets it (R403); `localLen`: bytes of its .local image (R45). -/
structure BinaryImage where
  tenant : Nat
  /-- The version it carries: major and minor (R384). -/
  version : Nat × Nat
  sections : List Section
  localLen : Nat
  caps : List CapConst
  deriving DecidableEq, Repr

end Sys2Proof
end

