-- ==== Sys2Proof/Syntax.lean ====
section
/-! DEFINITION. The whole of spec/opcode_table.json: one constructor per row, in the table's order. The
rows with an encoding carry the fields their encoding holds (R27 to R34); the rows without one are the
part's events, and carry what the event names. -/

namespace Sys2Proof

/-- An instruction, or an event, of the Yilkor 7200. -/
inductive Instr where
  /-- ADD (R208): Writes g[d] := g[a] + g[b] modulo 2^64. -/
  | add (d a b : BitVec 5)
  /-- SUB (R208): Writes g[d] := g[a] - g[b] modulo 2^64. -/
  | sub (d a b : BitVec 5)
  /-- AND (R208): Writes the bitwise AND of g[a] and g[b] to g[d]. -/
  | and (d a b : BitVec 5)
  /-- OR (R208): Writes the bitwise OR of g[a] and g[b] to g[d]. -/
  | or (d a b : BitVec 5)
  /-- XOR (R208): Writes the bitwise XOR of g[a] and g[b] to g[d]. -/
  | xor (d a b : BitVec 5)
  /-- ANDN (R208): Writes g[a] & ~g[b] to g[d]. -/
  | andn (d a b : BitVec 5)
  /-- SLL (R208): Shifts g[a] left by g[b][5:0] into g[d]. -/
  | sll (d a b : BitVec 5)
  /-- SRL (R208): Shifts g[a] right logically by g[b][5:0] into g[d]. -/
  | srl (d a b : BitVec 5)
  /-- SRA (R208): Shifts g[a] right arithmetically by g[b][5:0] into g[d]. -/
  | sra (d a b : BitVec 5)
  /-- SLT (R208): Writes 1 to g[d] if g[a] < g[b] signed, else 0. -/
  | slt (d a b : BitVec 5)
  /-- SLTU (R208): Writes 1 to g[d] if g[a] < g[b] unsigned, else 0. -/
  | sltu (d a b : BitVec 5)
  /-- MUL (R208): Writes the low 64 bits of g[a] × g[b] to g[d]. -/
  | mul (d a b : BitVec 5)
  /-- MULH (R208): Writes the high 64 bits of the signed product to g[d]. -/
  | mulh (d a b : BitVec 5)
  /-- MULHU (R208): Writes the high 64 bits of the unsigned product to g[d]. -/
  | mulhu (d a b : BitVec 5)
  /-- DIV (R209): Writes the signed quotient rounded toward zero, with fixed results for special cases. -/
  | div (d a b : BitVec 5)
  /-- DIVU (R209): Writes the unsigned quotient, all ones on division by zero. -/
  | divu (d a b : BitVec 5)
  /-- REM (R209): Writes the signed remainder with the dividend's sign. -/
  | rem (d a b : BitVec 5)
  /-- REMU (R209): Writes the unsigned remainder, the dividend on division by zero. -/
  | remu (d a b : BitVec 5)
  /-- MIN (R208): Writes the signed minimum of g[a] and g[b]. -/
  | min (d a b : BitVec 5)
  /-- MAX (R208): Writes the signed maximum of g[a] and g[b]. -/
  | max (d a b : BitVec 5)
  /-- MINU (R208): Writes the unsigned minimum of g[a] and g[b]. -/
  | minu (d a b : BitVec 5)
  /-- MAXU (R208): Writes the unsigned maximum of g[a] and g[b]. -/
  | maxu (d a b : BitVec 5)
  /-- CLZ (R208): Writes the number of leading zero bits of g[a]. -/
  | clz (d a : BitVec 5)
  /-- CTZ (R208): Writes the number of trailing zero bits of g[a]. -/
  | ctz (d a : BitVec 5)
  /-- POPC (R208): Writes the number of one bits of g[a]. -/
  | popc (d a : BitVec 5)
  /-- SEL (R208): Writes g[a] if the old g[d] is non-zero, else g[b]. -/
  | sel (d a b : BitVec 5)
  /-- ADDI (R210): Adds a sign-extended 14-bit immediate to g[a]. -/
  | addi (d a : BitVec 5) (imm : BitVec 14)
  /-- ANDI (R210): ANDs g[a] with a sign-extended immediate. -/
  | andi (d a : BitVec 5) (imm : BitVec 14)
  /-- ORI (R210): ORs g[a] with a sign-extended immediate. -/
  | ori (d a : BitVec 5) (imm : BitVec 14)
  /-- XORI (R210): XORs g[a] with a sign-extended immediate. -/
  | xori (d a : BitVec 5) (imm : BitVec 14)
  /-- SLTI (R210): Signed compare of g[a] with a sign-extended immediate. -/
  | slti (d a : BitVec 5) (imm : BitVec 14)
  /-- SLTIU (R210): Unsigned compare of g[a] with a sign-extended immediate. -/
  | sltiu (d a : BitVec 5) (imm : BitVec 14)
  /-- SLLI (R211): Shifts g[a] left by a constant amount. -/
  | slli (d a : BitVec 5) (amount : BitVec 6)
  /-- SRLI (R211): Shifts g[a] right logically by a constant amount. -/
  | srli (d a : BitVec 5) (amount : BitVec 6)
  /-- SRAI (R211): Shifts g[a] right arithmetically by a constant amount. -/
  | srai (d a : BitVec 5) (amount : BitVec 6)
  /-- BEQ (R215): Branches if g[a] equals g[b]. -/
  | beq (a b : BitVec 5) (off : BitVec 14)
  /-- BNE (R215): Branches if g[a] differs from g[b]. -/
  | bne (a b : BitVec 5) (off : BitVec 14)
  /-- BLT (R215): Branches if g[a] < g[b] signed. -/
  | blt (a b : BitVec 5) (off : BitVec 14)
  /-- BGE (R215): Branches if g[a] >= g[b] signed. -/
  | bge (a b : BitVec 5) (off : BitVec 14)
  /-- BLTU (R215): Branches if g[a] < g[b] unsigned. -/
  | bltu (a b : BitVec 5) (off : BitVec 14)
  /-- BGEU (R215): Branches if g[a] >= g[b] unsigned. -/
  | bgeu (a b : BitVec 5) (off : BitVec 14)
  /-- JAL (R216): Jumps PC-relative and writes the link. -/
  | jal (d : BitVec 5) (off : BitVec 19)
  /-- JALR (R216): Jumps to g[a] plus a word offset and writes the link. -/
  | jalr (d a : BitVec 5) (imm : BitVec 14)
  /-- LOOP (R217): Decrements g[a] and branches if the result is non-zero. -/
  | loop (a : BitVec 5) (off : BitVec 14)
  /-- FADD (R218): Short form: window floating-point add, rounded by FCSR. -/
  | fadd (dbl : Bool) (d a b : BitVec 5)
  /-- FSUB (R218): Short form: window floating-point subtract. -/
  | fsub (dbl : Bool) (d a b : BitVec 5)
  /-- FMUL (R218): Short form: window floating-point multiply. -/
  | fmul (dbl : Bool) (d a b : BitVec 5)
  /-- FDIV (R218): Short form: window floating-point divide. -/
  | fdiv (dbl : Bool) (d a b : BitVec 5)
  /-- FSQRT (R218): Short form: window floating-point square root. -/
  | fsqrt (dbl : Bool) (d a : BitVec 5)
  /-- FMIN (R220): Short form: window floating-point minimum. -/
  | fmin (dbl : Bool) (d a b : BitVec 5)
  /-- FMAX (R220): Short form: window floating-point maximum. -/
  | fmax (dbl : Bool) (d a b : BitVec 5)
  /-- FMA (R218): Short form: fused multiply-add into w[d] with one rounding. -/
  | fma (dbl : Bool) (d a b : BitVec 5)
  /-- FEQ (R220): Short form: floating-point equality into g[d]. -/
  | feq (dbl : Bool) (d a b : BitVec 5)
  /-- FLT (R220): Short form: floating-point less-than into g[d]. -/
  | flt (dbl : Bool) (d a b : BitVec 5)
  /-- FLE (R220): Short form: floating-point less-or-equal into g[d]. -/
  | fle (dbl : Bool) (d a b : BitVec 5)
  /-- FCLASS (R220): Short form: classifies a window value into g[d]. -/
  | fclass (dbl : Bool) (d a : BitVec 5)
  /-- FABS (R220): Short form: clears the sign of a window value. -/
  | fabs (dbl : Bool) (d a : BitVec 5)
  /-- FNEG (R220): Short form: inverts the sign of a window value. -/
  | fneg (dbl : Bool) (d a : BitVec 5)
  /-- FMVW (R220): Short form: moves bits of g[a] into a window register. -/
  | fmvw (dbl : Bool) (d a : BitVec 5)
  /-- FMVG (R220): Short form: moves bits of a window register into g[d]. -/
  | fmvg (dbl : Bool) (d a : BitVec 5)
  /-- FCVT (R219): Short form: converts between FP32 and FP64 window values. -/
  | fcvt (dbl : Bool) (d a : BitVec 5)
  /-- FCVTI (R219): Short form: converts a window value to S64 in g[d]. -/
  | fcvti (dbl : Bool) (d a : BitVec 5)
  /-- FCVTF (R219): Short form: converts S64 g[a] to a window value. -/
  | fcvtf (dbl : Bool) (d a : BitVec 5)
  /-- FADD_LONG (R218): Long form of FADD with window operand offsets. -/
  | faddLong (f : FFields)
  /-- FSUB_LONG (R218): Long form of FSUB. -/
  | fsubLong (f : FFields)
  /-- FMUL_LONG (R218): Long form of FMUL. -/
  | fmulLong (f : FFields)
  /-- FDIV_LONG (R218): Long form of FDIV. -/
  | fdivLong (f : FFields)
  /-- FSQRT_LONG (R218): Long form of FSQRT. -/
  | fsqrtLong (f : FFields)
  /-- FMIN_LONG (R220): Long form of FMIN. -/
  | fminLong (f : FFields)
  /-- FMAX_LONG (R220): Long form of FMAX. -/
  | fmaxLong (f : FFields)
  /-- FMA_LONG (R218): Long form of FMA. -/
  | fmaLong (f : FFields)
  /-- FEQ_LONG (R220): Long form of FEQ. -/
  | feqLong (f : FFields)
  /-- FLT_LONG (R220): Long form of FLT. -/
  | fltLong (f : FFields)
  /-- FLE_LONG (R220): Long form of FLE. -/
  | fleLong (f : FFields)
  /-- FCLASS_LONG (R220): Long form of FCLASS. -/
  | fclassLong (f : FFields)
  /-- FABS_LONG (R220): Long form of FABS. -/
  | fabsLong (f : FFields)
  /-- FNEG_LONG (R220): Long form of FNEG. -/
  | fnegLong (f : FFields)
  /-- FMVW_LONG (R220): Long form of FMVW. -/
  | fmvwLong (f : FFields)
  /-- FMVG_LONG (R220): Long form of FMVG. -/
  | fmvgLong (f : FFields)
  /-- FCVT_LONG (R219): Long form of FCVT. -/
  | fcvtLong (f : FFields)
  /-- FCVTI_LONG (R219): Long form of FCVTI. -/
  | fcvtiLong (f : FFields)
  /-- FCVTF_LONG (R219): Long form of FCVTF. -/
  | fcvtfLong (f : FFields)
  /-- SYSR (R348): Reads a system register into g[d]. -/
  | sysr (d : BitVec 5) (num : BitVec 10)
  /-- SYSW (R348): Writes a system register without a row of its own, after the checks of R203. -/
  | sysw (d a : BitVec 5) (num : BitVec 10)
  /-- SYSS (R348): Sets bits of a system register. -/
  | syss (d a : BitVec 5) (num : BitVec 10)
  /-- SYSC (R348): Clears bits of a system register. -/
  | sysc (d a : BitVec 5) (num : BitVec 10)
  /-- TRAP (R349): Traps with cause 0x2A and the code as EVAL. -/
  | trap (code : BitVec 10)
  /-- BRK (R349): Traps with cause 0x29, or suspends for the debugger when intercepted. -/
  | brk (code : BitVec 10)
  /-- XRET (R350): Returns from a trap handler to EPC in the trapped compartment. -/
  | xret
  /-- IDLE (R313): Stops issue until a wake condition or n × 64 cycles. -/
  | idle (n : BitVec 10)
  /-- IFENCE (R351): Drops fetch-buffer lines in a capability's range and orders later fetches. -/
  | ifence (a : BitVec 5)
  /-- YIELD (R313): Suspension point satisfied at once, giving way to a ready record. -/
  | yield
  /-- PMARK (R352): Counts the marker event and writes a trace marker record. -/
  | pmark (a : BitVec 5) (code : BitVec 10)
  /-- SVC (R349): Traps with cause 0x28 to ask the run root for a service. -/
  | svc (code : BitVec 10)
  /-- EXIT (R313): Waits for side log and matrix work, releases, ends the continuation. -/
  | exit (d : BitVec 5)
  /-- CMOV (R53): Copies a capability register, tag included. -/
  | cmov (d a : BitVec 5)
  /-- CGETB (R62): Reads a capability's BASE into g[d]. -/
  | cgetb (d a : BitVec 5)
  /-- CGETE (R62): Reads the extent of dimension k. -/
  | cgete (d a k : BitVec 5)
  /-- CGETS (R62): Reads the stride of dimension k. -/
  | cgets (d a k : BitVec 5)
  /-- CGETF (R62): Reads FMT, SCOPE and OTYPE. -/
  | cgetf (d a : BitVec 5)
  /-- CGETP (R62): Reads PERM. -/
  | cgetp (d a : BitVec 5)
  /-- CGETL (R62): Reads LEASE and GEN. -/
  | cgetl (d a : BitVec 5)
  /-- CTAG (R62): Reads the tag bit. -/
  | ctag (d a : BitVec 5)
  /-- CCLR (R49): Sets a capability register to the null capability. -/
  | cclr (d : BitVec 5)
  /-- CPERM (R62): Narrows permissions by a mask. -/
  | cperm (d a b : BitVec 5)
  /-- CFMT (R62): Reinterprets the format within an allowed group. -/
  | cfmt (d a b : BitVec 5)
  /-- CSHUT (R64): Seals a capability with the sealer's first object type. -/
  | cshut (d a b : BitVec 5)
  /-- COPEN (R64): Unseals a capability with a matching sealer. -/
  | copen (d a b : BitVec 5)
  /-- XSYNC (R310): Releases, suspends until the superstep close, then writes SSTEP. -/
  | xsync (d : BitVec 5) (level : BitVec 3)
  /-- FENCE (R137): Release and/or acquire of system scope. -/
  | fence (mode : BitVec 2)
  /-- FMADD2 (R385): Retired Troas 1.0 multiply-add; traps with cause 0x03 for emulation. -/
  | fmadd2 (dbl : Bool) (d a b : BitVec 5)
  /-- CTWAITX (R385): Retired counter wait; traps with cause 0x03 for emulation. -/
  | ctwaitx (f : QFields)
  /-- ADDIL (R212): Adds a sign-extended 32-bit immediate. -/
  | addil (d a : BitVec 5) (imm : BitVec 32)
  /-- ANDIL (R212): ANDs with a sign-extended 32-bit immediate. -/
  | andil (d a : BitVec 5) (imm : BitVec 32)
  /-- ORIL (R212): ORs with a sign-extended 32-bit immediate. -/
  | oril (d a : BitVec 5) (imm : BitVec 32)
  /-- XORIL (R212): XORs with a sign-extended 32-bit immediate. -/
  | xoril (d a : BitVec 5) (imm : BitVec 32)
  /-- LI (R212): Loads a sign-extended 32-bit immediate. -/
  | li (d : BitVec 5) (imm : BitVec 32)
  /-- LIH (R212): Places imm32 in the high half above g[a]'s low half. -/
  | lih (d a : BitVec 5) (imm : BitVec 32)
  /-- LIL (R213): Loads a 64-bit immediate. -/
  | lil (d : BitVec 5) (imm : BitVec 64)
  /-- LD (R116): Loads an element into a general register. -/
  | ld (f : MFields)
  /-- ST (R116): Stores a general register into an element. -/
  | st (f : MFields)
  /-- LDC (R117): Loads a capability with its tag. -/
  | ldc (f : MFields)
  /-- STC (R117): Stores a capability with the tag that R58 decides. -/
  | stc (f : MFields)
  /-- PREF (R118): Prefetches a device-memory sector without faults. -/
  | pref (f : MFields)
  /-- LDW (R119): Loads a window register or pair. -/
  | ldw (f : MFields)
  /-- STW (R119): Stores a window register or pair. -/
  | stw (f : MFields)
  /-- AADD (R124): Atomic add at the home. -/
  | aadd (f : MFields)
  /-- AAND (R124): Atomic AND at the home. -/
  | aand (f : MFields)
  /-- AOR (R124): Atomic OR at the home. -/
  | aor (f : MFields)
  /-- AXOR (R124): Atomic XOR at the home. -/
  | axor (f : MFields)
  /-- AMIN (R124): Atomic signed minimum. -/
  | amin (f : MFields)
  /-- AMAX (R124): Atomic signed maximum. -/
  | amax (f : MFields)
  /-- AMINU (R124): Atomic unsigned minimum. -/
  | aminu (f : MFields)
  /-- AMAXU (R124): Atomic unsigned maximum. -/
  | amaxu (f : MFields)
  /-- ASWAP (R124): Atomic swap. -/
  | aswap (f : MFields)
  /-- ACAS (R124): Atomic compare-and-swap. -/
  | acas (f : MFields)
  /-- AFADD (R124): Atomic FP32 add. -/
  | afadd (f : MFields)
  /-- CTADD (R130): Adds to a monotonic counter, optionally as a release. -/
  | ctadd (f : QFields)
  /-- CTWAIT (R131): Waits until a counter reaches a threshold, optionally acquiring. -/
  | ctwait (f : QFields)
  /-- CTREAD (R131): Reads a counter at its home. -/
  | ctread (f : QFields)
  /-- CTTRY (R131): Tests a counter against a threshold without waiting. -/
  | cttry (f : QFields)
  /-- BINIT (R136): Initialises a barrier slot's expected arrivals. -/
  | binit (f : QFields)
  /-- BARRIVE (R136): Arrives at a barrier slot, optionally releasing. -/
  | barrive (f : QFields)
  /-- BWAIT (R136): Waits for a barrier slot's next completion. -/
  | bwait (f : QFields)
  /-- BARWAIT (R136): Releases, arrives and waits on a barrier slot. -/
  | barwait (f : QFields)
  /-- SBIND (R133): Binds a region to a counter in the binding table. -/
  | sbind (f : QFields)
  /-- SUNBIND (R133): Clears a binding-table slot. -/
  | sunbind (f : QFields)
  /-- SEND (R176): Sends a message to a receive ring and waits for its status. -/
  | send (f : QFields)
  /-- RECV (R177): Waits for and returns the oldest ring slot. -/
  | recv (f : QFields)
  /-- RECVT (R177): As RECV with a cycle limit. -/
  | recvt (f : QFields)
  /-- KSEND (R178): Places a key-value pair in the exchange channel toward its bin. -/
  | ksend (f : QFields)
  /-- RADV (R177): Advances a ring's HEAD. -/
  | radv (f : QFields)
  /-- NBPOST (R320): Posts a value into a board slot and returns the view. -/
  | nbpost (f : QFields)
  /-- NBVIEW (R320): Returns a board's view. -/
  | nbview (f : QFields)
  /-- NBINIT (R321): Initialises a notice board. -/
  | nbinit (f : QFields)
  /-- NBSLOT (R321): Reads one board slot. -/
  | nbslot (f : QFields)
  /-- TCLAIM (R329): Claims the next box of work at the imposition unit. -/
  | tclaim (f : QFields)
  /-- TDONE (R330): Marks a claimed box done. -/
  | tdone (f : QFields)
  /-- THAND (R331): Hands a claimed box and its continuation to the owner's core. -/
  | thand (f : QFields)
  /-- SCHEDW (R332): Stages a schedule, or initialises the imposition block. -/
  | schedw (f : QFields)
  /-- SCHEDR (R332): Reads one word of the imposition block. -/
  | schedr (f : QFields)
  /-- CSLICE (R62): Slices one dimension by register operands. -/
  | cslice (f : CFields)
  /-- CSLICEI (R62): Slices one dimension by immediates. -/
  | cslicei (f : CFields)
  /-- CRANK (R62): Takes a rank's partition of a dimension. -/
  | crank (f : CFields)
  /-- CSTEP (R62): Subsamples a dimension. -/
  | cstep (f : CFields)
  /-- CFIX (R62): Fixes one coordinate. -/
  | cfix (f : CFields)
  /-- CFREE (R67): Revokes a lease and its descendants and returns the SWEEPEP target. -/
  | cfree (f : CFields)
  /-- CLEASE (R62): Creates a sub-lease over the parent's footprint. -/
  | clease (f : CFields)
  /-- CENTER (R65): Enters a sealed compartment, clearing unkept registers. -/
  | center (f : KFields)
  /-- VADD (R236): Element-wise add. -/
  | vadd (f : VFields)
  /-- VSUB (R236): Element-wise subtract. -/
  | vsub (f : VFields)
  /-- VMUL (R236): Element-wise multiply. -/
  | vmul (f : VFields)
  /-- VMIN (R236): Element-wise minimum. -/
  | vmin (f : VFields)
  /-- VMAX (R236): Element-wise maximum. -/
  | vmax (f : VFields)
  /-- VAND (R236): Element-wise AND. -/
  | vand (f : VFields)
  /-- VOR (R236): Element-wise OR. -/
  | vor (f : VFields)
  /-- VXOR (R236): Element-wise XOR. -/
  | vxor (f : VFields)
  /-- VSHL (R236): Element-wise shift left. -/
  | vshl (f : VFields)
  /-- VSHR (R236): Element-wise logical shift right. -/
  | vshr (f : VFields)
  /-- VSRA (R236): Element-wise arithmetic shift right. -/
  | vsra (f : VFields)
  /-- VFMA (R237): Element-wise fused multiply-add. -/
  | vfma (f : VFields)
  /-- VFMS (R237): Element-wise fused multiply-subtract. -/
  | vfms (f : VFields)
  /-- VABS (R238): Element-wise absolute value. -/
  | vabs (f : VFields)
  /-- VNEG (R238): Element-wise negation. -/
  | vneg (f : VFields)
  /-- VMOV (R238): Element-wise move, maskable. -/
  | vmov (f : VFields)
  /-- VCVT (R238): Element-wise format conversion over register ranges. -/
  | vcvt (f : VFields)
  /-- VEXP2 (R239): Correctly rounded 2^a. -/
  | vexp2 (f : VFields)
  /-- VLOG2 (R239): Correctly rounded log2 a. -/
  | vlog2 (f : VFields)
  /-- VRCP (R239): Correctly rounded reciprocal. -/
  | vrcp (f : VFields)
  /-- VRSQ (R239): Correctly rounded reciprocal square root. -/
  | vrsq (f : VFields)
  /-- VTANH (R239): Correctly rounded tanh. -/
  | vtanh (f : VFields)
  /-- VCMP (R240): Compares elements into a mask. -/
  | vcmp (f : VFields)
  /-- VSEL (R240): Selects elements by a mask. -/
  | vsel (f : VFields)
  /-- VRED (R241): Reduces rows, columns or the tile. -/
  | vred (f : VFields)
  /-- VSCAN (R241): Inclusive scan along rows, columns or the tile. -/
  | vscan (f : VFields)
  /-- VTRANS (R242): Transposes a tile. -/
  | vtrans (f : VFields)
  /-- VBCAST (R242): Broadcasts a scalar, row or column. -/
  | vbcast (f : VFields)
  /-- VSHUF (R242): Permutes elements by Z16 indices. -/
  | vshuf (f : VFields)
  /-- VROT (R242): Rotates rows or columns. -/
  | vrot (f : VFields)
  /-- VINS (R243): Inserts a general register into an element. -/
  | vins (f : VFields)
  /-- VEXT (R243): Extracts an element into a general register. -/
  | vext (f : VFields)
  /-- VMAND (R244): ANDs two masks. -/
  | vmand (f : VFields)
  /-- VMOR (R244): ORs two masks. -/
  | vmor (f : VFields)
  /-- VMNOT (R244): Inverts a mask. -/
  | vmnot (f : VFields)
  /-- VMPOP (R244): Counts set mask bits. -/
  | vmpop (f : VFields)
  /-- VPLANES (R245): Builds BPI blocks from S8 data. -/
  | vplanes (f : VFields)
  /-- VUNPLANE (R245): Reconstructs S8 values from BPI blocks. -/
  | vunplane (f : VFields)
  /-- VBARQ (R246): Block add, scale and requantise. -/
  | vbarq (f : VFields)
  /-- VLD (R121): Loads a tile. -/
  | vld (f : MFields)
  /-- VST (R121): Stores a tile. -/
  | vst (f : MFields)
  /-- VGATHER (R122): Indexed gather with VPROG progress. -/
  | vgather (f : MFields)
  /-- VSCATTER (R122): Indexed scatter with VPROG progress. -/
  | vscatter (f : MFields)
  /-- VSHAPE (R235): Sets the tile shape and returns the old one. -/
  | vshape (d a : BitVec 5) (imm : BitVec 32)
  /-- SWADD (R252): Sweep add, memory to memory. -/
  | swadd (f : WFields)
  /-- SWSUB (R252): Sweep subtract. -/
  | swsub (f : WFields)
  /-- SWMUL (R252): Sweep multiply. -/
  | swmul (f : WFields)
  /-- SWMIN (R252): Sweep minimum. -/
  | swmin (f : WFields)
  /-- SWMAX (R252): Sweep maximum. -/
  | swmax (f : WFields)
  /-- SWFMA (R252): Sweep fused multiply-add into the destination. -/
  | swfma (f : WFields)
  /-- SWCVT (R252): Sweep conversion. -/
  | swcvt (f : WFields)
  /-- SWCOPY (R252): Sweep bit copy, clearing tags. -/
  | swcopy (f : WFields)
  /-- SWBARQ (R252): Sweep add and convert with one rounding. -/
  | swbarq (f : WFields)
  /-- ECMD (R166): Releases and hands a command block to an engine hart, returning a ticket. -/
  | ecmd (f : QFields)
  /-- EWAIT (R166): Waits until an engine's mailbox reaches a ticket. -/
  | ewait (f : QFields)
  /-- MWFETCH (R275): Queues weight-buffer fills of planes or raw units. -/
  | mwfetch (f : MQFields)
  /-- MWLOAD (R276): Checks and queues expansion of a tile into the back bank. -/
  | mwload (f : MQFields)
  /-- MWSWAP (R277): Inverts the bank selector. -/
  | mwswap (f : MQFields)
  /-- MGWAIT (R278): Stalls until enough galley tiles are complete. -/
  | mgwait (f : MQFields)
  /-- MGADV (R278): Frees completed galley slots. -/
  | mgadv (f : MQFields)
  /-- MGREAD (R279): Converts a block of accumulators into vector registers. -/
  | mgread (f : MQFields)
  /-- MSTREAM (R280): Records a bank and queues an activation stream for the gang. -/
  | mstream (f : GFields)
  /-- SPAWN (R311): Writes a new continuation record and enqueues it. -/
  | spawn (f : QFields)
  /-- XPLAN (R312): Checks a plan and selects it in PLANSEL, or disables it. -/
  | xplan (f : QFields)
  /-- PLANSEL (R169): Write that reads the plan header and latches the exchange window. -/
  | plansel (value : BitVec 64)
  /-- RXCFG (R108): Write that configures, enables or disables a receive ring. -/
  | rxcfg (ring : BitVec 3) (value : BitVec 64)
  /-- KBIN (R109): Write that configures the key bins after pending updates complete. -/
  | kbin (value : BitVec 64)
  /-- WALLOC (R198): Write that changes the context's window allocation, zeroing added entries. -/
  | walloc (value : BitVec 64)
  /-- PMCTL (R380): Write that configures counters and clears PRE. -/
  | pmctl (value : BitVec 64)
  /-- FETCH (R156): Copies a code line from its home into the fetch buffer. -/
  | fetch (a : Agent) (line : BitVec 64)
  /-- DRAIN (R142): A store-queue entry leaves for the FIFO toward its home. -/
  | drain (a : Agent) (k : Nat)
  /-- DELIVER (R142): A FIFO head is performed at its home. -/
  | deliver (k : Nat)
  /-- REFRESH (R142): A sector is copied into a view cache. -/
  | refresh (a : Agent) (va pa : Nat)
  /-- EVICT (R142): A sector is dropped from a view cache or fetch buffer. -/
  | evict (a : Agent) (ofFetch : Bool) (pa : Nat)
  /-- REPLICA_PROPAGATION (R150): One pending store is performed at another replica. -/
  | replicaPropagation (k : Nat)
  /-- WATCH_WAKE (R129): A counter home reaching a watched threshold wakes its waiters. -/
  | watchWake (cell : Nat)
  /-- WATCH_RETRY (R129): Without a free watch, the CTWAIT is reissued every 1,024 cycles. -/
  | watchRetry (a : Agent)
  /-- PAGE_ANSWER (R85): A page request's answer arrives with success or failure. -/
  | pageAnswer (epoch : Nat) (ok : Bool)
  /-- PAGE_REQUEST_TIMEOUT (R84): An unanswered request is answered with failure after 1 s. -/
  | pageRequestTimeout (epoch : Nat)
  /-- PAGE_MIGRATION (R89): Firmware sets MIG, copies a page and writes the new leaf. -/
  | pageMigration (tenant va newPage : Nat) (phase : MigrationPhase)
  /-- SHOOTDOWN (R90): Invalidates a page's translations and completes after old accesses. -/
  | shootdown (tenant va : Nat)
  /-- HOT_PAGE_LIST (R88): At the sampling interval end the controller writes the hot-page list and clears. -/
  | hotPageList (die chan : Nat)
  /-- REFRESH_WINDOW (R103): A weight-store bank refreshes for 300 cycles in each period. -/
  | refreshWindow (die bank : Nat)
  /-- SLICE_CONTROL (R98): Firmware assigns an L2 slice to a tenant after write-back. -/
  | sliceControl (die slice tenant : Nat) (shared : Bool)
  /-- MEMORY_ERROR (R344): A detected memory or parity error is corrected, poisoned or ends runs, and logged. -/
  | memoryError (e : ErrorReport)
  /-- SWEEP_PASS_BEGIN (R69): A pass begins, making every eligible revoked lease sweeping. -/
  | sweepPassBegin
  /-- SWEEP_PASS_END (R69): All harts finish both phases; SWEEPEP increments and leases are freed. -/
  | sweepPassEnd
  /-- WRITE_BACK (R294): A suspended continuation is written back to free a slot. -/
  | writeBack (core : Nat)
  /-- RECORD_LOAD (R293): A free slot takes a ready record. -/
  | recordLoad (core : Nat)
  /-- PICK_UP (R295): A core with a free slot takes a portable record from a pick-up unit. -/
  | pickUp (core : Nat)
  /-- IDLE_TIMEOUT (R313): An IDLE ends after n × 64 cycles. -/
  | idleTimeout (a : Agent)
  /-- RECVT_TIMEOUT (R177): A RECVT's wait expires and it returns all ones. -/
  | recvtTimeout (a : Agent)
  /-- SUPERSTEP_CLOSE (R302): After every arrival, plans run, transfers land and the close step ends the phase. -/
  | superstepClose (run : Nat) (level core : Nat)
  /-- PLAN_ENTRY_DEPART (R171): The copy hart checks and sends one plan entry. -/
  | planEntryDepart (core : Nat)
  /-- PLAN_ENTRY_LAND (R173): A plan entry is checked and written at its destination window. -/
  | planEntryLand (k : Nat)
  /-- MESSAGE_DELIVERY (R175): A message is checked and written to the ring, returning a status. -/
  | messageDelivery (a : Agent)
  /-- KEY_PAIR_APPLY (R178): The receive-and-accumulate unit applies a KSEND pair to its bin. -/
  | keyPairApply (k : Nat)
  /-- BLOCK_QUEUE_LIMIT (R289): A store to LIMIT starts a job and zeroes the queue cells. -/
  | blockQueueLimit (p : Port) (limit : BitVec 64)
  /-- BLOCK_QUEUE_TAKE (R289): An AADD to TAKE hands out the next index. -/
  | blockQueueTake (p : Port)
  /-- WEIGHT_FETCH_READ (R256): The fetch engine reads units of a queued MWFETCH. -/
  | weightFetchRead (core : Nat)
  /-- MWLOAD_EXPANSION (R257): The decompressor expands a tile into its recorded bank after its waits. -/
  | mwloadExpansion (core : Nat)
  /-- QUOIN (R261): The gang's stream starts once every member's head stream has joined. -/
  | quoin (core rows : Nat)
  /-- STREAM_COMPLETION (R267): The last row is added; every member arrives at its barrier slot. -/
  | streamCompletion (core : Nat)
  /-- COPY (R164): Copy hart command OP 0 copies elements in steps. -/
  | copy (core steps : Nat)
  /-- GATHER (R164): Copy hart command OP 1 gathers by index. -/
  | gather (core steps : Nat)
  /-- SCATTER (R164): Copy hart command OP 2 scatters by index. -/
  | scatter (core steps : Nat)
  /-- EPILOGUE_S8 (R274): Epilogue OP 16 drains tiles as S8. -/
  | epilogueS8 (core steps : Nat)
  /-- EPILOGUE_Z8 (R274): Epilogue OP 17 drains tiles as Z8. -/
  | epilogueZ8 (core steps : Nat)
  /-- EPILOGUE_S16 (R274): Epilogue OP 18 drains tiles as S16. -/
  | epilogueS16 (core steps : Nat)
  /-- EPILOGUE_Z16 (R274): Epilogue OP 19 drains tiles as Z16. -/
  | epilogueZ16 (core steps : Nat)
  /-- EPILOGUE_S32 (R274): Epilogue OP 20 drains tiles as S32. -/
  | epilogueS32 (core steps : Nat)
  /-- EPILOGUE_Z32 (R274): Epilogue OP 21 drains tiles as Z32. -/
  | epilogueZ32 (core steps : Nat)
  /-- EPILOGUE_FP16 (R274): Epilogue OP 22 drains tiles as FP16. -/
  | epilogueFp16 (core steps : Nat)
  /-- EPILOGUE_BF16 (R274): Epilogue OP 23 drains tiles as BF16. -/
  | epilogueBf16 (core steps : Nat)
  /-- EPILOGUE_FP32 (R274): Epilogue OP 24 drains tiles as FP32. -/
  | epilogueFp32 (core steps : Nat)
  /-- EPILOGUE_E4M3 (R274): Epilogue OP 25 drains tiles as E4M3. -/
  | epilogueE4m3 (core steps : Nat)
  /-- EPILOGUE_E5M2 (R274): Epilogue OP 26 drains tiles as E5M2. -/
  | epilogueE5m2 (core steps : Nat)
  /-- FLIT_RECEIVE (R285): A port checks a flit's CRC and sequence, accepts it or requests replay. -/
  | flitReceive (p : Port) (f : FlitArrival)
  /-- LINK_RETRAIN (R285): After 16 replays of one flit the link retrains. -/
  | linkRetrain (p : Port)
  /-- LINK_DOWN (R396): Failed retraining takes a link down and ends runs across it. -/
  | linkDown (p : Port)
  /-- DIE_RESET (R286): A die reset increments its epoch and ends runs including it. -/
  | dieReset (die : Nat)
  /-- PACKET_LOAD (R357): A command hart reads, merges and checks the next packet. -/
  | packetLoad (q : Nat)
  /-- LAUNCH (R364): LAUNCH packet checks, mints capabilities and starts a run. -/
  | launch (q : Nat)
  /-- WAITCTR (R361): Packet completing when a counter reaches a threshold. -/
  | waitctr (q : Nat)
  /-- SIGNAL (R361): Packet adding to a counter with a system release. -/
  | signal (q : Nat)
  /-- COPY_PACKET (R361): COPY packet copies memory and signals a counter. -/
  | copyPacket (q : Nat)
  /-- MARKER (R361): Packet writing a trace marker with code 0x3FF. -/
  | marker (q : Nat)
  /-- DOORBELL (R359): A BAR 4 doorbell write wakes a queue's hart and releases earlier writes. -/
  | doorbell (q : Nat)
  /-- RUN_END (R308): A run ends once continuations, engines and side logs are done. -/
  | runEnd (run : Nat)
  /-- PREEMPTION_DECISION (R365): The scheduler decides to pre-empt and stops every member core. -/
  | preemptionDecision (q : Nat)
  /-- PREEMPT_BOUNDARY (R340): A member core reaches its instruction boundary after in-flight work ends. -/
  | preemptBoundary (core : Nat)
  /-- SAVE (R342): Occupied slots and core state are written into the express area. -/
  | save (core : Nat)
  /-- PREEMPTING_LAUNCH (R411): The pre-empting run starts in the express area after the saves. -/
  | preemptingLaunch (q : Nat)
  /-- RESTORE (R343): The pre-empted run's state is restored when the pre-empting run ends. -/
  | restore (core : Nat)
  /-- HOST_KILL (R369): The host driver kills a run through BAR 0. -/
  | hostKill (run : Nat)
  /-- QUEUE_SHADOW_WRITE (R356): The host driver writes a queue's shadow half, including clearing ERR. -/
  | queueShadowWrite (q word : Nat) (value : BitVec 64)
  /-- QUEUE_DESTROY (R369): Destroying a queue discards unread packets. -/
  | queueDestroy (q : Nat)
  /-- HOST_WINDOW_TABLE_WRITE (R393): The host driver writes a host window entry. -/
  | hostWindowTableWrite (k : Nat) (w : HostWindow)
  /-- ATS_INVALIDATION (R393): An ATS invalidation completes after old accesses complete. -/
  | atsInvalidation (pasid hostPage : Nat)
  /-- ACCEPTANCE_WINDOW_WRITE (R288): The host driver writes a bridge acceptance window. -/
  | acceptanceWindowWrite (card k : Nat) (w : AcceptWindow)
  /-- BAR2_ACCESS (R391): A host access through BAR 2; unmapped parts read ones and log. -/
  | bar2Access (card offset n : Nat) (write : Option (BitVec 64))
  /-- POWER_C_ENTRY (R397): A core with all contexts idle or suspended gates its clocks. -/
  | powerCEntry (core : Nat)
  /-- POWER_C_EXIT (R397): A wake condition returns a core to P within 1,500 cycles. -/
  | powerCExit (core : Nat)
  /-- POWER_S_ENTRY (R397): The scheduler puts a die without runs into retention. -/
  | powerSEntry (die : Nat)
  /-- POWER_S_EXIT (R397): A die returns from S to P within 50 µs. -/
  | powerSExit (die : Nat)
  /-- POWER_D_ENTRY (R397): A host request powers down the device but the port and monitor. -/
  | powerDEntry
  /-- CLOCK_STEP_DOWN (R398): After 100 µs over the cap the main clock steps down. -/
  | clockStepDown (card : Nat)
  /-- CLOCK_STEP_UP (R398): After 1 ms under the cap the main clock steps up. -/
  | clockStepUp (card : Nat)
  /-- WATCHDOG_KICK (R354): The monitor kicks the watchdog. -/
  | watchdogKick (card : Nat)
  /-- WATCHDOG_EXPIRY (R354): Expiry resets the command complex and ends every run. -/
  | watchdogExpiry (card : Nat)
  /-- DEVICE_RESET (R394): The boot ROM loads and verifies the monitor and firmware. -/
  | deviceReset (monitorOk firmwareOk : Bool) (security : Security)
  /-- REDUCED_SERVICE (R15): Bring-up service begins on cores 0–95 of die 0 while training runs. -/
  | reducedService
  /-- FULL_SERVICE (R16): Training and tests pass; runs end and full service is announced. -/
  | fullService
  /-- ATTESTATION (R395): The monitor returns a signed attestation report for a nonce. -/
  | attestation (nonce : BitVec 256)
  /-- ENERGY_INTERVAL (R382): Each 2^16 cycles the card's energy is divided among accounts. -/
  | energyInterval (card nanojoules : Nat) (activity : List (Nat × Nat))
  /-- ROUTER_GRID_DUMP (R381): Each 2^k cycles router counts are copied, cleared and dumped. -/
  | routerGridDump (die k : Nat)
  /-- COUNTER_SAMPLE (R378): Each 2^k cycles enabled counters are written as trace records. -/
  | counterSample (core : Nat)
  /-- STOP_REQUEST (R370): The debug port requests a stop at a level. -/
  | stopRequest (run level : Nat)
  /-- DEBUG_RESUME (R370): The debug port resumes a stopped run or held context. -/
  | debugResume (run : Nat) (held : Option Agent)
  /-- BRK_INTERCEPTION (R372): The debugger arms BRK interception for a run. -/
  | brkInterception (run : Nat) (armed : Bool)
  /-- DEBUG_READ (R373): The debug port reads state at a stop. -/
  | debugRead (t : DebugTarget)
  /-- DEBUG_WRITE (R373): The debug port writes state at a stop, clearing tags. -/
  | debugWrite (t : DebugTarget) (value : BitVec 256)
  /-- REPLAY (R376): A snapshot is loaded into a stopped core in replay mode. -/
  | replay (core : Nat)
  /-- REPLAY_STEP (R376): One logged instruction is replayed per debug-port step. -/
  | replayStep (core : Nat)
  /-- TRACE_ENABLE (R377): The debug port enables a die's trace unit for runs. -/
  | traceEnable (die run ring len : Nat)
  /-- HYPERVISOR_CLAIM (R380): The hypervisor takes a counter bank or trace unit, freezing the guest's. -/
  | hypervisorClaim (u : MonitorUnit)
  /-- HYPERVISOR_RELEASE (R380): The hypervisor releases a counter bank or trace unit. -/
  | hypervisorRelease (u : MonitorUnit)
  /-- ILLEGAL_INSTRUCTION (R30): Issue of a word that the map does not assign (an unassigned major, sub-code or length 0b11, or an empty legacy major) traps with cause 0x01 or 0x03. -/
  | illegalInstruction (p0 : BitVec 32)
  /-- TRAINING_FAILURE (R396): A GDDR-7, UCIe or bridge training or a built-in test fails in stage 4, which sets DEVSTAT CODE and UNIT with STAGE kept at 3 and leaves reduced service running. -/
  | trainingFailure (code unit : Nat)
  /-- LINK_RETRAINING_COMPLETE (R285): A retraining link completes successfully within 50 µs and releases its held traffic without loss. -/
  | linkRetrainingComplete (p : Port)
  /-- POWER_D_EXIT (R397): The device leaves power state D and boots from stage 2. -/
  | powerDExit
  /-- REPLAY_ARM (R374): The debug port arms replay, and optionally the load journal, for a run, which starts boundary snapshots at stops and boundary logs in each compute phase. -/
  | replayArm (run : Nat) (journal : Bool)
  /-- BINARY_LOAD (R403): The loader places a binary's sections, mints their leases (RUN 0) and their .cap constants, and writes the data images non-allocating. -/
  | binaryLoad (b : BinaryImage)
  /-- BINARY_UNLOAD (R71): When the host library unloads a binary, the leases minted for its sections are revoked. -/
  | binaryUnload (leases : List Nat)
  /-- GUARD_TABLE_REFUSAL (R353): An access of scheduler or policy-plug-in firmware outside its guard windows does not take place; the hart enters the monitor, and a refused plug-in is stopped so that its tenant falls back to default policy. -/
  | guardTableRefusal (hart addr level tenant : Nat) (access : GuardAccess)
  deriving DecidableEq, Repr

end Sys2Proof
end

