-- ==== Sys2Proof/WellFormed.lean ====
section
/-! DEFINITION. The operand checks of R30 item 3 that need nothing but the instruction's own fields. A term
that fails one traps with cause 0x02, EVAL its first parcel. Checks with an EVAL of their own, or on register
values, stand in the meanings. -/

namespace Sys2Proof

/-- The sets of format codes of R231: floating point, integer, raw byte, bit planes. -/
def Fmt.isF (t : Nat) : Bool := 0x09 ≤ t && t ≤ 0x0E
/-- The integer formats S8 to Z64 and S4 (R183). -/
def Fmt.isI (t : Nat) : Bool := (0x01 ≤ t && t ≤ 0x08) || t == 0x0F
/-- BYTE (R50). -/
def Fmt.isB (t : Nat) : Bool := t == 0
/-- BPI2 to BPI8 (R50). -/
def Fmt.isP (t : Nat) : Bool := 0x12 ≤ t && t ≤ 0x18
/-- The codes R50 does not reserve. -/
def Fmt.defined (t : Nat) : Bool := t ≤ 0x0F || (0x12 ≤ t && t ≤ 0x18) || (0x20 ≤ t && t ≤ 0x24)

namespace WF

/-- A capability register field naming c0 to c15 (R28). -/
def cap (f : BitVec 5) : Bool := f.toNat < 16
/-- A capability register field that may also name fcap (R28). -/
def capOrFcap (f : BitVec 5) : Bool := f.toNat ≤ 16

/-- Long window floating point: g operands carry no offset, unused operands are zero (R218). -/
def long (f : FFields) (gd ga usesB : Bool) : Bool :=
  (!gd || f.od == 0) && (!ga || f.oa == 0) && (usesB || (f.b == 0 && f.ob == 0))

/-- Scalar load or store: fn7 0 to 6 and ord 0 to 2 (R116). -/
def scalarMem (f : MFields) : Bool := f.ty.toNat ≤ 6 && f.ord.toNat ≤ 2
/-- LDC and STC (R117). -/
def capMem (f : MFields) : Bool := cap f.t && f.ty == 0 && f.ord.toNat ≤ 1
/-- PREF (R118). -/
def pref (f : MFields) : Bool := f.t == 0 && f.ty == 0 && f.ord.toNat ≤ 1
/-- LDW and STW (R119). -/
def windowMem (f : MFields) : Bool := (f.ty == 4 || f.ty == 6) && f.ord.toNat ≤ 2
/-- The integer atomics (R124). -/
def atomic (f : MFields) : Bool := (f.ty == 4 || f.ty == 6) && f.ord == 0
/-- AFADD takes FP32 only (R124). -/
def afadd (f : MFields) : Bool := f.ty == 4 && f.ord == 0
/-- VLD and VST (R120). -/
def vectorMem (f : MFields) : Bool := f.t.toNat < 8 && Fmt.defined f.ty.toNat && f.ord.toNat ≤ 2
/-- VGATHER and VSCATTER: y names the index register (R122). -/
def indexedMem (f : MFields) (gather : Bool) : Bool :=
  vectorMem f && f.y.toNat < 8 && !(gather && f.t == f.y)

/-- Barrier instructions: scope and c zero (R134). -/
def barrier (f : QFields) (mayOrder counted : Bool) : Bool :=
  f.scope == 0 && f.c == 0 && (mayOrder || !f.ob) &&
    (if counted then f.imm.extractLsb' 8 24 != 0 else f.imm.extractLsb' 8 24 == 0)

/-- A Q-format instruction without scope and order bit. -/
def plainQ (f : QFields) : Bool := f.scope == 0 && !f.ob
/-- A Q-format instruction that also names no memory. -/
def noMem (f : QFields) : Bool := plainQ f && f.c == 0 && f.x == 0

/-- TCLAIM: d from 1 to 29, the worker register outside the destination range (R229). -/
def tclaim (f : QFields) : Bool :=
  let d := f.d.toNat
  let x := f.x.toNat
  1 ≤ d && d ≤ 29 && !(d ≤ x && x ≤ d + 2) && f.imm == 0
/-- TDONE and THAND: x from 1 to 30 (R330). -/
def box (f : QFields) : Bool := 1 ≤ f.x.toNat && f.x.toNat ≤ 30 && f.imm == 0
/-- SCHEDW: without INIT the level and worker fields are zero (R332). -/
def schedw (f : QFields) : Bool :=
  f.x == 0 && f.imm.extractLsb' 10 22 == 0 && (f.imm.getLsbD 0 || f.imm.extractLsb' 1 9 == 0)

/-- Which V-format fields an instruction uses (R231). -/
structure VUse where
  types : Nat → Bool
  vd : Bool := true
  va : Bool := true
  vb : Bool := false
  vc : Bool := false
  mask : Bool := true
  anyMask : Bool := false
  rnd : Bool := false
  sat : Bool := false
  scalar : Bool := false
  g : Bool := false
  imm : BitVec 8 → Bool := fun i => i == 0

/-- The field checks of R231, R225 and R232 for one V-format instruction. -/
def vector (u : VUse) (f : VFields) : Bool :=
  u.types f.ty.toNat && (u.vd || f.vd == 0) && (u.va || f.va == 0)
    && (if u.scalar && f.imm8.getLsbD 0 then f.vb == 0 else u.vb || f.vb == 0)
    && (u.vc || f.vc == 0)
    && (if u.anyMask then !f.mz else if u.mask then !(f.m == 0 && f.mz) else f.m == 0 && !f.mz)
    && (u.rnd || f.rnd == 0) && (u.sat || !f.sat)
    && (if u.scalar then f.imm8.getLsbD 0 || f.g == 0 else u.g || f.g == 0)
    && u.imm f.imm8

/-- F and I types. -/
def tFI (t : Nat) : Bool := Fmt.isF t || Fmt.isI t
/-- F, I and BYTE types. -/
def tFIB (t : Nat) : Bool := tFI t || Fmt.isB t
/-- The types SWCOPY takes: S4 and the formats whose element is a whole number of bytes (R252, R164). -/
def tSized (t : Nat) : Bool := tFIB t || t == 0x20 || t == 0x22 || t == 0x23 || t == 0x24
/-- imm8 with only the scalar bit. -/
def immScalar (i : BitVec 8) : Bool := i.extractLsb' 1 7 == 0

/-- VADD, VSUB, VMUL (R231). -/
def vArith : VUse := { types := tFI, vb := true, rnd := true, sat := true, scalar := true, imm := immScalar }
/-- VMIN, VMAX. -/
def vMinMax : VUse := { types := tFI, vb := true, scalar := true, imm := immScalar }
/-- VAND, VOR, VXOR. -/
def vBitwise : VUse := { types := tFIB, vb := true, scalar := true, imm := immScalar }
/-- VSHL, VSHR, VSRA. -/
def vShift (sat : Bool) : VUse :=
  { types := Fmt.isI, vb := true, sat := sat, scalar := true, imm := immScalar }
/-- VFMA, VFMS. -/
def vFused : VUse :=
  { types := tFI, vb := true, vc := true, rnd := true, sat := true, scalar := true, imm := immScalar }
/-- VABS, VNEG. -/
def vSign : VUse := { types := tFI, sat := true }
/-- VMOV. -/
def vMove : VUse := { types := tFIB }
/-- VCVT: imm8[5:0] is the source type. -/
def vConvert : VUse :=
  { types := tFI, rnd := true, sat := true, imm := fun i => i.toNat < 64 && tFI i.toNat }
/-- VEXP2 to VTANH: no FP64 (R231). -/
def vElementary : VUse := { types := fun t => Fmt.isF t && t != 0x0C, rnd := true, sat := true }
/-- VCMP: m names the destination; condition 0 to 5 (R240). -/
def vCompare : VUse :=
  { types := tFI, vd := false, vb := true, anyMask := true, scalar := true,
    imm := fun i => i.extractLsb' 4 4 == 0 && (i.extractLsb' 1 3).toNat ≤ 5 }
/-- VSEL: m names the selector. -/
def vSelect : VUse := { types := tFIB, vb := true, anyMask := true }
/-- VRED and VSCAN: axis and operation (R241). -/
def vFold (f : VFields) (anyMask : Bool) : Bool :=
  let op := (f.imm8.extractLsb' 2 3).toNat
  vector { types := tFI, anyMask := anyMask, rnd := true, sat := true, imm := fun i =>
    i.extractLsb' 5 3 == 0 && (i.extractLsb' 0 2).toNat ≤ 2 && (i.extractLsb' 2 3).toNat ≤ 5 } f
    && !(Fmt.isF f.ty.toNat && 3 ≤ op)
/-- VTRANS. -/
def vTranspose : VUse := { types := tFIB, mask := false }
/-- VBCAST: va in modes 1 and 2, the g field in mode 0 (R242). -/
def vBroadcast (f : VFields) : Bool :=
  let mode := f.imm8.toNat
  vector { types := tFIB, va := mode != 0, g := mode == 0, imm := fun i => i.toNat ≤ 2 } f
/-- VSHUF. -/
def vShuffle : VUse := { types := tFIB, vb := true }
/-- VROT: amount in g, axis in imm8[0]. -/
def vRotate : VUse := { types := tFIB, g := true, imm := immScalar }
/-- VINS: source in g, offset in imm8. -/
def vInsert : VUse := { types := tFIB, va := false, vc := true, mask := false, g := true, imm := fun _ => true }
/-- VEXT: destination in g. -/
def vExtract : VUse := { types := tFIB, vd := false, vc := true, mask := false, g := true, imm := fun _ => true }
/-- A register field naming a mask (R231). -/
def maskReg (r : BitVec 3) : Bool := r.toNat < 4
/-- VMAND, VMOR. -/
def vMask2 (f : VFields) : Bool :=
  vector { types := fun t => t == 0, vb := true, mask := false } f && maskReg f.vd && maskReg f.va && maskReg f.vb
/-- VMNOT. -/
def vMask1 (f : VFields) : Bool :=
  vector { types := fun t => t == 0, mask := false } f && maskReg f.vd && maskReg f.va
/-- VMPOP. -/
def vMaskCount (f : VFields) : Bool :=
  vector { types := fun t => t == 0, vd := false, mask := false, g := true } f && maskReg f.va
/-- VPLANES, VUNPLANE. -/
def vPlanes : VUse := { types := Fmt.isP, mask := false }
/-- VBARQ: for BPI types m must be 0 and sat 1 (R246). -/
def vBarq (f : VFields) : Bool :=
  vector { types := fun t => tFI t || Fmt.isP t, vb := true, rnd := true, sat := true,
           imm := fun i => i.extractLsb' 3 5 == 0 } f
    && !(Fmt.isP f.ty.toNat && (f.m != 0 || !f.sat))

/-- Sweeps: the type set, whether b is used, whether rnd and sat are (R252). -/
def sweep (f : WFields) (types : Nat → Bool) (usesB rounds : Bool) : Bool :=
  types f.ty.toNat && (usesB || (f.cb == 0 && f.sb == 0)) && (rounds || (f.rnd == 0 && !f.sat))
    && f.count != 0

/-- The activation formats of MSTREAM (R280). -/
def streamFmt (t : Nat) : Bool :=
  t == 0x0F || t == 0x01 || t == 0x02 || t == 0x0D || t == 0x0E || t == 0x03 || t == 0x09 || t == 0x0A
/-- The step is a multiple of the element size, for S4 of 16 (R280). -/
def streamStep (t step : Nat) : Bool :=
  if t == 0x0F then step % 16 == 0 else if t == 0x03 || t == 0x09 || t == 0x0A then step % 2 == 0 else true

end WF

/-- The operand checks of R30 item 3; an event has none. A retired CTWAITX, of which nothing is checked (R30 item 1), is
well formed as the compiler of its version writes it (R385). -/
def Instr.wf : Instr → Bool
  | .loop a _ => a != 0
  | .faddLong f | .fsubLong f | .fmulLong f | .fdivLong f | .fminLong f | .fmaxLong f | .fmaLong f =>
    WF.long f false false true
  | .fsqrtLong f | .fabsLong f | .fnegLong f | .fcvtLong f => WF.long f false false false
  | .feqLong f | .fltLong f | .fleLong f => WF.long f true false true
  | .fclassLong f | .fmvgLong f | .fcvtiLong f => WF.long f true false false
  | .fmvwLong f | .fcvtfLong f => WF.long f false true false
  | .ifence a => WF.cap a
  | .fence mode => mode != 0
  | .cmov d a => WF.cap d && WF.capOrFcap a
  | .cgetb _ a | .cgetf _ a | .cgetp _ a | .cgetl _ a | .ctag _ a => WF.capOrFcap a
  | .cgete _ a k | .cgets _ a k => WF.capOrFcap a && k.toNat ≤ 3
  | .cclr d => WF.cap d
  | .cperm d a _ | .cfmt d a _ => WF.cap d && WF.cap a
  | .cshut d a b | .copen d a b => WF.cap d && WF.cap a && WF.cap b
  | .ld f | .st f => WF.scalarMem f
  | .ldc f | .stc f => WF.capMem f
  | .pref f => WF.pref f
  | .ldw f | .stw f => WF.windowMem f
  | .aadd f | .aand f | .aor f | .axor f | .amin f | .amax f | .aminu f | .amaxu f | .aswap f | .acas f => WF.atomic f
  | .afadd f => WF.afadd f
  | .vld f | .vst f => WF.vectorMem f
  | .vgather f => WF.indexedMem f true
  | .vscatter f => WF.indexedMem f false
  | .ctwaitx f => WF.plainQ f
  | .ctread f => f.imm == 0
  | .binit f => WF.barrier f false true
  | .barrive f => WF.barrier f true true
  | .bwait f => WF.barrier f true false
  | .barwait f => WF.barrier f false false
  | .sbind f => WF.plainQ f && WF.cap f.d && f.imm.extractLsb' 3 29 == 0
  | .sunbind f => WF.noMem f && f.d == 0 && f.imm.extractLsb' 3 29 == 0
  | .send f => !f.ob && f.imm.extractLsb' 6 26 == 0
  | .recv f => WF.noMem f && f.imm.extractLsb' 3 29 == 0
  | .recvt f => WF.noMem f && f.imm.extractLsb' 3 5 == 0
  | .radv f =>
    WF.noMem f && f.d == 0 && f.imm.extractLsb' 3 5 == 0 && f.imm.extractLsb' 21 11 == 0
      && 1 ≤ (f.imm.extractLsb' 8 13).toNat && (f.imm.extractLsb' 8 13).toNat ≤ 4096
  | .ksend f => WF.plainQ f && f.c == 0
  | .nbpost f => f.imm.extractLsb' 5 27 == 0
  | .nbview f => f.imm.extractLsb' 5 27 == 0 && f.x == 0
  | .nbinit f =>
    f.x == 0 && !f.ob && f.imm.extractLsb' 0 2 != 3 && f.imm.extractLsb' 2 6 == 0 && f.imm.extractLsb' 14 18 == 0
  | .nbslot f => f.imm == 0 && !f.ob
  | .tclaim f => WF.tclaim f
  | .tdone f => WF.box f
  | .thand f => WF.box f && !f.ob
  | .schedw f => WF.schedw f
  | .schedr f => f.x == 0 && !f.ob && f.imm.toNat ≤ 9
  | .ecmd f => WF.plainQ f && f.imm.extractLsb' 1 31 == 0
  | .ewait f => f.scope == 0 && f.c == 0 && f.x == 0 && f.imm.extractLsb' 1 31 == 0
  | .spawn f => f.imm.extractLsb' 4 4 == 0
  | .xplan f =>
    WF.plainQ f && f.imm.extractLsb' 4 28 == 0 && (!f.imm.getLsbD 0 || (f.c == 0 && f.x == 0))
  | .cslice f => f.imm.extractLsb' 2 30 == 0
  | .cslicei f => f.x == 0 && f.y == 0
  | .crank f => f.y == 0 && f.imm.extractLsb' 2 14 == 0
  | .cstep f => f.x == 0 && f.y == 0 && f.imm.extractLsb' 2 14 == 0
  | .cfix f => f.y == 0 && f.imm.extractLsb' 2 30 == 0
  | .cfree f => f.cd == 0 && f.y == 0 && f.imm == 0
  | .clease f => f.y == 0 && f.imm == 0
  | .center f => f.ckeep.extractLsb' 13 3 == 0
  | .mwfetch f => f.imm.extractLsb' 24 8 == 0 && (f.sub != 1 || f.d == 0)
  | .mwswap f => f.sub == 0 && f.x == 0 && f.c == 0 && f.d == 0 && f.imm == 0
  | .mgwait f => f.x == 0 && f.c == 0 && f.imm == 0
  | .mgadv f => f.x == 0 && f.c == 0 && f.d == 0 && f.imm == 0
  | .mgread f => f.d.toNat < 8 && f.c == 0
  | .mstream f => f.size.toNat ≤ 7 && WF.streamFmt f.fmt.toNat && WF.streamStep f.fmt.toNat f.step.toNat && f.p.toNat ≤ 80
  | .vadd f | .vsub f | .vmul f => WF.vector WF.vArith f
  | .vmin f | .vmax f => WF.vector WF.vMinMax f
  | .vand f | .vor f | .vxor f => WF.vector WF.vBitwise f
  | .vshl f => WF.vector (WF.vShift true) f
  | .vshr f | .vsra f => WF.vector (WF.vShift false) f
  | .vfma f | .vfms f => WF.vector WF.vFused f
  | .vabs f | .vneg f => WF.vector WF.vSign f
  | .vmov f => WF.vector WF.vMove f
  | .vcvt f => WF.vector WF.vConvert f
  | .vexp2 f | .vlog2 f | .vrcp f | .vrsq f | .vtanh f => WF.vector WF.vElementary f
  | .vcmp f => WF.vector WF.vCompare f
  | .vsel f => WF.vector WF.vSelect f
  | .vred f => WF.vFold f true
  | .vscan f => WF.vFold f false
  | .vtrans f => WF.vector WF.vTranspose f
  | .vbcast f => WF.vBroadcast f
  | .vshuf f => WF.vector WF.vShuffle f
  | .vrot f => WF.vector WF.vRotate f
  | .vins f => WF.vector WF.vInsert f
  | .vext f => WF.vector WF.vExtract f
  | .vmand f | .vmor f => WF.vMask2 f
  | .vmnot f => WF.vMask1 f
  | .vmpop f => WF.vMaskCount f
  | .vplanes f | .vunplane f => WF.vector WF.vPlanes f
  | .vbarq f => WF.vBarq f
  | .swadd f | .swsub f | .swmul f | .swfma f | .swbarq f => WF.sweep f WF.tFI true true
  | .swmin f | .swmax f => WF.sweep f WF.tFI true false
  | .swcvt f => WF.sweep f WF.tFI false true
  | .swcopy f => WF.sweep f WF.tSized false false
  | _ => true

end Sys2Proof
end

