-- ==== Sys2Proof/Decode.lean ====
section
/-! DEFINITION. Decoding of parcels by R18, R30 to R34, and the encoder written from the same tables. Decoding is
total: what it refuses it refuses by name. The formats are those of R27. -/

namespace Sys2Proof

/-- Why parcels are no instruction. -/
inductive DecodeError where
  /-- No parcel, or fewer than the length field asks for: the instruction would extend past the line (R18). -/
  | pastLine
  /-- Length field 0b11 (R18). -/
  | lengthReserved
  /-- A legacy major 40 to 47 that carries no instruction (R30, R386). -/
  | legacy
  /-- A major or sub-code the map does not assign (R30). -/
  | unassigned
  /-- A zero field or an unused operand field that is not 0 (R30). -/
  | operand
  deriving DecidableEq, Repr

/-! ### The formats, built -/

/-- Format A (R27). -/
def Enc.a (fn9 : BitVec 9) (b a d : BitVec 5) (major : BitVec 6) : Parcel := fn9 ++ b ++ a ++ d ++ major ++ 0#2
/-- Format S (R27). -/
def Enc.s (imm : BitVec 10) (fn4 : BitVec 4) (a d : BitVec 5) (major : BitVec 6) : Parcel :=
  imm ++ fn4 ++ a ++ d ++ major ++ 0#2
/-- Format I (R27); format B has the same shape with off14, b, a. -/
def Enc.i (imm : BitVec 14) (a d : BitVec 5) (major : BitVec 6) : Parcel := imm ++ a ++ d ++ major ++ 0#2
/-- Format J (R27). -/
def Enc.j (off : BitVec 19) (d : BitVec 5) (major : BitVec 6) : Parcel := off ++ d ++ major ++ 0#2
/-- The first parcel of formats X and F: the A ruler with length 01 (R27). -/
def Enc.x (fn9 : BitVec 9) (b a d : BitVec 5) (major : BitVec 6) : Parcel := fn9 ++ b ++ a ++ d ++ major ++ 1#2
/-- Format F (R27). -/
def Enc.f (fn : BitVec 8) (f : FFields) : List Parcel :=
  [Enc.x (BitVec.ofBool f.dbl ++ fn) f.b f.a f.d 14, 0#8 ++ f.ob ++ f.oa ++ f.od]
/-- Format M (R27). -/
def Enc.m (fn5 : BitVec 5) (major : BitVec 6) (f : MFields) : List Parcel :=
  [0#2 ++ f.ord ++ fn5 ++ f.x ++ f.c ++ f.t ++ major ++ 1#2, f.ty ++ f.y ++ f.off]
/-- Format Q (R27). -/
def Enc.q (fn5 : BitVec 5) (major : BitVec 6) (f : QFields) : List Parcel :=
  [0#2 ++ f.scope ++ BitVec.ofBool f.ob ++ fn5 ++ f.x ++ f.c ++ f.d ++ major ++ 1#2, f.imm]
/-- Format MQ (R27). -/
def Enc.mq (fn5 : BitVec 5) (f : MQFields) : List Parcel :=
  [0#2 ++ f.sub ++ fn5 ++ f.x ++ f.c ++ f.d ++ 12#6 ++ 1#2, f.imm]
/-- Format C (R27). -/
def Enc.c (fn5 : BitVec 5) (f : CFields) : List Parcel :=
  [0#1 ++ fn5 ++ f.y ++ f.x ++ f.ca ++ f.cd ++ 7#6 ++ 1#2, f.imm]
/-- Format V (R27). -/
def Enc.v (fn5 : BitVec 5) (fn9b : BitVec 9) (f : VFields) : List Parcel :=
  [0#4 ++ fn5 ++ BitVec.ofBool f.mz ++ f.m ++ f.vc ++ f.vb ++ f.va ++ f.vd ++ 8#6 ++ 1#2,
   f.imm8 ++ fn9b ++ f.g ++ BitVec.ofBool f.sat ++ f.rnd ++ f.ty]
/-- Format W (R27). -/
def Enc.w (fn5 : BitVec 5) (f : WFields) : List Parcel :=
  [BitVec.ofBool f.sat ++ f.ty ++ fn5 ++ f.cb ++ f.ca ++ f.cd ++ 1#6 ++ 2#2, f.sa ++ f.sd,
   0#1 ++ f.rnd ++ f.count ++ f.sb]
/-- Format K (R27). -/
def Enc.k (f : KFields) : List Parcel :=
  [0#16 ++ f.dt ++ f.ck ++ 2#6 ++ 2#2, f.gkeep, 0#16 ++ f.ckeep]
/-- Format G (R27). -/
def Enc.g (f : GFields) : List Parcel :=
  [f.size ++ f.sel ++ f.x ++ f.c ++ f.tag ++ 3#6 ++ 2#2,
   0#6 ++ BitVec.ofBool f.acc ++ f.p ++ f.fmt ++ f.rows, 0#8 ++ f.slot ++ f.step]
/-- Format L (R27). -/
def Enc.l (d : BitVec 5) (imm : BitVec 64) : List Parcel :=
  [0#19 ++ d ++ 0#6 ++ 2#2, imm.extractLsb' 0 32, imm.extractLsb' 32 32]

/-! ### The formats, read -/

/-- Format F from its two parcels, without the zero field. -/
def Dec.f (p0 p1 : Parcel) : FFields :=
  { dbl := p0.getLsbD 31, d := p0.extractLsb' 8 5, a := p0.extractLsb' 13 5, b := p0.extractLsb' 18 5,
    od := p1.extractLsb' 0 8, oa := p1.extractLsb' 8 8, ob := p1.extractLsb' 16 8 }
/-- Format M. -/
def Dec.m (p0 p1 : Parcel) : MFields :=
  { ord := p0.extractLsb' 27 3, x := p0.extractLsb' 17 5, c := p0.extractLsb' 13 4, t := p0.extractLsb' 8 5,
    ty := p1.extractLsb' 25 7, y := p1.extractLsb' 20 5, off := p1.extractLsb' 0 20 }
/-- Format Q. -/
def Dec.q (p0 p1 : Parcel) : QFields :=
  { scope := p0.extractLsb' 28 2, ob := p0.getLsbD 27, x := p0.extractLsb' 17 5, c := p0.extractLsb' 13 4,
    d := p0.extractLsb' 8 5, imm := p1 }
/-- Format MQ. -/
def Dec.mq (p0 p1 : Parcel) : MQFields :=
  { sub := p0.extractLsb' 27 3, x := p0.extractLsb' 17 5, c := p0.extractLsb' 13 4, d := p0.extractLsb' 8 5,
    imm := p1 }
/-- Format C. -/
def Dec.c (p0 p1 : Parcel) : CFields :=
  { y := p0.extractLsb' 21 5, x := p0.extractLsb' 16 5, ca := p0.extractLsb' 12 4, cd := p0.extractLsb' 8 4,
    imm := p1 }
/-- Format V. -/
def Dec.v (p0 p1 : Parcel) : VFields :=
  { mz := p0.getLsbD 22, m := p0.extractLsb' 20 2, vc := p0.extractLsb' 17 3, vb := p0.extractLsb' 14 3,
    va := p0.extractLsb' 11 3, vd := p0.extractLsb' 8 3, imm8 := p1.extractLsb' 24 8, g := p1.extractLsb' 10 5,
    sat := p1.getLsbD 9, rnd := p1.extractLsb' 6 3, ty := p1.extractLsb' 0 6 }
/-- Format W. -/
def Dec.w (p0 p1 p2 : Parcel) : WFields :=
  { sat := p0.getLsbD 31, ty := p0.extractLsb' 25 6, cb := p0.extractLsb' 16 4, ca := p0.extractLsb' 12 4,
    cd := p0.extractLsb' 8 4, sa := p1.extractLsb' 16 16, sd := p1.extractLsb' 0 16, sb := p2.extractLsb' 0 16,
    rnd := p2.extractLsb' 28 3, count := p2.extractLsb' 16 12 }
/-- Format K. -/
def Dec.k (p0 p1 p2 : Parcel) : KFields :=
  { dt := p0.extractLsb' 12 4, ck := p0.extractLsb' 8 4, gkeep := p1, ckeep := p2.extractLsb' 0 16 }
/-- Format G. -/
def Dec.g (p0 p1 p2 : Parcel) : GFields :=
  { size := p0.extractLsb' 27 5, sel := p0.extractLsb' 22 5, x := p0.extractLsb' 17 5, c := p0.extractLsb' 13 4,
    tag := p0.extractLsb' 8 5, acc := p1.getLsbD 25, p := p1.extractLsb' 18 7, fmt := p1.extractLsb' 12 6,
    rows := p1.extractLsb' 0 12, slot := p2.extractLsb' 16 8, step := p2.extractLsb' 0 16 }

/-- Answers `i` if the zero fields hold zero, else refuses by name. -/
def Dec.when (zero : Bool) (i : Instr) : Except DecodeError Instr := if zero then .ok i else .error .operand

/-- Major 0 of the 32-bit instructions, by fn9 (R31). -/
def Dec.alu (fn : Nat) (d a b : BitVec 5) : Except DecodeError Instr :=
  match fn with
  | 0 => .ok (.add d a b)
  | 1 => .ok (.sub d a b)
  | 2 => .ok (.and d a b)
  | 3 => .ok (.or d a b)
  | 4 => .ok (.xor d a b)
  | 5 => .ok (.andn d a b)
  | 6 => .ok (.sll d a b)
  | 7 => .ok (.srl d a b)
  | 8 => .ok (.sra d a b)
  | 9 => .ok (.slt d a b)
  | 10 => .ok (.sltu d a b)
  | 11 => .ok (.mul d a b)
  | 12 => .ok (.mulh d a b)
  | 13 => .ok (.mulhu d a b)
  | 14 => .ok (.div d a b)
  | 15 => .ok (.divu d a b)
  | 16 => .ok (.rem d a b)
  | 17 => .ok (.remu d a b)
  | 18 => .ok (.min d a b)
  | 19 => .ok (.max d a b)
  | 20 => .ok (.minu d a b)
  | 21 => .ok (.maxu d a b)
  | 22 => Dec.when (b == 0) (.clz d a)
  | 23 => Dec.when (b == 0) (.ctz d a)
  | 24 => Dec.when (b == 0) (.popc d a)
  | 25 => .ok (.sel d a b)
  | _ => .error .unassigned

/-- Major 17, short window floating point, by fn9[7:0] (R31). -/
def Dec.fp (fn : Nat) (dbl : Bool) (d a b : BitVec 5) : Except DecodeError Instr :=
  match fn with
  | 0 => .ok (.fadd dbl d a b)
  | 1 => .ok (.fsub dbl d a b)
  | 2 => .ok (.fmul dbl d a b)
  | 3 => .ok (.fdiv dbl d a b)
  | 4 => Dec.when (b == 0) (.fsqrt dbl d a)
  | 5 => .ok (.fmin dbl d a b)
  | 6 => .ok (.fmax dbl d a b)
  | 7 => .ok (.fma dbl d a b)
  | 8 => .ok (.feq dbl d a b)
  | 9 => .ok (.flt dbl d a b)
  | 10 => .ok (.fle dbl d a b)
  | 11 => Dec.when (b == 0) (.fclass dbl d a)
  | 12 => Dec.when (b == 0) (.fabs dbl d a)
  | 13 => Dec.when (b == 0) (.fneg dbl d a)
  | 14 => Dec.when (b == 0) (.fmvw dbl d a)
  | 15 => Dec.when (b == 0) (.fmvg dbl d a)
  | 16 => Dec.when (b == 0) (.fcvt dbl d a)
  | 17 => Dec.when (b == 0) (.fcvti dbl d a)
  | 18 => Dec.when (b == 0) (.fcvtf dbl d a)
  | _ => .error .unassigned

/-- 64-bit major 14, long window floating point (R32). -/
def Dec.fpLong (fn : Nat) (f : FFields) (zero : Bool) : Except DecodeError Instr :=
  match fn with
  | 0 => Dec.when zero (.faddLong f)
  | 1 => Dec.when zero (.fsubLong f)
  | 2 => Dec.when zero (.fmulLong f)
  | 3 => Dec.when zero (.fdivLong f)
  | 4 => Dec.when zero (.fsqrtLong f)
  | 5 => Dec.when zero (.fminLong f)
  | 6 => Dec.when zero (.fmaxLong f)
  | 7 => Dec.when zero (.fmaLong f)
  | 8 => Dec.when zero (.feqLong f)
  | 9 => Dec.when zero (.fltLong f)
  | 10 => Dec.when zero (.fleLong f)
  | 11 => Dec.when zero (.fclassLong f)
  | 12 => Dec.when zero (.fabsLong f)
  | 13 => Dec.when zero (.fnegLong f)
  | 14 => Dec.when zero (.fmvwLong f)
  | 15 => Dec.when zero (.fmvgLong f)
  | 16 => Dec.when zero (.fcvtLong f)
  | 17 => Dec.when zero (.fcvtiLong f)
  | 18 => Dec.when zero (.fcvtfLong f)
  | _ => .error .unassigned

/-- Major 18, by fn4 (R31). -/
def Dec.sys (fn : Nat) (imm : BitVec 10) (a d : BitVec 5) : Except DecodeError Instr :=
  match fn with
  | 0 => Dec.when (a == 0) (.sysr d imm)
  | 1 => .ok (.sysw d a imm)
  | 2 => .ok (.syss d a imm)
  | 3 => .ok (.sysc d a imm)
  | 4 => Dec.when (a == 0 && d == 0) (.trap imm)
  | 5 => Dec.when (a == 0 && d == 0) (.brk imm)
  | 6 => Dec.when (a == 0 && d == 0 && imm == 0) .xret
  | 7 => Dec.when (a == 0 && d == 0) (.idle imm)
  | 8 => Dec.when (d == 0 && imm == 0) (.ifence a)
  | 9 => Dec.when (a == 0 && d == 0 && imm == 0) .yield
  | 10 => Dec.when (d == 0) (.pmark a imm)
  | 11 => Dec.when (a == 0 && d == 0) (.svc imm)
  | 12 => Dec.when (a == 0 && imm == 0) (.exit d)
  | _ => .error .unassigned

/-- Major 19, by fn9 (R31). -/
def Dec.cap (fn : Nat) (d a b : BitVec 5) : Except DecodeError Instr :=
  match fn with
  | 0 => Dec.when (b == 0) (.cmov d a)
  | 1 => Dec.when (b == 0) (.cgetb d a)
  | 2 => .ok (.cgete d a b)
  | 3 => .ok (.cgets d a b)
  | 4 => Dec.when (b == 0) (.cgetf d a)
  | 5 => Dec.when (b == 0) (.cgetp d a)
  | 6 => Dec.when (b == 0) (.cgetl d a)
  | 7 => Dec.when (b == 0) (.ctag d a)
  | 8 => Dec.when (a == 0 && b == 0) (.cclr d)
  | 9 => .ok (.cperm d a b)
  | 10 => .ok (.cfmt d a b)
  | 11 => .ok (.cshut d a b)
  | 12 => .ok (.copen d a b)
  | _ => .error .unassigned

/-- The 32-bit instructions (R31). -/
def Dec.one (p : Parcel) : Except DecodeError Instr :=
  let d := p.extractLsb' 8 5
  let a := p.extractLsb' 13 5
  let b := p.extractLsb' 18 5
  let fn9 := (p.extractLsb' 23 9).toNat
  let fn8 := (p.extractLsb' 23 8).toNat
  let dbl := p.getLsbD 31
  let imm14 := p.extractLsb' 18 14
  let fn4 := (p.extractLsb' 18 4).toNat
  let imm10 := p.extractLsb' 22 10
  match (p.extractLsb' 2 6).toNat with
  | 0 => Dec.alu fn9 d a b
  | 1 => .ok (.addi d a imm14)
  | 2 => .ok (.andi d a imm14)
  | 3 => .ok (.ori d a imm14)
  | 4 => .ok (.xori d a imm14)
  | 5 => .ok (.slti d a imm14)
  | 6 => .ok (.sltiu d a imm14)
  | 7 =>
    match (imm14.extractLsb' 6 2).toNat with
    | 0 => Dec.when (imm14.extractLsb' 8 6 == 0) (.slli d a (imm14.extractLsb' 0 6))
    | 1 => Dec.when (imm14.extractLsb' 8 6 == 0) (.srli d a (imm14.extractLsb' 0 6))
    | 2 => Dec.when (imm14.extractLsb' 8 6 == 0) (.srai d a (imm14.extractLsb' 0 6))
    | _ => .error .unassigned
  | 8 => .ok (.beq d a imm14)
  | 9 => .ok (.bne d a imm14)
  | 10 => .ok (.blt d a imm14)
  | 11 => .ok (.bge d a imm14)
  | 12 => .ok (.bltu d a imm14)
  | 13 => .ok (.bgeu d a imm14)
  | 14 => .ok (.jal d (p.extractLsb' 13 19))
  | 15 => .ok (.jalr d a imm14)
  | 16 => Dec.when (a == 0) (.loop d imm14)
  | 17 => Dec.fp fn8 dbl d a b
  | 18 => Dec.sys fn4 imm10 a d
  | 19 => Dec.cap fn9 d a b
  | 20 =>
    match fn4 with
    | 0 => Dec.when (a == 0 && imm10.extractLsb' 3 7 == 0) (.xsync d (imm10.extractLsb' 0 3))
    | 1 => Dec.when (a == 0 && d == 0 && imm10.extractLsb' 2 8 == 0) (.fence (imm10.extractLsb' 0 2))
    | _ => .error .unassigned
  | 40 => if fn8 = 0 then .ok (.fmadd2 dbl d a b) else .error .legacy
  | major => if 40 ≤ major ∧ major ≤ 47 then .error .legacy else .error .unassigned

/-- 64-bit major 1 (R32). -/
def Dec.mem (fn : Nat) (f : MFields) (zero : Bool) : Except DecodeError Instr :=
  match fn with
  | 0 => Dec.when zero (.ld f)
  | 1 => Dec.when zero (.st f)
  | 2 => Dec.when zero (.ldc f)
  | 3 => Dec.when zero (.stc f)
  | 4 => Dec.when zero (.pref f)
  | 5 => Dec.when zero (.ldw f)
  | 6 => Dec.when zero (.stw f)
  | _ => .error .unassigned

/-- 64-bit major 2 (R32). -/
def Dec.atomic (fn : Nat) (f : MFields) (zero : Bool) : Except DecodeError Instr :=
  match fn with
  | 0 => Dec.when zero (.aadd f)
  | 1 => Dec.when zero (.aand f)
  | 2 => Dec.when zero (.aor f)
  | 3 => Dec.when zero (.axor f)
  | 4 => Dec.when zero (.amin f)
  | 5 => Dec.when zero (.amax f)
  | 6 => Dec.when zero (.aminu f)
  | 7 => Dec.when zero (.amaxu f)
  | 8 => Dec.when zero (.aswap f)
  | 9 => Dec.when zero (.acas f)
  | 10 => Dec.when zero (.afadd f)
  | _ => .error .unassigned

/-- 64-bit major 9 (R32). -/
def Dec.vmem (fn : Nat) (f : MFields) (zero : Bool) : Except DecodeError Instr :=
  match fn with
  | 0 => Dec.when zero (.vld f)
  | 1 => Dec.when zero (.vst f)
  | 2 => Dec.when zero (.vgather f)
  | 3 => Dec.when zero (.vscatter f)
  | _ => .error .unassigned

/-- 64-bit major 3 (R32). -/
def Dec.sync (fn : Nat) (f : QFields) (zero : Bool) : Except DecodeError Instr :=
  match fn with
  | 0 => Dec.when zero (.ctadd f)
  | 1 => Dec.when zero (.ctwait f)
  | 2 => Dec.when zero (.ctread f)
  | 3 => Dec.when zero (.cttry f)
  | 8 => Dec.when zero (.binit f)
  | 9 => Dec.when zero (.barrive f)
  | 10 => Dec.when zero (.bwait f)
  | 11 => Dec.when zero (.barwait f)
  | 16 => Dec.when zero (.sbind f)
  | 17 => Dec.when zero (.sunbind f)
  | _ => .error .unassigned

/-- 64-bit major 4 (R32). -/
def Dec.msg (fn : Nat) (f : QFields) (zero : Bool) : Except DecodeError Instr :=
  match fn with
  | 0 => Dec.when zero (.send f)
  | 1 => Dec.when zero (.recv f)
  | 2 => Dec.when zero (.recvt f)
  | 3 => Dec.when zero (.ksend f)
  | 4 => Dec.when zero (.radv f)
  | _ => .error .unassigned

/-- 64-bit major 5 (R32). -/
def Dec.board (fn : Nat) (f : QFields) (zero : Bool) : Except DecodeError Instr :=
  match fn with
  | 0 => Dec.when zero (.nbpost f)
  | 1 => Dec.when zero (.nbview f)
  | 2 => Dec.when zero (.nbinit f)
  | 3 => Dec.when zero (.nbslot f)
  | _ => .error .unassigned

/-- 64-bit major 6 (R32). -/
def Dec.impose (fn : Nat) (f : QFields) (zero : Bool) : Except DecodeError Instr :=
  match fn with
  | 0 => Dec.when zero (.tclaim f)
  | 1 => Dec.when zero (.tdone f)
  | 2 => Dec.when zero (.thand f)
  | 3 => Dec.when zero (.schedw f)
  | 4 => Dec.when zero (.schedr f)
  | _ => .error .unassigned

/-- 64-bit major 11 (R32). -/
def Dec.engine (fn : Nat) (f : QFields) (zero : Bool) : Except DecodeError Instr :=
  match fn with
  | 0 => Dec.when zero (.ecmd f)
  | 1 => Dec.when zero (.ewait f)
  | _ => .error .unassigned

/-- 64-bit major 13 (R32). -/
def Dec.cont (fn : Nat) (f : QFields) (zero : Bool) : Except DecodeError Instr :=
  match fn with
  | 0 => Dec.when zero (.spawn f)
  | 1 => Dec.when zero (.xplan f)
  | _ => .error .unassigned

/-- 64-bit major 7 (R32). -/
def Dec.derive (fn : Nat) (f : CFields) (zero : Bool) : Except DecodeError Instr :=
  match fn with
  | 0 => Dec.when zero (.cslice f)
  | 1 => Dec.when zero (.cslicei f)
  | 2 => Dec.when zero (.crank f)
  | 3 => Dec.when zero (.cstep f)
  | 4 => Dec.when zero (.cfix f)
  | 5 => Dec.when zero (.cfree f)
  | 6 => Dec.when zero (.clease f)
  | _ => .error .unassigned

/-- 64-bit major 12 (R32). -/
def Dec.matrix (fn : Nat) (f : MQFields) (zero : Bool) : Except DecodeError Instr :=
  match fn with
  | 0 => Dec.when zero (.mwfetch f)
  | 1 => Dec.when zero (.mwload f)
  | 2 => Dec.when zero (.mwswap f)
  | 3 => Dec.when zero (.mgwait f)
  | 4 => Dec.when zero (.mgadv f)
  | 5 => Dec.when zero (.mgread f)
  | _ => .error .unassigned

/-- The vector groups of 64-bit major 8, by fn5 and fn9b (R33). -/
def Dec.vector (group fn : Nat) (f : VFields) (zero : Bool) : Except DecodeError Instr :=
  match group, fn with
  | 0, 0 => Dec.when zero (.vadd f)
  | 0, 1 => Dec.when zero (.vsub f)
  | 0, 2 => Dec.when zero (.vmul f)
  | 0, 3 => Dec.when zero (.vmin f)
  | 0, 4 => Dec.when zero (.vmax f)
  | 0, 5 => Dec.when zero (.vand f)
  | 0, 6 => Dec.when zero (.vor f)
  | 0, 7 => Dec.when zero (.vxor f)
  | 0, 8 => Dec.when zero (.vshl f)
  | 0, 9 => Dec.when zero (.vshr f)
  | 0, 10 => Dec.when zero (.vsra f)
  | 1, 0 => Dec.when zero (.vfma f)
  | 1, 1 => Dec.when zero (.vfms f)
  | 2, 0 => Dec.when zero (.vabs f)
  | 2, 1 => Dec.when zero (.vneg f)
  | 2, 2 => Dec.when zero (.vmov f)
  | 2, 3 => Dec.when zero (.vcvt f)
  | 3, 0 => Dec.when zero (.vexp2 f)
  | 3, 1 => Dec.when zero (.vlog2 f)
  | 3, 2 => Dec.when zero (.vrcp f)
  | 3, 3 => Dec.when zero (.vrsq f)
  | 3, 4 => Dec.when zero (.vtanh f)
  | 4, 0 => Dec.when zero (.vcmp f)
  | 4, 1 => Dec.when zero (.vsel f)
  | 5, 0 => Dec.when zero (.vred f)
  | 5, 1 => Dec.when zero (.vscan f)
  | 6, 0 => Dec.when zero (.vtrans f)
  | 6, 1 => Dec.when zero (.vbcast f)
  | 6, 2 => Dec.when zero (.vshuf f)
  | 6, 3 => Dec.when zero (.vrot f)
  | 7, 0 => Dec.when zero (.vins f)
  | 7, 1 => Dec.when zero (.vext f)
  | 8, 0 => Dec.when zero (.vmand f)
  | 8, 1 => Dec.when zero (.vmor f)
  | 8, 2 => Dec.when zero (.vmnot f)
  | 8, 3 => Dec.when zero (.vmpop f)
  | 9, 0 => Dec.when zero (.vplanes f)
  | 9, 1 => Dec.when zero (.vunplane f)
  | 10, 0 => Dec.when zero (.vbarq f)
  | _, _ => .error .unassigned

/-- 64-bit majors 0 and 10, format X (R32). -/
def Dec.wide (major fn : Nat) (b a d : BitVec 5) (imm : BitVec 32) : Except DecodeError Instr :=
  match major, fn with
  | 0, 0 => Dec.when (b == 0) (.addil d a imm)
  | 0, 1 => Dec.when (b == 0) (.andil d a imm)
  | 0, 2 => Dec.when (b == 0) (.oril d a imm)
  | 0, 3 => Dec.when (b == 0) (.xoril d a imm)
  | 0, 4 => Dec.when (b == 0 && a == 0) (.li d imm)
  | 0, 5 => Dec.when (b == 0) (.lih d a imm)
  | 10, 0 => Dec.when (b == 0) (.vshape d a imm)
  | _, _ => .error .unassigned

/-- The 64-bit instructions (R32). -/
def Dec.two (p0 p1 : Parcel) : Except DecodeError Instr :=
  let fn5 := (p0.extractLsb' 22 5).toNat
  let z2 := p0.extractLsb' 30 2 == 0
  match (p0.extractLsb' 2 6).toNat with
  | 0 => Dec.wide 0 (p0.extractLsb' 23 9).toNat (p0.extractLsb' 18 5) (p0.extractLsb' 13 5) (p0.extractLsb' 8 5) p1
  | 1 => Dec.mem fn5 (Dec.m p0 p1) z2
  | 2 => Dec.atomic fn5 (Dec.m p0 p1) z2
  | 3 => Dec.sync fn5 (Dec.q p0 p1) z2
  | 4 => Dec.msg fn5 (Dec.q p0 p1) z2
  | 5 => Dec.board fn5 (Dec.q p0 p1) z2
  | 6 => Dec.impose fn5 (Dec.q p0 p1) z2
  | 7 => Dec.derive (p0.extractLsb' 26 5).toNat (Dec.c p0 p1) (!p0.getLsbD 31)
  | 8 => Dec.vector (p0.extractLsb' 23 5).toNat (p1.extractLsb' 15 9).toNat (Dec.v p0 p1) (p0.extractLsb' 28 4 == 0)
  | 9 => Dec.vmem fn5 (Dec.m p0 p1) z2
  | 10 => Dec.wide 10 (p0.extractLsb' 23 9).toNat (p0.extractLsb' 18 5) (p0.extractLsb' 13 5) (p0.extractLsb' 8 5) p1
  | 11 => Dec.engine fn5 (Dec.q p0 p1) z2
  | 12 => Dec.matrix fn5 (Dec.mq p0 p1) z2
  | 13 => Dec.cont fn5 (Dec.q p0 p1) z2
  | 14 => Dec.fpLong (p0.extractLsb' 23 8).toNat (Dec.f p0 p1) (p1.extractLsb' 24 8 == 0)
  | 40 =>
    if fn5 = 0 ∧ z2 ∧ (Dec.q p0 p1).scope = 0 ∧ (Dec.q p0 p1).ob = false then .ok (.ctwaitx (Dec.q p0 p1))
    else .error .legacy
  | major => if 40 ≤ major ∧ major ≤ 47 then .error .legacy else .error .unassigned


/-- 96-bit major 1 (R34). -/
def Dec.sweep (fn : Nat) (f : WFields) (zero : Bool) : Except DecodeError Instr :=
  match fn with
  | 0 => Dec.when zero (.swadd f)
  | 1 => Dec.when zero (.swsub f)
  | 2 => Dec.when zero (.swmul f)
  | 3 => Dec.when zero (.swmin f)
  | 4 => Dec.when zero (.swmax f)
  | 5 => Dec.when zero (.swfma f)
  | 6 => Dec.when zero (.swcvt f)
  | 7 => Dec.when zero (.swcopy f)
  | 8 => Dec.when zero (.swbarq f)
  | _ => .error .unassigned

/-- The 96-bit instructions (R34). -/
def Dec.three (p0 p1 p2 : Parcel) : Except DecodeError Instr :=
  match (p0.extractLsb' 2 6).toNat with
  | 0 => Dec.when (p0.extractLsb' 13 19 == 0) (.lil (p0.extractLsb' 8 5) (p2 ++ p1))
  | 1 => Dec.sweep (p0.extractLsb' 20 5).toNat (Dec.w p0 p1 p2) (!p2.getLsbD 31)
  | 2 => Dec.when (p0.extractLsb' 16 16 == 0 && p2.extractLsb' 16 16 == 0) (.center (Dec.k p0 p1 p2))
  | 3 => Dec.when (p1.extractLsb' 26 6 == 0 && p2.extractLsb' 24 8 == 0) (.mstream (Dec.g p0 p1 p2))
  | major => if 40 ≤ major ∧ major ≤ 47 then .error .legacy else .error .unassigned

/-- Reads one instruction from the parcels at hand, which end where the line ends (R18, R30); answers it and the
parcels that follow it. A legacy major with length 0b11, or one that runs past parcel 15, is read by R18 and not by R30's
first check: the model's choice (log 60). -/
def decode : List Parcel → Except DecodeError (Instr × List Parcel)
  | [] => .error .pastLine
  | p0 :: rest =>
    match (p0.extractLsb' 0 2).toNat, rest with
    | 0, _ => (Dec.one p0).map (·, rest)
    | 1, p1 :: rest1 => (Dec.two p0 p1).map (·, rest1)
    | 2, p1 :: p2 :: rest2 => (Dec.three p0 p1 p2).map (·, rest2)
    | 3, _ => .error .lengthReserved
    | _, _ => .error .pastLine

/-- The parcels of a byte list, little-endian, as many whole ones as there are (00_scope, R17). -/
def parcelsOf : List Byte → List Parcel
  | b0 :: b1 :: b2 :: b3 :: rest => (b3 ++ b2 ++ b1 ++ b0) :: parcelsOf rest
  | _ => []

/-- The bytes of a list of parcels, little-endian. -/
def bytesOf : List Parcel → List Byte
  | [] => []
  | p :: rest =>
    p.extractLsb' 0 8 :: p.extractLsb' 8 8 :: p.extractLsb' 16 8 :: p.extractLsb' 24 8 :: bytesOf rest

/-- Decoding of any bytes. -/
def decodeBytes (bs : List Byte) : Except DecodeError (Instr × List Parcel) := decode (parcelsOf bs)

/-- The parcels of an instruction by R27 and R31 to R34; an event has none, and neither has
ILLEGAL_INSTRUCTION, which stands for words that are no instruction. -/
def encode : Instr → List Parcel
  | .add d a b => [Enc.a 0 b a d 0]
  | .sub d a b => [Enc.a 1 b a d 0]
  | .and d a b => [Enc.a 2 b a d 0]
  | .or d a b => [Enc.a 3 b a d 0]
  | .xor d a b => [Enc.a 4 b a d 0]
  | .andn d a b => [Enc.a 5 b a d 0]
  | .sll d a b => [Enc.a 6 b a d 0]
  | .srl d a b => [Enc.a 7 b a d 0]
  | .sra d a b => [Enc.a 8 b a d 0]
  | .slt d a b => [Enc.a 9 b a d 0]
  | .sltu d a b => [Enc.a 10 b a d 0]
  | .mul d a b => [Enc.a 11 b a d 0]
  | .mulh d a b => [Enc.a 12 b a d 0]
  | .mulhu d a b => [Enc.a 13 b a d 0]
  | .div d a b => [Enc.a 14 b a d 0]
  | .divu d a b => [Enc.a 15 b a d 0]
  | .rem d a b => [Enc.a 16 b a d 0]
  | .remu d a b => [Enc.a 17 b a d 0]
  | .min d a b => [Enc.a 18 b a d 0]
  | .max d a b => [Enc.a 19 b a d 0]
  | .minu d a b => [Enc.a 20 b a d 0]
  | .maxu d a b => [Enc.a 21 b a d 0]
  | .clz d a => [Enc.a 22 0 a d 0]
  | .ctz d a => [Enc.a 23 0 a d 0]
  | .popc d a => [Enc.a 24 0 a d 0]
  | .sel d a b => [Enc.a 25 b a d 0]
  | .addi d a imm => [Enc.i imm a d 1]
  | .andi d a imm => [Enc.i imm a d 2]
  | .ori d a imm => [Enc.i imm a d 3]
  | .xori d a imm => [Enc.i imm a d 4]
  | .slti d a imm => [Enc.i imm a d 5]
  | .sltiu d a imm => [Enc.i imm a d 6]
  | .slli d a k => [Enc.i (0#6 ++ 0#2 ++ k) a d 7]
  | .srli d a k => [Enc.i (0#6 ++ 1#2 ++ k) a d 7]
  | .srai d a k => [Enc.i (0#6 ++ 2#2 ++ k) a d 7]
  | .beq a b off => [Enc.i off b a 8]
  | .bne a b off => [Enc.i off b a 9]
  | .blt a b off => [Enc.i off b a 10]
  | .bge a b off => [Enc.i off b a 11]
  | .bltu a b off => [Enc.i off b a 12]
  | .bgeu a b off => [Enc.i off b a 13]
  | .jal d off => [Enc.j off d 14]
  | .jalr d a imm => [Enc.i imm a d 15]
  | .loop a off => [Enc.i off 0 a 16]
  | .fadd dbl d a b => [Enc.a (BitVec.ofBool dbl ++ 0#8) b a d 17]
  | .fsub dbl d a b => [Enc.a (BitVec.ofBool dbl ++ 1#8) b a d 17]
  | .fmul dbl d a b => [Enc.a (BitVec.ofBool dbl ++ 2#8) b a d 17]
  | .fdiv dbl d a b => [Enc.a (BitVec.ofBool dbl ++ 3#8) b a d 17]
  | .fsqrt dbl d a => [Enc.a (BitVec.ofBool dbl ++ 4#8) 0 a d 17]
  | .fmin dbl d a b => [Enc.a (BitVec.ofBool dbl ++ 5#8) b a d 17]
  | .fmax dbl d a b => [Enc.a (BitVec.ofBool dbl ++ 6#8) b a d 17]
  | .fma dbl d a b => [Enc.a (BitVec.ofBool dbl ++ 7#8) b a d 17]
  | .feq dbl d a b => [Enc.a (BitVec.ofBool dbl ++ 8#8) b a d 17]
  | .flt dbl d a b => [Enc.a (BitVec.ofBool dbl ++ 9#8) b a d 17]
  | .fle dbl d a b => [Enc.a (BitVec.ofBool dbl ++ 10#8) b a d 17]
  | .fclass dbl d a => [Enc.a (BitVec.ofBool dbl ++ 11#8) 0 a d 17]
  | .fabs dbl d a => [Enc.a (BitVec.ofBool dbl ++ 12#8) 0 a d 17]
  | .fneg dbl d a => [Enc.a (BitVec.ofBool dbl ++ 13#8) 0 a d 17]
  | .fmvw dbl d a => [Enc.a (BitVec.ofBool dbl ++ 14#8) 0 a d 17]
  | .fmvg dbl d a => [Enc.a (BitVec.ofBool dbl ++ 15#8) 0 a d 17]
  | .fcvt dbl d a => [Enc.a (BitVec.ofBool dbl ++ 16#8) 0 a d 17]
  | .fcvti dbl d a => [Enc.a (BitVec.ofBool dbl ++ 17#8) 0 a d 17]
  | .fcvtf dbl d a => [Enc.a (BitVec.ofBool dbl ++ 18#8) 0 a d 17]
  | .faddLong f => Enc.f 0 f
  | .fsubLong f => Enc.f 1 f
  | .fmulLong f => Enc.f 2 f
  | .fdivLong f => Enc.f 3 f
  | .fsqrtLong f => Enc.f 4 f
  | .fminLong f => Enc.f 5 f
  | .fmaxLong f => Enc.f 6 f
  | .fmaLong f => Enc.f 7 f
  | .feqLong f => Enc.f 8 f
  | .fltLong f => Enc.f 9 f
  | .fleLong f => Enc.f 10 f
  | .fclassLong f => Enc.f 11 f
  | .fabsLong f => Enc.f 12 f
  | .fnegLong f => Enc.f 13 f
  | .fmvwLong f => Enc.f 14 f
  | .fmvgLong f => Enc.f 15 f
  | .fcvtLong f => Enc.f 16 f
  | .fcvtiLong f => Enc.f 17 f
  | .fcvtfLong f => Enc.f 18 f
  | .sysr d num => [Enc.s num 0 0 d 18]
  | .sysw d a num => [Enc.s num 1 a d 18]
  | .syss d a num => [Enc.s num 2 a d 18]
  | .sysc d a num => [Enc.s num 3 a d 18]
  | .trap code => [Enc.s code 4 0 0 18]
  | .brk code => [Enc.s code 5 0 0 18]
  | .xret => [Enc.s 0 6 0 0 18]
  | .idle n => [Enc.s n 7 0 0 18]
  | .ifence a => [Enc.s 0 8 a 0 18]
  | .yield => [Enc.s 0 9 0 0 18]
  | .pmark a code => [Enc.s code 10 a 0 18]
  | .svc code => [Enc.s code 11 0 0 18]
  | .exit d => [Enc.s 0 12 0 d 18]
  | .cmov d a => [Enc.a 0 0 a d 19]
  | .cgetb d a => [Enc.a 1 0 a d 19]
  | .cgete d a k => [Enc.a 2 k a d 19]
  | .cgets d a k => [Enc.a 3 k a d 19]
  | .cgetf d a => [Enc.a 4 0 a d 19]
  | .cgetp d a => [Enc.a 5 0 a d 19]
  | .cgetl d a => [Enc.a 6 0 a d 19]
  | .ctag d a => [Enc.a 7 0 a d 19]
  | .cclr d => [Enc.a 8 0 0 d 19]
  | .cperm d a b => [Enc.a 9 b a d 19]
  | .cfmt d a b => [Enc.a 10 b a d 19]
  | .cshut d a b => [Enc.a 11 b a d 19]
  | .copen d a b => [Enc.a 12 b a d 19]
  | .xsync d level => [Enc.s (0#7 ++ level) 0 0 d 20]
  | .fence mode => [Enc.s (0#8 ++ mode) 1 0 0 20]
  | .fmadd2 dbl d a b => [Enc.a (BitVec.ofBool dbl ++ 0#8) b a d 40]
  | .ctwaitx f => Enc.q 0 40 f
  | .addil d a imm => [Enc.x 0 0 a d 0, imm]
  | .andil d a imm => [Enc.x 1 0 a d 0, imm]
  | .oril d a imm => [Enc.x 2 0 a d 0, imm]
  | .xoril d a imm => [Enc.x 3 0 a d 0, imm]
  | .li d imm => [Enc.x 4 0 0 d 0, imm]
  | .lih d a imm => [Enc.x 5 0 a d 0, imm]
  | .vshape d a imm => [Enc.x 0 0 a d 10, imm]
  | .lil d imm => Enc.l d imm
  | .center f => Enc.k f
  | .mstream f => Enc.g f
  | .ld f => Enc.m 0 1 f
  | .st f => Enc.m 1 1 f
  | .ldc f => Enc.m 2 1 f
  | .stc f => Enc.m 3 1 f
  | .pref f => Enc.m 4 1 f
  | .ldw f => Enc.m 5 1 f
  | .stw f => Enc.m 6 1 f
  | .aadd f => Enc.m 0 2 f
  | .aand f => Enc.m 1 2 f
  | .aor f => Enc.m 2 2 f
  | .axor f => Enc.m 3 2 f
  | .amin f => Enc.m 4 2 f
  | .amax f => Enc.m 5 2 f
  | .aminu f => Enc.m 6 2 f
  | .amaxu f => Enc.m 7 2 f
  | .aswap f => Enc.m 8 2 f
  | .acas f => Enc.m 9 2 f
  | .afadd f => Enc.m 10 2 f
  | .vld f => Enc.m 0 9 f
  | .vst f => Enc.m 1 9 f
  | .vgather f => Enc.m 2 9 f
  | .vscatter f => Enc.m 3 9 f
  | .ctadd f => Enc.q 0 3 f
  | .ctwait f => Enc.q 1 3 f
  | .ctread f => Enc.q 2 3 f
  | .cttry f => Enc.q 3 3 f
  | .binit f => Enc.q 8 3 f
  | .barrive f => Enc.q 9 3 f
  | .bwait f => Enc.q 10 3 f
  | .barwait f => Enc.q 11 3 f
  | .sbind f => Enc.q 16 3 f
  | .sunbind f => Enc.q 17 3 f
  | .send f => Enc.q 0 4 f
  | .recv f => Enc.q 1 4 f
  | .recvt f => Enc.q 2 4 f
  | .ksend f => Enc.q 3 4 f
  | .radv f => Enc.q 4 4 f
  | .nbpost f => Enc.q 0 5 f
  | .nbview f => Enc.q 1 5 f
  | .nbinit f => Enc.q 2 5 f
  | .nbslot f => Enc.q 3 5 f
  | .tclaim f => Enc.q 0 6 f
  | .tdone f => Enc.q 1 6 f
  | .thand f => Enc.q 2 6 f
  | .schedw f => Enc.q 3 6 f
  | .schedr f => Enc.q 4 6 f
  | .ecmd f => Enc.q 0 11 f
  | .ewait f => Enc.q 1 11 f
  | .spawn f => Enc.q 0 13 f
  | .xplan f => Enc.q 1 13 f
  | .cslice f => Enc.c 0 f
  | .cslicei f => Enc.c 1 f
  | .crank f => Enc.c 2 f
  | .cstep f => Enc.c 3 f
  | .cfix f => Enc.c 4 f
  | .cfree f => Enc.c 5 f
  | .clease f => Enc.c 6 f
  | .mwfetch f => Enc.mq 0 f
  | .mwload f => Enc.mq 1 f
  | .mwswap f => Enc.mq 2 f
  | .mgwait f => Enc.mq 3 f
  | .mgadv f => Enc.mq 4 f
  | .mgread f => Enc.mq 5 f
  | .vadd f => Enc.v 0 0 f
  | .vsub f => Enc.v 0 1 f
  | .vmul f => Enc.v 0 2 f
  | .vmin f => Enc.v 0 3 f
  | .vmax f => Enc.v 0 4 f
  | .vand f => Enc.v 0 5 f
  | .vor f => Enc.v 0 6 f
  | .vxor f => Enc.v 0 7 f
  | .vshl f => Enc.v 0 8 f
  | .vshr f => Enc.v 0 9 f
  | .vsra f => Enc.v 0 10 f
  | .vfma f => Enc.v 1 0 f
  | .vfms f => Enc.v 1 1 f
  | .vabs f => Enc.v 2 0 f
  | .vneg f => Enc.v 2 1 f
  | .vmov f => Enc.v 2 2 f
  | .vcvt f => Enc.v 2 3 f
  | .vexp2 f => Enc.v 3 0 f
  | .vlog2 f => Enc.v 3 1 f
  | .vrcp f => Enc.v 3 2 f
  | .vrsq f => Enc.v 3 3 f
  | .vtanh f => Enc.v 3 4 f
  | .vcmp f => Enc.v 4 0 f
  | .vsel f => Enc.v 4 1 f
  | .vred f => Enc.v 5 0 f
  | .vscan f => Enc.v 5 1 f
  | .vtrans f => Enc.v 6 0 f
  | .vbcast f => Enc.v 6 1 f
  | .vshuf f => Enc.v 6 2 f
  | .vrot f => Enc.v 6 3 f
  | .vins f => Enc.v 7 0 f
  | .vext f => Enc.v 7 1 f
  | .vmand f => Enc.v 8 0 f
  | .vmor f => Enc.v 8 1 f
  | .vmnot f => Enc.v 8 2 f
  | .vmpop f => Enc.v 8 3 f
  | .vplanes f => Enc.v 9 0 f
  | .vunplane f => Enc.v 9 1 f
  | .vbarq f => Enc.v 10 0 f
  | .swadd f => Enc.w 0 f
  | .swsub f => Enc.w 1 f
  | .swmul f => Enc.w 2 f
  | .swmin f => Enc.w 3 f
  | .swmax f => Enc.w 4 f
  | .swfma f => Enc.w 5 f
  | .swcvt f => Enc.w 6 f
  | .swcopy f => Enc.w 7 f
  | .swbarq f => Enc.w 8 f
  | _ => []

/-- The first parcel of an instruction, zero-extended: the EVAL of R30. -/
def Instr.p0 (i : Instr) : Word := (((encode i).head?).getD 0#32).setWidth 64

/-- The length of an instruction in parcels (R18). -/
def Instr.parcels (i : Instr) : Nat := (encode i).length

/-- The table's word: `nbits` bits of `w`, later parcels of zeros, up to the longest instruction. -/
def tableParcels (nbits w : Nat) : List Parcel :=
  let v := w % 2 ^ nbits
  [BitVec.ofNat 32 v, BitVec.ofNat 32 (v >>> 32), BitVec.ofNat 32 (v >>> 64)]

/-- What the decoder reads from an instruction whose bits are `w`, numbered as the opcode table numbers them; the bytes
lie as the part stores them, little-endian, first parcel lowest (R17). -/
def decodeTableWord (nbits w : Nat) : Option Instr :=
  match decodeBytes (bytesOf (tableParcels nbits w)) with
  | .ok (i, _) => some i
  | .error _ => none

end Sys2Proof
end

