-- ==== Sys2Proof/Machine/Types.lean ====
section
/-! DEFINITION. The pieces of the machine's state as the spec lays them out: capabilities, contexts, cores, the
Model Press, leases, translation, engines, the matrix unit, links, runs and queues. Plain data throughout. -/

namespace Sys2Proof.Machine

/-! ### Capabilities -/

/-- A capability: 256 bits and the tag (R49). -/
structure Cap where
  tag : Bool
  otype : BitVec 16
  base : BitVec 48
  ext3 : BitVec 16
  ext2 : BitVec 16
  ext1 : BitVec 16
  ext0 : BitVec 16
  str2 : BitVec 32
  str1 : BitVec 32
  gen : BitVec 8
  lease : BitVec 16
  scope : BitVec 2
  perm : BitVec 8
  fmt : BitVec 6
  str3 : BitVec 24
  deriving DecidableEq, Repr

/-- The null capability (R49). -/
def Cap.null : Cap :=
  { tag := false, otype := 0, base := 0, ext3 := 0, ext2 := 0, ext1 := 0, ext0 := 0, str2 := 0, str1 := 0,
    gen := 0, lease := 0, scope := 0, perm := 0, fmt := 0, str3 := 0 }

/-! ### Contexts -/

/-- An entry of the binding table (R132). -/
structure Binding where
  v : Bool
  base : BitVec 48
  limit : BitVec 48
  ctr : BitVec 48
  deriving DecidableEq, Repr

/-- Suspension reasons (R291). -/
inductive Reason where
  | fresh | counter | barrier | message | page | xsync | yield
  deriving DecidableEq, Repr

/-- A suspended continuation: what it waits for, and where its answer goes (R291, R293, R296). -/
structure Susp where
  reason : Reason
  key : Word
  thresh : Word
  /-- The g register the answer is written to, for reasons whose instruction does not issue again. -/
  dst : BitVec 5
  /-- When it was suspended, to find the longest suspended (R294). -/
  since : Nat
  /-- What a timed wait still allows (R177, R313). -/
  limit : Option Nat
  deriving DecidableEq, Repr

/-- The registers of a context (R195) but for the system registers. -/
structure Regs where
  g : Vector Word 32
  c : Vector Cap 16
  v : Vector (BitVec 16384) 8
  m : Vector (BitVec 2048) 4
  vw : Vector Word 4
  bind : Vector Binding 8
  deriving DecidableEq, Repr

/-- The system registers that belong to a context (R202, R335). -/
structure SysRegs where
  status : Word
  cause : Word
  epc : BitVec 48
  eval : Word
  tvec : Word
  cid : BitVec 16
  vshape : Word
  fcsr : Word
  vprog : BitVec 16
  mflags : BitVec 3
  schedep : BitVec 16
  deriving DecidableEq, Repr

/-- A pending deferred store fault (R337). -/
structure Deferred where
  eval : Word
  pc : BitVec 48
  deriving DecidableEq, Repr

/-- A message on its way to a ring (R175, R176). -/
structure Message where
  dst : BitVec 11
  ring : BitVec 3
  payload : List Byte
  /-- Which payload bytes come from a poisoned granule: poison travels with the message (R345). -/
  poison : List Bool
  deriving DecidableEq, Repr

/-- A context slot, or an engine hart's registers (R159, R195). -/
structure Ctx where
  occupied : Bool
  pc : Word
  fcap : Cap
  r : Regs
  sr : SysRegs
  efcap : Cap
  esave : Cap
  deferred : Option Deferred
  susp : Option Susp
  /-- IDLE in force and its remaining limit; `some none` has no limit (R313). -/
  idle : Option (Option Nat)
  pinned : Bool
  /-- The virtual address of the continuation's record; none for a pinned one (R293). -/
  recAddr : Option (BitVec 48)
  /-- The capability its record was given to SPAWN through (R408). -/
  recCap : Cap
  frame : Cap
  prio : BitVec 2
  plevel : BitVec 3
  /-- The page request failed while the continuation was away (R86): the address. -/
  pageFail : Option Word
  /-- Resumed from a record or a save frame: its first fetch checks that the PC begins an instruction (R21). -/
  resumed : Bool
  /-- The debugger holds the context at a BRK (R372). -/
  held : Bool
  /-- An MWLOAD of the context waits for its expansion (R276). -/
  loading : Bool
  /-- The message whose status the context waits for (R176). -/
  sending : Option Message
  /-- A trap taken before the first instruction once the continuation is resident: cause, EVAL and the PC it is taken at
  (R174). -/
  owed : Option (BitVec 8 × Word × Word)
  /-- A VLD issued by parts: its elements read so far, and what they gave (R141, R142). -/
  vpart : Option (Nat × BitVec 16384)
  /-- The vector registers that hold zero by their valid bit, and those equal to the frame (R342). -/
  zero : BitVec 8
  clean : BitVec 8
  deriving DecidableEq, Repr

/-! ### Cores -/

/-- A receive ring (R108). -/
structure RxRing where
  en : Bool
  tail : BitVec 12
  head : BitVec 12
  logn : BitVec 4
  base : BitVec 14
  deriving DecidableEq, Repr

/-- The key bins (R109). -/
structure KeyBins where
  en : Bool
  op : BitVec 3
  nbm1 : BitVec 16
  base : BitVec 17
  deriving DecidableEq, Repr

/-- A counter bank (R378, R380). -/
structure PerfBank where
  ctl : Word
  pmc : Vector Word 8
  deriving DecidableEq, Repr

/-- A barrier slot (R134). -/
structure Barrier where
  code : BitVec 8
  gen : BitVec 8
  exp : BitVec 24
  cnt : BitVec 24
  deriving DecidableEq, Repr

/-- The phases of a core (R300). -/
inductive Phase where
  | outside | compute | exchange
  deriving DecidableEq, Repr

/-- What a side-log entry does when it is replayed (R81); `scope`: of the counter addition (R126). -/
inductive LogOp where
  | write | atomic (fn5 : BitVec 5) (wide : Bool) (operand cmp : Word) | counter (inc : Word) (scope : Nat)
  deriving DecidableEq, Repr

/-- A store or update between its agent and its home (R138, R142); `dst`: the register that the old value of an atomic
with a result is written to at its delivery. -/
inductive PressOp where
  | write
  | atomic (fn5 : BitVec 5) (wide : Bool) (operand cmp : Word) (dst : Option (BitVec 5))
  | counter (inc : Word)
  deriving DecidableEq, Repr

/-- One aligned 64-byte piece on its way (R142, R155). -/
structure Piece where
  agent : Agent
  op : PressOp
  /-- Place of the line, a multiple of 64. -/
  line : Nat
  va : BitVec 48
  data : BitVec 512
  /-- Bits written. -/
  mask : BitVec 512
  /-- Granules that become tagged (R58). -/
  tags : BitVec 2
  /-- Granules that become poisoned (R173, R361). -/
  poison : BitVec 2
  replicated : Bool
  nonAlloc : Bool
  run : Nat
  pc : BitVec 48
  ord : Nat
  deriving DecidableEq, Repr

/-- A side-log entry (R81); `ord`: of the store, which its replay keeps (R97; log 55). -/
structure SideEntry where
  op : LogOp
  ord : Nat
  va : BitVec 48
  data : BitVec 512
  mask : BitVec 512
  tags : BitVec 2
  lease : BitVec 16
  gen : BitVec 8
  agent : Agent
  run : Nat
  pc : BitVec 48
  epoch : Nat
  deriving DecidableEq, Repr

/-- A line in the fetch buffer (R156): its virtual address, where it came from, its words, the poison of its halves. -/
structure FetchLine where
  va : Nat
  pa : Nat
  data : BitVec 512
  poison : BitVec 2
  /-- A trap of R23 has met the line's fault (R344). -/
  met : Bool
  deriving DecidableEq, Repr

/-- A translation held by a page TLB (R76). -/
structure TlbEntry where
  tenant : Nat
  vpage : Nat
  leaf : Word
  big : Bool
  deriving DecidableEq, Repr

/-- A lease table entry (R66). -/
structure Lease where
  state : BitVec 2
  gen : BitVec 8
  base : BitVec 48
  limit : BitVec 48
  owner : BitVec 16
  parent : BitVec 16
  run : BitVec 16
  next : BitVec 16
  deriving DecidableEq, Repr

/-- A continuation written back and waiting (R294). -/
structure Parked where
  recAddr : BitVec 48
  run : Nat
  tenant : Nat
  prio : BitVec 2
  plevel : BitVec 3
  susp : Susp
  recCap : Cap
  frame : Cap
  deriving DecidableEq, Repr

/-- A record in a ready queue or a pick-up unit (R293, R295). -/
structure Ready where
  recAddr : BitVec 48
  prio : BitVec 2
  run : Nat
  plevel : BitVec 3
  core : BitVec 11
  recCap : Cap
  deriving DecidableEq, Repr

/-- An entry of a plan: four words (R170). -/
structure PlanEntry where
  w0 : Word
  w1 : Word
  w2 : Word
  w3 : Word
  deriving DecidableEq, Repr

/-- An exchange plan in progress (R169 to R174). -/
structure Plan where
  en : Bool
  offset : BitVec 15
  wbase : BitVec 20
  wsize : BitVec 20
  /-- COUNT, latched with the window (R169). -/
  count : BitVec 16
  /-- The entries as read when the exchange phase started (R169). -/
  entries : List PlanEntry
  /-- Next entry to depart while the plan runs. -/
  next : Option Nat
  /-- The first failure of the superstep: cause and EVAL. -/
  fault : Option (BitVec 8 × Word)
  nfail : BitVec 16
  late : BitVec 32
  maxLate : BitVec 16
  deriving DecidableEq, Repr

/-- A command an engine hart works at (R162 to R165, R274). -/
structure Engine where
  fifo : List (BitVec 48)
  /-- The command has begun: DONE so far. -/
  busy : Bool
  /-- Word 0 and N of its block, as read when it began (R163). -/
  w0 : Word
  n : Nat
  done : Nat
  src : Cap
  dst : Cap
  idx : Cap
  /-- Commands issued before the core's arrival at XSYNC (R302). -/
  before : Nat
  /-- Tiles of an epilogue command that are written whole, and elements of the one under way (R274). -/
  tile : Nat
  elem : Nat
  /-- The hart waits for a page (R165), and for which request (R84); 0 for a migration. -/
  parked : Option Word
  epoch : Nat
  /-- The page request failed while the run was away (R86, R165): the address. -/
  pageFail : Option Word
  /-- Replaced microcode, its entry capability (R158). -/
  micro : Option Cap
  deriving DecidableEq, Repr

/-! ### The matrix unit -/

/-- The tag of a weight-buffer unit (R254). -/
inductive UnitTag where
  | empty | plane (p k : Nat) | raw
  deriving DecidableEq, Repr

/-- A weight-buffer unit (R254). -/
structure WUnit where
  tag : UnitTag
  cause : BitVec 8
  data : BitVec 256
  deriving DecidableEq, Repr

/-- A stationary bank (R257, R258): weights by `128 * k + n`, exponents by column. -/
structure Bank where
  loaded : Bool
  p : Nat
  n : Nat
  cause : BitVec 8
  w : Sparse Int
  e : Sparse Int
  deriving DecidableEq, Repr

/-- A queued MWFETCH (R255, R256). -/
structure FetchOp where
  seq : Nat
  slot : BitVec 2
  cap : Cap
  raw : Bool
  p : Nat
  i0 : Int
  i1 : Int
  unit : Nat
  count : Nat
  done : Nat
  strict : Bool
  /-- The page request the fetch engine waits for (R256). -/
  wait : Option Nat
  deriving DecidableEq, Repr

/-- A queued MWLOAD (R257). -/
structure LoadOp where
  seq : Nat
  slot : BitVec 2
  p : Nat
  u : Nat
  j : Nat
  sparse : Bool
  mask : Nat
  exp : Option Nat
  bank : Bool
  deriving DecidableEq, Repr

/-- A queued MSTREAM (R280). -/
structure StreamOp where
  seq : Nat
  slot : BitVec 2
  f : GFields
  cap : Cap
  first : Int
  bslot : BitVec 8
  bank : Bool
  row : Nat
  started : Bool
  deriving DecidableEq, Repr

/-- A galley slot (R264): the latched P and N. -/
structure GalleySlot where
  p : Nat
  n : Nat
  deriving DecidableEq, Repr

/-- The galley of a core (R264, R265): accumulators by `(slot * 32 + row) * 128 + column`. -/
structure Galley where
  n : Nat
  head : Nat
  tail : Nat
  tiles : Nat
  opn : Nat
  slots : Vector GalleySlot 8
  acc : Sparse Int
  /-- Rows and P of the stream that opened the open tiles. -/
  rows : Nat
  p : Nat
  deriving DecidableEq, Repr

/-- The matrix unit of a core (R253 to R272). -/
structure Matrix where
  buf : Sparse WUnit
  bank0 : Bank
  bank1 : Bank
  sel : Bool
  seq : Nat
  fetches : List FetchOp
  loads : List LoadOp
  streams : List StreamOp
  galley : Galley
  deriving DecidableEq, Repr

/-- The pending register of the imposition unit for one block (R327): four words of R323. -/
structure PendSched where
  w0 : Word
  w1 : Word
  w2 : Word
  w3 : Word
  deriving DecidableEq, Repr

/-- What a core does besides its contexts. -/
structure CoreUnits where
  sideLog : List SideEntry
  fetchBuf : List FetchLine
  leases : List (Nat × Lease)
  tlb : List TlbEntry
  ready : List Ready
  waiting : List Parked
  barriers : Sparse Barrier
  /-- Pending schedules of the imposition unit, by the place of their block (R327). -/
  pending : Sparse PendSched
  copy : Engine
  epi : Engine
  mx : Matrix
  deriving DecidableEq, Repr

/-- A region of device memory that the debugger supplies: its place and its length in bytes (R374, R375). -/
structure Region where
  base : Nat
  len : Nat
  deriving DecidableEq, Repr

/-- What an entry of a boundary log says (R375). -/
inductive LogItem where
  /-- The context that issues changes. -/
  | issue (slot : Nat)
  /-- What an instruction whose outcome the core's own state does not fix left: its context, the window file, the stores
  it sent. -/
  | outcome (slot : Nat) (c : Ctx) (window : Sparse (BitVec 32)) (stores : List Piece)
  /-- A status or time-out that reached a waiting context. -/
  | answer (slot : Nat) (c : Ctx)
  deriving DecidableEq, Repr

/-- An entry of a boundary log: SSTEP.COUNT of its phase, the instructions and the issue groups (R25) that the core's contexts
had issued in it. -/
structure LogEntry where
  sstep : BitVec 32
  index : Nat
  groups : Nat
  item : LogItem
  deriving DecidableEq, Repr

/-- The debugger's and the log's view of a core (R374 to R376). -/
structure CoreDebug where
  foreign : List Nat
  log : List LogEntry
  /-- Instructions and issue groups of the core's contexts in the phase. -/
  count : Nat
  groups : Nat
  /-- Entries written to the boundary log's region since replay was armed (R375). -/
  used : Nat
  /-- The instruction under way has read what the log must hold. -/
  touched : Bool
  replaying : Bool
  /-- The debug port lets one instruction of a replaying core issue. -/
  stepping : Bool
  deriving DecidableEq, Repr

/-- A core's share of a pre-empted run (R342): what its save frames and core state do not hold as bytes, or what the core
needs of it while the run is away. -/
structure SavedCore where
  run : Nat
  ctxs : List (Option Ctx)
  phase : Phase
  arrived : Option (BitVec 3)
  wasStopped : Bool
  closed : Option (BitVec 3)
  walloc : Vector Word 4
  xnext : Bool
  xmode : Bool
  sstepLevel : BitVec 3
  sstepCount : BitVec 32
  plan : Plan
  rx : Vector RxRing 8
  kbin : KeyBins
  perf : PerfBank
  frozen : Option PerfBank
  barriers : Sparse Barrier
  pending : Sparse PendSched
  mx : Matrix
  copy : Engine
  epi : Engine
  copyCtx : Ctx
  epiCtx : Ctx
  ready : List Ready
  waiting : List Parked
  dbg : CoreDebug
  deriving DecidableEq, Repr

/-- A core (R297 to R304, R336, R342). -/
structure Core where
  last : BitVec 2
  run : Option Nat
  window : Sparse (BitVec 32)
  walloc : Vector Word 4
  rcc : Cap
  rdc : Cap
  xnext : Bool
  xmode : Bool
  sstepLevel : BitVec 3
  sstepCount : BitVec 32
  phase : Phase
  arrived : Option (BitVec 3)
  /-- A debug stop holds the core at a close (R370), and where that was its own, its level: its compute phase is next. -/
  stopped : Bool
  closed : Option (BitVec 3)
  /-- CYCLE at which the core reached its boundary for a pre-emption, until it is saved (R340, R412). -/
  boundary : Option Word
  plan : Plan
  rx : Vector RxRing 8
  kbin : KeyBins
  perf : PerfBank
  frozen : Option PerfBank
  held : Bool
  gated : Bool
  /-- The contexts have been restored, and none of them has issued since (R377, R412). -/
  restored : Bool
  u : CoreUnits
  saved : Option SavedCore
  dbg : CoreDebug
  deriving DecidableEq, Repr

/-! ### The Model Press -/

/-- A sector in a view cache (R138): virtual and physical sector, bytes, tags, poison. -/
structure Sector where
  agent : Agent
  va : Nat
  pa : Nat
  data : BitVec 1024
  tags : BitVec 4
  poison : BitVec 4
  deriving DecidableEq, Repr

/-- Who waits at a counter (R129). -/
inductive Waiter where
  | agent (a : Agent)
  | record (core : Nat) (addr : BitVec 48)
  deriving DecidableEq, Repr

/-- A registered watch (R129). -/
structure Watch where
  cell : Nat
  thresh : Word
  who : Waiter
  deriving DecidableEq, Repr

/-- A plan transfer or a KSEND pair in the exchange channel (R138, R170, R178). -/
inductive Exchange where
  | transfer (run src dst index : Nat) (doff : Nat) (bytes : List Byte) (poison : List Bool)
  | pair (run src dst : Nat) (level : BitVec 3) (key value : Word)
  deriving DecidableEq, Repr

/-- A pending propagation to another replica (R150). -/
structure Propagation where
  agent : Agent
  dst : Nat
  piece : Piece
  deriving DecidableEq, Repr

/-- A sector an agent has delivered a write to since its last system-scope release, and whether a release of
package scope came after it (R147). -/
structure Delivered where
  agent : Agent
  sector : Nat
  pkg : Bool
  deriving DecidableEq, Repr

/-- The Model Press (R138). -/
structure Press where
  queues : List Piece
  fifo : List Piece
  views : List Sector
  watches : List Watch
  exchange : List Exchange
  props : List Propagation
  delivered : List Delivered
  deriving DecidableEq, Repr

/-! ### Leases, translation -/

/-- The sweep engine and the head of the free list (R66 to R70); the table itself lies in device memory. -/
structure Leases where
  /-- The free list's first entry, 0 for none (R66). -/
  head : BitVec 16
  eligible : List Nat
  passing : Bool
  /-- The slices whose sweep hart has swept in this pass, as 16 × die + slice (R69). -/
  done : List Nat
  sweepep : Word
  deriving DecidableEq, Repr

/-- A range descriptor (R77). -/
structure RangeDesc where
  vbase : Nat
  vlimit : Nat
  poff : Nat
  die : Nat
  chmask : BitVec 12
  rd : Bool
  wr : Bool
  xe : Bool
  deriving DecidableEq, Repr

/-- A tenant (R75, R84): the root of its tables, ranges backed on demand, the pool of frames. -/
structure Tenant where
  root : Nat
  onDemand : List (Nat × Nat)
  pool : List Nat
  pasid : Nat
  defaultPolicy : Bool
  /-- The .data sections that the loader has placed: lease, virtual base, bytes (R403, R404). -/
  data : List (Nat × Nat × Nat)
  deriving DecidableEq, Repr

/-- An outstanding page request (R84). -/
structure PageRequest where
  die : Nat
  tenant : Nat
  vpage : Nat
  epoch : Nat
  /-- The page is one of 32 MiB: a level-2 leaf (R78). -/
  big : Bool
  host : Bool
  /-- The tenant's PASID, which a request to the host carries (R84, R393). -/
  pasid : Nat
  /-- Its epoch names a live request: the run that asked has not ended (R85). -/
  live : Bool
  empties : Nat
  deriving DecidableEq, Repr

/-- A migration in progress (R89). -/
structure Migration where
  tenant : Nat
  va : Nat
  newPage : Nat
  /-- The next of its five steps. -/
  next : MigrationPhase
  deriving DecidableEq, Repr

/-! ### Dies, cards, links -/

/-- An L2 line (R95, R96). -/
structure L2Line where
  addr : Nat
  valid : BitVec 2
  dirty : BitVec 2
  owner : BitVec 16
  deriving DecidableEq, Repr

/-- An L2 slice with its controller (R87, R88, R95 to R99). -/
structure Slice where
  tenant : BitVec 16
  shared : Bool
  degraded : Bool
  /-- Lines by `16 * set + way`. -/
  lines : Sparse (Option L2Line)
  quarantine : List (Nat × Nat)
  bypass : List Nat
  /-- Count-min sketch by `1024 * row + column`. -/
  sketch : Sparse (BitVec 16)
  hot : List (Nat × Nat)
  interval : Word
  /-- k of the sampling interval of 2^k cycles, and CYCLE at which the interval under way began (R88). -/
  hotK : BitVec 5
  hotStart : Word
  /-- The buffer of hot-page lists holds one that firmware has not read (R88). -/
  hotFull : Bool
  /-- The pseudo-LRU tree of each set: 15 bits, node `i` over nodes `2i + 1` and `2i + 2` (R95; log 13). -/
  plru : Sparse (BitVec 15)
  deriving DecidableEq, Repr

/-- An error-log record (R346). -/
structure LogRecord where
  w0 : Word
  w1 : Word
  w2 : Word
  w3 : Word
  deriving DecidableEq, Repr

/-- A trace unit (R377, R379, R380). -/
structure TraceUnit where
  en : Bool
  runs : List Nat
  ring : Nat
  len : Nat
  index : Nat
  lost : Nat
  hyper : Bool
  preempted : Bool
  /-- Index up to which the debugger has read the ring: the room behind it is free again (R377). -/
  read : Nat
  /-- k of the sampling interval, none for no samples, and CYCLE at which the interval under way began (R378). -/
  sampleK : Option (BitVec 5)
  sampleStart : Word
  /-- The cores sampled since the interval before it ended. -/
  sampled : List Nat
  deriving DecidableEq, Repr

/-- The ring of buffers for a die's router dumps (R381). -/
structure GridRing where
  /-- k of the interval, none for no dumps. -/
  k : Option (BitVec 5)
  /-- The place of the ring and its buffers, how many of them hold a dump not yet taken, and the next to be written. -/
  base : Nat
  buffers : Nat
  full : Nat
  next : Nat
  interval : Word
  dropped : Word
  /-- CYCLE at which the interval under way began, and the step in which the counts were cleared last. -/
  since : Word
  cleared : Nat
  deriving DecidableEq, Repr

/-- A request record of a flit (R283). -/
structure Request where
  op : Nat
  size : Nat
  scope : Nat
  tag : Bool
  psn : Bool
  core : Nat
  kind : Nat
  txn : BitVec 16
  reqEpoch : BitVec 16
  addr : Nat
  run : Nat
  operand : Word
  data : BitVec 256
  mask : BitVec 32
  deriving DecidableEq, Repr

/-- A sector that a flit carries (R283). -/
structure LinkSector where
  data : BitVec 1024
  addr : Nat
  tags : BitVec 4
  psn : BitVec 4
  txn : BitVec 16
  reqEpoch : BitVec 16
  core : Nat
  deriving DecidableEq, Repr

/-- What travels in a flit's body: a request record or a sector (R283). -/
inductive LinkBody where
  | record (r : Request)
  | sector (x : LinkSector)
  deriving DecidableEq, Repr

/-- A record or sector on its way to a die, on a virtual channel (R167, R282). -/
structure LinkItem where
  vc : Nat
  dst : Nat
  body : LinkBody
  deriving DecidableEq, Repr

/-- What has reached the router of its destination die: a record or sector, of a long response all its data bytes (R283). -/
structure Arrival where
  item : LinkItem
  bytes : List Byte
  deriving DecidableEq, Repr

/-- A die. -/
structure Die where
  cycle : Word
  /-- The shared translation cache, 4,096 entries at most (R76). -/
  xcache : List TlbEntry
  /-- CYCLE at which the refresh timer stood at 0 (R103). -/
  refreshStart : Word
  /-- The bank whose refresh window is in progress (R103). -/
  refreshing : Option (BitVec 4)
  slices : Sparse Slice
  log : List LogRecord
  trace : TraceUnit
  grid : GridRing
  /-- What the links have brought to this die (R283). -/
  arrivals : List Arrival
  epoch : BitVec 16
  pickup : List Ready
  retention : Bool
  /-- Writes to the weight store since reset (R376). -/
  rewrites : Nat
  deriving DecidableEq, Repr

/-- The clock steps (R398). -/
inductive Clock where
  | mhz1500 | mhz1200 | mhz1000 | mhz750
  deriving DecidableEq, Repr

/-- A card. -/
structure Card where
  clock : Clock
  capW : Nat
  /-- The power the card and its package draw, in W (R10, R398). -/
  drawn : Nat
  drawnPkg : Nat
  /-- The size of BAR 2 is 2 to this power (R391). -/
  bar2 : Nat
  hostWins : List (Nat × HostWindow)
  accept : List (Nat × AcceptWindow)
  /-- Results of ATS: PASID and page, and the host page they name (R393). -/
  ats : List ((Nat × Nat) × Nat)
  lastKick : Word
  /-- Core-cycles each run has held since the accounting interval began at a CYCLE of die 0 (R382). -/
  heldCycles : Sparse Nat
  intervalStart : Word
  deriving DecidableEq, Repr

/-- A link port (R284 to R286). -/
inductive LinkState where
  | up | retraining | down
  deriving DecidableEq, Repr

/-- A module of a link: UCIe has four, the bridge one (R284). It sends and receives flits in sequence (R285). -/
structure LinkModule where
  /-- Sent flits not yet acknowledged, oldest first: the replay buffer (R284). -/
  sent : List Flit
  /-- SEQ of the next flit to send. -/
  seq : BitVec 12
  /-- A flit number from which the other end asks for a replay. -/
  resend : Option (BitVec 12)
  /-- Records on their way that wait for room in the replay buffer, or for the end of a retraining (R285). -/
  waiting : List LinkItem
  /-- SEQ of the next flit expected. -/
  expect : BitVec 12
  lastGood : BitVec 12
  /-- Replays of one flit in a row. -/
  replays : Nat
  replayFrom : Option (BitVec 12)
  /-- Flit buffers free at the other end, by virtual channel (R282). -/
  credits : Vector Nat 4
  /-- Flit buffers freed here and not yet returned, by virtual channel. -/
  freed : Vector Nat 4
  deriving DecidableEq, Repr

/-- A link port, with its modules (R282 to R286). -/
structure Link where
  state : LinkState
  modules : Vector LinkModule 4
  accepted : List Flit
  /-- What accepted flits carried (R283). -/
  requests : List LinkItem
  /-- OP 36 records that await their others (R283). -/
  parts : List LinkItem
  peerEpochs : List (Nat × BitVec 16)
  deriving DecidableEq, Repr

/-! ### Runs, queues, the front end -/

/-- The life of a run. -/
inductive RunState where
  | preparing | running | preempted | stopped | ended
  deriving DecidableEq, Repr

/-- The domain of a run and its tiles (R298, R362). -/
structure Domain where
  level : BitVec 3
  die : Nat
  row0 : Nat
  col0 : Nat
  rows : Nat
  cols : Nat
  tileRows : Nat
  tileCols : Nat
  deriving DecidableEq, Repr

/-- The first fault of a run and the counts of its colophon (R338, R367). -/
structure FaultRecord where
  fault : Bool
  cause : BitVec 8
  core : BitVec 11
  sstep : BitVec 32
  epc : BitVec 48
  eval : Word
  double : Bool
  cause2 : BitVec 8
  epc2 : BitVec 48
  eval2 : Word
  nfault : BitVec 32
  lostdef : BitVec 32
  dropped : BitVec 32
  preempt : BitVec 32
  deriving DecidableEq, Repr

/-- How a run is being debugged (R370 to R377). -/
structure RunDebug where
  stopLevel : Option (BitVec 3)
  stoppedAt : Option (BitVec 3)
  brk : Bool
  replay : Bool
  journal : Bool
  /-- Where snapshots and boundary logs go; without a region they stay with the debug port alone (R374, R375; log 27). -/
  snaps : Option Region
  logs : Option Region
  deriving DecidableEq, Repr

/-- A run. -/
structure Run where
  id : Word
  queue : Nat
  tenant : Nat
  /-- The PASID of its queue, for the addresses of its packet (R357). -/
  pasid : Nat
  domain : Domain
  prio : BitVec 2
  esz : BitVec 2
  /-- It executes in express areas, of this size E at least, of the runs it pre-empts (R411). -/
  express : Option Nat
  victims : List Nat
  state : RunState
  nctx : Nat
  ranges : List RangeDesc
  colo : BitVec 48
  donectr : BitVec 48
  event : Bool
  /-- The index and the words of its packet, and which queue of its number it came from (R358, R369). -/
  packet : Word
  words : List Word
  queueGen : Nat
  /-- ENACCT and PART of its queue at its launch (R356, R382). -/
  account : Nat
  part : BitVec 8
  /-- The microcode its launch gives the gateway harts in place of the shipped one (R158). -/
  gateway : Option Cap
  /-- CYCLE at its first instruction, and whether that has issued (R367). -/
  start : Word
  begun : Bool
  /-- The cards whose command complex has completed the run's initial close (R364). -/
  opened : List Nat
  energy : Nat
  f : FaultRecord
  /-- The STATUS of the colophon once the run is ending (R367). -/
  ending : Option (BitVec 4)
  dbg : RunDebug
  deriving DecidableEq, Repr

/-- A packet taken from a ring and not yet complete (R358, R360). -/
structure Packet where
  index : Word
  words : List Word
  deriving DecidableEq, Repr

/-- A queue: the shadow half of R356, as words, and the hart's progress. -/
structure Queue where
  shadow : Vector Word 8
  ridx : Word
  published : Word
  sincePublish : Nat
  pending : List Packet
  rung : Bool
  /-- Which queue of this number it is: one more for every queue created (R369). -/
  gen : Nat
  /-- Bytes that the COPY packet at work has copied (R361). -/
  copied : Nat
  /-- The dies whose weight store its COPY holds (R102, R361). -/
  holds : List Nat
  deriving DecidableEq, Repr

/-- A guard window (R353): base and limit in units of 4 KiB. -/
structure GuardWindow where
  base4k : Nat
  limit4k : Nat
  r1 : Bool
  w1 : Bool
  x1 : Bool
  r2 : Bool
  w2 : Bool
  x2 : Bool
  tenant : Nat
  common : Bool
  deriving DecidableEq, Repr

/-- A command hart (R353). -/
structure CommandHart where
  /-- The guard table: 24 windows, which only level 0 writes. -/
  guard : Vector (Option GuardWindow) 24
  level : Nat
  /-- Where the hart's software stands. -/
  pc : Nat
  /-- The single entry address of levels 0 and 1, fixed by the monitor at boot. -/
  entry : Vector (Option Nat) 2
  /-- Callers to resume: level and address, innermost first. -/
  callers : List (Nat × Nat)
  refused : Option (Nat × Nat)
  halted : Bool
  deriving DecidableEq, Repr

/-- The outcome the debug port reports (R371, R376, R380, R383). -/
inductive DebugResult where
  | none | value (v : BitVec 256) | done | denied | power | busy | ended | refused | preempted
  deriving DecidableEq, Repr

/-- What stands in the debugger's buffers (R374). -/
structure Snapshot where
  core : Nat
  count : BitVec 32
  ctxs : List Ctx
  state : Core
  bytes : List (Nat × Byte)
  tags : List Nat
  poison : List Nat
  rewrites : Nat
  deriving DecidableEq, Repr

/-- What a configuration record holds (R394). -/
inductive RecordKind where
  | repair | trim | energy | owner | vendor
  deriving DecidableEq, Repr

/-- A configuration record in flash (R394): its SM3 hash, its signature, and the energy weights of a record that holds them:
of an event, of a sector transfer and of a flit (R382). -/
structure ConfigRecord where
  kind : RecordKind
  hash : BitVec 256
  signature : BitVec 512
  weights : Nat × Nat × Nat
  deriving DecidableEq, Repr

/-- What SPI flash holds (R394): hashes and signatures of the monitor and the firmware, the records. -/
structure Flash where
  monitor : BitVec 256 × BitVec 512
  firmware : BitVec 256 × BitVec 512
  records : List ConfigRecord
  deriving DecidableEq, Repr

/-- An attestation report (R395). -/
structure Report where
  nonce : BitVec 256
  monitor : BitVec 256
  firmware : BitVec 256
  records : List (BitVec 256)
  security : Security
  serial : Word
  signature : BitVec 512
  deriving DecidableEq, Repr

/-- The device as a whole: boot, events, counts (R382 to R396). -/
structure Device where
  stage : BitVec 3
  code : BitVec 8
  unit : BitVec 16
  security : Security
  monitorOk : Bool
  firmwareOk : Bool
  off : Bool
  msix : List (BitVec 3)
  securityEvents : Nat
  protocolErrors : Nat
  droppedFlits : Nat
  discardedAnswers : Nat
  tableErrors : Nat
  droppedHotLists : Nat
  /-- Frames of retired pages, never allocated again (R347). -/
  retired : List Nat
  watchdogLost : Bool
  lastRead : Word
  flash : Flash
  /-- The records that verified at boot, which alone are used (R394). -/
  records : List ConfigRecord
  serial : Word
  report : Option Report
  accounts : Sparse Nat
  /-- The accounts of runs that have left and may still be charged (R382). -/
  gone : List (Nat × Nat)
  nextRun : BitVec 48
  nextEpoch : Nat
  robin : Nat
  result : DebugResult
  snapshots : List Snapshot
  /-- What cores in replay mode return to (R376). -/
  replayStops : List Snapshot
  /-- Places of the colophons written, newest first: the debug port reads them in every security state (R383). -/
  colophons : List Nat
  deriving DecidableEq, Repr

/-- What the host driver and the firmware do besides the rows of the opcode table. -/
inductive Action where
  /-- The host driver grants a tenant physical frames (R84). -/
  | grantFrames (tenant : Nat) (frames : List Nat)
  /-- Firmware moves a range of a resident run to other memory: its entry `k` names another place (R77, R89). -/
  | migrateRange (run k die poff : Nat) (chmask : BitVec 12)
  /-- The host driver registers a range of a tenant as backed on demand (R84). -/
  | backOnDemand (tenant base limit : Nat)
  /-- The host driver gives a tenant its PASID (R84, R393). -/
  | tenantPasid (tenant pasid : Nat)
  /-- The driver or firmware sets HOST in the leaf entry of a page that is not present (R78, R84). -/
  | pageHost (tenant va : Nat) (host : Bool)
  /-- The monitor, at level 0, writes a window of a hart's guard table (R353). -/
  | guardWrite (hart : Nat) (k : Nat) (w : Option GuardWindow)
  /-- The monitor fixes the entry address of a level at boot (R353). -/
  | guardEntry (hart level addr : Nat)
  /-- A hart's software enters a more privileged level at its entry, or resumes its caller (R353). -/
  | enterLevel (hart level : Nat)
  | resumeCaller (hart : Nat)
  /-- The monitor gives a hart to less privileged software at an address (R353). -/
  | dropLevel (hart level addr : Nat)
  /-- Firmware sets k of a slice's sampling interval, and reads its hot-page buffer (R88). -/
  | hotInterval (die chan : Nat) (k : BitVec 5)
  | readHotList (die chan : Nat)
  /-- A launch gives a run's replacing microcode for a hart kind, from a capability in the tenant's memory (R158). -/
  | microcode (q run kind va : Nat)
  /-- The sending side of a link module sends its next flit (R282, R285). -/
  | sendFlit (p : Port) (module : BitVec 2)
  /-- A port's next accepted record is handed on (R283). -/
  | takeRequest (p : Port)
  /-- The debug port supplies a ring of buffers for a die's router dumps and sets k, and takes a dump (R381). -/
  | gridRing (die base buffers : Nat) (k : BitVec 5)
  | takeDump (die : Nat)
  /-- Firmware sets a card's power cap, in W (R10, R398). -/
  | powerCap (card watts : Nat)
  /-- A card and its package come to draw so many W (R398). -/
  | draw (card watts package : Nat)
  /-- The host sets the size of BAR 2 (R391). -/
  | barSize (card log2 : Nat)
  /-- The host's address translation gives a page of a PASID another place (R393). -/
  | hostMap (pasid page place : Nat)
  /-- What SPI flash holds changes (R394). -/
  | flash (x : Flash)
  /-- The debugger supplies the regions of snapshots and boundary logs of a run (R374, R375). -/
  | replayRegions (run : Nat) (snaps logs : Option Region)
  /-- The debug port replays a core from the boundary of a snapshot (R376). -/
  | replayFrom (core : Nat) (count : BitVec 32)
  /-- The debugger has read a trace ring up to an index (R377). -/
  | traceRead (die index : Nat)
  /-- The hypervisor enables a trace unit that it holds (R377, R379). -/
  | traceByHyper (die run ring len : Nat)
  /-- The debug port asks for counter samples every 2^k cycles (R378). -/
  | sampleEvery (die : Nat) (k : Option (BitVec 5))
  /-- The debug port halts, resumes or steps a command hart (R383). -/
  | hartHalt (hart : Nat) (halt : Bool)
  | hartStep (hart : Nat)
  /-- A sweep hart issues the next part of its pass (R69, R138). -/
  | sweepPart (die slice : Nat)
  deriving DecidableEq, Repr

/-- One entry of the schedule: an event of the part or its surroundings; the next instruction of an agent, whole; the
same by parts, where R142 or R340 lets other steps come between; an action of host driver or firmware (R141). -/
inductive Turn where
  | event (i : Instr)
  | issue (a : Agent)
  | part (a : Agent)
  | act (x : Action)
  deriving DecidableEq, Repr

end Sys2Proof.Machine
end

