-- ==== Sys2Proof/Machine/Cap.lean ====
section
/-! DEFINITION. Capabilities: the layout of R49, formats and what they admit (R50, R60), element addresses,
footprints and byte offsets (R54, R55). -/

namespace Sys2Proof.Machine

/-- The 256 bits of a capability, word 0 lowest (R49). -/
def Cap.bits (c : Cap) : BitVec 256 :=
  (c.gen ++ c.lease ++ c.scope ++ c.perm ++ c.fmt ++ c.str3) ++ (c.str2 ++ c.str1)
    ++ (c.ext3 ++ c.ext2 ++ c.ext1 ++ c.ext0) ++ (c.otype ++ c.base)

/-- The capability that 256 bits and a tag spell (R49). -/
def Cap.ofBits (b : BitVec 256) (tag : Bool) : Cap :=
  { tag := tag, base := b.extractLsb' 0 48, otype := b.extractLsb' 48 16, ext0 := b.extractLsb' 64 16,
    ext1 := b.extractLsb' 80 16, ext2 := b.extractLsb' 96 16, ext3 := b.extractLsb' 112 16,
    str1 := b.extractLsb' 128 32, str2 := b.extractLsb' 160 32, str3 := b.extractLsb' 192 24,
    fmt := b.extractLsb' 216 6, perm := b.extractLsb' 222 8, scope := b.extractLsb' 230 2,
    lease := b.extractLsb' 232 16, gen := b.extractLsb' 248 8 }

/-- The extent e_k (R49). -/
def Cap.ext (c : Cap) (k : Nat) : Nat :=
  (if k = 0 then c.ext0 else if k = 1 then c.ext1 else if k = 2 then c.ext2 else c.ext3).toNat + 1

/-- The stride s_k in elements; dimension 0 has stride 1 (R49). -/
def Cap.stride (c : Cap) (k : Nat) : Int :=
  if k = 0 then 1 else if k = 1 then c.str1.toInt else if k = 2 then c.str2.toInt else c.str3.toInt

/-- The capability with EXTk set. -/
def Cap.withExt (c : Cap) (k : Nat) (e : Nat) : Cap :=
  let x := BitVec.ofNat 16 (e - 1)
  if k = 0 then { c with ext0 := x } else if k = 1 then { c with ext1 := x }
  else if k = 2 then { c with ext2 := x } else { c with ext3 := x }

/-- The capability with stride k set. -/
def Cap.withStride (c : Cap) (k : Nat) (s : Int) : Cap :=
  if k = 1 then { c with str1 := BitVec.ofInt 32 s } else if k = 2 then { c with str2 := BitVec.ofInt 32 s }
  else if k = 3 then { c with str3 := BitVec.ofInt 24 s } else c

namespace Fmt

/-- The format codes of R50 with a name of their own. -/
def byte : Nat := 0x00
def s32 : Nat := 0x05
def s64 : Nat := 0x07
def z64 : Nat := 0x08
def s4 : Nat := 0x0F
def cap : Nat := 0x20
def sealer : Nat := 0x21
def counter : Nat := 0x22
def board : Nat := 0x23
def code : Nat := 0x24

/-- A BPI format (R50). -/
def isBpi (f : Nat) : Bool := Sys2Proof.Fmt.isP f
/-- The plane count of a BPI format (R50). -/
def planes (f : Nat) : Nat := f - 0x10
/-- The codes R50 reserves. -/
def reserved (f : Nat) : Bool := !Sys2Proof.Fmt.defined f

/-- The element size in bytes, of formats whose element is a whole number of bytes; 0 of the others (R50). -/
def size (f : Nat) : Nat :=
  if f = 0x00 || f = 0x01 || f = 0x02 || f = 0x0D || f = 0x0E then 1
  else if f = 0x03 || f = 0x04 || f = 0x09 || f = 0x0A then 2
  else if f = 0x05 || f = 0x06 || f = 0x0B then 4
  else if f = 0x07 || f = 0x08 || f = 0x0C then 8
  else if f = 0x20 then 32 else if f = 0x21 then 1 else if f = 0x22 then 8
  else if f = 0x23 then 576 else if f = 0x24 then 64 else 0

/-- The groups between which CFMT reinterprets (R50, the CFMT entry); 0 is no group. -/
def group (f : Nat) : Nat :=
  if f ≤ 0x0E then size f else 0

/-- Two formats are equal or of one size group (R120, the CFMT entry). -/
def sameGroup (f g : Nat) : Bool := f = g || (group f != 0 && group f = group g)

end Fmt

/-- The kinds of use of R60. -/
inductive Kind where
  | L | S | A | LC | SC | X | W | CTR | CTW | NB | SEAL | UNSEAL
  deriving DecidableEq, Repr

/-- Need(kind): the permission bits a use takes (R60, R51). -/
def Kind.need : Kind → BitVec 8
  | .L => 0x01 | .S => 0x02 | .A => 0x03 | .LC => 0x05 | .SC => 0x0A | .X => 0x10 | .W => 0x20
  | .CTR => 0x01 | .CTW => 0x02 | .NB => 0x03 | .SEAL => 0x02 | .UNSEAL => 0x01

/-- The kinds a format admits (R50). -/
def Kind.admitted (k : Kind) (f : Nat) : Bool :=
  if f = Fmt.byte then k = .L || k = .S || k = .A || k = .W || k = .LC || k = .SC
  else if f = 0x0F then k = .L || k = .S || k = .W
  else if f = 0x07 || f = 0x08 || f = 0x0C then k = .L || k = .S || k = .A
  else if f ≤ 0x0E then k = .L || k = .S || k = .A || k = .W
  else if Fmt.isBpi f then k = .L || k = .W
  else if f = Fmt.cap then k = .L || k = .S || k = .LC || k = .SC
  else if f = Fmt.sealer then k = .SEAL || k = .UNSEAL
  else if f = Fmt.counter then k = .CTR || k = .CTW
  else if f = Fmt.board then k = .NB
  else if f = Fmt.code then k = .X || k = .L
  else false

/-- The byte distance of `lin` elements from BASE (R54): BPI by whole blocks, S4 by half bytes. -/
def Cap.elemBytes (c : Cap) (lin : Int) : Int :=
  let f := c.fmt.toNat
  if Fmt.isBpi f then 256 * (lin / 256) else if f = 0x0F then lin / 2 else Fmt.size f * lin

/-- The linear element index of (i0, i1) (R54); for CODE STR1 is the entry offset and dimension 1 has extent 1. -/
def Cap.lin (c : Cap) (i0 i1 : Int) : Int :=
  if c.fmt.toNat = Fmt.code then i0 else i0 + i1 * c.str1.toInt

/-- Cap_Addr, exact (R54). -/
def Cap.addr (c : Cap) (i0 i1 : Int) : Int := c.base.toNat + c.elemBytes (c.lin i0 i1)

/-- ByteOffset(c, k, n) of the slicing entries. -/
def Cap.byteOffset (c : Cap) (k : Nat) (n : Int) : Int :=
  let f := c.fmt.toNat
  if Fmt.isBpi f then n * c.stride k else if f = 0x0F then n * c.stride k / 2
  else if f = Fmt.sealer then n else n * c.stride k * Fmt.size f

/-- BASE moved by a byte offset, modulo 2^48. -/
def Cap.moved (c : Cap) (off : Int) : Cap := { c with base := BitVec.ofInt 48 (c.base.toNat + off) }

/-- The least and the greatest element reach of one dimension beyond the first (R55). -/
def Cap.reach (c : Cap) (k : Nat) : Int × Int :=
  let m := c.stride k * ((c.ext k : Int) - 1)
  if m < 0 then (m, 0) else (0, m)

/-- The bounding range of the footprint: lowest byte and highest byte plus one (R55). -/
def Cap.bounds (c : Cap) : Int × Int :=
  let f := c.fmt.toNat
  if f = Fmt.code then (c.base.toNat, c.base.toNat + 64 * c.ext 0)
  else
    let r1 := c.reach 1
    let r2 := c.reach 2
    let r3 := c.reach 3
    let lo := r1.1 + r2.1 + r3.1
    let hi := r1.2 + r2.2 + r3.2 + ((c.ext 0 : Int) - 1)
    let width : Int := if Fmt.isBpi f then 32 * Fmt.planes f else if f = 0x0F then 1 else Fmt.size f
    (c.base.toNat + c.elemBytes lo, c.base.toNat + c.elemBytes hi + width)

/-- An address lies in the footprint of a CODE capability (R53, R55). -/
def Cap.covers (c : Cap) (a : Int) : Bool := c.bounds.1 ≤ a && a < c.bounds.2

/-- Region of a 48-bit address (R12). -/
def region (a : Nat) : Nat := a / 2 ^ 46 % 4
/-- The die field of a region 00 or 01 address (R12). -/
def dieOf (a : Nat) : Nat := a / 2 ^ 44 % 4
/-- SCOPE agrees with the region of BASE (R52). -/
def scopeAgrees (scope : BitVec 2) (base : BitVec 48) : Bool :=
  (scope = 0 && region base.toNat = 1) || (scope = 1 && region base.toNat = 0) || (scope = 2 && region base.toNat = 2)

/-- The core number of (die, row, col) (R11). -/
def coreNum (die row col : Nat) : Nat := die * 384 + row * 24 + col
/-- The core whose local memory a region 01 address names (R12). -/
def localCore (a : Nat) : Nat := coreNum (dieOf a) (a / 2 ^ 40 % 16) (a / 2 ^ 35 % 32)
/-- The base of a core's local memory (R12). -/
def localBase (core : Nat) : Nat :=
  2 ^ 46 + (core / 384 % 4) * 2 ^ 44 + (core % 384 / 24) * 2 ^ 40 + (core % 24) * 2 ^ 35

end Sys2Proof.Machine
end

