-- ==== Sys2Proof/Config.lean ====
section
/-! DEFINITION. What the spec leaves to an implementation or gives no value: free values without a body, and the
addresses firmware chooses. Every one is named in a log entry. -/

namespace Sys2Proof

/-- Cycles of a card's main clock that pass in step `n`, beyond one: the cards' clocks are not aligned (R205; log 4). -/
opaque Config.elapsed : Nat → Nat → Nat
/-- A fresh 64-bit value (log 4). -/
opaque Config.freeWord : Nat → BitVec 64
/-- EVAL of a trap taken in step `n` for which no rule names one (R335; log 31). -/
opaque Config.openEval : Nat → BitVec 64
/-- The side VBARQ takes at p planes, shift k and a mode where the exact value is 0 and the mode names no side, from the
magnitude of its two operands: the same for every hart that combines them (R246, R290; log 24). -/
opaque Config.freeSide : (p k mode magnitude : Nat) → Bool
/-- Cycles by which the plan entry that lands in step `n` is late, 0 for none (R171, R172; log 17). -/
opaque Config.lateness : Nat → Nat
/-- Entries that a core's boundary log has room for where the debugger has supplied no region (R375; log 27). -/
opaque Config.logRoom : Nat → Nat
/-- The four check symbols of a GDDR-7 sector over its 128 bytes and its TAG and PSN bits: the code's generator is not
stated (R73; log 56). -/
opaque Config.checkSymbols : BitVec 1024 → BitVec 8 → BitVec 32
/-- The saved form of the queued matrix instructions (R342; log 14). -/
opaque Config.matrixQueueForm : Nat → BitVec 64
/-- What R282 leaves open of its CRC-32: the register's start value, what its end value is combined with, and whether a byte's
lowest bit goes first (log 18). -/
opaque Config.crcStart : BitVec 32
opaque Config.crcEnd : BitVec 32
opaque Config.crcLowFirst : Bool
/-- The CRC register after one more bit: the polynomial is 0x04C1_1DB7 (R282). -/
def Config.crcBit (r : BitVec 32) (b : Bool) : BitVec 32 :=
  if r.getLsbD 31 != b then (r <<< 1) ^^^ 0x04C11DB7#32 else r <<< 1
/-- The CRC register after one more byte. -/
def Config.crcByte (r : BitVec 32) (x : BitVec 8) : BitVec 32 :=
  (List.range 8).foldl (fun r i => Config.crcBit r (x.getLsbD (if Config.crcLowFirst then i else 7 - i))) r
/-- CRC-32 of R282 over word 0 and the body (log 18). -/
def Config.flitCrc (w0 : BitVec 64) (body : List (BitVec 8)) : BitVec 32 :=
  ((List.range 8).map (fun i => w0.extractLsb' (8 * i) 8) ++ body).foldl Config.crcByte Config.crcStart ^^^ Config.crcEnd
/-- SM2 verification of a hash's signature against the public key in the ROM (R394; log 19). -/
opaque Config.signatureOk : BitVec 256 → BitVec 512 → Bool
/-- The signature with the device's identity key over a report's contents, by their words (R395; log 19). -/
opaque Config.reportSignature : List (BitVec 256) → BitVec 512
/-- The bytes of the shipped microcode of copy, epilogue and gateway harts (R158; log 12). -/
opaque Config.microcode : Nat → Nat → BitVec 8

/-- Where firmware keeps the lease table: 65,536 entries of 32 bytes, in channel 0 of die 0 (R66; log 10). -/
def Config.leaseTable : Nat := 0x400000
/-- The SWEEPEP cell's place: its home is L2 slice 0 of die 0 of card 0 (R70; log 10). -/
def Config.sweepCell : Nat := 0x600000
/-- The buffer firmware gives a controller for its hot-page lists: a header and 64 entries, 576 bytes (R88; log 28). -/
def Config.hotBuffer (die chan : Nat) : Nat := 0x610000 + 576 * (16 * die + chan)
/-- Firmware's frames: `[fwFrame, fwFrameEnd)` (log 10). -/
def Config.fwFrame : Nat := 0x400000
def Config.fwFrameEnd : Nat := 0x700000
/-- Virtual base of the 64 KiB that firmware maps into every tenant for its own cells (log 12). -/
def Config.fwBase : Nat := 0x3FFF_FFFF_0000
/-- Where the firmware cells stand among places (log 12): above every physical address. -/
def Config.fwPlace : Nat := 2 ^ 50
/-- The offset of the SWEEPEP counter in the firmware cells (R70; log 12). -/
def Config.sweepOffset : Nat := 0
/-- The offset of the block-queue cells of port number `k` (R289; log 12). -/
def Config.blockQueueOffset (k : Nat) : Nat := 0x100 * (k + 1)
/-- The offset of shipped microcode `k`: 0 copy, 1 epilogue, 2 gateway (R158; log 12). -/
def Config.microcodeOffset (k : Nat) : Nat := 0x8000 + 0x1000 * k
/-- The lines of each shipped microcode (log 12). -/
def Config.microcodeLines : Nat := 64
/-- The first place of host memory: the address space of PASID `p` begins at `2^64 * (p + 1)` (log 20). -/
def Config.hostPlace (pasid : Nat) : Nat := 2 ^ 64 * (pasid + 1)

end Sys2Proof
end

