-- ==== Sys2Proof/Machine/State.lean ====
section
/-! DEFINITION. The state of the whole machine, the reasons a step stops, and the machine right after reset. -/

namespace Sys2Proof.Machine

/-- Why the machine stops with a fault. -/
inductive Fault where
  /-- Raised by `step` when the schedule names an agent that no core, port or card of the system has (R3, R11).
  Safe: the hardware has no such agent, so no behaviour of it is lost. -/
  | absentAgent
  deriving DecidableEq, Repr

/-- Why the machine has no meaning for an instruction. -/
inductive Refusal where
  /-- Raised by an arm of `exec` for an instruction without a meaning in this model. Safe: nothing is claimed. -/
  | notModelled (mnemonic : String)
  deriving DecidableEq, Repr

/-! ### The pieces at reset -/

/-- The registers of a context at reset (R49, R132; log 2). -/
def Regs.reset : Regs :=
  { g := Vector.replicate 32 0, c := Vector.replicate 16 Cap.null, v := Vector.replicate 8 0,
    m := Vector.replicate 4 0, vw := Vector.replicate 4 0,
    bind := Vector.replicate 8 { v := false, base := 0, limit := 0, ctr := 0 } }

/-- The system registers of a context at reset (R186, R221, R250, R269, R324, R334, R335; log 2). -/
def SysRegs.reset : SysRegs :=
  { status := 0, cause := 0, epc := 0, eval := 0, tvec := 0, cid := 0, vshape := 0, fcsr := 0, vprog := 0,
    mflags := 0, schedep := 0 }

/-- A free context slot (log 2). -/
def Ctx.reset : Ctx :=
  { occupied := false, pc := 0, fcap := Cap.null, r := Regs.reset, sr := SysRegs.reset, efcap := Cap.null,
    esave := Cap.null, deferred := none, susp := none, idle := none, pinned := false, recAddr := none, recCap := Cap.null,
    frame := Cap.null, prio := 0, plevel := 0, pageFail := none, resumed := false, held := false, loading := false, sending := none,
    owed := none, vpart := none, zero := 255, clean := 0 }

/-- A disabled ring (R108). -/
def RxRing.reset : RxRing := { en := false, tail := 0, head := 0, logn := 0, base := 0 }
/-- Disabled bins (R109). -/
def KeyBins.reset : KeyBins := { en := false, op := 0, nbm1 := 0, base := 0 }
/-- A cleared counter bank (R378). -/
def PerfBank.reset : PerfBank := { ctl := 0, pmc := Vector.replicate 8 0 }
/-- An uninitialised barrier slot (R134). -/
def Barrier.reset : Barrier := { code := 0, gen := 0, exp := 0, cnt := 0 }
/-- No plan (R169). -/
def Plan.reset : Plan :=
  { en := false, offset := 0, wbase := 0, wsize := 0, count := 0, entries := [], next := none, fault := none, nfail := 0, late := 0, maxLate := 0 }
/-- An idle engine hart (R161). -/
def Engine.reset : Engine :=
  { fifo := [], busy := false, w0 := 0, n := 0, done := 0, src := Cap.null, dst := Cap.null, idx := Cap.null, before := 0,
    tile := 0, elem := 0, parked := none, epoch := 0, pageFail := none, micro := none }
/-- An empty weight-buffer unit (R254). -/
def WUnit.reset : WUnit := { tag := .empty, cause := 0, data := 0 }
/-- A bank that holds no tile. -/
def Bank.reset : Bank := { loaded := false, p := 0, n := 0, cause := 0, w := [], e := [] }
/-- The empty galley, eight slots (R265). -/
def Galley.reset : Galley :=
  { n := 32, head := 0, tail := 0, tiles := 0, opn := 0, slots := Vector.replicate 8 { p := 0, n := 32 }, acc := [],
    rows := 0, p := 0 }
/-- The matrix unit at launch (R254, R258, R265). -/
def Matrix.reset : Matrix :=
  { buf := [], bank0 := Bank.reset, bank1 := Bank.reset, sel := false, seq := 0, fetches := [], loads := [],
    streams := [], galley := Galley.reset }
/-- No schedule waits (R323). -/
def PendSched.reset : PendSched := { w0 := 0, w1 := 0, w2 := 0, w3 := 0 }
/-- A core's units at reset. -/
def CoreUnits.reset : CoreUnits :=
  { sideLog := [], fetchBuf := [], leases := [], tlb := [], ready := [], waiting := [], barriers := [], pending := [],
    copy := Engine.reset, epi := Engine.reset, mx := Matrix.reset }
/-- A core without a run (log 2). -/
def Core.reset : Core :=
  { last := 3, run := none, window := [], walloc := Vector.replicate 4 0, rcc := Cap.null, rdc := Cap.null,
    xnext := false, xmode := false, sstepLevel := 0, sstepCount := 0, phase := .outside, arrived := none,
    stopped := false, closed := none, boundary := none, plan := Plan.reset, rx := Vector.replicate 8 RxRing.reset, kbin := KeyBins.reset,
    perf := PerfBank.reset, frozen := none, held := false, gated := false, restored := false, u := CoreUnits.reset, saved := none,
    dbg := { foreign := [], log := [], count := 0, groups := 0, used := 0, touched := false, replaying := false, stepping := false } }
/-- A free lease (R66; log 10). -/
def Lease.reset : Lease :=
  { state := 0, gen := 0, base := 0, limit := 0, owner := 0, parent := 0, run := 0, next := 0 }
/-- Lease 0, permanently live at generation 0 (R66). The spec gives its other fields no value: BASE 0, LIMIT all ones,
OWNER, RUN and PARENT 0 are the model's choice (log 10). -/
def Lease.zero : Lease := { Lease.reset with state := 1, limit := BitVec.allOnes 48 }
/-- The sweep engine before firmware initialises the table (R66, R70): an empty free list. -/
def Leases.reset : Leases := { head := 0, eligible := [], passing := false, done := [], sweepep := 0 }
/-- The Press with nothing in it (R138). -/
def Press.reset : Press :=
  { queues := [], fifo := [], views := [], watches := [], exchange := [], props := [], delivered := [] }
/-- A slice of the firmware partition (R98). -/
def Slice.reset : Slice :=
  { tenant := 0, shared := true, degraded := false, lines := [], quarantine := [], bypass := [], sketch := [],
    hot := [], interval := 0, hotK := 20, hotStart := 0, hotFull := false, plru := [] }
/-- A trace unit that is off (R377). -/
def TraceUnit.reset : TraceUnit :=
  { en := false, runs := [], ring := 0, len := 0, index := 0, lost := 0, hyper := false, preempted := false,
    read := 0, sampleK := none, sampleStart := 0, sampled := [] }
/-- No dumps (R381). -/
def GridRing.reset : GridRing :=
  { k := none, base := 0, buffers := 0, full := 0, next := 0, interval := 0, dropped := 0, since := 0, cleared := 0 }
/-- A die at reset (R205; log 8). -/
def Die.reset : Die :=
  { cycle := 0, xcache := [], refreshStart := 0, refreshing := none, slices := [], log := [], trace := TraceUnit.reset,
    grid := GridRing.reset, arrivals := [], epoch := 0, pickup := [],
    retention := false, rewrites := 0 }
/-- A card at reset (log 7). -/
def Card.reset : Card :=
  { clock := .mhz1500, capW := 600, drawn := 0, drawnPkg := 0, bar2 := 38, hostWins := [], accept := [], ats := [], lastKick := 0, heldCycles := [],
    intervalStart := 0 }
/-- A link module with nothing sent or received (log 8, log 57). -/
def LinkModule.reset : LinkModule :=
  { sent := [], seq := 0, resend := none, waiting := [], expect := 0, lastGood := 0xFFF, replays := 0, replayFrom := none,
    credits := Vector.replicate 4 63, freed := Vector.replicate 4 0 }
/-- A link port at reset (log 8). -/
def Link.reset : Link :=
  { state := .up, modules := Vector.replicate 4 LinkModule.reset, accepted := [], requests := [], parts := [], peerEpochs := [] }
/-- No tenant. -/
def Tenant.reset : Tenant := { root := 0, onDemand := [], pool := [], pasid := 0, defaultPolicy := true, data := [] }
/-- A queue that does not exist (R356). -/
def Queue.reset : Queue :=
  { shadow := Vector.replicate 8 0, ridx := 0, published := 0, sincePublish := 0, pending := [], rung := false,
    gen := 0, copied := 0, holds := [] }
/-- A command hart (R353). -/
def CommandHart.reset : CommandHart :=
  { guard := Vector.replicate 24 none, level := 0, pc := 0, entry := Vector.replicate 2 none, callers := [], refused := none,
    halted := false }
/-- The device at reset: STAGE 0, LOCKED (R383, R396). -/
def Device.reset : Device :=
  { stage := 0, code := 0, unit := 0, security := .locked, monitorOk := false, firmwareOk := false, off := false,
    msix := [], securityEvents := 0, protocolErrors := 0, droppedFlits := 0, discardedAnswers := 0, tableErrors := 0,
    droppedHotLists := 0, retired := [], watchdogLost := false, lastRead := 0, flash := { monitor := (0, 0), firmware := (0, 0), records := [] }, records := [], serial := 0,
    report := none, accounts := [], gone := [], nextRun := 0,
    nextEpoch := 1, robin := 0, result := .none, snapshots := [], replayStops := [], colophons := [] }

/-- The machine. -/
structure State where
  /-- A second, bridged card exists (R3; log 6). -/
  twoCards : Bool
  /-- What moves next, and after it; empty: the next context in issue order (R141, R297; log 3). -/
  agenda : List Turn
  /-- The agent whose instruction issues (log 3). -/
  cur : Agent
  /-- The counter behind free values (log 4). -/
  tick : Nat
  /-- Bytes by place; an unlisted byte reads 0 (log 1). -/
  mem : Sparse Byte
  /-- Granules that carry a tag, by place / 32 (R56). -/
  tags : Sparse Bool
  /-- Poisoned granules, by place / 32 (R73, R96). -/
  poison : Sparse Bool
  /-- Contexts and engine harts, by agent number. -/
  ctxs : Sparse Ctx
  cores : Sparse Core
  press : Press
  leases : Leases
  tenants : Sparse Tenant
  requests : List PageRequest
  migrations : List Migration
  dies : Sparse Die
  cards : Sparse Card
  links : Sparse Link
  runs : List Run
  queues : Sparse Queue
  harts : Sparse CommandHart
  /-- The host's own address translation: by PASID and page, the host page named, where it is another (R393; log 20). -/
  hostMap : Sparse Nat
  dev : Device
  deriving DecidableEq, Repr

/-- The machine right after reset. Nothing runs: every core is free, no binary is loaded (log 5). -/
def State.reset : State :=
  { twoCards := false, agenda := [], cur := .ctx 0 0, tick := 0, mem := [], tags := [], poison := [], ctxs := [],
    cores := [], press := Press.reset, leases := Leases.reset, tenants := [], requests := [], migrations := [],
    dies := [], cards := [], links := [], runs := [], queues := [], harts := [], hostMap := [], dev := Device.reset }

end Sys2Proof.Machine
end

