-- ==== Sys2Proof/Machine/Access.lean ====
section
/-! DEFINITION. Reading and writing the state through named accessors: agents, contexts, cores, registers, the
program counter, memory by bytes and by 64-byte lines, and what the system registers read. -/

namespace Sys2Proof.Machine

/-! ### Agents -/

/-- The number of a fabric port: UCIe of dies 0 to 3, bridges, PCIe ports. -/
def portNum : Port → Nat
  | .ucie d => d % 4
  | .bridge c => 4 + c % 2
  | .pcie c => 6 + c % 2

/-- The key of an agent's registers in `State.ctxs`. -/
def agentKey : Agent → Nat
  | .ctx core slot => core * 4 + slot % 4
  | .cont core rec => 2 ^ 23 + 2 ^ 48 * core + rec % 2 ^ 48
  | .sweep d n => 2 ^ 22 + 16 * d + n % 16
  | .copy core => 2 ^ 16 + core
  | .epi core => 2 ^ 17 + core
  | .gateway p n => 2 ^ 18 + portNum p * 16 + n % 16
  | .port p => 2 ^ 19 + portNum p
  | .command h => 2 ^ 20 + h
  | .host c => 2 ^ 21 + c

/-- The core an agent belongs to. -/
def agentCore : Agent → Option Nat
  | .ctx core _ | .cont core _ | .copy core | .epi core => some core
  | _ => none

/-- The die an agent stands on. -/
def agentDie : Agent → Nat
  | .ctx core _ | .cont core _ | .copy core | .epi core => core / 384
  | .sweep d _ => d
  | .gateway (.ucie d) _ | .port (.ucie d) => d
  | .gateway (.bridge c) _ | .port (.bridge c) | .gateway (.pcie c) _ | .port (.pcie c) => 2 * c
  | .command h => 2 * (h / 4)
  | .host c => 2 * c

/-- An engine hart executes the engine profile (R158, R159). -/
def isEngine : Agent → Bool
  | .copy _ | .epi _ | .gateway _ _ => true
  | _ => false

/-- The dies of the system (R3, R11). -/
def State.numDies (s : State) : Nat := if s.twoCards then 4 else 2
/-- The cores of the system (R11). -/
def State.numCores (s : State) : Nat := s.numDies * 384

/-- The agent exists (R3, R11). -/
def State.hasAgent (s : State) : Agent → Bool
  | .ctx core slot => core < s.numCores && slot < 4
  | .cont core _ => core < s.numCores
  | .sweep d n => d < s.numDies && n < 12
  | .copy core | .epi core => core < s.numCores
  | .gateway (.ucie d) n => d < s.numDies && n < 8
  | .gateway (.bridge c) n => s.twoCards && c < 2 && n < 4
  | .gateway (.pcie _) _ => false
  | .port (.ucie d) => d < s.numDies
  | .port (.bridge c) => s.twoCards && c < 2
  | .port (.pcie c) => c < s.numDies / 2
  | .command h => h < 4 * (s.numDies / 2)
  | .host c => c < s.numDies / 2

/-! ### Parts of the state by key -/

/-- The registers of an agent. -/
def State.ctxOf (s : State) (a : Agent) : Ctx := Sparse.get Ctx.reset s.ctxs (agentKey a)
/-- Sets the registers of an agent. -/
def State.setCtxOf (s : State) (a : Agent) (c : Ctx) : State :=
  { s with ctxs := Sparse.put Ctx.reset s.ctxs (agentKey a) c }
/-- The registers of the issuing agent. -/
def State.ctx (s : State) : Ctx := s.ctxOf s.cur
/-- Sets the registers of the issuing agent. -/
def State.setCtx (s : State) (c : Ctx) : State := s.setCtxOf s.cur c
/-- A core. -/
def State.coreAt (s : State) (k : Nat) : Core := Sparse.get Core.reset s.cores k
/-- Sets a core. -/
def State.setCoreAt (s : State) (k : Nat) (c : Core) : State := { s with cores := Sparse.put Core.reset s.cores k c }
/-- A gateway hart has a fetch buffer, a lease cache and barrier slots of its own, under a number past every core's, whose
384-fold gives its die modulo 4 (R134, R156; log 70). -/
def gatewayCore (p : Port) (n : Nat) : Nat := 384 * (4 * (1 + 16 * portNum p + n % 16) + agentDie (.port p))
/-- The agents that reach the barrier slots under a number: of a core its contexts and engine harts, else a gateway hart
(R134). -/
def slotAgents (core : Nat) : List Agent :=
  if core < 1536 then [.ctx core 0, .ctx core 1, .ctx core 2, .ctx core 3, .copy core, .epi core]
  else
    let k := core / 1536 - 1
    let p := if k / 16 < 4 then Port.ucie (k / 16) else Port.bridge (k / 16 - 4)
    [.gateway p (k % 16)]
/-- The number under which the units of the issuing agent stand: its core, or a gateway hart's own. -/
def State.coreNo (s : State) : Nat :=
  match s.cur with
  | .gateway p n => gatewayCore p n
  | a => (agentCore a).getD (agentDie a * 384)
/-- The core the issuing agent reads itself to be on: of a gateway hart the first core of its die (log 70). -/
def State.coreName (s : State) : Nat := (agentCore s.cur).getD (agentDie s.cur * 384)
/-- The core of the issuing agent. -/
def State.core (s : State) : Core := s.coreAt s.coreNo
/-- Sets the core of the issuing agent. -/
def State.setCore (s : State) (c : Core) : State := s.setCoreAt s.coreNo c
/-- The context slot of the issuing agent, 0 of an engine hart. -/
def State.slot (s : State) : Nat := match s.cur with | .ctx _ n => n % 4 | _ => 0
/-- A debug stop or a pre-emption holds a core: nothing of it issues (R340, R370). -/
def Core.halted (c : Core) : Bool := c.stopped || c.boundary.isSome
/-- A die. -/
def State.die (s : State) (d : Nat) : Die := Sparse.get Die.reset s.dies d
/-- Sets a die. -/
def State.setDie (s : State) (d : Nat) (x : Die) : State := { s with dies := Sparse.put Die.reset s.dies d x }
/-- A card. -/
def State.card (s : State) (c : Nat) : Card := Sparse.get Card.reset s.cards c
/-- Sets a card. -/
def State.setCard (s : State) (c : Nat) (x : Card) : State := { s with cards := Sparse.put Card.reset s.cards c x }
/-- A link port. -/
def State.link (s : State) (p : Port) : Link := Sparse.get Link.reset s.links (portNum p)
/-- Sets a link port. -/
def State.setLink (s : State) (p : Port) (x : Link) : State :=
  { s with links := Sparse.put Link.reset s.links (portNum p) x }
/-- A slice of a die. -/
def State.slice (s : State) (d n : Nat) : Slice := Sparse.get Slice.reset (s.die d).slices n
/-- Sets a slice. -/
def State.setSlice (s : State) (d n : Nat) (x : Slice) : State :=
  s.setDie d { s.die d with slices := Sparse.put Slice.reset (s.die d).slices n x }
/-- A tenant. -/
def State.tenant (s : State) (t : Nat) : Tenant := Sparse.get Tenant.reset s.tenants t
/-- Sets a tenant. -/
def State.setTenant (s : State) (t : Nat) (x : Tenant) : State :=
  { s with tenants := Sparse.put Tenant.reset s.tenants t x }
/-- A queue. -/
def State.queue (s : State) (q : Nat) : Queue := Sparse.get Queue.reset s.queues q
/-- Sets a queue. -/
def State.setQueue (s : State) (q : Nat) (x : Queue) : State := { s with queues := Sparse.put Queue.reset s.queues q x }
/-- A command hart. -/
def State.hart (s : State) (h : Nat) : CommandHart := Sparse.get CommandHart.reset s.harts h
/-- Sets a command hart. -/
def State.setHart (s : State) (h : Nat) (x : CommandHart) : State :=
  { s with harts := Sparse.put CommandHart.reset s.harts h x }
/-- The run with RUNID `id`. -/
def State.run? (s : State) (id : Nat) : Option Run := s.runs.find? (fun r => r.id.toNat == id)
/-- The run resident on a core. -/
def State.runOn (s : State) (core : Nat) : Option Run := (s.coreAt core).run.bind s.run?
/-- Changes the run with RUNID `id`. -/
def State.updRun (s : State) (id : Nat) (f : Run → Run) : State :=
  { s with runs := s.runs.map (fun r => if r.id.toNat == id then f r else r) }

/-- An MSI-X message is raised (R392). -/
def State.raise (s : State) (vector : BitVec 3) : State := { s with dev := { s.dev with msix := s.dev.msix ++ [vector] } }
/-- A security event is counted. -/
def State.securityEvent (s : State) : State := { s with dev := { s.dev with securityEvents := s.dev.securityEvents + 1 } }

/-! ### Registers of the issuing agent -/

/-- g[n]; g0 reads 0 (R196). -/
def State.g (s : State) (n : BitVec 5) : Word := if n = 0 then 0 else s.ctx.r.g[n.toNat]
/-- Writes g[n]; a write to g0 is discarded (R196). -/
def Ctx.setG (c : Ctx) (n : BitVec 5) (x : Word) : Ctx :=
  if n = 0 then c else { c with r := { c.r with g := c.r.g.set n.toNat x } }
/-- Writes g[n] of the issuing agent (R196). -/
def State.setG (s : State) (n : BitVec 5) (x : Word) : State := s.setCtx (s.ctx.setG n x)
/-- c[n]. -/
def State.c (s : State) (n : BitVec 4) : Cap := s.ctx.r.c[n.toNat]
/-- Writes c[n] of a context. -/
def Ctx.setC (c : Ctx) (n : BitVec 4) (x : Cap) : Ctx := { c with r := { c.r with c := c.r.c.set n.toNat x } }
/-- Writes c[n]. -/
def State.setC (s : State) (n : BitVec 4) (x : Cap) : State := s.setCtx (s.ctx.setC n x)
/-- v[n] as 2,048 bytes, byte 0 lowest; an engine hart holds the first 512 (R159, R222). -/
def State.v (s : State) (n : BitVec 3) : BitVec 16384 := s.ctx.r.v[n.toNat]
/-- Writes v[n] of a context, its valid bit set and its clean state lost (R342). -/
def Ctx.setV (c : Ctx) (n : BitVec 3) (x : BitVec 16384) : Ctx :=
  { c with r := { c.r with v := c.r.v.set n.toNat x },
           zero := c.zero &&& ~~~ (1#8 <<< n.toNat), clean := c.clean &&& ~~~ (1#8 <<< n.toNat) }
/-- Writes v[n]. -/
def State.setV (s : State) (n : BitVec 3) (x : BitVec 16384) : State := s.setCtx (s.ctx.setV n x)
/-- m[n]: bit e is element e. -/
def State.m (s : State) (n : BitVec 2) : BitVec 2048 := s.ctx.r.m[n.toNat]
/-- Writes m[n]. -/
def State.setM (s : State) (n : BitVec 2) (x : BitVec 2048) : State :=
  s.setCtx { s.ctx with r := { s.ctx.r with m := s.ctx.r.m.set n.toNat x } }
/-- Writes vw[n]. -/
def State.setVW (s : State) (n : BitVec 2) (x : Word) : State :=
  s.setCtx { s.ctx with r := { s.ctx.r with vw := s.ctx.r.vw.set n.toNat x } }
/-- Changes the system registers of the issuing agent. -/
def State.setSr (s : State) (x : SysRegs) : State := s.setCtx { s.ctx with sr := x }

/-- The PC (R19). -/
def State.pc (s : State) : Word := s.ctx.pc
/-- Sets the PC. -/
def State.setPc (s : State) (x : Word) : State := s.setCtx { s.ctx with pc := x }
/-- The address of the next sequential instruction after `n` parcels at `pc` (R19). -/
def seqPc (pc : Word) (n : Nat) : Word :=
  let q := pc + BitVec.ofNat 64 (4 * n)
  if q.extractLsb' 0 6 = 0 then q + 4 else q
/-- NextPC of instruction `i` (R37). -/
def State.nextPc (s : State) (i : Instr) : Word := seqPc s.pc i.parcels
/-- fcap as an instruction reads it: STR1 at the reading instruction (R53). -/
def State.fcapAt (s : State) (pc : Word) : Cap :=
  { s.ctx.fcap with str1 := (pc - s.ctx.fcap.base.setWidth 64).setWidth 32 }

/-- STATUS.TH (R335). -/
def SysRegs.th (r : SysRegs) : Bool := r.status.getLsbD 8
/-- STATUS.PCID (R335). -/
def SysRegs.pcid (r : SysRegs) : BitVec 16 := r.status.extractLsb' 16 16
/-- STATUS from PCID and TH, its ZERO fields 0 (R335). -/
def statusOf (pcid : BitVec 16) (th : Bool) : Word := 0#32 ++ pcid ++ 0#7 ++ BitVec.ofBool th ++ 0#8
/-- CAUSE from SPC and CODE (R335). -/
def causeOf (spc : BitVec 48) (code : BitVec 8) : Word := spc ++ 0#8 ++ code
/-- TVEC.EN (R334). -/
def SysRegs.tvecEn (r : SysRegs) : Bool := r.tvec.getLsbD 63
/-- TVEC.ADDR (R334). -/
def SysRegs.tvecAddr (r : SysRegs) : Word := (r.tvec.extractLsb' 0 48).setWidth 64

/-! ### The window file -/

/-- WALLOC.BASE of the issuing context (R197). -/
def State.wbase (s : State) : Nat := (s.core.walloc[s.slot % 4]'(by omega)).toNat % 1024
/-- WALLOC.SIZE of the issuing context (R197). -/
def State.wsize (s : State) : Nat := (s.core.walloc[s.slot % 4]'(by omega)).toNat / 1024 % 512
/-- Window-file entry `e` of the issuing context's core. -/
def State.winFile (s : State) (e : Nat) : BitVec 32 := Sparse.get 0 s.core.window e
/-- Writes window-file entry `e`. -/
def State.setWinFile (s : State) (e : Nat) (x : BitVec 32) : State :=
  s.setCore { s.core with window := Sparse.put 0 s.core.window e x }

/-! ### Memory -/

/-- The byte at a place. -/
def State.byteAt (s : State) (a : Nat) : Byte := Sparse.get 0 s.mem a
/-- The tag of the granule that holds a place; the weight store's read zero (R56). -/
def State.tagAt (s : State) (a : Nat) : Bool := Sparse.get false s.tags (a / 32)
/-- The poison of the granule that holds a place. -/
def State.poisonAt (s : State) (a : Nat) : Bool := Sparse.get false s.poison (a / 32)
/-- Sets one byte. -/
def State.setByte (s : State) (a : Nat) (x : Byte) : State := { s with mem := Sparse.put 0 s.mem a x }
/-- Sets the tag of the granule that holds a place. -/
def State.setTag (s : State) (a : Nat) (t : Bool) : State := { s with tags := Sparse.put false s.tags (a / 32) t }
/-- Sets the poison of the granule that holds a place. -/
def State.setPoison (s : State) (a : Nat) (t : Bool) : State :=
  { s with poison := Sparse.put false s.poison (a / 32) t }
/-- `n` bytes from a place. -/
def State.bytesAt (s : State) (a n : Nat) : List Byte := (List.range n).map (fun i => s.byteAt (a + i))
/-- Little-endian value of bytes. -/
def leNat : List Byte → Nat
  | [] => 0
  | b :: rest => b.toNat + 256 * leNat rest
/-- `n` little-endian bytes of a value. -/
def leBytes : Nat → Nat → List Byte
  | 0, _ => []
  | n + 1, x => BitVec.ofNat 8 x :: leBytes n (x / 256)
/-- The little-endian 64-bit word at a place. -/
def State.wordAt (s : State) (a : Nat) : Word := BitVec.ofNat 64 (leNat (s.bytesAt a 8))
/-- Writes consecutive bytes; tags and poison are the caller's. -/
def State.setBytes (s : State) (a : Nat) : List Byte → State
  | [] => s
  | b :: rest => State.setBytes (s.setByte a b) (a + 1) rest
/-- Clears the tags of the granules that `n` bytes from `a` overlap (R57). -/
def State.clearTags (s : State) (a n : Nat) : State :=
  if n = 0 then s else
    (List.range ((a + n - 1) / 32 - a / 32 + 1)).foldl (fun s i => s.setTag (a + 32 * i) false) s
/-- Granules that `n` bytes from `a` cover whole lose their poison (R114). -/
def State.clearPoison (s : State) (a n : Nat) : State :=
  (List.range (n / 32 + 1)).foldl (fun s i =>
    let g := 32 * ((a + 31) / 32 + i)
    if a ≤ g && g + 32 ≤ a + n then s.setPoison g false else s) s
/-- A write at its home: bytes, tags cleared, poison of whole granules cleared (R57, R114). -/
def State.writeHome (s : State) (a : Nat) (bs : List Byte) : State :=
  ((s.setBytes a bs).clearTags a bs.length).clearPoison a bs.length
/-- A 64-bit word written at its home. -/
def State.writeWord (s : State) (a : Nat) (x : Word) : State := s.writeHome a (leBytes 8 x.toNat)
/-- The capability in the granule at a place. -/
def State.capAt (s : State) (a : Nat) : Cap := Cap.ofBits (BitVec.ofNat 256 (leNat (s.bytesAt a 32))) (s.tagAt a)

/-! ### The lease table (R66) -/

/-- Where a lease's entry stands. -/
def leasePlace (n : Nat) : Nat := Config.leaseTable + 32 * (n % 65536)
/-- The entry that three words hold. -/
def leaseOfWords (w0 w1 w2 : Word) : Lease :=
  { state := w0.extractLsb' 56 2, gen := w0.extractLsb' 48 8, base := w0.extractLsb' 0 48, limit := w1.extractLsb' 0 48,
    owner := w1.extractLsb' 48 16, parent := w2.extractLsb' 0 16, run := w2.extractLsb' 16 16, next := w2.extractLsb' 32 16 }
/-- Words 0 to 3 of an entry. -/
def Lease.words (x : Lease) : List Word :=
  [0#6 ++ x.state ++ x.gen ++ x.base, x.owner ++ x.limit, 0#16 ++ x.next ++ x.run ++ x.parent, 0]
/-- A lease table entry, read from device memory; lease 0 is permanently live (R66). -/
def State.lease (s : State) (n : Nat) : Lease :=
  if n = 0 then Lease.zero
  else leaseOfWords (s.wordAt (leasePlace n)) (s.wordAt (leasePlace n + 8)) (s.wordAt (leasePlace n + 16))
/-- Sets a lease table entry. -/
def State.setLease (s : State) (n : Nat) (x : Lease) : State :=
  s.writeHome (leasePlace n) (x.words.flatMap (fun w => leBytes 8 w.toNat))
/-- The leases whose entry has a STATE, in the order of their numbers: a STATE that is not free stands in byte 7 of its
entry. -/
def State.leasesIn (s : State) (state : BitVec 2) : List Nat :=
  s.mem.filterMap (fun p =>
    if Config.leaseTable ≤ p.1 && p.1 < Config.leaseTable + 0x200000 && (p.1 - Config.leaseTable) % 32 = 7
        && p.2.extractLsb' 0 2 = state then some ((p.1 - Config.leaseTable) / 32) else none)

/-- A place in a weight store (R100). -/
def isWeightStore (a : Nat) : Bool := a < 2 ^ 46 && a / 2 ^ 43 % 2 = 1
/-- A place in a core's local memory or counter window. -/
def isLocal (a : Nat) : Bool := a < 2 ^ 48 && region a = 1
/-- A place in device memory proper. -/
def isDram (a : Nat) : Bool := a < 2 ^ 46 && a / 2 ^ 43 % 2 = 0
/-- A place in host memory (log 20). -/
def isHost (a : Nat) : Bool := 2 ^ 64 ≤ a
/-- Memory that has tag bits: local memory, and device memory outside the weight store (R56). -/
def taggable (a : Nat) : Bool := isLocal a || isDram a
/-- The channel of a GDDR-7 place (R74). -/
def channelOf (a : Nat) : Nat := a / 2 ^ 33 % 16
/-- The device offers reduced service: stages 3 and 4 (R15, R396). -/
def State.reduced (s : State) : Bool := s.dev.stage = 3 || s.dev.stage = 4
/-- The die and slice a place of device memory is cached in (R95); in reduced service the twelve slices of die 0 are that
memory, 8 MiB each in the order of addresses (R15; log 6). -/
def State.sliceOf (s : State) (a : Nat) : Nat × Nat := if s.reduced then (0, a / 2 ^ 23 % 12) else (dieOf a, channelOf a)
/-- A place of the firmware cells (log 12). -/
def isFirmware (a : Nat) : Bool := Config.fwPlace ≤ a && a < Config.fwPlace + 0x10000

/-- A capability written at its home with its tag, where memory has tags (R56). -/
def State.writeCap (s : State) (a : Nat) (c : Cap) : State :=
  (s.writeHome a (leBytes 32 c.bits.toNat)).setTag a (c.tag && taggable a)

/-- The die a place stands on: its die field; firmware cells of a port on the port's die, the others on die 0. -/
def placeDie (a : Nat) : Nat :=
  if isFirmware a then
    let k := (a - Config.fwPlace) / 0x100
    if 1 ≤ k && k ≤ 4 then k - 1 else if k = 6 then 2 else 0
  else if isHost a then 0 else dieOf a
/-- The core a place belongs to, when it is local. -/
def placeCore (a : Nat) : Option Nat := if isLocal a then some (localCore a) else none

/-- CORENUM of a core (R204). -/
def corenum (core : Nat) : Word :=
  BitVec.ofNat 64 (core + 2 ^ 16 * (core / 384) + 2 ^ 20 * (core % 384 / 24) + 2 ^ 24 * (core % 24))

/-! ### Sequences -/

/-- Element `i` of a list set, when there is one. -/
def setAt {α : Type} : List α → Nat → α → List α
  | [], _, _ => []
  | _ :: xs, 0, y => y :: xs
  | x :: xs, n + 1, y => x :: setAt xs n y

/-- The list without element `i`. -/
def dropAt {α : Type} : List α → Nat → List α
  | [], _ => []
  | _ :: xs, 0 => xs
  | x :: xs, n + 1 => x :: dropAt xs n

end Sys2Proof.Machine
end

