-- ==== Sys2Proof/Machine/Domains.lean ====
section
/-! DEFINITION. Domains and their members (R298 to R301), paths between dies (R281), scopes (R126), and where a run's
areas of local memory lie (R106, R107, R411). -/

namespace Sys2Proof.Machine

/-- The cores of a rectangle of a die, in ascending core number. -/
def rectCores (die row0 col0 rows cols : Nat) : List Nat :=
  (List.range rows).flatMap (fun r => (List.range cols).map (fun c => coreNum die (row0 + r) (col0 + c)))

/-- The rectangle of a core's level-`l` domain within its lowest die (R299): die, row0, col0, rows, cols. -/
def Domain.rect (d : Domain) (l core : Nat) : Nat × Nat × Nat × Nat × Nat :=
  let die := core / 384
  let row := core % 384 / 24
  let col := core % 24
  if l = 0 then (die, row, col, 1, 1)
  else if l = 1 then
    if d.level = 1 then (d.die, d.row0, d.col0, d.rows, d.cols)
    else (die, row / d.tileRows * d.tileRows, col / d.tileCols * d.tileCols, d.tileRows, d.tileCols)
  else if l = 2 then (die, 0, 0, 16, 24)
  else if l = 3 then (2 * (die / 2), 0, 0, 16, 24)
  else (0, 0, 0, 16, 24)

/-- The member cores of a core's level-`l` domain, ascending (R298). -/
def State.members (s : State) (d : Domain) (l core : Nat) : List Nat :=
  if l ≤ 2 then
    let r := d.rect l core
    rectCores r.1 r.2.1 r.2.2.1 r.2.2.2.1 r.2.2.2.2
  else if l = 3 then (List.range 768).map (fun k => 768 * (core / 768) + k)
  else List.range s.numCores

/-- The member cores of a run (R298). -/
def State.runCores (s : State) (r : Run) : List Nat :=
  if r.domain.level.toNat ≤ 1 then
    rectCores r.domain.die r.domain.row0 r.domain.col0 r.domain.rows r.domain.cols
  else s.members r.domain r.domain.level.toNat (r.domain.die * 384)

/-- The position of `x` in a list. -/
def indexIn : List Nat → Nat → Nat
  | [], _ => 0
  | y :: ys, x => if x = y then 0 else indexIn ys x + 1

/-- DOMIDl of a core (R299). -/
def State.domid (s : State) (core l : Nat) : Word :=
  match s.runOn core with
  | none => BitVec.ofNat 64 (2 ^ 20 * l)
  | some r =>
    if l ≤ r.domain.level.toNat then
      let ms := s.members r.domain l core
      let q := r.domain.rect l core
      BitVec.ofNat 64 (2 ^ 36 * indexIn ms core + 2 ^ 24 * ms.length + 2 ^ 23 + 2 ^ 20 * l
        + 2 ^ 15 * (q.2.2.2.2 - 1) + 2 ^ 11 * (q.2.2.2.1 - 1) + 2 ^ 6 * q.2.2.1 + 2 ^ 2 * q.2.1 + q.1)
    else BitVec.ofNat 64 (2 ^ 20 * l)

/-- The fabric ports on the path from a die to a place (R281, R138). -/
def pathPorts (fromDie place : Nat) : List Port :=
  if isHost place then
    (if fromDie % 2 = 1 then [Port.ucie fromDie] else []) ++ [Port.pcie (fromDie / 2)]
  else
    let e := placeDie place
    if fromDie = e then []
    else if fromDie / 2 = e / 2 then [Port.ucie fromDie]
    else
      (if fromDie % 2 = 1 then [Port.ucie fromDie] else []) ++ [Port.bridge (fromDie / 2)]
        ++ (if e % 2 = 1 then [Port.ucie (2 * (e / 2))] else [])

/-- The smallest scope that contains an agent and a place: 0 core, 1 die, 2 package, 3 system (R123, R126). -/
def scopeTo (a : Agent) (place : Nat) : Nat :=
  let d := agentDie a
  let e := placeDie place
  if isHost place then 3
  else if d / 2 ≠ e / 2 then 3
  else if d ≠ e then 2
  else if placeCore place = agentCore a && agentCore a ≠ none then 0
  else 1

/-- The smallest scope that contains two cores. -/
def scopeOfCores (a b : Nat) : Nat :=
  if a = b then 0 else if a / 384 = b / 384 then 1 else if a / 768 = b / 768 then 2 else 3

/-- The scope a level-`l` domain has for a release (R127). -/
def scopeOfLevel (l : Nat) : Nat := if l = 0 then 0 else if l ≤ 2 then 1 else if l = 3 then 2 else 3

/-- The size of an express area by ESZ (R107, R362). -/
def expressSize (esz : BitVec 2) : Nat :=
  if esz = 0 then 0 else if esz = 1 then 0x10000 else if esz = 2 then 0x20000 else 0x40000

/-- The run area of a run on its cores: first offset and end (R106, R107, R411). -/
def Run.area (r : Run) : Nat × Nat :=
  match r.express with
  | some e => if e ≤ 0x15000 then (0xEB000, 0xEB000) else (0x100000 - e, 0xEB000)
  | none => (0, 0x100000 - expressSize r.esz)

end Sys2Proof.Machine
end

