-- ==== Sys2Proof/Machine/Numbers.lean ====
section
/-! DEFINITION. What bits mean and how an exact result becomes a stored one: the number formats (R180 to R184), rounding
(R185, R193), conversion (R192, R194) and the exact arithmetic of IEEE 754-2019 on finite binary values. -/

namespace Sys2Proof.Machine

/-- The five sticky flags of FCSR (R186). -/
structure Flags where
  nv : Bool := false
  of : Bool := false
  uf : Bool := false
  nx : Bool := false
  sat : Bool := false
  deriving DecidableEq, Repr

/-- Flags accumulate (R190). -/
def Flags.join (a b : Flags) : Flags :=
  { nv := a.nv || b.nv, of := a.of || b.of, uf := a.uf || b.uf, nx := a.nx || b.nx, sat := a.sat || b.sat }

/-- A rounding mode (R185); code 7 is resolved before one is used. -/
inductive Mode where
  | rne | rtz | rdn | rup | rna | rto | rnz
  deriving DecidableEq, Repr

/-- The mode of a code 0 to 6 (R185). -/
def Mode.ofCode (n : Nat) : Mode :=
  if n = 1 then .rtz else if n = 2 then .rdn else if n = 3 then .rup else if n = 4 then .rna
  else if n = 5 then .rto else if n = 6 then .rnz else .rne

/-- The code of a mode (R185). -/
def Mode.code : Mode → Nat
  | .rne => 0 | .rtz => 1 | .rdn => 2 | .rup => 3 | .rna => 4 | .rto => 5 | .rnz => 6

/-- A floating-point layout (R180): significand bits with the leading one, least exponent, bias, largest finite value. -/
structure FloatFmt where
  ebits : Nat
  prec : Nat
  bias : Nat
  hasInf : Bool
  maxM : Nat
  maxE : Int
  deriving DecidableEq, Repr

/-- The layouts by format code (R180). -/
def floatFmt (f : Nat) : FloatFmt :=
  if f = 0x09 then { ebits := 5, prec := 11, bias := 15, hasInf := true, maxM := 2047, maxE := 5 }
  else if f = 0x0A then { ebits := 8, prec := 8, bias := 127, hasInf := true, maxM := 255, maxE := 120 }
  else if f = 0x0C then { ebits := 11, prec := 53, bias := 1023, hasInf := true, maxM := 2 ^ 53 - 1, maxE := 971 }
  else if f = 0x0D then { ebits := 4, prec := 4, bias := 7, hasInf := false, maxM := 14, maxE := 5 }
  else if f = 0x0E then { ebits := 5, prec := 3, bias := 15, hasInf := true, maxM := 7, maxE := 13 }
  else { ebits := 8, prec := 24, bias := 127, hasInf := true, maxM := 2 ^ 24 - 1, maxE := 104 }

/-- The exponent of the smallest normal value. -/
def FloatFmt.emin (f : FloatFmt) : Int := 1 - (f.bias : Int)
/-- The exponent of the subnormal grid. -/
def FloatFmt.grid (f : FloatFmt) : Int := f.emin - ((f.prec : Int) - 1)
/-- Width in bits. -/
def FloatFmt.width (f : FloatFmt) : Nat := f.ebits + f.prec

/-- A value an operation reads: a NaN, an infinity, or `(-1)^neg * m * 2^e` (zeros keep their sign). -/
inductive FVal where
  | nan (signalling : Bool)
  | inf (neg : Bool)
  | fin (neg : Bool) (m : Nat) (e : Int)
  deriving DecidableEq, Repr

/-- An exact result: with `st` its magnitude lies strictly between `m * 2^e` and `(m + 1) * 2^e`. -/
inductive FX where
  | nan
  | inf (neg : Bool)
  | zero (neg : Bool)
  | num (neg : Bool) (m : Nat) (e : Int) (st : Bool)
  deriving DecidableEq, Repr

/-- The number of bits of a natural number. -/
def bitLen (n : Nat) : Nat := if n = 0 then 0 else Nat.log2 n + 1

/-- 2 to an integer power, as a natural number; 1 below exponent 0. -/
def pow2 (e : Int) : Nat := 2 ^ e.toNat

/-- A magnitude `m * 2^e` (plus a fraction of its last place when `st`) rounded by mode to a multiple of `2^q`: the
multiple, and whether it differs (R185). -/
def roundTo (mode : Mode) (neg : Bool) (m : Nat) (e : Int) (st : Bool) (q : Int) : Nat × Bool :=
  let d := (q - e).toNat
  let k := if q ≤ e then m * pow2 (e - q) else m / 2 ^ d
  let rem := if q ≤ e then 0 else m % 2 ^ d
  let half := if q ≤ e then 1 else 2 ^ (d - 1)
  let inexact := rem != 0 || st
  let above := decide (half < rem) || (rem == half && st)
  let tie := rem == half && !st
  let up := match mode with
    | .rne => above || (tie && k % 2 == 1)
    | .rtz => false
    | .rdn => neg && inexact
    | .rup => !neg && inexact
    | .rna => above || tie
    | .rto => inexact && k % 2 == 0
    | .rnz => above
  (if up then k + 1 else k, inexact)

/-- `a * 2^i < b * 2^j`. -/
def magLt (a : Nat) (i : Int) (b : Nat) (j : Int) : Bool :=
  let l := min i j
  decide (a * pow2 (i - l) < b * pow2 (j - l))

/-- The overflow result of a mode goes to infinity (R188). -/
def overflowsToInf (mode : Mode) (neg : Bool) : Bool :=
  match mode with
  | .rne | .rna | .rnz => true
  | .rtz | .rto => false
  | .rdn => neg
  | .rup => !neg

/-- Round(x, fmt, mode) of a non-zero exact magnitude (R193, R187, R188). -/
def roundFloat (f : FloatFmt) (mode : Mode) (neg : Bool) (m : Nat) (e : Int) (st : Bool) : FVal × Flags :=
  let lead := (bitLen m : Int) - 1 + e
  let q := lead - ((f.prec : Int) - 1)
  let y := (roundTo mode neg m e st q).1
  if magLt f.maxM f.maxE y q then
    (if overflowsToInf mode neg then .inf neg else .fin neg f.maxM f.maxE, { of := true, nx := true })
  else
    let q2 := max q f.grid
    let z := roundTo mode neg m e st q2
    (.fin neg z.1 q2, { nx := z.2, uf := z.2 && magLt y q 1 f.emin })

/-- The bits of a value that is a member of the format (R180). -/
def FloatFmt.pack (f : FloatFmt) (v : FVal) : Nat :=
  let tb := f.prec - 1
  let sign (neg : Bool) : Nat := if neg then 2 ^ (f.width - 1) else 0
  let nan := if f.hasInf then (if f.ebits = 5 && f.prec = 3 then 0x7F else (2 ^ f.ebits - 1) * 2 ^ tb + 2 ^ (tb - 1)) else 0x7F
  match v with
  | .nan _ => nan
  | .inf neg => if f.hasInf then sign neg + (2 ^ f.ebits - 1) * 2 ^ tb else nan
  | .fin neg m e =>
    if m = 0 then sign neg
    else
      let lead := (bitLen m : Int) - 1 + e
      if lead < f.emin then sign neg + (if f.grid ≤ e then m * pow2 (e - f.grid) else m / pow2 (f.grid - e))
      else
        let sh := lead - (tb : Int)
        let sig := if sh ≤ e then m * pow2 (e - sh) else m / pow2 (sh - e)
        sign neg + (lead + (f.bias : Int)).toNat * 2 ^ tb + (sig - 2 ^ tb)

/-- The value of bits in a floating-point format (R180, R182). -/
def FloatFmt.unpack (f : FloatFmt) (b : Nat) : FVal :=
  let tb := f.prec - 1
  let neg := b / 2 ^ (f.width - 1) % 2 == 1
  let ex := b / 2 ^ tb % 2 ^ f.ebits
  let fr := b % 2 ^ tb
  if ex = 2 ^ f.ebits - 1 && (f.hasInf || fr = 2 ^ tb - 1) then
    if f.hasInf && fr = 0 then .inf neg
    else .nan (f.prec != 3 && f.prec != 4 && fr / 2 ^ (tb - 1) % 2 == 0)
  else if ex = 0 then .fin neg fr f.grid
  else .fin neg (2 ^ tb + fr) ((ex : Int) - (f.bias : Int) - (tb : Int))

/-- The tail of Conv from the Round step on (R194): the bits of an exact result, with sat. -/
def floatTail (fmt : Nat) (mode : Mode) (sat : Bool) (x : FX) : Nat × Flags :=
  let f := floatFmt fmt
  let clamp (neg : Bool) (fl : Flags) : Nat × Flags :=
    if sat then (f.pack (.fin neg f.maxM f.maxE), fl.join { sat := true, nx := true })
    else (f.pack (.inf neg), fl)
  match x with
  | .nan => (f.pack (.nan false), {})
  | .inf neg => clamp neg {}
  | .zero neg => (f.pack (.fin neg 0 0), {})
  | .num neg m e st =>
    match roundFloat f mode neg m e st with
    | (.inf neg', fl) => clamp neg' fl
    | (v, fl) => (f.pack v, fl)

/-! ### Integer formats (R183) -/

/-- Width in bits of an element of a format, packed in a register (R183, R191, R222). -/
def elemBits (f : Nat) : Nat := if f = 0x0F then 4 else 8 * Fmt.size f
/-- The format is unsigned. -/
def isUnsigned (f : Nat) : Bool := f = 0x02 || f = 0x04 || f = 0x06 || f = 0x08 || f = 0x00
/-- The least value of an integer format. -/
def intMin (f : Nat) : Int := if isUnsigned f then 0 else -(2 ^ (elemBits f - 1))
/-- The greatest value of an integer format. -/
def intMax (f : Nat) : Int := if isUnsigned f then 2 ^ elemBits f - 1 else 2 ^ (elemBits f - 1) - 1
/-- The value of bits in an integer format. -/
def intRead (f b : Nat) : Int :=
  if isUnsigned f then ((b % 2 ^ elemBits f : Nat) : Int) else (BitVec.ofNat (elemBits f) b).toInt
/-- The bits of an integer, modulo its width. -/
def intBits (f : Nat) (x : Int) : Nat := (BitVec.ofInt (elemBits f) x).toNat

/-- An integer result with sat (R189). -/
def intTail (fmt : Nat) (sat : Bool) (x : Int) : Nat × Flags :=
  if intMin fmt ≤ x && x ≤ intMax fmt then (intBits fmt x, {})
  else if sat then (intBits fmt (if x < 0 then intMin fmt else intMax fmt), { sat := true })
  else (intBits fmt x, {})

/-- An exact value rounded to an integer: the integer and whether it differs. -/
def roundInt (mode : Mode) (neg : Bool) (m : Nat) (e : Int) (st : Bool) : Int × Bool :=
  let r := roundTo mode neg m e st 0
  (if neg then -(r.1 : Int) else r.1, r.2)

/-- A rounded integer into an integer format from a floating-point value (R192, R194). -/
def intFromFloat (fmt : Nat) (sat : Bool) (n : Int) (inexact : Bool) : Nat × Flags :=
  if intMin fmt ≤ n && n ≤ intMax fmt then (intBits fmt n, { nx := inexact })
  else (intBits fmt (if n < intMin fmt then intMin fmt else intMax fmt), { nv := true, nx := true, sat := sat })

/-! ### Values and conversion -/

/-- What an element holds: an integer or a floating-point value. -/
inductive Num where
  | int (x : Int)
  | flt (v : FVal)
  deriving DecidableEq, Repr

/-- The value of an element's bits. -/
def readNum (f b : Nat) : Num := if Fmt.isF f then .flt ((floatFmt f).unpack b) else .int (intRead f b)

/-- The exact form of a finite or special value. -/
def FVal.exact : FVal → FX
  | .nan _ => .nan
  | .inf neg => .inf neg
  | .fin neg m e => if m = 0 then .zero neg else .num neg m e false

/-- The exact form of an integer. -/
def exactInt (x : Int) : FX := if x = 0 then .zero false else .num (x < 0) x.natAbs 0 false

/-- A signalling operand sets NV (R182). -/
def FVal.quietFlags : FVal → Flags
  | .nan sig => { nv := sig }
  | _ => {}

/-- Conv of an exact value that is not in an integer format, to any format (R194). -/
def convExact (x : FX) (dst : Nat) (mode : Mode) (sat : Bool) : Nat × Flags :=
  if Fmt.isF dst then floatTail dst mode sat x
  else
    match x with
    | .nan => (0, { nv := true })
    | .inf neg => (intBits dst (if neg then intMin dst else intMax dst), { nv := true, sat := sat })
    | .zero _ => (0, {})
    | .num neg m e st =>
      let r := roundInt mode neg m e st
      intFromFloat dst sat r.1 r.2

/-- Conv(x, from, to, mode, sat) (R194). -/
def convNum (x : Num) (dst : Nat) (mode : Mode) (sat : Bool) : Nat × Flags :=
  match x with
  | .int n => if Fmt.isF dst then floatTail dst mode sat (exactInt n) else intTail dst sat n
  | .flt v =>
    let r := convExact v.exact dst mode sat
    (r.1, r.2.join v.quietFlags)

/-! ### Exact arithmetic (IEEE 754-2019) -/

/-- The sign of an exact zero sum of values with signs `a` and `b` (R218). -/
def zeroSign (mode : Mode) (a b : Bool) : Bool := if a = b then a else decide (mode = .rdn)

/-- The exact sum of two finite values. -/
def addFin (mode : Mode) (na : Bool) (ma : Nat) (ea : Int) (nb : Bool) (mb : Nat) (eb : Int) : FX :=
  let l := min ea eb
  let a := ma * pow2 (ea - l)
  let b := mb * pow2 (eb - l)
  let x : Int := (if na then -(a : Int) else a) + (if nb then -(b : Int) else b)
  if x = 0 then .zero (zeroSign mode na nb) else .num (x < 0) x.natAbs l false

/-- The flags operands give by being signalling (R182). -/
def opFlags : List FVal → Flags
  | [] => {}
  | v :: vs => v.quietFlags.join (opFlags vs)

/-- The sign of a value turned. -/
def FVal.neg : FVal → FVal
  | .nan s => .nan s
  | .inf n => .inf !n
  | .fin n m e => .fin (!n) m e

/-- The exact sum (R218). -/
def addF (mode : Mode) (a b : FVal) : FX × Flags :=
  let fl := opFlags [a, b]
  match a, b with
  | .nan _, _ => (.nan, fl)
  | _, .nan _ => (.nan, fl)
  | .inf x, .inf y => if x = y then (.inf x, fl) else (.nan, fl.join { nv := true })
  | .inf x, .fin _ _ _ => (.inf x, fl)
  | .fin _ _ _, .inf y => (.inf y, fl)
  | .fin na ma ea, .fin nb mb eb => (addFin mode na ma ea nb mb eb, fl)

/-- The exact product, as a value (R218). -/
def mulV (a b : FVal) : FVal × Flags :=
  let fl := opFlags [a, b]
  match a, b with
  | .nan _, _ => (.nan false, fl)
  | _, .nan _ => (.nan false, fl)
  | .inf x, .inf y => (.inf (x != y), fl)
  | .inf x, .fin y m _ => if m = 0 then (.nan false, fl.join { nv := true }) else (.inf (x != y), fl)
  | .fin x m _, .inf y => if m = 0 then (.nan false, fl.join { nv := true }) else (.inf (x != y), fl)
  | .fin na ma ea, .fin nb mb eb => (.fin (na != nb) (ma * mb) (ea + eb), fl)

/-- The exact product (R218). -/
def mulF (a b : FVal) : FX × Flags := let r := mulV a b; (r.1.exact, r.2)

/-- The exact a × b + c with one rounding to come (R218): 0 × ∞ is invalid whatever the addend. -/
def fmaF (mode : Mode) (a b c : FVal) : FX × Flags :=
  let p := mulV a b
  let r := addF mode p.1 c
  (r.1, r.2.join p.2)

/-- The exact quotient (R218): non-zero by zero is an infinity without a flag. -/
def divF (a b : FVal) : FX × Flags :=
  let fl := opFlags [a, b]
  match a, b with
  | .nan _, _ => (.nan, fl)
  | _, .nan _ => (.nan, fl)
  | .inf _, .inf _ => (.nan, fl.join { nv := true })
  | .inf x, .fin y _ _ => (.inf (x != y), fl)
  | .fin x _ _, .inf y => (.zero (x != y), fl)
  | .fin x ma ea, .fin y mb eb =>
    if mb = 0 then (if ma = 0 then (.nan, fl.join { nv := true }) else (.inf (x != y), fl))
    else if ma = 0 then (.zero (x != y), fl)
    else
      let k := 128 + bitLen mb - bitLen ma
      let n := ma * 2 ^ k
      (.num (x != y) (n / mb) (ea - eb - (k : Int)) (n % mb != 0), fl)

/-- The integer square root of a number below 2^(2 * bits), bit by bit. -/
def isqrt : Nat → Nat → Nat → Nat
  | 0, _, r => r
  | bits + 1, n, r =>
    let t := r + 2 ^ bits
    isqrt bits n (if t * t ≤ n then t else r)

/-- The exact square root (R218): √−0 is −0, below zero it is invalid. -/
def sqrtF (a : FVal) : FX × Flags :=
  let fl := opFlags [a]
  match a with
  | .nan _ => (.nan, fl)
  | .inf neg => if neg then (.nan, fl.join { nv := true }) else (.inf false, fl)
  | .fin neg m e =>
    if m = 0 then (.zero neg, fl)
    else if neg then (.nan, fl.join { nv := true })
    else
      let k : Nat := 256 + (if e % 2 = 0 then 0 else 1)
      let n := m * 2 ^ (k : Nat)
      let r := isqrt 168 n 0
      (.num false r ((e - (k : Int)) / 2) (r * r != n), fl)

/-- Compares finite values: a < b (−0 equals +0). -/
def ltFin (na : Bool) (ma : Nat) (ea : Int) (nb : Bool) (mb : Nat) (eb : Int) : Bool :=
  let l := min ea eb
  let a := ma * pow2 (ea - l)
  let b := mb * pow2 (eb - l)
  decide ((if na then -(a : Int) else a) < (if nb then -(b : Int) else b))

/-- a < b for values that are no NaN. -/
def ltF (a b : FVal) : Bool :=
  match a, b with
  | .inf x, .inf y => x && !y
  | .inf x, .fin _ _ _ => x
  | .fin _ _ _, .inf y => !y
  | .fin na ma ea, .fin nb mb eb => ltFin na ma ea nb mb eb
  | _, _ => false

/-- The value is a NaN. -/
def FVal.isNan : FVal → Bool
  | .nan _ => true
  | _ => false

/-- a = b; 0 for NaNs; +0 equals −0 (R220). -/
def eqF (a b : FVal) : Bool := !a.isNan && !b.isNan && !ltF a b && !ltF b a

/-- The sign bit of a value. -/
def FVal.sign : FVal → Bool
  | .nan _ => false
  | .inf n => n
  | .fin n _ _ => n

/-- FMIN and FMAX (R220): −0 is less than +0, one NaN yields the other operand. -/
def minMaxF (wantMax : Bool) (a b : FVal) : FVal × Flags :=
  let fl := opFlags [a, b]
  match a.isNan, b.isNan with
  | true, true => (.nan false, fl)
  | true, false => (b, fl)
  | false, true => (a, fl)
  | false, false =>
    let aLess := ltF a b || (!ltF b a && a.sign && !b.sign)
    (if wantMax then (if aLess then b else a) else (if aLess then a else b), fl)

/-- FP32 addition to nearest even, its NaN canonical, no flags: AFADD (R124). -/
def afaddBits (old v : BitVec 32) : BitVec 32 :=
  let f := floatFmt 0x0B
  BitVec.ofNat 32 (floatTail 0x0B .rne false (addF .rne (f.unpack old.toNat) (f.unpack v.toNat)).1).1

/-- The value of a BPI element whose 8-plane byte is `w`, read at `p` planes (R184). -/
def bpiValue (p : Nat) (w : Int) : Int :=
  if p = 8 then w else let s := 8 - p; w / (2 ^ s : Nat) * (2 ^ s : Nat) + (2 ^ (s - 1) : Nat)

end Sys2Proof.Machine
end

