-- ==== Sys2Proof/Machine/Press.lean ====
section
/-! DEFINITION. The Model Press as functions on the state: what a home performs, L2 lines and hotness, view caches,
drains and deliveries (R87, R95 to R98, R138 to R150). -/

namespace Sys2Proof.Machine

/-! ### L2 and hotness -/

/-- The multipliers of the count-min sketch (R87). -/
def sketchMul (j : Nat) : Nat :=
  if j = 0 then 0x9E3779B1 else if j = 1 then 0x85EBCA6B else if j = 2 then 0xC2B2AE35 else 0x27D4EB2F
/-- h_j(P) (R87). -/
def sketchHash (j page : Nat) : Nat := page * sketchMul j % 2 ^ 32 / 2 ^ 22
/-- One more in a 16-bit count, saturating (R87). -/
def satInc16 (x : BitVec 16) : BitVec 16 := if x = BitVec.allOnes 16 then x else x + 1
/-- A page's estimate (R87). -/
def Slice.estimate (l : Slice) (page : Nat) : Nat :=
  (List.range 4).foldl (fun m j => min m (Sparse.get 0 l.sketch (1024 * j + sketchHash j page)).toNat) 0xFFFF
/-- The smallest estimate of the candidate list. -/
def smallest : List (Nat × Nat) → Nat
  | [] => 0xFFFF
  | (_, e) :: rest => min e (smallest rest)
/-- The first candidate with estimate `m` replaced: the one entered earliest goes, the new one is entered last. -/
def replaceFirst (m : Nat) (new : Nat × Nat) : List (Nat × Nat) → List (Nat × Nat)
  | [] => [new]
  | (p, e) :: rest => if e = m then rest ++ [new] else (p, e) :: replaceFirst m new rest
/-- One sector transfer at the controller (R87, R88). -/
def Slice.transfer (l : Slice) (page : Nat) : Slice :=
  let sk := (List.range 4).foldl (fun sk j =>
    let i := 1024 * j + sketchHash j page
    Sparse.put 0 sk i (satInc16 (Sparse.get 0 sk i))) l.sketch
  let l := { l with sketch := sk }
  let e := l.estimate page
  let hot :=
    if l.hot.any (fun q => q.1 == page) then l.hot.map (fun q => if q.1 == page then (page, e) else q)
    else if l.hot.length < 64 then l.hot ++ [(page, e)]
    else if smallest l.hot < e then replaceFirst (smallest l.hot) (page, e) l.hot
    else l.hot
  { l with hot := hot }
/-- `n` transfers. -/
def Slice.transfers (l : Slice) (page : Nat) (n : Nat) : Slice :=
  (List.range n).foldl (fun l _ => l.transfer page) l

/-- Who writes, for the owner tag (R96): a run, firmware and the host, or nobody (a read). -/
inductive Writer where
  | read | firmware | run (low : BitVec 16)
  deriving DecidableEq, Repr

/-- The owner tag after a write (R96). -/
def ownerAfter (w : Writer) (dirty : Bool) (old : BitVec 16) : BitVec 16 :=
  match w with
  | .read => old
  | .firmware => if dirty then old else 0
  | .run r => if dirty then (if old = r then old else 0xFFFF) else r

/-- The set of a place (R95). -/
def l2Set (a : Nat) : Nat := a / 2 ^ 9 % 2048
/-- The ways of a set that hold something, with their line. -/
def Slice.way (l : Slice) (set way : Nat) : Option L2Line := Sparse.get none l.lines (16 * set + way)
/-- The way that holds a line, if any. -/
def Slice.find (l : Slice) (set line : Nat) : Option Nat :=
  (List.range 16).find? (fun w => match l.way set w with | some x => x.addr == line | none => false)
/-- A way may be allocated (R99). -/
def Slice.usable (l : Slice) (set way : Nat) : Bool := !l.quarantine.contains (set, way)
/-- Transfers that write a line's dirty sectors back. -/
def L2Line.dirtyCount (x : L2Line) : Nat := (if x.dirty.getLsbD 0 then 1 else 0) + (if x.dirty.getLsbD 1 then 1 else 0)
/-- A way of a set is used: its pseudo-LRU tree points away from it (R95; log 13). -/
def plruTouch (t : BitVec 15) (way : Nat) : BitVec 15 :=
  (List.range 4).foldl (fun t l =>
    let node := 2 ^ l - 1 + way / 2 ^ (4 - l)
    if way / 2 ^ (3 - l) % 2 = 1 then t &&& ~~~(1#15 <<< node) else t ||| (1#15 <<< node)) t
/-- The way a pseudo-LRU tree points at (R95; log 13). -/
def plruVictim (t : BitVec 15) : Nat :=
  (List.range 4).foldl (fun w l => 2 * w + if t.getLsbD (2 ^ l - 1 + w) then 1 else 0) 0
/-- A way of a set is used. -/
def Slice.use (l : Slice) (set way : Nat) : Slice :=
  { l with plru := Sparse.put 0 l.plru set (plruTouch (Sparse.get 0 l.plru set) way) }
/-- The way a missing line takes: a free one, else the one in pseudo-LRU order, or the next usable after it (R95, R99;
log 13). -/
def Slice.victim (l : Slice) (set : Nat) : Option Nat :=
  match (List.range 16).find? (fun w => l.usable set w && (l.way set w).isNone) with
  | some w => some w
  | none =>
    let first := plruVictim (Sparse.get 0 l.plru set)
    ((List.range 16).map (fun i => (first + i) % 16)).find? (l.usable set)
/-- Sets a way of a set. -/
def Slice.setWay (l : Slice) (set way : Nat) (x : Option L2Line) : Slice :=
  { l with lines := Sparse.put none l.lines (16 * set + way) x }
/-- A way's dirty sectors are written back, and it holds nothing any more. -/
def Slice.evict (l : Slice) (set way : Nat) : Slice :=
  match l.way set way with
  | none => l
  | some x => (l.transfers (x.addr / 256 % 2 ^ 30) x.dirtyCount).setWay set way none

/-- The sector bit of a place in its line. -/
def sectorBit (a : Nat) : BitVec 2 := if a / 128 % 2 = 0 then 1 else 2

/-- What an access to a GDDR-7 place does in its slice and controller (R95 to R97, R87). An access past the slice is one
transfer, of a store of less than a whole sector a read and a write. -/
def Slice.access (l : Slice) (a : Nat) (w : Writer) (nonAlloc whole : Bool) : Slice :=
  let set := l2Set a
  let sec := sectorBit a
  let page := a / 2 ^ 16 % 2 ^ 30
  let write := decide (w ≠ .read)
  let around (l : Slice) : Slice := l.transfers page (if write && !whole then 2 else 1)
  match l.find set (a / 256) with
  | some way =>
    match l.way set way with
    | none => l
    | some x =>
      let l := if x.valid &&& sec = 0 then l.transfer page else l
      (l.use set way).setWay set way (some
        { x with valid := x.valid ||| sec, dirty := if write then x.dirty ||| sec else x.dirty,
                 owner := ownerAfter w (x.dirty != 0) x.owner })
  | none =>
    if nonAlloc || l.bypass.contains set then around l
    else
      match l.victim set with
      | none => around { l with bypass := set :: l.bypass }
      | some way =>
        (((l.evict set way).transfer page).use set way).setWay set way (some
          { addr := a / 256, valid := sec, dirty := if write then sec else 0, owner := ownerAfter w false 0 })

/-- An access in reduced service, where the slices are the memory: every line has a way of its own, and nothing moves to
or from GDDR-7 (R15). -/
def Slice.resident (l : Slice) (a : Nat) (w : Writer) : Slice :=
  let set := l2Set a
  let way := a / 2 ^ 20 % 8 * 2 + a / 2 ^ 8 % 2
  let old : L2Line := (l.way set way).getD { addr := a / 256, valid := 3, dirty := 0, owner := 0 }
  let write := decide (w ≠ .read)
  l.setWay set way (some
    { old with dirty := if write then old.dirty ||| sectorBit a else old.dirty, owner := ownerAfter w (old.dirty != 0) old.owner })

/-- An access to a sector, whole or in part, reaches its home: places of device memory pass their slice (R95, R15), the
others have none. -/
def State.touchSector (s : State) (a : Nat) (w : Writer) (nonAlloc whole : Bool) : State :=
  if isDram a then
    let k := s.sliceOf a
    let l := s.slice k.1 k.2
    s.setSlice k.1 k.2 (if s.reduced then l.resident a w else l.access a w nonAlloc whole)
  else s
/-- An access to a part of a sector reaches its home. -/
def State.touch (s : State) (a : Nat) (w : Writer) (nonAlloc : Bool) : State := s.touchSector a w nonAlloc false
/-- The first places of the sectors that `n` bytes overlap. -/
def sectorsOf (a n : Nat) : List Nat :=
  if n = 0 then [] else (List.range ((a + n - 1) / 128 - a / 128 + 1)).map (fun i => 128 * (a / 128 + i))
/-- An access to `n` bytes reaches its home, sector by sector. -/
def State.touchAll (s : State) (a n : Nat) (w : Writer) (nonAlloc : Bool) : State :=
  (sectorsOf a n).foldl (fun s p => s.touchSector p w nonAlloc (a ≤ p && p + 128 ≤ a + n)) s
/-- Bytes written at their home by hardware or firmware: with tags and poison as any write, through the slice (R57, R96,
R114). -/
def State.writeBy (s : State) (w : Writer) (a : Nat) (bs : List Byte) : State :=
  (s.writeHome a bs).touchAll a bs.length w false
/-- A 64-bit word written by firmware or hardware: by the command complex of the card that holds the place (log 72). -/
def State.hwWord (s : State) (a : Nat) (x : Word) : State := s.writeBy .firmware a (leBytes 8 x.toNat)
/-- A change of a lease's state at the home of its table entry (R67). -/
def State.putLease (s : State) (n : Nat) (x : Lease) : State := (s.setLease n x).touch (leasePlace n) .firmware false

/-- The owner tag's writer for an agent of run `run` (R96). -/
def writerOf (a : Agent) (run : Nat) : Writer :=
  match a with
  | .ctx _ _ | .cont _ _ | .copy _ | .epi _ | .gateway _ _ => .run (BitVec.ofNat 16 run)
  | _ => .firmware

/-! ### View caches -/

/-- The sector of a place as its home holds it now. -/
def State.homeSector (s : State) (a : Agent) (va pa : Nat) : Sector :=
  let p := pa / 128 * 128
  { agent := a, va := va / 128 * 128, pa := p, data := BitVec.ofNat 1024 (leNat (s.bytesAt p 128)),
    tags := BitVec.ofNat 4 ((List.range 4).foldl (fun n i => n + if taggable p && s.tagAt (p + 32 * i) then 2 ^ i else 0) 0),
    poison := BitVec.ofNat 4 ((List.range 4).foldl (fun n i => n + if s.poisonAt (p + 32 * i) then 2 ^ i else 0) 0) }

/-- The sector an agent's view cache holds for a virtual address and its place (R132). -/
def State.view? (s : State) (a : Agent) (va pa : Nat) : Option Sector :=
  s.press.views.find? (fun x => x.agent == a && x.va == va / 128 * 128 && x.pa == pa / 128 * 128)
/-- The sector of a place that a fabric port's view cache holds. -/
def State.portView? (s : State) (p : Port) (pa : Nat) : Option Sector :=
  s.press.views.find? (fun x => x.agent == .port p && x.pa == pa / 128 * 128)

/-- Sets the view caches. -/
def State.setViews (s : State) (v : List Sector) : State := { s with press := { s.press with views := v } }

/-- Drops the sectors a predicate names. -/
def State.dropViews (s : State) (p : Sector → Bool) : State := s.setViews (s.press.views.filter (fun x => !p x))

/-- R144, R145: the view caches of an agent and of the ports on its path take the home's sector where they hold it. -/
def State.refreshHeld (s : State) (a : Agent) (pa : Nat) : State :=
  let ports := (pathPorts (agentDie a) pa).map Agent.port
  s.setViews (s.press.views.map (fun x =>
    if x.pa == pa / 128 * 128 && (x.agent == a || ports.contains x.agent) then
      { s.homeSector x.agent x.va pa with va := x.va } else x))

/-- What a refresh copies: the sector of the first fabric port on the path that holds one, else the home's (R142). -/
def State.refreshSource (s : State) (a : Agent) (va pa : Nat) : Sector :=
  match (pathPorts (agentDie a) pa).findSome? (fun p => s.portView? p pa) with
  | some x => { x with agent := a, va := va / 128 * 128 }
  | none => s.homeSector a va pa

/-- A place a view cache may hold: device memory outside the weight store, and host windows (R112, R138). -/
def cacheable (a : Nat) : Bool := isDram a || isHost a

/-- A sector enters its agent's view cache: what the cache holds of the same place under another virtual address is as
new (R149). -/
def State.putView (s : State) (x : Sector) : State :=
  s.setViews (x :: (s.press.views.filter (fun y => !(y.agent == x.agent && y.va == x.va && y.pa == x.pa))).map (fun y =>
    if y.agent == x.agent && y.pa == x.pa then { x with va := y.va } else y))
/-- Refresh (R142): a sector is copied into a view cache. -/
def State.refreshView (s : State) (a : Agent) (va pa : Nat) : State := s.putView (s.refreshSource a va pa)

/-! ### Pieces -/

/-- Bits set in one byte of a mask. -/
def maskByte (m : BitVec 512) (i : Nat) : BitVec 8 := m.extractLsb' (8 * i) 8

/-- The bytes of a piece that are written, as offsets in its line. -/
def Piece.offsets (p : Piece) : List Nat := (List.range 64).filter (fun i => maskByte p.mask i != 0)
/-- The place of the first byte written. -/
def Piece.place (p : Piece) : Nat := p.line + p.offsets.headD 0
/-- Two pieces, or a piece and a range of bytes, overlap. -/
def Piece.touches (p : Piece) (a n : Nat) : Bool :=
  a < p.line + 64 && p.line < a + n && p.offsets.any (fun i => a ≤ p.line + i && p.line + i < a + n)
/-- Two pieces overlap in a byte: of one byte each may write some bits (R142). -/
def Piece.overlaps (p q : Piece) : Bool := p.line == q.line && p.offsets.any (fun i => maskByte q.mask i != 0)

/-- The home of a place, as a number: two places of one home share it (R139). -/
def State.homeKey (s : State) (a : Nat) : Nat :=
  if isFirmware a then 2 ^ 40 + (a - Config.fwPlace) / 0x100
  else if isHost a then 2 ^ 41
  else if isLocal a then 2 ^ 42 + localCore a
  else if isWeightStore a then 2 ^ 43 + dieOf a
  else 16 * (s.sliceOf a).1 + (s.sliceOf a).2

/-- A 64-byte line written at its home under a mask (R57, R114, R155). -/
def State.writeLine (s : State) (p : Piece) : State :=
  let s := (List.range 64).foldl (fun s i =>
    let m := maskByte p.mask i
    if m = 0 then s
    else s.setByte (p.line + i) ((s.byteAt (p.line + i) &&& ~~~m) ||| (p.data.extractLsb' (8 * i) 8 &&& m))) s
  (List.range 2).foldl (fun s g =>
    let m := p.mask.extractLsb' (256 * g) 256
    if m = 0 then s
    else
      let s := s.setTag (p.line + 32 * g) (p.tags.getLsbD g && taggable p.line)
      if m = BitVec.allOnes 256 then s.setPoison (p.line + 32 * g) (p.poison.getLsbD g)
      else if p.poison.getLsbD g then s.setPoison (p.line + 32 * g) true else s) s

/-- min(x + y, 2^64 - 1) (R125). -/
def satAdd (x y : Word) : Word := if x.toNat + y.toNat < 2 ^ 64 then x + y else BitVec.allOnes 64

/-- The new value at an atomic's location by fn5 (the atomics' table): old value, operand and comparand of `w` bits. -/
def atomicNew (fn5 : BitVec 5) {w : Nat} (old v cmp : BitVec w) : BitVec w :=
  let n := fn5.toNat
  if n = 0 then old + v else if n = 1 then old &&& v else if n = 2 then old ||| v else if n = 3 then old ^^^ v
  else if n = 4 then (if BitVec.slt v old then v else old) else if n = 5 then (if BitVec.slt old v then v else old)
  else if n = 6 then (if BitVec.ult v old then v else old) else if n = 7 then (if BitVec.ult old v then v else old)
  else if n = 8 then v else if n = 9 then (if old = cmp then v else old)
  else (afaddBits (old.setWidth 32) (v.setWidth 32)).setWidth w

/-! ### What a home performs -/

/-- The block-queue unit whose cells hold a place, and the offset in them (R289; log 12). -/
def blockQueueCell (a : Nat) : Option (Nat × Nat) :=
  if isFirmware a then
    let o := a - Config.fwPlace
    if 0x100 ≤ o && o < 0x700 then some (o / 0x100 - 1, o % 0x100) else none
  else none

/-- The old value an atomic reads at its location. -/
def State.atomicOld (s : State) (a : Nat) (wide : Bool) : Word :=
  BitVec.ofNat 64 (leNat (s.bytesAt a (if wide then 8 else 4)))

/-- The value a location takes from an atomic (R124), and TAKE's own rule (R289). -/
def State.atomicResult (s : State) (a : Nat) (fn5 : BitVec 5) (wide : Bool) (operand cmp : Word) : Word × Word :=
  let old := s.atomicOld a wide
  match blockQueueCell a with
  | some (_, 40) =>
    if fn5 = 0 then
      let limit := s.wordAt (a + 8)
      if old.toNat < limit.toNat then (old, old + 1) else (BitVec.allOnes 64, old)
    else (old, if wide then atomicNew fn5 old operand cmp else (atomicNew fn5 (old.setWidth 32) (operand.setWidth 32) (cmp.setWidth 32)).setWidth 64)
  | _ =>
    (old, if wide then atomicNew fn5 old operand cmp
          else (atomicNew fn5 (old.setWidth 32) (operand.setWidth 32) (cmp.setWidth 32)).setWidth 64)

/-- An agent has delivered a write to a sector (R147). -/
def State.noteDelivered (s : State) (agent : Agent) (a : Nat) : State :=
  { s with press := { s.press with delivered := { agent := agent, sector := a / 128, pkg := false } :: s.press.delivered } }

/-- What a write leaves besides its bytes: the line's owner in the slice, the sector in the caches that R145 names, the
record of R147. -/
def State.written (s : State) (agent : Agent) (run a : Nat) (nonAlloc : Bool) : State :=
  ((s.touch a (writerOf agent run) nonAlloc).refreshHeld agent a).noteDelivered agent a

/-- An atomic performed at its home: the old value and the new state (R123). -/
def State.performAtomic (s : State) (agent : Agent) (run : Nat) (a : Nat) (fn5 : BitVec 5) (wide : Bool)
    (operand cmp : Word) : Word × State :=
  let r := s.atomicResult a fn5 wide operand cmp
  let n := if wide then 8 else 4
  (r.1, ((s.setBytes a (leBytes n r.2.toNat)).clearTags a n).written agent run a false)

/-- A counter addition performed at its home (R125, R130). -/
def State.performCounter (s : State) (agent : Agent) (run : Nat) (a : Nat) (inc : Word) : State :=
  ((s.setBytes a (leBytes 8 (satAdd (s.wordAt a) inc).toNat)).clearTags a 8).written agent run a false

/-- A store to LIMIT starts a job: TAKE, every READY cell and DONE become 0 (R289). -/
def State.startJob (s : State) (p : Piece) : State :=
  match (p.offsets.map (fun i => blockQueueCell (p.line + i))).find? (fun c => match c with
      | some (_, o) => 48 ≤ o && o < 56
      | none => false) with
  | some (some (k, _)) => s.setBytes (Config.fwPlace + Config.blockQueueOffset k) (List.replicate 48 0)
  | _ => s

/-- A granule of a core's local memory written by another than the core's contexts is foreign while replay is armed
(R375). -/
def State.markForeign (s : State) (agent : Agent) (a : Nat) : State :=
  match placeCore a with
  | none => s
  | some k =>
    let own := match agent with | .ctx c _ => c == k | _ => false
    let armed := match s.runOn k with | some r => r.dbg.replay | none => false
    if own || !armed then s
    else
      let c := s.coreAt k
      if c.dbg.foreign.contains (a / 32) then s
      else s.setCoreAt k { c with dbg := { c.dbg with foreign := a / 32 :: c.dbg.foreign } }

/-- A deferred fault lost because the context holds one already (R337). -/
def State.loseDeferred (s : State) (run : Nat) : State :=
  s.updRun run (fun r => { r with f := { r.f with lostdef := r.f.lostdef + 1 } })

/-- A deferred store fault of a pre-empted run's slot enters the pending record of the core state (R342, R343). -/
def State.deferSaved (s : State) (core slot : Nat) (sv : SavedCore) (d : Deferred) : State :=
  match sv.ctxs.getD slot none with
  | some c =>
    if c.deferred.isSome then s.loseDeferred sv.run
    else
      let ctxs := setAt sv.ctxs slot (some { c with deferred := some d })
      (s.setCoreAt core { s.coreAt core with saved := some { sv with ctxs := ctxs } }).writeHome
        (localBase core + 0xFF600 + 32 * slot) (leBytes 8 1 ++ leBytes 8 d.eval.toNat ++ leBytes 8 d.pc.toNat ++ leBytes 8 0)
  | none => s.loseDeferred sv.run

/-- A deferred store fault of an agent's context: one is held, a further one is counted in the run (R337). A slot that
holds a context of another run now has nothing to do with it; a written-back continuation keeps its own. -/
def State.defer (s : State) (a : Agent) (run : Nat) (eval : Word) (pc : BitVec 48) : State :=
  let c := s.ctxOf a
  let here : State :=
    if c.deferred.isNone then s.setCtxOf a { c with deferred := some { eval := eval, pc := pc } } else s.loseDeferred run
  match a with
  | .ctx k n =>
    if ((s.coreAt k).run).getD 0 = run then here
    else
      match (s.coreAt k).saved with
      | some sv => if sv.run = run then s.deferSaved k n sv { eval := eval, pc := pc } else s
      | none => s
  | .sweep _ _ | .command _ | .port _ | .host _ => s
  | _ => here

/-- The slice's tenant check refuses a run's agent (R98). -/
def State.sliceRefuses (s : State) (run : Nat) (a : Nat) : Bool :=
  isDram a &&
    (match s.run? run with
      | none => false
      | some r =>
        let k := s.sliceOf a
        let l := s.slice k.1 k.2
        !l.shared && l.tenant.toNat != r.tenant)

/-- What an access asks of an acceptance window: to read, to write, or both, as an atomic with a result does (R288). -/
inductive Wants where
  | read | write | both
  deriving DecidableEq, Repr
/-- An acceptance window admits an access. -/
def windowAdmits (w : AcceptWindow) (a : Nat) : Wants → Bool
  | .read => w.base ≤ a && a < w.limit && w.read
  | .write => w.base ≤ a && a < w.limit && w.write
  | .both => w.base ≤ a && a < w.limit && w.read && w.write

/-- A port on the path is down, or the other card's acceptance windows refuse the access (R285, R288). -/
def State.pathRefuses (s : State) (agent : Agent) (a : Nat) (want : Wants) : Bool :=
  (pathPorts (agentDie agent) a).any (fun p =>
    (s.link p).state == .down ||
      (match p with
        | .bridge c => !((s.card (1 - c)).accept.any (fun w => windowAdmits w.2 a want))
        | _ => false))
/-- Traffic toward a place is held: a link on the path retrains (R285). -/
def State.pathHeld (s : State) (agent : Agent) (a : Nat) : Bool :=
  (pathPorts (agentDie agent) a).any (fun p => (s.link p).state == .retraining)

/-- The access is refused at the home or on the way (R98, R288). -/
def State.refused (s : State) (agent : Agent) (run : Nat) (a : Nat) (want : Wants) : Bool :=
  s.sliceRefuses run a || s.pathRefuses agent a want

/-- The replicas of a place on other dies (R92): the same offset, another die field. -/
def State.otherReplicas (s : State) (a : Nat) : List Nat :=
  (List.range s.numDies).filterMap (fun d =>
    if d = dieOf a then none else some (a % 2 ^ 44 + d * 2 ^ 44))

/-- The old value as the result register takes it (the atomics' table): unsigned and float operations zero-extend. -/
def extendOld (fn5 : BitVec 5) (wide : Bool) (old : Word) : Word :=
  if wide then old
  else if fn5 = 6 || fn5 = 7 || fn5 = 10 then (old.setWidth 32).setWidth 64 else (old.setWidth 32).signExtend 64

/-- A context of a pre-empted run owes a trap. -/
def SavedCore.owe (sv : SavedCore) (slot : Nat) (x : BitVec 8 × Word × Word) : SavedCore :=
  match sv.ctxs.getD slot none with
  | some c => { sv with ctxs := setAt sv.ctxs slot (some { c with owed := some x }) }
  | none => sv
/-- An atomic or counter update that could not be performed at its delivery (R114, R124, R288, R337): it traps at its own PC
with the cause given, but for the refusal of an atomic into g0, which is deferred (log 58). -/
def State.failAtomic (s : State) (p : Piece) (dst : Option (BitVec 5)) (cause : BitVec 8) : State :=
  match dst with
  | none => s.defer p.agent p.run (p.va.setWidth 64) p.pc
  | some _ =>
    let x := (cause, p.va.setWidth 64, p.pc.setWidth 64)
    match p.agent with
    | .ctx k n =>
      if ((s.coreAt k).run).getD 0 = p.run then s.setCtxOf p.agent { s.ctxOf p.agent with owed := some x }
      else
        match (s.coreAt k).saved with
        | some sv => if sv.run = p.run then s.setCoreAt k { s.coreAt k with saved := some (sv.owe n x) } else s
        | none => s
    | a => s.setCtxOf a { s.ctxOf a with owed := some x }

/-- Deliver (R142, R145): a piece is performed at its home, last in the coherence order; a refused one is deferred. -/
def State.perform (s : State) (p : Piece) : State :=
  let a := p.place
  match p.op with
  | .write =>
    if s.refused p.agent p.run a .write then s.securityEvent.defer p.agent p.run (p.va.setWidth 64) p.pc
    else if isLocal a && a / 2 ^ 20 % 2 = 1 && 0x20 ≤ a % 2 ^ 20 then s
    else
      let s := (((s.writeLine p).startJob p).written p.agent p.run a p.nonAlloc).markForeign p.agent a
      if p.replicated then
        { s with press := { s.press with props := s.press.props ++ (s.otherReplicas p.line).map (fun d =>
            { agent := p.agent, dst := d, piece := p }) } }
      else s
  | .atomic fn5 wide operand cmp dst =>
    if s.refused p.agent p.run a (if dst.isSome then .both else .write) then s.securityEvent.failAtomic p dst 0x12
    else if s.poisonAt a then s.failAtomic p (some 0) 0x22
    else
      let r := s.performAtomic p.agent p.run a fn5 wide operand cmp
      match dst with
      | some d => r.2.setCtxOf p.agent ((r.2.ctxOf p.agent).setG d (extendOld fn5 wide r.1))
      | none => r.2
  | .counter inc =>
    if s.refused p.agent p.run a .write then s.securityEvent.failAtomic p (some 0) 0x12
    else if s.poisonAt a then s.failAtomic p (some 0) 0x22
    else s.performCounter p.agent p.run a inc

/-- One pending propagation performed at its replica (R150); a refused one is deferred as its store would be (R285,
R288). -/
def State.propagate (s : State) (p : Propagation) : State :=
  let q := { p.piece with line := p.dst, replicated := false }
  if s.pathRefuses p.agent p.dst .write then s.securityEvent.defer p.agent q.run (q.va.setWidth 64) q.pc
  else (s.writeLine q).written p.agent q.run q.place q.nonAlloc
/-- No link on a propagation's way retrains (R285). -/
def State.mayPropagate (s : State) (p : Propagation) : Bool := !s.pathHeld p.agent p.dst

/-! ### Drains and deliveries -/

/-- Sets the store queues and the FIFOs. -/
def State.setQueues (s : State) (q f : List Piece) : State := { s with press := { s.press with queues := q, fifo := f } }

/-- Entry `k` of an agent's store queue and the entries before it. -/
def nthOf (a : Agent) : List Piece → Nat → Option Piece
  | [], _ => none
  | p :: rest, k => if p.agent = a then (if k = 0 then some p else nthOf a rest (k - 1)) else nthOf a rest k

/-- No older entry of the queue overlaps: the piece may drain (R142). The host's writes leave the PCIe port's queue in the
order in which they came (R154). -/
def mayDrain (p : Piece) : List Piece → Bool
  | [] => false
  | q :: rest =>
    if q = p then true
    else if q.agent = p.agent && (match p.agent with | .host _ => true | _ => q.overlaps p) then false
    else mayDrain p rest

/-- The module of a link that what goes to a place crosses (R281): of a UCIe link, by the home's slice or row, and module 3
for all that goes on to the bridge or has no such home; a bridge has one (log 57). -/
def linkModule (p : Port) (place : Nat) : BitVec 2 :=
  match p with
  | .ucie d =>
    if placeDie place / 2 ≠ d / 2 then 3
    else if isLocal place then BitVec.ofNat 2 (localCore place % 384 / 24 / 4)
    else if isDram place then BitVec.ofNat 2 (channelOf place / 3)
    else 3
  | _ => 0
/-- The agent kind of a request record (R283; log 57). -/
def agentKind : Agent → Nat
  | .ctx _ _ | .cont _ _ => 0
  | .copy _ => 1
  | .epi _ => 2
  | .sweep _ _ => 3
  | .gateway _ _ => 4
  | .command _ => 5
  | .port _ => 6
  | .host _ => 7
/-- The record of a piece for one of its granules (R283): a write, an atomic or a counter addition. -/
def State.requestOf (s : State) (p : Piece) (g : Nat) : Request :=
  let m := p.mask.extractLsb' (256 * g) 256
  let r : Request :=
    { op := if p.tags.getLsbD g then 2 else 1, size := 4, scope := scopeTo p.agent p.line, tag := p.tags.getLsbD g,
      psn := p.poison.getLsbD g, core := (agentCore p.agent).getD 0, kind := agentKind p.agent, txn := BitVec.ofNat 16 s.tick,
      reqEpoch := (s.die (agentDie p.agent)).epoch, addr := p.line + 32 * g, run := p.run % 2 ^ 16, operand := 0,
      data := p.data.extractLsb' (256 * g) 256,
      mask := BitVec.ofNat 32 ((List.range 32).foldl (fun n i => if m.extractLsb' (8 * i) 8 = 0 then n else n + 2 ^ i) 0) }
  match p.op with
  | .write => r
  | .atomic fn5 wide x cmp _ =>
    { r with op := 3 + fn5.toNat, size := if wide then 3 else 2, addr := p.place, operand := x, data := cmp.setWidth 256 }
  | .counter x => { r with op := 16, size := 3, addr := p.place, operand := x, data := 0 }
/-- The records of a piece, granule by granule. -/
def State.requestsOf (s : State) (p : Piece) : List Request :=
  ((List.range 2).filter (fun g => p.mask.extractLsb' (256 * g) 256 ≠ 0)).map (s.requestOf p)
/-- The physical address that a body names. -/
def LinkBody.addr : LinkBody → Nat
  | .record r => r.addr
  | .sector x => x.addr
/-- Items on their way from a die to another wait at the module of the first link on their path (R167, R281, R283). -/
def State.sendItems (s : State) (fromDie dst : Nat) (xs : List LinkItem) : State :=
  match pathPorts fromDie (dst * 2 ^ 44), xs with
  | port :: _, x :: _ =>
    let l := s.link port
    let i := (linkModule port (if dst / 2 = fromDie / 2 then x.body.addr else dst * 2 ^ 44)).toFin
    let m := l.modules[i]
    s.setLink port { l with modules := l.modules.set i { m with waiting := m.waiting ++ xs } }
  | _, _ => s
/-- The die that what goes to a place travels to: of host memory, the one with the PCIe port of the sender's card. -/
def routeDie (fromDie place : Nat) : Nat := if isHost place then 2 * (fromDie / 2) else placeDie place
/-- A piece that enters the FIFO toward a home on another die: its records travel on virtual channel 1 (R167). -/
def State.route (s : State) (p : Piece) : State :=
  let d := agentDie p.agent
  let e := routeDie d p.line
  s.sendItems d e ((s.requestsOf p).map (fun r => { vc := 1, dst := e, body := .record r }))
/-- A record that is no write: its OP, the place it names, its operand and its data (R283). -/
def State.plainRequest (s : State) (a : Agent) (op size place : Nat) (operand : Word) (data : BitVec 256) : Request :=
  { op := op, size := size, scope := scopeTo a place, tag := false, psn := false, core := (agentCore a).getD 0, kind := agentKind a,
    txn := BitVec.ofNat 16 s.tick, reqEpoch := (s.die (agentDie a)).epoch, addr := place % 2 ^ 48, run := 0,
    operand := operand, data := data, mask := 0 }
/-- A request of an agent to a home on another die, on virtual channel 1, and what the home answers, on virtual channel 2 back
to the agent's die (R167, R283). -/
def State.asks (s : State) (a : Agent) (r : Request) (place : Nat) (answers : List LinkBody) : State :=
  let d := agentDie a
  let e := routeDie d place
  if d = e then s
  else (s.sendItems d e [{ vc := 1, dst := e, body := .record r }]).sendItems e d (answers.map (fun b => { vc := 2, dst := d, body := b }))
/-- Records of an agent toward a core of another die on virtual channel 3: SEND messages and KSEND pairs (R167, R283). -/
def State.tells (s : State) (a : Agent) (core : Nat) (rs : List Request) : State :=
  let e := core / 384
  s.sendItems (agentDie a) e (rs.map (fun r => { vc := 3, dst := e, body := .record r }))
/-- The answer to a request in one record: its OP and its data. -/
def Request.answer (r : Request) (op : Nat) (data : BitVec 256) : Request := { r with op := op, data := data, operand := 0 }
/-- A response of more than 32 bytes: records of OP 36 with their index and their count (R283). -/
def Request.longAnswer (r : Request) (bs : List Byte) : List LinkBody :=
  let n := (bs.length + 31) / 32
  (List.range n).map (fun i => .record { r with
    op := 36, operand := BitVec.ofNat 64 (i + 256 * n), data := BitVec.ofNat 256 (leNat ((bs.drop (32 * i)).take 32)) })
/-- An agent reads a sector of another die: the answer carries it whole (R283). -/
def State.asksSector (s : State) (a : Agent) (pa : Nat) : State :=
  let r := s.plainRequest a 0 4 (pa / 128 * 128) 0 0
  let x := s.homeSector a 0 pa
  s.asks a r pa [.sector { data := x.data, addr := x.pa % 2 ^ 48, tags := x.tags, psn := x.poison, txn := r.txn, reqEpoch := r.reqEpoch,
                           core := r.core }]
/-- An agent reads `n` bytes of another die at their home: the answer is one record, or several (R283). -/
def State.asksBytes (s : State) (a : Agent) (pa n : Nat) : State :=
  let size := if n ≤ 1 then 0 else if n ≤ 2 then 1 else if n ≤ 4 then 2 else if n ≤ 8 then 3 else 4
  let r := s.plainRequest a 0 size pa 0 0
  let bs := s.bytesAt pa n
  s.asks a r pa (if n ≤ 32 then [.record (r.answer 32 (BitVec.ofNat 256 (leNat bs)))] else r.longAnswer bs)

/-- The first granule of a line that the copy hart's command has written whole waits in the queue for the second, with which
it is one write, while the command goes on (R155). -/
def State.halfLine (s : State) (p : Piece) : Bool :=
  match p.agent with
  | .copy k =>
    let x := (s.coreAt k).u.copy
    x.busy && x.parked.isNone && p.mask == BitVec.ofNat 512 (2 ^ 256 - 1)
      && (s.press.queues.filter (fun q => q.agent == p.agent)).getLast? == some p
  | _ => false
/-- An entry may drain (R142, R155). -/
def State.drainable (s : State) (p : Piece) : Bool := mayDrain p s.press.queues && !s.halfLine p
/-- Drain (R142): a piece leaves its queue and enters the FIFO toward its home. -/
def State.drain (s : State) (p : Piece) : State :=
  (s.setQueues (s.press.queues.erase p) (s.press.fifo ++ [p])).route p

/-- Two pieces travel in one FIFO (R142, R123); the PCIe port performs the host's writes in the order of their arrival,
whatever their homes (R154). -/
def State.sameFifo (s : State) (p q : Piece) : Bool :=
  p.agent == q.agent && (match p.agent with | .host _ => true | _ => s.homeKey p.line == s.homeKey q.line)

/-- The piece is the head of its FIFO. -/
def State.isHead (s : State) (p : Piece) : List Piece → Bool
  | [] => false
  | q :: rest => if q = p then true else if s.sameFifo p q then false else s.isHead p rest

/-- A piece may be delivered: nothing stands before it in its FIFO, and no link on its way retrains (R142, R285). -/
def State.mayDeliver (s : State) (p : Piece) : Bool := s.isHead p s.press.fifo && !s.pathHeld p.agent p.line

/-- The home's answer to a delivered piece crosses the links back to its agent: the old value of an atomic, or an
acknowledgement, on virtual channel 2 (R167, R283). -/
def State.acknowledge (s : State) (p : Piece) : State :=
  let d := agentDie p.agent
  let e := routeDie d p.line
  if d = e then s
  else
    let op := match p.op with | .atomic _ _ _ _ _ => 34 | _ => 33
    s.sendItems e d ((s.requestsOf p).map (fun r =>
      { vc := 2, dst := d, body := .record (r.answer op ((s.atomicOld p.place true).setWidth 256)) }))
/-- Deliver (R142) of a FIFO head. -/
def State.deliver (s : State) (p : Piece) : State :=
  let t := s.acknowledge p
  (t.setQueues t.press.queues (t.press.fifo.erase p)).perform p

/-- Writes of an agent, or propagations of one, wait at a link that retrains (R285). -/
def State.writesWait (s : State) (a : Agent) : Bool :=
  (s.press.queues ++ s.press.fifo).any (fun p => p.agent == a && s.pathHeld a p.line)
    || s.press.props.any (fun p => p.agent == a && !s.mayPropagate p)

/-- Drains, in queue order, every entry of an agent that a predicate names. -/
def State.drainWhere (s : State) (a : Agent) (w : Piece → Bool) : State :=
  (s.press.queues.filter (fun p => p.agent == a && w p)).foldl State.drain s

/-- Delivers, in FIFO order, every entry of an agent that a predicate names. -/
def State.deliverWhere (s : State) (a : Agent) (w : Piece → Bool) : State :=
  (s.press.fifo.filter (fun p => p.agent == a && w p)).foldl State.deliver s

/-- Every store of an agent is performed at its home (R127). -/
def State.flush (s : State) (a : Agent) : State :=
  let s := (s.drainWhere a (fun _ => true)).deliverWhere a (fun _ => true)
  let mine := s.press.props.filter (fun p => p.agent == a)
  mine.foldl State.propagate { s with press := { s.press with props := s.press.props.filter (fun p => p.agent != a) } }

/-- Entries of an agent that overlap `n` bytes at a place are performed, with what stands before them in their queue
by overlap and in their FIFO by order (R113, R143). -/
def State.settle (s : State) (a : Agent) (place n : Nat) : State :=
  let hit (p : Piece) : Bool := p.agent == a && p.touches place n
  if s.press.queues.any hit || s.press.fifo.any hit then
    let line := place / 64 * 64
    let s := s.drainWhere a (fun p => line ≤ p.line && p.line < place + n)
    s.deliverWhere a (fun p => s.homeKey p.line == s.homeKey place || hit p)
  else s

/-! ### Stores at once -/

/-- Bytes of one line as a piece: `tag` for the granules they write whole. -/
def mkPiece (a : Agent) (run va pa : Nat) (bs : List Byte) (tags : BitVec 2) (rpl nonAlloc : Bool) (pc : BitVec 48) : Piece :=
  let off := pa % 64
  { agent := a, op := .write, line := pa / 64 * 64, va := BitVec.ofNat 48 va,
    data := BitVec.ofNat 512 (leNat bs * 2 ^ (8 * off)), mask := BitVec.ofNat 512 ((2 ^ (8 * bs.length) - 1) * 2 ^ (8 * off)),
    tags := tags, poison := 0, replicated := rpl, nonAlloc := nonAlloc, run := run, pc := pc, ord := 0 }

/-- A store of an agent that is performed at its home before anything else of the agent: its store queue and FIFO hold
nothing that overlaps it any more (R142, R145). -/
def State.storeNow (s : State) (p : Piece) : State := (s.settle p.agent p.line 64).perform p

/-- A read of an agent at the home (R143 case 5, R144): its overlapping entries are performed first, and the sectors its
own and its path's caches hold are replaced. -/
def State.readHome (s : State) (a : Agent) (pa n : Nat) (nonAlloc : Bool) : List Byte × State :=
  let s := s.settle a pa n
  let s := (sectorsOf pa n).foldl (fun s q => (s.touch q .read nonAlloc).refreshHeld a q) s
  (s.bytesAt pa n, s)

end Sys2Proof.Machine
end

