-- ==== Sys2Proof/Machine/Translate.lean ====
section
/-! DEFINITION. From a virtual address to a place (R12 to R15, R74 to R79, R92, R100, R102, R393), page requests (R84),
and the pieces of ending a run (R338, R71). -/

namespace Sys2Proof.Machine

/-- How a translated access uses its page (R79); `copy`: as the destination of a COPY packet, which alone may lie in a weight
store (R102, R361). -/
inductive Access where
  | read | write | atomic | exec | copy
  deriving DecidableEq, Repr

/-- The outcomes of R79 and R14. -/
inductive Xlat where
  | ok (pa : Nat) (rpl : Bool) (entry : Option TlbEntry)
  | fault (cause : BitVec 8) (tableError : Bool)
  | absent
  | migrating
  deriving DecidableEq, Repr

/-- A scope field reaches a home from an agent (R126); in reduced service none of system scope does (R15). With one card,
where R3 gives system scope no use of its own, scope 3 in full service is one wider than package and reaches what package
does: the model's choice (log 54). -/
def State.scopeReaches (s : State) (a : Agent) (pa scope : Nat) : Bool := scopeTo a pa ≤ scope && !(s.reduced && scope = 3)

/-- A physical region 00 address names memory (R74, R100, R14), and in reduced service lies in the 96 MiB of R15. -/
def State.physOk (s : State) (pa : Nat) : Bool :=
  decide (dieOf pa < s.numDies) &&
  (if s.reduced then decide (pa < 0x6000000)
   else if isWeightStore pa then pa / 2 ^ 31 % 2 ^ 12 = 0
   else pa / 2 ^ 37 % 2 ^ 7 = 0 && channelOf pa < 12 && pa % 2 ^ 33 < 0x1E0000000)

/-- The permission bit of a leaf for an access (R78, R79). -/
def leafAllows (leaf : Word) : Access → Bool
  | .read => leaf.getLsbD 57
  | .write | .atomic | .copy => leaf.getLsbD 58
  | .exec => leaf.getLsbD 59

/-- The leaf of a walk, or why there is none (R78). -/
inductive Walk where
  | leaf (e : Word) (big : Bool)
  | malformed
  | none (host big : Bool)
  deriving DecidableEq, Repr

/-- A leaf's zero fields (R78). -/
def leafWf (e : Word) (big : Bool) : Bool :=
  e.extractLsb' 46 10 = 0 && e.extractLsb' 0 16 = 0 && (!big || e.extractLsb' 16 9 = 0)
/-- A table entry's zero fields (R78). -/
def tableWf (e : Word) : Bool := e.extractLsb' 46 17 = 0 && e.extractLsb' 0 12 = 0
/-- The next table's address. -/
def tableNext (e : Word) : Nat := (e.extractLsb' 12 34).toNat * 4096

/-- The entry of the level-1 table for an address. -/
def entry1 (root va : Nat) : Nat := root + 8 * (va / 2 ^ 35 % 2048)
/-- The entry of the level-2 table that a level-1 entry names. -/
def entry2 (e1 : Word) (va : Nat) : Nat := tableNext e1 + 8 * (va / 2 ^ 25 % 1024)
/-- The entry of the level-3 table that a level-2 entry names. -/
def entry3 (e2 : Word) (va : Nat) : Nat := tableNext e2 + 8 * (va / 2 ^ 16 % 512)

/-- The table walk of R78: a malformed entry faults whether or not its V is set, and so does an entry that names a table
where no memory is (R74, R79); a well-formed one with V clear is not present (log 21). -/
def State.walk (s : State) (root va : Nat) : Walk :=
  let e1 := s.wordAt (entry1 root va)
  if !tableWf e1 || !s.physOk (entry1 root va) then .malformed
  else if !e1.getLsbD 63 then .none false false
  else
    let e2 := s.wordAt (entry2 e1 va)
    if !s.physOk (entry2 e1 va) then .malformed
    else if e2.getLsbD 62 then
      if !leafWf e2 true then .malformed else if e2.getLsbD 63 then .leaf e2 true else .none (e2.getLsbD 60) true
    else if !tableWf e2 then .malformed
    else if !e2.getLsbD 63 then .none false false
    else
      let e3 := s.wordAt (entry3 e2 va)
      if !s.physOk (entry3 e2 va) || !e3.getLsbD 62 || !leafWf e3 false then .malformed
      else if e3.getLsbD 63 then .leaf e3 false else .none (e3.getLsbD 60) false

/-- The places of the entries a walk reads (R76). -/
def State.walkPlaces (s : State) (root va : Nat) : List Nat :=
  let e1 := s.wordAt (entry1 root va)
  if !e1.getLsbD 63 || !tableWf e1 then [entry1 root va]
  else
    let e2 := s.wordAt (entry2 e1 va)
    if e2.getLsbD 62 || !e2.getLsbD 63 || !tableWf e2 then [entry1 root va, entry2 e1 va]
    else [entry1 root va, entry2 e1 va, entry3 e2 va]

/-- The translation a leaf gives to an agent on die `die` (R79, R92, R93, R102). -/
def State.useLeaf (s : State) (die va : Nat) (acc : Access) (leaf : Word) (big : Bool) (entry : Option TlbEntry) : Xlat :=
  let page := (leaf.extractLsb' 16 30).toNat * 2 ^ 16
  let off := if big then va % 2 ^ 25 else va % 2 ^ 16
  let rpl := leaf.getLsbD 61
  let pa := if rpl then page % 2 ^ 44 + die * 2 ^ 44 + off else page + off
  if !s.physOk pa then .fault 0x12 true
  else if leaf.getLsbD 56 then .migrating
  else if !leafAllows leaf acc then .fault 0x12 false
  else if rpl && acc = .atomic then .fault 0x12 false
  else if isWeightStore pa && (acc = .write || acc = .atomic) then .fault 0x12 false
  else .ok pa rpl entry

/-- Bits set in a channel mask. -/
def chBits (m : BitVec 12) : List Nat := (List.range 12).filter (fun i => m.getLsbD i)

/-- The place a range descriptor gives (R77). -/
def RangeDesc.place (r : RangeDesc) (va : Nat) : Nat :=
  let cs := chBits r.chmask
  let n := if cs.length = 0 then 1 else cs.length
  let u := (va - r.vbase) / 2 ^ 16
  r.die * 2 ^ 44 + (cs.getD (u % n) 0) * 2 ^ 33 + r.poff + 2 ^ 16 * (u / n) + va % 2 ^ 16

/-- The page the host's own translation gives a page of a PASID: the same, where the host has named no other (log 20). -/
def State.hostPage (s : State) (pasid page : Nat) : Nat :=
  let x := Sparse.get 0 s.hostMap (2 ^ 52 * pasid + page)
  if x = 0 then page else x - 1
/-- The result of ATS for a page of a PASID: what the card's PCIe port holds, else what the host gives now (R393). -/
def State.atsPage (s : State) (card pasid page : Nat) : Nat :=
  match (s.card card).ats.find? (fun e => e.1 == (pasid, page)) with
  | some e => e.2
  | none => s.hostPage pasid page
/-- The place of an address of a PASID as a card's port translates it (R393). -/
def State.hostAt (s : State) (card pasid addr : Nat) : Nat :=
  Config.hostPlace pasid + 4096 * s.atsPage card pasid (addr / 4096) + addr % 4096
/-- The host window that holds an offset (R393): its PASID and the address in it. -/
def State.hostName (s : State) (card off : Nat) : Option (Nat × Nat) :=
  ((s.card card).hostWins.find? (fun w => w.2.valid && w.2.base ≤ off && off < w.2.limit)).map
    (fun w => (w.2.pasid, w.2.hostAddr + (off - w.2.base)))
/-- The place of an offset of the host windows, once ATS has translated it (R393). -/
def State.hostPlaceOf (s : State) (card off : Nat) : Option Nat :=
  (s.hostName card off).map (fun x => s.hostAt card x.1 x.2)

/-- An address of the 64 KiB that firmware maps into every tenant (log 12). -/
def isFwWindow (va : Nat) : Bool := Config.fwBase ≤ va && va < Config.fwBase + 0x10000
/-- Its place: the SWEEPEP cell in device memory, the others among the firmware cells (R70; log 12). -/
def fwWindowPlace (va : Nat) : Nat :=
  let o := va - Config.fwBase
  if o < 0x100 then Config.sweepCell + o else Config.fwPlace + o

/-- The entry covers an address of a tenant. -/
def TlbEntry.hits (e : TlbEntry) (tenant va : Nat) : Bool :=
  e.tenant == tenant && e.vpage == (if e.big then va / 2 ^ 25 else va / 2 ^ 16)
/-- The leaf that the core's page TLB holds for an address, else the die's shared translation cache (R76). -/
def State.heldLeaf (s : State) (core : Option Nat) (die tenant va : Nat) : Option TlbEntry :=
  let tlb := match core with | some k => (s.coreAt k).u.tlb | none => []
  match tlb.find? (fun e => e.hits tenant va) with
  | some e => some e
  | none => (s.die die).xcache.find? (fun e => e.hits tenant va)

/-- Translation for an agent of core `core` (when it has one), on `die`, under a tenant and its ranges (R12 to R15, R76
to R79). A cached leaf is used before the tables are walked. -/
def State.xlateWith (s : State) (core : Option Nat) (die tenant : Nat) (ranges : List RangeDesc) (va : Nat)
    (acc : Access) : Xlat :=
  if region va = 1 then
    if va / 2 ^ 35 % 32 > 23 || va / 2 ^ 21 % 2 ^ 14 != 0 || (va / 2 ^ 20 % 2 = 1 && va % 2 ^ 20 ≥ 0x40) then .fault 0x09 false
    else if s.numDies ≤ dieOf va then .fault 0x12 false
    else .ok va false none
  else if region va = 3 then .fault 0x0D false
  else if region va = 2 then
    match s.hostPlaceOf (die / 2) (va % 2 ^ 46) with
    | none => .fault 0x12 false
    | some p => if acc = .atomic then .fault 0x0D false else .ok p false none
  else if isFwWindow va then .ok (fwWindowPlace va) false none
  else
    match ranges.find? (fun r => r.vbase ≤ va && va < r.vlimit) with
    | some r =>
      let pa := r.place va
      if !s.physOk pa then .fault 0x12 true
      else if (match acc with | .read => r.rd | .write | .atomic | .copy => r.wr | .exec => r.xe) then .ok pa false none
      else .fault 0x12 false
    | none =>
      match s.heldLeaf core die tenant va with
      | some e => s.useLeaf die va acc e.leaf e.big (some e)
      | none =>
        match s.walk (s.tenant tenant).root va with
        | .malformed => .fault 0x12 true
        | .none _ _ => .absent
        | .leaf e big =>
          s.useLeaf die va acc e big
            (some { tenant := tenant, vpage := if big then va / 2 ^ 25 else va / 2 ^ 16, leaf := e, big := big })

/-- The run that the gateway harts beside a port work for: a running one whose domain spans the port (R158, R289;
log 12). -/
def State.gatewayRun (s : State) (p : Port) : Option Run :=
  s.runs.find? (fun r => r.state == .running && (match p with
    | .ucie d => r.domain.level = 4 || (r.domain.level = 3 && r.domain.die / 2 == d / 2)
    | .bridge _ => r.domain.level = 4
    | .pcie _ => false))
/-- RUNID of a written-back continuation, 0 for none (R294). -/
def State.contRun (s : State) (core rec : Nat) : Nat :=
  let k := s.coreAt core
  match k.u.waiting.find? (fun p => p.recAddr.toNat == rec) with
  | some p => p.run
  | none => match (k.u.ready ++ (s.die (core / 384)).pickup).find? (fun e => e.recAddr.toNat == rec) with
    | some e => e.run
    | none => 0
/-- The run an agent works for: that on its core, of a gateway hart the one its port serves (R75). -/
def State.runFor (s : State) (a : Agent) : Option Run :=
  match a with
  | .gateway p _ => s.gatewayRun p
  | .cont k rec => s.run? (s.contRun k rec)
  | _ => (agentCore a).bind s.runOn
/-- The tenant of an agent (R75). -/
def State.tenantOf (s : State) (a : Agent) : Nat := match s.runFor a with | some r => r.tenant | none => 0
/-- The range descriptors of an agent's run (R76). -/
def State.rangesOf (s : State) (a : Agent) : List RangeDesc := match s.runFor a with | some r => r.ranges | none => []
/-- RUNID of the run an agent works for, 0 for none. -/
def State.runOf (s : State) (a : Agent) : Nat :=
  match a with
  | .gateway p _ => match s.gatewayRun p with | some r => r.id.toNat | none => 0
  | .cont k rec => s.contRun k rec
  | _ => ((agentCore a).bind (fun k => (s.coreAt k).run)).getD 0

/-- Translation for an agent. -/
def State.xlate (s : State) (a : Agent) (va : Nat) (acc : Access) : Xlat :=
  s.xlateWith (agentCore a) (agentDie a) (s.tenantOf a) (s.rangesOf a) va acc

/-- An entry enters a translation structure of `n` entries; the oldest leaves (log 13). -/
def holdEntry (e : TlbEntry) (n : Nat) (l : List TlbEntry) : List TlbEntry := if l.contains e then l else (e :: l).take n
/-- A leaf enters the shared translation cache of the agent's die, 4,096 entries, and the page TLB of its core, 256
(R76). -/
def State.holdLeaf (s : State) (a : Agent) (e : Option TlbEntry) : State :=
  match e with
  | none => s
  | some e =>
    let d := agentDie a
    let s := if (s.die d).xcache.contains e then s else s.setDie d { s.die d with xcache := holdEntry e 4096 (s.die d).xcache }
    match agentCore a with
    | none => s
    | some k =>
      let c := s.coreAt k
      if c.u.tlb.contains e then s else s.setCoreAt k { c with u := { c.u with tlb := holdEntry e 256 c.u.tlb } }

/-- An address of an agent is translated by a walk of the tables: neither a range nor a held leaf covers it (R76). -/
def State.walks (s : State) (a : Agent) (va : Nat) : Bool :=
  region va = 0 && !isFwWindow va && !(s.rangesOf a).any (fun r => r.vbase ≤ va && va < r.vlimit)
    && (s.heldLeaf (agentCore a) (agentDie a) (s.tenantOf a) va).isNone
/-- The reads of a walk reach their slices (R76, R87). -/
def State.walked (s : State) (a : Agent) (va : Nat) : State :=
  if s.walks a va then
    (s.walkPlaces (s.tenant (s.tenantOf a)).root va).foldl (fun s p => s.touch p .read false) s
  else s
/-- An address has been translated by an agent, with the leaf `e` (R76). -/
def State.translated (s : State) (a : Agent) (va : Nat) (e : Option TlbEntry) : State := (s.walked a va).holdLeaf a e

/-- The PCIe port of an agent's card caches the ATS result that the address of host window `va` was translated with, 2,048 at
most (R393). -/
def State.holdAts (s : State) (a : Agent) (va : Nat) : State :=
  let k := agentDie a / 2
  if region va = 2 then
    match s.hostName k (va % 2 ^ 46) with
    | none => s
    | some x =>
      let key := (x.1, x.2 / 4096)
      let e := (key, s.atsPage k x.1 (x.2 / 4096))
      s.setCard k { s.card k with ats := (e :: (s.card k).ats.filter (fun y => y.1 != key)).take 2048 }
  else s

/-- Of the entry of a page that is not present: its requests go to the host, and the page is one of 32 MiB (R78, R84). -/
def State.pageHost (s : State) (tenant va : Nat) : Bool × Bool :=
  match s.walk (s.tenant tenant).root va with | .none h b => (h, b) | _ => (false, false)
/-- An address lies in the page of a request. -/
def PageRequest.covers (r : PageRequest) (va : Nat) : Bool :=
  if r.big then r.vpage / 512 == va / 2 ^ 25 else r.vpage == va / 2 ^ 16

/-- A page request, joined or new (R84): its epoch and the state. A page of 32 MiB is one page, named by its first 64 KiB. -/
def State.requestPage (s : State) (die tenant va : Nat) : Nat × State :=
  match s.requests.find? (fun r => r.live && r.die == die && r.tenant == tenant && r.covers va) with
  | some r => (r.epoch, s)
  | none =>
    let e := s.dev.nextEpoch
    let x := s.pageHost tenant va
    (e, { s with
      requests := s.requests ++ [{ die := die, tenant := tenant, vpage := if x.2 then va / 2 ^ 25 * 512 else va / 2 ^ 16,
                                   epoch := e, big := x.2, host := x.1, pasid := (s.tenant tenant).pasid, live := true,
                                   empties := 0 }],
      dev := { s.dev with nextEpoch := e + 1 } })

/-- An agent's request for the page of `va`; none is sent for a page under migration (R80, R91). -/
def State.awaitPage (s : State) (a : Agent) (va : Nat) (mig : Bool) : Nat × State :=
  if mig then (0, s) else s.requestPage (agentDie a) (s.tenantOf a) va

/-- A log record, and its MSI-X event (R346). -/
def State.logError (s : State) (die : Nat) (event mem addr unit way : Nat) (synd : BitVec 32) (owner : BitVec 16) : State :=
  let d := s.die die
  let r : LogRecord :=
    { w0 := BitVec.ofNat 64 (2 ^ 60 * event + 2 ^ 56 * mem + addr % 2 ^ 48),
      w1 := synd ++ BitVec.ofNat 16 way ++ BitVec.ofNat 16 unit, w2 := owner.setWidth 64, w3 := d.cycle }
  (s.setDie die { d with log := d.log ++ [r] }).raise 2
/-- The command complex counts a table error (R74, R78). -/
def State.tableError (s : State) : State := { s with dev := { s.dev with tableErrors := s.dev.tableErrors + 1 } }

/-! ### Replaying the side log (R82) -/

/-- The tenant and ranges of a run. -/
def State.spaceOf (s : State) (run : Nat) : Nat × List RangeDesc :=
  match s.run? run with | some r => (r.tenant, r.ranges) | none => (0, [])

/-- A side-log entry as the piece it becomes at a place (R82): a capability whose lease is no longer live at its
generation is written untagged. A store keeps its ord, so that one of ord 2 allocates no line (R97; log 55). -/
def State.replayPiece (s : State) (e : SideEntry) (pa : Nat) (rpl : Bool) : Piece :=
  let l := s.lease e.lease.toNat
  let op : PressOp := match e.op with | .write => .write | .atomic f w o c => .atomic f w o c none | .counter i _ => .counter i
  { agent := e.agent, op := op, line := pa / 64 * 64, va := e.va, data := e.data, mask := e.mask,
    tags := if l.state = 1 && l.gen = e.gen then e.tags else 0, poison := 0, replicated := rpl, nonAlloc := e.ord = 2,
    run := e.run, pc := e.pc, ord := e.ord }

/-- An entry goes back to a core's side log, to wait for the request of an epoch (0: for a migration). -/
def State.logAgain (s : State) (core : Nat) (e : SideEntry) (epoch : Nat) : State :=
  let c := s.coreAt core
  s.setCoreAt core { c with u := { c.u with sideLog := c.u.sideLog ++ [{ e with epoch := epoch }] } }

/-- The scope of a side-logged counter addition does not reach its home, which only the page's coming told (R126). -/
def SideEntry.outOfScope (e : SideEntry) (s : State) (pa : Nat) : Bool :=
  match e.op with
  | .counter _ scope => !s.scopeReaches e.agent pa scope
  | _ => false
/-- One entry replayed: performed at its place, kept where its page is away again, else dropped as a deferred fault
(R82, R85); so is a counter addition whose scope proves too small: the model's choice (log 45). -/
def State.replayEntry (s : State) (core : Nat) (e : SideEntry) : State :=
  let sp := s.spaceOf e.run
  let acc := match e.op with | .write => Access.write | _ => Access.atomic
  match s.xlateWith (some core) (core / 384) sp.1 sp.2 e.va.toNat acc with
  | .ok pa rpl l =>
    let t := s.translated (.copy core) e.va.toNat l
    if e.outOfScope s pa then t.defer e.agent e.run (e.va.setWidth 64) e.pc else t.storeNow (s.replayPiece e pa rpl)
  | .fault _ t => (if t then s.tableError else s).defer e.agent e.run (e.va.setWidth 64) e.pc
  | .absent =>
    let r := s.requestPage (core / 384) sp.1 e.va.toNat
    r.2.logAgain core e r.1
  | .migrating => s.logAgain core e 0

/-- Entries of a core's side log leave it and are handed on in log order. -/
def State.takeFrom (s : State) (core : Nat) (hit : SideEntry → Bool) (f : State → SideEntry → State) : State :=
  let c := s.coreAt core
  let mine := c.u.sideLog.filter hit
  if mine.isEmpty then s
  else mine.foldl f (s.setCoreAt core { c with u := { c.u with sideLog := c.u.sideLog.filter (fun e => !hit e) } })

/-- The page of an address is present for an agent: the entries for the page in its core's side log, and its own in the log
of a core it has left, replay before the access, so that the agent reads its own side-logged stores (R82, R113). -/
def State.replayOwn (s : State) (a : Agent) (va : Nat) : State :=
  match agentCore a with
  | none => s
  | some k =>
    let tenant := s.tenantOf a
    let run := s.runOf a
    let here (e : SideEntry) : Bool := e.va.toNat / 2 ^ 16 == va / 2 ^ 16 && (s.spaceOf e.run).1 == tenant
    let away := (s.cores.map Prod.fst).filter (fun j => j != k)
    let s := away.foldl (fun s j => s.takeFrom j (fun e => here e && e.agent == a && e.run == run) (fun s e => s.replayEntry j e)) s
    s.takeFrom k here (fun s e => s.replayEntry k e)

/-! ### Leases -/

/-- Drops lease numbers from every lease cache (the CFREE entry, R69). -/
def State.dropLeaseCaches (s : State) (ls : List Nat) : State :=
  { s with cores := s.cores.map (fun p =>
      (p.1, { p.2 with u := { p.2.u with leases := p.2.u.leases.filter (fun e => !ls.contains e.1) } })) }
/-- The invalidations of a revocation go to the cores of every die from the lease table's home, and their acknowledgements
come back (R167, R283; the CFREE entry). -/
def State.tellRevoked (s : State) (n : Nat) : State :=
  let home := leasePlace n
  (List.range s.numDies).foldl (fun s d =>
    if d = placeDie home then s
    else
      let r := s.plainRequest (.port (.ucie (placeDie home))) 50 4 (d * 2 ^ 44) (BitVec.ofNat 64 n) 0
      (s.sendItems (placeDie home) d [{ vc := 1, dst := d, body := .record r }]).sendItems d (placeDie home)
        [{ vc := 2, dst := placeDie home, body := .record { r with op := 51, addr := home } }]) s

/-- A lease becomes revoked (R67). -/
def State.revoke (s : State) (n : Nat) : State :=
  let e := s.lease n
  s.putLease n { e with state := 2, gen := e.gen + 1 }

/-- A piece on its way carries a tagged capability of one of the leases. -/
def Piece.carries (p : Piece) (ls : List Nat) : Bool :=
  (List.range 2).any (fun g =>
    p.tags.getLsbD g && ls.contains ((Cap.ofBits (p.data.extractLsb' (256 * g) 256) true).lease.toNat))
/-- Every capability store of the leases, and every propagation of one, reaches its home before a core acknowledges (the
CFREE entry). -/
def State.landCaps (s : State) (ls : List Nat) : State :=
  (((s.press.queues ++ s.press.fifo ++ s.press.props.map Propagation.piece).filter (fun p => p.carries ls)).map
    Piece.agent).dedup.foldl State.flush s

/-- Leases are revoked and become eligible for a pass once every core has acknowledged (R69, R71). -/
def State.revokeAll (s : State) (ls : List Nat) : State :=
  let s := ls.foldl State.tellRevoked ((ls.foldl State.revoke (s.landCaps ls)).dropLeaseCaches ls)
  { s with leases := { s.leases with eligible := s.leases.eligible ++ ls } }

/-- The live leases of a run, except lease 0 (R71). -/
def State.leasesOfRun (s : State) (low : BitVec 16) : List Nat :=
  (s.leasesIn 1).filter (fun n => n != 0 && (s.lease n).run = low)

/-! ### Ending a run -/

/-- A suspension waits for the request of an epoch. -/
def Susp.onEpoch (w : Susp) (e : Nat) : Bool := w.reason = .page && w.thresh.toNat = e
/-- A context waits for it. -/
def Ctx.onEpoch (c : Ctx) (e : Nat) : Bool := match c.susp with | some w => w.onEpoch e | none => false
/-- A command of an engine hart waits for it (R165). -/
def Engine.onEpoch (x : Engine) (e : Nat) : Bool := x.parked.isSome && x.epoch = e
/-- A queued weight fetch waits for it (R256). -/
def Matrix.onEpoch (x : Matrix) (e : Nat) : Bool := x.fetches.any (fun f => f.wait == some e)
/-- Something of a pre-empted run's share of a core waits for it (R86). -/
def SavedCore.onEpoch (sv : SavedCore) (e : Nat) : Bool :=
  sv.ctxs.any (fun c => match c with | some c => c.onEpoch e | none => false) || sv.waiting.any (fun p => p.susp.onEpoch e)
    || sv.copy.onEpoch e || sv.epi.onEpoch e || sv.copyCtx.onEpoch e || sv.epiCtx.onEpoch e || sv.mx.onEpoch e
/-- Something of a core waits for it. -/
def Core.onEpoch (k : Core) (e : Nat) : Bool :=
  k.u.waiting.any (fun p => p.susp.onEpoch e) || k.u.sideLog.any (fun x => x.epoch == e) || k.u.copy.onEpoch e || k.u.epi.onEpoch e
    || k.u.mx.onEpoch e || (match k.saved with | some sv => sv.onEpoch e | none => false)
/-- Something still waits for the request of an epoch (R85). -/
def State.epochUsed (s : State) (e : Nat) : Bool :=
  s.ctxs.any (fun p => p.2.onEpoch e) || s.cores.any (fun p => p.2.onEpoch e)
/-- The epochs of requests that nothing waits for any more name no live request (R85). -/
def State.dropUnwanted (s : State) : State :=
  { s with requests := s.requests.map (fun r => { r with live := r.live && s.epochUsed r.epoch }) }

/-- A slot is freed: nothing of the continuation remains in it. -/
def Ctx.freed (c : Ctx) : Ctx :=
  { c with occupied := false, susp := none, idle := none, pinned := false, recAddr := none, recCap := Cap.null, deferred := none,
           pageFail := none, resumed := false, held := false, loading := false, sending := none, owed := none, vpart := none }

/-- A core leaves a run: contexts stop, engine commands, galley, weight buffer and side log are discarded, the watches of
its waiters go (R338). -/
def State.dropCore (s : State) (run k : Nat) : State :=
  let c := s.coreAt k
  if c.run = some run then
    let s := { s with press := { s.press with watches := s.press.watches.filter (fun w => match w.who with
      | .agent a => agentCore a != some k
      | .record core _ => core != k) } }
    let s := (List.range 4).foldl (fun s n => s.setCtxOf (.ctx k n) (s.ctxOf (.ctx k n)).freed) s
    let c := s.coreAt k
    s.setCoreAt k { c with
      run := none, phase := .outside, arrived := none, stopped := false, closed := none, boundary := none, plan := Plan.reset,
      u := { c.u with
        sideLog := c.u.sideLog.filter (fun e => e.run != run),
        ready := c.u.ready.filter (fun e => e.run != run), waiting := c.u.waiting.filter (fun e => e.run != run),
        pending := [], copy := Engine.reset, epi := Engine.reset, mx := Matrix.reset } }
  else
    let s := match c.saved with
      | some sv => if sv.run = run then s.setCoreAt k { c with saved := none } else s
      | none => s
    let c := s.coreAt k
    s.setCoreAt k { c with u := { c.u with sideLog := c.u.sideLog.filter (fun e => e.run != run) } }

/-- A run of which no core holds anything any more is over: its exchanges, what firmware keeps of it and its leases go
(R338, R71, R85). -/
def State.finishStop (s : State) (run : Nat) : State :=
  match s.run? run with
  | none => s
  | some r =>
    if r.ending.isNone || r.state == .ended || s.cores.any (fun p => p.2.run == some run) then s
    else
      let s := (s.runCores r).foldl (fun s k => s.dropCore run k) s
      let s := { s with press := { s.press with
        exchange := s.press.exchange.filter (fun x => match x with
          | .transfer q _ _ _ _ _ _ | .pair q _ _ _ _ _ => q != run) } }
      let s := s.revokeAll (s.leasesOfRun (r.id.extractLsb' 0 16))
      (s.updRun run (fun r => { r with state := .ended })).dropUnwanted

/-- A core of a run that ends reaches its boundary and stops (R338, R341). -/
def State.stopAt (s : State) (run core : Nat) : State := (s.dropCore run core).finishStop run

/-- A run that is to end with a STATUS; one terminated while pre-empted has CAUSE 0x30, where it has met no fault before
(R367). -/
def Run.endWith (r : Run) (status : BitVec 4) : Run :=
  { r with
    ending := some (r.ending.getD status)
    f := if r.ending.isNone && status = 4 && r.state = .preempted && !r.f.fault then { r.f with cause := 0x30 } else r.f }
/-- A run ends with a STATUS (R338, R367): the cores `now` stand at their boundary, the other members stop each at their
own (R341). The colophon is written at RUN_END (R368). -/
def State.stopRun (s : State) (run : Nat) (status : BitVec 4) (now : List Nat) : State :=
  let s := s.updRun run (fun r => r.endWith status)
  (now.foldl (fun s k => s.dropCore run k) s).finishStop run

/-- A core belongs to a run that ends and has not stopped yet. -/
def State.mustStop (s : State) (core : Nat) : Bool :=
  match s.runOn core with | some r => r.ending.isSome | none => false

/-- The first fault of a run enters its colophon; later ones are counted (R338). -/
def FaultRecord.first (f : FaultRecord) (cause : BitVec 8) (core : Nat) (sstep : BitVec 32) (epc : BitVec 48)
    (eval : Word) : FaultRecord :=
  if f.fault then { f with nfault := f.nfault + 1 }
  else { f with fault := true, cause := cause, core := BitVec.ofNat 11 core, sstep := sstep, epc := epc, eval := eval }

/-- EndRun of a run for a fault on a core (R338). -/
def State.endRunOf (s : State) (run core : Nat) (cause : BitVec 8) (epc : BitVec 48) (eval : Word) : State :=
  (s.updRun run (fun r => { r with f := r.f.first cause core (s.coreAt core).sstepCount epc eval })).stopRun run 2 [core]
/-- EndRun for a fault on a core (R338). -/
def State.endRunAt (s : State) (core : Nat) (cause : BitVec 8) (epc : BitVec 48) (eval : Word) : State :=
  match (s.coreAt core).run with
  | none => s
  | some run => s.endRunOf run core cause epc eval

/-- The double fault of a run: the trap whose handler ran stands first (R338). -/
def FaultRecord.doubled (f : FaultRecord) (sr : SysRegs) (core : Nat) (sstep : BitVec 32) (cause : BitVec 8)
    (epc : BitVec 48) (eval : Word) : FaultRecord :=
  if f.fault then { f with nfault := f.nfault + 1 }
  else { f.first (sr.cause.extractLsb' 0 8) core sstep sr.epc sr.eval with
    double := true, cause2 := cause, epc2 := epc, eval2 := eval }
/-- EndRun of a double fault (R338). -/
def State.endRunDouble (s : State) (core : Nat) (sr : SysRegs) (cause : BitVec 8) (epc : BitVec 48) (eval : Word) : State :=
  match (s.coreAt core).run with
  | none => s
  | some run =>
    (s.updRun run (fun r => { r with f := r.f.doubled sr core (s.coreAt core).sstepCount cause epc eval })).stopRun run 2 [core]

end Sys2Proof.Machine
end

