-- ==== Sys2Proof/Machine/Ops.lean ====
section
/-! DEFINITION. The shared operations: how an instruction ends, taking an exception and returning from one (R334 to
R338, R350), fetching and checking a line (R17 to R23, R413), Cap_Check (R60), loads and stores by the Press (R143,
R157), releases and acquires (R127, R128), barrier completions (R135). -/

namespace Sys2Proof.Machine

/-! ### How an instruction stops before its end -/

/-- What a trap that changes nothing else still leaves: the reads of the walk that a failing translation made, and the
table error of a malformed one; a security event; the line a check has read, and whether the trap met a parity failure of it
(R413, R344); the read of a lease's table entry (R98). -/
inductive Note where
  | none | translation (va : Nat) (tableError : Bool) | securityEvent | line (la : Nat) (met : Bool) | lease (n : Nat)
  deriving DecidableEq, Repr

/-- Why an instruction that has not issued waits: for the way to a line and the refresh window of its bank (R103, R285), or
for room in the side log (R81). -/
inductive Hold where
  | line (pa : Nat) | sideLog
  deriving DecidableEq, Repr

/-- How an instruction ends other than by completing. -/
inductive Stop where
  /-- A precise trap: nothing but the trap sequence (R39, R336). -/
  | trap (cause : BitVec 8) (eval : Word) (note : Note)
  /-- A trap that keeps what the instruction has done: progress (R122, R248), or the stores a release waited for; with
  the store's PC for cause 0x21 (R337). -/
  | keep (cause : BitVec 8) (eval : Word) (spc : BitVec 48)
  /-- The instruction waits and has not issued (R296). -/
  | stall
  /-- The same, and its cycles are counted (R378). -/
  | hold (why : Hold)
  /-- The instruction stays at its PC with what it has done: it issues again. -/
  | again
  /-- A page is not present or under migration: the continuation parks (R80, R91); `kept`: progress is kept. -/
  | park (va : Nat) (mig : Bool) (kept : Bool)
  /-- The run ends with cause 0x22 for a parity error, or as the engine's rule says. -/
  | endRun (cause : BitVec 8) (eval : Word)
  deriving DecidableEq, Repr

/-- An operation on the state that may stop. -/
abbrev M := EStateM Stop State

/-- A trap. -/
def trap {α : Type} (cause : BitVec 8) (eval : Word) : M α := throw (.trap cause eval .none)
/-- A trap unless a condition holds. -/
def need (ok : Bool) (cause : BitVec 8) (eval : Word) : M Unit := if ok then pure () else trap cause eval
/-- The EVAL of a trap of this step for which the raising rule names no value (R335): a free value (log 31). -/
def State.openEval (s : State) : Word := Config.openEval s.tick
/-- A trap whose EVAL no rule names unless a condition holds. -/
def needOpen (ok : Bool) (cause : BitVec 8) : M Unit := do need ok cause (← get).openEval
/-- The low 64 bits of an integer. -/
def evalOf (x : Int) : Word := BitVec.ofInt 64 x

/-! ### Fetch lines (R17 to R23, R413) -/

/-- Word `k` of a line. -/
def lineWord (d : BitVec 512) (k : Nat) : Parcel := d.extractLsb' (32 * k) 32
/-- The parity of 256 bits, folded. -/
def parity256 (x : BitVec 256) : Bool :=
  let x := x ^^^ (x >>> 128)
  let x := x ^^^ (x >>> 64)
  let x := x ^^^ (x >>> 32)
  let x := x ^^^ (x >>> 16)
  let x := x ^^^ (x >>> 8)
  let x := x ^^^ (x >>> 4)
  let x := x ^^^ (x >>> 2)
  let x := x ^^^ (x >>> 1)
  x.getLsbD 0
/-- PARLO: line-word bits [30:0] and words 1 to 7 hold an even number of ones (R17). -/
def parloOk (d : BitVec 512) : Bool := !parity256 (d.extractLsb' 0 256 &&& ~~~(1#256 <<< 31))
/-- PARHI: line-word bit 31 and words 8 to 15 hold an even number of ones (R17). -/
def parhiOk (d : BitVec 512) : Bool := parity256 (d.extractLsb' 256 256) == d.getLsbD 31
/-- The parcels that begin instructions, from parcel `k` (R20); after a length of 0b11 none is known (log 22). -/
def startsFrom (d : BitVec 512) : Nat → Nat → List Nat
  | 0, _ => []
  | fuel + 1, k =>
    if 15 < k then []
    else
      let len := (lineWord d k).extractLsb' 0 2
      if len = 3 then [k] else k :: startsFrom d fuel (k + len.toNat + 1)
/-- The parcels of a line that begin instructions. -/
def starts (d : BitVec 512) : List Nat := startsFrom d 15 1

/-- The first check of R23 items 2 to 4 that a line fails, in the halves that are needed: poison, parity, bit [29]. -/
def FetchLine.lineFault (l : FetchLine) (lo hi : Bool) : Option (BitVec 8) :=
  if (lo && l.poison.getLsbD 0) || (hi && l.poison.getLsbD 1) then some 0x05
  else if !parloOk l.data || (hi && !parhiOk l.data) then some 0x04
  else if l.data.getLsbD 29 then some 0x01
  else none
/-- A half of a line is faulty: a trap of R23 would meet it (R344). -/
def FetchLine.faulty (l : FetchLine) : Bool := !parloOk l.data || !parhiOk l.data
/-- A place of the shipped microcode (R158; log 12). -/
def isMicrocode (a : Nat) : Bool := Config.fwPlace + Config.microcodeOffset 0 ≤ a && a < Config.fwPlace + Config.microcodeOffset 3
/-- Bytes as a read at their home gives them: the shipped microcode's are free values (log 12). -/
def State.readBytes (s : State) (a n : Nat) : List Byte :=
  if isMicrocode a then
    let o := a - (Config.fwPlace + Config.microcodeOffset 0)
    (List.range n).map (fun i => Config.microcode ((o + i) / 0x1000) ((o + i) % 0x1000))
  else s.bytesAt a n

/-- A core's fetch buffer loses the lines a predicate names: the discarding of a faulty one that no trap has met is logged as
unconsumed (R23, R344, R346). -/
def State.dropLines (s : State) (core : Nat) (p : FetchLine → Bool) : State :=
  let c := s.coreAt core
  let bad := c.u.fetchBuf.filter (fun l => p l && l.faulty && !l.met)
  let s := s.setCoreAt core { c with u := { c.u with fetchBuf := c.u.fetchBuf.filter (fun l => !p l) } }
  bad.foldl (fun s l => s.logError (core / 384 % 4) 2 4 l.pa (if core < 1536 then core else core / 384 % 4 * 384) 0 0 0) s
/-- A trap meets the parity failure of a line in its core's fetch buffer: the event is logged as consumed, once a line
(R344, R346). -/
def State.meetLine (s : State) (va : Nat) : State :=
  let k := s.core
  match k.u.fetchBuf.find? (fun l => l.va == va && l.faulty && !l.met) with
  | none => s
  | some l =>
    let s := s.setCore { k with u := { k.u with fetchBuf := k.u.fetchBuf.map (fun x => if x = l then { x with met := true } else x) } }
    s.logError (agentDie s.cur) 1 4 l.pa s.coreName 0 0 0

/-- The outcome of reading a line. -/
inductive Fetched where
  | line (l : FetchLine) (s : State)
  | fault (cause : BitVec 8) (note : Note)
  | park (mig : Bool)
  /-- The path to the line is held while a link retrains, or its bank refreshes (R103, R285). -/
  | held (pa : Nat)

/-! ### Counting, and refresh windows (R103, R104, R378) -/

/-- Adds to a core's counter bank every count of an event (R378, R380). -/
def PerfBank.count (b : PerfBank) (event n : Nat) : PerfBank :=
  { b with pmc := Vector.ofFn (fun i : Fin 8 =>
      let on := b.ctl.getLsbD (48 + i.val) && (b.ctl.extractLsb' (6 * i.val) 6).toNat == event
      if on then b.pmc[i] + BitVec.ofNat 64 n else b.pmc[i]) }
/-- Counts an event on a core; while the hypervisor holds the bank the guest's counts are frozen (R380). -/
def State.count (s : State) (core event n : Nat) : State :=
  let c := s.coreAt core
  s.setCoreAt core { c with perf := c.perf.count event n }

/-- Cycles of a card's main clock that pass in this step (R205; log 4). -/
def State.cyclesNow (s : State) (card : Nat) : Nat := 1 + Config.elapsed card s.tick

/-- The refresh window at a count of cycles since the timer began: bank, in progress, cycles left (R103, R104). -/
def refreshAt (t : Nat) : Nat × Bool × Nat :=
  let p := t % 48000
  if p % 3000 < 300 then (p / 3000, true, 300 - p % 3000) else ((p / 3000 + 1) % 16, false, 3000 - p % 3000)
/-- The refresh window of a die now. -/
def Die.window (d : Die) : Nat × Bool × Nat := refreshAt (d.cycle - d.refreshStart).toNat
/-- The device offers full service (R16, R396): the refresh timers run (R103). -/
def State.full (s : State) : Bool := s.dev.stage = 5
/-- The cycles that a read at a place must still wait for the refresh window of its weight-store bank (R103). -/
def State.refreshLeft (s : State) (pa : Nat) : Nat :=
  if s.full && isWeightStore pa then
    let w := (s.die (dieOf pa)).window
    if w.2.1 && w.1 = pa % 2 ^ 31 / 2 ^ 27 then w.2.2 else 0
  else 0
/-- A read of a core stalls at a refresh window: the cycles of this step are counted (R103, R378). -/
def State.refreshStall (s : State) (core pa : Nat) : State :=
  s.count core 5 (min (s.refreshLeft pa) (s.cyclesNow (core / 768)))
/-- What waiting leaves: the cycles of this step in their count (R378). -/
def State.heldBy (s : State) : Hold → State
  | .line pa => if s.refreshLeft pa = 0 then s else s.refreshStall s.coreNo pa
  | .sideLog => s.count s.coreNo 10 (s.cyclesNow (agentDie s.cur / 2))

/-! ### Reading a line -/

/-- Fetch (R22, R156): the line at `la` from the fetch buffer, else from its home. -/
def State.fetchLine (s : State) (la : Nat) : Fetched :=
  match s.xlate s.cur la .exec with
  | .fault c t => .fault c (.translation la t)
  | .absent => .park false
  | .migrating => .park true
  | .ok pa _ e =>
    match s.core.u.fetchBuf.find? (fun l => l.va == la && l.pa == pa) with
    | some l => .line l s
    | none =>
      if s.pathHeld s.cur pa || s.refreshLeft pa ≠ 0 then .held pa
      else if s.refused s.cur (s.runOf s.cur) pa .read then .fault 0x12 .securityEvent
      else
        let l : FetchLine :=
          { va := la, pa := pa, data := BitVec.ofNat 512 (leNat (s.readBytes pa 64)),
            poison := (if s.poisonAt pa then 1 else 0) ||| (if s.poisonAt (pa + 32) then 2 else 0), met := false }
        let s := ((s.translated s.cur la e).touch pa .read false).asksBytes s.cur pa 64
        let c := s.core
        .line l (s.setCore { c with u := { c.u with fetchBuf := l :: c.u.fetchBuf } })

/-- The outcome of a target check. -/
inductive Target where
  | ok (s : State)
  | bad (cause : BitVec 8) (eval : Word)
  | park (va : Nat) (mig : Bool)
  | held (pa : Nat)

/-- What a target check that fails with a cause leaves: the line it read stays in the fetch buffer (R413). -/
def State.targetNote (s : State) (t : Word) (cause : BitVec 8) : Note :=
  if t.toNat % 4 ≠ 0 || t.toNat % 64 / 4 = 0 then .none
  else match s.fetchLine (t.toNat / 64 * 64) with | .fault _ n => n | _ => .line (t.toNat / 64 * 64) (cause = 0x04)

/-- The target check of R20, R21 and R413 on an address in the footprint of the governing capability; `tgt`: TGT is
required. -/
def State.checkTarget (s : State) (t : Word) (tgt : Bool) : Target :=
  let la := t.toNat / 64 * 64
  let k := t.toNat % 64 / 4
  if t.toNat % 4 ≠ 0 || k = 0 then .bad 0x06 t
  else
    match s.fetchLine la with
    | .fault c _ => .bad c (BitVec.ofNat 64 la)
    | .park mig => .park la mig
    | .held pa => .held pa
    | .line l s =>
      match l.lineFault true (8 ≤ k) with
      | some c => .bad c (BitVec.ofNat 64 la)
      | none =>
      if (starts l.data).contains k && (!tgt || l.data.getLsbD (k - 1)) then .ok s
      else .bad 0x06 t

/-- A core's lease cache holds no entry of a lease: its check reads the table at its home (R61, R98). -/
def State.readLease (s : State) (n : Nat) : State :=
  if n = 0 || s.core.u.leases.any (fun e => e.1 == n) then s else s.touch (leasePlace n) .read false
/-- What a trap that changes nothing else still leaves. -/
def State.noted (s : State) : Note → State
  | .none => s
  | .translation va t => if t then (s.walked s.cur va).tableError else s.walked s.cur va
  | .securityEvent => s.securityEvent
  | .line la met => match s.fetchLine la with | .line _ t => if met then t.meetLine la else t | _ => s
  | .lease n => s.readLease n

/-- The check as an operation: traps, or parks the transferring instruction (R413). -/
def checkTargetM (t : Word) (tgt : Bool) : M Unit := do
  let s ← get
  match s.checkTarget t tgt with
  | .ok s => set s
  | .bad c e => throw (.trap c e (s.targetNote t c))
  | .park va mig => throw (.park va mig false)
  | .held pa => throw (.hold (.line pa))

/-- Transfer(target) (R214): the check when the target lies in fcap's footprint. -/
def transfer (t : Word) : M (Option Word) := do
  if (← get).ctx.fcap.covers t.toNat then checkTargetM t true
  pure (some t)

/-! ### Cap_Check (R60) -/

/-- LeaseEntry(n): from the core's lease cache, else from the table (R60, R61). -/
def State.leaseEntry (s : State) (n : Nat) : Lease :=
  match s.core.u.leases.find? (fun e => e.1 == n) with
  | some e => e.2
  | none => s.lease n

/-- The lifetime check of a capability (R60). -/
def State.alive (s : State) (c : Cap) : Bool :=
  let e := s.leaseEntry c.lease.toNat
  e.state = 1 && e.gen = c.gen

/-- A lease entry that passed is cached, 64 at most (R61); reading it at its home is a slice access (R87, R98). -/
def State.cacheLease (s : State) (n : Nat) : State :=
  let s := s.readLease n
  let k := s.core
  if k.u.leases.any (fun e => e.1 == n) then s
  else s.setCore { k with u := { k.u with leases := ((n, s.lease n) :: k.u.leases).take 64 } }

/-- The context is in the compute phase of a strict superstep (R60, R304). -/
def State.strict (s : State) : Bool :=
  match s.cur with
  | .ctx _ _ | .copy _ | .epi _ => s.core.phase = .compute && !s.core.xmode
  | _ => false

/-- The strict-phase clause of R60. -/
def State.strictOk (s : State) (c : Cap) (k : Kind) : Bool :=
  !s.strict || k = .X ||
    !((c.scope = 0 && localCore c.base.toNat != s.coreNo) || c.scope = 2 ||
      (c.scope = 1 && k != .SEAL && k != .UNSEAL && k != .W))

/-- The first cause by which Cap_Check fails, in the order of R60; `strictly`: with the strict-phase clause. -/
def State.capFault (s : State) (c : Cap) (k : Kind) (perm : BitVec 8) (i0 i1 : Int) (strictly : Bool) :
    Option (BitVec 8 × Word) :=
  let f := c.fmt.toNat
  if !c.tag then some (0x08, 0)
  else if Fmt.reserved f then some (0x0E, c.fmt.setWidth 64)
  else if c.otype ≠ 0 then some (0x0C, c.otype.setWidth 64)
  else if !s.alive c then some (0x0B, c.lease.setWidth 64)
  else if !k.admitted f then some (0x0E, c.fmt.setWidth 64)
  else if c.perm &&& perm ≠ perm then some (0x0A, perm.setWidth 64)
  else if c.scope = 3 then some (0x0D, c.base.setWidth 64)
  else if f = Fmt.sealer then (if c.scope ≠ 1 then some (0x0D, c.base.setWidth 64) else
    if i0 < 0 || c.ext 0 ≤ i0 || i1 < 0 || c.ext 1 ≤ i1 then
      some (0x09, (BitVec.ofInt 32 i1) ++ (BitVec.ofInt 32 i0)) else none)
  else if !scopeAgrees c.scope c.base then some (0x0D, c.base.setWidth 64)
  else if strictly && !s.strictOk c k then some (0x0D, c.base.setWidth 64)
  else if i0 < 0 || c.ext 0 ≤ i0 || i1 < 0 || c.ext 1 ≤ i1 then
    some (0x09, (BitVec.ofInt 32 i1) ++ (BitVec.ofInt 32 i0))
  else none

/-- What a failing check leaves: where it came as far as the lifetime, the read of the lease's entry (R61, R87, R98). -/
def Cap.checkNote (c : Cap) : Note :=
  if c.tag && !Fmt.reserved c.fmt.toNat && c.otype = 0 then .lease c.lease.toNat else .none

/-- Cap_Check(c, kind, i0, i1) (R60); a passing check fills the lease cache. -/
def capCheck (c : Cap) (k : Kind) (i0 i1 : Int) : M Unit := do
  match (← get).capFault c k k.need i0 i1 true with
  | some (cause, eval) => throw (.trap cause eval c.checkNote)
  | none => modify (fun s => s.cacheLease c.lease.toNat)

/-- The byte address of element (i0, i1), with the check of R14's last row. -/
def elemAddr (c : Cap) (i0 i1 : Int) : M Nat := do
  let a := c.addr i0 i1
  if a < 0 || 2 ^ 48 ≤ a || region a.toNat ≠ region c.base.toNat then trap 0x0D (evalOf a)
  else pure a.toNat

/-! ### Boundary logs (R375) -/

/-- Bytes of a boundary log's entry (log 27). -/
def logBytes : Nat := 64
/-- Entries that a core's boundary log has room for: its share of the run's region, or, where the debugger has supplied none, a
free number (R375; log 27). -/
def State.logRoom (s : State) (r : Run) (core : Nat) : Nat :=
  match r.dbg.logs with
  | some g => g.len / logBytes / (s.runCores r).length
  | none => Config.logRoom core
/-- A core keeps a boundary log: replay is armed, it computes, and the log has room. -/
def State.logging (s : State) (core : Nat) : Bool :=
  match s.runOn core with
  | some r =>
    let k := s.coreAt core
    r.dbg.replay && k.phase = .compute && !k.dbg.replaying && k.dbg.used < s.logRoom r core
  | none => false
/-- An entry of a core's boundary log; its bytes in the core's share of the region have a form of the implementation's:
free values (log 27). -/
def State.logItem (s : State) (core : Nat) (x : LogItem) : State :=
  let k := s.coreAt core
  let t := s.setCoreAt core { k with dbg := { k.dbg with
    log := k.dbg.log ++ [{ sstep := k.sstepCount, index := k.dbg.count, groups := k.dbg.groups, item := x }], used := k.dbg.used + 1 } }
  match (s.runOn core).bind (fun r => (r.dbg.logs).map (fun g => (r, g))) with
  | some (r, g) =>
    let a := g.base + logBytes * (s.logRoom r core * indexIn (s.runCores r) core + k.dbg.used)
    t.writeBy .firmware a ((List.range 8).flatMap (fun i => leBytes 8 (Config.freeWord (8 * s.tick + i)).toNat))
  | none => t
/-- A read that the log must hold: of a foreign granule of the own local memory, or, with the load journal, outside it. -/
def State.noteRead (s : State) (pa : Nat) : State :=
  match s.cur with
  | .ctx k _ =>
    match s.runOn k with
    | some r =>
      let c := s.coreAt k
      if r.dbg.replay && (if placeCore pa = some k then c.dbg.foreign.contains (pa / 32) else r.dbg.journal) then
        s.setCoreAt k { c with dbg := { c.dbg with touched := true } }
      else s
    | none => s
  | _ => s
/-- What reached a waiting context from outside its core's instructions enters the log. -/
def State.logWake (s : State) (a : Agent) : State :=
  match a with
  | .ctx k n => if s.logging k then s.logItem k (.answer n (s.ctxOf a)) else s
  | _ => s
/-- What reached a waiting context enters the load journal. -/
def State.logAnswer (s : State) (a : Agent) : State :=
  match a with
  | .ctx k n =>
    match s.runOn k with
    | some r => if r.dbg.journal && s.logging k then s.logItem k (.answer n (s.ctxOf a)) else s
    | none => s
  | _ => s

/-! ### Accesses by the Press (R103, R143, R157) -/

/-- A read waits while its bank's refresh window lasts: the instruction stays where it is (R103). -/
def refreshWait (pa : Nat) : M Unit := do
  if (← get).refreshLeft pa ≠ 0 then
    modify (fun s => s.refreshStall s.coreNo pa)
    throw .again

/-- What an access to a place leaves before it leaves the core: the walk's reads and leaf (R76), the ATS result (R393), its
page's side-log entries replayed (R82). -/
def State.reach (s : State) (va : Nat) (e : Option TlbEntry) : State :=
  ((s.translated s.cur va e).holdAts s.cur va).replayOwn s.cur va
/-- What an access asks of the windows on its way (R288). -/
def Access.wants : Access → Wants
  | .read | .exec => .read
  | .write | .copy => .write
  | .atomic => .both

/-- An access that its home or the way refuses faults precisely (R98, R285, R288); on a link that retrains it waits. -/
def pathOk (va pa : Nat) (want : Wants) : M Unit := do
  let s ← get
  if s.pathHeld s.cur pa then throw .stall
  if s.refused s.cur (s.runOf s.cur) pa want then throw (.trap 0x12 (BitVec.ofNat 64 va) .securityEvent)

/-- Translation of an access by the issuing agent: the place and whether the page is replicated; faults precisely
(R79), parks (R80). -/
def xl (va : Nat) (acc : Access) : M (Nat × Bool) := do
  let s ← get
  match s.xlate s.cur va acc with
  | .ok pa rpl e => do
    set ((s.reach va e).noteRead pa)
    if acc ≠ .write then pathOk va pa acc.wants
    pure (pa, rpl)
  | .fault c t => throw (.trap c (BitVec.ofNat 64 va) (.translation va t))
  | .absent => throw (.park va false false)
  | .migrating => throw (.park va true false)

/-- The youngest store-queue entry of an agent over each of `n` bytes at a place, where it writes the whole byte: the byte,
its granule's tag and poison. A half byte under it is not covered (R143). -/
def State.forward (s : State) (a : Agent) (place n : Nat) : List (Option (Byte × Bool × Bool)) :=
  (List.range n).map (fun i =>
    match (s.press.queues.filter (fun p => p.agent == a && p.touches (place + i) 1)).getLast? with
    | none => none
    | some p =>
      let o := place + i - p.line
      if p.op == .write && maskByte p.mask o = 0xFF then
        some (p.data.extractLsb' (8 * o) 8, p.tags.getLsbD (o / 32), p.poison.getLsbD (o / 32))
      else none)

/-- Every position is present. -/
def allSome {α : Type} : List (Option α) → Option (List α)
  | [] => some []
  | none :: _ => none
  | some x :: rest => (allSome rest).map (x :: ·)

/-- What a read returns: the bytes, the tag of their granule, and which bytes lie in a poisoned granule. -/
structure Got where
  bytes : List Byte
  tag : Bool
  poison : List Bool
  deriving DecidableEq, Repr

/-- A read of a sector. -/
def Sector.got (x : Sector) (pa n : Nat) : Got :=
  { bytes := (List.range n).map (fun i => x.data.extractLsb' (8 * (pa % 128 + i)) 8), tag := x.tags.getLsbD (pa % 128 / 32),
    poison := (List.range n).map (fun i => x.poison.getLsbD ((pa % 128 + i) / 32)) }
/-- A read at the home. -/
def State.homeGot (s : State) (pa n : Nat) : Got :=
  { bytes := s.readBytes pa n, tag := s.tagAt pa && taggable pa, poison := (List.range n).map (fun i => s.poisonAt (pa + i)) }
/-- A view cache missed: the event is counted (R378), and a sector that no fabric port on the way holds is asked of its home
(R142, R283). -/
def State.missed (s : State) (pa : Nat) : State :=
  let t := match agentCore s.cur with | some k => s.count k 8 1 | none => s
  if (pathPorts (agentDie s.cur) pa).any (fun p => (s.portView? p pa).isSome) then t else t.asksSector s.cur pa
/-- A read past the store queue (R143 cases 1 and 3 to 5, R144). -/
def State.readPast (s : State) (va pa n ord : Nat) : Got × State :=
  let s := s.settle s.cur pa n
  if ord ≠ 1 && cacheable pa then
    match s.view? s.cur va pa with
    | some x => (x.got pa n, s)
    | none =>
      let x := s.refreshSource s.cur va pa
      (x.got pa n, ((if ord = 2 then s else s.refreshView s.cur va pa).touch pa .read (ord = 2)).missed pa)
  else (s.homeGot pa n, ((s.touch pa .read (ord = 2)).asksBytes s.cur pa n).refreshHeld s.cur pa)
/-- A read of `n` bytes at a place (R143). A forwarded granule is tagged where the youngest store of every byte is an STC
(R57). -/
def State.readAt (s : State) (va pa n ord : Nat) : Got × State :=
  match if ord = 1 then none else allSome (s.forward s.cur pa n) with
  | some bs => ({ bytes := bs.map Prod.fst, tag := bs.all (fun b => b.2.1), poison := bs.map (fun b => b.2.2) }, s)
  | none => s.readPast va pa n ord

/-- Load of `n` bytes at a place (R143, R144): the bytes and the tag of their granule. A poisoned granule traps with
cause 0x22, EVAL the virtual address (R114). -/
def loadAt (va pa n : Nat) (ord : Nat) : M (List Byte × Bool) := do
  refreshWait pa
  let s ← get
  let r := s.readAt va pa n ord
  if r.1.poison.any id then throw (.trap 0x22 (BitVec.ofNat 64 va) .none)
  set r.2
  pure (r.1.bytes, r.1.tag)

/-- A read of `n` bytes at a virtual address that poison does not stop: it travels with the data (R345). -/
def loadAny (va n : Nat) : M Got := do
  let p ← xl va .read
  refreshWait p.1
  let s ← get
  let r := s.readAt va p.1 n 0
  set r.2
  pure r.1

/-- Load of `n` bytes at a virtual address. -/
def load (va n ord : Nat) : M (List Byte × Bool) := do
  let p ← xl va .read
  loadAt va p.1 n ord

/-- Data and mask of bytes at an offset in a 64-byte line. -/
def lineBits (off : Nat) (bs : List Byte) : BitVec 512 × BitVec 512 :=
  (BitVec.ofNat 512 (leNat bs * 2 ^ (8 * off)), BitVec.ofNat 512 ((2 ^ (8 * bs.length) - 1) * 2 ^ (8 * off)))

/-- A pending page or the place of a store's piece. -/
inductive StoreTo where
  | place (pa : Nat) (rpl : Bool)
  | log (epoch : Nat)

/-- Where a store goes: its place, or the side log with the epoch of its page request (R81); an engine parks (R165). -/
def storeTo (va : Nat) (acc : Access) : M StoreTo := do
  let s ← get
  match s.xlate s.cur va acc with
  | .ok pa rpl e => do
    set (s.reach va e)
    pure (.place pa rpl)
  | .fault c t => throw (.trap c (BitVec.ofNat 64 va) (.translation va t))
  | .absent => if isEngine s.cur then throw (.park va false false) else logIt false
  | .migrating => if isEngine s.cur then throw (.park va true false) else logIt true
where
  logIt (mig : Bool) : M StoreTo := do
    let s ← get
    let r := (s.walked s.cur va).awaitPage s.cur va mig
    set r.2
    pure (.log r.1)

/-- Room in the side log for `k` entries; without it the access stalls and has not issued (R81). -/
def sideRoom (k : Nat) : M Unit := do
  if 64 < (← get).core.u.sideLog.length + k then throw (.hold .sideLog)

/-- A side-log entry of the issuing agent (R81). -/
def logEntry (op : LogOp) (va : Nat) (d m : BitVec 512) (tags : BitVec 2) (c : Cap) (ord epoch : Nat) : M Unit :=
  modify (fun s =>
    let k := s.core
    let e : SideEntry :=
      { op := op, ord := ord, va := BitVec.ofNat 48 va, data := d, mask := m, tags := tags, lease := c.lease,
        gen := c.gen, agent := s.cur, run := s.runOf s.cur, pc := s.pc.setWidth 48, epoch := epoch }
    s.setCore { k with u := { k.u with sideLog := k.u.sideLog ++ [e] } })

/-- A piece of the issuing agent enters its store queue (R142); with ord 1 it is performed at once (R112). -/
def enqueue (op : PressOp) (va pa : Nat) (d m : BitVec 512) (tags : BitVec 2) (rpl : Bool) (ord : Nat) : M Unit :=
  modify (fun s =>
    let p : Piece :=
      { agent := s.cur, op := op, line := pa / 64 * 64, va := BitVec.ofNat 48 va, data := d, mask := m,
        tags := tags, poison := 0, replicated := rpl, nonAlloc := ord = 2, run := s.runOf s.cur, pc := s.pc.setWidth 48,
        ord := ord }
    let s := s.setQueues (s.press.queues ++ [p]) s.press.fifo
    if ord = 1 then s.settle s.cur p.place 1 else s)

/-- Store of bits under a mask in the line of `va` (R142, R81). `tags` and `c`: granules that carry capability `c` with
its tag (R58). With ord 1 a context whose store enters the side log waits there for its replay (R112; log 70). -/
def storeBits (va : Nat) (d m : BitVec 512) (tags : BitVec 2) (c : Cap) (ord : Nat) : M Unit := do
  match ← storeTo va .write with
  | .place pa rpl => enqueue .write va pa d m tags rpl ord
  | .log e => do
    sideRoom 1
    logEntry .write va d m tags c ord e

/-- Store of at most 64 bytes that do not leave their line. -/
def storeBytes (va : Nat) (bs : List Byte) (ord : Nat) : M Unit :=
  let x := lineBits (va % 64) bs
  storeBits va x.1 x.2 0 Cap.null ord

/-- The tag an STC or capability-preserving copy gives the value it stores, or the fault of R58. -/
def stcTag (v : Cap) (dst : Cap) (va : Nat) : M Bool := do
  let s ← get
  if !v.tag || !s.alive v then pure false
  else if v.scope = 0 && dst.scope ≠ 0 && !dst.perm.getLsbD 7 then trap 0x0A (BitVec.ofNat 64 va)
  else pure true

/-- Stores a capability with a tag as one granule (R56). -/
def storeCap (va : Nat) (v : Cap) (tag : Bool) (ord : Nat) : M Unit :=
  let x := lineBits (va % 64) (leBytes 32 v.bits.toNat)
  storeBits va x.1 x.2 (if tag then (if va % 64 < 32 then 1 else 2) else 0) v ord

/-- Loads a capability; a tagged one whose lease is not live at its generation loses its tag (R59). -/
def loadCap (va ord : Nat) : M Cap := do
  let r ← load va 32 ord
  let c := Cap.ofBits (BitVec.ofNat 256 (leNat r.1)) r.2
  pure (if c.tag && !(← get).alive c then { c with tag := false } else c)

/-- The own overlapping writes and the FIFO to the home are performed (R142, R157). -/
def State.atomicReady (s : State) (a : Agent) (pa n : Nat) : State :=
  (s.settle a pa n).deliverWhere a (fun p => s.homeKey p.line == s.homeKey pa)

/-- Press_Atomic (R157): the own overlapping writes and the FIFO to the home are performed, then the atomic; it returns
the old value. A poisoned granule traps (R114). -/
def atomicAt (va pa : Nat) (fn5 : BitVec 5) (wide : Bool) (operand cmp : Word) : M Word := do
  let a := (← get).cur
  let n := if wide then 8 else 4
  modify (fun s => s.atomicReady a pa n)
  let s ← get
  if s.poisonAt pa then throw (.trap 0x22 (BitVec.ofNat 64 va) .none)
  let r := s.performAtomic a (s.runOf a) pa fn5 wide operand cmp
  set r.2
  pure r.1

/-- An atomic or a counter update enters the FIFO toward its home once no own write overlaps (R142); on a link that
retrains it waits (R285). -/
def atomicSend (op : PressOp) (va pa n : Nat) : M Unit := do
  let a := (← get).cur
  if (← get).pathHeld a pa then throw .stall
  modify (fun s => s.settle a pa n)
  let s ← get
  if s.poisonAt pa then throw (.trap 0x22 (BitVec.ofNat 64 va) .none)
  let x := lineBits (pa % 64) (List.replicate n 0)
  let p : Piece :=
    { agent := a, op := op, line := pa / 64 * 64, va := BitVec.ofNat 48 va, data := 0, mask := x.2, tags := 0,
      poison := 0, replicated := false, nonAlloc := false, run := s.runOf a, pc := s.pc.setWidth 48, ord := 0 }
  set ((s.setQueues s.press.queues (s.press.fifo ++ [p])).route p)

/-! ### Releases and acquires (R127, R128, R147, R148) -/

/-- The fabric ports whose sectors a release of a scope drops (R147). -/
def State.releasePorts (s : State) (a : Agent) (scope : Nat) : List Port :=
  let pkg := agentDie a / 2
  if scope = 2 then [.ucie (2 * pkg), .ucie (2 * pkg + 1)]
  else if scope = 3 then
    (List.range s.numDies).map Port.ucie ++ (if s.twoCards then [.bridge 0, .bridge 1] else [])
  else []

/-- The sectors an agent has delivered writes to since its previous release of a scope or wider are dropped from the
ports of the scope (R147). -/
def State.dropPorts (s : State) (a : Agent) (scope : Nat) : State :=
  let ports := (s.releasePorts a scope).map Agent.port
  let mine := s.press.delivered.filter (fun d => d.agent == a && (scope = 3 || !d.pkg))
  let s := if scope < 2 then s else
    s.dropViews (fun x => ports.contains x.agent && mine.any (fun d => d.sector == x.pa / 128))
  if scope = 2 then
    { s with press := { s.press with delivered := s.press.delivered.map (fun d => if d.agent == a then { d with pkg := true } else d) } }
  else if scope = 3 then { s with press := { s.press with delivered := s.press.delivered.filter (fun d => d.agent != a) } }
  else s

/-- A side log holds entries of the issuing agent, of its own run (R83): of a continuation that was written back and loaded
elsewhere they stay in the log of the core it left. -/
def State.logged (s : State) : Bool :=
  s.cores.any (fun p => p.2.u.sideLog.any (fun e => e.agent == s.cur && e.run == s.runOf s.cur))
/-- Writes of the issuing agent wait at a link that retrains (R285). -/
def State.writesHeld (s : State) : Bool := s.writesWait s.cur
/-- A store of an agent with ord 1 stands in a side log: until it has been performed or dropped the agent issues nothing
(R81, R112). -/
def State.volLogged (s : State) (a : Agent) : Bool :=
  s.cores.any (fun p => p.2.u.sideLog.any (fun e => e.ord = 1 && e.agent == a && e.run == s.runOf a))

/-- The wait of R83 and the delivery of a pending deferred fault with cause 0x21 (R337). -/
def takeDeferred : M Unit := do
  let s ← get
  match s.ctx.deferred with
  | some d => do
    set (s.setCtx { s.ctx with deferred := none })
    throw (.keep 0x21 d.eval d.pc)
  | none => pure ()

/-- Press_Release(scope) (R127, R146, R147): stalls while the side log holds entries of the context, performs every
earlier store, takes a deferred fault, drops port sectors. -/
def release (scope : Nat) : M Unit := do
  takeDeferred
  let s ← get
  if s.logged || s.writesHeld then throw .stall
  set (s.flush s.cur)
  takeDeferred
  modify (fun s => s.dropPorts s.cur scope)

/-- What follows a release: a trap in it leaves the release made (R330). -/
def standing {α : Type} (x : M α) : M α := fun s =>
  match x s with
  | .error (.trap c e n) _ => .error (.keep c e 0) (s.noted n)
  | r => r

/-- The drop of an acquire on the counter at a virtual address: sectors of regions bound to it (R128, R132, R148). -/
def State.acquire (s : State) (ctr : Nat) : State :=
  let bs := s.ctx.r.bind.toList.filter (fun b => b.v && b.ctr.toNat == ctr)
  s.dropViews (fun x => x.agent == s.cur && bs.any (fun b => b.base.toNat < x.va + 128 && x.va < b.limit.toNat))

/-- The drop of FENCE.acq: the agent's whole view cache (R137, R148). -/
def State.acquireAll (s : State) : State := s.dropViews (fun x => x.agent == s.cur)

/-! ### Barrier slots (R134, R135) -/

/-- A barrier slot of a core. -/
def Core.barrier (c : Core) (n : Nat) : Barrier := Sparse.get Barrier.reset c.u.barriers n
/-- Sets a barrier slot. -/
def Core.setBarrier (c : Core) (n : Nat) (b : Barrier) : Core :=
  { c with u := { c.u with barriers := Sparse.put Barrier.reset c.u.barriers n b } }
/-- The status of a completion (R135). -/
def Barrier.status (b : Barrier) : Word := 0#48 ++ b.code ++ b.gen

/-- An engine hart or context waits at barrier slot `n` (R136). -/
def Ctx.atBarrier (c : Ctx) (n : Nat) : Bool :=
  match c.susp with
  | some w => w.reason = .barrier && w.key.toNat % 256 == n
  | none => false

/-- A store of the core for a continuation that is away, or leaves (R292 to R294): bits under a mask in the line of `va`, as the
continuation's own agent. It is performed before anything else of that agent; on a link that retrains it waits in the queue,
and on an absent page in the side log (R81, R285). -/
def State.coreStore (s : State) (core run : Nat) (a : Agent) (va : Nat) (x : BitVec 512 × BitVec 512) : State :=
  let sp := s.spaceOf run
  let entry : SideEntry :=
    { op := .write, ord := 0, va := BitVec.ofNat 48 va, data := x.1, mask := x.2, tags := 0, lease := 0, gen := 0, agent := a, run := run,
      pc := 0, epoch := 0 }
  match s.xlateWith (some core) (core / 384) sp.1 sp.2 va .write with
  | .ok pa rpl l =>
    let p : Piece :=
      { agent := a, op := .write, line := pa / 64 * 64, va := BitVec.ofNat 48 va, data := x.1, mask := x.2, tags := 0, poison := 0,
        replicated := rpl, nonAlloc := false, run := run, pc := 0, ord := 0 }
    let s := s.translated (.copy core) va l
    if s.pathHeld a pa then s.setQueues (s.press.queues ++ [p]) s.press.fifo else s.storeNow p
  | .fault _ t => (if t then s.tableError else s).defer a run (BitVec.ofNat 64 va) 0
  | .absent =>
    let r := s.requestPage (core / 384) sp.1 va
    r.2.logAgain core entry r.1
  | .migrating => s.logAgain core entry 0
/-- The agent that a written-back continuation is (R138, R152). -/
def Parked.agent (p : Parked) (core : Nat) : Agent := .cont core p.recAddr.toNat

/-- g[d] is written into the frame image of a written-back continuation (R292, R293). -/
def State.writeImageG (s : State) (core : Nat) (p : Parked) (x : Word) : State :=
  if p.susp.dst = 0 then s
  else
    let va := p.frame.base.toNat + 0x220 + 8 * p.susp.dst.toNat
    s.coreStore core p.run (p.agent core) va (lineBits (va % 64) (leBytes 8 x.toNat))
/-- STATE of a record becomes `x`; the rest of its byte keeps its value (R291). -/
def State.writeState (s : State) (core run : Nat) (a : Agent) (rec : Nat) (x : BitVec 4) : State :=
  let off := 8 * ((rec + 8) % 64)
  s.coreStore core run a (rec + 8) (BitVec.ofNat 512 (x.toNat * 2 ^ off), BitVec.ofNat 512 (15 * 2 ^ off))
/-- THRESH of a record. -/
def State.writeThresh (s : State) (core run : Nat) (a : Agent) (rec : Nat) (x : Word) : State :=
  s.coreStore core run a (rec + 24) (lineBits ((rec + 24) % 64) (leBytes 8 x.toNat))

/-! ### Arrival at XSYNC (R300) -/

/-- A continuation waits at XSYNC of a level. -/
def atXsync (level : Nat) : Option Susp → Bool
  | some w => w.reason = .xsync && w.key.toNat == level
  | none => false
/-- The waits of a core's live continuations: none for one that does not wait (R300). -/
def State.liveWaits (s : State) (core : Nat) : List (Option Susp) :=
  ((List.range 4).filterMap (fun i =>
    let c := s.ctxOf (.ctx core i)
    if c.occupied then some c.susp else none))
    ++ (s.coreAt core).u.waiting.map (fun p => some p.susp) ++ (s.coreAt core).u.ready.map (fun _ => none)
/-- The level at which every live continuation of a core waits (R300). -/
def State.commonLevel (s : State) (core : Nat) : Option Nat :=
  match s.liveWaits core with
  | some w :: rest =>
    if w.reason = .xsync && rest.all (atXsync w.key.toNat) then some w.key.toNat else none
  | _ => none
/-- A continuation of the core already waits at another level (R300). -/
def State.otherLevel (s : State) (core level : Nat) : Bool :=
  (s.liveWaits core).any (fun w => match w with
    | some w => w.reason = .xsync && w.key.toNat != level
    | none => false)
/-- The engine commands a core has issued so far are those before its arrival (R302). -/
def CoreUnits.markBefore (u : CoreUnits) : CoreUnits :=
  { u with copy := { u.copy with before := u.copy.fifo.length }, epi := { u.epi with before := u.epi.fifo.length } }
/-- Matrix instructions wait or run (R272). -/
def Matrix.busy (x : Matrix) : Bool := !x.fetches.isEmpty || !x.loads.isEmpty || !x.streams.isEmpty
/-- Place of entry `i` of the plan whose header lies at `off`. -/
def entryPlace (core off i : Nat) : Nat := localBase core + off + 32 + 32 * i
/-- Entry `i` of the plan whose header lies at `off`, as it stands in memory (R170). -/
def State.entryAt (s : State) (core off i : Nat) : PlanEntry :=
  let a := entryPlace core off i
  { w0 := s.wordAt a, w1 := s.wordAt (a + 8), w2 := s.wordAt (a + 16), w3 := s.wordAt (a + 24) }
/-- A plan whose exchange phase starts: its entries are read (R169). -/
def State.startPlan (s : State) (core : Nat) : Plan :=
  let p := (s.coreAt core).plan
  { p with
    next := if p.en then some 0 else none, fault := none, nfail := 0, late := 0, maxLate := 0,
    entries := if p.en then (List.range p.count.toNat).map (s.entryAt core (p.offset.toNat * 32)) else [] }
/-- A core whose last continuation has come to wait, and whose matrix instructions have completed (R272), arrives; a core
without a continuation is finished (R300). -/
def State.checkArrival (s : State) (core : Nat) : State :=
  let k := s.coreAt core
  if k.run.isNone || k.arrived.isSome then s
  else if (s.liveWaits core).isEmpty then s.setCoreAt core { k with phase := .outside }
  else
    match s.commonLevel core with
    | some level =>
      if k.u.mx.busy then s
      else s.setCoreAt core { k with
        phase := .exchange, arrived := some (BitVec.ofNat 3 level), u := k.u.markBefore, plan := s.startPlan core }
    | none => s

/-! ### Ready records (R293 to R295) -/

/-- A written-back continuation whose condition is met enters the ready queue, or its die's pick-up unit when it is
portable, nothing of it is on its way (R152) and the unit has room (R294, R295): then it is no continuation of its core's any
more, which may have arrived without it (R300). Its record reads STATE ready. A queue of
64 that is full takes it once it has room: until then it waits for nothing (log 59). -/
def State.makeReady (s : State) (core : Nat) (p : Parked) : State :=
  let s := s.writeState core p.run (p.agent core) p.recAddr.toNat 1
  let e : Ready := { recAddr := p.recAddr, prio := p.prio, run := p.run, plevel := p.plevel, core := BitVec.ofNat 11 core, recCap := p.recCap }
  let c := s.coreAt core
  let s := s.setCoreAt core { c with u := { c.u with waiting := c.u.waiting.filter (fun q => q.recAddr != p.recAddr) } }
  let d := s.die (core / 384)
  let under := (s.press.queues ++ s.press.fifo).any (fun q => q.agent == .cont core p.recAddr.toNat)
  let c := s.coreAt core
  if p.plevel ≠ 0 && under then
    s.setCoreAt core { c with u := { c.u with waiting := c.u.waiting ++ [{ p with susp := { p.susp with reason := .yield } }] } }
  else if p.plevel ≠ 0 && d.pickup.length < 256 then (s.setDie (core / 384) { d with pickup := d.pickup ++ [e] }).checkArrival core
  else if c.u.ready.length < 64 then s.setCoreAt core { c with u := { c.u with ready := c.u.ready ++ [e] } }
  else
    let w : Parked := { p with susp := { p.susp with reason := .yield } }
    s.setCoreAt core { c with u := { c.u with waiting := c.u.waiting ++ [w] } }

/-- Wakes every waiter of a barrier slot with its status (R135): resident ones, engine harts, and written-back ones. -/
def State.wakeBarrier (s : State) (core n : Nat) (status : Word) : State :=
  let s := (slotAgents core).foldl (fun s a =>
    let c := s.ctxOf a
    if c.atBarrier n then
      match c.susp with
      | some w => (s.setCtxOf a ({ c with susp := none }.setG w.dst status)).logWake a
      | none => s
    else s) s
  ((s.coreAt core).u.waiting.filter (fun p => p.susp.reason = .barrier && p.susp.key.toNat % 256 == n)).foldl
    (fun s p => (s.writeImageG core p status).makeReady core p) s

/-- A completion of a slot with a fault code (R135). -/
def State.completeBarrier (s : State) (core n : Nat) (code : BitVec 8) : State :=
  let b := (s.coreAt core).barrier n
  let b := { b with code := code, gen := b.gen + 1, cnt := 0 }
  (s.setCoreAt core ((s.coreAt core).setBarrier n b)).wakeBarrier core n b.status

/-- An arrival of `k` at a slot (R135). -/
def State.arrive (s : State) (core n : Nat) (k : Nat) : State :=
  let b := (s.coreAt core).barrier n
  if b.exp.toNat = b.cnt.toNat + k && b.exp ≠ 0 then s.completeBarrier core n 0
  else if b.exp.toNat < b.cnt.toNat + k || b.exp = 0 then s.completeBarrier core n 0x02
  else s.setCoreAt core ((s.coreAt core).setBarrier n { b with cnt := b.cnt + BitVec.ofNat 24 k })

/-! ### Engine commands end (R160, R164) -/

/-- The cell of a kick or mailbox counter in the counter window (R161): 0 copy kick, 8 copy mailbox, and the epilogue
hart's after them. -/
def windowCell (core off : Nat) : Nat := localBase core + 2 ^ 20 + off
/-- The kick counter of engine `e` (0 copy, 1 epilogue). -/
def kickCell (core e : Nat) : Nat := windowCell core (16 * e)
/-- The mailbox counter of engine `e`. -/
def mailCell (core e : Nat) : Nat := windowCell core (16 * e + 8)
/-- Engine `e` of a core. -/
def Core.engine (c : Core) (e : Nat) : Engine := if e = 0 then c.u.copy else c.u.epi
/-- Sets engine `e`. -/
def Core.setEngine (c : Core) (e : Nat) (x : Engine) : Core :=
  if e = 0 then { c with u := { c.u with copy := x } } else { c with u := { c.u with epi := x } }
/-- The agent of engine `e`. -/
def engineAgent (core e : Nat) : Agent := if e = 0 then .copy core else .epi core

/-- A COUNTER capability of local scope under lease 0 over one cell of a core's counter window (R161). -/
def cellCapOf (cell : Nat) (perm : BitVec 8) : Cap :=
  { Cap.null with tag := true, base := BitVec.ofNat 48 cell, fmt := 0x22, perm := perm }
/-- The capabilities a copy or epilogue hart holds when its microcode starts (R161): c14 to its kick counter, c15 to its
mailbox counter. -/
def Ctx.handCells (c : Ctx) (core e : Nat) : Ctx :=
  (c.setC 14 (cellCapOf (kickCell core e) 0x01)).setC 15 (cellCapOf (mailCell core e) 0x03)

/-- The capability to a command block that replaced microcode is handed (R159): L, S, LC and SC over its 128 bytes (log 70). -/
def blockCap (blk : BitVec 48) : Cap := { Cap.null with tag := true, base := blk, ext0 := 127, perm := 0x0F }
/-- Replaced microcode of a copy or epilogue hart holds in c0 the block capability of the command at the head of its FIFO, null
where there is none (R159; log 70). -/
def State.handBlock (s : State) (core e : Nat) : State :=
  let a := engineAgent core e
  if (s.ctxOf a).occupied then
    s.setCtxOf a ((s.ctxOf a).setC 0 (match ((s.coreAt core).engine e).fifo with | blk :: _ => blockCap blk | [] => Cap.null))
  else s
/-- Replaced microcode has added to its mailbox counter, once for the command at the head of its FIFO: that entry leaves, and
the next command's block is handed over (R159, R161). -/
def State.commandDone (s : State) (cell : Nat) : State :=
  match s.cur with
  | .copy k | .epi k =>
    let e := match s.cur with | .copy _ => 0 | _ => 1
    if cell = mailCell k e && s.ctx.occupied then
      let c := s.coreAt k
      let x := c.engine e
      (s.setCoreAt k (c.setEngine e { x with fifo := x.fifo.tail, before := x.before - 1 })).handBlock k e
    else s
  | _ => s

/-- The elements a command has written before the first whose line a refused store was for; a SCATTER's are not known by their
number (R164). -/
def Engine.doneBefore (x : Engine) (done : Nat) (eval : Word) : Nat :=
  let line (k : Nat) : Int := x.dst.addr (k % x.dst.ext 0 : Nat) (k / x.dst.ext 0 : Nat) / 64
  if x.w0.extractLsb' 0 8 = 2 then done
  else ((List.range done).find? (fun k => line k = (eval.toNat / 64 : Nat))).getD done
/-- The end of an engine command (R164): DONE, BYTES, CAUSE, EVAL and STATE are written, the barrier is arrived at, the
mailbox is released. `head`: granule 0 was readable. A deferred store fault of the hart is taken at that release: the
command ends with cause 0x21 (R337), and DONE counts the elements before the refused ones. -/
def State.endCommand (s : State) (core e : Nat) (done bytes : Nat) (cause : BitVec 8) (eval : Word) (head : Bool) : State :=
  let x := (s.coreAt core).engine e
  match x.fifo with
  | [] => s
  | blk :: rest =>
    let pa := blk.toNat
    let w0 := if x.busy then x.w0 else s.wordAt pa
    let a := engineAgent core e
    let s := s.flush a
    let late := if cause = 0 then (s.ctxOf a).deferred else none
    let cause := if late.isSome then 0x21 else cause
    let eval := match late with | some d => d.eval | none => eval
    let size := if done = 0 then 0 else bytes / done
    let done := match late with | some d => x.doneBefore done d.eval | none => done
    let bytes := if late.isSome then done * size else bytes
    let s := s.setCtxOf a { s.ctxOf a with deferred := none }
    let s := (s.writeBy (writerOf a (s.runOf a)) (pa + 16) (leBytes 4 done ++ leBytes 4 bytes ++
      [if cause = 0 then 1 else 2, cause] ++ leBytes 6 eval.toNat)).clearTags pa 32
    let s := if head && w0.getLsbD 24 then
        (if cause = 0 then s.arrive core (w0.extractLsb' 16 8).toNat 1
         else s.completeBarrier core (w0.extractLsb' 16 8).toNat cause)
      else s
    let s := s.performCounter a (s.runOf a) (mailCell core e) 1
    let c := s.coreAt core
    s.setCoreAt core (c.setEngine e
      { x with fifo := rest, busy := false, w0 := 0, n := 0, done := 0, src := Cap.null, dst := Cap.null, idx := Cap.null,
               before := x.before - 1, tile := 0, elem := 0, parked := none, epoch := 0, pageFail := none })

/-- A trap in engine microcode ends the hart's command as faulted, and the hart restarts at its entry; without a command it
ends the run, that of a gateway hart the one it serves (R160). The rule names gateway and epilogue microcode alone there; that
a copy hart with no command ends its run too is the model's choice (log 70). -/
def State.engineTrap (s : State) (cause : BitVec 8) (eval : Word) : State :=
  match s.cur with
  | .copy k | .epi k =>
    let e := match s.cur with | .copy _ => 0 | _ => 1
    let x := (s.coreAt k).engine e
    if x.fifo = [] then s.endRunAt k cause (s.pc.setWidth 48) eval
    else
      let s := s.endCommand k e x.done (x.done * Fmt.size x.dst.fmt.toNat) cause eval true
      match x.micro with
      | some m => (s.setCtx ({ s.ctx with pc := m.base.setWidth 64 + m.str1.setWidth 64, fcap := m }.handCells k e)).handBlock k e
      | none => s
  | _ => s.endRunOf (s.runOf s.cur) s.coreName cause (s.pc.setWidth 48) eval

/-! ### Trace records (R377) -/

/-- The trace unit of a core's die writes records for the run on the core. -/
def State.traced (s : State) (core : Nat) : Bool :=
  let t := (s.die (core / 384)).trace
  t.en && (match (s.coreAt core).run with | some r => t.runs.contains r | none => false)

/-- A record of a trace unit: the ring's next place, or one more record lost (R377). -/
def State.traceWrite (s : State) (die : Nat) (word0 a b : Word) : State :=
  let d := s.die die
  let t := d.trace
  if t.len + t.read ≤ t.index then s.setDie die { d with trace := { t with lost := t.lost + 1 } }
  else
    let s := s.writeBy .firmware (t.ring + 32 * (t.index % t.len))
      (leBytes 8 word0.toNat ++ leBytes 8 d.cycle.toNat ++ leBytes 8 a.toNat ++ leBytes 8 b.toNat)
    s.setDie die { s.die die with trace := { t with index := t.index + 1 } }

/-- Word 0 of a record (R377). -/
def traceWord (core slot kind : Nat) (sstep : BitVec 32) : Word :=
  sstep ++ BitVec.ofNat 8 kind ++ 0#6 ++ BitVec.ofNat 2 slot ++ 0#5 ++ BitVec.ofNat 11 core

/-- A record about a core, when its run is traced (R377). -/
def State.trace (s : State) (core slot kind : Nat) (a b : Word) : State :=
  if s.traced core then s.traceWrite (core / 384) (traceWord core slot kind (s.coreAt core).sstepCount) a b else s

/-! ### Taking an exception and returning from one -/

/-- A continuation parks on a page (R80, R91): suspended with reason page and the request's epoch. `entry`: it waits
to enter its handler, and a failed request ends its run (R413). -/
def State.parkOn (s : State) (va : Nat) (mig entry : Bool) : State :=
  let r := (s.walked s.cur va).awaitPage s.cur va mig
  let w : Susp :=
    { reason := .page, key := BitVec.ofNat 64 va, thresh := BitVec.ofNat 64 r.1, dst := if entry then 1 else 0,
      since := s.tick, limit := none }
  r.2.setCtx { r.2.ctx with susp := some w }

/-- The trap sequence once its target has passed (R336). -/
def State.enterHandler (s : State) (cause : BitVec 8) (eval : Word) (spc : BitVec 48) : State :=
  let s := s.trace s.coreNo s.slot 3 (cause.setWidth 64) ((s.pc.setWidth 48).setWidth 64)
  let c := s.ctx
  let t := c.sr.tvecAddr
  let rcc := s.core.rcc
  s.setCtx { c with
    efcap := { c.fcap with str1 := (c.pc - c.fcap.base.setWidth 64).setWidth 32 }, esave := c.r.c[15],
    pc := t, fcap := { rcc with str1 := (t - rcc.base.setWidth 64).setWidth 32 },
    r := { c.r with c := c.r.c.set 15 s.core.rdc },
    sr := { c.sr with epc := c.pc.setWidth 48, cause := causeOf spc cause, eval := eval,
                      status := statusOf c.sr.cid true, cid := 1 } }

/-- A deferred fault whose trap is not yet taken stays pending (R337). -/
def State.keepDeferred (s : State) (cause : BitVec 8) (eval : Word) (spc : BitVec 48) : State :=
  if cause = 0x21 then s.setCtx { s.ctx with deferred := some { eval := eval, pc := spc } } else s

/-- Trap(cause, eval) (R336): a handler is entered, or the run ends (R338). `spc` is the store's PC of cause 0x21. An
engine hart never runs the sequence (R160). -/
def State.takeTrap (s : State) (cause : BitVec 8) (eval : Word) (spc : BitVec 48) : State :=
  if isEngine s.cur then s.engineTrap cause eval
  else
    let c := s.ctx
    if c.sr.th then s.endRunDouble s.coreNo c.sr cause (c.pc.setWidth 48) eval
    else if !c.sr.tvecEn then s.endRunAt s.coreNo cause (c.pc.setWidth 48) eval
    else
      let t := c.sr.tvecAddr
      if !s.core.rcc.covers t.toNat then s.endRunAt s.coreNo 0x06 (c.pc.setWidth 48) t
      else
        match s.checkTarget t true with
        | .ok s => s.enterHandler cause eval spc
        | .bad k e => (s.noted (s.targetNote t k)).endRunAt s.coreNo k (c.pc.setWidth 48) e
        | .park va mig => (s.keepDeferred cause eval spc).parkOn va mig true
        | .held pa => (s.heldBy (.line pa)).keepDeferred cause eval spc

/-- The effect of XRET once its checks have passed (R350). -/
def State.leaveHandler (s : State) : State :=
  let c := s.ctx
  let t : Word := c.sr.epc.setWidth 64
  s.setCtx { c with
    pc := t, fcap := { c.efcap with str1 := (t - c.efcap.base.setWidth 64).setWidth 32 },
    r := { c.r with c := c.r.c.set 15 c.esave },
    sr := { c.sr with cid := c.sr.pcid, status := statusOf c.sr.pcid false } }

/-! ### One instruction -/

/-- The engine profile (R159, R274) by the first parcel: an encoding outside it traps with cause 0x01, whatever else it
would do. -/
def parcelInProfile (a : Agent) (p : Parcel) : Bool :=
  let len := (p.extractLsb' 0 2).toNat
  let major := (p.extractLsb' 2 6).toNat
  if len = 0 then
    major ≤ 16 || major = 19 || (major = 20 && p.extractLsb' 18 4 = 1)
      || (major = 18 && (p.extractLsb' 18 4 = 0 || p.extractLsb' 18 4 = 8 || p.extractLsb' 18 4 = 10))
  else if len = 1 then
    ((major ≤ 4 || major = 7 || major = 8 || major = 9 || major = 10) &&
      !(major = 1 && (p.extractLsb' 22 5 = 5 || p.extractLsb' 22 5 = 6)))
      || (major = 12 && (match a with | .epi _ => true | _ => false) &&
          (p.extractLsb' 22 5 = 3 || p.extractLsb' 22 5 = 4 || p.extractLsb' 22 5 = 5))
  else len = 2 && (major = 0 || major = 1)

/-- The engine profile (R159, R274): what an engine hart executes. -/
def inProfile (a : Agent) (i : Instr) : Bool :=
  match encode i with
  | [] => true
  | p :: _ => parcelInProfile a p

/-- What a stopped instruction leaves: `old` is the state before it issued, `s` the state where it stopped. -/
def State.afterStop (old s : State) : Stop → State
  | .trap c e n => (old.noted n).takeTrap c e 0
  | .keep c e spc => s.takeTrap c e spc
  | .stall => old
  | .hold h => old.heldBy h
  | .again => s
  | .park va mig kept => (if kept then s else old).parkOn va mig false
  | .endRun c e => s.endRunAt s.coreNo c (s.pc.setWidth 48) e

/-- One instruction: the engine profile, the operand checks of R30 item 3, the body, then the next PC (R19), which the
body may have chosen. -/
def runInstr (i : Instr) (body : M (Option Word)) (s : State) : Host.Outcome State Fault Refusal :=
  if isEngine s.cur && !inProfile s.cur i then .next (s.takeTrap 0x01 i.p0 0)
  else if !i.wf then .next (s.takeTrap 0x02 i.p0 0)
  else
    match body s with
    | .ok none t => .next (t.setPc (seqPc s.pc i.parcels))
    | .ok (some pc) t => .next (t.setPc pc)
    | .error stop t => .next (s.afterStop t stop)

/-- A body that only changes the state. -/
def step1 (f : State → State) : M (Option Word) := do
  modify f
  pure none

/-- Suspends the issuing agent (R296). The PC is the one the continuation resumes at (R293). -/
def State.suspend (s : State) (r : Reason) (key thresh : Word) (dst : BitVec 5) (limit : Option Nat) : State :=
  s.setCtx { s.ctx with susp := some { reason := r, key := key, thresh := thresh, dst := dst, since := s.tick, limit := limit } }

end Sys2Proof.Machine
end

