-- ==== Sys2Proof/Machine/Flags.lean ====
section
/-! DEFINITION. The sticky flags and the rounding mode of FCSR (R37, R186, R190). -/

namespace Sys2Proof.Machine

/-- FCSR gains flags (R186, R190). -/
def Flags.word (f : Flags) : Word :=
  0#54 ++ BitVec.ofBool f.sat ++ 0#1 ++ BitVec.ofBool f.nx ++ BitVec.ofBool f.uf ++ BitVec.ofBool f.of
    ++ BitVec.ofBool f.nv ++ 0#4
/-- Sets sticky flags in the issuing agent's FCSR. -/
def State.setFlags (s : State) (f : Flags) : State := s.setSr { s.ctx.sr with fcsr := s.ctx.sr.fcsr ||| f.word }
/-- Mode(rnd) (R37): 7 takes FCSR[2:0], and 7 there traps with cause 0x02, EVAL p0. -/
def modeOf (rnd : Nat) (p0 : Word) : M Mode := do
  if rnd = 7 then
    let d := ((← get).ctx.sr.fcsr.extractLsb' 0 3).toNat
    if d = 7 then trap 0x02 p0 else pure (Mode.ofCode d)
  else pure (Mode.ofCode rnd)


end Sys2Proof.Machine
end

