-- ==== Sys2Proof/Machine/Operands.lean ====
section
/-! DEFINITION. Operands: window registers (R199 to R201), memory operands (R110), elements of capabilities (R54,
R110, R184), tiles and masks of vector registers (R221 to R226). -/

namespace Sys2Proof.Machine

/-! ### Window operands -/

/-- The effective number of a window operand (R200). -/
def State.winNum (s : State) (f : BitVec 5) (off : Int) : Int :=
  if f.toNat < 24 then f.toNat + off else ((s.g (f - 16)).extractLsb' 0 32).toInt + off

/-- The even-pair check of R201. -/
def winEven (n : Int) : M Unit := need (n % 2 == 0) 0x02 (evalOf n)
/-- The bound check of Win (R199). -/
def winIn (n : Int) : M Unit := do
  let s ← get
  need (0 ≤ n && n < s.wsize) 0x14 ((BitVec.ofInt 32 n).signExtend 64)
/-- Win(n), and Win(n + 1) of an FP64 operand. -/
def winCheck (n : Int) (wide : Bool) : M Unit := do
  winIn n
  if wide then winIn (n + 1)
/-- Window entry `n` of the allocation. -/
def State.win (s : State) (n : Int) : BitVec 32 := s.winFile (s.wbase + n.toNat)
/-- Writes window entry `n` of the allocation. -/
def State.setWin (s : State) (n : Int) (x : BitVec 32) : State := s.setWinFile (s.wbase + n.toNat) x
/-- The bits of a window operand: one entry, or the pair with entry `n` low (R201). -/
def State.winBits (s : State) (n : Int) (wide : Bool) : Nat :=
  if wide then (s.win n).toNat + 2 ^ 32 * (s.win (n + 1)).toNat else (s.win n).toNat
/-- Writes the bits of a window operand. -/
def State.setWinBits (s : State) (n : Int) (wide : Bool) (x : Nat) : State :=
  let s := s.setWin n (BitVec.ofNat 32 x)
  if wide then s.setWin (n + 1) (BitVec.ofNat 32 (x / 2 ^ 32)) else s

/-! ### Memory operands -/

/-- i0 of a memory operand (R110). -/
def State.index0 (s : State) (f : MFields) : Int := (s.g f.x).toInt + f.off.toInt
/-- i1 of a memory operand (R110). -/
def State.index1 (s : State) (f : MFields) : Int := (s.g f.y).toInt

/-- The scalar types a capability format accepts (R110). -/
def scalarAccepts (fmt ty : Nat) (isLoad : Bool) : Bool :=
  if fmt = Fmt.byte then ty ≤ 6
  else if fmt = 0x0F then ty ≤ 1
  else if Fmt.isBpi fmt then ty = 0 && isLoad
  else if fmt ≤ 0x0E then
    (Fmt.size fmt = 1 && ty ≤ 1) || (Fmt.size fmt = 2 && (ty = 2 || ty = 3))
      || (Fmt.size fmt = 4 && (ty = 4 || ty = 5)) || (Fmt.size fmt = 8 && ty = 6)
  else false
/-- Size(fn7) of a scalar type (R116). -/
def scalarSize (ty : Nat) : Nat := if ty ≤ 1 then 1 else if ty ≤ 3 then 2 else if ty ≤ 5 then 4 else 8

/-- Acc_Check (R110), then the element's address (R14); `ok`: the type is accepted for the format. -/
def accCheck (c : Cap) (k : Kind) (ok : Bool) (n : Nat) (i0 i1 : Int) : M Nat := do
  capCheck c k i0 i1
  need ok 0x0E (c.fmt.setWidth 64)
  if c.fmt = 0 then
    capCheck c k (i0 + n - 1) i1
    need (c.addr i0 i1 % n == 0) 0x18 (evalOf (c.addr i0 i1))
  elemAddr c i0 i1

/-- The stored byte of a BPI element from its plane bits, plane 0 highest; planes from `p` up read zero (R54, R184). -/
def planesByte : List Bool → Nat → Nat
  | [], _ => 0
  | b :: rest, w => (if b then w else 0) + planesByte rest (w / 2)

/-- The p-plane value of the BPI element at linear index `lin` of the block at `a`, as 8 bits (R184). -/
def loadBpi (p a : Nat) (lin : Int) (ord : Nat) : M Nat := do
  let e := (lin % 256).toNat
  let bs ← (List.range p).mapM (fun k => do
    let r ← load (a + 32 * k + e / 8) 1 ord
    pure ((r.1.headD 0).getLsbD (e % 8)))
  let w := (BitVec.ofNat 8 (planesByte bs 128)).toInt
  pure (BitVec.ofInt 8 (bpiValue p w)).toNat

/-- The bits of the element at `a` of a capability, `n` bytes wide: BPI by R184, S4 one nibble (R110). -/
def loadElem (c : Cap) (n : Nat) (ord : Nat) (i0 i1 : Int) (a : Nat) : M Nat := do
  let f := c.fmt.toNat
  if Fmt.isBpi f then loadBpi (Fmt.planes f) a (c.lin i0 i1) ord
  else
    let r ← load a (if f = 0x0F then 1 else n) ord
    if f = 0x0F then pure (leNat r.1 / (if c.lin i0 i1 % 2 = 0 then 1 else 16) % 16) else pure (leNat r.1)

/-- Stores the bits of an element; S4 as a masked nibble (R111). -/
def storeElem (c : Cap) (n : Nat) (ord : Nat) (i0 i1 : Int) (a : Nat) (x : Nat) : M Unit := do
  if c.fmt.toNat = 0x0F then
    let sh := 8 * (a % 64) + (if c.lin i0 i1 % 2 = 0 then 0 else 4)
    storeBits a (BitVec.ofNat 512 (x % 16 * 2 ^ sh)) (BitVec.ofNat 512 (15 * 2 ^ sh)) 0 Cap.null ord
  else storeBytes a (leBytes n x) ord

/-! ### Tiles -/

/-- Rows of the shape (R221). -/
def State.rows (s : State) : Nat := (s.ctx.sr.vshape.extractLsb' 0 6).toNat + 1
/-- Columns of the shape (R221). -/
def State.cols (s : State) : Nat := (s.ctx.sr.vshape.extractLsb' 6 8).toNat + 1
/-- N, the elements of the shape (R221). -/
def State.elems (s : State) : Nat := s.rows * s.cols
/-- Bytes of a vector register: 2,048, and 512 in an engine hart (R159, R223). -/
def State.vbytes (s : State) : Nat := if isEngine s.cur then 512 else 2048
/-- N × Size(type) in bytes, S4 counted in halves, BPI one byte each (R223). -/
def tileBytes (ty n : Nat) : Nat := if ty = 0x0F then (n + 1) / 2 else if Fmt.isBpi ty then n else n * Fmt.size ty
/-- The size check of R223. -/
def checkTile (ty : Nat) : M Unit := do
  let s ← get
  need (tileBytes ty s.elems ≤ s.vbytes) 0x02 (evalOf (tileBytes ty s.elems))
/-- A BPI type requires a multiple of 256 (R222). -/
def checkBlocks (ty n : Nat) : M Unit := do
  let s ← get
  need (!Fmt.isBpi ty || n % 256 = 0) 0x02 s.ctx.sr.vshape

/-- Element `e` of packed bits of width `w` (R222). -/
def elemAt (r : BitVec 16384) (w e : Nat) : Nat := (r >>> (w * e)).toNat % 2 ^ w
/-- Sets element `e`. -/
def setElem (r : BitVec 16384) (w e x : Nat) : BitVec 16384 :=
  (r &&& ~~~(BitVec.ofNat 16384 (2 ^ w - 1) <<< (w * e))) ||| (BitVec.ofNat 16384 (x % 2 ^ w) <<< (w * e))
/-- The stored byte of BPI element `e`: bit `e mod 256` of each plane of block `e div 256` (R222). -/
def bpiAt (r : BitVec 16384) (e : Nat) : Nat :=
  planesByte ((List.range 8).map (fun k => r.getLsbD (2048 * (e / 256) + 256 * k + e % 256))) 128
/-- Sets the planes of BPI element `e` from its stored byte; planes from `p` up become zero. -/
def setBpi (r : BitVec 16384) (p e w : Nat) : BitVec 16384 :=
  (List.range 8).foldl (fun r k =>
    setElem r 1 (2048 * (e / 256) + 256 * k + e % 256) (if k < p then w / 2 ^ (7 - k) % 2 else 0)) r

/-- Whether the mask operand selects element `e` (R225). -/
def State.selected (s : State) (m : BitVec 2) (e : Nat) : Bool := m = 0 || (s.m m).getLsbD e

/-- Elements 0 to `n - 1` with a mask: selected ones by `f`, the others kept, or zero with `mz` (R224, R225). -/
def State.tile (s : State) (old : BitVec 16384) (w n : Nat) (m : BitVec 2) (mz : Bool) (f : Nat → Nat) : BitVec 16384 :=
  (List.range n).foldl (fun r e =>
    if s.selected m e then setElem r w e (f e) else if mz then setElem r w e 0 else r) old

end Sys2Proof.Machine
end

