-- ==== Sys2Proof/Machine/Fetch.lean ====
section
/-! DEFINITION. What an agent issues next: whether it can issue (R296, R297, R313), the checks of R22 and R23 on its
line, and decoding; and the line a test places. -/

namespace Sys2Proof.Machine

/-- A portable record's domain contains the core (R295). -/
def State.admits (s : State) (e : Ready) (core : Nat) : Bool :=
  match s.run? e.run with
  | none => false
  | some r => (s.coreAt core).run == some e.run && (s.members r.domain e.plevel.toNat e.core.toNat).contains core
/-- The entries of the pick-up units that a core may take, own die first (R295). -/
def State.pickable (s : State) (core : Nat) : List (Nat × Ready) :=
  ((core / 384) :: (List.range s.numDies).filter (fun d => d != core / 384)).flatMap (fun d =>
    ((s.die d).pickup.filter (fun e => s.admits e core)).map (fun e => (d, e)))

/-- A condition that ends IDLE holds on a core (R313). -/
def State.idleOver (s : State) (core : Nat) : Bool :=
  !(s.coreAt core).u.ready.isEmpty || !(s.pickable core).isEmpty

/-- An agent is able to issue (R297). -/
def State.canIssue (s : State) (a : Agent) : Bool :=
  let c := s.ctxOf a
  c.occupied && c.susp.isNone && !c.held && c.sending.isNone && !c.loading && !s.volLogged a &&
    (match a with
      | .ctx core _ =>
        let k := s.coreAt core
        (if k.dbg.replaying then k.dbg.stepping else !k.halted) && !k.gated && k.arrived.isNone && (c.idle.isNone || s.idleOver core)
      | .copy core | .epi core =>
        (s.coreAt core).boundary.isNone && !(s.coreAt core).dbg.replaying && !(s.coreAt core).gated
      | .gateway p _ => (s.gatewayRun p).isSome
      | _ => false)

/-- An agent takes the issue group: it is the one that issued last, its IDLE is over, one more instruction is counted
(R297, R313, R378). -/
def State.take (s : State) (a : Agent) : State :=
  let s := { s with cur := a }
  match a with
  | .ctx core n =>
    let c := s.ctx
    let s := if c.idle.isSome then s.setCtx { c with idle := none } else s
    let k := s.coreAt core
    let s := if s.logging core && (k.last ≠ BitVec.ofNat 2 n || k.dbg.count = 0) then s.logItem core (.issue n) else s
    let k := s.coreAt core
    s.setCoreAt core { k with last := BitVec.ofNat 2 n, perf := k.perf.count 2 1, dbg := { k.dbg with stepping := false } }
  | .copy core | .epi core => s.count core 2 1
  | _ => s

/-- What comes next for the issuing agent. -/
inductive Next where
  | instr (i : Instr) (s : State)
  | illegal (p0 : Parcel) (s : State)
  | trap (cause : BitVec 8) (eval : Word) (s : State)
  | park (va : Nat) (mig : Bool) (s : State)
  /-- It waits for a link that retrains, or for a refresh window (R103, R285). -/
  | held (s : State)

/-- Parcels `k` to 15 of a line. -/
def lineFrom (d : BitVec 512) (k : Nat) : List Parcel := (List.range (16 - k)).map (fun i => lineWord d (k + i))

/-- Decoding at parcel `k` (R18, R30): the instruction, or how the word traps; an engine hart's traps with cause 0x01 outside
its profile, whatever its operands (R159). -/
def decodeAt (d : BitVec 512) (k : Nat) (s : State) : Next :=
  let p0 := lineWord d k
  match decode (lineFrom d k) with
  | .ok (i, _) => .instr i s
  | .error .operand => .trap (if isEngine s.cur && !parcelInProfile s.cur p0 then 0x01 else 0x02) (p0.setWidth 64) s
  | .error .pastLine => .trap 0x01 (p0.setWidth 64) s
  | .error _ => .illegal p0 s

/-- What R21 and R413 ask of a resumed continuation's PC on its line: the cause and EVAL of a check that fails. -/
def FetchLine.resumeFault (l : FetchLine) (pc la : Word) : Option (BitVec 8 × Word) :=
  let k := pc.toNat % 64 / 4
  match l.lineFault true (8 ≤ k) with
  | some c => some (c, la)
  | none => if k = 0 || pc.toNat % 4 ≠ 0 || !(starts l.data).contains k then some (0x06, pc) else none

/-- The checks of R21 and R23 on a line for parcel `k`, in their order, then decoding. -/
def State.issueFrom (s : State) (l : FetchLine) (k : Nat) (la : Word) : Next :=
  let len := ((lineWord l.data k).extractLsb' 0 2).toNat
  let lastParcel := k + (if len = 3 then 0 else len)
  match if s.ctx.resumed || k = 0 || s.pc.toNat % 4 ≠ 0 then l.resumeFault s.pc la else none with
  | some (c, e) => .trap c e (if c = 0x04 then s.meetLine l.va else s)
  | none =>
    match l.lineFault (k < 8) (8 ≤ lastParcel) with
    | some c => .trap c la (if c = 0x04 then s.meetLine l.va else s)
    | none => decodeAt l.data k (if s.ctx.resumed then s.setCtx { s.ctx with resumed := false } else s)

/-- The next instruction of the issuing agent through its fcap (R22, R23, R53). -/
def State.nextInstr (s : State) : Next :=
  let la := s.pc.toNat / 64 * 64
  let law := BitVec.ofNat 64 la
  let c := s.ctx.fcap
  match s.capFault c .X Kind.X.need (((la : Int) - c.base.toNat) / 64) 0 true with
  | some (cause, _) => .trap cause law (s.noted c.checkNote)
  | none =>
    if !c.covers la || !c.covers (la + 63) then .trap 0x09 law s
    else
      match s.fetchLine la with
      | .fault cause n => .trap cause law (s.noted n)
      | .park mig => .park la mig s
      | .held pa => .held (s.heldBy (.line pa))
      | .line l s => (s.cacheLease c.lease.toNat).issueFrom l (s.pc.toNat % 64 / 4) law

/-! ### The line a test places -/

/-- A line that holds parcels from parcel 1 on, with every TGT bit of an instruction start set and both parities (R17). -/
def lineOf (ps : List Parcel) : BitVec 512 :=
  let body : Nat := leNat (bytesOf (0#32 :: ps)) % 2 ^ 512
  let d0 := BitVec.ofNat 512 body
  let d1 := d0 ||| BitVec.ofNat 512 ((starts d0).foldl (fun n k => n + 2 ^ (k - 1)) 0)
  let d2 := if parity256 (d1.extractLsb' 0 256) then d1 ||| (1#512 <<< 30) else d1
  if parity256 (d2.extractLsb' 256 256) then d2 ||| (1#512 <<< 31) else d2

/-- The capability under which a placed instruction runs: one line at the base of core 0's local memory, local scope,
L and X, lease 0. -/
def placedCode : Cap :=
  { Cap.null with tag := true, base := BitVec.ofNat 48 (localBase 0), fmt := 0x24, perm := 0x11, str1 := 4 }

/-- The run that a placed instruction belongs to: level 0 on core 0. -/
def placedRun : Run :=
  { id := 1, queue := 0, tenant := 0, pasid := 0, domain := { level := 0, die := 0, row0 := 0, col0 := 0, rows := 1, cols := 1, tileRows := 4, tileCols := 3 },
    prio := 0, esz := 0, express := none, victims := [], state := .running, nctx := 1, ranges := [], colo := 0,
    donectr := 0, event := false, packet := 0, words := [], queueGen := 0, account := 0, part := 0, gateway := none,
    start := 0, begun := true, opened := [0], energy := 0,
    f := { fault := false, cause := 0, core := 0, sstep := 0, epc := 0, eval := 0, double := false, cause2 := 0,
           epc2 := 0, eval2 := 0, nfault := 0, lostdef := 0, dropped := 0, preempt := 0 },
    ending := none,
    dbg := { stopLevel := none, stoppedAt := none, brk := false, replay := false, journal := false, snaps := none, logs := none } }

end Sys2Proof.Machine
end

