-- ==== Sys2Proof/Machine/SysRegs.lean ====
section
/-! DEFINITION. The system registers (R202 to R206): what each reads and what a write of each does, with the checks of
R104, R108, R109, R169, R198, R221, R265, R270, R299, R302, R304, R334, R335, R378, R380. -/

namespace Sys2Proof.Machine

/-! ### Who may write what (R202) -/

/-- The Write column of R202. -/
inductive WriteBy where
  | anyone | root | nobody
  deriving DecidableEq, Repr

/-- The table of R202: none where the number is not defined. -/
def sysWriteBy (n : Nat) : Option WriteBy :=
  if n ≤ 0x004 || n = 0x006 then some .root
  else if n = 0x005 then some .nobody
  else if n ≤ 0x009 then some .anyone
  else if n ≤ 0x014 then some .nobody
  else if n = 0x018 || n = 0x019 || (0x020 ≤ n && n ≤ 0x028) then some .root
  else if n = 0x030 || n = 0x032 then some .anyone
  else if n = 0x031 || n = 0x041 || n = 0x050 || n = 0x070 then some .nobody
  else if 0x060 ≤ n && n ≤ 0x068 then some .root
  else none

/-! ### Reading -/

/-- RXCFGn (R108). -/
def RxRing.word (r : RxRing) : Word :=
  BitVec.ofBool r.en ++ 0#3 ++ r.tail ++ 0#4 ++ r.head ++ 0#4 ++ r.logn ++ 0#4 ++ r.base ++ 0#6
/-- KBIN (R109). -/
def KeyBins.word (k : KeyBins) : Word := BitVec.ofBool k.en ++ k.op ++ 0#8 ++ k.nbm1 ++ 0#16 ++ k.base ++ 0#3
/-- PLANSEL (R169). -/
def Plan.word (p : Plan) : Word := BitVec.ofBool p.en ++ 0#43 ++ p.offset ++ 0#5
/-- SLOTS of a galley of width `n` (R253). -/
def slotsOf (n : Nat) : Nat := if n = 128 then 2 else if n = 64 then 4 else 8
/-- GALLEY (R265). -/
def Galley.word (g : Galley) : Word :=
  BitVec.ofNat 64 (2 ^ 24 * g.opn + 2 ^ 20 * g.tiles + 2 ^ 16 * slotsOf g.n + 2 ^ 8 * g.tail + g.head)
/-- MPROG of a context slot (R270). -/
def Matrix.progWord (x : Matrix) (slot : Nat) : Word :=
  let mine := x.streams.filter (fun t => t.slot.toNat == slot)
  match mine with
  | [] => 0
  | t :: _ => BitVec.ofNat 64 (2 ^ 16 * mine.length + t.row)
/-- REFWIN (R104). -/
def Die.refwin (d : Die) : Word :=
  let w := d.window
  BitVec.ofNat 64 (2 ^ 32 * w.1 + (if w.2.1 then 2 ^ 16 else 0) + w.2.2)
/-- The bank the guest sees (R380). -/
def Core.guestPerf (c : Core) : PerfBank := c.frozen.getD c.perf
/-- PMCTL as the guest reads it (R378, R380). -/
def Core.pmctl (c : Core) : Word := BitVec.ofBool c.frozen.isSome ++ c.guestPerf.ctl.extractLsb' 0 63
/-- SSTEP (R302). -/
def Core.sstep (c : Core) : Word := 0#29 ++ c.sstepLevel ++ c.sstepCount

/-- SR[n] as a context reads it; an undefined number is the caller's (R202, R203). -/
def State.sysGet (s : State) (n : Nat) : Word :=
  let c := s.ctx
  let k := s.core
  let die := agentDie s.cur
  if n = 0x000 then c.sr.status else if n = 0x001 then c.sr.cause else if n = 0x002 then c.sr.epc.setWidth 64
  else if n = 0x003 then c.sr.eval else if n = 0x004 then c.sr.tvec else if n = 0x005 then c.sr.cid.setWidth 64
  else if n = 0x006 then k.walloc[s.slot % 4]'(by omega) else if n = 0x007 then c.sr.vshape
  else if n = 0x008 then c.sr.fcsr else if n = 0x009 then c.sr.vprog.setWidth 64 else if n = 0x00A then k.sstep
  else if n = 0x00B then corenum s.coreName else if n = 0x00C then (s.die die).cycle
  else if n = 0x00D then BitVec.ofNat 64 s.slot
  else if n = 0x00E then (match s.runFor s.cur with | some r => r.id | none => 0)
  else if n = 0x00F then (match s.runFor s.cur with | some r => r.prio.setWidth 64 | none => 0)
  else if 0x010 ≤ n && n ≤ 0x014 then s.domid s.coreName (n - 0x010)
  else if n = 0x018 then k.plan.word
  else if n = 0x019 then 0#62 ++ BitVec.ofBool k.xnext ++ BitVec.ofBool k.xmode
  else if 0x020 ≤ n && n ≤ 0x027 then (k.rx[(n - 0x020) % 8]'(by omega)).word
  else if n = 0x028 then k.kbin.word else if n = 0x030 then k.u.mx.progWord s.slot
  else if n = 0x031 then k.u.mx.galley.word else if n = 0x032 then c.sr.mflags.setWidth 64
  else if n = 0x041 then s.leases.sweepep else if n = 0x050 then c.sr.schedep.setWidth 64
  else if n = 0x060 then k.pmctl
  else if 0x061 ≤ n && n ≤ 0x068 then k.guestPerf.pmc[(n - 0x061) % 8]'(by omega)
  else if n = 0x070 then (if s.full then (s.die die).refwin else 0) else 0

/-- What an engine hart reads of its own and of its core (R203). -/
def engineReads (a : Agent) (n : Nat) : Bool :=
  n = 0x007 || n = 0x008 || n = 0x009 || n = 0x00B || n = 0x00C || n = 0x00E || n = 0x041 || n = 0x070
    || (n = 0x031 && (match a with | .epi _ => true | _ => false))
/-- SR[n] as the issuing agent reads it. -/
def State.sysRead (s : State) (n : Nat) : Word :=
  if isEngine s.cur && !engineReads s.cur n then 0 else s.sysGet n

/-! ### Areas of local memory that must not overlap (R108, R109, R169) -/

/-- Two ranges of offsets share a byte. -/
def rangesMeet (a b : Nat × Nat) : Bool := max a.1 b.1 < min a.2 b.2
/-- The offsets of a ring. -/
def RxRing.span (r : RxRing) : Nat × Nat := (r.base.toNat * 64, r.base.toNat * 64 + 64 * 2 ^ r.logn.toNat)
/-- The size of a bin (R109). -/
def binSize (op : BitVec 3) : Nat := if op = 0 then 4 else 8
/-- The offsets of the bins. -/
def KeyBins.span (k : KeyBins) : Nat × Nat :=
  (k.base.toNat * 8, k.base.toNat * 8 + (k.nbm1.toNat + 1) * binSize k.op)
/-- The offsets of the exchange window. -/
def Plan.span (p : Plan) : Nat × Nat := (p.wbase.toNat, p.wbase.toNat + p.wsize.toNat)
/-- The spans of the enabled rings except ring `skip`. -/
def Core.ringSpans (c : Core) (skip : Nat) : List (Nat × Nat) :=
  (List.range 8).filterMap (fun i =>
    let r := c.rx[i % 8]'(by omega)
    if r.en && i ≠ skip then some r.span else none)
/-- The span of the bins when they are enabled. -/
def Core.binSpans (c : Core) : List (Nat × Nat) := if c.kbin.en then [c.kbin.span] else []
/-- The span of the exchange window when one is selected. -/
def Core.windowSpans (c : Core) : List (Nat × Nat) := if c.plan.en then [c.plan.span] else []
/-- The run area of the run on the issuing agent's core (R106). -/
def State.area (s : State) : Nat × Nat :=
  match s.runOn s.coreNo with | some r => r.area | none => (0, 0x100000)
/-- A span lies in an area. -/
def within (x area : Nat × Nat) : Bool := area.1 ≤ x.1 && x.2 ≤ area.2

/-! ### Writing -/

/-- A plan header (R170). -/
structure PlanHeader where
  count : Nat
  wbase : Nat
  wsize : Nat
  deriving DecidableEq, Repr

/-- The header at an offset of a core's local memory; none where a zero field is not 0 (R169, R170). -/
def State.planHeader (s : State) (core off : Nat) : Option PlanHeader :=
  let a := localBase core + off
  let w0 := s.wordAt a
  let w1 := s.wordAt (a + 8)
  let w2 := s.wordAt (a + 16)
  let w3 := s.wordAt (a + 24)
  if w0.extractLsb' 16 48 = 0 && w1.extractLsb' 20 12 = 0 && w1.extractLsb' 52 12 = 0 && w2 = 0 && w3.extractLsb' 48 16 = 0 then
    some { count := (w0.extractLsb' 0 16).toNat, wbase := (w1.extractLsb' 0 20).toNat, wsize := (w1.extractLsb' 32 20).toNat }
  else none

/-- The checks of R169 on the plan whose header lies at `off`. -/
def State.planOk (s : State) (off : Nat) (h : PlanHeader) : Bool :=
  let w := (h.wbase, h.wbase + h.wsize)
  h.wsize ≠ 0 && h.wsize % 4096 = 0 && h.wbase % 4096 = 0
    && within w s.area && within (off, off + 32 + 32 * h.count + 64) s.area
    && !(s.core.ringSpans 8 ++ s.core.binSpans).any (rangesMeet w)

/-- The own stores over `n` bytes of the own local memory are performed before hardware reads them. -/
def State.settleLocal (s : State) (off n : Nat) : State := s.settle s.cur (localBase s.coreNo + off) n

/-- A write of PLANSEL (R169). -/
def writePlansel (v : Word) : M Unit := do
  if v.getLsbD 63 then
    let off := (v.extractLsb' 5 15).toNat * 32
    modify (fun s => s.settleLocal off 32)
    let s ← get
    match s.planHeader s.coreNo off with
    | none => trap 0x02 v
    | some h => do
      need (s.planOk off h) 0x02 v
      set (s.setCore { s.core with plan := { s.core.plan with
        en := true, offset := v.extractLsb' 5 15, wbase := BitVec.ofNat 20 h.wbase, wsize := BitVec.ofNat 20 h.wsize,
        count := BitVec.ofNat 16 h.count } })
  else modify (fun s => s.setCore { s.core with plan := { s.core.plan with en := false, offset := v.extractLsb' 5 15 } })

/-- A ring after a write (R108): TAIL is kept; a ring that is disabled loses its unread slots. -/
def RxRing.written (r : RxRing) (v : Word) : RxRing :=
  { en := v.getLsbD 63, tail := r.tail,
    head := if r.en && !v.getLsbD 63 then r.tail else v.extractLsb' 32 12, logn := v.extractLsb' 24 4,
    base := v.extractLsb' 6 14 }
/-- The checks of R108 on a ring as a write would leave it. -/
def State.ringOk (s : State) (n : Nat) (old new : RxRing) : Bool :=
  !(new.en && (new.logn.toNat < 2 || 12 < new.logn.toNat || !within new.span s.area
      || (s.core.ringSpans n ++ s.core.binSpans ++ s.core.windowSpans).any (rangesMeet new.span)))
    && !(old.en && (new.base ≠ old.base || new.logn ≠ old.logn))
/-- A write of RXCFGn (R108). -/
def writeRxcfg (n : Nat) (v : Word) : M Unit := do
  let s ← get
  let old := s.core.rx[n % 8]'(by omega)
  let new := old.written v
  need (s.ringOk n old new) 0x02 v
  set (s.setCore { s.core with rx := s.core.rx.set (n % 8) new })

/-- The bin a key falls in, the value it holds after a pair (R178). -/
def binValue (op : BitVec 3) (old value : Word) : Word :=
  if op = 0 then (old.setWidth 32 + value.setWidth 32).setWidth 64
  else if op = 3 then (if old.ult value then value else old) else old + value
/-- One KSEND pair applied at the bins `k` of core `dst` (R178): dropped and counted where they are disabled. -/
def State.applyPairIn (s : State) (k : KeyBins) (src dst : Nat) (key value : Word) : State :=
  if !k.en then s.count dst 7 1
  else
    let n := binSize k.op
    let a := localBase dst + k.base.toNat * 8 + n * (key.toNat % (k.nbm1.toNat + 1))
    let old := BitVec.ofNat 64 (leNat (s.bytesAt a n))
    ((s.setBytes a (leBytes n (binValue k.op old value).toNat)).clearTags a n).markForeign (.copy src) a
/-- A pair arrives at the bins `k` of core `dst`, or is refused on its way and dropped: KSEND has no outcome that says so (R285,
R288; log 71). -/
def State.pairArrives (s : State) (k : KeyBins) (src dst : Nat) (key value : Word) : State :=
  if s.pathRefuses (.ctx src 0) (localBase dst) .write then s.securityEvent else s.applyPairIn k src dst key value
/-- One KSEND pair arrives at core `dst` (R178). -/
def State.applyPair (s : State) (src dst : Nat) (key value : Word) : State :=
  s.pairArrives (s.coreAt dst).kbin src dst key value
/-- The pairs of a list applied, in its order. -/
def State.applyPairs (s : State) : List Exchange → State
  | [] => s
  | .pair _ src dst _ key value :: rest => (s.applyPair src dst key value).applyPairs rest
  | .transfer _ _ _ _ _ _ _ :: rest => s.applyPairs rest
/-- A run's pair on its way to a core. -/
def pairTo (run core : Nat) : Exchange → Bool
  | .pair r _ dst _ _ _ => dst == core && r == run
  | .transfer _ _ _ _ _ _ _ => false
/-- A pair of its run toward a core waits for a link that retrains (R285). -/
def State.pairsHeld (s : State) (core : Nat) : Bool :=
  s.press.exchange.any (fun x => pairTo (((s.coreAt core).run).getD 0) core x &&
    (match x with | .pair _ src dst _ _ _ => s.pathHeld (.ctx src 0) (localBase dst) | _ => false))
/-- Every pair of its run on its way to a core is applied (R109, R179). -/
def State.landPairs (s : State) (core : Nat) : State :=
  let run := ((s.coreAt core).run).getD 0
  let mine := s.press.exchange.filter (pairTo run core)
  { s with press := { s.press with exchange := s.press.exchange.filter (fun x => !pairTo run core x) } }.applyPairs mine

/-- The bins after a write (R109). -/
def KeyBins.ofWord (v : Word) : KeyBins :=
  { en := v.getLsbD 63, op := v.extractLsb' 60 3, nbm1 := v.extractLsb' 36 16, base := v.extractLsb' 3 17 }
/-- The checks of R109. -/
def State.binsOk (s : State) (k : KeyBins) : Bool :=
  k.op.toNat < 4 &&
    !(k.en && (!within k.span s.area || (s.core.ringSpans 8 ++ s.core.windowSpans).any (rangesMeet k.span)))
/-- A write of KBIN: pending updates complete first (R109). -/
def writeKbin (v : Word) : M Unit := do
  need ((← get).binsOk (KeyBins.ofWord v)) 0x02 v
  if (← get).pairsHeld (← get).coreNo then throw .stall
  modify (fun s =>
    let s := s.landPairs s.coreNo
    s.setCore { s.core with kbin := KeyBins.ofWord v })

/-- BASE and end of an allocation (R197). -/
def wallocSpan (v : Word) : Nat × Nat :=
  ((v.extractLsb' 0 10).toNat, (v.extractLsb' 0 10).toNat + (v.extractLsb' 10 9).toNat)
/-- The checks of R198. -/
def State.wallocOk (s : State) (v : Word) : Bool :=
  (v.extractLsb' 10 9).toNat ≤ 256 && (wallocSpan v).2 ≤ 1024 &&
    (List.range 4).all (fun i => i = s.slot || !(s.ctxOf (.ctx s.coreNo i)).occupied
      || !rangesMeet (wallocSpan v) (wallocSpan (s.core.walloc[i % 4]'(by omega))))
/-- A write of WALLOC: entries that it adds read zero (R198). -/
def writeWalloc (v : Word) : M Unit := do
  let s ← get
  need (s.wallocOk v) 0x02 v
  let old := wallocSpan (s.core.walloc[s.slot % 4]'(by omega))
  let new := wallocSpan v
  let k := s.core
  set (s.setCore { k with
    walloc := k.walloc.set (s.slot % 4) (v &&& 0x7FFFF) (by omega),
    window := (List.range (new.2 - new.1)).foldl (fun w i =>
      let e := new.1 + i
      if old.1 ≤ e && e < old.2 then w else Sparse.put 0 w e 0) k.window })

/-- A write of VSHAPE (R221). -/
def writeVshape (v : Word) : M Unit := do
  need (((v.extractLsb' 0 6).toNat + 1) * ((v.extractLsb' 6 8).toNat + 1) ≤ (← get).vbytes) 0x02 v
  modify (fun s => s.setSr { s.ctx.sr with vshape := v &&& 0x3FFF })

/-- A write of PMCTL (R378, R380): while the hypervisor holds the bank it goes to the saved copy; after it, the write
clears PRE and counting resumes from the saved counts. -/
def writePmctl (v : Word) : M Unit := do
  need ((List.range 8).all (fun i => (v.extractLsb' (6 * i) 6).toNat ≤ 16)) 0x02 v
  modify (fun s =>
    let k := s.core
    let ctl := v &&& 0x00FFFFFFFFFFFFFF
    match k.frozen with
    | none => s.setCore { k with perf := { k.perf with ctl := ctl } }
    | some b =>
      if k.held then s.setCore { k with frozen := some { b with ctl := ctl } }
      else s.setCore { k with perf := { b with ctl := ctl }, frozen := none })

/-- A write of PMCn (R378, R380). -/
def writePmc (n : Nat) (v : Word) : M Unit :=
  modify (fun s =>
    let k := s.core
    match k.frozen with
    | none => s.setCore { k with perf := { k.perf with pmc := k.perf.pmc.set (n % 8) v (by omega) } }
    | some b => s.setCore { k with frozen := some { b with pmc := b.pmc.set (n % 8) v (by omega) } })

/-- SR[n] := v with the checks of the register's own rule (R203). -/
def sysPut (n : Nat) (v : Word) : M Unit := do
  let sr := (← get).ctx.sr
  if n = 0x001 then modify (fun s => s.setSr { sr with cause := v &&& 0xFFFFFFFFFFFF00FF })
  else if n = 0x002 then modify (fun s => s.setSr { sr with epc := v.extractLsb' 0 48 })
  else if n = 0x003 then modify (fun s => s.setSr { sr with eval := v })
  else if n = 0x004 then do
    need (!(v.getLsbD 63 && v.extractLsb' 0 2 ≠ 0)) 0x02 v
    modify (fun s => s.setSr { sr with tvec := v &&& 0x8000FFFFFFFFFFFF })
  else if n = 0x006 then writeWalloc v
  else if n = 0x007 then writeVshape v
  else if n = 0x008 then modify (fun s => s.setSr { sr with fcsr := v &&& 0x2F7 })
  else if n = 0x009 then modify (fun s => s.setSr { sr with vprog := v.extractLsb' 0 16 })
  else if n = 0x018 then writePlansel v
  else if n = 0x019 then modify (fun s => s.setCore { s.core with xnext := v.getLsbD 1 })
  else if 0x020 ≤ n && n ≤ 0x027 then writeRxcfg (n - 0x020) v
  else if n = 0x028 then writeKbin v
  else if n = 0x032 then modify (fun s => s.setSr { sr with mflags := v.extractLsb' 0 3 })
  else if n = 0x060 then writePmctl v
  else if 0x061 ≤ n && n ≤ 0x068 then writePmc (n - 0x061) v
  else pure ()

/-- The checks of R203 on a write, in their order, then the write. -/
def sysWrite (n : Nat) (v : Word) : M Unit := do
  match sysWriteBy n with
  | none => trap 0x01 (BitVec.ofNat 64 n)
  | some .nobody => trap 0x02 (BitVec.ofNat 64 n)
  | some .root => do
    need ((← get).ctx.sr.cid = 1) 0x0A (BitVec.ofNat 64 n)
    sysPut n v
  | some .anyone => sysPut n v

end Sys2Proof.Machine
end

