-- ==== Sys2Proof/Machine/Waits.lean ====
section
/-! DEFINITION. Waiting at counters (R129): watches, and waking who waits. -/

namespace Sys2Proof.Machine

/-- A context or engine hart suspended for a reason becomes issuable; its instruction issues again (R293). -/
def State.wakeAgent (s : State) (a : Agent) (why : Reason) : State :=
  let c := s.ctxOf a
  match c.susp with
  | some w => if w.reason = why then s.setCtxOf a { c with susp := none } else s
  | none => s

/-- A written-back continuation becomes ready (R294). -/
def State.wakeRecord (s : State) (core : Nat) (addr : BitVec 48) : State :=
  match (s.coreAt core).u.waiting.find? (fun p => p.recAddr == addr) with
  | some p => s.makeReady core p
  | none => s

/-- Who waits is woken (R129). -/
def State.wakeWaiter (s : State) : Waiter → State
  | .agent a => s.wakeAgent a .counter
  | .record core addr => s.wakeRecord core addr

/-- The home of a reached watch tells the waiter's die (R129, R283). -/
def State.tellWake (s : State) (w : Watch) : State :=
  let a := match w.who with | .agent a => a | .record core addr => .cont core addr.toNat
  let d := agentDie a
  let e := routeDie d w.cell
  if d = e then s else s.sendItems e d [{ vc := 2, dst := d, body := .record (s.plainRequest a 18 3 w.cell w.thresh 0) }]
/-- Watches removed and their waiters woken. -/
def State.wakeWatches (s : State) (p : Watch → Bool) : State :=
  let hit := s.press.watches.filter p
  hit.foldl (fun s w => (s.tellWake w).wakeWaiter w.who)
    { s with press := { s.press with watches := s.press.watches.filter (fun w => !p w) } }

/-- A watch of a counter cell is reached by its value (R129). -/
def State.reached (s : State) (w : Watch) : Bool := w.thresh.toNat ≤ (s.wordAt w.cell).toNat

/-- The number of watches a home holds: 64 in an L2 slice, 16 in a local-memory atomic unit (R129). -/
def watchLimit (cell : Nat) : Nat := if isLocal cell then 16 else 64

/-- A watch is registered where the home has a free one; otherwise the waiter retries (R129). -/
def State.addWatch (s : State) (w : Watch) : State :=
  if (s.press.watches.filter (fun x => s.homeKey x.cell == s.homeKey w.cell)).length < watchLimit w.cell then
    { s with press := { s.press with watches := s.press.watches ++ [w] } }
  else s

end Sys2Proof.Machine
end

