-- ==== Sys2Proof/Machine/Sync.lean ====
section
/-! DEFINITION. Counters (R125 to R131), bindings (R132, R133), barrier slots (R134 to R136) and FENCE (R137). -/

namespace Sys2Proof.Machine

/-! ### Counters -/

/-- Cap_Check of a counter operand and the refusal of host counters: the counter's address (R125, R130, R131). -/
def counterAddr (f : QFields) (k : Kind) : M Nat := do
  let s ← get
  let c := s.c f.c
  let i := (s.g f.x).toInt
  capCheck c k i 0
  let a ← elemAddr c i 0
  need (c.scope ≠ 2) 0x0D (BitVec.ofNat 64 a)
  pure a

/-- The check of R126 on a counter at place `pa`. -/
def scopeCheck (f : QFields) (va pa : Nat) : M Unit := do
  let s ← get
  need (s.scopeReaches s.cur pa f.scope.toNat) 0x0D (BitVec.ofNat 64 va)

/-- min(x + imm32, 2^64 - 1) (R125, R131). -/
def thresholdOf (f : QFields) (x : Word) : Word := satAdd x (f.imm.setWidth 64)

/-- The counter of CTWAIT, CTREAD and CTTRY at its home: address, place and value (R131, R123, R114); the caches on its way
take the home's sector (R144). -/
def readCounter (f : QFields) : M (Nat × Nat × Word) := do
  let va ← counterAddr f .CTR
  let p ← xl va .read
  need (!isWeightStore p.1 && !p.2) 0x12 (BitVec.ofNat 64 va)
  scopeCheck f va p.1
  let a := (← get).cur
  modify (fun s => s.atomicReady a p.1 8)
  let s ← get
  if s.poisonAt p.1 then trap 0x22 (BitVec.ofNat 64 va)
  modify (fun s => ((s.touch p.1 .read false).asksBytes a p.1 8).refreshHeld a p.1)
  pure (va, p.1, s.wordAt p.1)

/-- An acquire at a counter when the instruction's order bit asks for it (R128). -/
def State.acquireIf (s : State) (on : Bool) (va : Nat) : State := if on then s.acquire va else s

/-- CTADD (R130); a refusal traps precisely (R288). On an absent page the addition goes to the side log after the release
(R81): of the check of R126 it makes before what no home in a page could pass, and the replay makes the rest (log 45). -/
def execCtadd (f : QFields) (s : State) : Host.Outcome State Fault Refusal :=
  runInstr (.ctadd f) (do
    let c := s.c f.c
    let inc := thresholdOf f (s.g f.d)
    let va ← counterAddr f .CTW
    match ← storeTo va .atomic with
    | .place pa _ => do
      scopeCheck f va pa
      pathOk va pa .write
      if f.ob then release f.scope.toNat
      atomicSend (.counter inc) va pa 8
      modify (fun s => s.commandDone pa)
    | .log e => do
      let t ← get
      need (f.scope ≠ 0 && !(t.reduced && f.scope = 3)) 0x0D (BitVec.ofNat 64 va)
      if f.ob then release f.scope.toNat
      sideRoom 1
      logEntry (.counter inc f.scope.toNat) va 0 (lineBits (va % 64) (List.replicate 8 0)).2 0 c 0 e
    pure none) s

/-- A wait at the counter at place `pa` (R129): suspended at this instruction, with a watch at the home. -/
def waitCounter (pa : Nat) (thresh : Word) : M (Option Word) := do
  modify (fun s =>
    let s := s.suspend .counter (BitVec.ofNat 64 pa) thresh 0 none
    ((s.addWatch { cell := pa, thresh := thresh, who := .agent s.cur }).asks s.cur (s.plainRequest s.cur 17 3 pa thresh 0) pa []).count
      s.coreNo 16 1)
  pure (some (← get).pc)

/-- CTWAIT (R131, R129). -/
def execCtwait (f : QFields) (s : State) : Host.Outcome State Fault Refusal :=
  runInstr (.ctwait f) (do
    let t := thresholdOf f (s.g f.d)
    let r ← readCounter f
    if t.toNat ≤ r.2.2.toNat then step1 (fun s => s.acquireIf f.ob r.1)
    else waitCounter r.2.1 t) s

/-- CTREAD (R131). -/
def execCtread (f : QFields) (s : State) : Host.Outcome State Fault Refusal :=
  runInstr (.ctread f) (do
    let r ← readCounter f
    step1 (fun s => (s.acquireIf f.ob r.1).setG f.d r.2.2)) s

/-- CTTRY (R131). -/
def execCttry (f : QFields) (s : State) : Host.Outcome State Fault Refusal :=
  runInstr (.cttry f) (do
    let t := thresholdOf f (s.g f.d)
    let r ← readCounter f
    if t.toNat ≤ r.2.2.toNat then step1 (fun s => (s.acquireIf f.ob r.1).setG f.d 1)
    else step1 (fun s => s.setG f.d 0)) s

/-! ### Bindings -/

/-- SBIND (R133): the region's bounding range and the counter's address. -/
def execSbind (f : QFields) (s : State) : Host.Outcome State Fault Refusal :=
  runInstr (.sbind f) (do
    let r := s.c (f.d.setWidth 4)
    let c := s.c f.c
    let i := (s.g f.x).toInt
    capCheck r .L 0 0
    capCheck c .CTR i 0
    let b : Binding :=
      { v := true, base := BitVec.ofInt 48 r.bounds.1, limit := BitVec.ofInt 48 r.bounds.2,
        ctr := BitVec.ofInt 48 (c.addr i 0) }
    step1 (fun t => t.setCtx { t.ctx with r := { t.ctx.r with
      bind := t.ctx.r.bind.set (f.imm.toNat % 8) b (by omega) } })) s

/-- SUNBIND (R133). -/
def execSunbind (f : QFields) (s : State) : Host.Outcome State Fault Refusal :=
  runInstr (.sunbind f) (step1 fun t =>
    let b := t.ctx.r.bind[f.imm.toNat % 8]'(by omega)
    t.setCtx { t.ctx with r := { t.ctx.r with
      bind := t.ctx.r.bind.set (f.imm.toNat % 8) { b with v := false } (by omega) } }) s

/-! ### Barrier slots -/

/-- The slot number g[x] + imm32[7:0]; 256 or more traps with cause 0x02 (R134). -/
def barrierSlot (f : QFields) : M Nat := do
  let n := ((← get).g f.x).toNat + (f.imm.extractLsb' 0 8).toNat
  needOpen (n < 256) 0x02
  pure n
/-- imm32[31:8]. -/
def arrivals (f : QFields) : Nat := (f.imm.extractLsb' 8 24).toNat
/-- A slot of the issuing agent's core. -/
def State.slotNow (s : State) (n : Nat) : Barrier := s.core.barrier n
/-- A slot has waiters (R135). -/
def State.slotWaited (s : State) (core n : Nat) : Bool :=
  (slotAgents core).any (fun a => (s.ctxOf a).atBarrier n)
    || (s.coreAt core).u.waiting.any (fun p => p.susp.reason = .barrier && p.susp.key.toNat % 256 == n)

/-- BINIT (R136, R135). -/
def execBinit (f : QFields) (s : State) : Host.Outcome State Fault Refusal :=
  runInstr (.binit f) (do
    let n ← barrierSlot f
    step1 (fun t =>
      let t := if (t.slotNow n).cnt ≠ 0 || t.slotWaited t.coreNo n then t.completeBarrier t.coreNo n 0x02 else t
      let b := t.slotNow n
      (t.setCore (t.core.setBarrier n { b with exp := BitVec.ofNat 24 (arrivals f), cnt := 0 })).setG f.d
        (b.gen.setWidth 64))) s

/-- BARRIVE (R136). -/
def execBarrive (f : QFields) (s : State) : Host.Outcome State Fault Refusal :=
  runInstr (.barrive f) (do
    let n ← barrierSlot f
    if f.ob then release 0
    step1 (fun t => (t.setG f.d ((t.slotNow n).gen.setWidth 64)).arrive t.coreNo n (arrivals f))) s

/-- Waiting for a completion after generation `gen` (R136): at once, or suspended. -/
def barrierWait (f : QFields) (n : Nat) (gen : BitVec 8) : M (Option Word) :=
  step1 (fun t =>
    if (t.slotNow n).gen ≠ gen then t.setG f.d (t.slotNow n).status
    else t.suspend .barrier (BitVec.ofNat 64 (256 * gen.toNat + n)) 0 f.d none)

/-- BWAIT (R136). The acquire of a barrier concerns local memory only, which no view cache holds (R135). -/
def execBwait (f : QFields) (s : State) : Host.Outcome State Fault Refusal :=
  runInstr (.bwait f) (do
    let n ← barrierSlot f
    barrierWait f n ((s.g f.d).setWidth 8)) s

/-- BARWAIT (R136). -/
def execBarwait (f : QFields) (s : State) : Host.Outcome State Fault Refusal :=
  runInstr (.barwait f) (do
    let n ← barrierSlot f
    release 0
    let gen := ((← get).slotNow n).gen
    modify (fun t => t.arrive t.coreNo n 1)
    barrierWait f n gen) s

/-! ### FENCE -/

/-- FENCE (R137): the release half first; a pending deferred fault is taken at any FENCE. -/
def execFence (mode : BitVec 2) (s : State) : Host.Outcome State Fault Refusal :=
  runInstr (.fence mode) (do
    if mode.getLsbD 0 then release 3 else takeDeferred
    step1 (fun t => if mode.getLsbD 1 then t.acquireAll else t)) s

end Sys2Proof.Machine
end

