-- ==== Sys2Proof/Machine/Messages.lean ====
section
/-! DEFINITION. Messages by ring (R175 to R177), key-routed sends (R178, R179), ECMD and EWAIT (R166), and the events
that deliver messages, apply pairs and end a timed wait. -/

namespace Sys2Proof.Machine

/-! ### Rings -/

/-- The slots of a ring. -/
def RxRing.slots (r : RxRing) : Nat := 2 ^ r.logn.toNat
/-- The occupied slots, (TAIL − HEAD) mod 2^LOGN (R177). -/
def RxRing.occupied (r : RxRing) : Nat := (r.tail.toNat + (4096 - r.head.toNat)) % r.slots
/-- Ring `n` of a core. -/
def Core.ring (c : Core) (n : Nat) : RxRing := c.rx[n % 8]'(by omega)
/-- Sets ring `n` of a core. -/
def Core.setRing (c : Core) (n : Nat) (r : RxRing) : Core := { c with rx := c.rx.set (n % 8) r (by omega) }

/-- A wait for a message in ring `n` (R291). -/
def Susp.onRing (w : Susp) (n : Nat) : Bool := w.reason = .message && w.key.toNat == n

/-- TAIL of ring `n` of a core has moved: its waiters become issuable or ready, and IDLE ends (R177, R313). -/
def State.tailMoved (s : State) (core n : Nat) : State :=
  let s := [Agent.ctx core 0, .ctx core 1, .ctx core 2, .ctx core 3, .copy core, .epi core].foldl (fun s a =>
    let c := s.ctxOf a
    let w := match c.susp with | some w => if w.onRing n then none else some w | none => none
    s.setCtxOf a { c with susp := w, idle := none }) s
  ((s.coreAt core).u.waiting.filter (fun p => p.susp.onRing n)).foldl (fun s p => s.makeReady core p) s

/-- A 64-byte slot (R175). -/
def slotBytes (m : Message) (scid : BitVec 16) (score : Nat) : List Byte :=
  m.payload ++ List.replicate (56 - m.payload.length) 0
    ++ leBytes 8 (scid.toNat * 2 ^ 32 + m.payload.length * 2 ^ 16 + score)

/-- The checks of a delivery, the slot's write, and the status (R175, R176); a slot's granule that takes a poisoned byte is
poisoned (R345). -/
def State.deliverTo (s : State) (run : Nat) (scid : BitVec 16) (score : Nat) (m : Message) : Word × State :=
  let dst := m.dst.toNat
  let r := (s.coreAt dst).ring m.ring.toNat
  if s.numCores ≤ dst then (0x1202, s)
  else if (s.coreAt dst).run ≠ some run then (0x0D02, s)
  else if !r.en then (0x0202, s)
  else if r.occupied + 1 = r.slots then (1, s)
  else
    let n := r.tail.toNat % r.slots
    let a := localBase dst + r.base.toNat * 64 + 64 * n
    let s := (s.writeHome a (slotBytes m scid score)).markForeign (.copy score) a
    let s := [0, 32].foldl (fun s o => if ((m.poison.drop o).take 32).any id then s.setPoison (a + o) true else s) s
    let k := s.coreAt dst
    let s := s.setCoreAt dst (k.setRing m.ring.toNat { r with tail := BitVec.ofNat 12 ((n + 1) % r.slots) })
    (BitVec.ofNat 64 (2 ^ 16 * n), s.tailMoved dst m.ring.toNat)

/-- A message of an agent at its destination: on a way that is down, or through no acceptance window, it is refused as one to an
absent core is, which is the model's choice of code (R285, R288; log 71). -/
def State.messageStatus (s : State) (a : Agent) (m : Message) : Word × State :=
  if m.dst.toNat < s.numCores && s.pathRefuses a (localBase m.dst.toNat) .write then (0x1202, s.securityEvent)
  else s.deliverTo (s.runOf a) (s.ctxOf a).sr.cid ((agentCore a).getD 0) m
/-- The message of an agent waits for a link on its way that retrains (R285). -/
def State.messageHeld (s : State) (a : Agent) : Bool :=
  match (s.ctxOf a).sending with
  | some m => decide (m.dst.toNat < s.numCores) && s.pathHeld a (localBase m.dst.toNat)
  | none => false
/-- The message of an agent is delivered and its status returns, on virtual channel 2 (R175, R176, R167). -/
def State.deliverMessage (s : State) (a : Agent) : State :=
  match (s.ctxOf a).sending with
  | none => s
  | some m =>
    if s.messageHeld a then s
    else
      let r := s.messageStatus a m
      let c := r.2.ctxOf a
      let d := match c.susp with | some w => w.dst | none => 0
      let t := (r.2.setCtxOf a ({ c with sending := none, susp := none }.setG d r.1)).logAnswer a
      let q := t.plainRequest a 35 3 (localBase m.dst.toNat) r.1 0
      t.sendItems (m.dst.toNat / 384) (agentDie a) [{ vc := 2, dst := agentDie a, body := .record q }]

/-- MESSAGE_DELIVERY (R175): the message of agent `a`, when one is on its way. -/
def execMessageDelivery (a : Agent) (s : State) : Host.Outcome State Fault Refusal := .next (s.deliverMessage a)

/-- An agent's core has a capability in its own local memory (R166, R176). -/
def State.ownLocal (s : State) (c : Cap) : Bool := c.scope = 0 && agentCore s.cur = some (localCore c.base.toNat)

/-- The checks of SEND before its capability checks: length in elements of the capability (R176). A format whose elements
are no whole bytes has no length in elements: cause 0x02 with EVAL the length, before Cap_Check, is the model's choice
(log 64). -/
def sendLength (f : QFields) : M Nat := do
  let s ← get
  need (!s.strict) 0x0D 0
  let g := s.g f.d
  need (g.extractLsb' 19 45 = 0 && g.extractLsb' 11 5 = 0) 0x02 g
  let n := (f.imm.extractLsb' 0 6).toNat
  let size := Fmt.size (s.c f.c).fmt.toNat
  need (n ≠ 0 && n ≤ 56 && size ≠ 0 && n % size = 0) 0x02 (BitVec.ofNat 64 n)
  pure n

/-- The records of a message: 32 bytes of payload each (R283; log 71). -/
def State.messageRecords (s : State) (a : Agent) (m : Message) : List Request :=
  (List.range ((m.payload.length + 31) / 32)).map (fun i =>
    s.plainRequest a 21 4 (localBase m.dst.toNat) (m.ring.setWidth 64 ||| BitVec.ofNat 64 (2 ^ 8 * i + 2 ^ 16 * m.payload.length))
      (BitVec.ofNat 256 (leNat ((m.payload.drop (32 * i)).take 32))))

/-- SEND (R176): the context waits for the delivery status. Poison in its source travels with the message (R345). -/
def execSend (f : QFields) (s : State) : Host.Outcome State Fault Refusal :=
  runInstr (.send f) (do
    let c := s.c f.c
    let n ← sendLength f
    let size := Fmt.size c.fmt.toNat
    let i := (s.g f.x).toInt
    capCheck c .L i 0
    capCheck c .L (i + n / size - 1) 0
    need (s.ownLocal c) 0x0D (c.base.setWidth 64)
    let dst := (s.g f.d).extractLsb' 0 11
    need (scopeOfCores s.coreName dst.toNat ≤ f.scope.toNat) 0x0D (dst.setWidth 64)
    needOpen (!(s.reduced && f.scope = 3)) 0x0D
    let a ← elemAddr c i 0
    let parts ← (List.range (n / size)).mapM (fun k => loadAny (a + k * size) size)
    let ring := (s.g f.d).extractLsb' 16 3
    let m : Message := { dst := dst, ring := ring, payload := parts.flatMap Got.bytes, poison := parts.flatMap Got.poison }
    step1 (fun t =>
      let t := t.suspend .message (0x100#64 ||| ring.setWidth 64) 0 f.d none
      (t.setCtx { t.ctx with sending := some m }).tells t.cur dst.toNat (t.messageRecords t.cur m))) s

/-- The checks of R177: a strict phase traps with cause 0x0D, a disabled ring with 0x02. -/
def ringCheck (n : Nat) : M RxRing := do
  let s ← get
  needOpen (!s.strict) 0x0D
  let r := s.core.ring n
  needOpen r.en 0x02
  pure r

/-- The offset of the oldest slot (R177). -/
def RxRing.oldest (r : RxRing) : Word := BitVec.ofNat 64 (r.base.toNat * 64 + 64 * r.head.toNat)

/-- RECV (R177): with no message the context waits at this instruction. -/
def execRecv (f : QFields) (s : State) : Host.Outcome State Fault Refusal :=
  runInstr (.recv f) (do
    let n := (f.imm.extractLsb' 0 3).toNat
    let r ← ringCheck n
    if r.occupied ≠ 0 then step1 (fun t => t.setG f.d r.oldest)
    else do
      modify (fun t => t.suspend .message (BitVec.ofNat 64 n) 0 0 none)
      pure (some s.pc)) s

/-- RECVT (R177): as RECV for at most imm32[31:8] cycles, then all ones. -/
def execRecvt (f : QFields) (s : State) : Host.Outcome State Fault Refusal :=
  runInstr (.recvt f) (do
    let n := (f.imm.extractLsb' 0 3).toNat
    let cycles := (f.imm.extractLsb' 8 24).toNat
    let r ← ringCheck n
    if r.occupied ≠ 0 then step1 (fun t => t.setG f.d r.oldest)
    else if cycles = 0 then step1 (fun t => t.setG f.d (BitVec.allOnes 64))
    else do
      modify (fun t => t.suspend .message (BitVec.ofNat 64 n) 0 f.d (some cycles))
      pure (some s.pc)) s

/-- The timed wait of a written-back RECVT is over (R309): its record is ready, and the RECVT that issues again once the
continuation is loaded ends at once. -/
def State.recvtOver (s : State) (core rec : Nat) : State :=
  match (s.coreAt core).u.waiting.find? (fun p => p.recAddr.toNat == rec) with
  | some p =>
    if p.susp.reason = .message && p.susp.limit.isSome then
      let a := Agent.cont core rec
      (s.setCtxOf a { s.ctxOf a with susp := some { p.susp with limit := none } }).makeReady core p
    else s
  | none => s

/-- RECVT_TIMEOUT (R177): the timed wait of agent `a` is over: g[d] reads all ones and the RECVT is complete. -/
def execRecvtTimeout (a : Agent) (s : State) : Host.Outcome State Fault Refusal :=
  let c := s.ctxOf a
  match c.susp with
  | some w =>
    if w.reason = .message && w.limit.isSome then
      .next ((s.setCtxOf a ({ c with susp := none, pc := seqPc c.pc 2 }.setG w.dst (BitVec.allOnes 64))).logAnswer a)
    else .next s
  | none => match a with
    | .cont core rec => .next (s.recvtOver core rec)
    | _ => .next s

/-- RADV (R177). -/
def execRadv (f : QFields) (s : State) : Host.Outcome State Fault Refusal :=
  runInstr (.radv f) (do
    let n := (f.imm.extractLsb' 0 3).toNat
    let count := (f.imm.extractLsb' 8 13).toNat
    let r ← ringCheck n
    needOpen (count ≤ r.occupied) 0x02
    step1 (fun t =>
      t.setCore (t.core.setRing n { r with head := BitVec.ofNat 12 ((r.head.toNat + count) % r.slots) }))) s

/-! ### Keys -/

/-- The position of a key's owner among `m` members (R178). -/
def keyOwner (key : Word) (m : Nat) : Nat := (key * 0x9E3779B97F4A7C15#64).toNat / 2 ^ 32 % m

/-- KSEND (R178): the pair enters the exchange channel. -/
def execKsend (f : QFields) (s : State) : Host.Outcome State Fault Refusal :=
  runInstr (.ksend f) (do
    need (f.imm.toNat ≤ 4) 0x02 (f.imm.setWidth 64)
    let level := f.imm.toNat
    match agentCore s.cur, (agentCore s.cur).bind s.runOn with
    | some core, some r => do
      need (level ≤ r.domain.level.toNat) 0x0D (BitVec.ofNat 64 level)
      let ms := s.members r.domain level core
      let dst := ms.getD (keyOwner (s.g f.x) ms.length) core
      step1 (fun t =>
        let u : State := { t with press := { t.press with exchange := t.press.exchange ++
          [.pair r.id.toNat core dst (BitVec.ofNat 3 level) (t.g f.x) (t.g f.d)] } }
        u.tells t.cur dst [t.plainRequest t.cur 20 4 (localBase dst) 0 ((t.g f.d ++ t.g f.x).setWidth 256)])
    | _, _ => trap 0x0D (BitVec.ofNat 64 level)) s

/-- KEY_PAIR_APPLY (R178): entry `k` of the exchange channel, when it is a pair of the run resident on its core and no link on its
way retrains (R285). -/
def execKeyPairApply (k : Nat) (s : State) : Host.Outcome State Fault Refusal :=
  match s.press.exchange[k]? with
  | some (.pair run src dst _ key value) =>
    if (s.coreAt dst).run = some run && !s.pathHeld (.ctx src 0) (localBase dst) then
      .next ({ s with press := { s.press with exchange := dropAt s.press.exchange k } }.applyPair src dst key value)
    else .next s
  | _ => .next s

/-! ### ECMD and EWAIT -/

/-- The engine an instruction names: 0 copy, 1 epilogue (R166). -/
def engineOf (f : QFields) : Nat := (f.imm.extractLsb' 0 1).toNat

/-- ECMD (R166): a full FIFO stalls it. The command that its engine performs counts among the eight entries until it is complete:
the model's choice (log 71). The first command of an idle engine is handed to replaced microcode at once (R159). -/
def execEcmd (f : QFields) (s : State) : Host.Outcome State Fault Refusal :=
  runInstr (.ecmd f) (do
    let c := s.c f.c
    let i := (s.g f.x).toInt
    capCheck c .LC i 0
    capCheck c .S (i + 127) 0
    need (c.fmt = 0) 0x0E (c.fmt.setWidth 64)
    need (s.ownLocal c) 0x0D (c.base.setWidth 64)
    let a ← elemAddr c i 0
    need (a % 128 = 0) 0x18 (BitVec.ofNat 64 a)
    let e := engineOf f
    if 8 ≤ (s.core.engine e).fifo.length then throw .stall
    release 0
    step1 (fun t =>
      let k := t.core
      let x := k.engine e
      let t := t.setCore (k.setEngine e { x with fifo := x.fifo ++ [BitVec.ofNat 48 a] })
      let t := if x.fifo.isEmpty then t.handBlock t.coreNo e else t
      let t := t.performCounter t.cur (t.runOf t.cur) (kickCell t.coreNo e) 1
      t.setG f.d (t.wordAt (kickCell t.coreNo e)))) s

/-- EWAIT (R166): below its ticket the context waits at this instruction. -/
def execEwait (f : QFields) (s : State) : Host.Outcome State Fault Refusal :=
  runInstr (.ewait f) (do
    let cell := mailCell s.coreNo (engineOf f)
    let t := s.g f.d
    let v := s.wordAt cell
    if v.toNat < t.toNat then waitCounter cell t
    else step1 (fun u => (if f.ob then u.acquireAll else u).setG f.d v)) s

end Sys2Proof.Machine
end

