-- ==== Sys2Proof/Machine/Records.lean ====
section
/-! DEFINITION. Continuation records and frames (R291 to R295, R408): the images, write-back, loading, the pick-up units,
and the events that move continuations between slots and memory. -/

namespace Sys2Proof.Machine

/-- A change made while agent `a` stands for the issuing one. -/
def State.asAgent (s : State) (a : Agent) (f : State → State) : State := { f { s with cur := a } with cur := s.cur }

/-! ### Images (R292) -/

/-- 64-bit words as bytes. -/
def wordBytes (ws : List Word) : List Byte := (ws.map (fun w => leBytes 8 w.toNat)).flatten
/-- The three words of a binding-table entry and word 3, zero (R132, R292). -/
def Binding.words (b : Binding) : List Word :=
  [BitVec.ofBool b.v ++ 0#15 ++ b.base, b.limit.setWidth 64, b.ctr.setWidth 64, 0]
/-- STATUS to SCHEDEP, in the order of R292. -/
def Ctx.srWords (c : Ctx) : List Word :=
  [c.sr.status, c.sr.cause, c.sr.epc.setWidth 64, c.sr.eval, c.sr.tvec, c.sr.vshape, c.sr.fcsr, c.sr.vprog.setWidth 64,
   c.sr.mflags.setWidth 64, c.sr.cid.setWidth 64, c.sr.schedep.setWidth 64]
/-- Bytes 0x0000 to 0x05FF of the image; `fc` is fcap at the PC the image resumes at. -/
def Ctx.imageHead (c : Ctx) (fc : Cap) : List Byte :=
  ((fc :: c.r.c.toList).map (fun x => leBytes 32 x.bits.toNat)).flatten
    ++ wordBytes (0 :: c.r.g.toList.tail) ++ wordBytes (c.r.bind.toList.map Binding.words).flatten
    ++ wordBytes c.srWords ++ List.replicate 0x188 0
/-- Bytes 0x0600 to 0x4FFF of the image; `win` are the window entries of the slot. -/
def Ctx.imageTail (c : Ctx) (win : List (BitVec 32)) : List Byte :=
  (c.r.v.toList.map (fun x => leBytes 2048 x.toNat)).flatten ++ (c.r.m.toList.map (fun x => leBytes 256 x.toNat)).flatten
    ++ wordBytes c.r.vw.toList ++ (win.map (fun x => leBytes 4 x.toNat)).flatten
    ++ List.replicate (0x600 - 4 * win.length) 0

/-- Bytes cut into granules of 32. -/
def granules : Nat → List Byte → List (List Byte)
  | 0, _ => []
  | n + 1, bs => bs.take 32 :: granules n (bs.drop 32)

/-- The tag of a capability stored under R58 through `dst`; none where the store faults. -/
def State.storedTag (s : State) (v dst : Cap) : Option Bool :=
  if !v.tag || !s.alive v then some false
  else if v.scope = 0 && dst.scope ≠ 0 && !dst.perm.getLsbD 7 then none
  else some true

/-- Where an access of agent `a`, working for a run, reaches: its place and whether the page is replicated; none where it
would fault or wait (R294). -/
def State.spotOf (s : State) (a : Agent) (r : Run) (va : Nat) (acc : Access) : Option (Nat × Bool) :=
  match s.xlateWith (agentCore a) (agentDie a) r.tenant r.ranges va acc with
  | .ok pa rpl _ =>
    if s.pathHeld a pa || s.refused a r.id.toNat pa acc.wants then none else some (pa, rpl)
  | _ => none
/-- The granule of a place in its line. -/
def granuleBit (pa : Nat) : BitVec 2 := if pa % 64 < 32 then 1 else 2

/-- Granules stored from a virtual address on, each with its tag, as stores of agent `a` that are performed before anything
else (R294, R93); none where one has no place. -/
def putGranules (a : Agent) (r : Run) : List (List Byte × Bool) → Nat → State → Option State
  | [], _, s => some s
  | (g, t) :: rest, va, s =>
    match s.spotOf a r va .write with
    | none => none
    | some (pa, rpl) =>
      putGranules a r rest (va + 32)
        ((s.replayOwn a va).storeNow (mkPiece a r.id.toNat va pa g (if t then granuleBit pa else 0) rpl false 0))

/-- The places of `n` granules from a virtual address; none where one cannot be read. -/
def State.readSpots (s : State) (a : Agent) (r : Run) : Nat → Nat → Option (List Nat)
  | 0, _ => some []
  | n + 1, va =>
    match s.spotOf a r va .read, s.readSpots a r n (va + 32) with
    | some (pa, _), some ps => if s.poisonAt pa then none else some (pa :: ps)
    | _, _ => none
/-- The bytes and tags of `n` granules from a virtual address, read at their homes, and what the reads leave (R87); none
where one cannot be read. -/
def State.getGranules (s : State) (a : Agent) (r : Run) (n va : Nat) : Option (List Byte × List Bool × State) :=
  (s.readSpots a r n va).map (fun ps =>
    (ps.flatMap (fun pa => s.bytesAt pa 32), ps.map (fun pa => s.tagAt pa && taggable pa),
      ps.foldl (fun s pa => s.touch pa .read false) s))
/-- The translation of one of `n` granules meets a malformed entry or one that names no memory: counted (R74, R78). -/
def State.badTables (s : State) (a : Agent) (r : Run) (n va : Nat) (acc : Access) : State :=
  if (List.range n).any (fun i => match s.xlateWith (agentCore a) (agentDie a) r.tenant r.ranges (va + 32 * i) acc with
      | .fault _ t => t
      | _ => false) then s.tableError
  else s
/-- A link on the way to one of `n` granules retrains (R285). -/
def State.heldAt (s : State) (a : Agent) (r : Run) (n va : Nat) : Bool :=
  (List.range n).any (fun i => match s.xlateWith (agentCore a) (agentDie a) r.tenant r.ranges (va + 32 * i) .read with
    | .ok pa _ _ => s.pathHeld a pa
    | _ => false)
/-- The first of `n` granules whose page is not present or under migration, and whether it is the latter. -/
def State.awayAt (s : State) (a : Agent) (r : Run) (n va : Nat) : Option (Nat × Bool) :=
  (List.range n).findSome? (fun i =>
    match s.xlateWith (agentCore a) (agentDie a) r.tenant r.ranges (va + 32 * i) .read with
    | .absent => some (va + 32 * i, false)
    | .migrating => some (va + 32 * i, true)
    | _ => none)

/-- The window entries of a slot's allocation. -/
def State.slotWindow (s : State) (core slot : Nat) : List (BitVec 32) :=
  let w := (s.coreAt core).walloc[slot % 4]'(by omega)
  (List.range (w.toNat / 1024 % 512)).map (fun i => Sparse.get 0 (s.coreAt core).window (w.toNat % 1024 + i))
/-- Sets the window entries of a slot's allocation; entries that are not listed read zero. -/
def State.setSlotWindow (s : State) (core slot : Nat) (xs : List (BitVec 32)) : State :=
  let k := s.coreAt core
  let w := k.walloc[slot % 4]'(by omega)
  s.setCoreAt core { k with window := (List.range (w.toNat / 1024 % 512)).foldl (fun m i =>
    Sparse.put 0 m (w.toNat % 1024 + i) (xs.getD i 0)) k.window }

/-- The size of a frame in bytes. -/
def Cap.frameSize (f : Cap) : Nat := f.ext 0 * Fmt.size f.fmt.toNat

/-- fcap with its STR1 at a PC (R53). -/
def capAtPc (fc : Cap) (pc : Word) : Cap := { fc with str1 := (pc - fc.base.setWidth 64).setWidth 32 }

/-- The granules of an image and their tags (R292, R58); none where a capability may not be stored in the frame. -/
def State.image (s : State) (core slot : Nat) (frame : Cap) (pc : Word) (full : Bool) : Option (List (List Byte × Bool)) :=
  let c := s.ctxOf (.ctx core slot)
  let fc := capAtPc c.fcap pc
  match allSome ((fc :: c.r.c.toList).map (fun v => s.storedTag v frame)) with
  | none => none
  | some tags =>
    let bs := c.imageHead fc ++ (if full then c.imageTail (s.slotWindow core slot) else [])
    let n := if full then 640 else 48
    some ((granules n bs).zip (tags ++ List.replicate (n - 17) false))

/-! ### Reading an image back -/

/-- Field of an image, `n` bits at byte `o`. -/
def field (x : BitVec 12288) (o n : Nat) : BitVec n := x.extractLsb' (8 * o) n
/-- A capability loaded under R59. -/
def State.loadedCap (s : State) (b : BitVec 256) (tag : Bool) : Cap :=
  let c := Cap.ofBits b tag
  if c.tag && !s.alive c then { c with tag := false } else c
/-- The system registers of an image; ZERO fields read 0. CID is the record's. -/
def imageSr (x : BitVec 12288) (cid : BitVec 16) : SysRegs :=
  { status := field x 0x420 64 &&& 0xFFFF0100, cause := field x 0x428 64 &&& 0xFFFFFFFFFFFF00FF, epc := field x 0x430 48,
    eval := field x 0x438 64, tvec := field x 0x440 64 &&& 0x8000FFFFFFFFFFFF, vshape := field x 0x448 64 &&& 0x3FFF,
    fcsr := field x 0x450 64 &&& 0x2F7, vprog := field x 0x458 16, mflags := field x 0x460 3, cid := cid,
    schedep := field x 0x470 16 }
/-- The registers of an image's first part. -/
def State.imageRegs (s : State) (x : BitVec 12288) (tags : List Bool) : Regs :=
  { Regs.reset with
    g := Vector.ofFn (fun i : Fin 32 => if i.val = 0 then 0 else field x (0x220 + 8 * i.val) 64),
    c := Vector.ofFn (fun i : Fin 16 => s.loadedCap (field x (0x20 + 32 * i.val) 256) (tags.getD (i.val + 1) false)),
    bind := Vector.ofFn (fun i : Fin 8 =>
      { v := (field x (0x320 + 32 * i.val) 64).getLsbD 63, base := field x (0x320 + 32 * i.val) 48,
        limit := field x (0x328 + 32 * i.val) 48, ctr := field x (0x330 + 32 * i.val) 48 }) }
/-- The registers of an image's second part. -/
def imageVectors (r : Regs) (x : BitVec 151552) : Regs :=
  { r with
    v := Vector.ofFn (fun i : Fin 8 => x.extractLsb' (8 * 2048 * i.val) 16384),
    m := Vector.ofFn (fun i : Fin 4 => x.extractLsb' (8 * (0x4000 + 256 * i.val)) 2048),
    vw := Vector.ofFn (fun i : Fin 4 => x.extractLsb' (8 * (0x4400 + 8 * i.val)) 64) }
/-- The window entries of an image's second part. -/
def imageWindow (x : BitVec 151552) : List (BitVec 32) :=
  (List.range 256).map (fun i => x.extractLsb' (8 * (0x4420 + 4 * i)) 32)

/-- A slot takes the registers of an image (R292, R293): `full`: the second part is there; without it v, m, vw and the
window entries read zero. -/
def State.restoreSlot (s : State) (core slot : Nat) (bs : List Byte) (tags : List Bool) (cid : BitVec 16) (full : Bool) : State :=
  let a := Agent.ctx core slot
  let x := BitVec.ofNat 12288 (leNat (bs.take 0x600))
  let r := s.asAgent a (fun t =>
    let c := t.ctx
    let y := BitVec.ofNat 151552 (leNat (bs.drop 0x600))
    let rs := t.imageRegs x tags
    t.setCtx { c with
      fcap := t.loadedCap (field x 0 256) (tags.getD 0 false), r := if full then imageVectors rs y else rs,
      sr := imageSr x cid, zero := if full then 0 else 255, clean := 0 })
  r.setSlotWindow core slot (if full then imageWindow (BitVec.ofNat 151552 (leNat (bs.drop 0x600))) else [])

/-! ### Records (R291) -/

/-- The REASON code (R291). -/
def Reason.code : Reason → Nat
  | .fresh => 0 | .counter => 1 | .barrier => 2 | .message => 3 | .page => 4 | .xsync => 5 | .yield => 6
/-- Words 0 to 3 of a record. -/
def recordWords (pc : BitVec 48) (cid : BitVec 16) (core : Nat) (plevel : BitVec 3) (slot : Nat) (prio : BitVec 2)
    (reason state : Nat) (key thresh : Word) : List Word :=
  [pc.setWidth 64,
   cid ++ BitVec.ofNat 11 core ++ plevel ++ 0#22 ++ BitVec.ofNat 2 slot ++ prio ++ BitVec.ofNat 4 reason ++ BitVec.ofNat 4 state,
   key, thresh]
/-- The granules of a record. -/
def recordGranules (ws : List Word) (frame : Cap) (cid : BitVec 16) (tag : Bool) : List (List Byte × Bool) :=
  [(wordBytes ws, false), (leBytes 32 { frame with otype := cid }.bits.toNat, tag)]

/-- A record as the core reads it. -/
structure Record where
  pc : BitVec 48
  cid : BitVec 16
  core : BitVec 11
  plevel : BitVec 3
  prio : BitVec 2
  reason : Nat
  state : Nat
  key : Word
  thresh : Word
  frame : Cap
  deriving DecidableEq, Repr

/-- The record at an address, and what reading it leaves; none where it cannot be read (R291, R59). -/
def State.readRecord (s : State) (a : Agent) (r : Run) (va : Nat) : Option (Record × State) :=
  match s.getGranules a r 2 va with
  | none => none
  | some (bs, tags, t) =>
    let x := BitVec.ofNat 512 (leNat bs)
    let w := x.extractLsb' 64 64
    let found : Record :=
         { pc := x.extractLsb' 0 48, cid := w.extractLsb' 48 16, core := w.extractLsb' 37 11, plevel := w.extractLsb' 34 3,
           prio := w.extractLsb' 8 2, reason := (w.extractLsb' 4 4).toNat, state := (w.extractLsb' 0 4).toNat,
           key := x.extractLsb' 128 64, thresh := x.extractLsb' 192 64,
           frame := s.loadedCap (x.extractLsb' 256 256) (tags.getD 1 false) }
    some (found, t)

/-! ### Write-back (R294, R295) -/

/-- A tagged capability of local scope (R295). -/
def Cap.isLocalCap (c : Cap) : Bool := c.tag && c.scope = 0
/-- The portability test of R295; `but`: a capability register that does not count (R409). -/
def Ctx.portable (c : Ctx) (but : Option Nat) : Bool :=
  (match c.recAddr with | some a => region a.toNat ≠ 1 | none => false)
    && !c.fcap.isLocalCap && !c.frame.isLocalCap
    && (List.range 16).all (fun i => but = some i || !(c.r.c[i % 16]'(by omega)).isLocalCap)
/-- The continuation may not leave its slot: placed by the launch, in a handler, held by the debugger (R293, R342, R372). -/
def Ctx.isPinned (c : Ctx) : Bool := c.pinned || c.recAddr.isNone || c.sr.th || c.held

/-- The capability checks of a frame of which `n` granules are used (R408): no phase clause; an image stands in it whole. -/
def State.frameOk (s : State) (f : Cap) (k : Kind) (n : Nat) : Bool :=
  (s.capFault f k k.need 0 0 false).isNone
    && (s.capFault f k k.need (((32 * n - 1) / (if f.fmt.toNat = Fmt.cap then 32 else 1) : Nat) : Int) 0 false).isNone
/-- The capability checks of a record through the capability SPAWN was given: permission, bounds and lifetime (R408). -/
def State.recordOk (s : State) (c : Cap) (addr : Nat) (k : Kind) : Bool :=
  (s.capFault c k k.need ((addr : Int) - c.base.toNat) 0 false).isNone
    && (s.capFault c k k.need ((addr : Int) + 63 - c.base.toNat) 0 false).isNone

/-- The PC a record resumes at: the context's own (R293). -/
def Ctx.resumePc (c : Ctx) : BitVec 48 := c.pc.setWidth 48

/-- An agent of a run goes on under another name: what it has on its way, what a release must drop, and its side-log entries,
on whatever core, go with it (R152, R81); those of another run's continuation under the same name stay (R83). -/
def State.renameAgent (s : State) (a b : Agent) (run : Nat) : State :=
  let piece (p : Piece) : Piece := if p.agent = a && p.run = run then { p with agent := b } else p
  { s with
    press := { s.press with
      queues := s.press.queues.map piece, fifo := s.press.fifo.map piece,
      props := s.press.props.map (fun p => if p.agent = a && p.piece.run = run then { p with agent := b, piece := { p.piece with agent := b } } else p),
      delivered := s.press.delivered.map (fun d => if d.agent = a then { d with agent := b } else d) }
    cores := s.cores.map (fun p =>
      (p.1, { p.2 with u := { p.2.u with
        sideLog := p.2.u.sideLog.map (fun e => if e.agent = a && e.run = run then { e with agent := b } else e) } })) }

/-- Write-back of the continuation in a slot (R294): frame image, then record, performed before the slot is reused; the slot
is freed, and what the continuation has on its way, and its pending fault, stay its own (R152, R337). None where an access
would fault. The record is bound to core `target` at PLEVEL `plevel`. -/
def State.writeBack (s : State) (core slot target : Nat) (plevel : BitVec 3) (w : Susp) : Option State :=
  let a := Agent.ctx core slot
  let s := s.deliverMessage a
  let c := s.ctxOf a
  match c.recAddr, s.runOn core with
  | some addr, some r =>
    let size := c.frame.frameSize
    let n := if 20480 ≤ size then 640 else 48
    let ok := c.sending.isNone && ({ s with cur := a }).frameOk c.frame .SC n && ({ s with cur := a }).recordOk c.recCap addr.toNat .SC
    if !ok then none
    else
      match ({ s with cur := a }).image core slot c.frame c.pc (20480 ≤ size) with
      | none => none
      | some gs =>
        let ws := recordWords c.resumePc c.sr.cid target plevel slot c.prio w.reason.code 3 w.key w.thresh
        match (putGranules a r gs c.frame.base.toNat s).bind
            (putGranules a r (recordGranules ws c.frame c.sr.cid true) addr.toNat) with
        | none => none
        | some s =>
          let p : Parked :=
            { recAddr := addr, run := r.id.toNat, tenant := r.tenant, prio := c.prio, plevel := plevel, susp := w, recCap := c.recCap, frame := c.frame }
          let b := Agent.cont target addr.toNat
          let c := s.ctxOf a
          let s := s.setCtxOf b { Ctx.reset with deferred := c.deferred, owed := c.owed, pageFail := c.pageFail }
          let s := (s.setCtxOf a c.freed).renameAgent a b r.id.toNat
          let k := s.coreAt target
          some (s.setCoreAt target { k with u := { k.u with waiting := k.u.waiting ++ [p] } })
  | _, _ => none

/-- The condition a written-back continuation of a tenant waits for holds already (R294). -/
def State.conditionMet (s : State) (core : Nat) (p : Parked) : Bool :=
  let w := p.susp
  match w.reason with
  | .yield => true
  | .counter => w.thresh.toNat ≤ (s.wordAt w.key.toNat).toNat
  | .message => 256 ≤ w.key.toNat || ((s.coreAt core).ring w.key.toNat).occupied ≠ 0
  | .page =>
    if w.thresh = 0 then
      !(match s.xlateWith (some core) (core / 384) p.tenant (s.spaceOf p.run).2 w.key.toNat .read with
        | .migrating => true | _ => false)
    else !s.requests.any (fun q => q.epoch == w.thresh.toNat)
  | _ => false

/-- A watch of an agent becomes the watch of its record; a waiter that found none free tries again (R129, R294). -/
def State.moveWatch (s : State) (a : Agent) (core : Nat) (addr : BitVec 48) (w : Susp) : State :=
  if s.press.watches.any (fun w => w.who = .agent a) then
    { s with press := { s.press with watches := s.press.watches.map (fun w =>
      if w.who = .agent a then { w with who := .record core addr } else w) } }
  else if w.reason = .counter then s.addWatch { cell := w.key.toNat, thresh := w.thresh, who := .record core addr }
  else s

/-- A suspended continuation of a slot is written back, bound or portable as R295 says, and ready at once when its
condition holds. -/
def State.writeBackSlot (s : State) (core slot : Nat) : Option State :=
  let a := Agent.ctx core slot
  let c := s.ctxOf a
  match c.susp, c.recAddr with
  | some w, some addr =>
    let pl := if c.portable none then c.plevel else 0
    match s.writeBack core slot core pl w with
    | none => none
    | some t =>
      let t := t.moveWatch a core addr w
      match (t.coreAt core).u.waiting.find? (fun p => p.recAddr == addr) with
      | some p => some (if t.conditionMet core p then t.makeReady core p else t)
      | none => some t
  | _, _ => none

/-- The free slots of a core that a run holds; slot 3 of a run whose express area is 64 KiB takes no record (R107). -/
def State.freeSlots (s : State) (core : Nat) : List Nat :=
  match s.runOn core with
  | some r =>
    (List.range (if r.esz = 1 && r.express.isNone then 3 else 4)).filter (fun i => !(s.ctxOf (.ctx core i)).occupied)
  | none => []

/-- A slot put before the first one that was suspended later. -/
def insertOldest (since : Nat → Nat) (i : Nat) : List Nat → List Nat
  | [] => [i]
  | j :: rest => if since i < since j then i :: j :: rest else j :: insertOldest since i rest

/-- The suspended, unpinned continuations of a core, the longest suspended first (R294). -/
def State.candidates (s : State) (core : Nat) : List Nat :=
  let since (i : Nat) : Nat := match (s.ctxOf (.ctx core i)).susp with | some w => w.since | none => 0
  let l := (List.range 4).filter (fun i =>
    let c := s.ctxOf (.ctx core i)
    c.occupied && c.susp.isSome && !c.isPinned)
  l.foldl (fun l i => insertOldest since i l) []

/-- A candidate whose write-back would fault has met a malformed table entry: counted (R74, R78). -/
def State.writeBackFails (s : State) (core slot : Nat) (t : State) : State :=
  let a := Agent.ctx core slot
  let c := s.ctxOf a
  match c.recAddr, s.runOn core with
  | some addr, some r => (t.badTables a r 2 addr.toNat .write).badTables a r 48 c.frame.base.toNat .write
  | _, _ => t
/-- WRITE_BACK (R294): a slot is given up for a ready record where no slot is free. -/
def execWriteBack (core : Nat) (s : State) : Host.Outcome State Fault Refusal :=
  if (s.coreAt core).u.ready.isEmpty || !(s.freeSlots core).isEmpty then .next s
  else
    match (s.candidates core).findSome? (fun i => s.writeBackSlot core i) with
    | some t => .next t
    | none => .next ((s.candidates core).foldl (fun t i => s.writeBackFails core i t) s)

/-! ### Loading (R293) -/

/-- A record is dropped and counted in the run's colophon (R291). -/
def State.dropRecord (s : State) (run : Nat) : State :=
  s.updRun run (fun r => { r with f := { r.f with dropped := r.f.dropped + 1 } })

/-- The address of an XSYNC from the address after it (R19, R174). -/
def xsyncPc (next : Word) : Word := if (next - 4).extractLsb' 0 6 = 0 then next - 8 else next - 4

/-- What the slot holds once a record is loaded, its image apart (R293); `kept`: what the continuation kept of its own while
it was written back (R337, R174). -/
def Ctx.loaded (c kept : Ctx) (r : Record) (addr : BitVec 48) (rec frame : Cap) : Ctx :=
  { c with
    occupied := true, pinned := false, recAddr := some addr, recCap := rec, frame := frame, prio := r.prio, plevel := r.plevel,
    pc := r.pc.setWidth 64, resumed := r.reason ≠ 0, susp := none, idle := none, deferred := kept.deferred, held := false,
    loading := false, sending := none, 
    owed := kept.owed.map (fun x => (x.1, x.2.1, if x.2.2 = 0 then xsyncPc (r.pc.setWidth 64) else x.2.2)), vpart := none,
    pageFail := if r.reason = 4 && r.thresh = BitVec.allOnes 64 then some r.key else kept.pageFail }
/-- A RECVT whose time passed while its continuation was away ends as it issues again (R309, R293). -/
def Ctx.timedOut (c kept : Ctx) : Ctx :=
  match kept.susp with
  | some w => { c with pc := seqPc c.pc 2, resumed := false }.setG w.dst (BitVec.allOnes 64)
  | none => c

/-- What becomes of a ready record (R293, R291). -/
inductive Loading where
  | loaded (s : State)
  /-- A reserved STATE or REASON, an untagged FRAME, or an access that faults. -/
  | dropped (s : State)
  /-- A link on the way to the record or the frame retrains: the record waits (R285). -/
  | held
  /-- A page of the record or the frame is not present: it is asked for (log 59). -/
  | away (va : Nat) (mig : Bool)

/-- A record enters a slot of a core (R293); `old`: the name the continuation had while it was written back. -/
def State.enterSlot (s : State) (core slot : Nat) (run : Run) (addr : BitVec 48) (rec : Cap) (old : Agent) : Loading :=
  let a := Agent.ctx core slot
  if s.heldAt a run 2 addr.toNat then .held
  else if !({ s with cur := a }).recordOk rec addr.toNat .LC then .dropped s
  else
  match s.awayAt a run 2 addr.toNat, s.readRecord a run addr.toNat with
  | some (va, mig), _ => .away va mig
  | none, none => .dropped (s.badTables a run 2 addr.toNat .read)
  | none, some (r, s) =>
    let frame := { r.frame with otype := 0 }
    let n := if 20480 ≤ frame.frameSize && r.reason ≠ 0 then 640 else 48
    if r.state = 0 || 4 < r.state || 6 < r.reason || !r.frame.tag || !({ s with cur := a }).frameOk frame .LC n then .dropped s
    else if s.heldAt a run n frame.base.toNat then .held
    else
      match s.awayAt a run n frame.base.toNat, s.getGranules a run n frame.base.toNat with
      | some (va, mig), _ => .away va mig
      | none, none => .dropped (s.badTables a run n frame.base.toNat .read)
      | none, some (bs, tags, s) =>
        let fresh := { SysRegs.reset with cid := r.cid }
        let s := s.restoreSlot core slot bs tags r.cid (n = 640)
        let c := s.ctxOf a
        let c := if r.reason = 0 then ({ c with r := Regs.reset, sr := fresh, zero := 255 }.setC 13 frame) else c
        let kept := s.ctxOf old
        let s := s.setCtxOf a ((c.loaded kept r addr rec frame).timedOut kept)
        let s := ((s.setCtxOf old Ctx.reset).renameAgent old a run.id.toNat).dropViews (fun x => x.agent == a)
        let w := BitVec.ofNat 64 ((recordWords r.pc r.cid core r.plevel slot r.prio r.reason 2 r.key r.thresh).getD 1 0).toNat
        .loaded (s.coreStore core run.id.toNat a (addr.toNat + 8) (lineBits ((addr.toNat + 8) % 64) (leBytes 8 w.toNat)))

/-- The oldest ready record of the highest priority (R293). -/
def bestReady : List Ready → Option Ready
  | [] => none
  | e :: rest =>
    match bestReady rest with
    | none => some e
    | some f => if e.prio.ult f.prio then some f else some e

/-- A record whose page is away waits for it, which `dst` 2 marks: the request's answer makes it ready again, a failure drops it
(log 59). -/
def State.awaitLoad (s : State) (core : Nat) (e : Ready) (run : Run) (va : Nat) (mig : Bool) : State :=
  let q := if mig then (0, s) else s.requestPage (core / 384) run.tenant va
  let w : Susp :=
    { reason := .page, key := BitVec.ofNat 64 va, thresh := BitVec.ofNat 64 q.1, dst := 2, since := s.tick, limit := none }
  let p : Parked :=
    { recAddr := e.recAddr, run := e.run, tenant := run.tenant, prio := e.prio, plevel := e.plevel, susp := w, recCap := e.recCap, frame := Cap.null }
  let home := e.core.toNat
  let k := q.2.coreAt home
  q.2.setCoreAt home { k with u := { k.u with waiting := k.u.waiting ++ [p] } }

/-- A record that has left its queue enters the first free slot of a core, waits for its page, or is dropped; `old`: the state
with the record still in its queue, where a retraining link leaves it. -/
def State.loadInto (old s : State) (core : Nat) (e : Ready) : State :=
  match s.freeSlots core, s.run? e.run with
  | slot :: _, some run =>
    match s.enterSlot core slot run e.recAddr e.recCap (.cont e.core.toNat e.recAddr.toNat) with
    | .loaded t => t
    | .held => old
    | .away va mig => s.awaitLoad core e run va mig
    | .dropped t => (t.dropRecord e.run).checkArrival core
  | _, _ => s

/-- Records whose condition is met and that had no room, or whose stores were under way, enter their queue (log 59). -/
def State.readmit (s : State) (core : Nat) : State :=
  ((s.coreAt core).u.waiting.filter (fun p => p.susp.reason = .yield)).foldl (fun s p => s.makeReady core p) s

/-- A free slot of a core takes a record of its ready queue (R293). -/
def State.recordLoad (s : State) (core : Nat) : State :=
  match s.freeSlots core, bestReady (s.coreAt core).u.ready with
  | _ :: _, some e =>
    let k := s.coreAt core
    (s.loadInto (s.setCoreAt core { k with u := { k.u with ready := k.u.ready.erase e } }) core e).readmit core
  | _, _ => s.readmit core

/-- RECORD_LOAD (R293): not at a stopped core (R341, R370). -/
def execRecordLoad (core : Nat) (s : State) : Host.Outcome State Fault Refusal :=
  .next (if (s.coreAt core).halted then s else s.recordLoad core)

/-- A core with a free slot and an empty ready queue takes a portable record (R295). -/
def State.pickUp (s : State) (core : Nat) : State :=
  match s.freeSlots core, (s.coreAt core).u.ready, s.pickable core with
  | _ :: _, [], (d, e) :: _ => s.loadInto (s.setDie d { s.die d with pickup := (s.die d).pickup.erase e }) core e
  | _, _, _ => s

/-- PICK_UP (R295): not at a stopped core (R341, R370). -/
def execPickUp (core : Nat) (s : State) : Host.Outcome State Fault Refusal :=
  .next (if (s.coreAt core).halted then s else s.pickUp core)

/-- IDLE_TIMEOUT (R313): a limited IDLE of agent `a` is over. -/
def execIdleTimeout (a : Agent) (s : State) : Host.Outcome State Fault Refusal :=
  let c := s.ctxOf a
  match c.idle with
  | some (some _) => .next (s.setCtxOf a { c with idle := none })
  | _ => .next s

end Sys2Proof.Machine
end

