-- ==== Sys2Proof/Machine/Elements.lean ====
section
/-! DEFINITION. Arithmetic on one element: the vector and sweep operations (R236 to R238, R246), comparisons (R240), and
the elementary functions, correctly rounded from an enclosure of some 300 bits (R239). -/

namespace Sys2Proof.Machine

/-! ### Two operands (R236) -/

/-- The operations of R236. -/
inductive VOp where
  | add | sub | mul | min | max | and | or | xor | shl | shr | sra
  deriving DecidableEq, Repr

/-- The operation rounds for a type: floating-point arithmetic (R233). -/
def VOp.rounds (op : VOp) (ty : Nat) : Bool := Fmt.isF ty && (op = .add || op = .sub || op = .mul)

/-- The floating-point part of R236. -/
def VOp.flt (op : VOp) (mode : Mode) (a b : FVal) : FX × Flags :=
  match op with
  | .sub => addF mode a b.neg
  | .mul => mulF a b
  | _ => addF mode a b
/-- The integer part of R236, exact. -/
def VOp.int (op : VOp) (a b : Int) : Int :=
  match op with
  | .sub => a - b
  | .mul => a * b
  | .min => if a ≤ b then a else b
  | .max => if a ≤ b then b else a
  | _ => a + b
/-- The operations on bit patterns of `w` bits. -/
def VOp.bits (op : VOp) (w a b : Nat) : Nat :=
  match op with
  | .and => a &&& b
  | .or => a ||| b
  | .xor => a ^^^ b
  | .shr => a / 2 ^ (b % w)
  | .sra => ((BitVec.ofNat w a).sshiftRight (b % w)).toNat
  | _ => a

/-- The result bits and flags of an operation on elements of a type (R236). -/
def VOp.elem (op : VOp) (ty : Nat) (mode : Mode) (sat : Bool) (a b : Nat) : Nat × Flags :=
  let w := elemBits ty
  if op = .and || op = .or || op = .xor || op = .shr || op = .sra then (op.bits w a b, {})
  else if op = .shl then intTail ty sat (intRead ty a * 2 ^ (b % w))
  else if Fmt.isF ty then
    let f := floatFmt ty
    if op = .min || op = .max then
      let r := minMaxF (op = .max) (f.unpack a) (f.unpack b)
      (f.pack r.1, r.2)
    else
      let r := op.flt mode (f.unpack a) (f.unpack b)
      let t := floatTail ty mode sat r.1
      (t.1, r.2.join t.2)
  else intTail ty sat (op.int (intRead ty a) (intRead ty b))

/-- a × b + c, or a × b − c, with one rounding (R237). -/
def fusedElem (minus : Bool) (ty : Nat) (mode : Mode) (sat : Bool) (a b c : Nat) : Nat × Flags :=
  if Fmt.isF ty then
    let f := floatFmt ty
    let z := f.unpack c
    let r := fmaF mode (f.unpack a) (f.unpack b) (if minus then z.neg else z)
    let t := floatTail ty mode sat r.1
    (t.1, r.2.join t.2)
  else
    let p := intRead ty a * intRead ty b
    intTail ty sat (if minus then p - intRead ty c else p + intRead ty c)

/-! ### One operand (R238) -/

/-- A value without rounding under sat: an infinity becomes ±max, SAT and NX (R238, R241). -/
def clampInf (ty : Nat) (sat : Bool) (v : FVal) : Nat × Flags :=
  let f := floatFmt ty
  match v with
  | .inf neg => if sat then (f.pack (.fin neg f.maxM f.maxE), { sat := true, nx := true }) else (f.pack v, {})
  | _ => (f.pack v, {})

/-- VABS and VNEG (R238). -/
def signElem (neg : Bool) (ty : Nat) (sat : Bool) (a : Nat) : Nat × Flags :=
  if Fmt.isF ty then
    match (floatFmt ty).unpack a with
    | .nan _ => clampInf ty sat (.nan false)
    | .inf n => clampInf ty sat (.inf (neg && !n))
    | .fin n m e => clampInf ty sat (.fin (neg && !n) m e)
  else
    let x := intRead ty a
    intTail ty sat (if neg then -x else (x.natAbs : Int))

/-- VCVT (R238, R194). -/
def convElem (src dst : Nat) (mode : Mode) (sat : Bool) (a : Nat) : Nat × Flags := convNum (readNum src a) dst mode sat

/-- The tail of Conv on a member of the type (R241). -/
def tailElem (ty : Nat) (sat : Bool) (a : Nat) : Nat × Flags :=
  let v := (floatFmt ty).unpack a
  let r := clampInf ty sat v
  (r.1, v.quietFlags.join r.2)

/-! ### Comparisons (R240) -/

/-- The truth of condition `cond` and whether NV is set. -/
def cmpElem (ty cond : Nat) (a b : Nat) : Bool × Flags :=
  if Fmt.isF ty then
    let f := floatFmt ty
    let x := f.unpack a
    let y := f.unpack b
    let nan := x.isNan || y.isNan
    let t := if cond = 0 then eqF x y else if cond = 1 then !eqF x y else if cond = 2 then ltF x y
      else if cond = 3 then ltF x y || eqF x y else if cond = 4 then ltF y x else ltF y x || eqF x y
    let nv := (opFlags [x, y]).nv || (nan && 2 ≤ cond && ty ≠ 0x0D && ty ≠ 0x0E)
    (if nan then cond = 1 else t, { nv := nv })
  else
    let x := intRead ty a
    let y := intRead ty b
    (if cond = 0 then x = y else if cond = 1 then x ≠ y else if cond = 2 then x < y else if cond = 3 then x ≤ y
      else if cond = 4 then y < x else y ≤ x, {})

/-! ### Block add and requantise (R246) -/

/-- An exact result scaled by 2^−k. -/
def FX.scale (x : FX) (k : Nat) : FX := match x with | .num n m e st => .num n m (e - (k : Int)) st | y => y

/-- VBARQ on F and I types (R246). -/
def barqElem (ty k : Nat) (mode : Mode) (sat : Bool) (a b : Nat) : Nat × Flags :=
  if Fmt.isF ty then
    let f := floatFmt ty
    let r := addF mode (f.unpack a) (f.unpack b)
    let t := floatTail ty mode sat (r.1.scale k)
    (t.1, r.2.join t.2)
  else
    let x := intRead ty a + intRead ty b
    let r := roundInt mode (x < 0) x.natAbs (-(k : Int)) false
    let t := intTail ty sat r.1
    (t.1, t.2.join { nx := r.2 })

/-- VBARQ rounds at an element: a floating-point type, or an integer sum that 2^k does not divide (R233). -/
def barqRounds (ty k a b : Nat) : Bool := Fmt.isF ty || (intRead ty a + intRead ty b) % (2 ^ k : Nat) ≠ 0

/-- The neighbours of `n / 2^(k+1)` on the grid of odd multiples of 2^(s−1), as the lower q, and whether it lies on the
grid; `n` counts halves of 2^−k. -/
def gridFloor (s k : Nat) (n : Int) : Int × Bool :=
  let y := n - (2 ^ (s + k) : Nat)
  (y / (2 ^ (s + k + 1) : Nat), decide (y % (2 ^ (s + k + 1) : Nat) = 0))

/-- The q chosen by a mode between q and q + 1 for twice x·2^k = `n` (R246). `free`: where x is 0 and the mode names no
side. Where x lies nearer zero than every point of the grid, neither neighbour lies toward zero: RTZ goes down for a positive
x and up for a negative one, the model's choice (log 24). -/
def gridChoose (mode : Mode) (free : Bool) (s k : Nat) (n : Int) (q : Int) : Int :=
  let mid : Int := (q + 1) * (2 ^ (s + k + 1) : Nat)
  let low := if n = 0 then free else decide (0 < n)
  match mode with
  | .rdn => q
  | .rup => q + 1
  | .rtz => if low then q else q + 1
  | .rto => if q % 2 = 0 then q + 1 else q
  | .rne => if n < mid then q else if mid < n then q + 1 else if q % 2 = 0 then q else q + 1
  | .rna => if n < mid then q else if mid < n then q + 1 else if low then q + 1 else q
  | .rnz => if n < mid then q else if mid < n then q + 1 else if low then q else q + 1

/-- VBARQ on a BPI-p element (R246): the stored byte and the flags, from the two values. -/
def barqBpi (p k : Nat) (mode : Mode) (free : Bool) (a b : Int) : Nat × Flags :=
  let x := a + b
  let bits (w : Int) : Nat := (BitVec.ofInt 8 w).toNat
  if p = 8 then
    if x < -128 * (2 ^ k : Nat) then (bits (-128), { nx := true, sat := true })
    else if 127 * (2 ^ k : Nat) < x then (bits 127, { nx := true, sat := true })
    else
      let r := roundInt mode (x < 0) x.natAbs (-(k : Int)) false
      (bits r.1, { nx := r.2 })
  else
    let s := 8 - p
    let top : Int := ((2 ^ (p - 1) : Nat) : Int) - 1
    let last : Int := (2 * top + 1) * (2 ^ (s - 1) : Nat) * (2 ^ k : Nat)
    if last < x then (bits (top * (2 ^ s : Nat)), { nx := true, sat := true })
    else if x < -last then (bits ((-top - 1) * (2 ^ s : Nat)), { nx := true, sat := true })
    else
      let g := gridFloor s k (2 * x)
      let q := if g.2 then g.1 else gridChoose mode free s k (2 * x) g.1
      (bits (q * (2 ^ s : Nat)), { nx := !g.2 })

/-- VBARQ on a BPI element rounds: the mean lies between the grid's ends and not on the grid. One beyond an end clamps to it
whatever the mode, and does not count as needing it: the model's choice (R233, R246; log 24). -/
def barqBpiRounds (p k : Nat) (a b : Int) : Bool :=
  let x := a + b
  if p = 8 then -128 * (2 ^ k : Nat) ≤ x && x ≤ 127 * (2 ^ k : Nat) && x % (2 ^ k : Nat) != 0
  else
    let last : Int := (2 * (((2 ^ (p - 1) : Nat) : Int) - 1) + 1) * (2 ^ (7 - p) : Nat) * (2 ^ k : Nat)
    x ≤ last && 0 - last ≤ x && !(gridFloor (8 - p) k (2 * x)).2

/-! ### Elementary functions (R239) -/

/-- Fraction bits of the enclosures. -/
def fixBits : Nat := 320
/-- Σ t/(2k+1) with t multiplied by z2 each time: the series of artanh. -/
def atanhSum : Nat → Nat → Nat → Nat → Nat
  | 0, _, _, _ => 0
  | fuel + 1, k, t, z2 => t / (2 * k + 1) + atanhSum fuel (k + 1) (t * z2 / 2 ^ fixBits) z2
/-- 2·artanh(z) of a fixed-point z below 1/2. -/
def twoAtanh (z : Nat) : Nat := 2 * atanhSum 112 0 z (z * z / 2 ^ fixBits)
/-- ln 2. -/
def ln2 : Nat := twoAtanh (2 ^ fixBits / 3)
/-- Σ y^k/k!, from term `t` of index `k`. -/
def expSum : Nat → Nat → Nat → Nat → Nat
  | 0, _, t, _ => t
  | fuel + 1, k, t, y => t + expSum fuel (k + 1) (t * y / 2 ^ fixBits / (k + 1)) y
/-- e^y of a fixed-point y below 1. -/
def expFix (y : Nat) : Nat := expSum 96 0 (2 ^ fixBits) y
/-- An integer kept within ±2000, far beyond every exponent of R180. -/
def capExp (n : Int) : Int := if n < -2000 then -2000 else if 2000 < n then 2000 else n

/-- 2^a of a finite a. -/
def exp2Fin (neg : Bool) (m : Nat) (e : Int) : FX :=
  let k := (-e).toNat
  let num : Int := (if neg then -(m : Int) else m) * pow2 (capExp e)
  if num % (2 ^ k : Nat) = 0 then .num false 1 (capExp (num / (2 ^ k : Nat))) false
  else
    let n := num / (2 ^ k : Nat)
    let y := (num % (2 ^ k : Nat)).toNat * 2 ^ fixBits / 2 ^ k * ln2 / 2 ^ fixBits
    .num false (expFix y / 2 ^ 16) (capExp n - ((fixBits - 16 : Nat) : Int)) true
/-- log2 of a finite positive a. -/
def log2Fin (m : Nat) (e : Int) : FX :=
  let h := 2 ^ (bitLen m - 1)
  let n := e + (bitLen m : Int) - 1
  if m = h then exactInt n
  else
    let z := (m - h) * 2 ^ fixBits / (m + h)
    let x : Int := n * (2 ^ fixBits : Nat) + ((twoAtanh z * 2 ^ fixBits / ln2 : Nat) : Int)
    .num (x < 0) (x.natAbs / 2 ^ 16) (-((fixBits - 16 : Nat) : Int)) true
/-- 1/√a of a finite positive a. -/
def rsqFin (m : Nat) (e : Int) : FX :=
  let odd := decide (e % 2 ≠ 0)
  let m := if odd then 2 * m else m
  let e := if odd then e - 1 else e
  let r := isqrt 168 (2 ^ 256 / m) 0
  .num false r (-(e / 2) - 128) (r * r * m ≠ 2 ^ 256)
/-- tanh of a finite non-zero a. -/
def tanhFin (neg : Bool) (m : Nat) (e : Int) : FX :=
  let lead := (bitLen m : Int) - 1 + e
  if lead < -40 then .num neg (m * 2 ^ 40 - 1) (e - 40) true
  else if 6 ≤ lead then .num neg (2 ^ 80 - 1) (-80) true
  else
    let x := m * pow2 ((fixBits : Int) + 1 + e)
    let k := x / ln2
    let y := expFix (x - k * ln2) * 2 ^ k
    .num neg ((y - 2 ^ fixBits) * 2 ^ fixBits / (y + 2 ^ fixBits) / 2 ^ 40) (-((fixBits - 40 : Nat) : Int)) true

/-- The functions of R239. -/
inductive Elementary where
  | exp2 | log2 | rcp | rsq | tanh
  deriving DecidableEq, Repr

/-- The exact value, with the special operands of R239. -/
def Elementary.exact (fn : Elementary) (a : FVal) : FX × Flags :=
  let bad : FX × Flags := (.nan, { nv := true })
  match fn, a with
  | _, .nan sig => (.nan, { nv := sig })
  | .exp2, .inf neg => (if neg then .zero false else .inf false, {})
  | .exp2, .fin neg m e => (exp2Fin neg m e, {})
  | .log2, .inf neg => if neg then bad else (.inf false, {})
  | .log2, .fin neg m e => if m = 0 then (.inf true, {}) else if neg then bad else (log2Fin m e, {})
  | .rcp, .inf neg => (.zero neg, {})
  | .rcp, .fin neg m e => if m = 0 then (.inf neg, {}) else divF (.fin false 1 0) (.fin neg m e)
  | .rsq, .inf neg => if neg then bad else (.zero false, {})
  | .rsq, .fin neg m e => if m = 0 then (.inf neg, {}) else if neg then bad else (rsqFin m e, {})
  | .tanh, .inf neg => (.num neg 1 0 false, {})
  | .tanh, .fin neg m e => if m = 0 then (.zero neg, {}) else (tanhFin neg m e, {})

/-- An elementary function of an element (R239). -/
def Elementary.elem (fn : Elementary) (ty : Nat) (mode : Mode) (sat : Bool) (a : Nat) : Nat × Flags :=
  let r := fn.exact ((floatFmt ty).unpack a)
  let t := floatTail ty mode sat r.1
  (t.1, r.2.join t.2)

end Sys2Proof.Machine
end

