-- ==== Sys2Proof/Machine/Vector.lean ====
section
/-! DEFINITION. The vector unit on registers (R221 to R246): shape, element-wise operations, conversions, comparisons,
folds, rearrangement, masks and bit planes. -/

namespace Sys2Proof.Machine

/-! ### Checks and operands -/

/-- The shape checks of a typed instruction: blocks of a BPI type, then the size (R222, R223, R231). -/
def vCheck (ty : Nat) : M Unit := do
  checkBlocks ty (← get).elems
  checkTile ty

/-- The mask selects an element below `n`: something is computed (R225, R233). -/
def State.someSelected (s : State) (m : BitVec 2) (n : Nat) : Bool := (List.range n).any (s.selected m)

/-- Mode(rnd), evaluated only where an element needs rounding (R233). -/
def modeIf (rounds : Bool) (rnd : BitVec 3) (p0 : Word) : M Mode :=
  if rounds then modeOf rnd.toNat p0 else pure .rne

/-- Elements `lo` to `lo + n - 1` into positions 0 to `n - 1`, by mask, with the flags of those computed (R224, R225,
R227). -/
def State.tileFrom (s : State) (old : BitVec 16384) (w lo n : Nat) (m : BitVec 2) (mz : Bool)
    (f : Nat → Nat × Flags) : BitVec 16384 × Flags :=
  (List.range n).foldl (fun r i =>
    if s.selected m (lo + i) then
      let x := f (lo + i)
      (setElem r.1 w i x.1, r.2.join x.2)
    else if mz then (setElem r.1 w i 0, r.2) else r) (old, {})

/-- Operand b: element `e` of vb, or the scalar (R232). -/
def State.operandB (s : State) (f : VFields) (w e : Nat) : Nat :=
  if f.imm8.getLsbD 0 then (s.g f.g).toNat % 2 ^ w else elemAt (s.v f.vb) w e

/-- An element-wise instruction: checks, mode, the tile, the flags (R227, R230, R231). -/
def vElementwise (f : VFields) (p0 : Word) (rounds : Bool) (fn : State → Mode → Nat → Nat × Flags) : M (Option Word) := do
  let ty := f.ty.toNat
  vCheck ty
  let s ← get
  let mode ← modeIf (rounds && s.someSelected f.m s.elems) f.rnd p0
  let r := s.tileFrom (s.v f.vd) (elemBits ty) 0 s.elems f.m f.mz (fn s mode)
  step1 (fun s => (s.setV f.vd r.1).setFlags r.2)

/-- An instruction that moves bit patterns: no mode, no flag (R238, R240, R242). -/
def vMove (f : VFields) (fn : State → Nat → Nat → Nat) : M (Option Word) :=
  let w := elemBits f.ty.toNat
  vElementwise f 0 false (fun s _ e => (fn s w e, {}))

/-! ### VSHAPE (R235) -/

/-- VSHAPE (R235). -/
def execVshape (d a : BitVec 5) (imm : BitVec 32) (s : State) : Host.Outcome State Fault Refusal :=
  runInstr (.vshape d a imm) (do
    let new := s.g a + imm.setWidth 64
    need (new.extractLsb' 14 50 = 0) 0x02 new
    let old := s.ctx.sr.vshape
    writeVshape new
    step1 (fun t => t.setG d old)) s

/-! ### Two and three operands (R236, R237) -/

/-- The instructions of R236. -/
def vBinary (op : VOp) (f : VFields) (p0 : Word) : M (Option Word) :=
  let ty := f.ty.toNat
  let w := elemBits ty
  vElementwise f p0 (op.rounds ty) (fun s mode e => op.elem ty mode f.sat (elemAt (s.v f.va) w e) (s.operandB f w e))

/-- VADD (R236). -/
def execVadd (f : VFields) (s : State) : Host.Outcome State Fault Refusal :=
  runInstr (.vadd f) (vBinary .add f (Instr.vadd f).p0) s
/-- VSUB (R236). -/
def execVsub (f : VFields) (s : State) : Host.Outcome State Fault Refusal :=
  runInstr (.vsub f) (vBinary .sub f (Instr.vsub f).p0) s
/-- VMUL (R236). -/
def execVmul (f : VFields) (s : State) : Host.Outcome State Fault Refusal :=
  runInstr (.vmul f) (vBinary .mul f (Instr.vmul f).p0) s
/-- VMIN (R236). -/
def execVmin (f : VFields) (s : State) : Host.Outcome State Fault Refusal :=
  runInstr (.vmin f) (vBinary .min f (Instr.vmin f).p0) s
/-- VMAX (R236). -/
def execVmax (f : VFields) (s : State) : Host.Outcome State Fault Refusal :=
  runInstr (.vmax f) (vBinary .max f (Instr.vmax f).p0) s
/-- VAND (R236). -/
def execVand (f : VFields) (s : State) : Host.Outcome State Fault Refusal :=
  runInstr (.vand f) (vBinary .and f (Instr.vand f).p0) s
/-- VOR (R236). -/
def execVor (f : VFields) (s : State) : Host.Outcome State Fault Refusal :=
  runInstr (.vor f) (vBinary .or f (Instr.vor f).p0) s
/-- VXOR (R236). -/
def execVxor (f : VFields) (s : State) : Host.Outcome State Fault Refusal :=
  runInstr (.vxor f) (vBinary .xor f (Instr.vxor f).p0) s
/-- VSHL (R236). -/
def execVshl (f : VFields) (s : State) : Host.Outcome State Fault Refusal :=
  runInstr (.vshl f) (vBinary .shl f (Instr.vshl f).p0) s
/-- VSHR (R236). -/
def execVshr (f : VFields) (s : State) : Host.Outcome State Fault Refusal :=
  runInstr (.vshr f) (vBinary .shr f (Instr.vshr f).p0) s
/-- VSRA (R236). -/
def execVsra (f : VFields) (s : State) : Host.Outcome State Fault Refusal :=
  runInstr (.vsra f) (vBinary .sra f (Instr.vsra f).p0) s

/-- The instructions of R237. -/
def vFusedOp (minus : Bool) (f : VFields) (p0 : Word) : M (Option Word) :=
  let ty := f.ty.toNat
  let w := elemBits ty
  vElementwise f p0 (Fmt.isF ty) (fun s mode e =>
    fusedElem minus ty mode f.sat (elemAt (s.v f.va) w e) (s.operandB f w e) (elemAt (s.v f.vc) w e))

/-- VFMA (R237). -/
def execVfma (f : VFields) (s : State) : Host.Outcome State Fault Refusal :=
  runInstr (.vfma f) (vFusedOp false f (Instr.vfma f).p0) s
/-- VFMS (R237). -/
def execVfms (f : VFields) (s : State) : Host.Outcome State Fault Refusal :=
  runInstr (.vfms f) (vFusedOp true f (Instr.vfms f).p0) s

/-! ### One operand (R238, R239) -/

/-- VABS and VNEG (R238). -/
def vSignOp (neg : Bool) (f : VFields) : M (Option Word) :=
  let ty := f.ty.toNat
  let w := elemBits ty
  vElementwise f 0 false (fun s _ e => signElem neg ty f.sat (elemAt (s.v f.va) w e))

/-- VABS (R238). -/
def execVabs (f : VFields) (s : State) : Host.Outcome State Fault Refusal := runInstr (.vabs f) (vSignOp false f) s
/-- VNEG (R238). -/
def execVneg (f : VFields) (s : State) : Host.Outcome State Fault Refusal := runInstr (.vneg f) (vSignOp true f) s
/-- VMOV (R238). -/
def execVmov (f : VFields) (s : State) : Host.Outcome State Fault Refusal :=
  runInstr (.vmov f) (vMove f (fun s w e => elemAt (s.v f.va) w e)) s

/-- The registers an operand of VCVT occupies (R228). -/
def State.span (s : State) (ty : Nat) : Nat := (tileBytes ty s.elems + s.vbytes - 1) / s.vbytes
/-- Element `e` of an operand that begins at register `x` (R228). -/
def State.rangeElem (s : State) (x : BitVec 3) (w e : Nat) : Nat :=
  let per := 8 * s.vbytes / w
  elemAt (s.v (x + BitVec.ofNat 3 (e / per))) w (e % per)

/-- The writes of VCVT, register by register, from the values the sources held (R230). -/
def State.writeRange (s : State) (d : BitVec 3) (w k : Nat) (m : BitVec 2) (mz : Bool) (fn : Nat → Nat × Flags) : State :=
  let per := 8 * s.vbytes / w
  (List.range k).foldl (fun t i =>
    let x := d + BitVec.ofNat 3 i
    let r := s.tileFrom (s.v x) w (i * per) (min per (s.elems - i * per)) m mz fn
    (t.setV x r.1).setFlags r.2) s

/-- VCVT (R238, R228, R229). Where both ranges reach past v7, the destination's is reported: the model's choice (log 65). -/
def execVcvt (f : VFields) (s : State) : Host.Outcome State Fault Refusal :=
  runInstr (.vcvt f) (do
    let dst := f.ty.toNat
    let src := f.imm8.toNat
    let kd := s.span dst
    let ks := s.span src
    let d := f.vd.toNat
    let a := f.va.toNat
    need (d + kd ≤ 8) 0x02 (evalOf (d + kd - 1 : Int))
    need (a + ks ≤ 8) 0x02 (evalOf (a + ks - 1 : Int))
    need ((kd = 1 && ks = 1) || d + kd ≤ a || a + ks ≤ d) 0x02 (Instr.vcvt f).p0
    let mode ← modeIf ((Fmt.isF src || Fmt.isF dst) && s.someSelected f.m s.elems) f.rnd (Instr.vcvt f).p0
    step1 (fun t => t.writeRange f.vd (elemBits dst) kd f.m f.mz (fun e =>
      convElem src dst mode f.sat (s.rangeElem f.va (elemBits src) e)))) s

/-- The instructions of R239. -/
def vElementaryOp (fn : Elementary) (f : VFields) (p0 : Word) : M (Option Word) :=
  let ty := f.ty.toNat
  let w := elemBits ty
  vElementwise f p0 true (fun s mode e => fn.elem ty mode f.sat (elemAt (s.v f.va) w e))

/-- VEXP2 (R239). -/
def execVexp2 (f : VFields) (s : State) : Host.Outcome State Fault Refusal :=
  runInstr (.vexp2 f) (vElementaryOp .exp2 f (Instr.vexp2 f).p0) s
/-- VLOG2 (R239). -/
def execVlog2 (f : VFields) (s : State) : Host.Outcome State Fault Refusal :=
  runInstr (.vlog2 f) (vElementaryOp .log2 f (Instr.vlog2 f).p0) s
/-- VRCP (R239). -/
def execVrcp (f : VFields) (s : State) : Host.Outcome State Fault Refusal :=
  runInstr (.vrcp f) (vElementaryOp .rcp f (Instr.vrcp f).p0) s
/-- VRSQ (R239). -/
def execVrsq (f : VFields) (s : State) : Host.Outcome State Fault Refusal :=
  runInstr (.vrsq f) (vElementaryOp .rsq f (Instr.vrsq f).p0) s
/-- VTANH (R239). -/
def execVtanh (f : VFields) (s : State) : Host.Outcome State Fault Refusal :=
  runInstr (.vtanh f) (vElementaryOp .tanh f (Instr.vtanh f).p0) s

/-! ### Compare and select (R240) -/

/-- Bits 0 to `n - 1` from a predicate, the others 0 (R226). -/
def maskOf (n : Nat) (p : Nat → Bool) : BitVec 2048 :=
  (List.range n).foldl (fun r e => if p e then r ||| (1#2048 <<< e) else r) 0

/-- VCMP (R240). -/
def execVcmp (f : VFields) (s : State) : Host.Outcome State Fault Refusal :=
  runInstr (.vcmp f) (do
    let ty := f.ty.toNat
    let w := elemBits ty
    let cond := (f.imm8.extractLsb' 1 3).toNat
    vCheck ty
    let at' (e : Nat) : Bool × Flags := cmpElem ty cond (elemAt (s.v f.va) w e) (s.operandB f w e)
    let flags := (List.range s.elems).foldl (fun fl e => fl.join (at' e).2) {}
    step1 (fun t => (t.setM f.m (maskOf s.elems (fun e => (at' e).1))).setFlags flags)) s

/-- VSEL (R240). -/
def execVsel (f : VFields) (s : State) : Host.Outcome State Fault Refusal :=
  runInstr (.vsel f) (do
    let w := elemBits f.ty.toNat
    vCheck f.ty.toNat
    let r := s.tileFrom (s.v f.vd) w 0 s.elems 0 false (fun e =>
      (elemAt (if (s.m f.m).getLsbD e then s.v f.va else s.v f.vb) w e, {}))
    step1 (fun t => t.setV f.vd r.1)) s

/-! ### Reductions and scans (R241) -/

/-- The operation of a code (R241). -/
def foldOp (n : Nat) : VOp :=
  if n = 0 then .add else if n = 1 then .min else if n = 2 then .max else if n = 3 then .and
  else if n = 4 then .or else .xor

/-- The sequences of an axis, as element indexes in their order (R241). -/
def sequences (axis rows cols : Nat) : List (List Nat) :=
  if axis = 0 then (List.range rows).map (fun i => (List.range cols).map (fun j => i * cols + j))
  else if axis = 1 then (List.range cols).map (fun j => (List.range rows).map (fun i => i * cols + j))
  else [List.range (rows * cols)]

/-- The bits of the identity (R241). -/
def identityOf (op : VOp) (ty : Nat) : Nat :=
  match op with
  | .min => if Fmt.isF ty then (floatFmt ty).pack (.inf false) else intBits ty (intMax ty)
  | .max => if Fmt.isF ty then (floatFmt ty).pack (.inf true) else intBits ty (intMin ty)
  | .and => 2 ^ elemBits ty - 1
  | _ => 0

/-- The fold of members, as it is written: F types left to right with the tail of Conv, integer sums exact with R189 at
the end (R241; log 25). -/
def foldSeq (op : VOp) (ty : Nat) (mode : Mode) (sat : Bool) : List Nat → Nat × Flags
  | [] => if Fmt.isF ty then tailElem ty sat (identityOf op ty) else (identityOf op ty, {})
  | x :: rest =>
    if Fmt.isF ty then
      let r := rest.foldl (fun (acc : Nat × Flags) b =>
        let t := op.elem ty mode sat acc.1 b
        (t.1, acc.2.join t.2)) (x, {})
      let t := tailElem ty sat r.1
      (t.1, r.2.join t.2)
    else if op = .add then intTail ty sat ((x :: rest).foldl (fun n b => n + intRead ty b) 0)
    else (rest.foldl (fun acc b => (op.elem ty mode false acc b).1) x, {})

/-- A fold of an instruction makes a rounding step: a floating-point add of two members (R233). -/
def foldRounds (op : VOp) (ty : Nat) (seqs : List (List Nat)) : Bool :=
  op.rounds ty && seqs.any (fun q => 2 ≤ q.length)

/-- Indexes and values written, with the flags (R227). -/
def writeElems (r : BitVec 16384) (w : Nat) (xs : List (Nat × Nat × Flags)) : BitVec 16384 × Flags :=
  xs.foldl (fun r x => (setElem r.1 w x.1 x.2.1, r.2.join x.2.2)) (r, {})

/-- VRED (R241). -/
def execVred (f : VFields) (s : State) : Host.Outcome State Fault Refusal :=
  runInstr (.vred f) (do
    let ty := f.ty.toNat
    let w := elemBits ty
    let op := foldOp (f.imm8.extractLsb' 2 3).toNat
    vCheck ty
    let seqs := (sequences (f.imm8.extractLsb' 0 2).toNat s.rows s.cols).map (fun q => q.filter (s.selected f.m))
    let mode ← modeIf (foldRounds op ty seqs) f.rnd (Instr.vred f).p0
    let xs := seqs.map (fun q => foldSeq op ty mode f.sat (q.map (elemAt (s.v f.va) w)))
    let r := writeElems (s.v f.vd) w ((List.range xs.length).zip xs)
    step1 (fun t => (t.setV f.vd r.1).setFlags r.2)) s

/-- The members of a sequence up to and including each of them. -/
def prefixes (q : List Nat) : List (Nat × List Nat) :=
  (List.range q.length).filterMap (fun i => (q[i]?).map (fun e => (e, q.take (i + 1))))

/-- VSCAN (R241). -/
def execVscan (f : VFields) (s : State) : Host.Outcome State Fault Refusal :=
  runInstr (.vscan f) (do
    let ty := f.ty.toNat
    let w := elemBits ty
    let op := foldOp (f.imm8.extractLsb' 2 3).toNat
    vCheck ty
    let seqs := (sequences (f.imm8.extractLsb' 0 2).toNat s.rows s.cols).map (fun q => q.filter (s.selected f.m))
    let mode ← modeIf (foldRounds op ty seqs) f.rnd (Instr.vscan f).p0
    let old := (s.tileFrom (s.v f.vd) w 0 s.elems f.m f.mz (fun _ => (0, {}))).1
    let xs := (seqs.flatMap prefixes).map (fun p => (p.1, foldSeq op ty mode f.sat (p.2.map (elemAt (s.v f.va) w))))
    let r := writeElems old w xs
    step1 (fun t => (t.setV f.vd r.1).setFlags r.2)) s

/-! ### Rearrangement (R242) -/

/-- VTRANS (R242). -/
def execVtrans (f : VFields) (s : State) : Host.Outcome State Fault Refusal :=
  runInstr (.vtrans f) (vMove f (fun s w t => elemAt (s.v f.va) w (t % s.rows * s.cols + t / s.rows))) s

/-- VBCAST (R242). -/
def execVbcast (f : VFields) (s : State) : Host.Outcome State Fault Refusal :=
  runInstr (.vbcast f) (vMove f (fun s w e =>
    if f.imm8 = 0 then (s.g f.g).toNat % 2 ^ w
    else if f.imm8 = 1 then elemAt (s.v f.va) w (e % s.cols)
    else elemAt (s.v f.va) w (e / s.cols * s.cols))) s

/-- VSHUF (R242): two index bytes an element, so at most half as many elements as a register has bytes (R159). -/
def execVshuf (f : VFields) (s : State) : Host.Outcome State Fault Refusal :=
  runInstr (.vshuf f) (do
    vCheck f.ty.toNat
    needOpen (2 * s.elems ≤ s.vbytes) 0x02
    vMove f (fun s w e =>
      let k := elemAt (s.v f.vb) 16 e
      if k < s.elems then elemAt (s.v f.va) w k else 0)) s

/-- VROT (R242): element (i, j) comes from `a` places before it along the axis. -/
def execVrot (f : VFields) (s : State) : Host.Outcome State Fault Refusal :=
  runInstr (.vrot f) (vMove f (fun s w e =>
    let a := (s.g f.g).toNat
    let i := e / s.cols
    let j := e % s.cols
    if f.imm8 = 0 then elemAt (s.v f.va) w (i * s.cols + (j + s.cols - a % s.cols) % s.cols)
    else elemAt (s.v f.va) w ((i + s.rows - a % s.rows) % s.rows * s.cols + j))) s

/-! ### One element (R243) -/

/-- The index operand gX + off, within the tile (R243). -/
def vIndex (f : VFields) : M Nat := do
  let s ← get
  let e := ((s.g (8 + f.vc.setWidth 5)).extractLsb' 0 32).toInt + f.imm8.toNat
  need (0 ≤ e && e < s.elems) 0x02 (evalOf e)
  pure e.toNat

/-- VINS (R243). -/
def execVins (f : VFields) (s : State) : Host.Outcome State Fault Refusal :=
  runInstr (.vins f) (do
    vCheck f.ty.toNat
    let e ← vIndex f
    step1 (fun t => t.setV f.vd (setElem (t.v f.vd) (elemBits f.ty.toNat) e (t.g f.g).toNat))) s

/-- An element's bits in a general register: sign-extended for S types, else zero-extended (R243). -/
def extendElem (ty x : Nat) : Word :=
  if Fmt.isI ty && !isUnsigned ty then BitVec.ofInt 64 (intRead ty x) else BitVec.ofNat 64 x

/-- VEXT (R243). -/
def execVext (f : VFields) (s : State) : Host.Outcome State Fault Refusal :=
  runInstr (.vext f) (do
    vCheck f.ty.toNat
    let e ← vIndex f
    step1 (fun t => t.setG f.g (extendElem f.ty.toNat (elemAt (t.v f.va) (elemBits f.ty.toNat) e)))) s

/-! ### Masks (R244) -/

/-- The mask a register field names (R231). -/
def maskName (r : BitVec 3) : BitVec 2 := r.setWidth 2
/-- VMAND, VMOR and VMNOT: bits below N, the others cleared (R226, R244). -/
def vMaskOp (f : VFields) (fn : BitVec 2048 → BitVec 2048 → BitVec 2048) : M (Option Word) :=
  step1 (fun s => s.setM (maskName f.vd)
    (fn (s.m (maskName f.va)) (s.m (maskName f.vb)) &&& BitVec.ofNat 2048 (2 ^ s.elems - 1)))

/-- VMAND (R244). -/
def execVmand (f : VFields) (s : State) : Host.Outcome State Fault Refusal := runInstr (.vmand f) (vMaskOp f (· &&& ·)) s
/-- VMOR (R244). -/
def execVmor (f : VFields) (s : State) : Host.Outcome State Fault Refusal := runInstr (.vmor f) (vMaskOp f (· ||| ·)) s
/-- VMNOT (R244). -/
def execVmnot (f : VFields) (s : State) : Host.Outcome State Fault Refusal := runInstr (.vmnot f) (vMaskOp f (fun a _ => ~~~a)) s
/-- VMPOP (R244). -/
def execVmpop (f : VFields) (s : State) : Host.Outcome State Fault Refusal :=
  runInstr (.vmpop f) (step1 (fun s =>
    s.setG f.g (BitVec.ofNat 64 ((List.range s.elems).countP (fun e => (s.m (maskName f.va)).getLsbD e))))) s

/-! ### Bit planes (R245, R246) -/

/-- BPI elements 0 to N − 1 of a register from their stored bytes (R222). -/
def State.tileBpi (s : State) (old : BitVec 16384) (p : Nat) (fn : Nat → Nat) : BitVec 16384 :=
  (List.range s.elems).foldl (fun r e => setBpi r p e (fn e)) old

/-- The value of BPI element `e` at `p` planes (R184). -/
def bpiElem (r : BitVec 16384) (p e : Nat) : Int := bpiValue p (BitVec.ofNat 8 (bpiAt r e)).toInt

/-- VPLANES (R245). -/
def execVplanes (f : VFields) (s : State) : Host.Outcome State Fault Refusal :=
  runInstr (.vplanes f) (do
    vCheck f.ty.toNat
    step1 (fun t => t.setV f.vd (t.tileBpi (t.v f.vd) (Fmt.planes f.ty.toNat) (elemAt (t.v f.va) 8)))) s

/-- VUNPLANE (R245). -/
def execVunplane (f : VFields) (s : State) : Host.Outcome State Fault Refusal :=
  runInstr (.vunplane f) (do
    vCheck f.ty.toNat
    let r := s.tileFrom (s.v f.vd) 8 0 s.elems 0 false (fun e =>
      ((BitVec.ofInt 8 (bpiElem (s.v f.va) (Fmt.planes f.ty.toNat) e)).toNat, {}))
    step1 (fun t => t.setV f.vd r.1)) s

/-- VBARQ on F and I types (R246). -/
def barqPlain (f : VFields) : M (Option Word) := do
  let s ← get
  let ty := f.ty.toNat
  let w := elemBits ty
  let k := (f.imm8.extractLsb' 0 3).toNat
  let a (e : Nat) : Nat := elemAt (s.v f.va) w e
  let b (e : Nat) : Nat := elemAt (s.v f.vb) w e
  let rounds := (List.range s.elems).any (fun e => s.selected f.m e && barqRounds ty k (a e) (b e))
  let mode ← modeIf rounds f.rnd (Instr.vbarq f).p0
  let r := s.tileFrom (s.v f.vd) w 0 s.elems f.m f.mz (fun e => barqElem ty k mode f.sat (a e) (b e))
  step1 (fun t => (t.setV f.vd r.1).setFlags r.2)

/-- VBARQ on BPI types (R246); the side taken where the mode names none is free (log 24). -/
def barqPlanes (f : VFields) : M (Option Word) := do
  let s ← get
  let p := Fmt.planes f.ty.toNat
  let k := (f.imm8.extractLsb' 0 3).toNat
  let a (e : Nat) : Int := bpiElem (s.v f.va) p e
  let b (e : Nat) : Int := bpiElem (s.v f.vb) p e
  let mode ← modeIf ((List.range s.elems).any (fun e => barqBpiRounds p k (a e) (b e))) f.rnd (Instr.vbarq f).p0
  let q (e : Nat) : Nat × Flags := barqBpi p k mode (Config.freeSide p k mode.code (a e).natAbs) (a e) (b e)
  let flags := (List.range s.elems).foldl (fun fl e => fl.join (q e).2) {}
  step1 (fun t => (t.setV f.vd (t.tileBpi (t.v f.vd) p (fun e => (q e).1))).setFlags flags)

/-- VBARQ (R246). -/
def execVbarq (f : VFields) (s : State) : Host.Outcome State Fault Refusal :=
  runInstr (.vbarq f) (do
    vCheck f.ty.toNat
    if Fmt.isBpi f.ty.toNat then barqPlanes f else barqPlain f) s

end Sys2Proof.Machine
end

