-- ==== Sys2Proof/Machine/Matrix.lean ====
section
/-! DEFINITION. The matrix unit (R253 to R273, R275 to R280, R401): weight fetches, expansion into the banks, gangs and
the quoin, exact accumulation, the galley. -/

namespace Sys2Proof.Machine

/-! ### The unit of a core -/

/-- The matrix unit of a core. -/
def State.mxAt (s : State) (core : Nat) : Matrix := (s.coreAt core).u.mx
/-- Sets the matrix unit of a core. -/
def State.setMxAt (s : State) (core : Nat) (x : Matrix) : State :=
  s.setCoreAt core { s.coreAt core with u := { (s.coreAt core).u with mx := x } }
/-- The matrix unit of the issuing agent's core. -/
def State.mx (s : State) : Matrix := s.mxAt s.coreNo
/-- Sets it. -/
def State.setMx (s : State) (x : Matrix) : State := s.setMxAt s.coreNo x

/-- The width of a tile at `p` planes (R253). -/
def tileWidth (p : Nat) : Nat := if p = 2 then 128 else if p ≤ 4 then 64 else 32
/-- A weight-buffer unit. -/
def Matrix.unit (x : Matrix) (u : Nat) : WUnit := Sparse.get WUnit.reset x.buf u
/-- Sets a weight-buffer unit. -/
def Matrix.setUnit (x : Matrix) (u : Nat) (w : WUnit) : Matrix := { x with buf := Sparse.put WUnit.reset x.buf u w }
/-- A stationary bank. -/
def Matrix.bankAt (x : Matrix) (b : Bool) : Bank := if b then x.bank1 else x.bank0
/-- Sets a stationary bank. -/
def Matrix.setBank (x : Matrix) (b : Bool) (k : Bank) : Matrix :=
  if b then { x with bank1 := k } else { x with bank0 := k }

/-- A matrix instruction of a run in an express area traps (R272). -/
def noExpress (p0 : Word) : M Unit := do
  let s ← get
  need (match s.runOn s.coreNo with | some r => r.express.isNone | none => true) 0x0D p0
/-- A full queue stalls (R259). -/
def queueRoom (ok : Bool) : M Unit := if ok then pure () else throw .stall

/-- Two ranges of units overlap. -/
def unitsMeet (a n b m : Nat) : Bool := a < b + m && b < a + n
/-- The units a fetch writes. -/
def FetchOp.units (f : FetchOp) : Nat × Nat := (f.unit, if f.raw then f.count else f.count * f.p)
/-- The ranges of units a load reads (R257, R276). -/
def LoadOp.ranges (l : LoadOp) : List (Nat × Nat) :=
  (l.u, (if l.sparse then 16 else 32) * l.p) :: (match l.exp with | some x => [(x, 4)] | none => [])
    ++ (if l.sparse then [(l.mask, 32)] else [])
/-- A load reads units of a fetch. -/
def LoadOp.reads (l : LoadOp) (f : FetchOp) : Bool := l.ranges.any (fun r => unitsMeet r.1 r.2 f.units.1 f.units.2)

/-- The waits of a load (R259). -/
def Matrix.loadWaits (x : Matrix) (l : LoadOp) : Bool :=
  x.fetches.any (fun f => f.seq < l.seq && l.reads f) || x.streams.any (fun t => t.seq < l.seq && t.bank == l.bank)
    || x.loads.any (fun k => k.seq < l.seq && k.bank == l.bank)
/-- The waits of a fetch (R259). -/
def Matrix.fetchWaits (x : Matrix) (f : FetchOp) : Bool :=
  x.loads.any (fun l => l.seq < f.seq && l.reads f)
    || x.fetches.any (fun g => g.seq < f.seq && unitsMeet g.units.1 g.units.2 f.units.1 f.units.2)
/-- The waits of a stream (R259). -/
def Matrix.streamWaits (x : Matrix) (t : StreamOp) : Bool := x.loads.any (fun l => l.seq < t.seq && l.bank == t.bank)

/-! ### MWFETCH (R254 to R256, R275) -/

/-- The page of an address lies in a weight store, whatever service allows of it (R273). -/
def State.weightMapped (s : State) (a : Agent) (va : Nat) : Bool :=
  let full := { s with dev := { s.dev with stage := 5 } }
  match full.xlate a va .read with
  | .ok pa _ _ => isWeightStore pa
  | _ => false

/-- The tags a fetch writes when it issues (R254). -/
def Matrix.tagUnits (x : Matrix) (f : FetchOp) : Matrix :=
  (List.range f.units.2).foldl (fun x i =>
    let u := f.unit + i
    x.setUnit u { x.unit u with tag := if f.raw then .raw else .plane f.p (i % f.p) }) x

/-- A fetch enters its queue (R259). -/
def enqueueFetch (f : FetchOp) : M (Option Word) := do
  let x := (← get).mx
  queueRoom (x.fetches.length < 8)
  step1 (fun s =>
    let x := s.mx
    let f := { f with seq := x.seq, strict := s.strict }
    let y := { x with seq := x.seq + 1, fetches := x.fetches ++ [f] }
    s.setMx (y.tagUnits f))

/-- MWFETCH (R275). -/
def execMwfetch (f : MQFields) (s : State) : Host.Outcome State Fault Refusal :=
  runInstr (.mwfetch f) (do
    noExpress (Instr.mwfetch f).p0
    let imm : Word := f.imm.setWidth 64
    let c := s.c f.c
    let fmt := c.fmt.toNat
    let u := (f.imm.extractLsb' 0 12).toNat
    let count := (f.imm.extractLsb' 12 12).toNat
    need (f.sub.toNat ≤ 1 && count ≠ 0) 0x02 imm
    let op : FetchOp :=
      { seq := 0, slot := BitVec.ofNat 2 s.slot, cap := c, raw := f.sub = 1, p := Fmt.planes fmt, i0 := 0, i1 := 0,
        unit := u, count := count, done := 0, strict := false, wait := none }
    if f.sub = 0 then do
      need (Fmt.isBpi fmt) 0x0E (c.fmt.setWidth 64)
      let i0 := (s.g f.d).toInt
      let i1 := (s.g f.x).toInt
      need (i0 % 256 = 0) 0x18 (s.g f.d)
      need (u + count * Fmt.planes fmt ≤ 4096) 0x02 imm
      capCheck c .W i0 i1
      capCheck c .W (i0 + 255) (i1 + count - 1)
      needOpen (!s.reduced || !(List.range count).any (fun r => s.weightMapped s.cur (c.addr i0 (i1 + r)).toNat)) 0x0D
      enqueueFetch { op with i0 := i0, i1 := i1 }
    else do
      need (fmt = Fmt.byte) 0x0E (c.fmt.setWidth 64)
      let i0 := (s.g f.x).toInt
      need (i0 % 32 = 0) 0x18 (s.g f.x)
      need (u + count ≤ 4096) 0x02 imm
      capCheck c .W i0 0
      capCheck c .W (i0 + 32 * count - 1) 0
      needOpen (!s.reduced || !(List.range count).any (fun r =>
        let va := (c.addr (i0 + 32 * r) 0).toNat
        s.weightMapped s.cur va || s.weightMapped s.cur (va + 31))) 0x0D
      enqueueFetch { op with i0 := i0 }) s

/-- The address of unit number `i` of a fetch (R255). -/
def FetchOp.address (f : FetchOp) (i : Nat) : Int :=
  if f.raw then f.cap.addr (f.i0 + 32 * i) 0 else f.cap.addr f.i0 (f.i1 + (i / f.p : Nat)) + 32 * (i % f.p : Nat)

/-- A part of a unit on one page: its address, place, bytes and leaf. -/
structure UnitPart where
  va : Nat
  pa : Nat
  n : Nat
  entry : Option TlbEntry
  deriving DecidableEq, Repr
/-- What the fetch engine finds at a unit's address (R256). -/
inductive UnitRead where
  | data (parts : List UnitPart) (cause : BitVec 8)
  | fault (cause : BitVec 8) (note : Note)
  | wait (va : Nat) (mig : Bool)
  /-- A link on the way retrains, or the bank's refresh window lasts (R285, R103). -/
  | held (pa : Nat)

/-- The read of `n` bytes of a unit on one page (R256). -/
def State.unitPart (s : State) (core : Nat) (f : FetchOp) (va n : Nat) : UnitRead :=
  let a := Agent.ctx core f.slot.toNat
  match s.xlate a va .read with
  | .fault c t => .fault c (.translation va t)
  | .absent => .wait va false
  | .migrating => .wait va true
  | .ok pa _ e =>
    if f.strict && isDram pa then .fault 0x0D .none
    else if s.pathHeld a pa || s.refreshLeft pa ≠ 0 then .held pa
    else if s.refused a (s.runOf a) pa .read then .fault 0x12 .securityEvent
    else .data [{ va := va, pa := pa, n := n, entry := e }] (if s.poisonAt pa || s.poisonAt (pa + n - 1) then 0x22 else 0)

/-- The read of one unit (R256): all its bytes lie in the region of BASE (R14), on one page or on two. -/
def State.readUnit (s : State) (core : Nat) (f : FetchOp) (i : Nat) : UnitRead :=
  let va := f.address i
  let own (x : Int) : Bool := 0 ≤ x && decide (x < 2 ^ 48) && region x.toNat = region f.cap.base.toNat
  if !own va || !own (va + 31) then .fault 0x0D .none
  else
    let n := min 32 (2 ^ 16 - va.toNat % 2 ^ 16)
    match s.unitPart core f va.toNat n with
    | .data ps c =>
      if n = 32 then .data ps c
      else
        match s.unitPart core f (va.toNat + n) (32 - n) with
        | .data qs d => .data (ps ++ qs) (if c = 0 then d else c)
        | r => r
    | r => r

/-- A unit filled, its cause with it. -/
def Matrix.fillUnit (x : Matrix) (u : Nat) (cause : BitVec 8) (data : BitVec 256) : Matrix :=
  x.setUnit u { x.unit u with cause := cause, data := data }
/-- A unit of a core filled. -/
def State.fillUnit (s : State) (core u : Nat) (cause : BitVec 8) (data : BitVec 256) : State :=
  s.setMxAt core ((s.mxAt core).fillUnit u cause data)
/-- What the read of a unit's parts leaves: the walks, the leaves, the slices. -/
def State.readParts (s : State) (a : Agent) (ps : List UnitPart) : State :=
  ps.foldl (fun s p => ((s.translated a p.va p.entry).touch p.pa .read false).asksBytes a p.pa p.n) s

/-- Units of a fetch read from number `i` until one waits: the units done, the request waited for, and the state. -/
def State.readUnits (s : State) (core : Nat) (f : FetchOp) : Nat → Nat → Nat × Option Nat × State
  | 0, i => (i, none, s)
  | k + 1, i =>
    let a := Agent.ctx core f.slot.toNat
    match s.readUnit core f i with
    | .wait va mig =>
      let r := (s.walked a va).awaitPage a va mig
      (i, some r.1, r.2)
    | .held pa => (i, none, s.refreshStall core pa)
    | .fault c n => State.readUnits ((s.asAgent a (fun t => t.noted n)).fillUnit core (f.unit + i) c 0) core f k (i + 1)
    | .data ps c =>
      let data := BitVec.ofNat 256 (leNat (ps.flatMap (fun p => s.bytesAt p.pa p.n)))
      State.readUnits ((s.readParts a ps).fillUnit core (f.unit + i) c data) core f k (i + 1)

/-- A fetch as far as it gets: it leaves its queue when every unit is filled, and its core may then have arrived (R272). -/
def State.runFetch (s : State) (core : Nat) (f : FetchOp) : State :=
  let r := s.readUnits core f (f.units.2 - f.done) f.done
  let t := r.2.2
  let x := t.mxAt core
  if r.1 = f.units.2 then (t.setMxAt core { x with fetches := x.fetches.filter (fun g => g.seq != f.seq) }).checkArrival core
  else t.setMxAt core { x with fetches := x.fetches.map (fun g => if g.seq = f.seq then { g with done := r.1, wait := r.2.1 } else g) }

/-- WEIGHT_FETCH_READ (R256): every queued MWFETCH that waits for no other goes as far as its pages allow. At a core's
boundary queued fetches stay queued (R340). -/
def execWeightFetchRead (core : Nat) (s : State) : Host.Outcome State Fault Refusal :=
  if (s.coreAt core).halted then .next s
  else
    .next ((s.mxAt core).fetches.foldl (fun s f =>
      if (s.mxAt core).fetchWaits f then s else s.runFetch core f) s)

/-- A page request answered with failure: the units that the fetches waiting for it have still to fill get cause 0x10
(R256). -/
def Matrix.failFetches (x : Matrix) (epoch : Nat) : Matrix :=
  x.fetches.foldl (fun x f =>
    if f.wait = some epoch then
      let x := (List.range (f.units.2 - f.done)).foldl (fun x i => x.fillUnit (f.unit + f.done + i) 0x10 0) x
      { x with fetches := x.fetches.filter (fun g => g.seq != f.seq) }
    else x) x
/-- The same on a core, which may then have arrived (R272). -/
def State.failFetches (s : State) (core epoch : Nat) : State :=
  if (s.mxAt core).fetches.any (fun f => f.wait == some epoch) then
    (s.setMxAt core ((s.mxAt core).failFetches epoch)).checkArrival core
  else s

/-! ### MWLOAD (R257, R276) -/

/-- The value at `p` planes of bit `col` of units `b` to `b + p - 1` (R257, R184). -/
def Matrix.weight (x : Matrix) (p b col : Nat) : Int :=
  bpiValue p (BitVec.ofNat 8 (planesByte ((List.range p).map (fun k => (x.unit (b + k)).data.getLsbD col)) 128)).toInt
/-- Nibble number `i` of the units from `u`, low nibble first. -/
def Matrix.nibble (x : Matrix) (u i : Nat) : BitVec 4 := (x.unit (u + i / 64)).data.extractLsb' (4 * (i % 64)) 4
/-- Bits set in a nibble below bit `k`. -/
def onesBelow (q : BitVec 4) (k : Nat) : Nat := (List.range k).countP (fun i => q.getLsbD i)

/-- Weight (k, n) of a tile, or the nibble that has more than two bits (R257). -/
def Matrix.weightAt (x : Matrix) (l : LoadOp) (k n : Nat) : Except (BitVec 4) Int :=
  let col := l.j * tileWidth l.p + n
  if !l.sparse then .ok (x.weight l.p (l.u + k * l.p) col)
  else
    let q := x.nibble l.mask (k / 4 * 256 + col)
    if 2 < onesBelow q 4 then .error q
    else if !q.getLsbD (k % 4) then .ok 0
    else .ok (x.weight l.p (l.u + l.p * (2 * (k / 4) + if onesBelow q (k % 4) = 0 then 0 else 1)) col)

/-- The largest cause of the units a load reads (R257). -/
def Matrix.worstCause (x : Matrix) (l : LoadOp) : BitVec 8 :=
  l.ranges.foldl (fun m r => (List.range r.2).foldl (fun m i =>
    if m.toNat < (x.unit (r.1 + i)).cause.toNat then (x.unit (r.1 + i)).cause else m) m) 0

/-- Pairs whose value is not 0, in the order of their keys. -/
def nonZero (xs : List (Nat × Int)) : Sparse Int := xs.filter (fun p => p.2 != 0)

/-- R257: the bank a load fills, or the nibble it traps on. -/
def Matrix.expand (x : Matrix) (l : LoadOp) : Except (BitVec 4) Bank := do
  let n := tileWidth l.p
  let ws ← (List.range (32 * n)).mapM (fun i => do
    let w ← x.weightAt l (i / n) (i % n)
    pure (128 * (i / n) + i % n, w))
  let es := match l.exp with
    | some u => (List.range n).map (fun i => (i, (x.nibble u (l.j * n + i)).toInt))
    | none => []
  pure { loaded := true, p := l.p, n := n, cause := x.worstCause l, w := nonZero ws, e := nonZero es }

/-- The checks of R276 at issue, but for the queue: the load as it would be queued. -/
def loadChecks (f : MQFields) : M LoadOp := do
  let s ← get
  let imm : Word := f.imm.setWidth 64
  let x := s.mx
  let withExp := f.sub.getLsbD 0
  let sparse := f.sub.getLsbD 1
  let u := (f.imm.extractLsb' 0 12).toNat
  let j := (f.imm.extractLsb' 12 3).toNat
  let mask := (f.imm.extractLsb' 16 12).toNat
  need (!f.sub.getLsbD 2 && f.d = 0 && f.c = 0 && !f.imm.getLsbD 15 && f.imm.extractLsb' 28 4 = 0
    && (sparse || mask = 0) && (!withExp || (s.g f.x).extractLsb' 12 52 = 0)) 0x02 imm
  match (x.unit u).tag with
  | .plane p 0 => do
    let e := ((s.g f.x).extractLsb' 0 12).toNat
    let vals := (if sparse then 16 else 32) * p
    need (j < 256 / tileWidth p && u + vals ≤ 4096 && (!withExp || e + 4 ≤ 4096) && (!sparse || mask + 32 ≤ 4096)) 0x02 imm
    let bad := ((List.range vals).filter (fun i => (x.unit (u + i)).tag ≠ .plane p (i % p))).map (u + ·)
      ++ (if withExp then ((List.range 4).map (e + ·)).filter (fun i => (x.unit i).tag ≠ .raw) else [])
      ++ (if sparse then ((List.range 32).map (mask + ·)).filter (fun i => (x.unit i).tag ≠ .raw) else [])
    need bad.isEmpty 0x0E (BitVec.ofNat 64 (bad.headD 0))
    need (!s.reduced || p = 8) 0x0E (BitVec.ofNat 64 (0x10 + p))
    pure { seq := x.seq, slot := BitVec.ofNat 2 s.slot, p := p, u := u, j := j, sparse := sparse, mask := mask,
           exp := if withExp then some e else none, bank := !x.sel }
  | _ => trap 0x0E (BitVec.ofNat 64 u)

/-- MWLOAD (R276): it expands at once when nothing stands before it, else its context stalls until it has (R259). -/
def execMwload (f : MQFields) (s : State) : Host.Outcome State Fault Refusal :=
  runInstr (.mwload f) (do
    noExpress (Instr.mwload f).p0
    let l ← loadChecks f
    queueRoom (s.mx.loads.length < 4)
    if s.mx.loadWaits l then do
      modify (fun t => (t.setMx { t.mx with seq := t.mx.seq + 1, loads := t.mx.loads ++ [l] }).setCtx
        { t.ctx with loading := true })
      pure (some s.pc)
    else
      match s.mx.expand l with
      | .ok b => step1 (fun t =>
        let x := { t.mx with seq := t.mx.seq + 1 }
        t.setMx (x.setBank l.bank b))
      | .error q => trap 0x0E (q.setWidth 64)) s

/-- The end of a queued expansion: the context goes on, or takes the trap of a mask nibble (R276). -/
def State.endLoad (s : State) (core : Nat) (l : LoadOp) : State :=
  let x := s.mxAt core
  let rest := { x with loads := x.loads.filter (fun k => k.seq != l.seq) }
  let a := Agent.ctx core l.slot.toNat
  let s := s.setCtxOf a { s.ctxOf a with loading := false }
  let s := match x.expand l with
    | .ok b =>
      let s := s.setMxAt core (rest.setBank l.bank b)
      s.setCtxOf a { s.ctxOf a with pc := seqPc (s.ctxOf a).pc 2 }
    | .error q => (s.setMxAt core rest).asAgent a (fun t => t.takeTrap 0x0E (q.setWidth 64) 0)
  s.checkArrival core

/-- MWLOAD_EXPANSION (R257, R259): the first queued load whose waits are over. -/
def execMwloadExpansion (core : Nat) (s : State) : Host.Outcome State Fault Refusal :=
  let x := s.mxAt core
  match x.loads.find? (fun l => !x.loadWaits l) with
  | some l => if (s.coreAt core).halted then .next s else .next (s.endLoad core l)
  | none => .next s

/-! ### MWSWAP, MGWAIT, MGADV, MGREAD -/

/-- MWSWAP (R277). -/
def execMwswap (f : MQFields) (s : State) : Host.Outcome State Fault Refusal :=
  runInstr (.mwswap f) (do
    noExpress (Instr.mwswap f).p0
    step1 (fun t => t.setMx { t.mx with sel := !t.mx.sel })) s

/-- MGWAIT (R278): a stall until enough tiles are complete. -/
def execMgwait (f : MQFields) (s : State) : Host.Outcome State Fault Refusal :=
  runInstr (.mgwait f) (do
    noExpress (Instr.mgwait f).p0
    queueRoom (f.sub.toNat + 1 ≤ s.mx.galley.tiles)
    step1 (fun t => t.setG f.d t.mx.galley.word)) s

/-- The oldest `k` completed slots become free (R264). -/
def Galley.advance (g : Galley) (k : Nat) : Galley :=
  { g with tail := (g.tail + k) % slotsOf g.n, tiles := g.tiles - k }

/-- MGADV (R278). -/
def execMgadv (f : MQFields) (s : State) : Host.Outcome State Fault Refusal :=
  runInstr (.mgadv f) (do
    noExpress (Instr.mgadv f).p0
    needOpen (f.sub.toNat + 1 ≤ s.mx.galley.tiles) 0x02
    step1 (fun t => t.setMx { t.mx with galley := t.mx.galley.advance (f.sub.toNat + 1) })) s

/-- Slot number `k` counted from the tail, as an index. -/
def Galley.slotFrom (g : Galley) (k : Nat) : Nat := (g.tail + k) % slotsOf g.n
/-- What a slot latched (R264). -/
def Galley.latched (g : Galley) (i : Nat) : GalleySlot := g.slots[i % 8]'(by omega)
/-- An accumulator (R262). -/
def Galley.get (g : Galley) (slot row col : Nat) : Int := Sparse.get 0 g.acc ((slot * 32 + row) * 128 + col)

/-- Conv of an exact accumulator (R279): a floating-point format by the tail of Conv, an integer by R189 after rounding
(log 26). -/
def convAcc (acc : Int) (scale : Int) (fmt : Nat) (mode : Mode) (sat : Bool) : Nat × Flags :=
  if Fmt.isF fmt then floatTail fmt mode sat (if acc = 0 then .zero false else .num (acc < 0) acc.natAbs scale false)
  else
    let r := roundInt mode (acc < 0) acc.natAbs scale false
    let t := intTail fmt sat r.1
    (t.1, t.2.join { nx := r.2 })
/-- The conversion may round: the format holds fewer bits than an accumulator (R233). -/
def accFormat (fmt : Nat) : Bool :=
  (1 ≤ fmt && fmt ≤ 6) || fmt = 0x09 || fmt = 0x0A || fmt = 0x0B || fmt = 0x0D || fmt = 0x0E

/-- MGREAD (R279). -/
def execMgread (f : MQFields) (s : State) : Host.Outcome State Fault Refusal :=
  runInstr (.mgread f) (do
    noExpress (Instr.mgread f).p0
    let g := s.mx.galley
    let gx := s.g f.x
    let b := (gx.extractLsb' 0 8).toNat
    let q := (gx.extractLsb' 8 8).toNat
    let rw := if isEngine s.cur then 8 else 32
    let fmt := (f.imm.extractLsb' 0 6).toNat
    let sat := f.imm.getLsbD 9
    let off := f.sub.toNat
    need (off < g.tiles && b < g.n / 32 && q < 32 / rw && gx.extractLsb' 16 48 = 0 && accFormat fmt
      && f.imm.extractLsb' 10 6 = 0 && f.imm.extractLsb' 24 8 = 0) 0x02 gx
    let d := f.d.toNat
    let w := elemBits fmt
    need (!(w = 32 && d = 7)) 0x02 (f.d.setWidth 64)
    let mode ← modeOf (f.imm.extractLsb' 6 3).toNat (Instr.mgread f).p0
    let slot := g.slotFrom off
    let scale := (f.imm.extractLsb' 16 8).toInt - (g.latched slot).p
    let cell (e : Nat) : Nat × Flags := convAcc (g.get slot (q * rw + e / 32) (32 * b + e % 32)) scale fmt mode sat
    let per := 8 * s.vbytes / w
    let n := 32 * rw
    step1 (fun t => (List.range ((n + per - 1) / per)).foldl (fun t i =>
      let v : BitVec 3 := f.d.setWidth 3 + BitVec.ofNat 3 i
      let r := t.tileFrom (t.v v) w (i * per) (min per (n - i * per)) 0 false cell
      (t.setV v r.1).setFlags r.2) t)) s

/-! ### MSTREAM (R280) -/

/-- Gang sizes by code (R280). -/
def gangSize (code : BitVec 5) : Nat := [1, 2, 3, 4, 6, 8, 12, 24].getD code.toNat 1
/-- Rows of a stream: 0 encodes 4,096 (R280). -/
def GFields.rowCount (f : GFields) : Nat := if f.rows = 0 then 4096 else f.rows.toNat
/-- The width a bank will have: of the latest load issued into it, else of the tile it holds (R264). -/
def Matrix.bankWidth (x : Matrix) (b : Bool) : Option Nat :=
  match (x.loads.filter (fun l => l.bank == b)).getLast? with
  | some l => some (tileWidth l.p)
  | none => if (x.bankAt b).loaded then some (x.bankAt b).n else none

/-- MSTREAM (R280): the checks at issue, then its place in the queue. -/
def execMstream (f : GFields) (s : State) : Host.Outcome State Fault Refusal :=
  runInstr (.mstream f) (do
    let p0 := (Instr.mstream f).p0
    let slot := (s.g f.sel).toNat + f.slot.toNat
    let rows := GFields.rowCount f
    let x := s.mx
    needOpen (slot < 256) 0x02
    need (!f.acc || (match x.bankWidth x.sel with
      | some n => decide ((rows + 31) / 32 ≤ slotsOf n)
      | none => true)) 0x02 (BitVec.ofNat 64 rows)
    needOpen (!s.reduced || f.fmt = 1) 0x0E
    noExpress p0
    queueRoom (x.streams.length < 4)
    let op : StreamOp :=
      { seq := x.seq, slot := BitVec.ofNat 2 s.slot, f := f, cap := s.c f.c, first := (s.g f.x).toInt,
        bslot := BitVec.ofNat 8 slot, bank := x.sel, row := 0, started := false }
    step1 (fun t => t.setMx { t.mx with seq := t.mx.seq + 1, streams := t.mx.streams ++ [op] })) s

/-! ### Gangs (R260 to R268) -/

/-- The cores of the gang of size `g` a core belongs to (R260). -/
def gangOf (g core : Nat) : List Nat :=
  let first := core - core % 24 % g
  (List.range g).map (fun i => first + i)
/-- The stream at the head of a core's queue, when it has joined: nothing it waits for stands before it (R259, R261). -/
def State.headStream (s : State) (core : Nat) : Option StreamOp :=
  let x := s.mxAt core
  match x.streams with
  | t :: _ => if x.streamWaits t then none else some t
  | [] => none
/-- A member of a gang with its head stream. -/
abbrev Member := Nat × StreamOp
/-- The members of a gang, once every core has a head stream. -/
def State.joined (s : State) (cores : List Nat) : Option (List Member) :=
  allSome (cores.map (fun k => (s.headStream k).map (fun t => (k, t))))

/-- A stream leaves its queue. -/
def State.dropStream (s : State) (m : Member) : State :=
  let x := s.mxAt m.1
  s.setMxAt m.1 { x with streams := x.streams.filter (fun t => t.seq != m.2.seq) }
/-- A stream ends in error phase on its members (R261, R268), whose cores may then have arrived (R272). -/
def State.failStreams (s : State) (ms : List Member) (code : BitVec 8) : State :=
  ms.foldl (fun s m => ((s.dropStream m).completeBarrier m.1 m.2.bslot.toNat code).checkArrival m.1) s
/-- The open tiles of a galley are discarded (R268). -/
def State.dropOpen (s : State) (tail : Nat) : State :=
  let x := s.mxAt tail
  s.setMxAt tail { x with galley := { x.galley with opn := 0 } }

/-- The bank a member's stream multiplies by (R258). -/
def State.bankOf (s : State) (m : Member) : Bank := (s.mxAt m.1).bankAt m.2.bank
/-- The mismatches of R261, and a bank that holds no tile (R401). -/
def State.quoinCode (s : State) (ms : List Member) : Option (BitVec 8) :=
  match ms with
  | [] => none
  | m :: rest =>
    let f := m.2.f
    if rest.any (fun k => k.2.f.tag != f.tag || k.2.f.size != f.size || k.2.f.rows != f.rows || k.2.f.p != f.p
        || k.2.f.acc != f.acc) then some 0x02
    else if ms.any (fun k => !(s.bankOf k).loaded || (s.bankOf k).n != (s.bankOf m).n) then some 0x0E
    else none

/-- An activation: an exact value `m * 2^e`, or a NaN or infinity (R262). -/
abbrev Activation := Option (Int × Int)
/-- The activation that bits hold (R262). -/
def activation (fmt b : Nat) : Activation :=
  match readNum fmt b with
  | .int n => some (n, 0)
  | .flt (.fin neg m e) => some (if neg then -(m : Int) else m, e)
  | .flt _ => none

/-- Row `r` of a member: its activations, or the code it fails with (R268). -/
def State.streamRow (s : State) (m : Member) (r : Nat) : Except (BitVec 8) (List Activation) :=
  let t := m.2
  let c := t.cap
  let fmt := t.f.fmt.toNat
  let w := elemBits fmt
  let lin : Int := t.first + r * (8 * t.f.step.toNat / w : Nat)
  let i0 := lin % (c.ext 0 : Int)
  let i1 := lin / (c.ext 0 : Int)
  let me := { s with cur := .ctx m.1 t.slot.toNat }
  let addr (k : Nat) : Int := c.addr (i0 + k) i1
  let own (a : Int) : Bool := 0 ≤ a && isLocal a.toNat && localCore a.toNat = m.1 && region c.base.toNat = 1
  let bytes : Nat := if w = 4 then 1 else w / 8
  if r = 0 && (s.bankOf m).cause ≠ 0 then .error (s.bankOf m).cause
  else
    match me.capFault c .L Kind.L.need i0 i1 true, me.capFault c .L Kind.L.need (i0 + 31) i1 true with
    | some f, _ => .error f.1
    | none, some f => .error f.1
    | none, none =>
      if !Fmt.sameGroup c.fmt.toNat fmt then .error 0x0E
      else if !(own (addr 0) && own (addr 31)) then .error 0x0D
      else if (List.range 32).any (fun k =>
          s.poisonAt (addr k).toNat || s.poisonAt ((addr k).toNat + bytes - 1)) then .error 0x22
      else .ok ((List.range 32).map (fun k =>
        let x := leNat (s.bytesAt (addr k).toNat bytes)
        activation fmt (if w = 4 then x / (if c.lin (i0 + k) i1 % 2 = 0 then 1 else 16) % 16 else x)))

/-- A floored product and whether flooring changed it (R262). -/
def product (a : Int × Int) (w : Int) (e : Int) : Int × Bool :=
  let s := a.2 + e
  if 0 ≤ s then (a.1 * w * pow2 s, false)
  else (a.1 * w / (pow2 (-s) : Nat), decide (a.1 * w % (pow2 (-s) : Nat) ≠ 0))

/-- A member's part of a row sum at column `n`, and whether a product was inexact (R262). -/
def columnSum (b : Bank) (p n : Nat) (row : List Activation) : Int × Bool :=
  ((List.range 32).zip row).foldl (fun (acc : Int × Bool) k =>
    match k.2 with
    | none => acc
    | some a =>
      let w := Sparse.get 0 b.w (128 * k.1 + n)
      if w = 0 then acc
      else
        let r := product a w (Sparse.get 0 b.e n + p)
        (acc.1 + r.1, acc.2 || r.2)) (0, false)

/-- Sets flags of MFLAGS in the context that issued a stream (R269). -/
def State.setMflags (s : State) (m : Member) (nx wrap nv : Bool) : State :=
  let a := Agent.ctx m.1 m.2.slot.toNat
  let c := s.ctxOf a
  s.setCtxOf a { c with sr := { c.sr with
    mflags := c.sr.mflags ||| (BitVec.ofBool nv ++ BitVec.ofBool wrap ++ BitVec.ofBool nx) } }

/-- The value an accumulator holds, modulo 2^96 as a signed number (R262). -/
def wrap96 (x : Int) : Int := (x + (2 ^ 95 : Nat)) % (2 ^ 96 : Nat) - (2 ^ 95 : Nat)

/-- The slot, counted from HEAD, that row `r` of a stream goes to (R264). -/
def tileFor (acc : Bool) (r : Nat) : Nat := if acc then r / 32 else 0

/-- A tile opens at HEAD, its accumulators 0, P and N latched (R264). -/
def Galley.openTile (g : Galley) (rows p n : Nat) : Galley :=
  let i := (g.head + g.opn) % slotsOf g.n
  { g with opn := g.opn + 1, rows := rows, p := p, slots := g.slots.set (i % 8) { p := p, n := n },
           acc := g.acc.filter (fun x => x.1 / 4096 != i) }

/-- A tile completes (R264). -/
def Galley.complete (g : Galley) : Galley :=
  { g with head := (g.head + 1) % slotsOf g.n, opn := g.opn - 1, tiles := g.tiles + 1 }

/-- The galley when row `r` may be added: a tile has opened for it; none while no slot is free (R264). -/
def Galley.ready (g : Galley) (f : GFields) (r : Nat) : Option Galley :=
  if tileFor f.acc r < g.opn then some g
  else if g.tiles + g.opn < slotsOf g.n then some (g.openTile (GFields.rowCount f) f.p.toNat g.n)
  else none

/-- Adds a row of sums into a tile: the galley and whether an addition left the range (R262, R263). -/
def Galley.addRow (g : Galley) (slot row : Nat) (sums : List (Nat × Int)) : Galley × Bool :=
  sums.foldl (fun (r : Galley × Bool) x =>
    let k := (slot * 32 + row) * 128 + x.1
    let y := Sparse.get 0 r.1.acc k + x.2
    ({ r.1 with acc := Sparse.put 0 r.1.acc k (wrap96 y) }, r.2 || wrap96 y != y)) (g, false)

/-- The members' activations of row `r`, or the first code in member order (R268). -/
def State.gangRow (s : State) (ms : List Member) (r : Nat) : Except (BitVec 8) (List (Member × List Activation)) :=
  ms.mapM (fun m => (s.streamRow m r).map (fun x => (m, x)))

/-- ROW of every member (R270). -/
def State.setRow (s : State) (ms : List Member) (r : Nat) : State :=
  ms.foldl (fun s m =>
    let x := s.mxAt m.1
    s.setMxAt m.1 { x with streams := x.streams.map (fun t => if t.seq = m.2.seq then { t with row := r, started := true } else t) }) s

/-- Row `r` of a gang added at its tail (R262, R264, R269). -/
def State.addRow (s : State) (ms : List Member) (tail : Member) (g : Galley) (r : Nat) (rows : List (Member × List Activation)) :
    State :=
  let f := tail.2.f
  let parts := rows.map (fun x => (x.1, (List.range g.n).map (fun n => columnSum (s.bankOf x.1) f.p.toNat n x.2)))
  let sums := (List.range g.n).map (fun n => (n, parts.foldl (fun t p => t + (p.2.getD n (0, false)).1) (0 : Int)))
  let slot := (g.head + tileFor f.acc r) % slotsOf g.n
  let a := g.addRow slot (r % 32) sums
  let last := r % 32 = 31 || r + 1 = GFields.rowCount f
  let g := if !f.acc && last then a.1.complete else a.1
  let s := s.setMxAt tail.1 { s.mxAt tail.1 with galley := g }
  let s := (rows.zip parts).foldl (fun s x =>
    s.setMflags x.1.1 (x.2.2.any (fun y => y.2)) false (x.1.2.any Option.isNone)) s
  let s := s.setMflags tail false a.2 false
  (s.setRow ms (r + 1)).count tail.1 12 1

/-- Rows of a gang from row `r` on: until `k` are added, one fails, or no slot is free (R264, R268). -/
def State.gangRows (s : State) (ms : List Member) (tail : Member) : Nat → Nat → State
  | 0, _ => s
  | k + 1, r =>
    if GFields.rowCount tail.2.f ≤ r then s
    else
      match (s.mxAt tail.1).galley.ready tail.2.f r with
      | none => s
      | some g =>
        match s.gangRow ms r with
        | .error code => (s.failStreams ms code).dropOpen tail.1
        | .ok rows => State.gangRows (s.addRow ms tail g r rows) ms tail k (r + 1)

/-- A galley takes another width once it is empty (R264). -/
def Galley.reshape (g : Galley) (n : Nat) : Galley := { g with n := n, head := 0, tail := 0, acc := [] }

/-- A gang that has joined: it starts, and adds up to `k` rows; a mismatch with open tiles ends it, another width waits
(R261, R264). -/
def State.runGang (s : State) (ms : List Member) (k : Nat) : State :=
  match ms.getLast? with
  | none => s
  | some tail =>
    let g := (s.mxAt tail.1).galley
    let f := tail.2.f
    if tail.2.started then s.gangRows ms tail k tail.2.row
    else
      match s.quoinCode ms with
      | some code => s.failStreams ms code
      | none =>
        let n := (s.bankOf tail).n
        if g.opn ≠ 0 && (g.rows ≠ GFields.rowCount f || g.p ≠ f.p.toNat) then s.failStreams ms 0x02
        else if g.n ≠ n && (g.tiles ≠ 0 || g.opn ≠ 0) then s
        else
          let s := if g.n = n then s else s.setMxAt tail.1 { s.mxAt tail.1 with galley := g.reshape n }
          (s.setRow ms 0).gangRows ms tail k 0

/-- The other members of the gang in which a stream runs. -/
def State.partners (s : State) (m : Member) : List Member :=
  if m.2.started then
    (gangOf (gangSize m.2.f.size) m.1).filterMap (fun k =>
      match s.headStream k with
      | some t => if k ≠ m.1 && t.started && t.f.size = m.2.f.size then some (k, t) else none
      | none => none)
  else []
/-- A mismatch at a join ends every stream at the head of a core of the gang with code 0x02 (R261); a stream among them that
runs in a gang of its own ends on its other members too, its open tiles with it (R268; log 66). -/
def State.failJoin (s : State) (ms : List Member) : State :=
  let others := (ms.flatMap s.partners).filter (fun m => !ms.contains m)
  let tails := (ms.filter (fun m => m.2.started)).map (fun m => (gangOf (gangSize m.2.f.size) m.1).getLastD m.1)
  tails.foldl State.dropOpen (s.failStreams (ms ++ others.dedup) 0x02)

/-- QUOIN (R261): the gang that the head stream of a core names starts, once every member has joined, and adds up to
`rows` rows. A stream of another size at a core of the gang ends every one of them. -/
def execQuoin (core rows : Nat) (s : State) : Host.Outcome State Fault Refusal :=
  match s.headStream core with
  | none => .next s
  | some t =>
    let g := gangSize t.f.size
    let cores := gangOf g core
    match s.joined cores with
    | none => .next s
    | some ms =>
      if cores.any (fun k => (s.coreAt k).halted) then .next s
      else if ms.any (fun m => m.2.f.size != t.f.size) then .next (s.failJoin ms)
      else .next (s.runGang ms rows)

/-- STREAM_COMPLETION (R267): the last row is added, and every member arrives at its barrier slot. -/
def execStreamCompletion (core : Nat) (s : State) : Host.Outcome State Fault Refusal :=
  match s.headStream core with
  | none => .next s
  | some t =>
    if !t.started || t.row < GFields.rowCount t.f then .next s
    else
      match s.joined (gangOf (gangSize t.f.size) core) with
      | none => .next s
      | some ms => .next (ms.foldl (fun s m => ((s.dropStream m).arrive m.1 m.2.bslot.toNat 1).checkArrival m.1) s)

end Sys2Proof.Machine
end

