-- ==== Sys2Proof/Machine/Conts.lean ====
section
/-! DEFINITION. XSYNC, SPAWN, YIELD, IDLE and EXIT (R310, R311, R313). -/

namespace Sys2Proof.Machine

/-- The level of the issuing agent's run; none outside a run. -/
def State.runLevel (s : State) : Option Nat := (s.runOn s.coreNo).map (fun r => r.domain.level.toNat)

/-- XSYNC (R310): the context waits for the close, and its core may have arrived (R300). -/
def execXsync (d : BitVec 5) (level : BitVec 3) (s : State) : Host.Outcome State Fault Refusal :=
  runInstr (.xsync d level) (do
    let n := level.toNat
    need (match s.runLevel with | some l => n ≤ l | none => false) 0x0D (level.setWidth 64)
    let x := s.core.u.mx
    if s.logged || !x.fetches.isEmpty || !x.loads.isEmpty || !x.streams.isEmpty then
      takeDeferred
      throw .stall
    release (scopeOfLevel n)
    need (!(← get).otherLevel s.coreNo n) 0x0D (level.setWidth 64)
    modify (fun t => (t.setPc (seqPc t.pc 1)).suspend .xsync (level.setWidth 64) 0 d none)
    modify (fun t => t.checkArrival t.coreNo)
    pure none) s

/-! ### SPAWN -/

/-- The parameters g[d] of SPAWN: PLEVEL and PRIO, checked (R311). -/
def spawnParams (g : Word) : M (BitVec 3 × BitVec 2) := do
  let s ← get
  let pl := g.extractLsb' 0 3
  let pr := g.extractLsb' 4 2
  let ok := match s.runOn s.coreNo with
    | some r => pl.toNat ≤ r.domain.level.toNat && pr.toNat ≤ r.prio.toNat
    | none => false
  need (g &&& ~~~0x37#64 = 0 && ok) 0x02 g
  pure (pl, pr)

/-- The queue a spawned record enters is full (R311, R295). -/
def State.spawnFull (s : State) (plevel : BitVec 3) : Bool :=
  if plevel = 0 then 56 ≤ s.core.u.ready.length else 256 ≤ (s.die (agentDie s.cur)).pickup.length

/-- A record enters the queue SPAWN names. -/
def State.enqueueReady (s : State) (e : Ready) : State :=
  if e.plevel = 0 then
    let k := s.core
    s.setCore { k with u := { k.u with ready := k.u.ready ++ [e] } }
  else
    let d := agentDie s.cur
    s.setDie d { s.die d with pickup := (s.die d).pickup ++ [e] }

/-- A store of the issuing agent that is performed before anything else of its. -/
def State.storeHere (s : State) (va : Nat) (p : Nat × Bool) (bs : List Byte) (tags : BitVec 2) : State :=
  s.storeNow (mkPiece s.cur (s.runOf s.cur) va p.1 bs tags p.2 false (s.pc.setWidth 48))
/-- What SPAWN stores once every check has passed (R311): the frame's first granule, then the record; a store that its home
refuses is deferred (R98, R337). -/
def State.spawnWrite (s : State) (vf vr : Nat) (pf pr : Nat × Bool) (fc : Cap) (ft : Bool) (ws : List Word) (f : Cap)
    (rt : Bool) : State :=
  (s.storeHere vf pf (leBytes 32 fc.bits.toNat) (if ft then granuleBit pf.1 else 0)).storeHere vr pr
    (wordBytes ws ++ leBytes 32 { f with otype := s.ctx.sr.cid }.bits.toNat) (if rt then 2 else 0)

/-- SPAWN (R311, R408). -/
def execSpawn (f : QFields) (s : State) : Host.Outcome State Fault Refusal :=
  runInstr (.spawn f) (do
    let p ← spawnParams (s.g f.d)
    need (f.ob || f.scope = 0) 0x02 (f.scope.setWidth 64)
    let target := s.pc + ((f.imm.extractLsb' 8 24).signExtend 64 <<< 2)
    if s.ctx.fcap.covers target.toNat then checkTargetM target true
    let c := s.c f.c
    let i := (s.g f.x).toInt
    capCheck c .SC i 0
    need (c.fmt = 0) 0x0E (c.fmt.setWidth 64)
    let a ← elemAddr c i 0
    need (a % 64 = 0) 0x18 (BitVec.ofNat 64 a)
    let fr := s.c (f.imm.extractLsb' 0 4)
    capCheck fr .SC 0 0
    capCheck fr .L (if fr.fmt.toNat = Fmt.cap then 47 else 1535) 0
    need (p.1 = 0 || (c.scope = 1 && fr.scope = 1)) 0x0D (BitVec.ofNat 64 a)
    needOpen (!(s.reduced && f.ob && f.scope = 3)) 0x0D
    if f.ob then release f.scope.toNat
    if (← get).spawnFull p.1 then step1 (fun t => t.setG f.d 1)
    else do
      let pf ← xl fr.base.toNat .write
      let pr ← xl a .write
      let fc := capAtPc s.ctx.fcap target
      let ft ← stcTag fc fr fr.base.toNat
      let rt ← stcTag fr c (a + 32)
      step1 (fun t =>
        let ws := recordWords (target.setWidth 48) t.ctx.sr.cid t.coreNo p.1 0 p.2 0 1 0 0
        let t := t.spawnWrite fr.base.toNat a pf pr fc ft ws fr rt
        let e : Ready :=
          { recAddr := BitVec.ofNat 48 a, prio := p.2, run := t.runOf t.cur, plevel := p.1, core := BitVec.ofNat 11 t.coreNo, recCap := c }
        (t.enqueueReady e).setG f.d 0)) s

/-! ### YIELD, IDLE, EXIT -/

/-- YIELD (R313): an unpinned context gives its slot to a ready record; otherwise it goes on. -/
def execYield (s : State) : Host.Outcome State Fault Refusal :=
  runInstr .yield (do
    modify (fun t => t.setPc (seqPc t.pc 1))
    let t ← get
    if t.core.u.ready.isEmpty || !(t.freeSlots t.coreNo).isEmpty || t.ctx.isPinned then pure none
    else do
      match (t.suspend .yield 0 0 0 none).writeBackSlot t.coreNo t.slot with
      | some u => set u
      | none => pure ()
      pure none) s

/-- IDLE (R313): the context issues nothing until woken, or for n × 64 cycles when n is not 0. -/
def execIdle (n : BitVec 10) (s : State) : Host.Outcome State Fault Refusal :=
  runInstr (.idle n) (step1 fun t =>
    t.setCtx { t.ctx with idle := some (if n = 0 then none else some (64 * n.toNat)) }) s

/-- The record of a continuation that exits (R313): STATE exited, THRESH the exit value, as stores of the core (R81, R285). -/
def State.exitRecord (s : State) (thresh : Word) : State :=
  match s.ctx.recAddr, s.runOn s.coreNo with
  | some a, some r =>
    let b := Agent.cont s.coreNo a.toNat
    (s.writeState s.coreNo r.id.toNat b a.toNat 4).writeThresh s.coreNo r.id.toNat b a.toNat thresh
  | _, _ => s

/-- The continuation ends: its record is written, its slot is free, its core may have arrived (R313, R300). -/
def State.exitSlot (s : State) (thresh : Word) : State :=
  let s := s.exitRecord thresh
  (s.setCtx s.ctx.freed).checkArrival s.coreNo

/-- EXIT (R313). -/
def execExit (d : BitVec 5) (s : State) : Host.Outcome State Fault Refusal :=
  runInstr (.exit d) (do
    let x := s.core.u.mx
    let slot := BitVec.ofNat 2 s.slot
    if s.logged || x.fetches.any (fun q => q.slot == slot) || x.loads.any (fun q => q.slot == slot)
        || x.streams.any (fun q => q.slot == slot) then
      takeDeferred
      throw .stall
    release 3
    step1 (fun t => t.exitSlot ((t.g d).extractLsb' 0 32 |>.setWidth 64))) s

end Sys2Proof.Machine
end

