-- ==== Sys2Proof/Machine/CoreState.lean ====
section
/-! DEFINITION. The core state and the save frames as R342 lays them out, and a boundary snapshot's bytes (R107, R374). -/

namespace Sys2Proof.Machine

/-- Place of the save frame of a slot (R107, R342). -/
def framePlace (core slot : Nat) : Nat := localBase core + 0xFF000 - 0x5000 * (slot + 1)
/-- Place of the core state. -/
def corePlace (core : Nat) : Nat := localBase core + 0xFF000
/-- What a save is stored through: local scope, so that R58 keeps every live tag. -/
def saveCap (core : Nat) : Cap :=
  { Cap.null with tag := true, base := BitVec.ofNat 48 (localBase core), perm := 0x0F }

/-- The vector registers a save writes: neither zero nor equal to the frame (R342). -/
def Ctx.dirtyVectors (c : Ctx) : List Nat := (List.range 8).filter (fun i => !(c.zero ||| c.clean).getLsbD i)

/-- Granules with tags written at a place of local memory. -/
def State.putLocal (s : State) (a : Nat) : List (List Byte × Bool) → State
  | [] => s
  | (g, t) :: rest => State.putLocal ((s.writeHome a g).setTag a t) (a + 32) rest

/-- A slot descriptor (R342). -/
def Ctx.descriptor (c : Ctx) : Word :=
  if c.occupied then
    1#1 ++ BitVec.ofBool (c.pinned || c.recAddr.isNone) ++ BitVec.ofBool c.sr.th ++ 0#1
      ++ BitVec.ofNat 4 (match c.susp with | some w => w.reason.code | none => 0) ++ c.zero ++ c.recAddr.getD 0
  else 0
/-- A barrier slot as a word (R134). -/
def Barrier.word (b : Barrier) : Word := b.code ++ b.gen ++ b.exp ++ b.cnt
/-- `n` entries with V, the unused ones zero (R342). -/
def queueWords (n : Nat) (xs : List (BitVec 48)) : List Word :=
  (List.range n).map (fun i => match xs[i]? with | some x => 1#1 ++ 0#15 ++ x | none => 0)
/-- The pending deferred record of a slot (R342). -/
def deferredWords (d : Option Deferred) : List Word :=
  match d with | some d => [1, d.eval, d.pc.setWidth 64, 0] | none => [0, 0, 0, 0]

/-- The capabilities of the core state: RCC, RDC, EFCAP and ESAVE of slots 0 to 3 (R342). -/
def State.coreCaps (s : State) (core : Nat) : List Cap :=
  let k := s.coreAt core
  let cs := (List.range 4).map (fun i => s.ctxOf (.ctx core i))
  [k.rcc, k.rdc] ++ cs.map Ctx.efcap ++ cs.map Ctx.esave
/-- The words of the core state from 0x140 on (R342). -/
def State.coreWords (s : State) (core : Nat) : List Word :=
  let k := s.coreAt core
  let cs := (List.range 4).map (fun i => s.ctxOf (.ctx core i))
  let regs := k.walloc.toList ++ [0#62 ++ BitVec.ofBool k.xnext ++ BitVec.ofBool k.xmode, k.plan.word]
    ++ k.rx.toList.map RxRing.word ++ [k.kbin.word, k.pmctl] ++ k.guestPerf.pmc.toList ++ [k.sstep]
  cs.map Ctx.descriptor ++ (List.range 4).map (fun i => s.wordAt (windowCell core (8 * i)))
    ++ queueWords 8 k.u.copy.fifo ++ queueWords 8 k.u.epi.fifo
    ++ (BitVec.ofNat 64 (if k.u.mx.sel then 1 else 0) :: (List.range 63).map (fun i => Config.matrixQueueForm (64 * s.tick + i)))
    ++ queueWords 64 (k.u.ready.map Ready.recAddr) ++ (cs.map (fun c => deferredWords c.deferred)).flatten
    ++ regs ++ List.replicate (48 - regs.length) 0 ++ (List.range 256).map (fun n => (k.barrier n).word)
/-- The granules of the core state and their tags (R342; its matrix queues in the model's own form, log 14). -/
def State.coreGranules (s : State) (core : Nat) : List (List Byte × Bool) :=
  (s.coreCaps core).map (fun c => (leBytes 32 c.bits.toNat, (s.storedTag c (saveCap core)).getD false))
    ++ (granules 118 (wordBytes (s.coreWords core))).map (fun g => (g, false))

/-! ### A snapshot's bytes (R374) -/

/-- Bytes of a core's snapshot in the debugger's region (log 27). -/
def snapshotBytes : Nat := 0x119000
/-- Bits as bytes, the first lowest. -/
def bitBytes (n : Nat) (bit : Nat → Bool) : List Byte :=
  (List.range n).map (fun i => BitVec.ofNat 8 ((List.range 8).foldl (fun x j => if bit (8 * i + j) then x + 2 ^ j else x) 0))
/-- The image of a slot in full, in the layout of R292. -/
def State.slotImage (s : State) (core slot : Nat) : List Byte :=
  match s.image core slot (saveCap core) (s.ctxOf (.ctx core slot)).pc true with
  | some gs => gs.flatMap Prod.fst
  | none => List.replicate 0x5000 0
/-- A binding entry of a snapshot: V and BASE, LIMIT, CTR (R132). -/
def Binding.bytes (b : Binding) : List Byte :=
  leBytes 8 (b.base.toNat + if b.v then 2 ^ 63 else 0) ++ leBytes 8 b.limit.toNat ++ leBytes 8 b.ctr.toNat
/-- A core's snapshot: the images of its contexts, the core state, local memory with its tag and poison bits, the window file, the
binding tables, and its name (R374; their order: log 27). -/
def State.snapshotImage (s : State) (core : Nat) : List Byte :=
  let k := s.coreAt core
  let slots := List.range 4
  slots.flatMap (s.slotImage core) ++ (s.coreGranules core).flatMap Prod.fst ++ s.bytesAt (localBase core) (2 ^ 20)
    ++ bitBytes 4096 (fun i => s.tagAt (localBase core + 32 * i)) ++ bitBytes 4096 (fun i => s.poisonAt (localBase core + 32 * i))
    ++ (List.range 1024).flatMap (fun i => leBytes 4 (Sparse.get 0 k.window i).toNat)
    ++ slots.flatMap (fun n => (s.ctxOf (.ctx core n)).r.bind.toList.flatMap Binding.bytes)
    ++ leBytes 8 k.sstepCount.toNat ++ leBytes 8 core
/-- A member's snapshot goes to its share of the debugger's region, where there is one. -/
def State.writeSnapshot (s : State) (run core : Nat) : State :=
  match (s.run? run).bind (fun r => r.dbg.snaps.map (fun g => (r, g))) with
  | some (r, g) =>
    let i := indexIn (s.runCores r) core
    if snapshotBytes * (i + 1) ≤ g.len then
      s.writeBy .firmware (g.base + snapshotBytes * i) ({ s with cur := .ctx core 0 }.snapshotImage core)
    else s
  | none => s

end Sys2Proof.Machine
end

