-- ==== Sys2Proof/Machine/Boards.lean ====
section
/-! DEFINITION. Notice boards (R314 to R321): the checks of a board instruction and the operations its home performs. -/

namespace Sys2Proof.Machine

/-- A 64-bit word that a unit of the home writes for the issuing agent (R57). -/
def State.unitWrite (s : State) (a : Nat) (x : Word) : State :=
  ((s.setBytes a (leBytes 8 x.toNat)).clearTags a 8).markForeign s.cur a
/-- A granule of `n` bytes from `a` is poisoned. -/
def State.anyPoison (s : State) (a n : Nat) : Bool := (List.range ((n + 31) / 32)).any (fun i => s.poisonAt (a + 32 * i))

/-- The requests of the issuing agent toward a unit's home arrive in order: what stands before is performed (R142). -/
def State.reachHome (s : State) (pa n : Nat) : State :=
  s.atomicReady s.cur pa n

/-- A board or imposition operation that crosses the links to its home, and the home's answer: OP 19 or 22 with the instruction's
fn5, bit [27], scope and imm32, and its register operands; the answer fits one record, or is a view of 528 bytes (R283). -/
def State.unitAsks (s : State) (op : Nat) (i : Instr) (f : QFields) (place : Nat) (operands : List Word) (answer : List Byte) : State :=
  let fn5 : BitVec 5 := ((encode i).headD 0).extractLsb' 22 5
  let r : Request :=
    { s.plainRequest s.cur op 4 place (f.imm ++ 0#24 ++ f.scope ++ BitVec.ofBool f.ob ++ fn5)
        (BitVec.ofNat 256 (leNat (operands.flatMap (fun x => leBytes 8 x.toNat)))) with run := s.runOf s.cur % 2 ^ 16 }
  s.asks s.cur r place
    (if answer.length ≤ 32 then [.record (r.answer 34 (BitVec.ofNat 256 (leNat answer)))] else r.longAnswer answer)

/-- The checks of R318 at the core: the board's place. -/
def boardAt (f : QFields) : M Nat := do
  let s ← get
  let c := s.c f.c
  let b := c.base.setWidth 64
  capCheck c .NB 0 0
  need (c.scope = 0) 0x25 b
  let p ← xl c.base.toNat .atomic
  need (s.scopeReaches s.cur p.1 f.scope.toNat) 0x0D b
  pure p.1

/-! ### The board's words -/

/-- LEVEL. -/
def State.boardLevel (s : State) (b : Nat) : Word := s.wordAt b
/-- MASK. -/
def State.boardMask (s : State) (b : Nat) : Word := s.wordAt (b + 8)
/-- V. -/
def State.boardV (s : State) (b : Nat) : Bool := (s.wordAt (b + 16)).getLsbD 63
/-- INITS. -/
def State.boardInits (s : State) (b : Nat) : BitVec 16 := (s.wordAt (b + 16)).extractLsb' 32 16
/-- MODE. -/
def State.boardMode (s : State) (b : Nat) : BitVec 2 := (s.wordAt (b + 16)).extractLsb' 8 2
/-- The number of slots. -/
def State.boardSlots (s : State) (b : Nat) : Nat := ((s.wordAt (b + 16)).extractLsb' 0 6).toNat + 1
/-- Slot `k`. -/
def State.boardSlot (s : State) (b k : Nat) : Word := s.wordAt (b + 64 + 8 * k)

/-- The checks of R318 at the home, after the agent's earlier requests: `v`: V is required; `slot`: the slot named;
`post`: LEVEL must have room. -/
def boardHome (b : Nat) (base : Word) (v : Bool) (slot : Option Word) (post : Bool) : M Unit := do
  modify (fun s => s.reachHome b 576)
  let s ← get
  need (!s.anyPoison b 576) 0x22 base
  need (!v || s.boardV b) 0x25 base
  match slot with
  | some k => need (k.toNat < s.boardSlots b) 0x25 k
  | none => pure ()
  need (!post || s.boardLevel b ≠ BitVec.allOnes 64) 0x25 base

/-- The join of a value into a slot (R315). -/
def joinValue (mode : BitVec 2) (posted : Bool) (old u : Word) : Word :=
  if mode = 0 then old ||| u
  else if mode = 1 then (if old.ult u then u else old)
  else if posted then old else u

/-- A post of `u` into slot `k` (R315). -/
def State.boardPost (s : State) (b k : Nat) (u : Word) : State :=
  let mask := s.boardMask b
  let x := joinValue (s.boardMode b) (mask.getLsbD k) (s.boardSlot b k) u
  ((s.unitWrite (b + 64 + 8 * k) x).unitWrite (b + 8) (mask ||| (1#64 <<< k))).unitWrite b (s.boardLevel b + 1)

/-- Bytes 0 to 511 of a view: the slots, 0 at and beyond the board's number (R320). -/
def State.boardTile (s : State) (b : Nat) (old : BitVec 16384) : BitVec 16384 :=
  (List.range 64).foldl (fun r k => setElem r 64 k (if k < s.boardSlots b then (s.boardSlot b k).toNat else 0)) old

/-- A board's view as it crosses the links: LEVEL, MASK and 64 slots (R283). -/
def State.boardView (s : State) (b : Nat) : List Byte :=
  leBytes 8 (s.boardLevel b).toNat ++ leBytes 8 (s.boardMask b).toNat
    ++ (List.range 64).flatMap (fun k => leBytes 8 (if k < s.boardSlots b then (s.boardSlot b k).toNat else 0))

/-- What NBPOST and NBVIEW write (R320). -/
def State.takeView (s : State) (f : QFields) (b : Nat) : State :=
  let n := f.imm.extractLsb' 2 3
  let t := s.boardTile b (s.v n)
  ((s.setG f.d (s.boardLevel b)).setVW (f.imm.extractLsb' 0 2) (s.boardMask b)).setV n t

/-! ### The instructions -/

/-- NBPOST (R320). -/
def execNbpost (f : QFields) (s : State) : Host.Outcome State Fault Refusal :=
  runInstr (.nbpost f) (do
    let b ← boardAt f
    if f.ob then release f.scope.toNat
    standing (boardHome b ((s.c f.c).base.setWidth 64) true (some (s.g f.x)) true)
    step1 (fun t =>
      let u := (t.boardPost b (s.g f.x).toNat (s.g f.d)).takeView f b
      u.unitAsks 19 (.nbpost f) f b [s.g f.d, s.g f.x] (u.boardView b))) s

/-- NBVIEW (R320); with bit [27] the agent's view cache is dropped (R317). -/
def execNbview (f : QFields) (s : State) : Host.Outcome State Fault Refusal :=
  runInstr (.nbview f) (do
    let b ← boardAt f
    boardHome b ((s.c f.c).base.setWidth 64) true none false
    step1 (fun t =>
      let u := (if f.ob then t.acquireAll else t).takeView f b
      u.unitAsks 19 (.nbview f) f b [] (u.boardView b))) s

/-- The header and slots NBINIT leaves (R321). -/
def State.boardInit (s : State) (b : Nat) (mode : BitVec 2) (nsm1 : BitVec 6) : State :=
  let w2 : Word := 1#1 ++ 0#15 ++ (s.boardInits b + 1) ++ 0#22 ++ mode ++ 0#2 ++ nsm1
  let s := (List.range 72).foldl (fun s k => s.unitWrite (b + 8 * k) 0) s
  s.unitWrite (b + 16) w2

/-- NBINIT (R321). -/
def execNbinit (f : QFields) (s : State) : Host.Outcome State Fault Refusal :=
  runInstr (.nbinit f) (do
    let b ← boardAt f
    boardHome b ((s.c f.c).base.setWidth 64) false none false
    step1 (fun t =>
      let old := if t.boardV b then t.boardLevel b else 0
      ((t.boardInit b (f.imm.extractLsb' 0 2) (f.imm.extractLsb' 8 6)).setG f.d old).unitAsks 19 (.nbinit f) f b []
        (leBytes 8 old.toNat))) s

/-- NBSLOT (R321). -/
def execNbslot (f : QFields) (s : State) : Host.Outcome State Fault Refusal :=
  runInstr (.nbslot f) (do
    let b ← boardAt f
    boardHome b ((s.c f.c).base.setWidth 64) true (some (s.g f.x)) false
    step1 (fun t =>
      let x := t.boardSlot b (s.g f.x).toNat
      (t.setG f.d x).unitAsks 19 (.nbslot f) f b [s.g f.x] (leBytes 8 x.toNat))) s

end Sys2Proof.Machine
end

