-- ==== Sys2Proof/Machine/Imposition.lean ====
section
/-! DEFINITION. Live imposition (R322 to R332, R409): schedules, cells, tiles, claims, and the schedule switch. -/

namespace Sys2Proof.Machine

/-! ### Schedules (R323) -/

/-- Field `k` of four 16-bit fields, plus one. -/
def dim16 (w : Word) (k : Nat) : Nat := w.toNat / 2 ^ (16 * k) % 65536 + 1
/-- Rounded up quotient. -/
def ceilDiv (a b : Nat) : Nat := (a + b - 1) / b

/-- A schedule record (R323): extents, quanta, tile sizes, and word 3. -/
structure Sched where
  ext : Word
  quanta : Word
  tile : Word
  w3 : Word
  deriving DecidableEq, Repr

/-- E_k. -/
def Sched.e (s : Sched) (k : Nat) : Nat := dim16 s.ext k
/-- Q_k. -/
def Sched.q (s : Sched) (k : Nat) : Nat := dim16 s.quanta k
/-- T_k. -/
def Sched.t (s : Sched) (k : Nat) : Nat := dim16 s.tile k
/-- C_k (R323). -/
def Sched.c (s : Sched) (k : Nat) : Nat := ceilDiv (s.e k) (s.q k)
/-- G_k (R325). -/
def Sched.gk (s : Sched) (k : Nat) : Nat := ceilDiv (s.c k) (s.t k)
/-- C. -/
def Sched.cells (s : Sched) : Nat := s.c 0 * s.c 1 * s.c 2 * s.c 3
/-- G. -/
def Sched.tiles (s : Sched) : Nat := s.gk 0 * s.gk 1 * s.gk 2 * s.gk 3
/-- The dimension at position `j` of the loop order, 0 outermost (R323). -/
def Sched.ord (s : Sched) (j : Nat) : Nat := s.w3.toNat / 2 ^ (2 * j) % 4
/-- PLACE. -/
def Sched.place (s : Sched) : Nat := (s.w3.extractLsb' 8 2).toNat
/-- ORDER is a permutation. -/
def Sched.orderOk (s : Sched) : Bool := (List.range 4).all (fun k => (List.range 4).any (fun j => s.ord j == k))

/-- The schedule record at a place. -/
def State.schedAt (s : State) (a : Nat) : Sched :=
  { ext := s.wordAt a, quanta := s.wordAt (a + 8), tile := s.wordAt (a + 16), w3 := s.wordAt (a + 24) }

/-- The first PEND word that fails R323, with CUR's extents and quanta required when `cur` is given (R332): of equal extents
with other quanta it is word 1, however many cells they make. -/
def Sched.badWord (p : Sched) (cur : Option Sched) : Option Word :=
  let same := match cur with | some c => (decide (p.ext = c.ext), decide (p.quanta = c.quanta)) | none => (true, true)
  if !same.1 then some p.ext
  else if !same.2 then some p.quanta
  else if 65536 < p.cells then some p.ext
  else if (List.range 4).any (fun k => p.c k < p.t k) then some p.tile
  else if !p.orderOk || p.place = 3 || p.w3.extractLsb' 11 53 ≠ 0 then some p.w3
  else none

/-! ### Cells and tiles (R325) -/

/-- A number in mixed radix, position 3 fastest: the digit of position `j` when the radices by position are `n`. -/
def digit (n : Nat → Nat) (x j : Nat) : Nat :=
  if j = 3 then x % n 3 else if j = 2 then x / n 3 % n 2 else if j = 1 then x / (n 3 * n 2) % n 1
  else x / (n 3 * n 2 * n 1) % n 0
/-- The position of a dimension in the loop order. -/
def Sched.pos (s : Sched) (k : Nat) : Nat := ((List.range 4).find? (fun j => s.ord j == k)).getD 0
/-- The coordinate τ_k of tile `t`. -/
def Sched.tileCoord (s : Sched) (t k : Nat) : Nat := digit (fun j => s.gk (s.ord j)) t (s.pos k)
/-- The number of a tile from its coordinates. -/
def Sched.tileNum (s : Sched) (x : Nat → Nat) : Nat :=
  let g (j : Nat) : Nat := s.gk (s.ord j)
  ((x (s.ord 0) * g 1 + x (s.ord 1)) * g 2 + x (s.ord 2)) * g 3 + x (s.ord 3)
/-- The first cell of tile `t` along dimension `k`. -/
def Sched.tileLo (s : Sched) (t k : Nat) : Nat := s.tileCoord t k * s.t k
/-- The cells of tile `t` along dimension `k`. -/
def Sched.tileLen (s : Sched) (t k : Nat) : Nat := min (s.tileLo t k + s.t k) (s.c k) - s.tileLo t k

/-- A box of cells: first and last coordinate by dimension. -/
structure Box where
  lo0 : Nat
  lo1 : Nat
  lo2 : Nat
  lo3 : Nat
  hi0 : Nat
  hi1 : Nat
  hi2 : Nat
  hi3 : Nat
  deriving DecidableEq, Repr

/-- The first coordinate. -/
def Box.lo (b : Box) (k : Nat) : Nat := if k = 0 then b.lo0 else if k = 1 then b.lo1 else if k = 2 then b.lo2 else b.lo3
/-- The last coordinate. -/
def Box.hi (b : Box) (k : Nat) : Nat := if k = 0 then b.hi0 else if k = 1 then b.hi1 else if k = 2 then b.hi2 else b.hi3
/-- A box from its bounds. -/
def boxOf (lo hi : Nat → Nat) : Box :=
  { lo0 := lo 0, lo1 := lo 1, lo2 := lo 2, lo3 := lo 3, hi0 := hi 0, hi1 := hi 1, hi2 := hi 2, hi3 := hi 3 }

/-- The map index of a cell (R325). -/
def Sched.cellIndex (s : Sched) (u : Nat → Nat) : Nat := u 0 + s.c 0 * (u 1 + s.c 1 * (u 2 + s.c 2 * u 3))
/-- Cell `i` of tile `t` in loop order: its coordinate along `k`. -/
def Sched.cellCoord (s : Sched) (t i k : Nat) : Nat := s.tileLo t k + digit (fun j => s.tileLen t (s.ord j)) i (s.pos k)
/-- The cells of a tile. -/
def Sched.tileSize (s : Sched) (t : Nat) : Nat := s.tileLen t 0 * s.tileLen t 1 * s.tileLen t 2 * s.tileLen t 3
/-- The map indexes of the cells of a box. -/
def Sched.boxCells (s : Sched) (b : Box) : List Nat :=
  (List.range (b.hi 3 + 1 - b.lo 3)).flatMap (fun i3 => (List.range (b.hi 2 + 1 - b.lo 2)).flatMap (fun i2 =>
    (List.range (b.hi 1 + 1 - b.lo 1)).flatMap (fun i1 => (List.range (b.hi 0 + 1 - b.lo 0)).map (fun i0 =>
      s.cellIndex (fun k => b.lo k + (if k = 0 then i0 else if k = 1 then i1 else if k = 2 then i2 else i3))))))
/-- Four 16-bit fields. -/
def pack16 (f : Nat → Nat) : Word :=
  BitVec.ofNat 64 (f 0 % 65536 + 2 ^ 16 * (f 1 % 65536) + 2 ^ 32 * (f 2 % 65536) + 2 ^ 48 * (f 3 % 65536))
/-- The origin of a box in points (R329). -/
def Sched.origin (s : Sched) (b : Box) : Word := pack16 (fun k => b.lo k * s.q k)
/-- The extents of a box in points, minus one (R329). -/
def Sched.extents (s : Sched) (b : Box) : Word := pack16 (fun k => min ((b.hi k + 1) * s.q k) (s.e k) - b.lo k * s.q k - 1)
/-- The box that an origin and extents in points name. -/
def Sched.boxAt (s : Sched) (o x : Word) : Box :=
  boxOf (fun k => (dim16 o k - 1) / s.q k) (fun k => (dim16 o k - 1 + (dim16 x k - 1)) / s.q k)

/-- The start of worker `w`'s sequence among `m` workers (R325, R327). -/
def Sched.start (s : Sched) (m w : Nat) : Nat :=
  if s.place = 1 then w else if s.place = 2 then w * s.tiles / m else 0
/-- The end of worker `w`'s sequence. -/
def Sched.stop (s : Sched) (m w : Nat) : Nat := if s.place = 2 then (w + 1) * s.tiles / m else s.tiles
/-- The worker that owns tile `t`, of `m` (R325). -/
def Sched.owner (s : Sched) (m t : Nat) : Nat :=
  if s.place = 1 then t % m else ((List.range m).find? (fun w => s.start m w ≤ t && t < s.stop m w)).getD 0

/-! ### The block in memory (R322) -/

/-- STAT0. -/
def State.stat0 (s : State) (a : Nat) : Word := s.wordAt (a + 0x40)
/-- ACT. -/
def State.impAct (s : State) (a : Nat) : Bool := (s.stat0 a).getLsbD 32
/-- M. -/
def State.impWorkers (s : State) (a : Nat) : Nat := ((s.stat0 a).extractLsb' 24 6).toNat + 1
/-- LEVEL. -/
def State.impLevel (s : State) (a : Nat) : Nat := ((s.stat0 a).extractLsb' 16 3).toNat
/-- EPOCH. -/
def State.impEpoch (s : State) (a : Nat) : BitVec 16 := (s.stat0 a).extractLsb' 0 16
/-- CELLS. -/
def State.impCells (s : State) (a : Nat) : Nat := (s.wordAt (a + 0x48)).toNat % 2 ^ 32
/-- DONE. -/
def State.impDone (s : State) (a : Nat) : Nat := (s.wordAt (a + 0x48)).toNat / 2 ^ 32
/-- CLAIMED. -/
def State.impClaimed (s : State) (a : Nat) : Nat := (s.wordAt (a + 0x50)).toNat % 2 ^ 32
/-- CURSOR. -/
def State.impCursor (s : State) (a : Nat) : Nat := (s.wordAt (a + 0x50)).toNat / 2 ^ 32
/-- Entry `w` of the worker table. -/
def State.impWorker (s : State) (a w : Nat) : Nat := leNat (s.bytesAt (a + 0x80 + 2 * w) 2)
/-- CAND of worker `w`; none is all ones. -/
def State.impCand (s : State) (a w : Nat) : Option Nat :=
  let x := (s.wordAt (a + 0x100 + 8 * w)).toNat % 2 ^ 32
  if x = 0xFFFFFFFF then none else some x
/-- NEXT of worker `w`. -/
def State.impNext (s : State) (a w : Nat) : Nat := (s.wordAt (a + 0x100 + 8 * w)).toNat / 2 ^ 32
/-- Sets worker `w`'s state. -/
def State.setWorker (s : State) (a w : Nat) (cand : Option Nat) (next : Nat) : State :=
  s.unitWrite (a + 0x100 + 8 * w) (BitVec.ofNat 64 (next * 2 ^ 32 + cand.getD 0xFFFFFFFF))
/-- The state of cell `c`. -/
def State.cellState (s : State) (a c : Nat) : Nat := (s.byteAt (a + 0xB00 + c / 4)).toNat / 2 ^ (2 * (c % 4)) % 4
/-- Sets the state of cell `c`. -/
def State.setCell (s : State) (a c x : Nat) : State :=
  let p := a + 0xB00 + c / 4
  let old := (s.byteAt p).toNat
  let sh := 2 ^ (2 * (c % 4))
  ((s.setByte p (BitVec.ofNat 8 (old - old / sh % 4 * sh + x * sh))).clearTags p 1).markForeign s.cur p
/-- Sets the states of cells. -/
def State.setCells (s : State) (a : Nat) (cs : List Nat) (x : Nat) : State := cs.foldl (fun s c => s.setCell a c x) s
/-- Sets DONE, CLAIMED and CURSOR. -/
def State.setCounts (s : State) (a cells done claimed cursor : Nat) : State :=
  (s.unitWrite (a + 0x48) (BitVec.ofNat 64 (done * 2 ^ 32 + cells))).unitWrite (a + 0x50)
    (BitVec.ofNat 64 (cursor * 2 ^ 32 + claimed))
/-- Every worker at the start of its sequence, without a candidate (R327). -/
def State.startWorkers (s : State) (a : Nat) (c : Sched) (m : Nat) : State :=
  (List.range m).foldl (fun s w => s.setWorker a w none (c.start m w)) s
/-- The pending registers of a run's blocks on a core. Where the run is pre-empted there the unit goes on serving them: they
are the saved ones (R327, R328). -/
def State.pendings (s : State) (core run : Nat) : Sparse PendSched :=
  let k := s.coreAt core
  match k.saved with
  | some sv => if sv.run = run then sv.pending else k.u.pending
  | none => k.u.pending
/-- The pending register of a run's block (R327). -/
def State.pendingAt (s : State) (run a : Nat) : PendSched := Sparse.get PendSched.reset (s.pendings (localCore a) run) a
/-- Sets the pending register of a run's block. -/
def State.setPending (s : State) (run a : Nat) (p : PendSched) : State :=
  let k := s.coreAt (localCore a)
  let all := Sparse.put PendSched.reset (s.pendings (localCore a) run) a p
  let own := { k with u := { k.u with pending := all } }
  s.setCoreAt (localCore a) (match k.saved with
    | some sv => if sv.run = run then { k with saved := some { sv with pending := all } } else own
    | none => own)

/-! ### Checks (R328) -/

/-- The checks before the unit: capability, FMT, SCOPE, alignment, scope field. The block's place. -/
def impAt (f : QFields) (k : Kind) : M Nat := do
  let s ← get
  let c := s.c f.c
  let b := c.base.setWidth 64
  let cells := if c.scope = 0 then (s.schedAt c.base.toNat).cells else 1
  capCheck c k 0 0
  if !(k = .S && f.imm.getLsbD 0) then capCheck c k (0xB00 + ceilDiv cells 4 - 1) 0
  need (c.fmt = 0) 0x0E (c.fmt.setWidth 64)
  need (c.scope = 0) 0x0D b
  needOpen (c.base.toNat % 64 = 0) 0x18
  let p ← xl c.base.toNat .atomic
  need (s.scopeReaches s.cur p.1 f.scope.toNat) 0x0D b
  pure p.1

/-- A core holds a run: resident, or saved by a pre-emption, whose run area stays in place (R107). -/
def State.holdsRun (s : State) (core run : Nat) : Bool :=
  (s.coreAt core).run == some run || (match (s.coreAt core).saved with | some sv => sv.run == run | none => false)

/-- At the unit: earlier requests first, poison, and the issuing core in the block's domain: that of its level, or, while
ACT is 0, the whole domain of the run that the coverage home holds (R328). -/
def impHome (a : Nat) (base : Word) : M Unit := do
  modify (fun s => s.reachHome a 0xB00)
  let s ← get
  need (!s.anyPoison a (0xB00 + ceilDiv (s.schedAt a).cells 4)) 0x22 base
  match s.runOn s.coreNo with
  | some r =>
    need (s.holdsRun (localCore a) r.id.toNat &&
      (!s.impAct a || (s.members r.domain (s.impLevel a) (localCore a)).contains s.coreNo)) 0x0D base
  | none => trap 0x0D base

/-- SCHEDEP takes the block's EPOCH (R324). -/
def State.takeEpoch (s : State) (a : Nat) : State := s.setSr { s.ctx.sr with schedep := s.impEpoch a }

/-! ### TCLAIM (R329) -/

/-- The first free claim entry; none where the table is full. -/
def State.freeClaim (s : State) (a : Nat) : Option Nat :=
  (List.range 64).find? (fun i => !(s.wordAt (a + 0x300 + 32 * i + 16)).getLsbD 16)

/-- NextTile(w): the tile and the new CURSOR or NEXT (R325). -/
def nextTile (c : Sched) (m w cursor next : Nat) : Option (Nat × Nat × Nat) :=
  if c.place = 0 then (if cursor < c.tiles then some (cursor, cursor + 1, next) else none)
  else if next < c.stop m w then some (next, cursor, if c.place = 1 then next + m else next + 1)
  else none

/-- The first free cell of a tile, as its number in loop order. -/
def State.firstFree (s : State) (a : Nat) (c : Sched) (t : Nat) : Option Nat :=
  (List.range (c.tileSize t)).find? (fun i => s.cellState a (c.cellIndex (c.cellCoord t i)) == 0)

/-- A candidate with a free cell: from `cand`, else from the sequence (the loop of R329). The candidate, CURSOR, NEXT. -/
def State.findTile (s : State) (a : Nat) (c : Sched) (m w : Nat) : Nat → Option Nat → Nat → Nat → Option Nat × Nat × Nat
  | 0, _, cursor, next => (none, cursor, next)
  | fuel + 1, cand, cursor, next =>
    match cand with
    | some t =>
      if (s.firstFree a c t).isSome then (some t, cursor, next) else s.findTile a c m w fuel none cursor next
    | none =>
      match nextTile c m w cursor next with
      | none => (none, cursor, next)
      | some (t, cursor, next) => s.findTile a c m w fuel (some t) cursor next

/-- The length of the run of free cells from `i` along the innermost dimension, `n` cells at most. -/
def State.freeRun (s : State) (a : Nat) (c : Sched) (t : Nat) : Nat → Nat → Nat
  | 0, _ => 0
  | n + 1, i => if s.cellState a (c.cellIndex (c.cellCoord t i)) = 0 then s.freeRun a c t n (i + 1) + 1 else 0

/-- The box claimed in tile `t`: whole when every cell is free, else the first free cell extended along the innermost
dimension (R329). -/
def State.claimBox (s : State) (a : Nat) (c : Sched) (t : Nat) : Box :=
  let n := c.tileSize t
  if (List.range n).all (fun i => s.cellState a (c.cellIndex (c.cellCoord t i)) == 0) then
    boxOf (c.tileLo t) (fun k => c.tileLo t k + c.tileLen t k - 1)
  else
    let i := (s.firstFree a c t).getD 0
    let inner := c.ord 3
    let room := c.tileLen t inner - i % c.tileLen t inner
    let len := s.freeRun a c t room i
    boxOf (c.cellCoord t i) (fun k => c.cellCoord t i k + (if k = inner then len - 1 else 0))

/-- The three words of TCLAIM and the block after it (R329). -/
def State.claim (s : State) (a w : Nat) : (Word × Word × Word) × State :=
  let c := s.schedAt a
  let m := s.impWorkers a
  let r := s.findTile a c m w (2 * c.tiles + 3) (s.impCand a w) (s.impCursor a) (s.impNext a w)
  let answer (status t : Nat) : Word := BitVec.ofNat 64 (status * 2 ^ 62 + (s.impEpoch a).toNat * 2 ^ 32 + t)
  let cells := s.impCells a
  let done := s.impDone a
  let s1 := (s.setWorker a w r.1 r.2.2).setCounts a cells done (s.impClaimed a) r.2.1
  match r.1 with
  | none => ((0, 0, answer (if done = cells then 2 else 1) 0), s1)
  | some t =>
    match s.freeClaim a with
    | none => ((0, 0, answer 3 0), s1)
    | some i =>
      let box := s.claimBox a c t
      let cs := c.boxCells box
      let e := a + 0x300 + 32 * i
      let s2 := (s1.setCells a cs 1).setCounts a cells done (s.impClaimed a + cs.length) r.2.1
      let s2 := (((s2.unitWrite e (c.origin box)).unitWrite (e + 8) (c.extents box)).unitWrite (e + 16)
        (BitVec.ofNat 64 (2 ^ 16 + s.coreNo))).unitWrite (e + 24) (BitVec.ofNat 64 t)
      let s2 := if (s2.firstFree a c t).isSome then s2 else s2.setWorker a w none r.2.2
      ((c.origin box, c.extents box, answer 0 t), s2)

/-- TCLAIM (R329). -/
def execTclaim (f : QFields) (s : State) : Host.Outcome State Fault Refusal :=
  runInstr (.tclaim f) (do
    let a ← impAt f .L
    impHome a ((s.c f.c).base.setWidth 64)
    let t ← get
    let w := s.g f.x
    need (t.impAct a) 0x24 0
    need (w.toNat < t.impWorkers a && t.impWorker a w.toNat = t.coreNo) 0x24 w
    step1 (fun t =>
      let r := t.claim a w.toNat
      let u := r.2.takeEpoch a
      let u := if f.ob then u.acquireAll else u
      (((u.setG f.d r.1.1).setG (f.d + 1) r.1.2.1).setG (f.d + 2) r.1.2.2).unitAsks 22 (.tclaim f) f a [w]
        (leBytes 8 r.1.1.toNat ++ leBytes 8 r.1.2.1.toNat ++ leBytes 8 r.1.2.2.toNat))) s

/-! ### TDONE and THAND (R330, R331) -/

/-- The claim entry that g[x] and g[x+1] name, with the checks of R330. -/
def claimOf (f : QFields) (a : Nat) : M Nat := do
  let s ← get
  let o := s.g f.x
  let x := s.g (f.x + 1)
  match (List.range 64).find? (fun i =>
    let e := a + 0x300 + 32 * i
    (s.wordAt (e + 16)).getLsbD 16 && s.wordAt e == o && s.wordAt (e + 8) == x) with
  | none => trap 0x24 o
  | some i =>
    let c := s.schedAt a
    let owner := ((s.wordAt (a + 0x300 + 32 * i + 16)).extractLsb' 0 11).toNat
    need (owner = s.coreNo && (c.boxCells (c.boxAt o x)).all (fun k => s.cellState a k == 1)) 0x24 o
    pure (a + 0x300 + 32 * i)

/-- TDONE (R330). -/
def execTdone (f : QFields) (s : State) : Host.Outcome State Fault Refusal :=
  runInstr (.tdone f) (do
    let a ← impAt f .L
    if f.ob then release f.scope.toNat
    let e ← standing (do
      impHome a ((s.c f.c).base.setWidth 64)
      claimOf f a)
    step1 (fun t =>
      let c := t.schedAt a
      let cs := c.boxCells (c.boxAt (s.g f.x) (s.g (f.x + 1)))
      let done := t.impDone a + cs.length
      let u := (t.setCells a cs 2).setCounts a (t.impCells a) done (t.impClaimed a - cs.length) (t.impCursor a)
      let u := u.unitWrite (e + 16) (u.wordAt (e + 16) &&& ~~~0x10000#64)
      ((u.takeEpoch a).setG f.d (BitVec.ofNat 64 (t.impCells a - done))).unitAsks 22 (.tdone f) f a [s.g f.x, s.g (f.x + 1)]
        (leBytes 8 (t.impCells a - done)))) s

/-- The core that a box's owner under CUR runs on (R331); none under dynamic placement. -/
def State.handTarget (s : State) (a : Nat) (o x : Word) : Option Nat :=
  let c := s.schedAt a
  if c.place = 0 then none
  else
    let b := c.boxAt o x
    let m := s.impWorkers a
    some (s.impWorker a (c.owner m (c.tileNum (fun k => b.lo k / c.t k))))

/-- The first addresses of the pages that `n` bytes from `va` overlap. -/
def pageStarts (va n : Nat) : List Nat :=
  va :: (List.range ((va + n - 1) / 2 ^ 16 - va / 2 ^ 16)).map (fun i => (va / 2 ^ 16 + 1 + i) * 2 ^ 16)
/-- The translation and the way of every page that a write of `n` bytes needs. -/
def writePages (va n : Nat) : M Unit :=
  (pageStarts va n).forM (fun a => do
    let p ← xl a .write
    pathOk a p.1 .write)
/-- A capability check of a write-back: no phase clause (R60, R408). -/
def storeCheck (c : Cap) (i : Int) : M Unit := do
  match (← get).capFault c .SC Kind.SC.need i 0 false with
  | some (cause, eval) => trap cause eval
  | none => pure ()
/-- The checks of the write-back THAND will need (R331): the frame's capability over the whole image, the record's, the
capabilities to be stored in the frame (R58), then the pages of the image and the record's. -/
def handChecks : M Unit := do
  let s ← get
  let c := s.ctx
  let base := c.frame.base.toNat
  let size := if 20480 ≤ c.frame.frameSize then 20480 else 1536
  storeCheck c.frame 0
  storeCheck c.frame (if c.frame.fmt.toNat = Fmt.cap then size / 32 - 1 else size - 1 : Nat)
  let at0 : Int := (c.recAddr.getD 0).toNat - c.recCap.base.toNat
  storeCheck c.recCap at0
  storeCheck c.recCap (at0 + 63)
  match ((List.range 17).zip (c.fcap :: c.r.c.toList)).find? (fun p => (s.storedTag p.2 c.frame).isNone) with
  | some p => trap 0x0A (BitVec.ofNat 64 (base + 32 * p.1))
  | none => pure ()
  writePages base size
  writePages ((c.recAddr.getD 0).toNat) 64

/-- The ready queue of a run on a core: the saved one where the run is pre-empted there. -/
def State.readyOf (s : State) (core run : Nat) : List Ready :=
  let k := s.coreAt core
  match k.saved with
  | some sv => if sv.run = run then sv.ready else k.u.ready
  | none => k.u.ready
/-- A record handed over enters its target's ready queue (R331), that of the saved share where the run is pre-empted there. -/
def State.enqueueAt (s : State) (target : Nat) (p : Parked) : State :=
  match (s.coreAt target).saved with
  | some sv =>
    if sv.run = p.run then
      let s := s.writeState target p.run (p.agent target) p.recAddr.toNat 1
      let e : Ready :=
        { recAddr := p.recAddr, prio := p.prio, run := p.run, plevel := p.plevel, core := BitVec.ofNat 11 target, recCap := p.recCap }
      let k := s.coreAt target
      s.setCoreAt target { k with
        u := { k.u with waiting := k.u.waiting.filter (fun q => q.recAddr != p.recAddr) },
        saved := some { sv with ready := sv.ready ++ [e] } }
    else s.makeReady target p
  | none => s.makeReady target p
/-- The hand-over (R331): the entry's core, the continuation written back with g[d] = 0 and enqueued at the target. -/
def State.handOver (s : State) (e target : Nat) (d : BitVec 5) : Option State :=
  let s1 := s.unitWrite (e + 16) (BitVec.ofNat 64 (2 ^ 16 + target))
  let s1 := (s1.setPc (seqPc s1.pc 2)).setG d 0
  match s1.ctx.recAddr with
  | none => none
  | some addr =>
    match s1.writeBack s1.coreNo s1.slot target 0 { reason := .yield, key := 0, thresh := 0, dst := d, since := s1.tick, limit := none } with
    | none => none
    | some t =>
      match (t.coreAt target).u.waiting.find? (fun p => p.recAddr == addr) with
      | some p => some ((t.enqueueAt target p).checkArrival s.coreNo)
      | none => some t

/-- THAND (R331, R409). Its continuation's stores reach their homes before the record is enqueued (R152); behind a link that
retrains they wait, and THAND with them (R285). -/
def execThand (f : QFields) (s : State) : Host.Outcome State Fault Refusal :=
  runInstr (.thand f) (do
    let a ← impAt f .L
    impHome a ((s.c f.c).base.setWidth 64)
    let e ← claimOf f a
    let c := (← get).ctx
    need (!c.isPinned && c.portable (some f.c.toNat)) 0x0D 0
    handChecks
    modify (fun t => t.takeEpoch a)
    let t ← get
    let asked (t : State) (x : Nat) : State := t.unitAsks 22 (.thand f) f a [s.g f.x, s.g (f.x + 1)] (leBytes 8 x)
    match t.handTarget a (s.g f.x) (s.g (f.x + 1)) with
    | none => step1 (fun t => asked (t.setG f.d 1) 1)
    | some target =>
      if target = t.coreNo then step1 (fun t => asked (t.setG f.d 1) 1)
      else if 56 ≤ (t.readyOf target (t.runOf t.cur)).length then step1 (fun t => asked (t.setG f.d 2) 2)
      else if t.writesHeld then throw .stall
      else
        match ((asked t 0).flush t.cur).handOver e target f.d with
        | some u => step1 (fun _ => u)
        | none => throw .stall) s

/-! ### SCHEDW and SCHEDR (R332) -/

/-- SCHEDW without INIT: PEND is staged (R327, R332). -/
def schedNext (f : QFields) (a : Nat) : M (Option Word) := do
  let s ← get
  need (s.impAct a) 0x02 0
  let p := s.schedAt (a + 0x20)
  match p.badWord (some (s.schedAt a)) with
  | some w => trap 0x02 w
  | none =>
    step1 (fun t =>
      let t := t.setPending (t.runOf t.cur) a { w0 := p.ext, w1 := p.quanta, w2 := p.tile, w3 := p.w3 ||| 0x400 }
      ((t.takeEpoch a).setG f.d ((t.impEpoch a + 1).setWidth 64)).unitAsks 22 (.schedw f) f a []
        (leBytes 8 (t.impEpoch a + 1).toNat))

/-- The block after SCHEDW with INIT (R332). -/
def State.impInit (s : State) (a : Nat) (p : Sched) (level workers : Nat) : State :=
  let s := ((((s.unitWrite a p.ext).unitWrite (a + 8) p.quanta).unitWrite (a + 16) p.tile).unitWrite (a + 24) (p.w3 ||| 0x400))
  let s := s.unitWrite (a + 0x40) (BitVec.ofNat 64 (2 ^ 32 + (workers - 1) * 2 ^ 24 + level * 2 ^ 16))
  let s := (List.range 5).foldl (fun s i => s.unitWrite (a + 0x58 + 8 * i) 0) s
  let s := s.setCounts a p.cells 0 0 0
  let s := (List.range 256).foldl (fun s i => s.unitWrite (a + 0x300 + 8 * i) 0) s
  let s := (List.range (ceilDiv p.cells 4)).foldl (fun s i =>
    ((s.setByte (a + 0xB00 + i) 0).clearTags (a + 0xB00 + i) 1).markForeign s.cur (a + 0xB00 + i)) s
  (s.startWorkers a p workers).setPending (s.runOf s.cur) a PendSched.reset

/-- SCHEDW with INIT (R332). -/
def schedInit (f : QFields) (a : Nat) : M (Option Word) := do
  let s ← get
  let level := (f.imm.extractLsb' 1 3).toNat
  let workers := (f.imm.extractLsb' 4 6).toNat + 1
  let p := s.schedAt (a + 0x20)
  need (!s.impAct a || s.impDone a = s.impCells a) 0x24 0
  match p.badWord none with
  | some w => trap 0x02 w
  | none => do
    match s.runOn s.coreNo with
    | none => trap 0x02 (BitVec.ofNat 64 level)
    | some r => do
      need (level ≤ r.domain.level.toNat) 0x02 (BitVec.ofNat 64 level)
      let ms := s.members r.domain level (localCore a)
      match (List.range workers).find? (fun w => !ms.contains (s.impWorker a w)) with
      | some w => trap 0x02 (BitVec.ofNat 64 w)
      | none => do
        capCheck (s.c f.c) .S (0xB00 + ceilDiv p.cells 4 - 1) 0
        step1 (fun t => (((t.impInit a p level workers).takeEpoch a).setG f.d 0).unitAsks 22 (.schedw f) f a [] (leBytes 8 0))

/-- SCHEDW (R332). -/
def execSchedw (f : QFields) (s : State) : Host.Outcome State Fault Refusal :=
  runInstr (.schedw f) (do
    let a ← impAt f .S
    if f.ob then release f.scope.toNat
    standing (do
    impHome a ((s.c f.c).base.setWidth 64)
    if f.imm.getLsbD 0 then schedInit f a else schedNext f a)) s

/-- The word that SCHEDR selects (R332). -/
def State.schedWord (s : State) (a sel : Nat) : Word :=
  let p := s.pendingAt (s.runOf s.cur) a
  if sel < 4 then s.wordAt (a + 8 * sel)
  else if sel = 4 then p.w0 else if sel = 5 then p.w1 else if sel = 6 then p.w2 else if sel = 7 then p.w3
  else s.wordAt (a + 0x40 + 8 * (sel - 8))

/-- SCHEDR (R332). -/
def execSchedr (f : QFields) (s : State) : Host.Outcome State Fault Refusal :=
  runInstr (.schedr f) (do
    let a ← impAt { f with imm := 0 } .L
    impHome a ((s.c f.c).base.setWidth 64)
    step1 (fun t =>
      let x := t.schedWord a f.imm.toNat
      ((t.takeEpoch a).setG f.d x).unitAsks 22 (.schedr f) f a [] (leBytes 8 x.toNat))) s

/-! ### The switch at a close (R327) -/

/-- The switch of one block of a run. -/
def State.switchBlock (s : State) (run a : Nat) : State :=
  let p := s.pendingAt run a
  let s := s.unitWrite (a + 16) p.w2
  let s := s.unitWrite (a + 24) ((s.wordAt (a + 24) &&& ~~~0x3FF#64) ||| (p.w3 &&& 0x3FF))
  let s := s.setPending run a { p with w3 := p.w3 &&& ~~~0x400#64 }
  let s := s.unitWrite (a + 0x40) ((s.stat0 a &&& ~~~0xFFFF#64) ||| (s.impEpoch a + 1).setWidth 64)
  (s.startWorkers a (s.schedAt a) (s.impWorkers a)).setCounts a (s.impCells a) (s.impDone a) (s.impClaimed a) 0

/-- The switches of a closing domain of a run: every waiting schedule of a block whose home is a member, resident or pre-empted,
and whose level the close covers (R327, R301, R328). -/
def State.switches (s : State) (run : Nat) (members : List Nat) (level : Nat) : State :=
  members.foldl (fun s k =>
    ((s.pendings k run).map Prod.fst).foldl (fun s a =>
      if (s.pendingAt run a).w3.getLsbD 10 && s.impAct a && s.impLevel a ≤ level then s.switchBlock run a else s) s) s

end Sys2Proof.Machine
end

