-- ==== Sys2Proof/Machine/Supersteps.lean ====
section
/-! DEFINITION. Exchange plans (R169 to R174, R312) and the superstep close (R151, R300 to R305). -/

namespace Sys2Proof.Machine

/-! ### What a core holds of a run at a close -/

/-- A core's part in the closes of a run: the run is resident there, or saved by a pre-emption, which keeps its arrival and
its window (R305). -/
structure Stand where
  plan : Plan
  kbin : KeyBins
  arrived : Option (BitVec 3)
  /-- It has no live continuation and no matrix instruction under way (R300, R272). -/
  finished : Bool
  /-- Engine commands of a strict phase are left (R302). -/
  strictLeft : Bool
  /-- A stop or a replay holds it. -/
  halted : Bool
  deriving DecidableEq, Repr

/-- A core's part in the closes of a run, if it holds the run. A saved core whose close has completed waits to be
restored. -/
def State.stand (s : State) (run core : Nat) : Option Stand :=
  let k := s.coreAt core
  if k.run = some run then
    some { plan := k.plan, kbin := k.kbin, arrived := k.arrived, finished := (s.liveWaits core).isEmpty && !k.u.mx.busy,
           strictLeft := !(k.xmode || k.arrived.isNone || (k.u.copy.before = 0 && k.u.epi.before = 0)),
           halted := k.stopped || k.dbg.replaying }
  else
    match k.saved with
    | none => none
    | some sv =>
      if sv.run ≠ run then none
      else
        some { plan := sv.plan, kbin := sv.kbin, arrived := if sv.phase = .exchange then sv.arrived else none,
               finished := sv.ctxs.all Option.isNone && sv.ready.isEmpty && sv.waiting.isEmpty && !sv.mx.busy,
               strictLeft := !(sv.xmode || sv.arrived.isNone || (sv.copy.before = 0 && sv.epi.before = 0)),
               halted := sv.wasStopped }
/-- The plan of a run on a core. -/
def State.planAt (s : State) (run core : Nat) : Plan := match s.stand run core with | some x => x.plan | none => Plan.reset
/-- Sets the plan of a run on a core. -/
def State.setPlanAt (s : State) (run core : Nat) (p : Plan) : State :=
  let k := s.coreAt core
  if k.run = some run then s.setCoreAt core { k with plan := p }
  else
    match k.saved with
    | some sv => if sv.run = run then s.setCoreAt core { k with saved := some { sv with plan := p } } else s
    | none => s

/-! ### Plan entries (R170, R173) -/

/-- A plan entry taken apart (R170). -/
structure Move where
  wf : Bool
  len : Nat
  src : Nat
  dests : List Nat
  doff : Nat
  deriving DecidableEq, Repr

/-- The destinations of an entry: one core, or a rectangle in row-major order (R170). -/
def destCores (w2 : Word) : List Nat :=
  if w2.getLsbD 63 then
    rectCores (w2.extractLsb' 0 2).toNat (w2.extractLsb' 2 4).toNat (w2.extractLsb' 6 5).toNat
      ((w2.extractLsb' 11 4).toNat + 1) ((w2.extractLsb' 15 5).toNat + 1)
  else [(w2.extractLsb' 0 11).toNat]
/-- A rectangle stays below row 16 and column 24; a core number's upper bits are 0 (R170, R173). -/
def destWf (w2 : Word) : Bool :=
  if w2.getLsbD 63 then
    (w2.extractLsb' 2 4).toNat + (w2.extractLsb' 11 4).toNat < 16 && (w2.extractLsb' 6 5).toNat + (w2.extractLsb' 15 5).toNat < 24
  else w2.extractLsb' 11 9 = 0

/-- An entry taken apart (R170). -/
def entryMove (e : PlanEntry) : Move :=
  let len := (e.w0.extractLsb' 32 20).toNat
  let src := (e.w1.extractLsb' 0 20).toNat
  let doff := (e.w3.extractLsb' 0 20).toNat
  { wf := e.w0.extractLsb' 52 12 = 0 && e.w1.extractLsb' 20 44 = 0 && e.w2.extractLsb' 20 43 = 0 && e.w3.extractLsb' 20 44 = 0
      && len ≠ 0 && len % 32 = 0 && src % 32 = 0 && doff % 32 = 0 && destWf e.w2,
    len := len, src := src, dests := destCores e.w2, doff := doff }
/-- Entry `i` of a plan in memory (R170). -/
def State.planEntry (s : State) (core off i : Nat) : Move := entryMove (s.entryAt core off i)

/-- A fault of an entry: cause and EVAL (R174). -/
abbrev EntryFault := BitVec 8 × Nat

/-- The place an entry of a run has at a destination (R173). As EVAL of a destination without a window it is reckoned from what
WBASE there holds: the model's choice (R174; log 63). -/
def State.landing (s : State) (run dst doff : Nat) : Nat := localBase dst + (s.planAt run dst).wbase.toNat + doff

/-- The source checks of R173, in their order; `members`: the domain. For a malformed entry, where no address fails, EVAL is
the source address: the model's choice (log 63). -/
def State.sourceFault (s : State) (run core : Nat) (members : List Nat) (area : Nat × Nat) (e : Move) : Option EntryFault :=
  if !e.wf then some (0x02, localBase core + e.src)
  else if !within (e.src, e.src + e.len) area then some (0x09, localBase core + e.src)
  else
    match e.dests.find? (fun d => !(members.contains d && d / 768 == core / 768 && decide (d < s.numCores))) with
    | some d => some (0x0D, s.landing run d e.doff)
    | none => none

/-- The checks of R173 at a destination. -/
def State.destFault (s : State) (run : Nat) (e : Move) (dst : Nat) : Option EntryFault :=
  let p := s.planAt run dst
  if !p.en then some (0x0D, s.landing run dst e.doff)
  else if p.wsize.toNat < e.doff + e.len then some (0x09, s.landing run dst e.doff)
  else none

/-! ### The fault record (R174) -/

/-- Bits of the destinations that are written (R174). -/
def State.destMask (s : State) (run : Nat) (e : Move) : Nat :=
  ((List.range e.dests.length).zip e.dests).foldl (fun m x => if (s.destFault run e x.2).isNone then m + 2 ^ x.1 else m) 0

/-- The place of a plan's fault record: after its latched COUNT of entries (R169, R170). -/
def faultPlace (core : Nat) (p : Plan) : Nat := localBase core + p.offset.toNat * 32 + 32 + 32 * p.count.toNat

/-- One more failing entry: the first writes the record, every one is counted (R174). -/
def State.planFailure (s : State) (run core i : Nat) (f : EntryFault) (mask : Nat) : State :=
  let p := s.planAt run core
  let n := if p.nfail = BitVec.allOnes 16 then p.nfail else p.nfail + 1
  let place := faultPlace core p
  match p.fault with
  | some _ => ((s.setPlanAt run core { p with nfail := n }).setBytes (place + 6) (leBytes 2 n.toNat)).clearTags place 32
  | none =>
    (s.setPlanAt run core { p with nfail := n, fault := some (f.1, BitVec.ofNat 64 place) }).writeHome place
      (leBytes 8 (i % 65536 + 2 ^ 24 * f.1.toNat + 2 ^ 48 * n.toNat) ++ leBytes 8 (f.2 % 2 ^ 48) ++ leBytes 48 mask)

/-! ### Departing and landing (R171 to R173) -/

/-- The transfers of an entry, one a destination. -/
def State.transfers (s : State) (run core i : Nat) (e : Move) : List Exchange :=
  let a := localBase core + e.src
  e.dests.map (fun d =>
    .transfer run core d i e.doff (s.bytesAt a e.len) ((List.range (e.len / 32)).map (fun g => s.poisonAt (a + 32 * g))))

/-- The next entry of a core's plan departs (R171, R173): a source failure sends nothing; destinations that will refuse
it are recorded. -/
def State.departEntry (s : State) (run core : Nat) : State :=
  match s.stand run core, s.run? run with
  | some x, some r =>
    match x.plan.next, x.arrived with
    | some i, some level =>
      match x.plan.entries[i]? with
      | none => s.setPlanAt run core { x.plan with next := none }
      | some w =>
        let e := entryMove w
        let s := s.setPlanAt run core { x.plan with next := some (i + 1) }
        match s.sourceFault run core (s.members r.domain level.toNat core) r.area e with
        | some f => s.planFailure run core i f 0
        | none =>
          let s := match e.dests.findSome? (s.destFault run e) with
            | some f => s.planFailure run core i f (s.destMask run e)
            | none => s
          { s with press := { s.press with exchange := s.press.exchange ++ s.transfers run core i e } }
    | _, _ => s
  | _, _ => s

/-- Lateness counted at a destination (R172; log 17). -/
def State.countLate (s : State) (run dst : Nat) : State :=
  let l := Config.lateness s.tick
  if l = 0 then s
  else
    let p := s.planAt run dst
    let s := s.setPlanAt run dst { p with late := p.late + 1, maxLate := BitVec.ofNat 16 (min 0xFFFF (max p.maxLate.toNat l)) }
    if (s.coreAt dst).run = some run then s.count dst 14 1 else s

/-- A transfer lands: checked at its destination, its granules' tags cleared and their poison carried (R173); at a core whose
share of the run is saved it lands in place (R305). One whose way has gone down is refused: nothing is written (R285; log 71). -/
def State.land (s : State) (run src dst doff : Nat) (bytes : List Byte) (poison : List Bool) : State :=
  let e : Move := { wf := true, len := bytes.length, src := 0, dests := [dst], doff := doff }
  if s.pathRefuses (.copy src) (localBase dst) .write then s.securityEvent
  else if (s.destFault run e dst).isSome then s
  else
    let a := s.landing run dst doff
    let s := (s.setBytes a bytes).clearTags a bytes.length
    let s := ((List.range poison.length).zip poison).foldl (fun s x => (s.setPoison (a + 32 * x.1) x.2).markForeign (.copy src) (a + 32 * x.1)) s
    s.countLate run dst

/-- What an entry of the exchange channel does at its destination (R151). -/
def State.performExchange (s : State) : Exchange → State
  | .transfer run src dst _ doff bytes poison => s.land run src dst doff bytes poison
  | .pair run src dst _ key value =>
    match s.stand run dst with
    | some x => s.pairArrives x.kbin src dst key value
    | none => s

/-- An entry of the exchange channel is a run's, from one of some cores. -/
def exchangeFrom (run : Nat) (members : List Nat) : Exchange → Bool
  | .transfer r src _ _ _ _ _ => r == run && members.contains src
  | .pair r src _ _ _ _ => r == run && members.contains src

/-! ### The close (R151, R300 to R302) -/

/-- A core of the run has arrived at a level, or is finished (R300, R301, R305). -/
def State.arrivedAt (s : State) (run level core : Nat) : Bool :=
  match s.stand run core with
  | none => false
  | some x => match x.arrived with
    | some l => decide (level ≤ l.toNat)
    | none => x.finished
/-- A core of the run waits for the close of exactly this level. -/
def State.waitsAt (s : State) (run level core : Nat) : Bool :=
  match s.stand run core with
  | some x => x.arrived == some (BitVec.ofNat 3 level)
  | none => false

/-- Every member has arrived, and one waits for the close of this level (R301). -/
def State.mayClose (s : State) (run level : Nat) (members : List Nat) : Bool :=
  members.all (s.arrivedAt run level) && members.any (s.waitsAt run level)

/-- The copy hart of a core runs the plan of a closing domain: nothing else of it moves until the last entry has departed
(R162). -/
def State.planRuns (s : State) (core : Nat) : Bool :=
  (s.coreAt core).plan.next.isSome && (match s.runOn core, (s.coreAt core).arrived with
    | some r, some level => s.mayClose r.id.toNat level.toNat (s.members r.domain level.toNat core)
    | _, _ => false)

/-- PLAN_ENTRY_DEPART (R171, R302): once every member of the closing domain has arrived. -/
def execPlanEntryDepart (core : Nat) (s : State) : Host.Outcome State Fault Refusal :=
  match s.runOn core, (s.coreAt core).arrived with
  | some r, some level =>
    if s.mayClose r.id.toNat level.toNat (s.members r.domain level.toNat core) then .next (s.departEntry r.id.toNat core)
    else .next s
  | _, _ => .next s

/-- An entry of the exchange channel waits for a link on its way that retrains (R285). -/
def State.exchangeHeld (s : State) : Exchange → Bool
  | .transfer _ src dst _ _ _ _ => s.pathHeld (.copy src) (localBase dst)
  | .pair _ src dst _ _ _ => s.pathHeld (.ctx src 0) (localBase dst)
/-- PLAN_ENTRY_LAND (R173, R305): entry `k` of the exchange channel, when it is a transfer of a run that its core holds. -/
def execPlanEntryLand (k : Nat) (s : State) : Host.Outcome State Fault Refusal :=
  match s.press.exchange[k]? with
  | some (.transfer run src dst _ doff bytes poison) =>
    if (s.stand run dst).isSome && !s.pathHeld (.copy src) (localBase dst) then
      .next ({ s with press := { s.press with exchange := dropAt s.press.exchange k } }.land run src dst doff bytes poison)
    else .next s
  | _ => .next s

/-- The rest of a core's plan departs. -/
def State.departAll (s : State) (run core : Nat) : Nat → State
  | 0 => s
  | n + 1 => if (s.planAt run core).next.isSome then (s.departEntry run core).departAll run core n else s
/-- Entries a plan can have left, and one turn to see its end. -/
def planFuel : Nat := 65536

/-- The agents of a core (R151). -/
def coreAgents (core : Nat) : List Agent :=
  [.ctx core 0, .ctx core 1, .ctx core 2, .ctx core 3, .copy core, .epi core]
/-- The agents with something on its way: contexts, written-back continuations, engine harts. -/
def State.busyAgents (s : State) : List Agent :=
  ((s.press.queues ++ s.press.fifo ++ s.press.props.map Propagation.piece).map Piece.agent).eraseDups

/-- R151, steps 1 to 3, for a run's domain of a level. -/
def State.closeStep (s : State) (run : Nat) (members : List Nat) (level : Nat) : State :=
  let ours (a : Agent) : Bool := match agentCore a with | some k => members.contains k | none => false
  let s := (s.busyAgents.filter ours).foldl State.flush s
  let s := (s.cores.map Prod.fst).foldl (fun s k => s.takeFrom k (fun e => e.run == run && ours e.agent) (fun s e => s.replayEntry k e)) s
  let mine := s.press.exchange.filter (exchangeFrom run members)
  let s := { s with press := { s.press with exchange := s.press.exchange.filter (fun x => !exchangeFrom run members x) } }
  let s := mine.foldl State.performExchange s
  let dies := members.map (· / 384)
  let s := s.dropViews (fun x =>
    ours x.agent || (3 ≤ level && (match x.agent with | .port p => dies.contains (agentDie (.port p)) | _ => false)))
  (s.cores.map Prod.fst).foldl (fun s k => s.dropLines k (fun l =>
    match placeCore l.pa with | some m => members.contains m | none => false)) s

/-- A context that waited at the close goes on with SSTEP in its register, or takes the trap of a failing plan (R174,
R310). -/
def State.resumeSlot (s : State) (core slot : Nat) (fault : Option (BitVec 8 × Word)) : State :=
  let a := Agent.ctx core slot
  let c := s.ctxOf a
  match c.susp with
  | none => s
  | some w =>
    if w.reason ≠ .xsync then s
    else
      match fault with
      | none => s.setCtxOf a ({ c with susp := none }.setG w.dst (s.coreAt core).sstep)
      | some f =>
        (s.setCtxOf a { c with susp := none, pc := xsyncPc c.pc }).asAgent a (fun t => t.takeTrap f.1 f.2 0)

/-- The copy hart writes LATEIN and MAXLATE of a core that holds a run, and counts anew (R170). -/
def State.writeLate (s : State) (run core : Nat) : State :=
  let p := s.planAt run core
  if p.en then
    let a := localBase core + p.offset.toNat * 32
    ((s.setBytes (a + 24) (leBytes 8 (p.late.toNat + 2 ^ 32 * p.maxLate.toNat))).clearTags a 32).setPlanAt run core
      { p with late := 0, maxLate := 0 }
  else s

/-- The trap of a failing plan that a written-back continuation takes at its XSYNC, whose PC its record gives, once it is loaded
(R174). -/
def State.owe (s : State) (core : Nat) (p : Parked) (f : BitVec 8 × Word) : State :=
  let a := Agent.cont core p.recAddr.toNat
  s.setCtxOf a { s.ctxOf a with owed := some (f.1, f.2, 0) }

/-- LATEIN in the header of a core's plan, as the close has written it; 0 without a plan (R170, R377). -/
def State.lateIn (s : State) (core : Nat) : Word :=
  let p := (s.coreAt core).plan
  if p.en then (s.wordAt (localBase core + p.offset.toNat * 32 + 24)).setWidth 32 |>.setWidth 64 else 0
/-- The next compute phase of a core begins after a close of a level (R302, R304); the launch's own close sets COUNT to 0 (R307). A failing plan's trap goes to the lowest
slot that waited, or, where every continuation that waited was written back, to the one written back first (R174;
log 63). -/
def State.beginPhase (s : State) (core : Nat) (level : BitVec 3) : State :=
  let k := s.coreAt core
  let fault := k.plan.fault
  let s := s.setCoreAt core { k with
    phase := .compute, xmode := k.xnext, sstepLevel := level,
    sstepCount := if k.phase = .outside then 0 else if k.sstepCount = BitVec.allOnes 32 then k.sstepCount else k.sstepCount + 1,
    arrived := none, stopped := false, closed := none, plan := { k.plan with next := none, fault := none, nfail := 0 },
    dbg := { k.dbg with foreign := [], count := 0, groups := 0, touched := false } }
  let s := s.trace core 0 2 (level.setWidth 64) (s.lateIn core)
  let slots := (List.range 4).filter (fun i => atXsync level.toNat (s.ctxOf (.ctx core i)).susp)
  let s := slots.foldl (fun s i => s.resumeSlot core i (if some i = slots.head? then fault else none)) s
  let parked := (s.coreAt core).u.waiting.filter (fun p => p.susp.reason = .xsync)
  parked.foldl (fun s p =>
    match if slots = [] && some p = parked.head? then fault else none with
    | some f => (s.owe core p f).makeReady core p
    | none => (s.writeImageG core p (s.coreAt core).sstep).makeReady core p) s
/-- The close of a core's arrival has completed: its next compute phase begins, at once, or, where its share of the run is
saved, when the run is resident again (R305). -/
def State.resumeCore (s : State) (run core : Nat) (level : BitVec 3) : State :=
  let k := s.coreAt core
  if k.run = some run then s.beginPhase core level
  else
    match k.saved with
    | some sv => s.setCoreAt core { k with saved := some { sv with phase := .compute } }
    | none => s

/-! ### Stops at a close (R370, R374) -/

/-- The keys of a sparse set that lie in a core's local memory. -/
def localKeys (core : Nat) (xs : List (Nat × Bool)) : List Nat :=
  (xs.map Prod.fst).filter (fun k => localBase core ≤ 32 * k && 32 * k < localBase core + 2 ^ 20)

/-- Writes to the weight stores of every die (R376). -/
def State.rewrites (s : State) : Nat := (List.range s.numDies).foldl (fun n d => n + (s.die d).rewrites) 0
/-- A boundary snapshot of a core (R374). -/
def State.snapshot (s : State) (core : Nat) : Snapshot :=
  { core := core, count := (s.coreAt core).sstepCount, ctxs := (List.range 4).map (fun i => s.ctxOf (.ctx core i)),
    state := s.coreAt core, bytes := s.mem.filter (fun p => localBase core ≤ p.1 && p.1 < localBase core + 2 ^ 20),
    tags := localKeys core s.tags, poison := localKeys core s.poison, rewrites := s.rewrites }

/-- A stop holds a core's part of a run; `closed`: the level of the close, where it was the core's own. -/
def State.holdCore (s : State) (run core : Nat) (closed : Option (BitVec 3)) : State :=
  let k := s.coreAt core
  if k.run = some run then s.setCoreAt core { k with stopped := true, closed := closed }
  else
    match k.saved with
    | some sv =>
      if sv.run = run then s.setCoreAt core { k with saved := some { sv with wasStopped := true, closed := closed } } else s
    | none => s
/-- A stop taken by a domain at a close of level `at'`: its members stay in the exchange phase (R370), those `mine` whose close
it was to begin the next phase once the stop is lifted; traced, with snapshots when replay is armed. -/
def State.takeStop (s : State) (run level at' : Nat) (members mine : List Nat) : State :=
  let armed := match s.run? run with | some r => r.dbg.replay | none => false
  let s := members.foldl (fun s k =>
    (s.holdCore run k (if mine.contains k then some (BitVec.ofNat 3 at') else none)).trace k 0 7 (BitVec.ofNat 64 level) 0) s
  let s := s.updRun run (fun r => { r with state := .stopped, dbg := { r.dbg with stoppedAt := some (BitVec.ofNat 3 level) } })
  if armed then
    let t := members.foldl (fun t k => t.writeSnapshot run k) s
    { t with dev := { t.dev with snapshots := t.dev.snapshots ++ members.map s.snapshot } }
  else s

/-- A close of a level takes the stop asked for (R370); not while the run is pre-empted, which completes first (R371). -/
def Run.stopsAt (r : Run) (level : Nat) : Option Nat :=
  match r.dbg.stopLevel with
  | some l => if l.toNat ≤ level && r.state != .preempted then some l.toNat else none
  | none => none

/-- The close of the level-`level` domain that holds a core (R302): plans, landings, engines of strict phases, the close
step, the imposition unit's switches (R327), a stop (R410) or the next compute phase. -/
def State.close (s : State) (r : Run) (level core : Nat) : State :=
  let run := r.id.toNat
  let members := s.members r.domain level core
  let mine := members.filter (s.waitsAt run level)
  let s := mine.foldl (fun s k => s.departAll run k planFuel) s
  let s := s.closeStep run members level
  let s := members.foldl (fun s k => s.writeLate run k) s
  let s := s.switches run members level
  match r.stopsAt level with
  | some l => s.takeStop run l level members mine
  | none => mine.foldl (fun s k => s.resumeCore run k (BitVec.ofNat 3 level)) s

/-- The initial close of a run, of level its own, on the card of a core: it carries no transfers and runs no plan, and each card's
command complex completes it for its own cores (R307, R364). -/
def State.openRun (s : State) (r : Run) (core : Nat) : State :=
  let run := r.id.toNat
  let level := r.domain.level.toNat
  let members := (s.runCores r).filter (fun k => k / 768 == core / 768)
  let s := s.updRun run (fun x => { x with opened := core / 768 :: x.opened })
  match r.stopsAt level with
  | some l => s.takeStop run l level members members
  | none => members.foldl (fun s k => s.resumeCore run k r.domain.level) s
/-- What a close must perform waits for a link that retrains: a store of a member's agents, or what the exchange channel holds of
them (R285). -/
def State.closeHeld (s : State) (run : Nat) (members : List Nat) : Bool :=
  s.busyAgents.any (fun a => (match agentCore a with | some k => members.contains k | none => false) && s.writesWait a)
    || s.press.exchange.any (fun x => exchangeFrom run members x && s.exchangeHeld x)
/-- SUPERSTEP_CLOSE (R301, R302, R305): when every member has arrived and the engines of strict phases have done what was
issued before. The first on each card is the run's initial close (R364). -/
def execSuperstepClose (run level core : Nat) (s : State) : Host.Outcome State Fault Refusal :=
  match s.run? run with
  | none => .next s
  | some r =>
    let members := s.members r.domain level core
    let isOpen (k : Nat) : Bool := r.opened.contains (k / 768)
    let free (k : Nat) : Bool := match s.stand run k with | some x => !x.strictLeft && !x.halted | none => false
    if r.ending.isNone && !isOpen core then
      if level = r.domain.level.toNat && members.contains core then .next (s.openRun r core) else .next s
    else if r.ending.isNone && members.all isOpen && level ≤ r.domain.level.toNat && s.mayClose run level members && members.all free
        && !s.closeHeld run members then
      .next (s.close r level core)
    else .next s

/-! ### XPLAN (R312) -/

/-- The checks of XPLAN on every entry (R312). -/
def planEntries (run core off n : Nat) (members : List Nat) (area : Nat × Nat) : M Unit :=
  (List.range n).forM (fun i => do
    let s ← get
    match s.sourceFault run core members area (s.planEntry core off i) with
    | some f => trap f.1 (BitVec.ofNat 64 (entryPlace core off i))
    | none => pure ())

/-- XPLAN (R312). -/
def execXplan (f : QFields) (s : State) : Host.Outcome State Fault Refusal :=
  runInstr (.xplan f) (do
    need (s.ctx.sr.cid = 1) 0x0A 0x018
    if f.imm.getLsbD 0 then do
      writePlansel (s.core.plan.word &&& ~~~(1#64 <<< 63))
      step1 (fun t => t.setG f.d 0)
    else do
      let c := s.c f.c
      let x := (s.g f.x).toInt
      let level := (f.imm.extractLsb' 1 3).toNat
      let lv : Word := (f.imm.extractLsb' 1 3).setWidth 64
      need (match s.runLevel with | some l => level ≤ l | none => false) 0x0D lv
      capCheck c .L x 0
      need (c.fmt = 0) 0x0E (c.fmt.setWidth 64)
      capCheck c .L (x + 31) 0
      need (x % 32 = 0) 0x18 (s.g f.x)
      let a ← elemAddr c x 0
      need (a % 32 = 0) 0x18 (BitVec.ofNat 64 a)
      need (isLocal a && localCore a = s.coreNo) 0x0D (c.base.setWidth 64)
      let off := a % 2 ^ 20
      let v : Word := BitVec.ofNat 64 (2 ^ 63 + off)
      modify (fun t => t.settleLocal off 32)
      match (← get).planHeader s.coreNo off with
      | none => trap 0x02 v
      | some h => do
        need ((← get).planOk off h) 0x02 v
        modify (fun t => t.settleLocal off (32 + 32 * h.count))
        match s.runOn s.coreNo with
        | some r => planEntries r.id.toNat s.coreNo off h.count (s.members r.domain level s.coreNo) s.area
        | none => pure ()
        writePlansel v
        step1 (fun t => t.setG f.d (BitVec.ofNat 64 h.count))) s

end Sys2Proof.Machine
end

