-- ==== Sys2Proof/Machine/Sweep.lean ====
section
/-! DEFINITION. Vector instructions that reach memory: tiles (R120, R121), gathers and scatters (R122), and the sweeps
(R247 to R252). -/

namespace Sys2Proof.Machine

/-! ### Runs of bytes -/

/-- Loads `n` bytes from a virtual address, granule by granule. -/
def loadRun : Nat → Nat → Nat → Nat → M (List Byte)
  | 0, _, _, _ => pure []
  | fuel + 1, va, n, ord =>
    if n = 0 then pure []
    else do
      let k := min n (32 - va % 32)
      let r ← load va k ord
      let rest ← loadRun fuel (va + k) (n - k) ord
      pure (r.1 ++ rest)
/-- The value of `n` bytes from a virtual address, little-endian. -/
def loadNat (va n ord : Nat) : M Nat := do pure (leNat (← loadRun (n / 32 + 2) va n ord))

/-- What an access stores to one aligned 64-byte line: the lowest address, the data and the mask (R81, R155). -/
structure LineStore where
  va : Nat
  data : BitVec 512
  mask : BitVec 512
  deriving DecidableEq, Repr
/-- More bits of the access in a line: in the line's store where it has one, over what stands there. -/
def addLine (x : LineStore) : List LineStore → List LineStore
  | [] => [x]
  | y :: rest =>
    if y.va / 64 = x.va / 64 then
      { va := min y.va x.va, data := (y.data &&& ~~~x.mask) ||| x.data, mask := y.mask ||| x.mask } :: rest
    else y :: addLine x rest
/-- The bits of `x` under `m` over `n` bytes at an address join the stores of an access. -/
def addRun : Nat → Nat → Nat → Nat → Nat → List LineStore → List LineStore
  | 0, _, _, _, _, ls => ls
  | fuel + 1, va, n, x, m, ls =>
    if n = 0 then ls
    else
      let off := va % 64
      let k := min n (64 - off)
      let w := 2 ^ (8 * k)
      addRun fuel (va + k) (n - k) (x / w) (m / w)
        (addLine { va := va, data := BitVec.ofNat 512 (x % w * 2 ^ (8 * off)), mask := BitVec.ofNat 512 (m % w * 2 ^ (8 * off)) } ls)
/-- The stores of an access: one piece and one write per line (R81, R155). -/
def storeLines (ls : List LineStore) (ord : Nat) : M Unit :=
  ls.forM (fun x => storeBits x.va x.data x.mask 0 Cap.null ord)

/-- The bytes and the shift of `n` consecutive elements of `w` bits from linear position `lin`. -/
def runShape (w : Nat) (lin : Int) (n : Nat) : Nat × Nat :=
  let sh := if w = 4 && lin % 2 = 1 then 4 else 0
  ((sh + w * n + 7) / 8, sh)

/-- The bits of `n` consecutive elements of a capability from (i0, i1), as they stand in memory. -/
def loadRow (c : Cap) (w n ord : Nat) (i0 i1 : Int) : M Nat := do
  let a ← elemAddr c i0 i1
  let _ ← elemAddr c (i0 + n - 1) i1
  let q := runShape w (c.lin i0 i1) n
  let x ← loadNat a q.1 ord
  pure (x / 2 ^ q.2 % 2 ^ (w * n))
/-- The bits of `n` consecutive elements join the stores of an access. -/
def addRow (c : Cap) (w n : Nat) (i0 i1 : Int) (x : Nat) (ls : List LineStore) : M (List LineStore) := do
  let a ← elemAddr c i0 i1
  let _ ← elemAddr c (i0 + n - 1) i1
  let q := runShape w (c.lin i0 i1) n
  pure (addRun (q.1 / 64 + 2) a q.1 (x % 2 ^ (w * n) * 2 ^ q.2) ((2 ^ (w * n) - 1) * 2 ^ q.2) ls)
/-- Stores rows of `n` elements, the first at (i0, i1) and each in the next row of the capability (R121). -/
def storeRows (c : Cap) (w n ord : Nat) (i0 i1 : Int) (xs : List Nat) : M Unit := do
  let ls ← ((List.range xs.length).zip xs).foldlM (fun ls x => addRow c w n i0 (i1 + x.1) x.2 ls) []
  storeLines ls ord

/-- The p-plane values of `n` BPI elements from (i0, i1), as packed bytes (R120, R184). -/
def loadPlanes (c : Cap) (n ord : Nat) (i0 i1 : Int) : M Nat := do
  let p := Fmt.planes c.fmt.toNat
  let xs ← (List.range n).mapM (fun t => do
    let a ← elemAddr c (i0 + t) i1
    loadBpi p a (c.lin (i0 + t) i1) ord)
  pure (leNat (xs.map (BitVec.ofNat 8)))
/-- The first `p` planes of `n / 256` blocks from (i0, i1), planes from `p` up zero (R120). -/
def loadBlocks (c : Cap) (p n ord : Nat) (i0 i1 : Int) : M Nat := do
  let xs ← (List.range (n / 256)).mapM (fun t => do
    let a ← elemAddr c (i0 + 256 * t) i1
    loadNat a (32 * p) ord)
  pure (xs.foldr (fun x acc => x + 2 ^ 2048 * acc) 0)

/-! ### Tiles (R120, R121) -/

/-- The instructions of 64-bit major 9. -/
inductive TileKind where
  | vld | vst | gather | scatter
  deriving DecidableEq, Repr

/-- A capability's format accepts the format of a vector access (R120). -/
def tileAccepts (k : TileKind) (cf ty : Nat) : Bool :=
  Fmt.sameGroup cf ty
    || ((k = .vld || k = .gather) && Fmt.isBpi cf && ty = 1)
    || ((k = .vld || k = .vst) && Fmt.isBpi ty && cf = Fmt.byte)
    || (k = .vld && Fmt.isBpi ty && Fmt.isBpi cf && Fmt.planes ty ≤ Fmt.planes cf)

/-- The checks of R121 that need no memory; `i0` matters to VLD and VST. -/
def tileChecks (f : MFields) (block : Bool) (i0 : Int) : M Unit := do
  let s ← get
  let ty := f.ty.toNat
  checkTile ty
  need (!Fmt.isBpi ty || s.cols % 256 = 0) 0x02 s.ctx.sr.vshape
  need (!(block && Fmt.isBpi ty) || i0 % 256 = 0) 0x18 (evalOf i0)

/-- The checks of R121 on the two corners. -/
def tileCorners (k : TileKind) (f : MFields) (c : Cap) (i0 i1 : Int) : M Unit := do
  let s ← get
  let kind := if k = .vld then Kind.L else .S
  let ok := tileAccepts k c.fmt.toNat f.ty.toNat
  let _ ← accCheck c kind ok 1 i0 i1
  let _ ← accCheck c kind ok 1 (i0 + s.cols - 1) (i1 + s.rows - 1)

/-- The bits of a row of a tile in memory (R120). -/
def loadTileRow (f : MFields) (c : Cap) (n : Nat) (i0 i1 : Int) : M Nat :=
  let ty := f.ty.toNat
  let cf := c.fmt.toNat
  if Fmt.isBpi cf && !Fmt.isBpi ty then loadPlanes c n f.ord.toNat i0 i1
  else if Fmt.isBpi ty && Fmt.isBpi cf then loadBlocks c (Fmt.planes ty) n f.ord.toNat i0 i1
  else loadRow c (if Fmt.isBpi ty then 8 else elemBits ty) n f.ord.toNat i0 i1

/-- The bits an element takes in a register (R222). -/
def regBits (ty : Nat) : Nat := if Fmt.isBpi ty then 8 else elemBits ty

/-- The elements that a VLD issued by parts has read are forgotten. -/
def State.noPart (s : State) : State := s.setCtx { s.ctx with vpart := none }
/-- A VLD that traps leaves nothing of its parts. -/
def wholeLoad (x : M (Option Word)) : M (Option Word) := fun s =>
  match x s with
  | .error (.trap c e n) _ => .error (.keep c e 0) (s.noted n).noPart
  | r => r

/-- VLD (R121): the register is written once every element has been read. -/
def execVld (f : MFields) (s : State) : Host.Outcome State Fault Refusal :=
  runInstr (.vld f) (wholeLoad (do
    let c := s.c f.c
    let i0 := s.index0 f
    let i1 := s.index1 f
    tileChecks f true i0
    tileCorners .vld f c i0 i1
    let rows ← (List.range s.rows).mapM (fun r => loadTileRow f c s.cols i0 (i1 + r))
    let d : BitVec 3 := f.t.setWidth 3
    step1 (fun t => (t.setV d ((List.range s.rows).zip rows |>.foldl
      (fun v x => setElem v (regBits f.ty.toNat * s.cols) x.1 x.2) (t.v d))).noPart))) s

/-- The next element of a VLD, or block of a BPI one, as a read of its own; the last one writes the register (R121, R141,
R142). -/
def vldPart (f : MFields) : M (Option Word) := wholeLoad (do
  let s ← get
  let c := s.c f.c
  let ty := f.ty.toNat
  let d : BitVec 3 := f.t.setWidth 3
  let x := s.ctx.vpart.getD (0, s.v d)
  if s.ctx.vpart.isNone then do
    tileChecks f true (s.index0 f)
    tileCorners .vld f c (s.index0 f) (s.index1 f)
  let n := if Fmt.isBpi ty && Fmt.isBpi c.fmt.toNat then 256 else 1
  let e := x.1 * n
  let bits ← loadTileRow f c n (s.index0 f + (e % s.cols : Nat)) (s.index1 f + (e / s.cols : Nat))
  let v := setElem x.2 (regBits ty * n) x.1 bits
  if e + n < s.rows * s.cols then do
    modify (fun t => t.setCtx { t.ctx with vpart := some (x.1 + 1, v) })
    throw .again
  else step1 (fun t => (t.setV d v).noPart))

/-- VST (R121). -/
def execVst (f : MFields) (s : State) : Host.Outcome State Fault Refusal :=
  runInstr (.vst f) (do
    let c := s.c f.c
    let i0 := s.index0 f
    let i1 := s.index1 f
    let w := regBits f.ty.toNat
    tileChecks f true i0
    tileCorners .vst f c i0 i1
    storeRows c w s.cols f.ord.toNat i0 i1 ((List.range s.rows).map (elemAt (s.v (f.t.setWidth 3)) (w * s.cols)))
    pure none) s

/-! ### Progress (R122, R248, R250) -/

/-- VPROG := `n`. -/
def State.setVprog (s : State) (n : Nat) : State := s.setSr { s.ctx.sr with vprog := BitVec.ofNat 16 n }
/-- VPROG. -/
def State.vprog (s : State) : Nat := s.ctx.sr.vprog.toNat

/-- An action of which a stop undoes everything, and nothing that came before it: what was done stays (R122, R248). -/
def keeping (act : M Unit) : M Unit := fun s =>
  match act s with
  | .ok a t => .ok a t
  | .error (.trap c v n) _ => .error (.keep c v 0) (s.noted n)
  | .error .stall _ => .error .again s
  | .error (.park va mig _) _ => .error (.park va mig true) s
  | .error x t => .error x t

/-- Steps `n - k` to `n - 1` of an instruction that records its progress. -/
def stepsFrom (n : Nat) (body : Nat → M Unit) : Nat → M Unit
  | 0 => modify (fun s => s.setVprog 0)
  | k + 1 => do
    let e := n - (k + 1)
    keeping (do
      body e
      modify (fun s => s.setVprog (e + 1)))
    stepsFrom n body k

/-- A recorded instruction over `n` steps from VPROG (R122, R248). -/
def recorded (n : Nat) (body : Nat → M Unit) : M (Option Word) := do
  let p := (← get).vprog
  need (p < n) 0x02 (evalOf p)
  stepsFrom n body (n - p)
  pure none
/-- The next step of such an instruction, and no more: it issues again for the others, so that a pre-emption, a stop or any
other step of the machine can come between (R249, R340). -/
def recordedStep (n : Nat) (body : Nat → M Unit) : M (Option Word) := do
  let p := (← get).vprog
  need (p < n) 0x02 (evalOf p)
  keeping (do
    body p
    modify (fun s => s.setVprog (p + 1)))
  if p + 1 < n then throw .again
  modify (fun s => s.setVprog 0)
  pure none

/-! ### Gathers and scatters (R122) -/

/-- The index of element `e` (R122). -/
def State.gatherIndex (s : State) (f : MFields) (e : Nat) : Int :=
  (BitVec.ofNat 32 (elemAt (s.v (f.y.setWidth 3)) 32 e)).toInt
/-- The checks before the first element (R120, R122): at most 512 elements, whose indexes the register holds (R159). -/
def gatherChecks (f : MFields) : M Unit := do
  tileChecks f false 0
  let s ← get
  needOpen (s.elems ≤ 512 && 4 * s.elems ≤ s.vbytes) 0x02

/-- An element of a register written in the layout of its type (R222). -/
def setTyped (r : BitVec 16384) (ty e x : Nat) : BitVec 16384 :=
  if Fmt.isBpi ty then setBpi r (Fmt.planes ty) e x else setElem r (elemBits ty) e x
/-- An element of a register read in the layout of its type. -/
def getTyped (r : BitVec 16384) (ty e : Nat) : Nat :=
  if Fmt.isBpi ty then bpiAt r e else elemAt r (elemBits ty) e

/-- Element `e` of a gather: `s` is the state in which the instruction issued (R122). -/
def gatherStep (f : MFields) (s : State) (e : Nat) : M Unit := do
  let c := s.c f.c
  let ty := f.ty.toNat
  let d : BitVec 3 := f.t.setWidth 3
  let j := s.index0 f + s.gatherIndex f e
  let a ← accCheck c .L (tileAccepts .gather c.fmt.toNat ty) 1 j 0
  let x ← loadElem c (Fmt.size ty) f.ord.toNat j 0 a
  modify (fun t => t.setV d (setTyped (t.v d) ty e x))
/-- Element `e` of a scatter (R122). -/
def scatterStep (f : MFields) (s : State) (e : Nat) : M Unit := do
  let c := s.c f.c
  let ty := f.ty.toNat
  let j := s.index0 f + s.gatherIndex f e
  let a ← accCheck c .S (tileAccepts .scatter c.fmt.toNat ty) 1 j 0
  storeElem c (Fmt.size ty) f.ord.toNat j 0 a (getTyped (s.v (f.t.setWidth 3)) ty e)

/-- VGATHER (R122). -/
def execVgather (f : MFields) (s : State) : Host.Outcome State Fault Refusal :=
  runInstr (.vgather f) (do
    gatherChecks f
    recorded s.elems (gatherStep f s)) s

/-- VSCATTER (R122). -/
def execVscatter (f : MFields) (s : State) : Host.Outcome State Fault Refusal :=
  runInstr (.vscatter f) (do
    gatherChecks f
    recorded s.elems (scatterStep f s)) s

/-! ### Sweeps (R247 to R252) -/

/-- Elements of a segment (R247). -/
def segElems (ty : Nat) : Nat := 1024 / elemBits ty

/-- Where an operand of a segment begins, once its checks have passed (R247). `need2`: a second kind, of SWFMA's d.
`ok`: the capability's format is accepted. -/
def segCheck (c : Cap) (kinds : List Kind) (ok : Bool) (step : BitVec 16) (n j : Nat) : M (Int × Int) := do
  let w := elemBits c.fmt.toNat
  let off : Int := j * step.toInt
  let size : Int := if w = 4 then 1 else w / 8
  need (ok || w ≠ 0) 0x0E (c.fmt.setWidth 64)
  need (off % size = 0) 0x18 (evalOf (c.base.toNat + off))
  let l := if w = 4 then 2 * off else off / size
  need (0 ≤ l) 0x09 ((BitVec.ofInt 32 l).signExtend 64)
  let i0 := l % (c.ext 0 : Int)
  let i1 := l / (c.ext 0 : Int)
  kinds.forM (fun k => do
    capCheck c k i0 i1
    need ok 0x0E (c.fmt.setWidth 64)
    capCheck c k (i0 + n - 1) i1)
  need (!(w = 4 && i0 % 2 = 1)) 0x18 (evalOf (c.addr i0 i1))
  pure (i0, i1)

/-- How a sweep treats its operands. -/
structure SweepUse where
  /-- b is used. -/
  b : Bool := true
  /-- d is read as well as written. -/
  d : Bool := false
  /-- Sources are read in the format of their own capability (R247). -/
  own : Bool := false
  /-- Type F or I is asked of every capability too (R252). -/
  arith : Bool := false

/-- One segment: checks in the order d, a, b, the reads, the results, the writes (R247, R248). SWBARQ asks for one FMT of a and
b after those checks, in every segment: the model's choice (R252; log 31). `rounds` and `fn` take the source format and the
elements a, b, d. -/
def segment (f : WFields) (u : SweepUse) (p0 : Word) (rounds : Nat → Nat → Nat → Nat → Bool)
    (fn : Nat → Mode → Nat → Nat → Nat → Nat × Flags) (j : Nat) : M Unit := do
  let s ← get
  let ty := f.ty.toNat
  let n := segElems ty
  let cd := s.c f.cd
  let ca := s.c f.ca
  let cb := s.c f.cb
  let src := if u.own then ca.fmt.toNat else ty
  let fits (c : Cap) : Bool :=
    Fmt.sameGroup c.fmt.toNat ty && !Fmt.isBpi c.fmt.toNat && (!u.arith || WF.tFI c.fmt.toNat)
  let accepts (c : Cap) : Bool := if u.own then WF.tFI c.fmt.toNat else fits c
  let pd ← segCheck cd (if u.d then [.L, .S] else [.S]) (fits cd) f.sd n j
  let pa ← segCheck ca [.L] (accepts ca) f.sa n j
  let pb ← if u.b then segCheck cb [.L] (accepts cb) f.sb n j else pure (0, 0)
  needOpen (!(u.b && u.own) || ca.fmt = cb.fmt) 0x0E
  let wa := elemBits src
  let w := elemBits ty
  let xa ← loadRow ca wa n 0 pa.1 pa.2
  let xb ← if u.b then loadRow cb wa n 0 pb.1 pb.2 else pure 0
  let xd ← if u.d then loadRow cd w n 0 pd.1 pd.2 else pure 0
  let el (x w t : Nat) : Nat := x / 2 ^ (w * t) % 2 ^ w
  let mode ← modeIf ((List.range n).any (fun t => rounds src (el xa wa t) (el xb wa t) (el xd w t))) f.rnd p0
  let rs := (List.range n).map (fun t => fn src mode (el xa wa t) (el xb wa t) (el xd w t))
  storeRows cd w n 0 pd.1 pd.2 [rs.foldr (fun r acc => r.1 % 2 ^ w + 2 ^ w * acc) 0]
  modify (fun t => t.setFlags (rs.foldl (fun fl r => fl.join r.2) {}))

/-- The segments of a sweep instruction: how it treats its operands, where it rounds, what each element becomes (R252). -/
structure SweepOp where
  use : SweepUse
  rounds : Nat → Nat → Nat → Nat → Bool
  fn : Nat → Mode → Nat → Nat → Nat → Nat × Flags

/-- Segment `j` of a sweep instruction. -/
def SweepOp.step (x : SweepOp) (f : WFields) (p0 : Word) : Nat → M Unit := segment f x.use p0 x.rounds x.fn
/-- A sweep (R248). -/
def SweepOp.run (x : SweepOp) (f : WFields) (p0 : Word) : M (Option Word) := recorded f.count.toNat (x.step f p0)

/-- SWADD to SWMAX (R252). -/
def sweepBinary (op : VOp) (f : WFields) : SweepOp :=
  { use := { arith := op = .add || op = .sub || op = .mul }, rounds := fun _ _ _ _ => op.rounds f.ty.toNat,
    fn := fun _ mode a b _ => op.elem f.ty.toNat mode f.sat a b }
/-- SWFMA (R252): d is read from the destination. -/
def sweepFma (f : WFields) : SweepOp :=
  { use := { d := true }, rounds := fun _ _ _ _ => Fmt.isF f.ty.toNat,
    fn := fun _ mode a b d => fusedElem false f.ty.toNat mode f.sat a b d }
/-- SWCVT (R252). -/
def sweepCvt (f : WFields) : SweepOp :=
  { use := { b := false, own := true }, rounds := fun src _ _ _ => Fmt.isF src || Fmt.isF f.ty.toNat,
    fn := fun src mode a _ _ => convElem src f.ty.toNat mode f.sat a }
/-- SWCOPY (R252): bit patterns, tags cleared. -/
def sweepCopy : SweepOp := { use := { b := false }, rounds := fun _ _ _ _ => false, fn := fun _ _ a _ _ => (a, {}) }

/-- The exact sum of two elements of a source format, into the type (R252). -/
def sumElem (src ty : Nat) (mode : Mode) (sat : Bool) (a b : Nat) : Nat × Flags :=
  if Fmt.isF src then
    let f := floatFmt src
    let r := addF mode (f.unpack a) (f.unpack b)
    let t := convExact r.1 ty mode sat
    (t.1, r.2.join t.2)
  else convNum (.int (intRead src a + intRead src b)) ty mode sat

/-- SWBARQ (R252). -/
def sweepBarq (f : WFields) : SweepOp :=
  { use := { own := true }, rounds := fun src _ _ _ => Fmt.isF src || Fmt.isF f.ty.toNat,
    fn := fun src mode a b _ => sumElem src f.ty.toNat mode f.sat a b }

/-- SWADD (R252). -/
def execSwadd (f : WFields) (s : State) : Host.Outcome State Fault Refusal :=
  runInstr (.swadd f) ((sweepBinary .add f).run f (Instr.swadd f).p0) s
/-- SWSUB (R252). -/
def execSwsub (f : WFields) (s : State) : Host.Outcome State Fault Refusal :=
  runInstr (.swsub f) ((sweepBinary .sub f).run f (Instr.swsub f).p0) s
/-- SWMUL (R252). -/
def execSwmul (f : WFields) (s : State) : Host.Outcome State Fault Refusal :=
  runInstr (.swmul f) ((sweepBinary .mul f).run f (Instr.swmul f).p0) s
/-- SWMIN (R252). -/
def execSwmin (f : WFields) (s : State) : Host.Outcome State Fault Refusal :=
  runInstr (.swmin f) ((sweepBinary .min f).run f (Instr.swmin f).p0) s
/-- SWMAX (R252). -/
def execSwmax (f : WFields) (s : State) : Host.Outcome State Fault Refusal :=
  runInstr (.swmax f) ((sweepBinary .max f).run f (Instr.swmax f).p0) s
/-- SWFMA (R252). -/
def execSwfma (f : WFields) (s : State) : Host.Outcome State Fault Refusal :=
  runInstr (.swfma f) ((sweepFma f).run f (Instr.swfma f).p0) s
/-- SWCVT (R252). -/
def execSwcvt (f : WFields) (s : State) : Host.Outcome State Fault Refusal :=
  runInstr (.swcvt f) ((sweepCvt f).run f (Instr.swcvt f).p0) s
/-- SWCOPY (R252). -/
def execSwcopy (f : WFields) (s : State) : Host.Outcome State Fault Refusal :=
  runInstr (.swcopy f) (sweepCopy.run f (Instr.swcopy f).p0) s
/-- SWBARQ (R252). -/
def execSwbarq (f : WFields) (s : State) : Host.Outcome State Fault Refusal :=
  runInstr (.swbarq f) ((sweepBarq f).run f (Instr.swbarq f).p0) s

end Sys2Proof.Machine
end

