-- ==== Sys2Proof/Machine/Engines.lean ====
section
/-! DEFINITION. The shipped microcode of the copy and epilogue harts, step by step (R159 to R165, R274, R402, R407). -/

namespace Sys2Proof.Machine

/-! ### Commands (R163, R164) -/

/-- The hart runs shipped microcode, and nothing holds it: its core works for a run, it waits for no page, and no plan
runs on the copy hart (R158, R162, R165). -/
def State.engineRuns (s : State) (core e : Nat) : Bool :=
  let k := s.coreAt core
  k.run.isSome && k.boundary.isNone && !k.dbg.replaying && !k.gated && !(s.ctxOf (engineAgent core e)).occupied && (k.engine e).parked.isNone
    && !(e = 0 && s.planRuns core)

/-- OP of the command at the head of an engine's FIFO. -/
def State.headOp (s : State) (core e : Nat) : Option Nat :=
  let x := (s.coreAt core).engine e
  match x.fifo with
  | [] => none
  | blk :: _ => some ((if x.busy then x.w0 else s.wordAt blk.toNat).extractLsb' 0 8).toNat

/-- The first poisoned granule of a block. -/
def State.badGranule (s : State) (blk : Nat) : Option Nat := (List.range 4).find? (fun i => s.poisonAt (blk + 32 * i))

/-- The checks of R164 item 1 on words 0 and 1. -/
def blockOk (e : Nat) (w0 w1 : Word) : Bool :=
  let op := (w0.extractLsb' 0 8).toNat
  w0.extractLsb' 25 39 = 0 && w0.extractLsb' 9 7 = 0 && w1.extractLsb' 32 32 = 0 && w1.extractLsb' 0 32 ≠ 0
    && (if e = 0 then op ≤ 2 else 16 ≤ op && op ≤ 26) && !(w0.getLsbD 8 && op ≠ 0)

/-- The capabilities a command uses: SRC, DST and, where it indexes, IDX (R164); DST of an epilogue command (R274). -/
def Engine.caps (x : Engine) (e : Nat) : List Cap :=
  if e = 1 then [x.dst] else if x.w0.extractLsb' 0 8 = 0 then [x.src, x.dst] else [x.src, x.dst, x.idx]

/-- The step-start checks of R164 item 5; `begun`: a tag that is gone was lost to a sweep pass (item 8). -/
def stepChecks (begun : Bool) : List Cap → M Unit
  | [] => pure ()
  | c :: rest => do
    if !c.tag then (if begun then trap 0x0B (c.lease.setWidth 64) else trap 0x08 0)
    need (c.otype = 0) 0x0C (c.otype.setWidth 64)
    need ((← get).alive c) 0x0B (c.lease.setWidth 64)
    stepChecks begun rest

/-- The format checks of R164 item 3. Where the sizes differ, EVAL is the FMT of DST: the model's choice (log 62). -/
def copyFormats (x : Engine) : M Unit := do
  let tags := x.w0.getLsbD 8
  let sizeOf (c : Cap) : Nat := if c.fmt.toNat = Fmt.sealer then 0 else Fmt.size c.fmt.toNat
  need (sizeOf x.src ≠ 0) 0x0E (x.src.fmt.setWidth 64)
  need (sizeOf x.dst ≠ 0 && sizeOf x.src = sizeOf x.dst) 0x0E (x.dst.fmt.setWidth 64)
  need (!tags || x.src.fmt.toNat = Fmt.cap) 0x0E (x.src.fmt.setWidth 64)
  need (!tags || x.dst.fmt.toNat = Fmt.cap) 0x0E (x.dst.fmt.setWidth 64)
  needOpen (x.w0.extractLsb' 0 8 = 0 || x.idx.fmt.toNat = Fmt.s32) 0x0E

/-- The output format of an epilogue OP (R274). -/
def epilogueFmt (op : Nat) : Nat := [1, 2, 3, 4, 5, 6, 0x09, 0x0A, 0x0B, 0x0D, 0x0E].getD (op - 16) 1

/-- The checks before element 0. -/
def firstChecks (e : Nat) (x : Engine) : M Unit := do
  stepChecks false (x.caps e)
  if e = 0 then copyFormats x
  else needOpen (Fmt.sameGroup x.dst.fmt.toNat (epilogueFmt (x.w0.extractLsb' 0 8).toNat)) 0x0E

/-- In the compute phase of a strict superstep the copy hart starts only commands in the core's own local memory (R164
item 7). -/
def State.mayStart (s : State) (core e : Nat) (x : Engine) : Bool :=
  let k := s.coreAt core
  e = 1 || k.phase ≠ .compute || k.xmode || (x.caps e).all (fun c => c.scope = 0 && localCore c.base.toNat = core)

/-- The head command begins (R163, R164 items 1 and 3): it ends at once where a check fails. -/
def State.beginCommand (s : State) (core e : Nat) : State :=
  let a := engineAgent core e
  let x := (s.coreAt core).engine e
  match x.fifo with
  | [] => s
  | blk :: _ =>
    let b := blk.toNat
    match s.badGranule b with
    | some i => s.endCommand core e 0 0 0x22 (BitVec.ofNat 64 (b + 32 * i)) (i ≠ 0)
    | none =>
      let w0 := s.wordAt b
      let w1 := s.wordAt (b + 8)
      if !blockOk e w0 w1 then s.endCommand core e 0 0 0x02 s.openEval true
      else
        let me := { s with cur := a }
        let capOf (i : Nat) : Cap := me.loadedCap (BitVec.ofNat 256 (leNat (s.bytesAt (b + 32 * i) 32))) (s.tagAt (b + 32 * i))
        let y := { x with w0 := w0, n := (w1.extractLsb' 0 32).toNat, done := 0, src := capOf 1, dst := capOf 2, idx := capOf 3 }
        if !s.mayStart core e y then s
        else
          match firstChecks e y me with
          | .error (.trap c ev _) _ => s.endCommand core e 0 0 c ev true
          | .error _ _ => s
          | .ok _ _ =>
            (s.setCoreAt core ((s.coreAt core).setEngine e { y with busy := true })).dropViews (fun v => v.agent == a)

/-! ### Steps (R164 items 4 to 8, R165) -/

/-- A fault of an element, as a value: what an operation stops with, when it traps. -/
def attempt {α : Type} (x : M α) : M (Except (BitVec 8 × Word) α) := fun s =>
  match x s with
  | .ok a t => .ok (.ok a) t
  | .error (.trap c e n) t => .ok (.error (c, e)) (t.noted n)
  | .error o t => .error o t

/-- An element an engine writes. -/
structure Written where
  va : Nat
  pa : Nat
  rpl : Bool
  bytes : List Byte
  tag : Bool
  deriving DecidableEq, Repr

/-- The checks of an element of a capability and its address (R164 item 6). -/
def engineElem (c : Cap) (k : Kind) (i : Int × Int) : M Nat := do
  capCheck c k i.1 i.2
  elemAddr c i.1 i.2
/-- The position of element `k` (R164 item 2). -/
def elemPos (c : Cap) (k : Nat) : Int × Int := ((k % c.ext 0 : Nat), (k / c.ext 0 : Nat))
/-- A destination address that belongs to a later step: another granule than the step's first (R164 item 4). -/
def otherGranule (first : Option Nat) (a : Nat) : Bool := match first with | some f => f / 32 != a / 32 | none => false

/-- The bytes and tag of element `k`'s value: with TAGS, tags are kept where SRC holds LC and DST holds SC (R59, R58). -/
def elemValue (x : Engine) (sa da : Nat) : M (List Byte × Bool) := do
  if x.w0.getLsbD 8 && x.src.perm.getLsbD 2 && x.dst.perm.getLsbD 3 then do
    let v ← loadCap sa 0
    let t ← stcTag v x.dst da
    pure (leBytes 32 v.bits.toNat, t)
  else do
    let r ← load sa (Fmt.size x.src.fmt.toNat) 0
    pure (r.1, false)

/-- The place of an element's write. A home or a way that refuses it ends the command there, with the cause a refused store has
(R98, R288, R337, R164); on a link that retrains the step waits (R285). -/
def elemPlace (da : Nat) : M (Nat × Bool) := do
  let p ← xl da .write
  let s ← get
  if s.pathHeld s.cur p.1 then throw .stall
  if s.refused s.cur (s.runOf s.cur) p.1 .write then throw (.trap 0x21 (BitVec.ofNat 64 da) .securityEvent)
  pure p
/-- Element `k` of COPY, GATHER or SCATTER (R164 item 2); none where it belongs to the next step. -/
def moveElem (x : Engine) (k : Nat) (first : Option Nat) : M (Option Written) := do
  let op := (x.w0.extractLsb' 0 8).toNat
  let i ← (if op = 0 then pure (0 : Int) else do
    let a ← engineElem x.idx .L (elemPos x.idx k)
    let r ← load a 4 0
    pure (BitVec.ofNat 32 (leNat r.1)).toInt)
  let sa ← engineElem x.src .L (if op = 1 then (i, 0) else elemPos x.src k)
  let da ← engineElem x.dst .S (if op = 2 then (i, 0) else elemPos x.dst k)
  if otherGranule first da then pure none
  else do
    let v ← elemValue x sa da
    let p ← elemPlace da
    pure (some { va := da, pa := p.1, rpl := p.2, bytes := v.1, tag := v.2 })

/-- The elements of a step from element `k` on, `room` at most: those before the first that fails (R164 items 4, 6). -/
def collect (elem : Nat → Option Nat → M (Option Written)) (limit : Nat) :
    Nat → Nat → List Written → M (List Written × Option (BitVec 8 × Word))
  | 0, _, ms => pure (ms, none)
  | room + 1, k, ms => do
    if limit ≤ k then pure (ms, none)
    else
      match ← attempt (elem k (ms.head?.map Written.va)) with
      | .error f => pure (ms, some f)
      | .ok none => pure (ms, none)
      | .ok (some m) => collect elem limit room (k + 1) (ms ++ [m])

/-- The last entry that is `l` becomes `new`. -/
def replaceLast (l new : Piece) : List Piece → List Piece
  | [] => []
  | y :: ys => if y = l && !ys.contains l then new :: ys else y :: replaceLast l new ys
/-- A piece of a copy hart that completes a line, of which its piece before wrote the first granule whole and it writes the second,
joins it: the pair is one write (R155). -/
def joinPair (p : Piece) (q : List Piece) : List Piece :=
  let low : BitVec 512 := BitVec.ofNat 512 (2 ^ 256 - 1)
  let pairs : Bool := match p.agent with | .copy _ => true | _ => false
  match (q.filter (fun l => l.agent == p.agent)).getLast? with
  | some l =>
    if pairs && l.op == .write && l.line = p.line && l.replicated = p.replicated && l.mask = low && p.mask = ~~~low then
      replaceLast l { l with data := l.data ||| p.data, mask := l.mask ||| p.mask, tags := l.tags ||| p.tags } q
    else q ++ [p]
  | none => q ++ [p]

/-- The store of a step: its elements lie in one granule, and a later one stands over an earlier (R164 item 4). -/
def sendMoves (ms : List Written) : M Unit :=
  match ms with
  | [] => pure ()
  | m :: _ =>
    let ls := ms.foldl (fun ls x =>
      let b := lineBits (x.va % 64) x.bytes
      addLine { va := x.va, data := b.1, mask := b.2 } ls) []
    modify (fun s => ls.foldl (fun s x =>
      let p : Piece :=
        { agent := s.cur, op := .write, line := m.pa / 64 * 64, va := BitVec.ofNat 48 x.va, data := x.data, mask := x.mask,
          tags := if ms.any Written.tag then granuleBit m.pa else 0, poison := 0, replicated := m.rpl, nonAlloc := false,
          run := s.runOf s.cur, pc := s.pc.setWidth 48, ord := 0 }
      s.setQueues (joinPair p s.press.queues) s.press.fifo) s)

/-- One step from element `start` on: the step-start checks, the elements, their stores. It answers the elements written and
the fault that ends the command. Every element of a step is read before any is written, also where SRC and DST overlap: the
model's choice (log 62). -/
def engineStep (e : Nat) (x : Engine) (elem : Nat → Option Nat → M (Option Written)) (start limit size : Nat) :
    M (Nat × Option (BitVec 8 × Word)) := do
  match ← attempt (stepChecks true (x.caps e)) with
  | .error f => pure (0, some f)
  | .ok _ => do
    let r ← collect elem limit (max 1 (32 / size)) start []
    sendMoves r.1
    pure (r.1.length, r.2)

/-- What a step leaves of a command whose elements have `size` bytes; `after` counts elements on, and says whether they are
the last. A page that is missing parks the hart with the step not begun (R165). -/
def State.stepCommand (s : State) (core e size : Nat) (after : Engine → Nat → Engine × Bool)
    (step : M (Nat × Option (BitVec 8 × Word))) : State :=
  let a := engineAgent core e
  let x := (s.coreAt core).engine e
  match step { s with cur := a } with
  | .ok r t =>
    let t := { t with cur := s.cur }
    let done := x.done + r.1
    match r.2 with
    | some f => t.endCommand core e done (done * size) f.1 f.2 true
    | none =>
      let y := after x r.1
      if y.2 then t.endCommand core e done (done * size) 0 0 true
      else t.setCoreAt core ((t.coreAt core).setEngine e { y.1 with done := done })
  | .error (.park va mig _) _ =>
    let r := (s.walked a va).awaitPage a va mig
    r.2.setCoreAt core ((r.2.coreAt core).setEngine e { x with parked := some (BitVec.ofNat 64 va), epoch := r.1 })
  | .error .again t => { t with cur := s.cur }
  | .error _ _ => s

/-- One step of COPY, GATHER or SCATTER. Between two steps that fill one line anything else may happen, the loss of a lease among
it, and the first granule then is a write of its own (R155, R166). -/
def State.copyStep (s : State) (core : Nat) : State :=
  let x := (s.coreAt core).engine 0
  let size := Fmt.size x.dst.fmt.toNat
  s.stepCommand core 0 size (fun x n => (x, x.done + n = x.n)) (engineStep 0 x (moveElem x) x.done x.n size)
/-! ### The epilogue (R274, R402) -/

/-- Element `i` of the tile under way, accumulator `(32t + row) × Ncols + column` of the command, converted by MGREAD with
RNE, sat = 1 and shift 0 (R274); the flags go to the hart's FCSR. -/
def epilogueElem (core : Nat) (x : Engine) (fmt : Nat) (i : Nat) (first : Option Nat) : M (Option Written) := do
  let g := ((← get).mxAt core).galley
  let da ← engineElem x.dst .S (elemPos x.dst (32 * x.tile * g.n + i))
  if otherGranule first da then pure none
  else do
    let p ← elemPlace da
    let slot := g.slotFrom 0
    let r := convAcc (g.get slot (i / g.n) (i % g.n)) (0 - (g.latched slot).p) fmt .rne true
    modify (fun t => t.setFlags r.2)
    pure (some { va := da, pa := p.1, rpl := p.2, bytes := leBytes (Fmt.size fmt) r.1, tag := false })

/-- `n` more elements of a tile of `per`: the next tile begins after its last (R274). Where an MGADV has put a narrower tile in
its place, the tile is over once as many elements are written as that one has. -/
def Engine.tileAfter (x : Engine) (per n : Nat) : Engine × Bool :=
  if per ≤ x.elem + n then ({ x with tile := x.tile + 1, elem := 0 }, x.tile + 1 = x.n) else ({ x with elem := x.elem + n }, false)

/-- One step of an epilogue command: it waits for a tile, converts and writes, and frees the tile once its last element
is written. In an express area its MGWAIT traps (R272). -/
def State.epilogueTurn (s : State) (core : Nat) : State :=
  let x := (s.coreAt core).engine 1
  let g := (s.mxAt core).galley
  let fmt := epilogueFmt (x.w0.extractLsb' 0 8).toNat
  let size := Fmt.size fmt
  let per := 32 * g.n
  if (match s.runOn core with | some r => r.express.isSome | none => false) then
    s.endCommand core 1 x.done (x.done * size) 0x0D s.openEval true
  else if g.tiles = 0 then s
  else
    s.stepCommand core 1 size (fun x n => x.tileAfter per n) (do
      let r ← engineStep 1 x (epilogueElem core x fmt) x.elem per size
      if r.2.isNone && decide (per ≤ x.elem + r.1) then
        modify (fun t => t.setMxAt core { t.mxAt core with galley := (t.mxAt core).galley.advance 1 })
      pure r)

/-! ### The events -/

/-- One turn of an engine hart: its command begins, or makes a step. -/
def State.engineTurn (s : State) (core e : Nat) : State :=
  let s := if ((s.coreAt core).engine e).busy then s else s.beginCommand core e
  if ((s.coreAt core).engine e).busy then (if e = 0 then s.copyStep core else s.epilogueTurn core) else s

/-- Up to `k` turns while the head command's OP is one the predicate names. -/
def State.engineTurns (core e : Nat) (mine : Nat → Bool) : Nat → State → State
  | 0, s => s
  | k + 1, s =>
    match s.headOp core e with
    | some op => if mine op && s.engineRuns core e then State.engineTurns core e mine k (s.engineTurn core e) else s
    | none => s

/-- COPY (R164): OP 0, and every block that ends at its first checks. -/
def execCopy (core steps : Nat) (s : State) : Host.Outcome State Fault Refusal :=
  .next (s.engineTurns core 0 (fun op => op ≠ 1 && op ≠ 2) (steps + 1))
/-- GATHER (R164). -/
def execGather (core steps : Nat) (s : State) : Host.Outcome State Fault Refusal :=
  .next (s.engineTurns core 0 (· = 1) (steps + 1))
/-- SCATTER (R164). -/
def execScatter (core steps : Nat) (s : State) : Host.Outcome State Fault Refusal :=
  .next (s.engineTurns core 0 (· = 2) (steps + 1))

/-- EPILOGUE_S8 (R274): OP 16, and every block that ends at its first checks. -/
def execEpilogueS8 (core steps : Nat) (s : State) : Host.Outcome State Fault Refusal :=
  .next (s.engineTurns core 1 (fun op => op < 17 || 26 < op) (steps + 1))
/-- EPILOGUE_Z8 (R274). -/
def execEpilogueZ8 (core steps : Nat) (s : State) : Host.Outcome State Fault Refusal :=
  .next (s.engineTurns core 1 (· = 17) (steps + 1))
/-- EPILOGUE_S16 (R274). -/
def execEpilogueS16 (core steps : Nat) (s : State) : Host.Outcome State Fault Refusal :=
  .next (s.engineTurns core 1 (· = 18) (steps + 1))
/-- EPILOGUE_Z16 (R274). -/
def execEpilogueZ16 (core steps : Nat) (s : State) : Host.Outcome State Fault Refusal :=
  .next (s.engineTurns core 1 (· = 19) (steps + 1))
/-- EPILOGUE_S32 (R274). -/
def execEpilogueS32 (core steps : Nat) (s : State) : Host.Outcome State Fault Refusal :=
  .next (s.engineTurns core 1 (· = 20) (steps + 1))
/-- EPILOGUE_Z32 (R274). -/
def execEpilogueZ32 (core steps : Nat) (s : State) : Host.Outcome State Fault Refusal :=
  .next (s.engineTurns core 1 (· = 21) (steps + 1))
/-- EPILOGUE_FP16 (R274). -/
def execEpilogueFp16 (core steps : Nat) (s : State) : Host.Outcome State Fault Refusal :=
  .next (s.engineTurns core 1 (· = 22) (steps + 1))
/-- EPILOGUE_BF16 (R274). -/
def execEpilogueBf16 (core steps : Nat) (s : State) : Host.Outcome State Fault Refusal :=
  .next (s.engineTurns core 1 (· = 23) (steps + 1))
/-- EPILOGUE_FP32 (R274). -/
def execEpilogueFp32 (core steps : Nat) (s : State) : Host.Outcome State Fault Refusal :=
  .next (s.engineTurns core 1 (· = 24) (steps + 1))
/-- EPILOGUE_E4M3 (R274). -/
def execEpilogueE4m3 (core steps : Nat) (s : State) : Host.Outcome State Fault Refusal :=
  .next (s.engineTurns core 1 (· = 25) (steps + 1))
/-- EPILOGUE_E5M2 (R274). -/
def execEpilogueE5m2 (core steps : Nat) (s : State) : Host.Outcome State Fault Refusal :=
  .next (s.engineTurns core 1 (· = 26) (steps + 1))

/-- A page request that answers failure ends the parked command with cause 0x10 (R165). -/
def State.failEngine (s : State) (core e : Nat) (va : Word) : State :=
  let x := (s.coreAt core).engine e
  s.endCommand core e x.done (x.done * (if e = 0 then Fmt.size x.dst.fmt.toNat
    else Fmt.size (epilogueFmt (x.w0.extractLsb' 0 8).toNat))) 0x10 va true

end Sys2Proof.Machine
end

