-- ==== Sys2Proof/Machine/Pages.lean ====
section
/-! DEFINITION. Page requests and their answers (R82 to R86), migration and shootdowns (R89 to R91), hot-page lists and
refresh windows (R88, R103), slice control (R98), memory errors (R99, R344 to R347), sweep passes (R69, R70). -/

namespace Sys2Proof.Machine

/-! ### Who waits for a page (R80, R84) -/

/-- The agents with registers of their own: contexts and engine harts of the cores that hold anything, gateway harts. -/
def State.agents (s : State) : List Agent :=
  (s.cores.map Prod.fst).flatMap coreAgents
    ++ (List.range s.numDies).flatMap (fun d => (List.range 8).map (Agent.gateway (.ucie d)))
    ++ (if s.twoCards then [0, 1].flatMap (fun c => (List.range 4).map (Agent.gateway (.bridge c))) else [])

/-- The page waited for: its request's epoch, or, with epoch 0, the tenant and addresses of a migrated page. -/
structure PageKey where
  epoch : Nat
  tenant : Nat
  lo : Nat
  hi : Nat
  deriving DecidableEq, Repr

/-- A wait for an epoch at an address of a tenant is for the page. -/
def PageKey.holds (k : PageKey) (epoch tenant va : Nat) : Bool :=
  epoch = k.epoch && (epoch ≠ 0 || (tenant = k.tenant && k.lo ≤ va && va < k.hi))
/-- A suspension waits for the page. -/
def Susp.onPage (w : Susp) (k : PageKey) (tenant : Nat) : Bool := w.reason = .page && k.holds w.thresh.toNat tenant w.key.toNat
/-- A context waits for the page. -/
def Ctx.onPage (c : Ctx) (k : PageKey) (tenant : Nat) : Bool := match c.susp with | some w => w.onPage k tenant | none => false
/-- A command of an engine hart waits for the page (R165). -/
def Engine.onPage (x : Engine) (k : PageKey) (tenant : Nat) : Bool :=
  match x.parked with | some va => k.holds x.epoch tenant va.toNat | none => false
/-- A written-back continuation waits for the page. -/
def Parked.onPage (p : Parked) (k : PageKey) : Bool := p.susp.onPage k p.tenant

/-- A suspended agent waits for the page. -/
def State.waitsFor (s : State) (k : PageKey) (a : Agent) : Bool := (s.ctxOf a).onPage k (s.tenantOf a)
/-- An engine hart's command waits for the page. -/
def State.engineWaits (s : State) (k : PageKey) (core e : Nat) : Bool :=
  ((s.coreAt core).engine e).onPage k (s.tenantOf (engineAgent core e))
/-- The tenant of a pre-empted run's share of a core. -/
def State.savedTenant (s : State) (sv : SavedCore) : Nat := (s.spaceOf sv.run).1
/-- A side-log entry waits for the page. -/
def State.entryWaits (s : State) (k : PageKey) (e : SideEntry) : Bool := k.holds e.epoch (s.spaceOf e.run).1 e.va.toNat
/-- Something still waits for the page: the epoch names a live request (R85). -/
def State.stillWanted (s : State) (k : PageKey) : Bool :=
  s.epochUsed k.epoch && s.requests.any (fun r => r.live && r.epoch == k.epoch)

/-! ### Success (R82, R85) -/

/-- The side-log entries of every core that wait for a page leave their log; they are handed on in log order. -/
def State.takeEntries (s : State) (k : PageKey) (f : State → Nat → SideEntry → State) : State :=
  (s.cores.map Prod.fst).foldl (fun s core => s.takeFrom core (s.entryWaits k) (fun s e => f s core e)) s

/-- An agent that waits for the page goes on. -/
def State.freeAgent (s : State) (a : Agent) : State := s.setCtxOf a { s.ctxOf a with susp := none }

/-- A saved slot, or a saved engine's context, whose page has come is issuable when it is next resident. -/
def Ctx.freePage (c : Ctx) (k : PageKey) (tenant : Nat) : Ctx := if c.onPage k tenant then { c with susp := none } else c
/-- The same for an engine's command. -/
def Engine.freePage (x : Engine) (k : PageKey) (tenant : Nat) : Engine :=
  if x.onPage k tenant then { x with parked := none, epoch := 0 } else x
/-- What waits in a pre-empted run's share of a core goes on when it is next resident (R86, R343). -/
def SavedCore.freePage (sv : SavedCore) (k : PageKey) (tenant : Nat) : SavedCore :=
  { sv with
    ctxs := sv.ctxs.map (fun c => c.map (fun c => c.freePage k tenant)), copy := sv.copy.freePage k tenant,
    epi := sv.epi.freePage k tenant, copyCtx := sv.copyCtx.freePage k tenant, epiCtx := sv.epiCtx.freePage k tenant }

/-- The waiters of a page resume, after the replay of the side logs (R82, R86, R91). -/
def State.releasePage (s : State) (k : PageKey) : State :=
  let s := s.takeEntries k State.replayEntry
  let s := (s.agents.filter (s.waitsFor k)).foldl State.freeAgent s
  (s.cores.map Prod.fst).foldl (fun s core =>
    let s := ((s.coreAt core).u.waiting.filter (fun q => q.onPage k)).foldl (fun s p => s.makeReady core p) s
    let s := [0, 1].foldl (fun s e =>
      s.setCoreAt core ((s.coreAt core).setEngine e
        (((s.coreAt core).engine e).freePage k (s.tenantOf (engineAgent core e))))) s
    match (s.coreAt core).saved with
    | some sv => s.setCoreAt core { s.coreAt core with saved := some (sv.freePage k (s.savedTenant sv)) }
    | none => s) s

/-! ### Failure (R85, R86) -/

/-- A resident read faults at once, at the address it waits for; a trap entry that waits ends its run (R413). -/
def State.failAgent (s : State) (a : Agent) : State :=
  match (s.ctxOf a).susp with
  | some w =>
    let s := s.freeAgent a
    if w.dst = 1 then s.endRunAt ((agentCore a).getD 0) 0x10 ((s.ctxOf a).pc.setWidth 48) w.key
    else s.asAgent a (fun t => t.takeTrap 0x10 w.key 0)
  | none => s

/-- THRESH of a record in memory. -/
def State.setThresh (s : State) (core : Nat) (p : Parked) (x : Word) : State :=
  s.writeThresh core p.run (p.agent core) p.recAddr.toNat x
/-- A record that was to be loaded and whose page will not come is dropped and counted (R291; log 59). -/
def State.dropParked (s : State) (core : Nat) (p : Parked) : State :=
  let k := s.coreAt core
  ((s.setCoreAt core { k with u := { k.u with waiting := k.u.waiting.filter (fun q => q != p) } }).dropRecord p.run).checkArrival core
/-- A written-back continuation becomes ready with THRESH all ones in its record (R86). -/
def State.failRecord (s : State) (core : Nat) (p : Parked) : State :=
  if p.susp.dst = 2 then s.dropParked core p else (s.setThresh core p (BitVec.allOnes 64)).makeReady core p

/-- A saved slot is marked with the failure (R86). -/
def Ctx.failPage (c : Ctx) (k : PageKey) (tenant : Nat) : Ctx :=
  if c.onPage k tenant then { c with susp := none, pageFail := c.susp.map Susp.key } else c
/-- A saved engine's command likewise: it ends with cause 0x10 when its run is next resident (R165). -/
def Engine.failPage (x : Engine) (k : PageKey) (tenant : Nat) : Engine :=
  if x.onPage k tenant then { x with parked := none, epoch := 0, pageFail := x.parked } else x
/-- What waits in a pre-empted run's share of a core is marked with the failure; the units of its weight fetches get their
cause, and a record that was to be loaded is dropped (R86, R256). -/
def SavedCore.failPage (sv : SavedCore) (k : PageKey) (tenant : Nat) : SavedCore :=
  { sv with
    ctxs := sv.ctxs.map (fun c => c.map (fun c => c.failPage k tenant)), copy := sv.copy.failPage k tenant,
    epi := sv.epi.failPage k tenant, copyCtx := sv.copyCtx.failPage k tenant, epiCtx := sv.epiCtx.failPage k tenant,
    mx := if k.epoch = 0 then sv.mx else sv.mx.failFetches k.epoch,
    waiting := sv.waiting.filter (fun q => !(q.onPage k && q.susp.dst = 2)) }
/-- The written-back continuations of a saved share that wait for the page: marked in their records, or dropped. -/
def State.failSaved (s : State) (core : Nat) (sv : SavedCore) (k : PageKey) : State :=
  let s := (sv.waiting.filter (fun q => q.onPage k)).foldl (fun s p =>
    if p.susp.dst = 2 then s.dropRecord p.run else s.setThresh core p (BitVec.allOnes 64)) s
  s.setCoreAt core { s.coreAt core with saved := some (sv.failPage k (s.savedTenant sv)) }

/-- A page request ends in failure (R85, R86, R165, R256). -/
def State.failPage (s : State) (k : PageKey) : State :=
  let s := s.takeEntries k (fun s _ e => s.defer e.agent e.run (e.va.setWidth 64) e.pc)
  let s := (s.cores.map Prod.fst).foldl (fun s core =>
    let s := s.failFetches core k.epoch
    let s := [0, 1].foldl (fun s e =>
      if s.engineWaits k core e then s.failEngine core e ((((s.coreAt core).engine e).parked).getD 0) else s) s
    let s := ((s.coreAt core).u.waiting.filter (fun q => q.onPage k)).foldl (fun s p => s.failRecord core p) s
    match (s.coreAt core).saved with
    | some sv => s.failSaved core sv k
    | none => s) s
  (s.agents.filter (s.waitsFor k)).foldl State.failAgent s

/-! ### A request anew (R85) -/

/-- A wait for the request of one epoch becomes one for another. -/
def Susp.rekey (old new : Nat) (w : Susp) : Susp :=
  if w.reason = .page && w.thresh.toNat = old then { w with thresh := BitVec.ofNat 64 new } else w
/-- The same for a context. -/
def Ctx.rekey (old new : Nat) (c : Ctx) : Ctx := { c with susp := c.susp.map (Susp.rekey old new) }
/-- For an engine's command. -/
def Engine.rekey (old new : Nat) (x : Engine) : Engine := if x.epoch = old then { x with epoch := new } else x
/-- For the weight fetches of a matrix unit. -/
def Matrix.rekey (old new : Nat) (x : Matrix) : Matrix :=
  { x with fetches := x.fetches.map (fun f => if f.wait = some old then { f with wait := some new } else f) }
/-- For a written-back continuation. -/
def Parked.rekey (old new : Nat) (p : Parked) : Parked := { p with susp := p.susp.rekey old new }
/-- For a pre-empted run's share of a core. -/
def SavedCore.rekey (old new : Nat) (sv : SavedCore) : SavedCore :=
  { sv with
    ctxs := sv.ctxs.map (fun c => c.map (Ctx.rekey old new)), waiting := sv.waiting.map (Parked.rekey old new),
    copy := sv.copy.rekey old new, epi := sv.epi.rekey old new, copyCtx := sv.copyCtx.rekey old new,
    epiCtx := sv.epiCtx.rekey old new, mx := sv.mx.rekey old new }
/-- For a core. -/
def Core.rekey (old new : Nat) (k : Core) : Core :=
  { k with
    u := { k.u with
      sideLog := k.u.sideLog.map (fun e => if e.epoch = old then { e with epoch := new } else e),
      waiting := k.u.waiting.map (Parked.rekey old new), copy := k.u.copy.rekey old new, epi := k.u.epi.rekey old new,
      mx := k.u.mx.rekey old new },
    saved := k.saved.map (SavedCore.rekey old new) }
/-- The records of written-back continuations that wait for a request name the new epoch in THRESH. -/
def State.rekeyRecords (s : State) (k : PageKey) (new : Nat) : State :=
  (s.cores.map Prod.fst).foldl (fun s core =>
    let c := s.coreAt core
    let mine := (c.u.waiting ++ (match c.saved with | some sv => sv.waiting | none => [])).filter (fun p => p.onPage k && p.susp.dst ≠ 2)
    mine.foldl (fun s p => s.setThresh core p (BitVec.ofNat 64 new)) s) s

/-! ### The scheduler's answer (R84) -/

/-- The tables of a new level hold only entries that are not present: at level 3 with LEAF 1, as its leaves must have it
(R78). -/
def emptyTable (level : Nat) : List Byte :=
  if level = 3 then (List.replicate 512 (leBytes 8 (2 ^ 62))).flatten else List.replicate 8192 0
/-- The table of a level that an entry names, made from a frame of the pool where the entry is empty (log 29). -/
def State.tableAt (s : State) (tenant e level : Nat) : Option (Nat × State) :=
  let w := s.wordAt e
  if w.getLsbD 63 then some (tableNext w, s)
  else
    match (s.tenant tenant).pool with
    | [] => none
    | f :: rest =>
      let s := s.setTenant tenant { s.tenant tenant with pool := rest }
      let s := s.writeBy .firmware f (emptyTable level)
      some (f, s.hwWord e (1#64 <<< 63 ||| BitVec.ofNat 64 f))

/-- The place of the table entry that maps a page, once the tables above it exist; a missing table takes a frame of the
pool (log 29). -/
def State.leafPlace (s : State) (tenant va : Nat) : Option (Nat × State) :=
  match s.tableAt tenant (entry1 (s.tenant tenant).root va) 2 with
  | none => none
  | some (t2, s) =>
    let e2 := t2 + 8 * (va / 2 ^ 25 % 1024)
    if (s.wordAt e2).getLsbD 62 then some (e2, s)
    else
      match s.tableAt tenant e2 3 with
      | none => none
      | some (t3, s) => some (t3 + 8 * (va / 2 ^ 16 % 512), s)

/-- The frames of 64 KiB of a pool that back a page: the first, or for a page of 32 MiB the first 512 that lie in a row
(log 29). -/
def framesFor (big : Bool) (pool : List Nat) : Option (Nat × List Nat) :=
  if !big then (match pool with | [] => none | f :: rest => some (f, rest))
  else
    let whole (f : Nat) : Bool := f % 2 ^ 25 = 0 && (List.range 512).all (fun i => pool.contains (f + 2 ^ 16 * i))
    (pool.find? whole).map (fun f => (f, pool.filter (fun x => !(f ≤ x && x < f + 2 ^ 25))))
/-- The scheduler backs a page (R84): all of it lies in a range backed on demand and the pool has memory for it, which a
present leaf of the page's size now names with R and W (log 29). -/
def State.backPage (s : State) (tenant vpage : Nat) : Option State :=
  let va := vpage * 2 ^ 16
  let big := (s.pageHost tenant va).2
  let n := if big then 2 ^ 25 else 2 ^ 16
  if !(s.tenant tenant).onDemand.any (fun r => r.1 ≤ va && va + n ≤ r.2) then none
  else
    match s.leafPlace tenant va with
    | none => none
    | some (e, s) =>
      match framesFor big (s.tenant tenant).pool with
      | none => none
      | some (f, rest) =>
        let s := s.setTenant tenant { s.tenant tenant with pool := rest }
        let old := s.wordAt e
        some (s.hwWord e (0xC600000000000000#64 ||| (old &&& 0x0800000000000000#64) ||| BitVec.ofNat 64 f))

/-- The request leaves the table of requests. -/
def State.dropRequest (s : State) (epoch : Nat) : State := { s with requests := s.requests.filter (fun r => r.epoch != epoch) }

/-- Key of a request. -/
def PageRequest.pageKey (r : PageRequest) : PageKey :=
  { epoch := r.epoch, tenant := r.tenant, lo := r.vpage * 2 ^ 16, hi := r.vpage * 2 ^ 16 + if r.big then 2 ^ 25 else 2 ^ 16 }

/-- An answer that no live request expects is discarded and counted (R85). -/
def State.discardAnswer (s : State) : State :=
  { s with dev := { s.dev with discardedAnswers := s.dev.discardedAnswers + 1 } }

/-- The answer to a request whose epoch is dead: counted, and of a host's request the host gets a context-gone completion
(R85). -/
def State.discardRequest (s : State) (r : PageRequest) : State :=
  let t := (s.dropRequest r.epoch).discardAnswer
  if r.host then t.raise 3 else t

/-- The page of a request is present. -/
def State.pagePresent (s : State) (r : PageRequest) : Bool :=
  match s.walk (s.tenant r.tenant).root (r.vpage * 2 ^ 16) with | .leaf _ _ => true | _ => false

/-- The page is asked for anew: what waited for the old request waits for a new one (R85). -/
def State.renewRequest (s : State) (r : PageRequest) : State :=
  let e := s.dev.nextEpoch
  let s := s.rekeyRecords r.pageKey e
  { s with
    ctxs := s.ctxs.map (fun p => (p.1, p.2.rekey r.epoch e)), cores := s.cores.map (fun p => (p.1, p.2.rekey r.epoch e)),
    requests := (s.dropRequest r.epoch).requests ++ [{ r with epoch := e, empties := r.empties + 1 }],
    dev := { s.dev with nextEpoch := e + 1 } }

/-- An answer to request `r` (R84, R85): the third success in a row that finds no page is a failure. A walk that then meets a
malformed entry finds no page either: the model's choice (log 69). -/
def State.answer (s : State) (r : PageRequest) (ok : Bool) : State :=
  if !ok then (s.dropRequest r.epoch).failPage r.pageKey
  else if s.pagePresent r then (s.dropRequest r.epoch).releasePage r.pageKey
  else if r.empties = 2 then (s.dropRequest r.epoch).failPage r.pageKey
  else s.renewRequest r

/-- PAGE_ANSWER (R84, R85). The scheduler answers success only once it has backed the page, and failure only where it
cannot; the host answers as it likes. -/
def execPageAnswer (epoch : Nat) (ok : Bool) (s : State) : Host.Outcome State Fault Refusal :=
  match s.requests.find? (fun r => r.epoch == epoch) with
  | none => .next s.discardAnswer
  | some r =>
    if !s.stillWanted r.pageKey then .next (s.discardRequest r)
    else if r.host then .next (s.answer r ok)
    else
      match s.pagePresent r, s.backPage r.tenant r.vpage with
      | true, _ => .next (if ok then s.answer r true else s)
      | false, some t => .next (if ok then t.answer r true else s)
      | false, none => .next (if ok then s else s.answer r false)

/-- PAGE_REQUEST_TIMEOUT (R84, R85): failure on the host's behalf; it is discarded where nothing waits for it any more. -/
def execPageRequestTimeout (epoch : Nat) (s : State) : Host.Outcome State Fault Refusal :=
  match s.requests.find? (fun r => r.epoch == epoch) with
  | none => .next s
  | some r => .next (if s.stillWanted r.pageKey then s.answer r false else s.discardRequest r)

/-! ### Migration and shootdowns (R89 to R91) -/

/-- The table entry that maps a page now: its place, its word, whether it maps 32 MiB. -/
def State.leafNow (s : State) (tenant va : Nat) : Option (Nat × Word × Bool) :=
  match s.walk (s.tenant tenant).root va with
  | .leaf e big =>
    let p2 := entry2 (s.wordAt (entry1 (s.tenant tenant).root va)) va
    some (if big then p2 else entry3 (s.wordAt p2) va, e, big)
  | _ => none
/-- The bytes a leaf maps. -/
def pageSize (big : Bool) : Nat := if big then 2 ^ 25 else 2 ^ 16
/-- The frame a leaf names. -/
def frameOf (e : Word) : Nat := (e.extractLsb' 16 30).toNat * 2 ^ 16

/-- A page of a tenant is one of 32 MiB, by its leaf or by a translation still held. -/
def State.bigPage (s : State) (tenant va : Nat) : Bool :=
  let held (e : TlbEntry) : Bool := e.big && e.hits tenant va
  (match s.leafNow tenant va with | some (_, _, big) => big | none => false)
    || s.cores.any (fun p => p.2.u.tlb.any held) || s.dies.any (fun p => p.2.xcache.any held)
/-- The accesses under way to a page of a tenant, whichever translation they were made with, complete at their homes, each
agent's in its order (R90). -/
def State.settlePage (s : State) (tenant lo hi : Nat) : State :=
  let hit (p : Piece) : Bool := (s.spaceOf p.run).1 = tenant && lo ≤ p.va.toNat && p.va.toNat < hi
  let who := ((s.press.queues ++ s.press.fifo ++ s.press.props.map Propagation.piece).filter hit).map Piece.agent
  who.eraseDups.foldl State.flush s

/-- The shootdown goes from the command complex to the other dies, which acknowledge it (R90, R283). -/
def State.tellShootdown (s : State) (va : Nat) : State :=
  (List.range (s.numDies - 1)).foldl (fun s i =>
    let d := i + 1
    let r := s.plainRequest (.command 0) 48 4 (d * 2 ^ 44) (BitVec.ofNat 64 va) 0
    (s.sendItems 0 d [{ vc := 1, dst := d, body := .record r }]).sendItems d 0
      [{ vc := 2, dst := 0, body := .record { r with op := 49, addr := 0 } }]) s
/-- A shootdown (R90): the translations of a page leave every page TLB and every shared translation cache, once the accesses
made with them are complete. -/
def State.shootDown (s : State) (tenant va : Nat) : State :=
  let n := pageSize (s.bigPage tenant va)
  let lo := va / n * n
  let s := s.settlePage tenant lo (lo + n)
  let keep (e : TlbEntry) : Bool :=
    !(e.tenant = tenant && (if e.big then e.vpage = va / 2 ^ 25 else lo ≤ e.vpage * 2 ^ 16 && e.vpage * 2 ^ 16 < lo + n))
  let s : State := { s with
    cores := s.cores.map (fun p => (p.1, { p.2 with u := { p.2.u with tlb := p.2.u.tlb.filter keep } }))
    dies := s.dies.map (fun p => (p.1, { p.2 with xcache := p.2.xcache.filter keep })) }
  s.tellShootdown va

/-- SHOOTDOWN (R90). -/
def execShootdown (tenant va : Nat) (s : State) : Host.Outcome State Fault Refusal := .next (s.shootDown tenant va)

/-- The pairs of sparse data with keys in `[a, a + n)` copied to `[b, b + n)`. -/
def copyKeys {α : Type} [DecidableEq α] (d : α) (l : Sparse α) (a b n : Nat) : Sparse α :=
  let moved := (l.filter (fun p => a ≤ p.1 && p.1 < a + n)).map (fun p => (p.1 - a + b, p.2))
  moved.foldl (fun l p => Sparse.put d l p.1 p.2) (l.filter (fun p => !(b ≤ p.1 && p.1 < b + n)))

/-- A page copied: bytes, tags and poison, sector by sector through both slices (R87, R89, R347). -/
def State.copyPage (s : State) (a b n : Nat) : State :=
  let s := { s with mem := copyKeys 0 s.mem a b n, tags := copyKeys false s.tags (a / 32) (b / 32) (n / 32),
                    poison := copyKeys false s.poison (a / 32) (b / 32) (n / 32) }
  (s.touchAll a n .read false).touchAll b n .firmware false

/-- The migration of a page goes on to its next step. -/
def State.setMigration (s : State) (m : Migration) (next : MigrationPhase) : State :=
  { s with migrations := s.migrations.map (fun x => if x = m then { x with next := next } else x) }

/-- A frame of `n` bytes may be allocated: aligned memory that holds nothing of firmware's and no retired page (R78, R347). -/
def State.frameOk? (s : State) (f n : Nat) : Bool :=
  f % n = 0 && isDram f && s.physOk f && s.physOk (f + n - 1) && !(f < Config.fwFrameEnd && Config.fwFrame < f + n)
    && s.dev.retired.all (fun p => p + 2 ^ 16 ≤ f || f + n ≤ p)

/-- A range maps the 64 KiB at a place (R77). -/
def RangeDesc.maps (r : RangeDesc) (pa : Nat) : Bool :=
  let cs := chBits r.chmask
  let u := (pa % 2 ^ 33 - r.poff) / 2 ^ 16 * cs.length + indexIn cs (channelOf pa)
  dieOf pa = r.die && cs.contains (channelOf pa) && decide (r.poff ≤ pa % 2 ^ 33) && decide (2 ^ 16 * u < r.vlimit - r.vbase)
/-- A run is resident on some core. -/
def State.residentRun (s : State) (run : Nat) : Bool := s.cores.any (fun p => p.2.run == some run)
/-- A range of a resident run maps memory of `n` bytes from a place (R89). -/
def State.rangeInUse (s : State) (pa n : Nat) : Bool :=
  s.runs.any (fun r => !r.ranges.isEmpty && s.residentRun r.id.toNat
    && (List.range (n / 2 ^ 16)).any (fun i => r.ranges.any (fun d => d.maps (pa + 2 ^ 16 * i))))
/-- A page may be migrated to a place: mapped, not replicated, not moving, in no range of a resident run, and the place is a
frame of its size (R78, R89, R94). -/
def State.mayMigrate (s : State) (e : Word) (big : Bool) (newPage : Nat) : Bool :=
  !e.getLsbD 61 && !e.getLsbD 56 && s.frameOk? newPage (pageSize big) && !s.rangeInUse (frameOf e) (pageSize big)

/-- The command hart that moves memory from a place: of the card that holds it (log 72). -/
def mover (pa : Nat) : Agent := .command (4 * (dieOf pa / 2))
/-- A link on the way of a copy between two places retrains (R285), or one is down, or no acceptance window of the other card lets
the write in (R288, R354). -/
def State.copyHeld (s : State) (a b : Nat) : Bool := s.pathHeld (mover a) b
/-- The same for a refusal. -/
def State.copyRefused (s : State) (a b : Nat) : Bool := s.pathRefuses (mover a) b .write

/-- PAGE_MIGRATION (R89): one of its five steps, each after the one before. -/
def execPageMigration (tenant va newPage : Nat) (phase : MigrationPhase) (s : State) : Host.Outcome State Fault Refusal :=
  match s.leafNow tenant va with
  | none => .next s
  | some (p, e, big) =>
    let n := pageSize big
    match phase, s.migrations.find? (fun m => m.tenant == tenant && m.va / n == va / n && m.newPage == newPage) with
    | .setMig, none =>
      if s.mayMigrate e big newPage then
        let s := s.hwWord p (e ||| 1#64 <<< 56)
        .next { s with migrations := s.migrations ++ [{ tenant := tenant, va := va, newPage := newPage, next := .firstShootdown }] }
      else .next s
    | ph, some m =>
      if m.next ≠ ph then .next s
      else
        match ph with
        | .setMig => .next s
        | .firstShootdown => .next ((s.shootDown tenant va).setMigration m .copyPage)
        | .copyPage =>
          if s.copyHeld (frameOf e) newPage then .next s
          else if s.copyRefused (frameOf e) newPage then .next s.securityEvent
          else .next ((s.copyPage (frameOf e) newPage n).setMigration m .writeLeaf)
        | .writeLeaf =>
          let w := (e &&& ~~~(0x3FFFFFFF#64 <<< 16) &&& ~~~(1#64 <<< 56)) ||| BitVec.ofNat 64 newPage
          .next ((s.hwWord p w).setMigration m .secondShootdown)
        | .secondShootdown =>
          let s := s.shootDown tenant va
          .next (State.releasePage { s with migrations := s.migrations.filter (fun x => x != m) }
            { epoch := 0, tenant := tenant, lo := va / n * n, hi := va / n * n + n })
    | _, none => .next s

/-- Firmware migrates the memory of a run's range `k` (R89): while no run that uses it is resident it is copied, 64 KiB by
64 KiB, and the descriptor names the new place. -/
def State.migrateRange (s : State) (run k die poff : Nat) (chmask : BitVec 12) : State :=
  match s.run? run with
  | none => s
  | some r =>
    match r.ranges[k]? with
    | none => s
    | some old =>
      let new := { old with die := die, poff := poff, chmask := chmask }
      let units := (List.range ((old.vlimit - old.vbase) / 2 ^ 16)).map (fun u => old.vbase + 2 ^ 16 * u)
      if s.residentRun run || units.any (fun va => s.rangeInUse (old.place va) 65536 || !s.frameOk? (new.place va) 65536) || chmask = 0 then s
      else if units.any (fun va => s.copyHeld (old.place va) (new.place va)) then s
      else if units.any (fun va => s.copyRefused (old.place va) (new.place va)) then s.securityEvent
      else
        let s := units.foldl (fun s va => s.copyPage (old.place va) (new.place va) 65536) s
        s.updRun run (fun r => { r with ranges := setAt r.ranges k new })

/-! ### Hotness, refresh, slices -/

/-- A candidate put before the first with a smaller estimate. -/
def insertHot (x : Nat × Nat) : List (Nat × Nat) → List (Nat × Nat)
  | [] => [x]
  | y :: ys => if y.2 < x.2 then x :: y :: ys else y :: insertHot x ys

/-- The words of a hot-page list (R88). -/
def hotWords (die chan : Nat) (interval : Word) (hot : List (Nat × Nat)) : List Word :=
  let entries := hot.map (fun x => BitVec.ofNat 64 (2 ^ 48 * (x.2 % 2 ^ 16) + 2 ^ 16 * (x.1 % 2 ^ 30)))
  [interval, BitVec.ofNat 64 (16 * die + chan)] ++ List.replicate 6 0 ++ entries ++ List.replicate (64 - entries.length) 0
/-- A controller's sampling interval has passed (R88). -/
def State.intervalOver (s : State) (die chan : Nat) : Bool :=
  let l := s.slice die chan
  s.full && die < s.numDies && chan < 12 && 2 ^ l.hotK.toNat ≤ ((s.die die).cycle - l.hotStart).toNat
/-- HOT_PAGE_LIST (R88): at the end of a sampling interval the list is written to its buffer, or dropped where the buffer is
full, and the counts are cleared. -/
def execHotPageList (die chan : Nat) (s : State) : Host.Outcome State Fault Refusal :=
  if !s.intervalOver die chan then .next s
  else
    let l := s.slice die chan
    let t :=
      if l.hotFull then { s with dev := { s.dev with droppedHotLists := s.dev.droppedHotLists + 1 } }
      else
        s.writeBy .firmware (Config.hotBuffer die chan)
          (wordBytes (hotWords die chan l.interval (l.hot.foldl (fun m x => insertHot x m) [])))
    .next (t.setSlice die chan { t.slice die chan with
      sketch := [], hot := [], interval := l.interval + 1, hotStart := l.hotStart + BitVec.ofNat 64 (2 ^ l.hotK.toNat),
      hotFull := true })

/-- REFRESH_WINDOW (R103): whether bank `bank` refreshes now. -/
def execRefreshWindow (die bank : Nat) (s : State) : Host.Outcome State Fault Refusal :=
  let d := s.die die
  let w := d.window
  if s.full && die < s.numDies then
    .next (s.setDie die { d with refreshing := if w.2.1 && w.1 = bank then some (BitVec.ofNat 4 bank) else none })
  else .next s

/-- Dirty sectors are written back and every line is invalid (R98). -/
def Slice.emptied (l : Slice) : Slice :=
  let l := l.lines.foldl (fun m p => match p.2 with
    | some x => m.transfers (x.addr / 256 % 2 ^ 30) x.dirtyCount
    | none => m) l
  { l with lines := [] }

/-- A run of a tenant is resident. -/
def State.tenantResident (s : State) (t : Nat) : Bool :=
  s.cores.any (fun p => match p.2.run.bind s.run? with | some r => r.tenant = t | none => false)

/-- SLICE_CONTROL (R98, R99): TENANT changes only while no run of either tenant is resident, and a degraded slice takes
no new partition. -/
def execSliceControl (die slice tenant : Nat) (shared : Bool) (s : State) : Host.Outcome State Fault Refusal :=
  let l := s.slice die slice
  let changes := die < s.numDies && slice < 12 && (l.tenant.toNat ≠ tenant || l.shared ≠ shared)
  if changes && (l.degraded || s.tenantResident tenant || (!l.shared && s.tenantResident l.tenant.toNat)) then .next s
  else if changes then
    .next (s.setSlice die slice { l.emptied with tenant := BitVec.ofNat 16 tenant, shared := shared })
  else .next s

/-! ### Errors (R344 to R347, R99) -/

/-- The metadata of the data sector that holds a place (R73): PSN, TAG and CHK, which follows from the bytes and from those
(log 56). -/
def State.metadata (s : State) (a : Nat) : Word :=
  let x := s.homeSector (.host 0) a a
  0#24 ++ x.poison ++ x.tags ++ Config.checkSymbols x.data (x.poison ++ x.tags)

/-- The error is corrected (R73, R344): one symbol of a GDDR-7 sector, one bit of a SEC-DED word, whatever a link replays. -/
def correctable (e : ErrorReport) : Bool :=
  match e.mem with
  | .gddr | .l2 | .localMem | .weightStore => e.errors = 1
  | .fetch | .registerFile => false
  | .link => true

/-- The MEM code (R346). -/
def memCode : MemKind → Nat
  | .gddr => 0 | .l2 => 1 | .localMem => 2 | .weightStore => 3 | .fetch => 4 | .registerFile => 5 | .link => 6

/-- The die an error belongs to. -/
def errDie (e : ErrorReport) : Nat :=
  match e.mem with
  | .gddr | .l2 | .weightStore | .link => dieOf e.addr
  | .localMem | .fetch | .registerFile => e.core / 384
/-- UNIT (R346). -/
def errUnit (e : ErrorReport) : Nat :=
  match e.mem with
  | .gddr | .l2 => channelOf e.addr
  | .weightStore => e.addr % 2 ^ 31 / 2 ^ 27
  | .localMem | .fetch | .registerFile => e.core
  | .link => 0
/-- WAY (R346). -/
def errWay (e : ErrorReport) : Nat := match e.mem with | .l2 => 32 * e.set + e.way | _ => 0

/-- The runs the owner rule ends (R347). -/
def State.ownedRuns (s : State) (die chan : Nat) (owner : BitVec 16) : List Nat :=
  let l := s.slice die chan
  let resident (r : Run) (here : Nat → Bool) : Bool :=
    (s.runCores r).any (fun k => here k && (s.coreAt k).run == some r.id.toNat)
  if owner = 0 then []
  else if owner = 0xFFFF then
    (s.runs.filter (fun r => r.ending.isNone
      && (if l.shared then resident r (fun k => k / 384 == die)
          else r.tenant = l.tenant.toNat && resident r (fun _ => true)))).map (fun r => r.id.toNat)
  else (s.runs.filter (fun r => r.ending.isNone && r.id.extractLsb' 0 16 = owner)).map (fun r => r.id.toNat)

/-- A run ends by the owner rule: cause 0x22, STATUS 4 (R347, R367). -/
def State.endOwned (s : State) (e : ErrorReport) (run : Nat) : State :=
  let s := s.updRun run (fun r => { r with f := r.f.first 0x22 0 0 0 0 })
  (s.stopRun run 4 []).logError (errDie e) 3 1 e.addr (errUnit e) (errWay e) e.synd (BitVec.ofNat 16 run)

/-- A way that failed is never allocated again: recorded, or its set is bypassed (R99). -/
def State.retireWay (s : State) (e : ErrorReport) : State :=
  let die := (errDie e)
  let chan := (errUnit e)
  let l := s.slice die chan
  let bypassed (s : State) (l : Slice) : State :=
    let l := (List.range 16).foldl (fun l w => l.evict e.set w) l
    (s.setSlice die chan { l with bypass := e.set :: l.bypass }).logError die 5 1 e.addr chan (errWay e) e.synd 0
  if l.quarantine.contains (e.set, e.way) then s
  else if l.quarantine.length < 64 then
    let q := (e.set, e.way) :: l.quarantine
    let l := { l with quarantine := q, degraded := q.length = 64 }
    let s := s.setSlice die chan l
    if (List.range 16).all (fun w => q.contains (e.set, w)) then bypassed s l else s
  else bypassed s l

/-- Firmware retires the page that holds a line: its frame is never allocated again, here or from a pool (R347). -/
def State.retirePage (s : State) (addr : Nat) : State :=
  let f := addr / 2 ^ 16 * 2 ^ 16
  { s with
    tenants := s.tenants.map (fun p => (p.1, { p.2 with pool := p.2.pool.filter (fun x => x != f) }))
    dev := { s.dev with retired := f :: s.dev.retired } }

/-- An uncorrectable error in L2 (R344, R347, R99). -/
def State.l2Error (s : State) (e : ErrorReport) : State :=
  let die := (errDie e)
  let chan := (errUnit e)
  let l := s.slice die chan
  match l.way e.set e.way with
  | none => s.retireWay e
  | some x =>
    let l := { l with lines := Sparse.put none l.lines (16 * e.set + e.way) none }
    if x.dirty = 0 then (s.setSlice die chan l).retireWay e
    else
      let s := (s.setPoison e.addr true).setSlice die chan (l.transfers (x.addr / 256 % 2 ^ 30) x.dirtyCount)
      let s := s.retireWay e
      let s := (s.ownedRuns die chan x.owner).foldl (fun s r => s.endOwned e r) s
      (s.retirePage e.addr).logError die 4 1 (e.addr / 2 ^ 16 * 2 ^ 16) chan 0 0 x.owner

/-- The owner tag of the line that failed. -/
def State.errorOwner (s : State) (e : ErrorReport) : BitVec 16 :=
  match e.mem with
  | .l2 => (match (s.slice (errDie e) (errUnit e)).way e.set e.way with | some x => x.owner | none => 0)
  | _ => 0

/-- What an uncorrectable error leaves (R344). -/
def State.spoil (s : State) (e : ErrorReport) : State :=
  match e.mem with
  | .gddr => (List.range 4).foldl (fun s i => s.setPoison (e.addr / 128 * 128 + 32 * i) true) s
  | .l2 => s.l2Error e
  | .localMem | .weightStore => s.setPoison e.addr true
  | .fetch =>
    let c := s.coreAt e.core
    s.setCoreAt e.core { c with u := { c.u with fetchBuf := c.u.fetchBuf.map (fun l =>
      if l.pa / 64 = e.addr / 64 then { l with data := l.data ^^^ (1#512 <<< 30) } else l) } }
  | .registerFile => s.endRunAt e.core 0x22 0 0
  | .link => s

/-- The memory and the unit an error names exist, and something is wrong in it. -/
def State.errorHere (s : State) (e : ErrorReport) : Bool :=
  e.errors ≠ 0 && (match e.mem with
    | .gddr => isDram e.addr && s.physOk e.addr
    | .l2 => isDram e.addr && s.physOk e.addr && decide (e.set = l2Set e.addr) && decide (e.way < 16)
        && (match (s.slice (dieOf e.addr) (channelOf e.addr)).way e.set e.way with | some x => x.addr == e.addr / 256 | none => true)
    | .weightStore => isWeightStore e.addr && s.physOk e.addr
    | .localMem => isLocal e.addr && decide (localCore e.addr = e.core) && decide (e.core < s.numCores)
    | .fetch | .registerFile => decide (e.core < s.numCores)
    | .link => decide (dieOf e.addr < s.numDies))

/-- MEMORY_ERROR (R344, R346): a log record for every event; an uncorrectable one is spoilt data, a run's end, or both. A
line of a fetch buffer is only spoilt: its record is written when a trap meets it, or when it is discarded (R23). -/
def execMemoryError (e : ErrorReport) (s : State) : Host.Outcome State Fault Refusal :=
  if !s.errorHere e then .next s
  else if e.mem = .fetch then .next (s.spoil e)
  else
    let event := if correctable e then 0 else if e.consumed then 1 else 2
    let t := s.logError (errDie e) event (memCode e.mem) e.addr (errUnit e) (errWay e) e.synd (s.errorOwner e)
    .next (if correctable e then t else t.spoil e)

/-! ### Sweep passes (R69, R70) -/

/-- SWEEP_PASS_BEGIN (R69): every eligible revoked lease becomes sweeping. -/
def execSweepPassBegin (s : State) : Host.Outcome State Fault Refusal :=
  if s.leases.passing || s.leases.eligible.isEmpty then .next s
  else
    let t := s.leases.eligible.foldl (fun s n => s.putLease n { s.lease n with state := 3 }) s
    .next { t with leases := { t.leases with eligible := [], passing := true, done := [] } }

/-- A capability loses its tag when it names a sweeping lease. -/
def Cap.swept (ls : List Nat) (c : Cap) : Cap := if c.tag && ls.contains c.lease.toNat then { c with tag := false } else c
/-- The capability registers of a context after phase 2. -/
def Ctx.swept (ls : List Nat) (c : Ctx) : Ctx :=
  { c with fcap := c.fcap.swept ls, efcap := c.efcap.swept ls, esave := c.esave.swept ls, frame := c.frame.swept ls, recCap := c.recCap.swept ls,
           r := { c.r with c := c.r.c.map (Cap.swept ls) } }
/-- The capability registers of an engine's command. -/
def Engine.swept (ls : List Nat) (x : Engine) : Engine :=
  { x with src := x.src.swept ls, dst := x.dst.swept ls, idx := x.idx.swept ls }
/-- The capabilities in a matrix unit's queues. -/
def Matrix.swept (ls : List Nat) (x : Matrix) : Matrix :=
  { x with fetches := x.fetches.map (fun f => { f with cap := f.cap.swept ls }),
           streams := x.streams.map (fun t => { t with cap := t.cap.swept ls }) }
/-- A written-back continuation's capabilities, and a ready record's. -/
def Parked.swept (ls : List Nat) (p : Parked) : Parked := { p with recCap := p.recCap.swept ls, frame := p.frame.swept ls }
def Ready.swept (ls : List Nat) (e : Ready) : Ready := { e with recCap := e.recCap.swept ls }
/-- A core after phase 2 (R69): RCC, RDC, its engines, the tag bits of its side log, its lease cache; what it holds of a
pre-empted run likewise. -/
def Core.swept (ls : List Nat) (k : Core) : Core :=
  { k with
    rcc := k.rcc.swept ls, rdc := k.rdc.swept ls,
    u := { k.u with
      sideLog := k.u.sideLog.map (fun e => if ls.contains e.lease.toNat then { e with tags := 0 } else e),
      leases := k.u.leases.filter (fun e => !ls.contains e.1), copy := k.u.copy.swept ls, epi := k.u.epi.swept ls,
      mx := k.u.mx.swept ls, waiting := k.u.waiting.map (Parked.swept ls), ready := k.u.ready.map (Ready.swept ls) },
    saved := k.saved.map (fun sv => { sv with
      ctxs := sv.ctxs.map (fun c => c.map (Ctx.swept ls)), copy := sv.copy.swept ls, epi := sv.epi.swept ls,
      waiting := sv.waiting.map (Parked.swept ls), ready := sv.ready.map (Ready.swept ls),
      mx := sv.mx.swept ls, copyCtx := sv.copyCtx.swept ls, epiCtx := sv.epiCtx.swept ls }) }

/-- A piece on its way after a pass: none carries a tagged capability of a sweeping lease (R69). -/
def Piece.swept (ls : List Nat) (p : Piece) : Piece :=
  { p with tags := p.tags &&& BitVec.ofNat 2 ((List.range 2).foldl (fun n g =>
      if ls.contains ((Cap.ofBits (p.data.extractLsb' (256 * g) 256) true).lease.toNat) then n else n + 2 ^ g) 0) }
/-- A sector of a view cache after a pass. -/
def Sector.swept (ls : List Nat) (x : Sector) : Sector :=
  { x with tags := x.tags &&& BitVec.ofNat 4 ((List.range 4).foldl (fun n g =>
      if ls.contains ((Cap.ofBits (x.data.extractLsb' (256 * g) 256) true).lease.toNat) then n else n + 2 ^ g) 0) }
/-- The Press after a pass. -/
def Press.swept (ls : List Nat) (x : Press) : Press :=
  { x with queues := x.queues.map (Piece.swept ls), fifo := x.fifo.map (Piece.swept ls), views := x.views.map (Sector.swept ls),
           props := x.props.map (fun p => { p with piece := p.piece.swept ls }) }

/-- The capability a snapshot holds in a granule of local memory. -/
def Snapshot.capAt (x : Snapshot) (g : Nat) : Cap :=
  let byte (a : Nat) : Byte := match x.bytes.find? (fun p => p.1 == a) with | some p => p.2 | none => 0
  Cap.ofBits (BitVec.ofNat 256 (leNat ((List.range 32).map (fun i => byte (32 * g + i))))) true
/-- A snapshot, or what a core in replay mode returns to, after a pass: nothing stale comes back with it (R69). -/
def Snapshot.swept (ls : List Nat) (x : Snapshot) : Snapshot :=
  { x with ctxs := x.ctxs.map (Ctx.swept ls), state := x.state.swept ls,
           tags := x.tags.filter (fun g => !ls.contains (x.capAt g).lease.toNat) }

/-- A swept lease is free, on top of the free list (R66, R67). -/
def State.freeLease (s : State) (n : Nat) : State :=
  let s := s.putLease n { s.lease n with state := 0, next := s.leases.head }
  { s with leases := { s.leases with head := BitVec.ofNat 16 n } }

/-- The granules whose tag a pass clears. -/
def State.staleTags (s : State) (ls : List Nat) : List Nat :=
  (s.tags.map Prod.fst).filter (fun g => (s.capAt (32 * g)).tag && ls.contains (s.capAt (32 * g)).lease.toNat)

/-- The sweep hart of a slice sweeps the memory of its channel, and that of slice 0 the registers of its die's gateway harts
(R69): the tags it clears are writes of its own at their home (R138, R140). -/
def State.sweepSlice (s : State) (d n : Nat) (ls : List Nat) : State :=
  let stale := (s.staleTags ls).filter (fun g => isDram (32 * g) && s.sliceOf (32 * g) == (d, n))
  let s := stale.foldl (fun s g =>
    ((s.setTag (32 * g) false).touch (32 * g) .firmware false).refreshHeld (.sweep d n) (32 * g)) s
  let harts := s.agents.filter (fun a => match a with | .gateway p _ => agentDie (.port p) == d | _ => false)
  if n = 0 then harts.foldl (fun s a => s.setCtxOf a ((s.ctxOf a).swept ls)) s else s
/-- A sweep hart does its part of the pass under way (R69): before the pass ends every one does. -/
def State.sweepPart (s : State) (d n : Nat) : State :=
  let k := 16 * d + n
  if s.leases.passing && s.hasAgent (.sweep d n) && !s.leases.done.contains k then
    let s := s.sweepSlice d n (s.leasesIn 3)
    { s with leases := { s.leases with done := k :: s.leases.done } }
  else s

/-- Both phases and the end of a pass (R69, R70). -/
def State.sweep (s : State) (ls : List Nat) : State :=
  let stale := s.staleTags ls
  let ctxs := (s.ctxs.map Prod.fst).foldl (fun m k =>
    Sparse.put Ctx.reset m k ((Sparse.get Ctx.reset s.ctxs k).swept ls)) s.ctxs
  let cores := (s.cores.map Prod.fst).foldl (fun m k =>
    Sparse.put Core.reset m k ((Sparse.get Core.reset s.cores k).swept ls)) s.cores
  let s : State := { s with
    tags := s.tags.filter (fun p => !stale.contains p.1), ctxs := ctxs, cores := cores, press := s.press.swept ls,
    dies := s.dies.map (fun p => (p.1, { p.2 with pickup := p.2.pickup.map (Ready.swept ls) })),
    dev := { s.dev with
      snapshots := s.dev.snapshots.map (Snapshot.swept ls), replayStops := s.dev.replayStops.map (Snapshot.swept ls) } }
  let s := stale.foldl (fun s g => s.touch (32 * g) .firmware false) s
  let s := { s with leases := { s.leases with sweepep := s.leases.sweepep + 1, passing := false } }
  let s := s.hwWord Config.sweepCell s.leases.sweepep
  ls.foldl State.freeLease s

/-- SWEEP_PASS_END (R69). -/
def execSweepPassEnd (s : State) : Host.Outcome State Fault Refusal :=
  if s.leases.passing then .next (s.sweep (s.leasesIn 3)) else .next s

end Sys2Proof.Machine
end

