-- ==== Sys2Proof/Machine/FrontEnd.lean ====
section
/-! DEFINITION. The guard table of the command harts (R353), what they reach as agents of the Press (R138, R354, R357), queues
and packets (R355 to R361, R369). -/

namespace Sys2Proof.Machine

/-! ### Queue records (R355, R356) -/

/-- The card whose command complex serves a queue, 1,024 queues a card (R353). -/
def queueCard (q : Nat) : Nat := q / 1024
/-- The command hart that serves a queue (R353). -/
def queueHart (q : Nat) : Nat := q / 256
/-- Word `n` of the shadow half. -/
def Queue.word (x : Queue) (n : Nat) : Word := x.shadow[n % 8]'(by omega)
/-- Sets word `n` of the shadow half. -/
def Queue.setWord (x : Queue) (n : Nat) (v : Word) : Queue := { x with shadow := x.shadow.set (n % 8) v (by omega) }
/-- V. -/
def Queue.exists (x : Queue) : Bool := (x.word 2).getLsbD 63
/-- PRIV. -/
def Queue.priv (x : Queue) : Bool := (x.word 2).getLsbD 62
/-- WSW. -/
def Queue.wsw (x : Queue) : Bool := (x.word 2).getLsbD 61
/-- LAZY, of a privileged queue only. -/
def Queue.isLazy (x : Queue) : Bool := (x.word 2).getLsbD 48 && x.priv
/-- LAZYM1. -/
def Queue.lazym1 (x : Queue) : Nat := ((x.word 2).extractLsb' 50 8).toNat
/-- ENACCT. -/
def Queue.enacct (x : Queue) : Nat := ((x.word 2).extractLsb' 32 16).toNat
/-- MAXLVL. -/
def Queue.maxlvl (x : Queue) : Nat := ((x.word 2).extractLsb' 16 3).toNat
/-- MAXPRIO. -/
def Queue.maxprio (x : Queue) : Nat := ((x.word 2).extractLsb' 14 2).toNat
/-- DIES. -/
def Queue.dies (x : Queue) : BitVec 4 := (x.word 2).extractLsb' 0 4
/-- TENANT. -/
def Queue.tenant (x : Queue) : Nat := ((x.word 1).extractLsb' 48 16).toNat
/-- UADDR. -/
def Queue.uaddr (x : Queue) : Nat := ((x.word 1).extractLsb' 0 48).toNat
/-- LOGN. -/
def Queue.logn (x : Queue) : Nat := ((x.word 0).extractLsb' 48 5).toNat
/-- RBASE. -/
def Queue.rbase (x : Queue) : Nat := ((x.word 0).extractLsb' 0 48).toNat
/-- ERR. -/
def Queue.err (x : Queue) : BitVec 8 := (x.word 3).extractLsb' 0 8
/-- PASID. -/
def Queue.pasid (x : Queue) : Nat := ((x.word 4).extractLsb' 0 20).toNat

/-- The bits of each shadow word that the host driver writes (R356). -/
def shadowMask (n : Nat) : Word :=
  if n = 0 then 0x001FFFFFFFFFFFFF else if n = 1 then BitVec.allOnes 64 else if n = 2 then 0xE3FDFFFFFF07C00F
  else if n = 4 then 0xFFFFF else 0

/-- QUEUE_SHADOW_WRITE (R356, R357): the RW fields; ERR is cleared by a write of word 3 that holds ERR 0, and the queue
resumes. -/
def execQueueShadowWrite (q word : Nat) (value : BitVec 64) (s : State) : Host.Outcome State Fault Refusal :=
  let x := s.queue q
  if 1024 * (s.numDies / 2) ≤ q || 8 ≤ word then .next s
  else if word = 3 then .next (if value.extractLsb' 0 8 = 0 then s.setQueue q { x.setWord 3 0 with rung := true } else s)
  else .next (s.setQueue q (x.setWord word (value &&& shadowMask word)))

/-- QUEUE_DESTROY (R369): unread packets are discarded; runs in flight go on. A queue created in its place is another one. -/
def execQueueDestroy (q : Nat) (s : State) : Host.Outcome State Fault Refusal :=
  .next (s.setQueue q { Queue.reset with gen := (s.queue q).gen + 1 })

/-- A queue stops with an error at a packet's index, and the host is told (R357); a COPY of it holds no weight store any more
(R102). -/
def State.queueError (s : State) (q : Nat) (err : Nat) (index : Nat) : State :=
  (s.setQueue q { (s.queue q).setWord 3 (BitVec.ofNat 64 (2 ^ 16 * (index % 2 ^ 48) + err)) with holds := [] }).raise 1

/-! ### The guard table (R353) -/

/-- A window grants an access at a level to a tenant: the whole access lies in it (R353). -/
def GuardWindow.grants (w : GuardWindow) (addr level tenant : Nat) (acc : GuardAccess) : Bool :=
  decide (4096 * w.base4k ≤ addr) &&
    (match acc with
      | .read n => decide (addr + n ≤ 4096 * w.limit4k) && (if level = 1 then w.r1 else w.r2)
      | .write n => decide (addr + n ≤ 4096 * w.limit4k) && (if level = 1 then w.w1 else w.w2)
      | .exec n => decide (addr + n ≤ 4096 * w.limit4k) && (if level = 1 then w.x1 else w.x2))
    && (level ≠ 2 || w.common || w.tenant == tenant)
/-- One window of a hart's guard table grants the whole access. -/
def CommandHart.grants (h : CommandHart) (addr level tenant : Nat) (acc : GuardAccess) : Bool :=
  h.guard.toList.any (fun w => match w with | some w => w.grants addr level tenant acc | none => false)
/-- The hart's software moves to level `l` at that level's entry address; `caller`: whom a return resumes (R353). -/
def CommandHart.enter (h : CommandHart) (l : Nat) (callers : List (Nat × Nat)) : CommandHart :=
  { h with level := l, pc := (h.entry[l % 2]'(by omega)).getD h.pc, callers := callers }
/-- An access that no window grants does not take place: the hart enters the monitor with its address and level; a plug-in is
stopped (R353). -/
def State.guardStop (s : State) (hart addr level : Nat) : State :=
  let h := s.hart hart
  s.setHart hart { h.enter 0 (if level = 2 then h.callers else (level, h.pc) :: h.callers) with refused := some (addr, level) }
/-- A hart does the scheduler's work: it stands at level 1 and the debug port does not hold it (R353, R383). -/
def CommandHart.schedules (h : CommandHart) : Bool := h.level = 1 && !h.halted

/-! ### Accesses of a command hart (R357) -/

/-- For whom a command hart acts: the card it stands on, the hart, the tenant and PASID its addresses belong to (R353,
R357). -/
structure Client where
  card : Nat
  hart : Nat
  tenant : Nat
  pasid : Nat
  deriving DecidableEq, Repr

/-- A queue's client. -/
def State.client (s : State) (q : Nat) : Client :=
  { card := queueCard q, hart := queueHart q, tenant := (s.queue q).tenant, pasid := (s.queue q).pasid }
/-- The client a run's packet acts for. -/
def Run.client (r : Run) : Client :=
  { card := queueCard r.queue, hart := queueHart r.queue, tenant := r.tenant, pasid := r.pasid }
/-- The agent of a client's accesses. -/
def Client.agent (k : Client) : Agent := .command k.hart

/-- Why an access of a command hart does not take place: its address faults; so it does at a malformed table entry (R74, R78);
the way refuses it (R285, R288); no window of the guard table grants it (R353). Or the front end refuses the launch (R364). -/
inductive Miss where
  | fault | malformed | barred
  | guarded (addr : Nat)
  | launch
  deriving DecidableEq, Repr
/-- What such an access leaves beside what its packet comes to. -/
def State.noteMiss (s : State) (k : Client) : Miss → State
  | .fault | .launch => s
  | .malformed => s.tableError
  | .barred => s.securityEvent
  | .guarded addr => s.guardStop k.hart addr 1
/-- A packet whose access does not take place: the hart goes to the monitor, or the queue stops with ERR 3 (R353, R357). -/
def State.packetMiss (s : State) (q index : Nat) (e : Miss) : State :=
  let t := s.noteMiss (s.client q) e
  match e with | .guarded _ => t | _ => t.queueError q 3 index

/-- The translation of an address for a client: the tenant's, for host windows under its PASID; local memory is no tenant's
(R354, R357). -/
def State.lookFor (s : State) (k : Client) (va : Nat) (acc : Access) : Except Miss (Nat × Bool) :=
  if region va = 1 || (region va = 2 && !(s.card k.card).hostWins.any (fun w =>
      w.2.valid && w.2.base ≤ va % 2 ^ 46 && va % 2 ^ 46 < w.2.limit && w.2.pasid = k.pasid)) then .error .fault
  else
    match s.xlateWith none (2 * k.card) k.tenant [] va acc with
    | .ok pa rpl _ => if s.pathRefuses k.agent pa acc.wants then .error .barred else .ok (pa, rpl)
    | .fault _ true => .error .malformed
    | _ => .error .fault
/-- The place of `n` bytes that a client's hart accesses at level 1; host memory is known to the guard table by its address
in the host windows (R353). -/
def State.placeFor (s : State) (k : Client) (va n : Nat) (acc : Access) : Except Miss (Nat × Bool) :=
  match s.lookFor k va acc with
  | .error e => .error e
  | .ok x =>
    let addr := if isHost x.1 then va else x.1
    let write := match acc with | .write | .copy | .atomic => true | .read | .exec => false
    let read := match acc with | .read | .exec | .atomic => true | .write | .copy => false
    let h := s.hart k.hart
    if (!write || h.grants addr 1 k.tenant (.write n)) && (!read || h.grants addr 1 k.tenant (.read n)) then .ok x
    else .error (.guarded addr)
/-- The walk that translates an address for a client reaches its slices (R76, R87). -/
def State.walkedFor (s : State) (k : Client) (va : Nat) : State :=
  if region va = 0 && !isFwWindow va && (s.heldLeaf none (2 * k.card) k.tenant va).isNone then
    (s.walkPlaces (s.tenant k.tenant).root va).foldl (fun s p => s.touch p .read false) s
  else s

/-- At most 32 bytes of one granule, read at their home (R144; log 73): the bytes, whether they are poisoned, what that
leaves. -/
def State.readPiece (s : State) (k : Client) (nonAlloc : Bool) (va n : Nat) : Except Miss (List Byte × Bool × State) :=
  match s.placeFor k va n .read with
  | .error e => .error e
  | .ok x =>
    let r := ((s.walkedFor k va).asksBytes k.agent x.1 n).readHome k.agent x.1 n nonAlloc
    .ok (r.1, r.2.poisonAt x.1, r.2)
/-- `n` bytes from an address of a client, a granule at a time. -/
def State.readFor (s : State) (k : Client) (nonAlloc : Bool) : (granules n va : Nat) → Except Miss (List Byte × Bool × State)
  | 0, _, _ => .ok ([], false, s)
  | g + 1, n, va =>
    if n = 0 then .ok ([], false, s)
    else
      let m := min n (32 - va % 32)
      match s.readPiece k nonAlloc va m with
      | .error e => .error e
      | .ok (bs, bad, t) =>
        match State.readFor t k nonAlloc g (n - m) (va + m) with
        | .error e => .error e
        | .ok (cs, worse, u) => .ok (bs ++ cs, bad || worse, u)
/-- `n` granules' bytes from an address of a client, and what reading them leaves; poison is an address fault (log 73). -/
def State.bytesFor (s : State) (k : Client) (n va : Nat) : Except Miss (List Byte × State) :=
  match s.readFor k false (n + 1) (32 * n) va with
  | .error e => .error e
  | .ok (bs, bad, t) => if bad then .error .fault else .ok (bs, t)

/-- A piece enters its agent's store queue (R142). -/
def State.push (s : State) (p : Piece) : State := s.setQueues (s.press.queues ++ [p]) s.press.fifo
/-- Bytes of one line stored by a client at a place: they enter its hart's store queue (R138). -/
def State.putFor (s : State) (k : Client) (va pa : Nat) (rpl : Bool) (bs : List Byte) (poison : BitVec 2) : State :=
  (s.walkedFor k va).push { mkPiece k.agent 0 va pa bs 0 rpl false 0 with poison := poison }
/-- Bytes stored by a client, one piece a line; none is stored where one of them has no place. -/
def State.storeFor (s : State) (k : Client) (va : Nat) (bs : List Byte) : Except Miss State :=
  let n := min bs.length (64 - va % 64)
  match s.placeFor k va n .write with
  | .error e => .error e
  | .ok x =>
    if bs.length ≤ n then .ok (s.putFor k va x.1 x.2 bs 0)
    else
      match s.placeFor k (va + n) (bs.length - n) .write with
      | .error e => .error e
      | .ok y => .ok ((s.putFor k va x.1 x.2 (bs.take n) 0).putFor k (va + n) y.1 y.2 (bs.drop n) 0)
/-- A counter of a client is advanced with a release of system scope (R130); in reduced service such an operation faults
(R15). -/
def State.counterFor (s : State) (k : Client) (va inc : Word) : Except Miss State :=
  match s.placeFor k va.toNat 8 .atomic with
  | .error e => .error e
  | .ok x =>
    let t := (s.flush k.agent).dropPorts k.agent 3
    if s.reduced || t.poisonAt x.1 then .error .fault else .ok ((t.walkedFor k va.toNat).performCounter k.agent 0 x.1 inc)

/-- `n` granules from an address of a queue, and what reading them leaves. -/
def State.queueBytes (s : State) (q n va : Nat) : Except Miss (List Byte × State) := s.bytesFor (s.client q) n va
/-- An address of a queue has a place for such an access. -/
def State.queueMaps (s : State) (q va : Nat) (acc : Access) : Except Miss Unit := (s.lookFor (s.client q) va acc).map (fun _ => ())
/-- Word `n` of bytes. -/
def wordOf (bs : List Byte) (n : Nat) : Word := BitVec.ofNat 64 (leNat ((bs.drop (8 * n)).take 8))

/-! ### Packets (R358, R361, R362) -/

/-- TYPE. -/
def Packet.type (p : Packet) : Nat := ((p.words.headD 0).extractLsb' 0 8).toNat
/-- Word `n`. -/
def Packet.word (p : Packet) (n : Nat) : Word := p.words.getD n 0
/-- BARRIER. -/
def Packet.barrier (p : Packet) : Bool := (p.word 0).getLsbD 8
/-- EVENT. -/
def Packet.event (p : Packet) : Bool := (p.word 0).getLsbD 10
/-- Words `n` to 7 are 0. -/
def Packet.zeroFrom (p : Packet) (n : Nat) : Bool := (p.words.drop n).all (· = 0)
/-- An address field: the low 48 bits, the others 0. -/
def addressOk (w : Word) : Bool := w.extractLsb' 48 16 = 0

/-- The pages of `n` bytes from an address. -/
def pagesOf (va n : Nat) : List Nat := (List.range ((va % 2 ^ 16 + n + 2 ^ 16 - 1) / 2 ^ 16)).map (fun i =>
  if i = 0 then va else va / 2 ^ 16 * 2 ^ 16 + i * 2 ^ 16)

/-- The dies whose weight store a COPY packet writes, on any of its pages: every die where the page is replicated (R92,
R102). -/
def State.weightDies (s : State) (q : Nat) (p : Packet) : List Nat :=
  ((pagesOf (p.word 2).toNat (p.word 3).toNat).flatMap (fun va =>
    match s.lookFor (s.client q) va .copy with
    | .ok (pa, rpl) => if !isWeightStore pa then [] else if rpl then List.range s.numDies else [dieOf pa]
    | .error _ => [])).dedup

/-- The first of some checks that fails. -/
def firstMiss : List (Except Miss Unit) → Except Miss Unit
  | [] => .ok ()
  | x :: rest => match x with | .ok _ => firstMiss rest | .error e => .error e
/-- A counter that a WAITCTR reads: not in a replicated page (R93), nor in reduced service, where it would be an acquire of
system scope (R15). -/
def State.waitPlace (s : State) (q va : Nat) : Except Miss Nat :=
  match s.lookFor (s.client q) va .read with
  | .error e => .error e
  | .ok x => if x.2 || s.reduced then .error .fault else .ok x.1
/-- The addresses of a packet of another type than LAUNCH are checked (R357, R361). -/
def State.checkPlaces (s : State) (q : Nat) (p : Packet) : Except Miss Unit :=
  if p.type = 2 then (s.waitPlace q (p.word 1).toNat).map (fun _ => ())
  else if p.type = 3 then (if s.reduced then .error .fault else s.queueMaps q (p.word 1).toNat .atomic)
  else if p.type = 4 then
    let n := (p.word 3).toNat
    firstMiss ((pagesOf (p.word 1).toNat n).map (fun va => s.queueMaps q va .read)
      ++ (pagesOf (p.word 2).toNat n).map (fun va => s.queueMaps q va .copy)
      ++ (if p.word 4 = 0 then [] else [if s.reduced then .error .fault else s.queueMaps q (p.word 4).toNat .atomic]))
  else .ok ()
/-- The form of a packet of another type than LAUNCH (R358, R361). -/
def Packet.plainOk (p : Packet) : Bool :=
  (p.word 0).extractLsb' 11 53 = 0 &&
    (if p.type = 2 || p.type = 3 then p.zeroFrom 3 && addressOk (p.word 1)
     else if p.type = 4 then
       p.zeroFrom 5 && addressOk (p.word 1) && addressOk (p.word 2) && addressOk (p.word 4) && (p.word 3).toNat < 2 ^ 32
         && (p.word 3).toNat % 32 = 0
     else p.zeroFrom 2)
/-- A packet's ERR and why its address has no place: ERR 3 (R357). -/
def errOf (x : Except Miss Unit) (other : Nat) : Nat × Miss :=
  match x with | .ok _ => (other, .fault) | .error e => (3, e)
/-- The check of a packet of another type than LAUNCH (R357, R358, R361). -/
def State.checkPlain (s : State) (q : Nat) (p : Packet) : Nat × Miss :=
  if !p.plainOk then (1, .fault)
  else errOf (s.checkPlaces q p) (if p.type = 4 && !(s.weightDies q p).isEmpty && !(s.queue q).wsw then 4 else 0)

/-! ### The fields of a LAUNCH (R362, R298) -/

/-- The domain a LAUNCH names. -/
def launchDomain (w0 : Word) : Domain :=
  let f (o n : Nat) : Nat := w0.toNat / 2 ^ o % 2 ^ n
  let level := f 16 3
  let tile := f 24 4 = 0 && f 28 5 = 0
  { level := BitVec.ofNat 3 level, die := f 33 2, row0 := f 35 4, col0 := f 39 5,
    rows := if level = 1 then f 44 4 + 1 else 1, cols := if level = 1 then f 48 5 + 1 else 1,
    tileRows := if tile then 4 else f 24 4 + 1, tileCols := if tile then 3 else f 28 5 + 1 }
/-- The fields of a level that does not use them are 0; the rectangle lies on its die; a tile divides 16 rows and 24
columns and holds 12 cores (R362, R298). -/
def launchFieldsOk (w0 : Word) : Bool :=
  let f (o n : Nat) : Nat := w0.toNat / 2 ^ o % 2 ^ n
  let d := launchDomain w0
  let l := d.level.toNat
  decide (l ≤ 4) && f 53 11 = 0
    && (l ≤ 2 || (l = 3 && f 33 2 % 2 = 0) || f 33 2 = 0) && (l ≤ 1 || (f 35 4 = 0 && f 39 5 = 0))
    && (l = 1 || (f 44 4 = 0 && f 48 5 = 0)) && (2 ≤ l || (f 24 4 = 0 && f 28 5 = 0))
    && decide (d.row0 + d.rows ≤ 16) && decide (d.col0 + d.cols ≤ 24)
    && (l < 2 || (16 % d.tileRows = 0 && 24 % d.tileCols = 0 && 12 ≤ d.tileRows * d.tileCols))
/-- The dies of a domain. -/
def State.domainDies (s : State) (d : Domain) : List Nat :=
  let l := d.level.toNat
  if l ≤ 2 then [d.die] else if l = 3 then [2 * (d.die / 2), 2 * (d.die / 2) + 1] else List.range s.numDies
/-- PRIO of a LAUNCH. -/
def Packet.prio (p : Packet) : BitVec 2 := (p.word 0).extractLsb' 19 2
/-- ESZ of a LAUNCH. -/
def Packet.esz (p : Packet) : BitVec 2 := (p.word 0).extractLsb' 21 2
/-- The ERR that a LAUNCH gives at its load (R357, R358, R364). -/
def State.checkLaunch (s : State) (q : Nat) (p : Packet) : Nat × Miss :=
  let x := s.queue q
  let d := launchDomain (p.word 0)
  if (p.word 0).extractLsb' 11 5 ≠ 0 then (1, .fault)
  else if x.maxlvl < d.level.toNat || x.maxprio < p.prio.toNat
      || (s.domainDies d).any (fun n => !x.dies.getLsbD n || s.numDies ≤ n) then (2, .fault)
  else if !addressOk (p.word 1) then (0, .fault)
  else errOf (s.queueMaps q (p.word 1).toNat .read) 0
/-- The ERR of a packet, 0 for none; of ERR 3 what its address meets. -/
def State.checkPacket (s : State) (q : Nat) (p : Packet) : Nat × Miss :=
  if p.type = 1 then s.checkLaunch q p else if 5 < p.type then (1, .fault) else s.checkPlain q p

/-! ### PACKET_LOAD (R357, R360) -/

/-- The run a LAUNCH packet has started, while it lives. -/
def State.runOfPacket (s : State) (q : Nat) (p : Packet) : Option Run :=
  s.runs.find? (fun r => r.queue == q && r.packet == p.index && r.queueGen == (s.queue q).gen && r.state ≠ .preparing)
/-- The packet of a queue that has been taken and not started: the last one (R358). -/
def State.headPacket (s : State) (q : Nat) : Option Packet :=
  ((s.queue q).pending.find? (fun p => p.type ≠ 1 || (s.runOfPacket q p).isNone))
/-- A packet may start: without BARRIER and of another type than SIGNAL at once, else when every earlier one is complete
(R358, R361). -/
def State.mayStartPacket (s : State) (q : Nat) (p : Packet) : Bool :=
  (!p.barrier && p.type ≠ 3) || (s.queue q).pending = [p]

/-- A packet's read index is published (R360): at once on an ordinary queue, else as LAZYM1 and PUBLISH say. -/
def Queue.publishes (x : Queue) (p : Packet) : Bool := !x.isLazy || x.lazym1 + 1 ≤ x.sincePublish + 1 || (p.word 0).getLsbD 9
/-- A checked packet is copied out: its slot, at the address `slot` and the place `pa`, reads INVALID and the index moves on. -/
def State.takePacket (s : State) (q slot pa : Nat) (rpl : Bool) (p : Packet) : State :=
  let x := s.queue q
  let s := s.putFor (s.client q) slot pa rpl [0] 0
  s.setQueue q { x with pending := x.pending ++ [p], ridx := x.ridx + 1, sincePublish := x.sincePublish + 1 }
/-- The read index is published in its cell (R360). -/
def State.publish (s : State) (q ridx : Nat) : Except Miss State :=
  let x := s.queue q
  (s.storeFor (s.client q) ridx (leBytes 8 x.ridx.toNat)).map (fun t => t.setQueue q { x with published := x.ridx, sincePublish := 0 })

/-- The user half is well formed (R355). -/
def userHalfOk (bs : List Byte) : Bool :=
  wordOf bs 1 >>> 48 = 0 && wordOf bs 2 >>> 1 = 0 && (List.range 5).all (fun i => wordOf bs (3 + i) = 0)

/-- A link of a card retrains: what the card's command complex sends may have to wait (R285). -/
def State.cardHeld (s : State) (card : Nat) : Bool :=
  [Port.ucie (2 * card), .ucie (2 * card + 1), .bridge card, .pcie card].any (fun p => (s.link p).state == .retraining)
/-- The command complex is up, a hart of it does the scheduler's work, and no link that its accesses may cross retrains. -/
def State.hartLive (s : State) (hart : Nat) : Bool :=
  !s.dev.off && 3 ≤ s.dev.stage.toNat && s.dev.stage.toNat ≤ 5 && (s.hart hart).schedules && !s.cardHeld (hart / 4)
/-- The command complex works for queue `q`, which exists and has not stopped. -/
def State.queueLive (s : State) (q : Nat) : Bool :=
  let x := s.queue q
  s.hartLive (queueHart q) && q < 1024 * (s.numDies / 2) && x.exists && x.err = 0

/-- A slot that the hart has read (R357, R360): an INVALID one waits for the next doorbell; of a packet that fails its check
nothing is consumed; another is taken, and the read index published. -/
def State.loadSlot (s : State) (q slot pa : Nat) (rpl : Bool) (ridx : Nat) (bs : List Byte) : State :=
  let x := s.queue q
  let p : Packet := { index := x.ridx, words := (List.range 8).map (wordOf bs) }
  if p.type = 0 then s.setQueue q { x with rung := false }
  else
    let err := s.checkPacket q p
    if err.1 = 3 then s.packetMiss q x.ridx.toNat err.2
    else if err.1 ≠ 0 then s.queueError q err.1 x.ridx.toNat
    else
      let t := s.takePacket q slot pa rpl p
      match t.publish q ridx with
      | .error e => s.packetMiss q x.ridx.toNat e
      | .ok u => if x.publishes p then u else t

/-- PACKET_LOAD (R357, R360): the user half and the next slot are read, merged and checked, when no packet of the queue still
has to start. -/
def execPacketLoad (q : Nat) (s : State) : Host.Outcome State Fault Refusal :=
  let x := s.queue q
  if !s.queueLive q || !x.rung || (s.headPacket q).isSome then .next s
  else
    match s.queueBytes q 2 x.uaddr with
    | .error e => .next (s.packetMiss q x.ridx.toNat e)
    | .ok (user, s) =>
      if !userHalfOk user || x.logn < 4 || 16 < x.logn || x.rbase % 64 ≠ 0 then .next (s.queueError q 1 x.ridx.toNat)
      else if (wordOf user 2).getLsbD 0 then .next s
      else
        let va := x.rbase + 64 * (x.ridx.toNat % 2 ^ x.logn)
        match s.placeFor (s.client q) va 64 .write, s.queueBytes q 2 va with
        | .ok (pa, rpl), .ok (bs, s) => .next (s.loadSlot q va pa rpl (wordOf user 1).toNat bs)
        | .error e, _ => .next (s.packetMiss q x.ridx.toNat e)
        | _, .error e => .next (s.packetMiss q x.ridx.toNat e)

/-- DOORBELL (R359, R154): the hart looks at its ring again; the host's earlier BAR 2 writes are performed, as a release of
system scope. -/
def execDoorbell (q : Nat) (s : State) : Host.Outcome State Fault Refusal :=
  let a := Agent.host (queueCard q)
  let s := (s.flush a).dropPorts a 3
  .next (s.setQueue q { s.queue q with rung := true })

/-! ### The plain packets (R361) -/

/-- A packet is complete: it leaves the queue, and its EVENT is raised (R358). -/
def State.completePacket (s : State) (q : Nat) (p : Packet) : State :=
  let x := s.queue q
  let s := s.setQueue q { x with pending := x.pending.filter (fun y => y.index != p.index), copied := 0, holds := [] }
  if p.event then s.raise 0 else s
/-- The packet of type `ty` that may start now. -/
def State.startable (s : State) (q ty : Nat) : Option Packet :=
  match s.headPacket q with
  | some p => if p.type = ty && s.queueLive q && s.mayStartPacket q p then some p else none
  | none => none
/-- WAITCTR (R361): it completes when the counter has reached the threshold. -/
def execWaitctr (q : Nat) (s : State) : Host.Outcome State Fault Refusal :=
  match s.startable q 2 with
  | none => .next s
  | some p =>
    let va := (p.word 1).toNat
    match s.waitPlace q va, s.readPiece (s.client q) false va 8 with
    | .error e, _ => .next (s.packetMiss q p.index.toNat e)
    | _, .error e => .next (s.packetMiss q p.index.toNat e)
    | .ok _, .ok (bs, bad, t) =>
      if bad then .next (s.queueError q 3 p.index.toNat)
      else if (p.word 2).toNat ≤ (wordOf bs 0).toNat then
        .next ((t.dropViews (fun v => v.agent == (s.client q).agent)).completePacket q p)
      else .next s

/-- SIGNAL (R361). -/
def execSignal (q : Nat) (s : State) : Host.Outcome State Fault Refusal :=
  match s.startable q 3 with
  | none => .next s
  | some p =>
    match s.counterFor (s.client q) (p.word 1) (p.word 2) with
    | .ok t => .next (t.completePacket q p)
    | .error e => .next (s.packetMiss q p.index.toNat e)

/-- The next part of a COPY packet (R361): what one granule of the destination holds of it, tags cleared and poison kept, read
at its home and stored; nothing while the source's weight-store bank refreshes (R103). -/
def State.copyChunk (s : State) (q : Nat) (p : Packet) : Except Miss (Option State) :=
  let k := s.client q
  let x := s.queue q
  let src := (p.word 1).toNat + x.copied
  let dst := (p.word 2).toNat + x.copied
  let n := min ((p.word 3).toNat - x.copied) (32 - dst % 32)
  match s.placeFor k dst n .copy with
  | .error e => .error e
  | .ok to_ =>
    match s.readFor k true 2 n src with
    | .error e => .error e
    | .ok (bs, bad, t) =>
      let busy (va : Nat) : Bool := match s.lookFor k va .read with | .ok (pa, _) => s.refreshLeft pa ≠ 0 | .error _ => false
      if busy src || busy (src + n - 1) then .ok none
      else
        let t := t.putFor k dst to_.1 to_.2 bs (if bad then 3 else 0)
        .ok (some (t.setQueue q { x with copied := x.copied + n }))
/-- A COPY packet has copied all its bytes. -/
def State.copied (s : State) (q : Nat) (p : Packet) : Bool := (p.word 3).toNat ≤ (s.queue q).copied
/-- As many parts as follow without a wait, `n` at most, and why the next one has no place. -/
def State.copyRun (s : State) (q : Nat) (p : Packet) : Nat → State × Option Miss
  | 0 => (s, none)
  | n + 1 =>
    if s.copied q p then (s, none)
    else
      match s.copyChunk q p with
      | .ok (some t) => State.copyRun t q p n
      | .ok none => (s, none)
      | .error e => (s, some e)

/-- A run is resident on a die, or waits there in its save frames. -/
def State.dieBusy (s : State) (die : Nat) : Bool := s.cores.any (fun p => p.1 / 384 == die && (p.2.run.isSome || p.2.saved.isSome))
/-- The weight store of a die is being written (R102). -/
def State.storeWriting (s : State) (die : Nat) : Bool := s.queues.any (fun e => e.2.holds.contains die)
/-- The weight stores of dies begin to be written, and no run is launched there (R102). -/
def State.holdStores (s : State) (q : Nat) (ds : List Nat) : State :=
  let s := ds.foldl (fun s d => s.setDie d { s.die d with rewrites := (s.die d).rewrites + 1 }) s
  s.setQueue q { s.queue q with holds := ds }

/-- What follows a COPY packet's last byte: into a weight store its stores are performed before runs may be launched there; its
counter is advanced, and it is complete (R102, R361). -/
def State.endCopy (s : State) (q : Nat) (p : Packet) : State :=
  let s := if (s.queue q).holds.isEmpty then s else s.flush (s.client q).agent
  if p.word 4 = 0 then s.completePacket q p
  else
    match s.counterFor (s.client q) (p.word 4) 1 with
    | .ok t => t.completePacket q p
    | .error e => s.packetMiss q p.index.toNat e
/-- At most `n` parts of the COPY packet `p`, and what follows the last one (R102, R361): a copy into weight stores waits until
no run is resident on their dies, then holds launches off while it writes. -/
def State.copyParts (s : State) (q : Nat) (p : Packet) (n : Nat) : State :=
  let ds := s.weightDies q p
  if ds.any s.dieBusy then s
  else if (s.queue q).holds ≠ ds then s.holdStores q ds
  else
    let r := s.copyRun q p n
    match r.2 with
    | some e => r.1.packetMiss q p.index.toNat e
    | none => if r.1.copied q p then r.1.endCopy q p else r.1

/-- COPY_PACKET (R361, R102): what is left of the copy. -/
def execCopyPacket (q : Nat) (s : State) : Host.Outcome State Fault Refusal :=
  match s.startable q 4 with
  | none => .next s
  | some p => .next (s.copyParts q p ((p.word 3).toNat / 16 + 1))
/-- A command hart's next step as an agent (R138, R141): one part of a COPY packet of the first of its queues that is at one. -/
def State.hartStep (s : State) (hart : Nat) : State :=
  match (s.queues.map Prod.fst).find? (fun q => queueHart q == hart && (s.startable q 4).isSome) with
  | none => s
  | some q => match s.startable q 4 with | some p => s.copyParts q p 1 | none => s

/-- MARKER (R361, R377): a trace marker with code 0x3FF. -/
def execMarker (q : Nat) (s : State) : Host.Outcome State Fault Refusal :=
  match s.startable q 5 with
  | none => .next s
  | some p =>
    let d := 2 * queueCard q
    let t := if (s.die d).trace.en then s.traceWrite d (traceWord 0x7FF 0 1 0) 0x3FF (p.word 1) else s
    .next (t.completePacket q p)

end Sys2Proof.Machine
end

