-- ==== Sys2Proof/Machine/Launch.lean ====
section
/-! DEFINITION. The checks and the start of a launch (R306, R307, R362 to R366, R400, R401), a run's end and its colophon
(R308, R338, R367 to R369). -/

namespace Sys2Proof.Machine

/-! ### The launch description (R363) -/

/-- A launch that has passed the front end's checks (R364). -/
structure LaunchPlan where
  domain : Domain
  cores : List Nat
  /-- Run area: first offset and end. -/
  area : Nat × Nat
  code : Cap
  nctx : Nat
  walloc : Vector Word 4
  image : List Byte
  /-- Offset of the plan header and its exchange window. -/
  plan : Option (Nat × PlanHeader)
  shape : List Cap
  ranges : List RangeDesc
  isOpen : Bool
  deriving DecidableEq, Repr

/-- The zero bits of a description, its alignments and NRANGE (R363, R364). -/
def descOk (bs : List Byte) : Bool :=
  let w := wordOf bs
  (w 0).extractLsb' 0 6 = 0 && (w 1).extractLsb' 0 6 = 0 && (w 1).extractLsb' 0 32 ≠ 0 && ((w 1).extractLsb' 0 32).toNat ≤ 2 ^ 22
    && (w 1).extractLsb' 32 2 = 0 && ((w 1).extractLsb' 32 32).toNat < ((w 1).extractLsb' 0 32).toNat
    && addressOk (w 2) && (w 3).extractLsb' 41 7 = 0 && (w 3).extractLsb' 54 10 = 0 && ((w 3).extractLsb' 48 6).toNat ≤ 32
    && addressOk (w 4) && addressOk (w 5)
    && [w 6, w 7].all (fun x => x.extractLsb' 19 13 = 0 && x.extractLsb' 51 13 = 0)
    && w 8 >>> 2 = 0 && (List.range 7).all (fun i => w (9 + i) = 0)
/-- The four WALLOC pairs (R363). -/
def descWalloc (bs : List Byte) : Vector Word 4 :=
  let w := wordOf bs
  #v[(w 6).extractLsb' 0 19 |>.setWidth 64, (w 6).extractLsb' 32 19 |>.setWidth 64, (w 7).extractLsb' 0 19 |>.setWidth 64,
     (w 7).extractLsb' 32 19 |>.setWidth 64]
/-- The checks of R198 on four pairs. -/
def wallocsOk (v : Vector Word 4) : Bool :=
  let spans := v.toList.map wallocSpan
  spans.all (fun x => x.2 - x.1 ≤ 256 && x.2 ≤ 1024)
    && (List.range 4).all (fun i => (List.range i).all (fun j => !rangesMeet (spans.getD i (0, 0)) (spans.getD j (0, 0))))

/-! ### Range descriptors (R77) -/

/-- A range descriptor of 32 bytes: none where R77 refuses it on its own, `some none` where it is no valid entry (V is 0)
and so gives no range, whatever its other fields but the zero ones (log 67). -/
def rangeOf (bs : List Byte) : Option (Option RangeDesc) :=
  let w := wordOf bs
  let r : RangeDesc :=
    { vbase := (w 0).toNat, vlimit := (w 1).toNat, poff := ((w 2).extractLsb' 0 33).toNat, die := ((w 2).extractLsb' 44 2).toNat,
      chmask := (w 3).extractLsb' 0 12, rd := (w 3).getLsbD 12, wr := (w 3).getLsbD 13, xe := (w 3).getLsbD 14 }
  let pages := (r.vlimit - r.vbase) / 2 ^ 16
  let n := (chBits r.chmask).length
  if !(addressOk (w 0) && addressOk (w 1) && (w 2).extractLsb' 46 18 = 0 && (w 2).extractLsb' 33 11 = 0
      && (w 3).extractLsb' 17 47 = 0 && !(w 3).getLsbD 15) then none
  else if !(w 3).getLsbD 16 then some none
  else if r.vbase % 2 ^ 16 = 0 && r.vlimit % 2 ^ 16 = 0 && r.poff % 2 ^ 16 = 0 && n ≠ 0
      && decide (r.poff + 2 ^ 16 * ((pages + n - 1) / n) ≤ 0x1E0000000) then some (some r)
  else none
/-- The ranges of a description; none where one of its descriptors is refused. -/
def rangeList : Nat → List Byte → Option (List RangeDesc)
  | 0, _ => some []
  | n + 1, bs =>
    match rangeOf bs, rangeList n (bs.drop 32) with
    | some r, some rest => some (r.toList ++ rest)
    | _, _ => none
/-- Where the tenant's tables map an address of region 0b00, when they do. -/
def State.mapped (s : State) (tenant va : Nat) : Option Nat :=
  match s.walk (s.tenant tenant).root va with
  | .leaf e big => some (frameOf e + (if big then va % 2 ^ 25 else va % 2 ^ 16))
  | _ => none
/-- No other translation of the run overlaps a range with a different mapping, the window of firmware's cells included (R77;
log 12). -/
def State.rangeAlone (s : State) (tenant : Nat) (rs : List RangeDesc) (r : RangeDesc) : Bool :=
  (r.vlimit ≤ Config.fwBase || Config.fwBase + 0x10000 ≤ r.vbase) && (List.range ((r.vlimit - r.vbase) / 2 ^ 16)).all (fun i =>
    let va := r.vbase + 2 ^ 16 * i
    (match s.mapped tenant va with | some pa => pa = r.place va | none => true)
      && rs.all (fun x => !(x.vbase ≤ va && va < x.vlimit) || x.place va = r.place va))

/-! ### The shape record (R307, R400) -/

/-- A check of the front end: the launch is refused where it fails (R364). -/
def refuseUnless (b : Bool) : Except Miss Unit := if b then .ok () else .error .launch
/-- The capabilities of the shape record at `va`, which granules hold; an untagged entry or a malformed header refuses the
launch, an entry whose lease is dead does not (R307). -/
def State.shapeRecord (s : State) (k : Client) (va : Nat) : Except Miss (List Cap) :=
  if va = 0 then .ok []
  else do
    let (bs, _) ← s.bytesFor k 1 va
    let n := ((wordOf bs 0).extractLsb' 0 4).toNat
    refuseUnless (va % 32 = 0 && wordOf bs 0 >>> 4 = 0 && n ≤ 8 && (List.range 3).all (fun i => wordOf bs (i + 1) = 0))
    (List.range n).mapM (fun i => do
      let (_, bad, t) ← s.readPiece k true (va + 32 + 32 * i) 32
      let (pa, _) ← s.lookFor k (va + 32 + 32 * i) .read
      let c := t.capAt pa
      refuseUnless (c.tag && !bad)
      pure c)
/-- A shape entry as core `k` receives it: one of local scope is minted for each core, its BASE an offset in the .local
image (R400). -/
def shapeFor (k : Nat) (area : Nat × Nat) (c : Cap) : Cap :=
  if c.scope = 0 then
    { c with base := BitVec.ofNat 48 (localBase k + area.1 + c.base.toNat % 2 ^ 20), lease := 0, gen := 0 }
  else c
/-- A shape entry reaches no save frame and no core state: as a core receives it, one of local scope lies in the run area
(R107; log 67). -/
def shapeOk (area : Nat × Nat) (c : Cap) : Bool :=
  let b := (shapeFor 0 area c).bounds
  c.scope ≠ 0 || (((localBase 0 + area.1 : Nat) : Int) ≤ b.1 && b.2 ≤ ((localBase 0 + area.2 : Nat) : Int))

/-! ### The checks of R364 -/

/-- The run area of a launch: of its own ESZ, or the area it gets on the cores of the runs it pre-empts (R106, R411). -/
def launchArea (esz : BitVec 2) (express : Option Nat) : Nat × Nat :=
  match express with
  | none => (0, 0x100000 - expressSize esz)
  | some e => if e ≤ 0x15000 then (0xEB000, 0xEB000) else (0x100000 - e, 0xEB000)
/-- What a run may use of its area: all but the launch table (R306). -/
def usable (area : Nat × Nat) : Nat × Nat := (area.1, area.2 - 512)

/-- The exchange plan of a launch: its header in the image and the checks of R169 against the area (R306). -/
def launchPlan (w3 : Word) (image : List Byte) (area : Nat × Nat) : Option (Option (Nat × PlanHeader)) :=
  if !w3.getLsbD 40 then some none
  else
    let off := (w3.extractLsb' 20 20).toNat
    let b := image.drop off
    let w := wordOf b
    let h : PlanHeader :=
      { count := ((w 0).extractLsb' 0 16).toNat, wbase := ((w 1).extractLsb' 0 20).toNat, wsize := ((w 1).extractLsb' 32 20).toNat }
    if off % 32 = 0 && off + 32 ≤ image.length && w 0 >>> 16 = 0 && (w 1).extractLsb' 20 12 = 0 && (w 1).extractLsb' 52 12 = 0
        && w 2 = 0 && (w 3).extractLsb' 48 16 = 0 && h.wsize ≠ 0 && h.wsize % 4096 = 0 && h.wbase % 4096 = 0 && within (h.wbase, h.wbase + h.wsize) (usable area)
        && within (area.1 + off, area.1 + off + 96 + 32 * h.count) (usable area) then
      some (some (area.1 + off, h))
    else none

/-- ENTRY names a parcel that begins an instruction with its TGT bit set, in a line that passes the checks of a target
(R20, R413). -/
def State.entryOk (s : State) (k : Client) (ranges : List RangeDesc) (entry : Nat) : Except Miss Unit :=
  let i := entry % 64 / 4
  let la := entry / 64 * 64
  match s.xlateWith none (2 * k.card) k.tenant ranges la .exec with
  | .ok pa _ _ =>
    let l : FetchLine := { va := la, pa := pa, data := BitVec.ofNat 512 (leNat (s.readBytes pa 64)),
                           poison := (if s.poisonAt pa then 1 else 0) ||| (if s.poisonAt (pa + 32) then 2 else 0), met := false }
    if s.pathRefuses k.agent pa .read then .error .barred
    else if !(s.hart k.hart).grants pa 1 k.tenant (.read 64) then .error (.guarded pa)
    else refuseUnless ((l.lineFault true (8 ≤ i)).isNone && entry % 4 = 0 && i ≠ 0 && (starts l.data).contains i && l.data.getLsbD (i - 1))
  | .fault _ true => .error .malformed
  | _ => .error .launch

/-- The text lease is live and covers the text (R364). -/
def State.textLease (s : State) (n base size : Nat) : Bool :=
  let e := s.lease n
  e.state = 1 && e.base.toNat ≤ base && base + size ≤ e.limit.toNat
/-- fcap of a run (R306, R364). -/
def State.codeCap (s : State) (n base size entry : Nat) : Cap :=
  { Cap.null with tag := true, base := BitVec.ofNat 48 base, fmt := 0x24, perm := 0x11, scope := 1,
                  ext0 := BitVec.ofNat 16 (size / 64 - 1), str1 := BitVec.ofNat 32 entry, lease := BitVec.ofNat 16 n,
                  gen := (s.lease n).gen }

/-- The member cores of a domain (R298). -/
def State.domainCores (s : State) (d : Domain) : List Nat :=
  if d.level.toNat ≤ 1 then rectCores d.die d.row0 d.col0 d.rows d.cols else s.members d d.level.toNat (384 * d.die)

/-- The bytes at an address of a launch, `n` granules. -/
def State.launchBytes (s : State) (k : Client) (n va : Nat) : Except Miss (List Byte) := (s.bytesFor k n va).map Prod.fst
/-- The plan of a LAUNCH, or why the front end refuses it (R364); `express`: the smallest express area of the runs it
pre-empts. -/
def State.prepare (s : State) (k : Client) (p : Packet) (express : Option Nat) : Except Miss LaunchPlan := do
  let w0 := p.word 0
  refuseUnless (launchFieldsOk w0 && p.zeroFrom 4 && addressOk (p.word 1) && addressOk (p.word 2) && addressOk (p.word 3)
    && (p.word 2).extractLsb' 0 7 = 0)
  let bs ← s.launchBytes k 4 (p.word 1).toNat
  refuseUnless (descOk bs)
  let w := wordOf bs
  let nctx := ((w 8).extractLsb' 0 2).toNat + 1
  refuseUnless (wallocsOk (descWalloc bs) && (express.isSome || !(p.esz = 1 && nctx = 4)))
  let tbase := ((w 0).extractLsb' 0 48).toNat
  let tlease := ((w 0).extractLsb' 48 16).toNat
  let tsize := ((w 1).extractLsb' 0 32).toNat
  let entry := ((w 1).extractLsb' 32 32).toNat
  refuseUnless (s.textLease tlease tbase tsize)
  let n := ((w 3).extractLsb' 48 6).toNat
  let rb ← s.launchBytes k n (w 5).toNat
  let ranges ← (match rangeList n rb with | some x => .ok x | none => .error .launch)
  refuseUnless (ranges.all (s.rangeAlone k.tenant ranges))
  s.entryOk k ranges (tbase + entry)
  let area := launchArea p.esz express
  let isize := ((w 3).extractLsb' 0 20).toNat
  let bytes ← s.launchBytes k ((isize + 31) / 32) (w 2).toNat
  let image := bytes.take isize
  let noArea := area.1 = area.2
  refuseUnless (if noArea then isize = 0 && !(w 3).getLsbD 40 else decide (area.1 + isize ≤ area.2 - 512))
  let plan ← (match launchPlan (w 3) image area with | some x => .ok x | none => .error .launch)
  let shape ← s.shapeRecord k (w 4).toNat
  refuseUnless (shape.all (shapeOk area))
  let d := launchDomain w0
  let cores := s.domainCores d
  refuseUnless (!s.reduced || cores.all (· < 96))
  pure { domain := d, cores := cores, area := area, code := s.codeCap tlease tbase tsize entry, nctx := nctx,
         walloc := descWalloc bs, image := image, plan := plan, shape := shape, ranges := ranges, isOpen := w0.getLsbD 23 }
/-- No area that a launch may come to run in makes it one that the front end starts (R364, R411). -/
def State.hopeless (s : State) (k : Client) (p : Packet) : Bool :=
  [none, some 0x10000, some 0x20000, some 0x40000].all (fun e => match s.prepare k p e with | .error _ => true | .ok _ => false)

/-! ### RUNID (R364) -/

/-- The low halves in use: those of runs, and RUN of every lease that is not free. -/
def State.takenLows (s : State) : List Nat :=
  s.runs.map (fun r => (r.id.extractLsb' 0 16).toNat)
    ++ (s.leasesIn 1 ++ s.leasesIn 2 ++ s.leasesIn 3).map (fun n => (s.lease n).run.toNat)
/-- A new RUNID; none while no low half is free. -/
def State.newRunId (s : State) : Option Word :=
  let taken := s.takenLows
  ((List.range 65534).find? (fun i => !taken.contains (i + 1))).map (fun i => s.dev.nextRun ++ BitVec.ofNat 16 (i + 1))

/-! ### The start (R306, R307, R401) -/

/-- The run-area capability (R306): extents that cover exactly the area. -/
def areaCap (core : Nat) (area : Nat × Nat) : Cap :=
  let size := area.2 - area.1
  let e0 := if size ≤ 65536 then size else if size % 65536 = 0 then 65536 else 4096
  if size = 0 then Cap.null
  else
    { Cap.null with tag := true, base := BitVec.ofNat 48 (localBase core + area.1), perm := 0x0F,
                    ext0 := BitVec.ofNat 16 (e0 - 1), ext1 := BitVec.ofNat 16 (size / e0 - 1), str1 := BitVec.ofNat 32 e0 }
/-- The capability to the launch table (R306). -/
def tableCap (core : Nat) (area : Nat × Nat) : Cap :=
  if area.1 = area.2 then Cap.null
  else { Cap.null with tag := true, base := BitVec.ofNat 48 (localBase core + area.2 - 512), fmt := 0x20, perm := 0x05, ext0 := 15 }
/-- A capability of device scope over firmware cells (log 12). -/
def cellCap (off : Nat) (fmt : BitVec 6) (ext : Nat) (perm : BitVec 8) : Cap :=
  { Cap.null with tag := true, base := BitVec.ofNat 48 (Config.fwBase + off), fmt := fmt, scope := 1, perm := perm,
                  ext0 := BitVec.ofNat 16 (ext - 1) }
/-- The two capabilities of a port's block queue (R289). -/
def queueCaps (p : Port) : List Cap :=
  let o := Config.blockQueueOffset (portNum p)
  [cellCap o 0x22 5 3, cellCap (o + 40) 0x08 2 3]
/-- The shipped microcode of kind `k` (R158). -/
def microCap (k : Nat) : Cap := { cellCap (Config.microcodeOffset k) 0x24 Config.microcodeLines 0x11 with str1 := 4 }
/-- The sixteen entries of a core's launch table (R306). -/
def State.launchTable (s : State) (level core : Nat) : List Cap :=
  let die := core / 384
  let card := die / 2
  let other := if die % 2 = 0 then die + 1 else die - 1
  let pkg (p : Port) : List Cap := if 3 ≤ level then queueCaps p else [Cap.null, Cap.null]
  let sys (p : Port) : List Cap := if 4 ≤ level && s.twoCards then queueCaps p else [Cap.null, Cap.null]
  [cellCap Config.sweepOffset 0x22 1 1] ++ pkg (.ucie die) ++ sys (.bridge card) ++ [microCap 0, microCap 1, microCap 2]
    ++ pkg (.ucie other) ++ sys (.bridge (1 - card)) ++ List.replicate 4 Cap.null

/-- The registers that a pinned context finds at launch (R195, R306). -/
def LaunchPlan.regs (l : LaunchPlan) (core rank slot : Nat) : Regs :=
  let g := ((Regs.reset.g.set 1 (BitVec.ofNat 64 rank)).set 2 (BitVec.ofNat 64 l.cores.length)).set 3 (BitVec.ofNat 64 slot)
  let shape := l.shape.map (shapeFor core l.area)
  let cs := Vector.ofFn (fun i : Fin 16 => if i.val = 11 then tableCap core l.area else if i.val = 12 then areaCap core l.area
    else if i.val < 8 then shape.getD i.val Cap.null else Cap.null)
  { Regs.reset with g := g, c := cs }
/-- A pinned context at launch. -/
def LaunchPlan.ctx (l : LaunchPlan) (core rank slot : Nat) (prio : BitVec 2) : Ctx :=
  { Ctx.reset with
    occupied := true, pinned := true, pc := l.code.base.setWidth 64 + l.code.str1.setWidth 64, fcap := l.code,
    r := l.regs core rank slot, sr := { SysRegs.reset with cid := 1 }, prio := prio }
/-- PLANSEL at launch (R169). -/
def LaunchPlan.planReg (l : LaunchPlan) : Plan :=
  match l.plan with
  | none => Plan.reset
  | some (off, h) =>
    { Plan.reset with en := true, count := BitVec.ofNat 16 h.count, offset := BitVec.ofNat 15 (off / 32), wbase := BitVec.ofNat 20 h.wbase, wsize := BitVec.ofNat 20 h.wsize }

/-- Capabilities written one granule after another. -/
def State.writeCaps (s : State) (a : Nat) : List Cap → State
  | [] => s
  | c :: rest => State.writeCaps (s.writeCap a c) (a + 32) rest

/-- What a core receives at launch (R306, R401). It stands arrived at the run's level, before the close the front end
triggers (R307). -/
def State.launchCore (s : State) (l : LaunchPlan) (id : Word) (prio : BitVec 2) (core : Nat) : State :=
  let rank := indexIn l.cores core
  let s := (List.range 4).foldl (fun s i =>
    s.setCtxOf (.ctx core i) (if i < l.nctx then l.ctx core rank i prio else Ctx.reset)) s
  let s := (s.setCtxOf (.copy core) (Ctx.reset.handCells core 0)).setCtxOf (.epi core) (Ctx.reset.handCells core 1)
  let k := s.coreAt core
  let s := s.setCoreAt core { k with
    last := 3, run := some id.toNat, window := [], walloc := l.walloc, rcc := l.code, rdc := areaCap core l.area,
    xnext := l.isOpen, xmode := l.isOpen, sstepLevel := l.domain.level, sstepCount := 0, phase := .outside,
    arrived := some l.domain.level, stopped := false, closed := none, boundary := none, plan := l.planReg,
    rx := Core.reset.rx, kbin := KeyBins.reset, perf := PerfBank.reset,
    frozen := if k.held then some PerfBank.reset else none, gated := false, restored := false,
    u := { k.u with ready := [], waiting := [], barriers := [], pending := [], copy := Engine.reset, epi := Engine.reset,
                    mx := Matrix.reset },
    dbg := Core.reset.dbg }
  let s := (s.writeHome (windowCell core 0) (List.replicate 32 0)).writeHome (localBase core + l.area.1) l.image
  if l.area.1 = l.area.2 then s
  else s.writeCaps (localBase core + l.area.2 - 512) (s.launchTable l.domain.level.toNat core)

/-- A run as its launch makes it. -/
def State.newRun (s : State) (q : Nat) (p : Packet) (l : LaunchPlan) (id : Word) (victims : List Nat) (express : Option Nat) : Run :=
  { id := id, queue := q, tenant := (s.queue q).tenant, pasid := (s.queue q).pasid, domain := l.domain, prio := p.prio, esz := p.esz,
    express := express, victims := victims, state := if express.isNone then .running else .preparing, nctx := l.nctx,
    ranges := l.ranges, colo := (p.word 2).extractLsb' 0 48, donectr := (p.word 3).extractLsb' 0 48, event := p.event,
    packet := p.index, words := p.words, queueGen := (s.queue q).gen, account := (s.queue q).enacct,
    part := ((s.queue q).word 2).extractLsb' 24 8, gateway := none, start := 0, begun := false, opened := [], energy := 0,
    f := { fault := false, cause := 0, core := 0, sstep := 0, epc := 0, eval := 0, double := false, cause2 := 0,
           epc2 := 0, eval2 := 0, nfault := 0, lostdef := 0, dropped := 0, preempt := 0 },
    ending := none,
    dbg := placedRun.dbg }

/-! ### The colophon (R367, R368) -/

/-- A colophon's sixteen words. -/
def colophon (id : Word) (status : BitVec 4) (f : FaultRecord) (start finish : Word) (energy : Nat) : List Word :=
  [id,
   f.sstep ++ 0#4 ++ BitVec.ofBool f.double ++ f.core ++ f.cause ++ 0#4 ++ status,
   f.epc.setWidth 64, f.eval, 0#8 ++ f.cause2 ++ f.epc2, f.eval2, f.lostdef ++ f.nfault, BitVec.ofNat 64 (energy / 1000),
   start, finish, f.dropped ++ f.preempt, 0, 0, 0, 0, 0]

/-- A colophon stored at COLO. -/
def State.writeColophon (s : State) (k : Client) (colo : Nat) (ws : List Word) : Except Miss State := do
  refuseUnless (colo % 128 = 0)
  let (pa, _) ← s.placeFor k colo 128 .write
  let bs := wordBytes ws
  let t ← s.storeFor k colo (bs.take 64)
  let u ← t.storeFor k (colo + 64) (bs.drop 64)
  pure { u with dev := { u.dev with colophons := pa :: u.dev.colophons.filter (· != pa) } }

/-- DONECTR gains 1 with a system-scope release. -/
def State.addDone (s : State) (k : Client) (donectr : Word) : Except Miss State :=
  if donectr = 0 then .ok s else s.counterFor k donectr 1

/-- What a store or an addition leaves, taken or not. -/
def State.orMiss (s : State) (k : Client) : Except Miss State → State
  | .ok t => t
  | .error e => s.noteMiss k e
/-- It did not take place. -/
def failed : Except Miss State → Bool
  | .ok _ => false
  | .error _ => true

/-- The packet of a run or a refused launch ends: colophon, DONECTR, EVENT; what faults is skipped and stops the queue
(R368), where it is still the one the packet came from (R369). -/
def State.report (s : State) (q gen : Nat) (k : Client) (index : Word) (event : Bool) (colo donectr : Word) (ws : List Word) : State :=
  let a := s.writeColophon k colo.toNat ws
  let s1 := s.orMiss k a
  let b := s1.addDone k donectr
  let s2 := s1.orMiss k b
  let x := s2.queue q
  let live := x.gen = gen
  let s3 := if live then s2.setQueue q { x with pending := x.pending.filter (fun y => y.index != index) } else s2
  let s4 := if event then s3.raise 0 else s3
  if live && (failed a || failed b) then s4.queueError q 3 index.toNat else s4

/-- The front end refuses a launch (R364): STATUS 3, RUNID 0. -/
def State.refuse (s : State) (q gen : Nat) (k : Client) (p : Packet) : State :=
  s.report q gen k p.index p.event (p.word 2) (p.word 3) (colophon 0 3 placedRun.f 0 0 0)

/-! ### The scheduler's choice (R365) -/

/-- No run holds a core, resident or saved, and none that is being prepared waits for it. -/
def State.coreFree (s : State) (k : Nat) : Bool :=
  (s.coreAt k).run.isNone && (s.coreAt k).saved.isNone
    && !s.runs.any (fun r => r.state = .preparing && (s.runCores r).contains k)
/-- Nothing else keeps a launch from a core's die: retention, or a weight store that is being written (R397, R102). -/
def State.diesReady (s : State) (l : LaunchPlan) : Bool :=
  (s.domainDies l.domain).all (fun d => !(s.die d).retention && !s.storeWriting d)
/-- The run a LAUNCH prepares by pre-emption. -/
def State.preparing (s : State) (q : Nat) (p : Packet) : Option Run :=
  s.runs.find? (fun r => r.queue == q && r.packet == p.index && r.queueGen == (s.queue q).gen && r.state = .preparing)
/-- The LAUNCH at the head of a queue that may start, on cores that are all free. -/
def State.launchable (s : State) (q : Nat) : Option (Packet × LaunchPlan) :=
  match s.startable q 1 with
  | none => none
  | some p =>
    if (s.preparing q p).isSome then none
    else
      match s.prepare (s.client q) p none with
      | .error _ => none
      | .ok l => if l.cores.all s.coreFree && s.diesReady l && s.newRunId.isSome then some (p, l) else none

/-- Distance of a queue after the one served last, in round-robin order. -/
def State.turnOf (s : State) (q : Nat) : Nat := (q + 4096 - s.dev.robin - 1) % 4096
/-- Another queue's LAUNCH goes first: of a higher priority, or of the same and earlier in round-robin order. -/
def State.goesFirst (s : State) (prio : BitVec 2) (q r : Nat) : Bool :=
  r != q && (match s.launchable r with
    | some (p, _) => prio.ult p.prio || (p.prio = prio && decide (s.turnOf r < s.turnOf q))
    | none => false)

/-- The ports whose gateway harts serve a run: those its domain covers (R158, R289). -/
def State.gatewayPorts (s : State) (r : Run) : List Port :=
  if r.domain.level = 3 then [.ucie r.domain.die, .ucie (r.domain.die + 1)]
  else if r.domain.level = 4 then (List.range s.numDies).map Port.ucie ++ (if s.twoCards then [.bridge 0, .bridge 1] else [])
  else []
/-- The agents of a port's gateway harts (R158). -/
def gatewayHarts : Port → List Agent
  | .ucie d => (List.range 8).map (Agent.gateway (.ucie d))
  | .bridge c => (List.range 4).map (Agent.gateway (.bridge c))
  | .pcie _ => []
/-- A gateway hart at its microcode's entry, with its port's block capabilities in c0 and c1 (R159, R289; log 12). -/
def gatewayCtx (p : Port) (m : Cap) : Ctx :=
  let caps := queueCaps p
  (({ Ctx.reset with occupied := true, pinned := true, pc := m.base.setWidth 64 + m.str1.setWidth 64, fcap := m }).setC 0
    (caps.getD 0 Cap.null)).setC 1 (caps.getD 1 Cap.null)
/-- The gateway harts that serve a run start at the entry of their microcode: its own, or the shipped one (R158). -/
def State.startGateways (s : State) (r : Run) : State :=
  let m := r.gateway.getD (microCap 2)
  (s.gatewayPorts r).foldl (fun s p => (gatewayHarts p).foldl (fun s a => s.setCtxOf a (gatewayCtx p m)) s) s

/-- A run starts on its cores, and at the ports its domain covers. -/
def State.startRunOn (s : State) (r : Run) (l : LaunchPlan) : State :=
  (l.cores.foldl (fun s k => s.launchCore l r.id r.prio k) s).startGateways r

/-- A launch gives the microcode that replaces the shipped one of a hart kind (0 copy, 1 epilogue, 2 gateway): a live CODE
capability with X in the tenant's memory, before the run's first instruction (R158; log 12). -/
def State.giveMicrocode (s : State) (run kind va : Nat) : State :=
  match s.run? run with
  | none => s
  | some r =>
    match s.placeFor r.client va 32 .read with
    | .error e => s.noteMiss r.client e
    | .ok (pa, _) =>
      let c := s.capAt pa
      let e := s.lease c.lease.toNat
      if r.state ≠ .running || r.begun || va % 32 ≠ 0 || s.poisonAt pa || !c.tag || c.fmt ≠ 0x24 || !c.perm.getLsbD 4
          || e.state ≠ 1 || e.gen ≠ c.gen then s
      else if kind = 2 then
        let s := s.updRun run (fun r => { r with gateway := some c })
        s.startGateways { r with gateway := some c }
      else if kind < 2 then
        (s.runCores r).foldl (fun s k =>
          let x := (s.coreAt k).engine kind
          let a := engineAgent k kind
          (s.setCoreAt k ((s.coreAt k).setEngine kind { x with micro := some c })).setCtxOf a
            (({ Ctx.reset with occupied := true, pinned := true, pc := c.base.setWidth 64 + c.str1.setWidth 64, fcap := c }).handCells k kind)) s
      else s

/-- Reading `n` granules of a launch; `nonAlloc`: by accesses that allocate no line (R404). -/
def State.readLaunchAt (s : State) (k : Client) (nonAlloc : Bool) (n va : Nat) : State :=
  match s.readFor k nonAlloc (n + 1) (32 * n) va with | .ok (_, _, t) => t | .error _ => s
/-- Reading a LAUNCH's description, ranges, image and shape record (R363, R364, R404). -/
def State.readLaunch (s : State) (k : Client) (p : Packet) : State :=
  match s.launchBytes k 4 (p.word 1).toNat with
  | .error _ => s
  | .ok bs =>
    let w := wordOf bs
    let s := (s.readLaunchAt k false 4 (p.word 1).toNat).readLaunchAt k false ((w 3).extractLsb' 48 6).toNat (w 5).toNat
    let s := s.readLaunchAt k false ((((w 3).extractLsb' 0 20).toNat + 31) / 32) (w 2).toNat
    if w 4 = 0 then s
    else
      match s.launchBytes k 1 (w 4).toNat with
      | .error _ => s
      | .ok hs => s.readLaunchAt k true (1 + ((wordOf hs 0).extractLsb' 0 4).toNat) (w 4).toNat
/-- A LAUNCH that is not started: its hart goes to the monitor, or the front end refuses it (R353, R364). -/
def State.refuseLaunch (s : State) (q gen : Nat) (k : Client) (p : Packet) (e : Miss) : State :=
  let t := (s.readLaunch k p).noteMiss k e
  match e with | .guarded _ => t | _ => t.refuse q gen k p

/-- LAUNCH (R364, R365): refused, where no area makes it well formed or its own does not and its cores are free; started on
free cores when no other LAUNCH goes first. -/
def execLaunch (q : Nat) (s : State) : Host.Outcome State Fault Refusal :=
  match s.startable q 1 with
  | none => .next s
  | some p =>
    let k := s.client q
    let gen := (s.queue q).gen
    if (s.preparing q p).isSome then .next s
    else
      match s.prepare k p none with
      | .error e =>
        if (s.domainCores (launchDomain (p.word 0))).all s.coreFree || s.hopeless k p then .next (s.refuseLaunch q gen k p e) else .next s
      | .ok _ =>
        match s.launchable q, s.newRunId with
        | some (p, l), some id =>
          if (s.queues.map Prod.fst).any (s.goesFirst p.prio q) then .next s
          else
            let r := s.newRun q p l id [] none
            let s := s.readLaunch k p
            let s := { s with runs := s.runs ++ [r], dev := { s.dev with nextRun := s.dev.nextRun + 1, robin := q } }
            .next (s.startRunOn r l)
        | _, _ => .next s

/-! ### The end of a run (R308, R338, R368, R369) -/

/-- Every continuation of every member core has exited, every engine command is complete, the run's side logs are empty
(R308). -/
def State.runDone (s : State) (r : Run) : Bool :=
  let id := r.id.toNat
  (r.state = .running || r.state = .stopped) && (s.runCores r).all (fun k =>
    let c := s.coreAt k
    c.run == some id && (s.liveWaits k).isEmpty && c.u.copy.fifo.isEmpty && c.u.epi.fifo.isEmpty
      && !c.u.sideLog.any (fun e => e.run == id) && c.arrived.isNone)
    && !(List.range s.numDies).any (fun d => (s.die d).pickup.any (fun e => e.run == id))

/-- The stores of a run's agents are performed. -/
def State.drainRun (s : State) (run : Nat) : State :=
  (((s.press.queues ++ s.press.fifo).filter (fun p => p.run == run)).map Piece.agent).eraseDups.foldl State.flush s

/-- The colophon of a run that has ended, and the run's last trace: who its energy account is, for the interval under way
(R382). -/
def State.finishRun (s : State) (r : Run) (status : BitVec 4) : State :=
  let s := s.drainRun r.id.toNat
  let f := match s.run? r.id.toNat with | some r => r.f | none => r.f
  let first := ((s.runCores r).headD 0) / 768
  let s := s.report r.queue r.queueGen r.client r.packet r.event (r.colo.setWidth 64) (r.donectr.setWidth 64)
    (colophon r.id status f r.start (s.die (2 * first)).cycle r.energy)
  { s with runs := s.runs.filter (fun x => x.id != r.id), dev := { s.dev with gone := (r.id.toNat, r.account) :: s.dev.gone } }

/-- RUN_END (R308, R368): a run that is done ends as completed; of one whose cores have all stopped the colophon is written,
once a command hart does the scheduler's work. -/
def execRunEnd (run : Nat) (s : State) : Host.Outcome State Fault Refusal :=
  match s.run? run with
  | none => .next s
  | some r =>
    if !s.hartLive (queueHart r.queue) then .next s
    else
      match r.ending with
      | some status => .next (if r.state = .ended then s.finishRun r status else s)
      | none => if s.runDone r then .next ((s.stopRun run 1 (s.runCores r)).finishRun r 1) else .next s

/-- HOST_KILL (R369, R367): STATUS 4. -/
def execHostKill (run : Nat) (s : State) : Host.Outcome State Fault Refusal :=
  match s.run? run with
  | none => .next s
  | some _ => .next (s.stopRun run 4 [])

end Sys2Proof.Machine
end

