-- ==== Sys2Proof/Machine/Links.lean ====
section
/-! DEFINITION. Link ports, flits and reset epochs (R281 to R286, R288), the block queue unit (R289), and the events that
act on them. -/

namespace Sys2Proof.Machine

/-! ### Ports and their other ends -/

/-- The port at the other end of a link between dies or cards (R281). -/
def otherEnd : Port → Port
  | .ucie d => .ucie (if d % 2 = 0 then d + 1 else d - 1)
  | .bridge c => .bridge (1 - c)
  | .pcie c => .pcie c
/-- The port ends a link between dies or cards, and exists. -/
def State.isLink (s : State) (p : Port) : Bool :=
  s.hasAgent (.port p) && (match p with | .pcie _ => false | _ => true)
/-- Both ends of a link. -/
def ends (p : Port) : List Port := [p, otherEnd p]
/-- Sets both ends of a link. -/
def State.setEnds (s : State) (p : Port) (f : Link → Link) : State :=
  (ends p).foldl (fun s q => s.setLink q (f (s.link q))) s
/-- Link training tells a port the current epoch of every other die (R286). -/
def State.tellEpochs (s : State) (p : Port) : State :=
  s.setEnds p (fun l => { l with peerEpochs := (List.range s.numDies).map (fun d => (d, (s.die d).epoch)) })

/-! ### Flits and records (R282, R283, R286) -/

/-- CRC, SEQ, EPOCH, ACK and the other fields of a flit's header. -/
def flitCrc (f : Flit) : BitVec 32 := f.word1.extractLsb' 32 32
def flitAck (f : Flit) : BitVec 12 := f.word1.extractLsb' 8 12
def flitCvc (f : Flit) : BitVec 2 := f.word1.extractLsb' 6 2
def flitCredit (f : Flit) : Nat := (f.word1.extractLsb' 0 6).toNat
def flitEpoch (f : Flit) : BitVec 16 := f.word0.extractLsb' 48 16
def flitSeq (f : Flit) : BitVec 12 := f.word0.extractLsb' 36 12
def flitVc (f : Flit) : BitVec 2 := f.word0.extractLsb' 28 2
def flitNreq (f : Flit) : Nat := (f.word0.extractLsb' 25 3).toNat
def flitSec (f : Flit) : Bool := f.word0.getLsbD 24
def flitDstDie (f : Flit) : Nat := (f.word0.extractLsb' 22 2).toNat
def flitSrcDie (f : Flit) : Nat := (f.word0.extractLsb' 20 2).toNat
/-- The CRC holds over word 0 and the 240 bytes of the body (R282; log 18). -/
def flitCrcOk (f : Flit) : Bool := f.body.length = 240 && (flitCrc f) = Config.flitCrc f.word0 f.body
/-- The 60 bytes of request record `i` (R283): with SEC the one record stands at byte 180. -/
def flitRecord (f : Flit) (i : Nat) : List Byte := (f.body.drop (if (flitSec f) then 180 else 60 * i)).take 60
/-- Word 0 of request record `i`. -/
def flitRequest (f : Flit) (i : Nat) : Word := wordOf (flitRecord f i) 0
/-- The words 0 of the records a flit packs. -/
def flitRequests (f : Flit) : List Word := (List.range (flitNreq f)).map (flitRequest f)
/-- The OP codes of R283. -/
def opAssigned (op : Nat) : Bool := op ≤ 13 || (16 ≤ op && op ≤ 22) || (32 ≤ op && op ≤ 36) || (48 ≤ op && op ≤ 51)
/-- ZERO bits, the number of packed requests and OP codes are as R282 and R283 say. -/
def flitWellFormed (f : Flit) : Bool :=
  f.word0.extractLsb' 30 6 = 0 && f.word0.extractLsb' 0 20 = 0 && f.word1.extractLsb' 20 12 = 0
    && (flitNreq f) ≤ (if (flitSec f) then 1 else 4) && (flitRequests f).all (fun w => opAssigned (w.extractLsb' 0 6).toNat)
/-- The REQEPOCH of every response a flit carries: records of OP 32 to 36, and the sector's (R283). -/
def flitResponseEpochs (f : Flit) : List (BitVec 16) :=
  (((flitRequests f).filter (fun w => decide (32 ≤ (w.extractLsb' 0 6).toNat ∧ (w.extractLsb' 0 6).toNat ≤ 36))).map
    (fun w => w.extractLsb' 48 16)) ++ (if (flitSec f) then [(wordOf (f.body.drop 136) 0).extractLsb' 16 16] else [])

/-- Word 0 of a record (R283). -/
def Request.head (r : Request) : Word :=
  BitVec.ofNat 64 (r.op % 64 + 2 ^ 6 * (r.size % 8) + 2 ^ 9 * (r.scope % 4) + (if r.tag then 2 ^ 11 else 0)
    + (if r.psn then 2 ^ 12 else 0) + 2 ^ 16 * (r.core % 2 ^ 11) + 2 ^ 27 * (r.kind % 8) + 2 ^ 32 * r.txn.toNat + 2 ^ 48 * r.reqEpoch.toNat)
/-- A record as the 60 bytes of a flit (R283). -/
def Request.bytes (r : Request) : List Byte :=
  leBytes 8 r.head.toNat ++ leBytes 8 (r.addr % 2 ^ 48 + 2 ^ 48 * (r.run % 2 ^ 16)) ++ leBytes 8 r.operand.toNat
    ++ leBytes 32 r.data.toNat ++ leBytes 4 r.mask.toNat
/-- The record that 60 bytes hold (R283). -/
def requestOfBytes (b : List Byte) : Request :=
  let w := wordOf b 0
  let a := wordOf b 1
  { op := (w.extractLsb' 0 6).toNat, size := (w.extractLsb' 6 3).toNat, scope := (w.extractLsb' 9 2).toNat, tag := w.getLsbD 11,
    psn := w.getLsbD 12, core := (w.extractLsb' 16 11).toNat, kind := (w.extractLsb' 27 3).toNat, txn := w.extractLsb' 32 16,
    reqEpoch := w.extractLsb' 48 16, addr := (a.extractLsb' 0 48).toNat, run := (a.extractLsb' 48 16).toNat, operand := wordOf b 2,
    data := BitVec.ofNat 256 (leNat ((b.drop 24).take 32)), mask := BitVec.ofNat 32 (leNat ((b.drop 56).take 4)) }
/-- The sector of a flit with SEC (R283). -/
def flitSector (f : Flit) : LinkSector :=
  let a := wordOf (f.body.drop 128) 0
  let t := wordOf (f.body.drop 136) 0
  { data := BitVec.ofNat 1024 (leNat (f.body.take 128)), addr := (a.extractLsb' 0 48).toNat, tags := a.extractLsb' 48 4,
    psn := a.extractLsb' 52 4, txn := t.extractLsb' 0 16, reqEpoch := t.extractLsb' 16 16, core := (t.extractLsb' 32 11).toNat }
/-- A sector as the first 180 bytes of a flit's body (R283). -/
def LinkSector.bytes (x : LinkSector) : List Byte :=
  leBytes 128 x.data.toNat ++ leBytes 8 (x.addr % 2 ^ 48 + 2 ^ 48 * x.tags.toNat + 2 ^ 52 * x.psn.toNat)
    ++ leBytes 8 (x.txn.toNat + 2 ^ 16 * x.reqEpoch.toNat + 2 ^ 32 * (x.core % 2 ^ 11)) ++ List.replicate 36 0
/-- What a flit carries: its sector and its records, on its channel, to its destination die (R282, R283). -/
def flitContent (f : Flit) : List LinkItem :=
  let item (b : LinkBody) : LinkItem := { vc := (flitVc f).toNat, dst := flitDstDie f, body := b }
  (if flitSec f then [item (.sector (flitSector f))] else [])
    ++ (List.range (flitNreq f)).map (fun i => item (.record (requestOfBytes (flitRecord f i))))
/-- The record of an item, when it is one. -/
def LinkItem.record? (x : LinkItem) : Option Request := match x.body with | .record r => some r | .sector _ => none
/-- An item is one record of a long response (R283). -/
def LinkItem.long (x : LinkItem) : Bool := match x.record? with | some r => r.op == 36 | none => false

/-- The records of a long response: as many as its first one counts, in index order; none while one is missing (R283). -/
def longResponse (txn : BitVec 16) (parts : List Request) : Option (List Byte) :=
  let mine := parts.filter (fun r => r.txn == txn)
  let n := match mine with | r :: _ => (r.operand.extractLsb' 8 8).toNat | [] => 0
  (allSome ((List.range n).map (fun i => mine.find? (fun r => (r.operand.extractLsb' 0 8).toNat == i)))).map (fun rs =>
    rs.flatMap (fun r => leBytes 32 r.data.toNat))

/-- The epoch a port keeps for a die; 0 before it is told another (log 8). -/
def Link.epochOf (l : Link) (die : Nat) : BitVec 16 :=
  match l.peerEpochs.find? (fun e => e.1 == die) with | some e => e.2 | none => 0

/-! ### Sending (R282, R284, R285) -/

/-- Flits that a module's replay buffer holds: 64 in a UCIe module, 256 in a bridge (R284). -/
def replayRoom : Port → Nat
  | .bridge _ => 256
  | _ => 64
/-- A module of a port changed. -/
def State.setModule (s : State) (p : Port) (i : BitVec 2) (m : LinkModule) : State :=
  s.setLink p { s.link p with modules := (s.link p).modules.set i.toFin m }
/-- A module of a port. -/
def State.linkMod (s : State) (p : Port) (i : BitVec 2) : LinkModule := (s.link p).modules[i.toFin]

/-- What one flit takes of a module's waiting line: a sector with at most one record, or up to four records, of one virtual
channel and one destination die (R282). -/
def packed : List LinkItem → List LinkItem
  | [] => []
  | x :: rest =>
    let alike := rest.takeWhile (fun y => y.vc == x.vc && y.dst == x.dst && y.record?.isSome)
    x :: alike.take (if x.record?.isSome then 3 else 1)
/-- The body that holds some items, and whether it begins with a sector (R283). -/
def flitBody (xs : List LinkItem) : List Byte :=
  let body := xs.flatMap (fun x => match x.body with | .record r => r.bytes | .sector y => y.bytes)
  body ++ List.replicate (240 - body.length) 0
/-- The channel whose freed buffers a flit gives back: the first that has any (R282). -/
def creditVc (m : LinkModule) : BitVec 2 := (((List.range 4).find? (fun v => m.freed[v % 4]'(by omega) ≠ 0)).getD 0 : Nat)
/-- The flit a port of die `die` builds from items of one channel and one destination (R282, R283). -/
def buildFlit (die : Nat) (epoch : BitVec 16) (m : LinkModule) (xs : List LinkItem) : Flit :=
  let body := flitBody xs
  let w0 : BitVec 64 := BitVec.ofNat 64 (2 ^ 48 * epoch.toNat + 2 ^ 36 * m.seq.toNat + 2 ^ 28 * ((xs.map LinkItem.vc).headD 0 % 4)
    + 2 ^ 25 * ((xs.filterMap LinkItem.record?).length % 8) + (if xs.all (fun x => x.record?.isSome) then 0 else 2 ^ 24)
    + 2 ^ 22 * ((xs.map LinkItem.dst).headD 0 % 4) + 2 ^ 20 * (die % 4))
  let cvc := creditVc m
  { word0 := w0,
    word1 := BitVec.ofNat 64 (2 ^ 32 * (Config.flitCrc w0 body).toNat + 2 ^ 8 * m.lastGood.toNat + 2 ^ 6 * cvc.toNat
      + min 63 m.freed[cvc.toFin]),
    body := body }
/-- A module sends its next flit: one asked for anew, in order, or one built from what waits, where the replay buffer
has room and the channel a credit; nothing moves while the link retrains (R282, R284, R285). -/
def State.sendFlit (s : State) (p : Port) (i : BitVec 2) : State :=
  let m := s.linkMod p i
  let vc := (m.waiting.map LinkItem.vc).headD 0 % 4
  if !s.isLink p || (s.link p).state ≠ .up then s
  else
    match m.resend with
    | some n => s.setModule p i { m with resend := if (m.sent.any (fun f => flitSeq f == n + 1)) then some (n + 1) else none }
    | none =>
      let rs := packed m.waiting
      if rs = [] || replayRoom p ≤ m.sent.length || m.credits[vc]'(by omega) = 0 then s
      else
        let die := agentDie (.port p)
        let f := buildFlit die (s.die die).epoch m rs
        let cvc := (creditVc m).toFin
        s.setModule p i { m with
          sent := m.sent ++ [f], seq := m.seq + 1, waiting := m.waiting.drop rs.length,
          credits := m.credits.set vc (m.credits[vc]'(by omega) - 1) (by omega),
          freed := m.freed.set cvc (m.freed[cvc] - min 63 m.freed[cvc]) }

/-! ### Receiving (R285, R286) -/

/-- Flits up to the one acknowledged leave the replay buffer (R282). -/
def acknowledged (ack : BitVec 12) (sent : List Flit) : List Flit :=
  if sent.any (fun f => flitSeq f == ack) then (sent.dropWhile (fun f => flitSeq f ≠ ack)).tail else sent
/-- An accepted flit by its content: dropped and counted, or taken: it acknowledges, gives credits back, and what it carries
is handed to the router (R282, R283, R286). -/
def State.sortFlit (s : State) (p : Port) (i : BitVec 2) (f : Flit) : State :=
  let l := s.link p
  if !(flitWellFormed f) then { s with dev := { s.dev with protocolErrors := s.dev.protocolErrors + 1 } }
  else if (flitEpoch f) ≠ l.epochOf (flitSrcDie f) || (flitResponseEpochs f).any (fun e => e != (s.die (agentDie (.port p))).epoch) then
    { s with dev := { s.dev with droppedFlits := s.dev.droppedFlits + 1 } }
  else
    let m := s.linkMod p i
    let c := (flitCvc f).toFin
    let v := (flitVc f).toFin
    let here (x : LinkItem) : Bool := x.long && x.dst == agentDie (.port p)
    let s := s.setModule p i { m with
      sent := acknowledged (flitAck f) m.sent, credits := m.credits.set c (m.credits[c] + flitCredit f),
      freed := m.freed.set v (m.freed[v] + 1) }
    let l := s.link p
    s.setLink p { l with
      accepted := l.accepted ++ [f], requests := l.requests ++ (flitContent f).filter (fun x => !here x),
      parts := l.parts ++ (flitContent f).filter here }

/-- The other end of a module is asked for its flits again, from a number on (R285). -/
def State.askReplay (s : State) (p : Port) (i : BitVec 2) (n : BitVec 12) : State :=
  let q := otherEnd p
  s.setModule q i { s.linkMod q i with resend := some n }
/-- FLIT_RECEIVE (R285, R344): a flit with a good CRC and the SEQ its module expects is accepted; any other is discarded, and
a replay from the expected number is asked for. A bad CRC is an error that is logged. -/
def execFlitReceive (p : Port) (x : FlitArrival) (s : State) : Host.Outcome State Fault Refusal :=
  let i := x.via
  let f := x.flit
  let m := s.linkMod p i
  if !s.isLink p || (s.link p).state ≠ .up then .next s
  else if (flitCrcOk f) && (flitSeq f) = m.expect then
    .next ((s.setModule p i { m with expect := m.expect + 1, lastGood := (flitSeq f), replays := 0, replayFrom := none }).sortFlit p i f)
  else
    let s := if flitCrcOk f then s else s.logError (agentDie (.port p)) 0 6 0 (portNum p) 0 0 0
    .next ((s.setModule p i { m with replays := m.replays + 1, replayFrom := some m.expect }).askReplay p i m.expect)

/-- Something has reached the router of its destination die. -/
def State.reaches (s : State) (die : Nat) (x : Arrival) : State := s.setDie die { s.die die with arrivals := (s.die die).arrivals ++ [x] }
/-- The router takes a port's next record or sector: it is at its destination, or goes on by the next link of its path (R281,
R282); a long response is complete once its last record is there, and arrives as a whole (R283). -/
def State.takeRequest (s : State) (p : Port) : State :=
  let l := s.link p
  let die := agentDie (.port p)
  match l.requests, l.parts with
  | x :: rest, _ =>
    let t := s.setLink p { l with requests := rest }
    if x.dst = die then t.reaches die { item := x, bytes := [] } else t.sendItems die x.dst [x]
  | [], x :: _ =>
    let rs := l.parts.filterMap LinkItem.record?
    let txn := match x.record? with | some r => r.txn | none => 0
    match longResponse txn rs with
    | some bs =>
      let mine (y : LinkItem) : Bool := match y.record? with | some r => r.txn == txn | none => false
      (s.setLink p { l with parts := l.parts.filter (fun y => !mine y) }).reaches die { item := x, bytes := bs }
    | none => s
  | [], [] => s

/-- LINK_RETRAIN (R285): after 16 replays of one flit in a row. -/
def execLinkRetrain (p : Port) (s : State) : Host.Outcome State Fault Refusal :=
  let l := s.link p
  if s.isLink p && l.state = .up && l.modules.toList.any (fun m => 16 ≤ m.replays) then
    .next (s.setEnds p (fun l => { l with state := .retraining }))
  else .next s

/-- LINK_RETRAINING_COMPLETE (R285, R286): traffic goes on where it was held. -/
def execLinkRetrainingComplete (p : Port) (s : State) : Host.Outcome State Fault Refusal :=
  if s.isLink p && (s.link p).state = .retraining then
    .next ((s.setEnds p (fun l => { l with state := .up, modules := l.modules.map (fun m => { m with replays := 0 }) })).tellEpochs p)
  else .next s

/-! ### A link that is down (R285, R396) -/

/-- A run's domain spans a link: it has dies on both sides (R396). -/
def State.spans (s : State) (p : Port) (r : Run) : Bool :=
  let ds := s.domainDies r.domain
  match p with
  | .ucie d => ds.contains d && ds.contains (if d % 2 = 0 then d + 1 else d - 1)
  | _ => ds.any (· < 2) && ds.any (2 ≤ ·)

/-- DEVSTAT changes, and vector 5 is raised (R396). -/
def State.setStatus (s : State) (stage : BitVec 3) (code : BitVec 8) (unit : BitVec 16) : State :=
  { s with dev := { s.dev with stage := stage, code := code, unit := unit } }.raise 5

/-- Runs end with STATUS 4 (R367); their cores stop each at its boundary (R341). -/
def State.terminate (s : State) (p : Run → Bool) : State :=
  (s.runs.filter p).foldl (fun s r => s.stopRun r.id.toNat 4 []) s

/-- LINK_DOWN (R285, R396): retraining has failed. -/
def execLinkDown (p : Port) (s : State) : Host.Outcome State Fault Refusal :=
  if s.isLink p && (s.link p).state = .retraining then
    let s := s.setEnds p (fun l => { l with state := .down })
    if s.dev.stage = 5 then
      .next (((s.setStatus 5 6 (BitVec.ofNat 16 (portNum p))).raise 6).terminate (s.spans p))
    else .next s
  else .next s

/-! ### Die reset (R286) -/

/-- The ports of the links that a die joins: its UCIe port, and the bridge port on die 0 of its card (R5, R281). -/
def State.portsOf (s : State) (die : Nat) : List Port :=
  Port.ucie die :: (if s.twoCards && die % 2 = 0 then [Port.bridge (die / 2)] else [])

/-- Requests of other dies on their way to a die are answered as refused (R286, R288), each a security event: a store, an STC
or an atomic into g0 leaves a deferred fault, an atomic with a result or a counter operation traps at its own PC; a store's
propagation to a replica there is one of them. -/
def State.refuseToward (s : State) (die : Nat) : State :=
  let gone (p : Piece) : Bool := agentDie p.agent == die || placeDie p.line == die
  let hit := (s.press.queues ++ s.press.fifo).filter (fun p => placeDie p.line == die && agentDie p.agent != die)
  let copies := s.press.props.filter (fun x => placeDie x.dst == die && agentDie x.agent != die)
  let s := s.setQueues (s.press.queues.filter (fun p => !gone p)) (s.press.fifo.filter (fun p => !gone p))
  let s := { s with press := { s.press with props := s.press.props.filter (fun x => agentDie x.agent != die && placeDie x.dst != die) } }
  let s := copies.foldl (fun s x =>
    s.securityEvent.defer x.agent x.piece.run (x.piece.va.setWidth 64) x.piece.pc) s
  hit.foldl (fun s p =>
    let s := s.securityEvent
    match p.op with
    | .write => s.defer p.agent p.run (p.va.setWidth 64) p.pc
    | .atomic _ _ _ _ d => s.failAtomic p d 0x12
    | .counter _ => s.failAtomic p (some 0) 0x12) s

/-- What a die holds after its reset: its epoch is one more, its firmware's log, error tables and CYCLE stay (R286, R99,
R205). -/
def Die.afterReset (d : Die) : Die :=
  { Die.reset with
    epoch := d.epoch + 1, cycle := d.cycle, refreshStart := d.refreshStart, log := d.log, rewrites := d.rewrites,
    slices := d.slices.map (fun x => (x.1, { Slice.reset with
      tenant := x.2.tenant, shared := x.2.shared, degraded := x.2.degraded, quarantine := x.2.quarantine, bypass := x.2.bypass })) }

/-- The agents, cores and links of a die are reset. -/
def State.resetDie (s : State) (die : Nat) : State :=
  let s := (s.refuseToward die).setDie die (s.die die).afterReset
  let s := (s.dropViews (fun x => agentDie x.agent == die)).wakeWatches (fun w => placeDie w.cell == die)
  let s := { s with
    press := { s.press with
      delivered := s.press.delivered.filter (fun x => agentDie x.agent != die) },
    requests := s.requests.filter (fun x => x.die != die),
    ctxs := s.ctxs.filter (fun x => !(List.range 384).any (fun i =>
      (coreAgents (384 * die + i)).any (fun a => agentKey a == x.1))),
    cores := s.cores.filter (fun x => x.1 / 384 != die) }
  let begins (p : Port) : LinkState := match p with | .bridge _ => if s.reduced then .down else .up | _ => .up
  let s := (s.portsOf die).foldl (fun s p => s.setEnds p (fun l => { Link.reset with state := begins p, peerEpochs := l.peerEpochs })) s
  ((List.range s.numDies).flatMap s.portsOf).foldl State.tellEpochs s

/-- DIE_RESET (R286, R367, R396): every run whose domain includes the die ends; the die's epoch moves on, and every port is
told it; its links come up again, but for the bridge in reduced service (R15). -/
def execDieReset (die : Nat) (s : State) : Host.Outcome State Fault Refusal :=
  if s.numDies ≤ die then .next s
  else
    let s := (s.terminate (fun r => (s.domainDies r.domain).contains die)).resetDie die
    .next ((s.runs.map (fun r => r.id.toNat)).foldl State.finishStop s)

/-! ### Acceptance windows (R288) -/

/-- ACCEPTANCE_WINDOW_WRITE (R288, R391): window `k` of a card's bridge port. -/
def execAcceptanceWindowWrite (card k : Nat) (w : AcceptWindow) (s : State) : Host.Outcome State Fault Refusal :=
  if s.twoCards && card < 2 && k < 16 then
    let c := s.card card
    .next (s.setCard card { c with accept := (k, w) :: c.accept.filter (fun e => e.1 != k) })
  else .next s

/-! ### The block queue (R289) -/

/-- The place of a cell of a port's block queue: READY0 to READY3, DONE, TAKE, LIMIT by eights (log 12). -/
def queueCell (p : Port) (off : Nat) : Nat := Config.fwPlace + Config.blockQueueOffset (portNum p) + off

/-- BLOCK_QUEUE_LIMIT (R289): a store to LIMIT starts a job, as one write. -/
def execBlockQueueLimit (p : Port) (limit : BitVec 64) (s : State) : Host.Outcome State Fault Refusal :=
  if s.isLink p then
    .next (s.setBytes (queueCell p 0) (List.replicate 48 0 ++ leBytes 8 limit.toNat))
  else .next s

/-- BLOCK_QUEUE_TAKE (R289): an AADD of 1 to TAKE; the index handed out stands in the last value read. -/
def execBlockQueueTake (p : Port) (s : State) : Host.Outcome State Fault Refusal :=
  if s.isLink p then
    let r := s.atomicResult (queueCell p 40) 0 true 1 0
    let s := s.setBytes (queueCell p 40) (leBytes 8 r.2.toNat)
    .next { s with dev := { s.dev with lastRead := r.1 } }
  else .next s

end Sys2Proof.Machine
end

