-- ==== Sys2Proof/Machine/Power.lean ====
section
/-! DEFINITION. Boot and service stages (R15, R16, R394 to R396), power states and clocks (R397, R398), the watchdog
(R354), energy accounting (R382), and the host's tables and window (R391, R393). -/

namespace Sys2Proof.Machine

/-! ### Power states (R397) -/

/-- Every context of a core is idle or suspended (R397, R313). -/
def State.quiet (s : State) (core : Nat) : Bool :=
  (List.range 4).all (fun i =>
    let c := s.ctxOf (.ctx core i)
    !c.occupied || c.idle.isSome || c.susp.isSome)

/-- POWER_C_ENTRY (R397): the clocks of a core are gated, its state kept; not while a replay on it is in progress (R383). -/
def execPowerCEntry (core : Nat) (s : State) : Host.Outcome State Fault Refusal :=
  if core < s.numCores && s.quiet core && !(s.coreAt core).dbg.replaying then .next (s.setCoreAt core { s.coreAt core with gated := true }) else .next s

/-- The first context of a core that can issue, starting after the one that issued last (R297). -/
def State.pickOn (s : State) (core : Nat) : Option Agent :=
  (((List.range 4).map (fun i => Agent.ctx core (((s.coreAt core).last.toNat + 1 + i) % 4))).find? s.canIssue)

/-- A core with a ready record and a free slot. -/
def State.loadable (s : State) (core : Nat) : Bool :=
  let k := s.coreAt core
  !k.halted && !k.gated && !k.u.ready.isEmpty && !(s.freeSlots core).isEmpty
/-- A core with a free slot, an empty ready queue and a portable record that it may take. -/
def State.pickable? (s : State) (core : Nat) : Bool :=
  let k := s.coreAt core
  !k.halted && !k.gated && k.u.ready.isEmpty && !(s.freeSlots core).isEmpty && !(s.pickable core).isEmpty
/-- A core in power state C that something has come to wake: a context of it would issue, or a record would be loaded
(R397). -/
def State.wakeDue (s : State) (core : Nat) : Bool :=
  let k := s.coreAt core
  k.gated &&
    (let t := s.setCoreAt core { k with gated := false }
     (t.pickOn core).isSome || t.loadable core || t.pickable? core)
/-- POWER_C_EXIT (R397): on a wake condition. -/
def execPowerCExit (core : Nat) (s : State) : Host.Outcome State Fault Refusal :=
  if core < s.numCores && s.wakeDue core then .next (s.setCoreAt core { s.coreAt core with gated := false }) else .next s

/-- POWER_S_ENTRY (R397): a die on which no run is resident goes into retention. -/
def execPowerSEntry (die : Nat) (s : State) : Host.Outcome State Fault Refusal :=
  if die < s.numDies && !s.dieBusy die then .next (s.setDie die { s.die die with retention := true }) else .next s

/-- POWER_S_EXIT (R397): launches onto the die may start. -/
def execPowerSExit (die : Nat) (s : State) : Host.Outcome State Fault Refusal :=
  if die < s.numDies then .next (s.setDie die { s.die die with retention := false }) else .next s

/-- POWER_D_ENTRY (R397): with no run resident, all but the PCIe port and the monitor is off. -/
def execPowerDEntry (s : State) : Host.Outcome State Fault Refusal :=
  if s.runs.isEmpty then .next { s with dev := { s.dev with off := true } } else .next s

/-! ### Clocks (R398) -/

/-- The next lower step of the main clock. -/
def Clock.down : Clock → Clock
  | .mhz1500 => .mhz1200 | .mhz1200 => .mhz1000 | .mhz1000 => .mhz750 | .mhz750 => .mhz750
/-- The next higher step. -/
def Clock.up : Clock → Clock
  | .mhz1500 => .mhz1500 | .mhz1200 => .mhz1500 | .mhz1000 => .mhz1200 | .mhz750 => .mhz1000
/-- Cycles in 10 ms. -/
def Clock.tenMs : Clock → Nat
  | .mhz1500 => 15000000 | .mhz1200 => 12000000 | .mhz1000 => 10000000 | .mhz750 => 7500000

/-- The cards of the system (R3). -/
def State.numCards (s : State) : Nat := s.numDies / 2

/-- A card draws more than its cap, or its package more than the 560 W of R10. -/
def Card.exceeds (c : Card) : Bool := c.capW < c.drawn || 560 < c.drawnPkg
/-- CLOCK_STEP_DOWN (R398): the main clock of both dies of a card that draws more than its cap; how long is left to the
schedule (log 4). -/
def execClockStepDown (card : Nat) (s : State) : Host.Outcome State Fault Refusal :=
  if card < s.numCards && (s.card card).exceeds then .next (s.setCard card { s.card card with clock := (s.card card).clock.down }) else .next s

/-- CLOCK_STEP_UP (R398), under the cap; reduced service stays at 750 MHz (R15). -/
def execClockStepUp (card : Nat) (s : State) : Host.Outcome State Fault Refusal :=
  if card < s.numCards && !s.reduced && !(s.card card).exceeds then .next (s.setCard card { s.card card with clock := (s.card card).clock.up })
  else .next s

/-- Firmware's cap for a card's input power: never above the hard cap of the regulator controller (R10, R398). -/
def State.setCap (s : State) (card watts : Nat) : State :=
  if card < s.numCards then s.setCard card { s.card card with capW := min watts 600 } else s

/-! ### The watchdog (R354) -/

/-- What a card and its package come to draw (R10, R398). -/
def State.setDraw (s : State) (card watts package : Nat) : State :=
  if card < s.numCards then s.setCard card { s.card card with drawn := watts, drawnPkg := package } else s

/-- CYCLE of the lower die of a card. -/
def State.cardCycle (s : State) (card : Nat) : Word := (s.die (2 * card)).cycle

/-- WATCHDOG_KICK (R354). -/
def execWatchdogKick (card : Nat) (s : State) : Host.Outcome State Fault Refusal :=
  if card < s.numCards then .next (s.setCard card { s.card card with lastKick := s.cardCycle card }) else .next s

/-- A run leaves the system without a colophon; its packet leaves its queue. -/
def State.forget (s : State) (r : Run) : State :=
  let s := (s.stopRun r.id.toNat 4 (s.runCores r)).drainRun r.id.toNat
  let x := s.queue r.queue
  let s := if x.gen = r.queueGen then s.setQueue r.queue { x with pending := x.pending.filter (fun p => p.index != r.packet) } else s
  { s with runs := s.runs.filter (fun x => x.id != r.id), dev := { s.dev with gone := (r.id.toNat, r.account) :: s.dev.gone } }

/-- WATCHDOG_EXPIRY (R354): 10 ms without a kick: every run ends without a colophon, the card's command complex is reset,
vector 4 is raised and the cause is kept for the host. -/
def execWatchdogExpiry (card : Nat) (s : State) : Host.Outcome State Fault Refusal :=
  let c := s.card card
  if card < s.numCards && c.clock.tenMs ≤ (s.cardCycle card - c.lastKick).toNat then
    let s := s.runs.foldl State.forget s
    let s := { s with
      queues := s.queues.filter (fun x => queueCard x.1 != card), harts := s.harts.filter (fun x => x.1 / 4 != card),
      dev := { s.dev with watchdogLost := true } }
    .next ((s.setCard card { s.card card with lastKick := s.cardCycle card }).raise 4)
  else .next s

/-! ### Boot (R394, R396) -/

/-- Dies after a device reset: as at reset, but for their epochs (R286). -/
def State.bootDies (s : State) : Sparse Die :=
  (List.range s.numDies).foldl (fun m d => Sparse.put Die.reset m d { Die.reset with epoch := (s.die d).epoch + 1 }) []

/-- The machine once a boot begins: everything as at reset but for flash, the serial number, the retired frames and what the
host holds (R347, R394); the device's own memory only where it is kept. Every port has learnt the epochs. -/
def State.rebooted (s : State) (keep : Bool) : State :=
  let t : State := { State.reset with
    twoCards := s.twoCards, agenda := s.agenda, tick := s.tick, hostMap := s.hostMap, dies := s.bootDies
    mem := s.mem.filter (fun p => keep || isHost p.1), tags := s.tags.filter (fun p => keep || isHost (32 * p.1))
    poison := s.poison.filter (fun p => keep || isHost (32 * p.1))
    dev := { Device.reset with flash := s.dev.flash, serial := s.dev.serial, retired := s.dev.retired } }
  ((List.range t.numDies).flatMap t.portsOf).foldl State.tellEpochs t

/-- An image verifies: its SM2 signature over its SM3 hash (R394; log 19). -/
def verifies (x : BitVec 256 × BitVec 512) : Bool := Config.signatureOk x.1 x.2
/-- The configuration records that are used: those that verify (R394). -/
def Flash.used (x : Flash) : List ConfigRecord := x.records.filter (fun r => verifies (r.hash, r.signature))
/-- The security state that a boot takes, of the one asked for: OWNER and VENDOR need a record of theirs (R383). -/
def grantedSecurity (rs : List ConfigRecord) : Security → Security
  | .locked => .locked
  | .owner => if rs.any (fun r => r.kind = .owner) then .owner else .locked
  | .vendor => if rs.any (fun r => r.kind = .vendor) then .vendor else .locked
/-- A boot as far as its verification (R394, R396): `monitorHere` and `firmwareHere`: the images are in flash. Stage 2, or stage
6. -/
def State.verified (s : State) (monitorHere firmwareHere : Bool) (security : Security) : State :=
  let x := s.dev.flash
  let m := monitorHere && verifies x.monitor
  let f := m && firmwareHere && verifies x.firmware
  let rs := if m then x.used else []
  let t := { s with dev := { s.dev with security := grantedSecurity rs security, monitorOk := m, firmwareOk := f, records := rs } }
  if f then t.setStatus 2 0 0 else t.setStatus 6 1 0
/-- DEVICE_RESET (R394, R383, R396): the ROM, then the monitor, the firmware and the records that verify, or stage 6. Entering
VENDOR clears every memory of the device. -/
def execDeviceReset (monitorOk firmwareOk : Bool) (security : Security) (s : State) : Host.Outcome State Fault Refusal :=
  let enters := monitorOk && verifies s.dev.flash.monitor && grantedSecurity s.dev.flash.used security = .vendor
  .next (((s.rebooted (!enters)).setStatus 1 0 0).verified monitorOk firmwareOk security)

/-- POWER_D_EXIT (R397): boot from stage 2; memory that had no power is as at power-on (log 1). -/
def execPowerDExit (s : State) : Host.Outcome State Fault Refusal :=
  if s.dev.off then
    let d := s.dev
    let t := s.rebooted false
    let t : State := { t with
      dev := { t.dev with security := d.security, monitorOk := d.monitorOk, firmwareOk := d.firmwareOk, records := d.records } }
    .next (t.setStatus 2 0 0)
  else .next s

/-- The two bridge ports, when there are two cards. -/
def State.setBridge (s : State) (x : LinkState) : State :=
  if s.twoCards then s.setEnds (.bridge 0) (fun l => { l with state := x }) else s
/-- The main clock of every card. -/
def State.setClocks (s : State) (x : Clock) : State :=
  (List.range s.numCards).foldl (fun s k => s.setCard k { s.card k with clock := x }) s

/-- The bytes of an initialised lease table that are not 0: NEXT of entries 1 to 65,535 names the next one, of the last
none (R66). -/
def freshTable : Sparse Byte :=
  (List.range 65534).flatMap (fun i =>
    [(leasePlace (i + 1) + 20, BitVec.ofNat 8 (i + 2)), (leasePlace (i + 1) + 21, BitVec.ofNat 8 ((i + 2) / 256))].filter
      (fun p => p.2 ≠ 0))
/-- Sparse data without the keys of `[lo, hi)`, and with `xs` there. -/
def splice {α : Type} (lo hi : Nat) (xs l : Sparse α) : Sparse α :=
  l.filter (fun p => p.1 < lo) ++ xs ++ l.filter (fun p => hi ≤ p.1)
/-- Firmware initialises the lease table: every lease but 0 is free, in one list in the order of their numbers (R66; log 10). -/
def State.initLeases (s : State) : State :=
  let lo := Config.leaseTable
  let hi := Config.leaseTable + 0x200000
  { s with
    mem := splice lo hi freshTable s.mem, tags := splice (lo / 32) (hi / 32) [] s.tags,
    poison := splice (lo / 32) (hi / 32) [] s.poison, leases := { Leases.reset with head := 1 },
    cores := s.cores.map (fun p => (p.1, { p.2 with u := { p.2.u with leases := [] } })) }
/-- The slices as service begins: no line, an interval 0 that begins (R88, R95). -/
def Die.freshSlices (d : Die) : Die :=
  { d with slices := d.slices.map (fun x =>
      (x.1, { x.2 with lines := [], plru := [], sketch := [], hot := [], interval := 0, hotStart := d.cycle, hotFull := false })) }

/-- REDUCED_SERVICE (R15, R396): from stage 2 service begins at 750 MHz with the bridge down; from stage 3 training
begins, unless it has failed. CYCLE counts on from the device reset: the model's choice (log 4). -/
def execReducedService (s : State) : Host.Outcome State Fault Refusal :=
  if s.dev.off then .next s
  else if s.dev.stage = 2 then .next (((s.initLeases.setStatus 3 0 0).setBridge .down).setClocks .mhz750)
  else if s.dev.stage = 3 && s.dev.code = 0 then .next (s.setStatus 4 0 0)
  else .next s

/-- TRAINING_FAILURE (R396): stage 3 with CODE and UNIT; reduced service goes on. -/
def execTrainingFailure (code unit : Nat) (s : State) : Host.Outcome State Fault Refusal :=
  if s.dev.stage = 4 && 2 ≤ code && code ≤ 5 then .next (s.setStatus 3 (BitVec.ofNat 8 code) (BitVec.ofNat 16 unit))
  else .next s

/-- Runs that have not ended end with STATUS 4, and their colophons are written (R16). -/
def State.endService (s : State) : State :=
  s.runs.foldl (fun s r =>
    let s := s.stopRun r.id.toNat 4 (s.runCores r)
    match s.run? r.id.toNat with
    | some x => s.finishRun x (x.ending.getD 4)
    | none => s) s

/-- FULL_SERVICE (R16, R66, R70, R205, R396): every test has passed. CYCLE, the refresh timers and SWEEPEP begin at 0. What the
96 MiB of reduced service held stands in GDDR-7 from now on, with tags and poison, but for the lease table and the SWEEPEP
cell: the model's choice (log 5). -/
def execFullService (s : State) : Host.Outcome State Fault Refusal :=
  if s.dev.stage = 4 && s.dev.code = 0 && !s.dev.off then
    let s := s.endService
    let s := s.initLeases
    let s := (List.range s.numDies).foldl (fun s d =>
      s.setDie d { s.die d with cycle := 0, refreshStart := 0, refreshing := none }.freshSlices) s
    let s := (List.range s.numCards).foldl (fun s k =>
      s.setCard k { s.card k with lastKick := 0, heldCycles := [], intervalStart := 0 }) s
    let s := s.writeWord Config.sweepCell 0
    let s := { s with dev := { s.dev with gone := [] } }
    .next (((s.setBridge .up).setClocks .mhz1500).setStatus 5 0 0)
  else .next s

/-- A security state as a word of the report (log 19). -/
def Security.index : Security → Nat
  | .locked => 0 | .owner => 1 | .vendor => 2
/-- The report for a nonce (R395): its contents, signed with the identity key. -/
def State.reportFor (s : State) (nonce : BitVec 256) : Report :=
  let d := s.dev
  let m := d.flash.monitor.1
  let f := d.flash.firmware.1
  let rs := d.records.map ConfigRecord.hash
  { nonce := nonce, monitor := m, firmware := f, records := rs, security := d.security, serial := d.serial,
    signature := Config.reportSignature ([nonce, m, f] ++ rs ++ [BitVec.ofNat 256 (Machine.Security.index d.security), d.serial.setWidth 256]) }
/-- ATTESTATION (R395): a running monitor returns its report. -/
def execAttestation (nonce : BitVec 256) (s : State) : Host.Outcome State Fault Refusal :=
  if s.dev.monitorOk then .next { s with dev := { s.dev with report := some (s.reportFor nonce) } } else .next s

/-! ### Energy (R382) -/

/-- The weights of the activity estimate, from the configuration record that holds them; without one nothing is estimated: of an
event, of a sector transfer, of a flit (R382, R394). -/
def Device.weights (d : Device) : List Nat :=
  match d.records.find? (fun r => r.kind = .energy) with | some r => [r.weights.1, r.weights.2.1, r.weights.2.2] | none => []
/-- The activity estimate of a run: the weighted sum of the counts reported for it, which are its agents' events, its sector
transfers and its flits, in this order (R382; log 47). -/
def activityOf (weights : List Nat) (counts : List (Nat × Nat)) (run : Nat) : Nat :=
  ((counts.filter (fun c => c.1 == run)).zip weights).foldl (fun n x => n + x.1.2 * x.2) 0
/-- A run's charge in nJ: its estimate, scaled when the estimates exceed the card's energy, and its share of the residue
by the core-cycles it held among `total` (R382). -/
def energyShare (energy sum total held a : Nat) : Nat :=
  if energy < sum then a * energy / sum else a + (energy - sum) * held / total

/-- Who may be charged for an interval: the runs, and those that have left since the last interval, with their accounts. -/
def State.chargeable (s : State) : List (Nat × Nat) := s.runs.map (fun r => (r.id.toNat, r.account)) ++ s.dev.gone
/-- A run is charged: its own count and its queue's account. -/
def State.charge (s : State) (x : Nat × Nat) (n : Nat) : State :=
  let s := s.updRun x.1 (fun r => { r with energy := r.energy + n })
  { s with dev := { s.dev with accounts := Sparse.put 0 s.dev.accounts x.2 (Sparse.get 0 s.dev.accounts x.2 + n) } }
/-- The charges of an interval add up to the card's energy: what the runs do not get is account 0's. -/
def State.chargeRuns (s : State) (energy sum total : Nat) (held : Sparse Nat) (act : Nat → Nat) : State :=
  let xs := s.chargeable
  let share (x : Nat × Nat) : Nat := energyShare energy sum total (Sparse.get 0 held x.1) (act x.1)
  let given := xs.foldl (fun n x => n + share x) 0
  let s := xs.foldl (fun s x => s.charge x (share x)) s
  { s with dev := { s.dev with accounts := Sparse.put 0 s.dev.accounts 0 (Sparse.get 0 s.dev.accounts 0 + (energy - given)) } }
/-- Runs that have left and hold no core-cycles of an interval under way are no longer charged. -/
def State.dropGone (s : State) : State :=
  { s with dev := { s.dev with gone := s.dev.gone.filter (fun x =>
      (List.range s.numCards).any (fun k => (s.card k).heldCycles.any (fun h => h.1 == x.1))) } }

/-- ENERGY_INTERVAL (R382): after 2^16 cycles of die 0 the card's energy is divided among the accounts. -/
def execEnergyInterval (card nanojoules : Nat) (activity : List (Nat × Nat)) (s : State) : Host.Outcome State Fault Refusal :=
  let c := s.card card
  let now := s.cardCycle 0
  let n := (now - c.intervalStart).toNat
  if card < s.numCards && 2 ^ 16 ≤ n then
    let act := activityOf s.dev.weights activity
    let sum := s.chargeable.foldl (fun m x => m + act x.1) 0
    let s := s.chargeRuns nanojoules sum (768 * n) c.heldCycles act
    .next ((s.setCard card { s.card card with heldCycles := [], intervalStart := now }).dropGone.raise 7)
  else .next s

/-! ### The host's tables and window (R391, R393) -/

/-- The card of entry `k` of the host window tables, 1,024 entries a card (log 20). -/
def windowCard (k : Nat) : Nat := k / 1024

/-- HOST_WINDOW_TABLE_WRITE (R393, R391). -/
def execHostWindowTableWrite (k : Nat) (w : HostWindow) (s : State) : Host.Outcome State Fault Refusal :=
  if windowCard k < s.numCards then
    let c := s.card (windowCard k)
    .next (s.setCard (windowCard k) { c with hostWins := (k, w) :: c.hostWins.filter (fun e => e.1 != k) })
  else .next s

/-- The accesses under way to places of `[lo, lo + n)` complete, each agent's in its order (R393). -/
def State.settlePlaces (s : State) (lo n : Nat) : State :=
  (((s.press.queues ++ s.press.fifo).filter (fun p => p.touches lo n)).map Piece.agent).eraseDups.foldl State.flush s
/-- The places that a card's port translates a page of a PASID to with what it holds (R393). -/
def State.atsPlaces (s : State) (pasid page : Nat) : List Nat :=
  (List.range s.numCards).map (fun k => Config.hostPlace pasid + 4096 * s.atsPage k pasid page)
/-- ATS_INVALIDATION (R393): complete once the accesses made with the old entry are; it waits while a link holds one (R285). -/
def execAtsInvalidation (pasid hostPage : Nat) (s : State) : Host.Outcome State Fault Refusal :=
  let places := s.atsPlaces pasid hostPage
  if (s.press.queues ++ s.press.fifo).any (fun p => places.any (fun a => p.touches a 4096) && s.writesWait p.agent) then .next s
  else
    let s := places.foldl (fun s a => s.settlePlaces a 4096) s
    .next ((List.range s.numCards).foldl (fun s k =>
      s.setCard k { s.card k with ats := (s.card k).ats.filter (fun e => e.1 != (pasid, hostPage)) }) s)

/-- The host sets the size of a card's BAR 2: 256 MiB to 256 GiB (R391). -/
def State.setBar (s : State) (card log2 : Nat) : State :=
  if card < s.numCards && 28 ≤ log2 && log2 ≤ 38 then s.setCard card { s.card card with bar2 := log2 } else s
/-- The place of an offset of a card's BAR 2, which the dies' region 0b00 memories share (R391; log 20). -/
def barAddr (card off : Nat) : Nat := (2 * card + off / 2 ^ 37) * 2 ^ 44 + off % 2 ^ 37
/-- The place of `n` bytes at an offset of a card's BAR 2; none where a part of them is outside the BAR, outside what
host-window entries place, or has no power (R391, R397; log 20). -/
def State.barPlace (s : State) (card off n : Nat) : Option Nat :=
  let here (o : Nat) : Bool :=
    o < 2 ^ (s.card card).bar2 && (s.card card).hostWins.any (fun w => w.2.valid && w.2.base ≤ o && o < w.2.limit) && s.physOk (barAddr card o)
  if !s.dev.off && (List.range n).all (fun i => here (off + i) && barAddr card (off + i) = barAddr card off + i) then some (barAddr card off) else none

/-- Bytes of a host write in one line. -/
def State.hostPiece (s : State) (card pa : Nat) (bs : List Byte) : State :=
  let x := lineBits (pa % 64) bs
  let p : Piece :=
    { agent := .host card, op := .write, line := pa / 64 * 64, va := BitVec.ofNat 48 pa, data := x.1, mask := x.2, tags := 0,
      poison := 0, replicated := false, nonAlloc := true, run := 0, pc := 0, ord := 0 }
  s.setQueues (s.press.queues ++ [p]) s.press.fifo
/-- A host write enters the store queue of the PCIe port, one piece a line (R154). -/
def State.hostWrite (s : State) (card pa : Nat) (bs : List Byte) : State :=
  let k := min bs.length (64 - pa % 64)
  let s := s.hostPiece card pa (bs.take k)
  if k < bs.length then s.hostPiece card (pa + k) (bs.drop k) else s

/-- BAR2_ACCESS (R391, R154): a host access of `n` bytes through BAR 2. A read reaches its home, a write the store queue of
the PCIe port; outside the mapped part reads give all ones, writes are discarded and a security event is logged. A read waits
while a link on its way retrains, and one that the way refuses is as outside (R285, R288). -/
def execBar2Access (card offset n : Nat) (write : Option (BitVec 64)) (s : State) : Host.Outcome State Fault Refusal :=
  let a := Agent.host card
  let outside : State := { s with dev := { s.dev with lastRead := BitVec.allOnes 64 } }.securityEvent
  if s.numCards ≤ card || n = 0 || 8 < n then .next s
  else
    match s.barPlace card offset n, write with
    | none, some _ => .next s.securityEvent
    | none, none => .next outside
    | some pa, some v => .next (s.hostWrite card pa (leBytes n v.toNat))
    | some pa, none =>
      if s.pathHeld a pa then .next s
      else if s.pathRefuses a pa .read then .next outside
      else
        let r := (s.asksBytes a pa n).readHome a pa n true
        .next { r.2 with dev := { r.2.dev with lastRead := BitVec.ofNat 64 (leNat r.1) } }

end Sys2Proof.Machine
end

