-- ==== Sys2Proof/Machine/Monitors.lean ====
section
/-! DEFINITION. The debug port's gate (R383), trace units, counter banks and their claims (R377 to R380), router grid dumps
(R381), and the guard table (R353). -/

namespace Sys2Proof.Machine

/-! ### The gate (R383) -/

/-- What the debug port answers. -/
def State.reply (s : State) (r : DebugResult) : State := { s with dev := { s.dev with result := r } }

/-- The refusal of a debug action: DENIED by the security state, POWER in D; `vendor`: an action for VENDOR alone. -/
def State.debugRefusal (s : State) (vendor : Bool) : Option DebugResult :=
  let allowed := match s.dev.security with | .locked => false | .owner => !vendor | .vendor => true
  if !allowed then some .denied else if s.dev.off then some .power else none

/-- The debug port raises a die to P first (R383). -/
def State.wakeDie (s : State) (die : Nat) : State := s.setDie die { s.die die with retention := false }
/-- The debug port raises a core and its die to P first (R383). -/
def State.wake (s : State) (core : Nat) : State :=
  (s.wakeDie (core / 384)).setCoreAt core { s.coreAt core with gated := false }

/-- A debug action behind its gate: a refused one changes nothing but the answer. -/
def debugAction (vendor : Bool) (s : State) (f : State → State) : Host.Outcome State Fault Refusal :=
  match s.debugRefusal vendor with
  | some r => .next (s.reply r)
  | none => .next (f s)

/-! ### Trace units (R377, R379, R380) -/

/-- The records lost while the ring was full, once space has come (R377). -/
def State.traceLost (s : State) (die : Nat) : State :=
  let d := s.die die
  let t := d.trace
  if t.lost = 0 || t.len + t.read ≤ t.index then s
  else
    (s.setDie die { d with trace := { t with lost := 0 } }).traceWrite die (traceWord 0x7FF 0 8 0) (BitVec.ofNat 64 t.lost) 0

/-- A trace unit works for a run, with a ring of `len` records: an unchanged ring goes on where it stands (R377). -/
def State.enableTrace (s : State) (die run ring len : Nat) : State :=
  let s := s.wakeDie die
  let t := (s.die die).trace
  let fresh := t.ring ≠ ring || t.len ≠ len || !t.en
  let t := { t with en := true, runs := run :: t.runs.filter (· != run), ring := ring, len := len,
                    index := if fresh then 0 else t.index, read := if fresh then 0 else t.read }
  (s.setDie die { s.die die with trace := t }).traceLost die
/-- TRACE_ENABLE (R377, R380): a ring of `len` records for the run; a unit the hypervisor holds is not given. -/
def execTraceEnable (die run ring len : Nat) (s : State) : Host.Outcome State Fault Refusal :=
  debugAction false s (fun s =>
    let d := s.die die
    if s.numDies ≤ die then s.reply .refused
    else if d.trace.hyper then (s.setDie die { d with trace := { d.trace with preempted := true } }).reply .preempted
    else (s.enableTrace die run ring len).reply .done)
/-- The hypervisor enables a unit that it holds (R377, R379). -/
def State.traceByHyper (s : State) (die run ring len : Nat) : State :=
  match s.debugRefusal false with
  | some r => s.reply r
  | none => if die < s.numDies && (s.die die).trace.hyper then (s.enableTrace die run ring len).reply .done else s.reply .refused
/-- The debugger has read a ring up to an index: its room is free again, and what was lost is said (R377). -/
def State.traceRead (s : State) (die index : Nat) : State :=
  let d := s.die die
  if s.numDies ≤ die || (s.debugRefusal false).isSome then s
  else (s.setDie die { d with trace := { d.trace with read := max d.trace.read (min index d.trace.index) } }).traceLost die

/-- The hypervisor's counts begin at 0; the guest's are frozen and saved (R380). -/
def Core.claimBank (k : Core) : Core :=
  if k.held then k else { k with held := true, frozen := some k.guestPerf, perf := PerfBank.reset }

/-- HYPERVISOR_CLAIM (R379, R380). -/
def execHypervisorClaim (u : MonitorUnit) (s : State) : Host.Outcome State Fault Refusal :=
  debugAction false s (fun s =>
    match u with
    | .bank core =>
      if core < s.numCores then ((s.wakeDie (core / 384)).setCoreAt core (s.coreAt core).claimBank).reply .done else s.reply .refused
    | .trace die =>
      let d := s.die die
      if die < s.numDies then
        ((s.wakeDie die).setDie die { d with retention := false, trace := { TraceUnit.reset with hyper := true, preempted := d.trace.en } }).reply .done
      else s.reply .refused)

/-- HYPERVISOR_RELEASE (R380): PRE stays until the guest's next SYSW of PMCTL. -/
def execHypervisorRelease (u : MonitorUnit) (s : State) : Host.Outcome State Fault Refusal :=
  debugAction false s (fun s =>
    match u with
    | .bank core =>
      if core < s.numCores then ((s.wakeDie (core / 384)).setCoreAt core { s.coreAt core with held := false }).reply .done
      else s.reply .refused
    | .trace die =>
      let d := s.die die
      if die < s.numDies then (s.setDie die { d with retention := false, trace := { d.trace with hyper := false, preempted := false } }).reply .done
      else s.reply .refused)

/-- The debug port asks for samples every 2^k cycles, or for none (R378). -/
def State.sampleEvery (s : State) (die : Nat) (k : Option (BitVec 5)) : State :=
  let d := s.die die
  match s.debugRefusal false with
  | some r => s.reply r
  | none =>
    if die < s.numDies && (match k with | some n => decide (16 ≤ n.toNat ∧ n.toNat ≤ 24) | none => true) then
      (s.setDie die { d with trace := { d.trace with sampleK := k, sampleStart := d.cycle, sampled := [] } }).reply .done
    else s.reply .refused
/-- The interval of 2^`k` cycles at whose end a core's sample falls due: the one that has ended, or, for a core that was sampled
at that end, the next. -/
def TraceUnit.forCore (t : TraceUnit) (core k : Nat) : TraceUnit :=
  if t.sampled.contains core then { t with sampleStart := t.sampleStart + BitVec.ofNat 64 (2 ^ k), sampled := [] } else t
/-- COUNTER_SAMPLE (R378): at the end of an interval of 2^k cycles, every enabled counter of a core whose run is traced, as
records of KIND 6. -/
def execCounterSample (core : Nat) (s : State) : Host.Outcome State Fault Refusal :=
  debugAction false s (fun s =>
    let die := core / 384
    let d := s.die die
    let b := (s.coreAt core).perf
    match d.trace.sampleK with
    | none => s
    | some k =>
      let t := d.trace.forCore core k.toNat
      if (d.cycle - t.sampleStart).toNat < 2 ^ k.toNat then s
      else
        let s := s.setDie die { d with trace := { t with sampled := core :: t.sampled } }
        (List.range 8).foldl (fun s n =>
          if b.ctl.getLsbD (48 + n) then s.trace core 0 6 (BitVec.ofNat 64 n) (b.pmc[n % 8]'(by omega)) else s) s)

/-! ### The router grid (R381) -/

/-- A pair of counts of the interval that began in step `since`, each at most 2^24: the routers' traffic is not modelled
(log 4). -/
def gridPair (since i : Nat) : Word :=
  let n (j : Nat) : Nat := (Config.freeWord (16384 * since + 2 * i + j)).toNat % (2 ^ 24 + 1)
  BitVec.ofNat 64 (n 0 + 2 ^ 32 * n 1)
/-- A dump: the header, 384 routers of 20 pairs, five link ports of 4 pairs (R381). -/
def GridRing.dump (g : GridRing) (die k : Nat) (finish : Word) : List Word :=
  [g.interval, BitVec.ofNat 64 (k + 2 ^ 16 * die), finish, g.dropped, 0, 0, 0, 0] ++ (List.range 7700).map (gridPair g.cleared)
/-- CYCLE at the end of the interval under way: the next multiple of 2^k (R381). -/
def GridRing.finish (g : GridRing) (k : Nat) : Word := BitVec.ofNat 64 ((g.since.toNat / 2 ^ k + 1) * 2 ^ k)
/-- The place of the buffer that the next dump goes to. -/
def GridRing.place (g : GridRing) : Nat := g.base + 61664 * g.next
/-- An interval ends: the counts are copied and cleared, and the dump goes to the next buffer of the ring, or is dropped where
the ring is full (R381; log 28). -/
def GridRing.ended (g : GridRing) (k tick : Nat) : GridRing :=
  let n := { g with interval := g.interval + 1, since := g.finish k, cleared := tick }
  if g.full < g.buffers then { n with full := g.full + 1, next := (g.next + 1) % g.buffers, dropped := 0 }
  else { n with dropped := g.dropped + 1 }
/-- What ROUTER_GRID_DUMP does for a die, at the end of an interval. -/
def State.gridEnd (s : State) (die k : Nat) : State :=
  let g := (s.die die).grid
  let s := if g.full < g.buffers then s.writeBy .firmware g.place (wordBytes (g.dump die k (g.finish k))) else s
  s.setDie die { s.die die with grid := g.ended k s.tick }

/-- ROUTER_GRID_DUMP (R381, R383): at a multiple of 2^k, k as the debug port has set it; none in a die that is in S. -/
def execRouterGridDump (die k : Nat) (s : State) : Host.Outcome State Fault Refusal :=
  debugAction false s (fun s =>
    let d := s.die die
    if die < s.numDies && d.grid.k.map BitVec.toNat = some k && !d.retention && (d.grid.finish k).toNat ≤ d.cycle.toNat then
      s.gridEnd die k
    else s)
/-- The debug port supplies a ring of buffers for a die's router dumps, and sets k (R381, R383). -/
def State.setGridRing (s : State) (die base buffers : Nat) (k : BitVec 5) : State :=
  let d := s.die die
  match s.debugRefusal false with
  | some r => s.reply r
  | none =>
    if die < s.numDies && 16 ≤ k.toNat && k.toNat ≤ 24 && s.physOk base && s.physOk (base + 61664 * buffers - 1) then
      (s.setDie die { d with grid := { GridRing.reset with k := some k, base := base, buffers := buffers, since := d.cycle, cleared := s.tick } }).reply .done
    else s.reply .refused
/-- The debug port has taken the oldest dump: its buffer is free (R381). -/
def State.takeDump (s : State) (die : Nat) : State :=
  let d := s.die die
  if die < s.numDies && (s.debugRefusal false).isNone then s.setDie die { d with grid := { d.grid with full := d.grid.full - 1 } } else s

/-! ### The guard table (R353) -/

/-- GUARD_TABLE_REFUSAL (R353): an access that a hart's software makes at its level, 1 or 2, outside every window that grants
it, does not take place: the hart enters the monitor with its address and level; a plug-in is stopped, and its tenant runs under
default policy. -/
def execGuardTableRefusal (hart addr level tenant : Nat) (access : GuardAccess) (s : State) : Host.Outcome State Fault Refusal :=
  let h := s.hart hart
  if 4 * s.numCards ≤ hart || h.level ≠ level || (level ≠ 1 && level ≠ 2) || h.grants addr level tenant access then .next s
  else
    let t := s.guardStop hart addr level
    .next (if level = 2 then t.setTenant tenant { t.tenant tenant with defaultPolicy := true } else t)

/-- The monitor writes window `k` of its hart's guard table; the other levels may not (R353). -/
def State.guardWrite (s : State) (hart k : Nat) (w : Option GuardWindow) : State :=
  let h := s.hart hart
  if h.level = 0 && decide (k < 24) then s.setHart hart { h with guard := h.guard.set (k % 24) w (by omega) } else s
/-- The monitor fixes a level's entry address, once (R353). -/
def State.guardEntry (s : State) (hart level addr : Nat) : State :=
  let h := s.hart hart
  if h.level = 0 && decide (level < 2) && (h.entry[level % 2]'(by omega)).isNone then
    s.setHart hart { h with entry := h.entry.set (level % 2) (some addr) (by omega) }
  else s
/-- A move to a more privileged level, only at that level's entry address (R353). -/
def State.enterLevel (s : State) (hart level : Nat) : State :=
  let h := s.hart hart
  if level < h.level && (h.entry[level % 2]'(by omega)).isSome then s.setHart hart (h.enter level ((h.level, h.pc) :: h.callers)) else s
/-- The caller is resumed: the only return to a less privileged level (R353). -/
def State.resumeCaller (s : State) (hart : Nat) : State :=
  let h := s.hart hart
  match h.callers with
  | (level, pc) :: rest => if h.level < level then s.setHart hart { h with level := level, pc := pc, callers := rest } else s
  | [] => s
/-- The first software of a less privileged level, where no caller waits: a more privileged level lays it down as the caller
that it will resume, for a level is entered downward in no other way (R353; log 67). -/
def State.dropLevel (s : State) (hart level addr : Nat) : State :=
  let h := s.hart hart
  if h.level < level && level ≤ 2 && h.callers.isEmpty then s.setHart hart { h with callers := [(level, addr)] } else s

end Sys2Proof.Machine
end

