-- ==== Sys2Proof/Machine/Pairing.lean ====
section
/-! DEFINITION. Issue classes (R24), the registers an instruction reads and writes, the PAIR bit and what it counts (R25,
R378). -/

namespace Sys2Proof.Machine

/-! ### Issue classes (R24) -/

/-- The issue classes of R24. -/
inductive IssueClass where
  | scalar | memory | vector | matrix | solo
  deriving DecidableEq, Repr

/-- The class of an instruction by its length code and major opcode (R24). -/
def classOf (len major : Nat) : IssueClass :=
  if len = 0 then (if major = 18 || major = 20 then .solo else .scalar)
  else if len = 1 then
    (if major = 0 || major = 7 || major = 10 || major = 14 then .scalar
     else if major = 8 then .vector else if major = 12 then .matrix else .memory)
  else if major = 0 then .scalar else if major = 1 then .memory else if major = 2 then .solo else .matrix
/-- The class of the instruction whose first parcel is `p` (R24). -/
def parcelClass (p : Parcel) : IssueClass := classOf (p.extractLsb' 0 2).toNat (p.extractLsb' 2 6).toNat
/-- The issue class of an instruction (R24). -/
def issueClass (i : Instr) : IssueClass := parcelClass (i.p0.setWidth 32)

/-! ### The registers an instruction uses (R25) -/

/-- A register as R25 tells them apart: the window counts as one; a system register by its number. -/
inductive Reg where
  | g (n : BitVec 5) | win | c (n : BitVec 4) | v (n : BitVec 3) | m (n : BitVec 2) | vw (n : BitVec 2) | sys (n : Nat)
  deriving DecidableEq, Repr

/-- VSHAPE, FCSR, VPROG, MFLAGS and SCHEDEP by number (R202). -/
def Reg.vshape : Reg := .sys 0x007
def Reg.fcsr : Reg := .sys 0x008
def Reg.vprog : Reg := .sys 0x009
def Reg.mflags : Reg := .sys 0x032
def Reg.schedep : Reg := .sys 0x050

/-- What an instruction reads and writes. -/
structure Uses where
  reads : List Reg
  writes : List Reg
  deriving DecidableEq, Repr

/-- The g register that a window operand indexes by counts as read (R200, R25). -/
def winIndex (f : BitVec 5) : List Reg := if 24 ≤ f.toNat then [.g (f - 16)] else []
/-- A c register by a 5-bit field; fcap is written by no instruction that pairs. -/
def capReg (a : BitVec 5) : List Reg := if a.toNat < 16 then [.c (a.setWidth 4)] else []
/-- Registers v[d] to v[d + n - 1]. -/
def vRange (d : BitVec 3) (n : Nat) : List Reg := (List.range n).map (fun i => .v (d + BitVec.ofNat 3 i))

/-- Window arithmetic: window operands `ws` read, `wd` written; with FCSR where it rounds or raises flags. -/
def windowUse (ws : List (BitVec 5)) (wd : List (BitVec 5)) (gr gw : List (BitVec 5)) (flags : Bool) : Uses :=
  { reads := (ws ++ wd).flatMap winIndex ++ (if ws = [] then [] else [.win]) ++ gr.map .g ++ (if flags then [.fcsr] else []),
    writes := (if wd = [] then [] else [.win]) ++ gw.map .g ++ (if flags then [.fcsr] else []) }
/-- A memory operand: the capability and its two indexes (R110). -/
def placeRegs (f : MFields) : List Reg := [.c f.c, .g f.x, .g f.y]
/-- An atomic: the capability, the index, the operand, and the comparand of ACAS (R124). -/
def atomicUse (f : MFields) (cmp : Bool) : Uses :=
  { reads := [.c f.c, .g f.x, .g f.y] ++ (if cmp then [.g f.t] else []), writes := [.g f.t] }
/-- A capability, an index and g[d] read; g[d] written or not. -/
def qUse (f : QFields) (writes : List Reg) : Uses := { reads := [.c f.c, .g f.x, .g f.d], writes := writes }

/-- A vector instruction: registers `vs` and mask read under VSHAPE, `ws` written; FCSR where it rounds, raises flags or
clamps. -/
def vectorUse (f : VFields) (vs ws : List Reg) (mask flags : Bool) : Uses :=
  { reads := .vshape :: vs ++ (if mask && f.m ≠ 0 then [.m f.m] else []) ++ (if flags then [.fcsr] else []),
    writes := ws ++ (if flags then [.fcsr] else []) }
/-- Operand b (R232). -/
def operandReg (f : VFields) : Reg := if f.imm8.getLsbD 0 then .g f.g else .v f.vb
/-- Arithmetic of a type raises flags, or its clamping sets SAT (R189, R190). -/
def raises (f : VFields) : Bool := Fmt.isF f.ty.toNat || f.sat
/-- A vector instruction on operands a and b. -/
def binaryUse (f : VFields) : Uses := vectorUse f [.v f.va, operandReg f] [.v f.vd] true (raises f)
/-- A vector instruction on operand a. -/
def unaryUse (f : VFields) : Uses := vectorUse f [.v f.va] [.v f.vd] true (raises f)
/-- Bits only: no rounding, no flag (R236). -/
def bitwiseUse (f : VFields) : Uses := vectorUse f [.v f.va, operandReg f] [.v f.vd] true false
/-- A sweep: its capabilities and VPROG (R248), and FCSR where it rounds, raises flags or clamps (R190). -/
def sweepUse (f : WFields) (b flags : Bool) : Uses :=
  { reads := [.c f.ca, .c f.cd, .vprog] ++ (if b then [.c f.cb] else []) ++ (if flags then [.fcsr] else []),
    writes := .vprog :: (if flags then [.fcsr] else []) }
/-- A sweep of a type raises flags, or its clamping sets SAT (R189, R190). -/
def sweepRaises (f : WFields) : Bool := Fmt.isF f.ty.toNat || f.sat

/-- What an instruction reads and writes in a state, whose VSHAPE fixes the ranges of VCVT and whose capabilities the source
formats of SWCVT and SWBARQ; events pair with nothing. -/
def uses (s : State) : Instr → Uses
  | .add d a b | .sub d a b | .and d a b | .or d a b | .xor d a b | .andn d a b | .sll d a b | .srl d a b | .sra d a b
  | .slt d a b | .sltu d a b | .mul d a b | .mulh d a b | .mulhu d a b | .div d a b | .divu d a b | .rem d a b
  | .remu d a b | .min d a b | .max d a b | .minu d a b | .maxu d a b => { reads := [.g a, .g b], writes := [.g d] }
  | .clz d a | .ctz d a | .popc d a => { reads := [.g a], writes := [.g d] }
  | .sel d a b => { reads := [.g d, .g a, .g b], writes := [.g d] }
  | .addi d a _ | .andi d a _ | .ori d a _ | .xori d a _ | .slti d a _ | .sltiu d a _ => { reads := [.g a], writes := [.g d] }
  | .slli d a _ | .srli d a _ | .srai d a _ => { reads := [.g a], writes := [.g d] }
  | .addil d a _ | .andil d a _ | .oril d a _ | .xoril d a _ | .lih d a _ => { reads := [.g a], writes := [.g d] }
  | .li d _ => { reads := [], writes := [.g d] }
  | .lil d _ => { reads := [], writes := [.g d] }
  | .beq a b _ | .bne a b _ | .blt a b _ | .bge a b _ | .bltu a b _ | .bgeu a b _ => { reads := [.g a, .g b], writes := [] }
  | .jal d _ => { reads := [], writes := [.g d] }
  | .jalr d a _ => { reads := [.g a], writes := [.g d] }
  | .loop a _ => { reads := [.g a], writes := [.g a] }
  | .fadd _ d a b | .fsub _ d a b | .fmul _ d a b | .fdiv _ d a b | .fmin _ d a b | .fmax _ d a b | .fma _ d a b =>
    windowUse [a, b] [d] [] [] true
  | .fsqrt _ d a | .fcvt _ d a => windowUse [a] [d] [] [] true
  | .feq _ d a b | .flt _ d a b | .fle _ d a b => windowUse [a, b] [] [] [d] true
  | .fclass _ d a | .fmvg _ d a => windowUse [a] [] [] [d] false
  | .fabs _ d a | .fneg _ d a => windowUse [a] [d] [] [] false
  | .fmvw _ d a => windowUse [] [d] [a] [] false
  | .fcvti _ d a => windowUse [a] [] [] [d] true
  | .fcvtf _ d a => windowUse [] [d] [a] [] true
  | .faddLong f | .fsubLong f | .fmulLong f | .fdivLong f | .fminLong f | .fmaxLong f | .fmaLong f =>
    windowUse [f.a, f.b] [f.d] [] [] true
  | .fsqrtLong f | .fcvtLong f => windowUse [f.a] [f.d] [] [] true
  | .feqLong f | .fltLong f | .fleLong f => windowUse [f.a, f.b] [] [] [f.d] true
  | .fclassLong f | .fmvgLong f => windowUse [f.a] [] [] [f.d] false
  | .fabsLong f | .fnegLong f => windowUse [f.a] [f.d] [] [] false
  | .fmvwLong f => windowUse [] [f.d] [f.a] [] false
  | .fcvtiLong f => windowUse [f.a] [] [] [f.d] true
  | .fcvtfLong f => windowUse [] [f.d] [f.a] [] true
  | .sysr d n => { reads := [.sys n.toNat], writes := [.g d] }
  | .sysw d a n | .syss d a n | .sysc d a n => { reads := [.g a, .sys n.toNat], writes := [.g d, .sys n.toNat] }
  | .ifence a => { reads := capReg a, writes := [] }
  | .pmark a _ => { reads := [.g a], writes := [] }
  | .exit d => { reads := [.g d], writes := [] }
  | .cmov d a => { reads := capReg a, writes := capReg d }
  | .cgetb d a | .cgetf d a | .cgetp d a | .cgetl d a | .ctag d a => { reads := capReg a, writes := [.g d] }
  | .cgete d a _ | .cgets d a _ => { reads := capReg a, writes := [.g d] }
  | .cclr d => { reads := [], writes := capReg d }
  | .cperm d a b | .cfmt d a b => { reads := .g b :: capReg a, writes := capReg d }
  | .cshut d a b | .copen d a b => { reads := capReg a ++ capReg b, writes := capReg d }
  | .xsync d _ => { reads := [], writes := [.g d] }
  | .ld f => { reads := placeRegs f, writes := [.g f.t] }
  | .st f => { reads := .g f.t :: placeRegs f, writes := [] }
  | .ldc f => { reads := placeRegs f, writes := [.c (f.t.setWidth 4)] }
  | .stc f => { reads := .c (f.t.setWidth 4) :: placeRegs f, writes := [] }
  | .pref f => { reads := placeRegs f, writes := [] }
  | .ldw f => { reads := winIndex f.t ++ placeRegs f, writes := [.win] }
  | .stw f => { reads := .win :: winIndex f.t ++ placeRegs f, writes := [] }
  | .aadd f | .aand f | .aor f | .axor f | .amin f | .amax f | .aminu f | .amaxu f | .aswap f | .afadd f => atomicUse f false
  | .acas f => atomicUse f true
  | .ctadd f | .ctwait f => qUse f []
  | .ctread f => { reads := [.c f.c, .g f.x], writes := [.g f.d] }
  | .cttry f => qUse f [.g f.d]
  | .binit f | .barrive f | .barwait f => { reads := [.g f.x], writes := [.g f.d] }
  | .bwait f => { reads := [.g f.x, .g f.d], writes := [.g f.d] }
  | .sbind f => { reads := .c f.c :: .g f.x :: capReg f.d, writes := [] }
  | .send f => qUse f [.g f.d]
  | .recv f | .recvt f => { reads := [], writes := [.g f.d] }
  | .ksend f => { reads := [.g f.x, .g f.d], writes := [] }
  | .nbpost f => qUse f [.g f.d, .vw (f.imm.extractLsb' 0 2), .v (f.imm.extractLsb' 2 3)]
  | .nbview f => { reads := [.c f.c], writes := [.g f.d, .vw (f.imm.extractLsb' 0 2), .v (f.imm.extractLsb' 2 3)] }
  | .nbinit f => { reads := [.c f.c], writes := [.g f.d] }
  | .nbslot f => { reads := [.c f.c, .g f.x], writes := [.g f.d] }
  | .tclaim f => { reads := [.c f.c, .g f.x], writes := [.g f.d, .g (f.d + 1), .g (f.d + 2), .schedep] }
  | .tdone f => { reads := [.c f.c, .g f.x, .g (f.x + 1)], writes := [.g f.d, .schedep] }
  | .thand f => { reads := [.c f.c, .g f.x, .g (f.x + 1)], writes := [.g f.d] }
  | .schedw f => qUse f [.g f.d]
  | .schedr f => { reads := [.c f.c], writes := [.g f.d, .schedep] }
  | .cslice f => { reads := [.c f.ca, .g f.x, .g f.y], writes := [.c f.cd] }
  | .cslicei f | .cstep f => { reads := [.c f.ca], writes := [.c f.cd] }
  | .crank f | .cfix f => { reads := [.c f.ca, .g f.x], writes := [.c f.cd] }
  | .cfree f => { reads := [.c f.ca], writes := [.g f.x] }
  | .clease f => { reads := [.c f.ca], writes := [.c f.cd, .g f.x] }
  | .vadd f | .vsub f | .vmul f | .vmin f | .vmax f | .vshl f | .vshr f | .vsra f => binaryUse f
  | .vand f | .vor f | .vxor f => bitwiseUse f
  | .vfma f | .vfms f => vectorUse f [.v f.va, operandReg f, .v f.vc] [.v f.vd] true (raises f)
  | .vabs f | .vneg f => vectorUse f [.v f.va] [.v f.vd] true f.sat
  | .vmov f => vectorUse f [.v f.va] [.v f.vd] true false
  | .vcvt f =>
    vectorUse f (vRange f.va (s.span f.imm8.toNat)) (vRange f.vd (s.span f.ty.toNat)) true
      (raises f || Fmt.isF f.imm8.toNat)
  | .vexp2 f | .vlog2 f | .vrcp f | .vrsq f | .vtanh f => unaryUse f
  | .vcmp f => vectorUse f [.v f.va, operandReg f] [.m f.m] false (Fmt.isF f.ty.toNat)
  | .vsel f => vectorUse f [.v f.va, .v f.vb, .m f.m] [.v f.vd] false false
  | .vred f | .vscan f => unaryUse f
  | .vtrans f => vectorUse f [.v f.va] [.v f.vd] false false
  | .vbcast f => vectorUse f [if f.imm8 = 0 then .g f.g else .v f.va] [.v f.vd] true false
  | .vshuf f => vectorUse f [.v f.va, .v f.vb] [.v f.vd] true false
  | .vrot f => vectorUse f [.v f.va, .g f.g] [.v f.vd] true false
  | .vins f => vectorUse f [.g f.g, .g (8 + f.vc.setWidth 5)] [.v f.vd] false false
  | .vext f => vectorUse f [.v f.va, .g (8 + f.vc.setWidth 5)] [.g f.g] false false
  | .vmand f | .vmor f => vectorUse f [.m (maskName f.va), .m (maskName f.vb)] [.m (maskName f.vd)] false false
  | .vmnot f => vectorUse f [.m (maskName f.va)] [.m (maskName f.vd)] false false
  | .vmpop f => vectorUse f [.m (maskName f.va)] [.g f.g] false false
  | .vplanes f | .vunplane f => vectorUse f [.v f.va] [.v f.vd] false false
  | .vbarq f => vectorUse f [.v f.va, .v f.vb] [.v f.vd] true true
  | .vld f => { reads := .vshape :: placeRegs f, writes := [.v (f.t.setWidth 3)] }
  | .vst f => { reads := .vshape :: .v (f.t.setWidth 3) :: placeRegs f, writes := [] }
  | .vgather f => { reads := [.vshape, .vprog, .v (f.y.setWidth 3), .c f.c, .g f.x], writes := [.v (f.t.setWidth 3), .vprog] }
  | .vscatter f =>
    { reads := [.vshape, .vprog, .v (f.y.setWidth 3), .v (f.t.setWidth 3), .c f.c, .g f.x], writes := [.vprog] }
  | .vshape d a _ => { reads := [.g a, .vshape], writes := [.g d, .vshape] }
  | .swadd f | .swsub f | .swmul f | .swmin f | .swmax f | .swfma f => sweepUse f true (sweepRaises f)
  | .swbarq f => sweepUse f true (sweepRaises f || Fmt.isF (s.c f.ca).fmt.toNat)
  | .swcvt f => sweepUse f false (sweepRaises f || Fmt.isF (s.c f.ca).fmt.toNat)
  | .swcopy f => sweepUse f false false
  | .ecmd f => { reads := [.c f.c, .g f.x], writes := [.g f.d] }
  | .ewait f => { reads := [.g f.d], writes := [.g f.d] }
  | .mwfetch f => { reads := [.c f.c, .g f.d, .g f.x], writes := [] }
  | .mwload f => { reads := [.g f.x], writes := [] }
  | .mgwait f => { reads := [], writes := [.g f.d] }
  | .mgread f =>
    let d : BitVec 3 := f.d.setWidth 3
    { reads := [.g f.x, .fcsr], writes := .fcsr :: vRange d (if elemBits (f.imm.extractLsb' 0 6).toNat = 32 then 2 else 1) }
  | .mstream f => { reads := [.c f.c, .g f.x, .g f.sel], writes := [.mflags] }
  | .spawn f => { reads := [.c f.c, .c (f.imm.extractLsb' 0 4), .g f.x, .g f.d], writes := [.g f.d] }
  | .xplan f => { reads := [.c f.c, .g f.x], writes := [.g f.d, .sys 0x018] }
  | _ => { reads := [], writes := [] }

/-! ### Pairs (R25) -/

/-- A branch, a jump or LOOP (R25). -/
def isTransfer : Instr → Bool
  | .beq _ _ _ | .bne _ _ _ | .blt _ _ _ | .bge _ _ _ | .bltu _ _ _ | .bgeu _ _ _ | .jal _ _ | .jalr _ _ _ | .loop _ _ => true
  | _ => false

/-- A class that pairs with scalar. -/
def IssueClass.pairs : IssueClass → Bool
  | .memory | .vector | .matrix => true
  | _ => false

/-- The second neither reads nor writes a register that the first writes; g0 is written by none (R25, R196). -/
def Uses.free (x y : Uses) : Bool := x.writes.all (fun r => r == .g 0 || !(y.reads ++ y.writes).contains r)

/-- Two instructions issue in one group where the first one's PAIR bit asks for it (R25). -/
def State.paired (s : State) (x y : Instr) : Bool :=
  let a := issueClass x
  let b := issueClass y
  ((a = .scalar && b.pairs) || (b = .scalar && a.pairs)) && !isTransfer x && (uses s x).free (uses s y)

/-- The instruction after the one at parcel `k` of a line, where the latter's PAIR bit counts: it is set, and another
instruction begins in the line (R17, R25). -/
def pairedWith (d : BitVec 512) (k : Nat) : Option Instr :=
  let n := k + ((lineWord d k).extractLsb' 0 2).toNat + 1
  if d.getLsbD (14 + k) && decide (k ≤ 14) && decide (n ≤ 15) then
    match decode (lineFrom d n) with
    | .ok (i, _) => some i
    | .error _ => none
  else none

/-- The line the issuing agent's PC lies in, as its core's fetch buffer holds it. -/
def State.lineNow (s : State) : Option FetchLine :=
  s.core.u.fetchBuf.find? (fun l => l.va == s.pc.toNat / 64 * 64)
/-- What an issue adds to the counts of its core: an issue group that holds a pair, or a pairing miss (R25, R378; log 16). -/
def State.countPair (s : State) (core : Nat) (d : BitVec 512) (k : Nat) (i : Instr) : State :=
  match pairedWith d k with
  | none => s
  | some j => s.count core (if s.paired i j then 3 else 4) 1

end Sys2Proof.Machine
end

