-- ==== Sys2Proof/Machine/Preempt.lean ====
section
/-! DEFINITION. Pre-emption (R339 to R343, R365, R411, R412): the decision, the boundary of a core, its save, the launch of
the pre-empting run and the restore. -/

namespace Sys2Proof.Machine

/-! ### The decision (R339, R365, R411) -/

/-- A run holds one of some cores, resident or saved. -/
def State.holds (s : State) (cores : List Nat) (r : Run) : Bool :=
  let id := r.id.toNat
  cores.any (fun k => (s.coreAt k).run == some id || (match (s.coreAt k).saved with | some sv => sv.run == id | none => false))
/-- A run that a launch of priority `p` may pre-empt: of lower priority, not in an express area, resident on every core
of its own, so that its express areas are free (R339, R365). -/
def State.mayPreempt (s : State) (p : BitVec 2) (r : Run) : Bool :=
  r.prio.ult p && r.express.isNone && r.ending.isNone && (r.state = .running || r.state = .stopped)
    && (s.runCores r).all (fun k => (s.coreAt k).run == some r.id.toNat && (s.coreAt k).saved.isNone)
/-- The smallest express area among some runs (R411). -/
def smallestArea (rs : List Run) : Nat := rs.foldl (fun e r => min e (expressSize r.esz)) 0x40000

/-- The LAUNCH at the head of a queue that the scheduler may start by pre-emption (R365): packet, victims, E. -/
def State.preemption (s : State) (q : Nat) : Option (Packet × List Run × Nat) :=
  match s.startable q 1 with
  | none => none
  | some p =>
    if (s.preparing q p).isSome then none
    else
      let cores := s.domainCores (launchDomain (p.word 0))
      let victims := s.runs.filter (s.holds cores)
      let e := smallestArea victims
      if victims.isEmpty || !victims.all (s.mayPreempt p.prio) || e = 0
          || !cores.all (fun k => s.coreFree k || ((s.coreAt k).run.isSome && (s.coreAt k).saved.isNone))
          || !cores.all (fun k => k / 768 == (cores.headD 0) / 768) then none
      else some (p, victims, e)

/-- A record of KIND 4 with CORE 0x7FF on every die of a victim whose run is traced (R412). -/
def State.traceDecision (s : State) (id : Word) (v : Run) : State :=
  (s.domainDies v.domain).foldl (fun s d =>
    let t := (s.die d).trace
    if t.en && t.runs.contains v.id.toNat then s.traceWrite d (traceWord 0x7FF 0 4 0) id v.id else s) s

/-- PREEMPTION_DECISION (R365, R339): the pre-empting run is made, and every run it pre-empts is to stop; one that its area does
not hold is refused (R364, R411). -/
def execPreemptionDecision (q : Nat) (s : State) : Host.Outcome State Fault Refusal :=
  match s.preemption q with
  | none => .next s
  | some (p, victims, e) =>
    match s.prepare (s.client q) p (some e), s.newRunId with
    | .error miss, _ => .next (s.refuseLaunch q (s.queue q).gen (s.client q) p miss)
    | .ok _, none => .next s
    | .ok l, some id =>
      if !s.diesReady l then .next s
      else
        let ids := victims.map (fun v => v.id.toNat)
        let s := victims.foldl (fun s v => s.updRun v.id.toNat (fun r =>
          { r with state := .preempted, f := { r.f with preempt := r.f.preempt + 1 } })) s
        let s := { s with
          runs := s.runs ++ [s.newRun q p l id ids (some e)],
          dev := { s.dev with nextRun := s.dev.nextRun + 1, robin := q } }
        .next (victims.foldl (fun s v => s.traceDecision id v) s)

/-- The run that pre-empts a run. -/
def State.preempter (s : State) (run : Nat) : Option Run :=
  s.runs.find? (fun r => r.victims.contains run && r.state ≠ .ended)

/-! ### The boundary (R340) -/

/-- A queued MWLOAD at the boundary: it completes where its waits are over, else it is withdrawn (R340, R276). -/
def State.settleLoad (s : State) (core : Nat) (l : LoadOp) : State :=
  let x := s.mxAt core
  if x.loads.any (fun k => k.seq == l.seq) then
    if x.loadWaits l then
      let a := Agent.ctx core l.slot.toNat
      (s.setMxAt core { x with loads := x.loads.filter (fun k => k.seq != l.seq) }).setCtxOf a { s.ctxOf a with loading := false }
    else s.endLoad core l
  else s

/-- A piece is an atomic whose old value is awaited (R142). -/
def Piece.awaited (p : Piece) : Bool := match p.op with | .atomic _ _ _ _ d => d.isSome | _ => false
/-- A request of a core's contexts, or a message, whose answer is awaited is held at a link that retrains (R285). -/
def State.answerHeld (s : State) (core : Nat) : Bool :=
  s.press.fifo.any (fun p => p.awaited && agentCore p.agent == some core && s.pathHeld p.agent p.line)
    || (coreAgents core).any s.messageHeld
/-- Requests whose answer an agent awaits are performed, with what stands before them in their FIFO (R142, R340). -/
def State.settleAwaited (s : State) (a : Agent) : State :=
  (s.press.fifo.filter (fun p => p.agent == a && p.awaited)).foldl (fun s p =>
    s.deliverWhere a (fun q => s.homeKey q.line == s.homeKey p.line)) s
/-- Work in flight on a core ends (R340): expansions, atomics, messages, drains into the FIFOs, watches; an IDLE is over
(R313). -/
def State.endFlight (s : State) (core : Nat) : State :=
  let s := (s.mxAt core).loads.foldl (fun s l => s.settleLoad core l) s
  let s := (coreAgents core).foldl (fun s a => ((s.settleAwaited a).deliverMessage a).drainWhere a (fun _ => true)) s
  let s := (coreAgents core).foldl (fun s a =>
    let c := s.ctxOf a
    if c.idle.isSome then s.setCtxOf a { c with idle := none } else s) s
  { s with press := { s.press with watches := s.press.watches.filter (fun w => match w.who with
      | .agent a => !(coreAgents core).contains a
      | .record k _ => k != core) } }

/-- A close whose last arrival has been signalled, and a run's initial close, completes before its cores are taken (R305,
R307). -/
def State.closing (s : State) (r : Run) (core : Nat) : Bool :=
  !r.opened.contains (core / 768) ||
  match (s.coreAt core).arrived with
  | some l => !(s.coreAt core).stopped && s.mayClose r.id.toNat l.toNat (s.members r.domain l.toNat core)
  | none => false

/-- PREEMPT_BOUNDARY (R340, R341, R412): a core of a run that is to stop reaches its boundary; where the run ends, it saves
nothing and leaves it (R338). -/
def execPreemptBoundary (core : Nat) (s : State) : Host.Outcome State Fault Refusal :=
  match s.runOn core with
  | none => .next s
  | some r =>
    if s.answerHeld core then .next s
    else if r.ending.isSome then .next ((s.endFlight core).stopAt r.id.toNat core)
    else if r.state ≠ .preempted || (s.coreAt core).boundary.isSome || (s.coreAt core).dbg.replaying || s.closing r core then .next s
    else
      let s := s.endFlight core
      if (s.coreAt core).run = some r.id.toNat then
        let s := s.setCoreAt core { s.coreAt core with boundary := some (s.die (core / 384)).cycle }
        .next (s.trace core 0 4 (match s.preempter r.id.toNat with | some x => x.id | none => 0) 0)
      else .next s

/-! ### The save (R342) -/

/-- A slot's frame (R342, R292): everything but the vector registers that are not dirty. -/
def State.saveSlot (s : State) (core slot : Nat) : State :=
  let c := s.ctxOf (.ctx core slot)
  let a := framePlace core slot
  match s.image core slot (saveCap core) c.pc true with
  | none => s
  | some gs =>
    let s := s.putLocal a (gs.take 48)
    let s := c.dirtyVectors.foldl (fun s i => s.putLocal (a + 0x600 + 2048 * i) ((gs.drop (48 + 64 * i)).take 64)) s
    s.putLocal (a + 0x4600) (gs.drop 560)

/-- The core state is written (R342; its matrix queues in the model's own form, log 14). -/
def State.saveCore (s : State) (core : Nat) : State :=
  s.putLocal (corePlace core) (s.coreGranules core)

/-- What the core keeps of the run while it is away. A slot's registers stand in its frame. -/
def State.savedCore (s : State) (core run : Nat) : SavedCore :=
  let k := s.coreAt core
  { run := run,
    ctxs := (List.range 4).map (fun i =>
      let c := s.ctxOf (.ctx core i)
      if c.occupied then some { c with r := Regs.reset, vpart := none } else none),
    phase := k.phase, arrived := k.arrived, wasStopped := k.stopped, closed := k.closed, walloc := k.walloc, xnext := k.xnext, xmode := k.xmode,
    sstepLevel := k.sstepLevel, sstepCount := k.sstepCount, plan := k.plan, rx := k.rx, kbin := k.kbin, perf := k.perf,
    frozen := k.frozen, barriers := k.u.barriers, pending := k.u.pending, mx := k.u.mx, copy := k.u.copy, epi := k.u.epi,
    copyCtx := s.ctxOf (.copy core), epiCtx := s.ctxOf (.epi core), ready := k.u.ready, waiting := k.u.waiting, dbg := k.dbg }

/-- A core without its run: slots, engine harts and matrix unit are free for another. The galley keeps the run's tiles (R272),
aside: GALLEY and MPROG of the pre-empting run begin at their reset values, as at every launch (R401) (log 14). -/
def State.vacate (s : State) (core : Nat) (saved : SavedCore) : State :=
  let s := (coreAgents core).foldl (fun s a => s.setCtxOf a Ctx.reset) s
  let k := s.coreAt core
  s.setCoreAt core { Core.reset with
    last := k.last, perf := if k.held then k.perf else PerfBank.reset, frozen := if k.held then some PerfBank.reset else none,
    held := k.held, gated := k.gated, saved := some saved,
    u := { CoreUnits.reset with
      sideLog := k.u.sideLog, fetchBuf := k.u.fetchBuf, leases := k.u.leases, tlb := k.u.tlb } }

/-- Bytes that the save of a core writes (R342, R412). -/
def State.saveBytes (s : State) (core : Nat) : Nat :=
  (List.range 4).foldl (fun n i =>
    let c := s.ctxOf (.ctx core i)
    if c.occupied then n + 0x1000 + 2048 * c.dirtyVectors.length else n) 0x1000

/-- SAVE (R342, R412): a core at its boundary is saved. -/
def execSave (core : Nat) (s : State) : Host.Outcome State Fault Refusal :=
  match (s.coreAt core).run, (s.coreAt core).boundary with
  | some run, some since =>
    let saved := s.savedCore core run
    let bytes := s.saveBytes core
    let slots := (List.range 4).filter (fun i => (s.ctxOf (.ctx core i)).occupied)
    let s := s.asAgent (.ctx core 0) (fun s => (slots.foldl (fun s i => s.saveSlot core i) s).saveCore core)
    let s := s.trace core 0 9 (BitVec.ofNat 64 bytes) ((s.die (core / 384)).cycle - since)
    .next (s.vacate core saved)
  | _, _ => .next s

/-! ### The pre-empting launch (R341, R411) -/

/-- Every core of a run's victims is saved or has left its run. -/
def State.victimsSaved (s : State) (r : Run) : Bool :=
  !s.cores.any (fun p => match p.2.run with | some id => r.victims.contains id | none => false)
    && (s.runCores r).all (fun k => (s.coreAt k).run.isNone)
/-- The packet of a run. -/
def Run.launchPacket (r : Run) : Packet := { index := r.packet, words := r.words }

/-- PREEMPTING_LAUNCH (R341, R411): a run that queue `q` has prepared starts in the express area once every member core of its
victims is saved, whatever has become of its queue (R357, R369). -/
def execPreemptingLaunch (q : Nat) (s : State) : Host.Outcome State Fault Refusal :=
  match s.runs.find? (fun r => r.queue == q && r.state = .preparing && s.victimsSaved r) with
  | none => .next s
  | some r =>
    if !s.hartLive (queueHart q) then .next s
    else
      match s.prepare r.client r.launchPacket r.express with
      | .error (.guarded addr) => .next (s.noteMiss r.client (.guarded addr))
      | .error e => .next ({ s with runs := s.runs.filter (fun x => x.id != r.id) }.refuseLaunch q r.queueGen r.client r.launchPacket e)
      | .ok l =>
        if s.diesReady l then .next ((s.updRun r.id.toNat (fun x => { x with state := .running })).startRunOn r l) else .next s

/-! ### The restore (R343) -/

/-- A capability of the core state, `i`th granule (R59). -/
def State.savedCap (s : State) (core i : Nat) : Cap :=
  let a := corePlace core + 32 * i
  s.loadedCap (BitVec.ofNat 256 (leNat (s.bytesAt a 32))) (s.tagAt a)

/-- An occupied slot returns from its frame (R343, R293): zero vector registers read zero, the others equal the frame; a
counter wait issues again. -/
def State.restoreFrame (s : State) (core slot : Nat) (c : Ctx) : State :=
  let a := Agent.ctx core slot
  let at_ := framePlace core slot
  let susp := match c.susp with | some w => if w.reason = .counter then none else some w | none => none
  let s := s.setCtxOf a { c with susp := susp }
  let bs := s.bytesAt at_ 0x5000
  let cid := BitVec.ofNat 16 (leNat ((bs.drop 0x468).take 2))
  let s := s.restoreSlot core slot bs ((List.range 17).map (fun i => s.tagAt (at_ + 32 * i))) cid true
  let d := s.ctxOf a
  s.setCtxOf a { d with
    r := { d.r with v := Vector.ofFn (fun i : Fin 8 => if c.zero.getLsbD i.val then 0 else d.r.v[i]) },
    zero := c.zero, clean := ~~~c.zero, efcap := s.savedCap core (2 + slot), esave := s.savedCap core (6 + slot), resumed := true }

/-- A core's share of its run, its frames apart. -/
def State.unsaveCore (s : State) (core : Nat) (sv : SavedCore) : State :=
  let k := s.coreAt core
  let s := s.setCoreAt core { k with
    run := some sv.run, phase := sv.phase, arrived := sv.arrived, stopped := sv.wasStopped, closed := sv.closed, boundary := none, restored := true,
    walloc := sv.walloc, xnext := sv.xnext, xmode := sv.xmode, sstepLevel := sv.sstepLevel, sstepCount := sv.sstepCount,
    plan := sv.plan, rx := sv.rx, kbin := sv.kbin, rcc := s.savedCap core 0, rdc := s.savedCap core 1,
    perf := if k.held then k.perf else sv.perf,
    frozen := if k.held then some (sv.frozen.getD sv.perf) else sv.frozen, saved := none, dbg := sv.dbg,
    u := { k.u with barriers := sv.barriers, pending := sv.pending, mx := sv.mx, copy := sv.copy, epi := sv.epi,
                    ready := sv.ready, waiting := sv.waiting } }
  let again (c : Ctx) : Ctx :=
    match c.susp with | some w => if w.reason = .counter then { c with susp := none } else c | none => c
  let s := (s.setCtxOf (.copy core) (again sv.copyCtx)).setCtxOf (.epi core) (again sv.epiCtx)
  (List.range 4).foldl (fun s i =>
    s.setBytes (windowCell core (8 * i)) (s.bytesAt (corePlace core + 0x160 + 8 * i) 8)) s

/-- Written-back continuations wait again: at their counters by watches, or they are ready (R343, R294). -/
def State.rewatch (s : State) (core : Nat) (p : Parked) : State :=
  if s.conditionMet core p then s.makeReady core p
  else if p.susp.reason = .counter then
    s.addWatch { cell := p.susp.key.toNat, thresh := p.susp.thresh, who := .record core p.recAddr }
  else s

/-- A command of a restored engine hart whose page request failed meanwhile ends with cause 0x10 (R86, R165). -/
def State.endFailed (s : State) (core e : Nat) : State :=
  match ((s.coreAt core).engine e).pageFail with
  | some va => s.failEngine core e va
  | none => s
/-- A close that completed while a core's share was away: its next compute phase begins now (R305). -/
def State.lateBegin (s : State) (core : Nat) : State :=
  let k := s.coreAt core
  match k.phase, k.arrived with
  | .compute, some level => (s.setCoreAt core { k with phase := .exchange }).beginPhase core level
  | _, _ => s
/-- A run of which a core is resident again runs; its gateway harts start anew (log 12). -/
def State.runAgain (s : State) (run : Nat) : State :=
  match s.run? run with
  | none => s
  | some r =>
    let s := s.updRun run (fun r => { r with state := if r.dbg.stoppedAt.isSome then .stopped else .running })
    if r.state = .preempted then s.startGateways r else s

/-- RESTORE (R343, R412): a core without a run takes back the run saved on it, once what pre-empted the run has ended; its trace
record follows with the first issue. -/
def execRestore (core : Nat) (s : State) : Host.Outcome State Fault Refusal :=
  match (s.coreAt core).run, (s.coreAt core).saved with
  | none, some sv =>
    if (s.preempter sv.run).isSome then .next s
    else
      let s := s.unsaveCore core sv
      let s := s.asAgent (.ctx core 0) (fun s =>
        (List.range 4).foldl (fun s i =>
          match sv.ctxs.getD i none with
          | some c => s.restoreFrame core i c
          | none => s.setCtxOf (.ctx core i) Ctx.reset) s)
      let s := sv.waiting.foldl (fun s p => s.rewatch core p) s
      let s := s.dropViews (fun x => (coreAgents core).contains x.agent)
      let s := s.runAgain sv.run
      let s := (s.endFailed core 0).endFailed core 1
      .next (s.lateBegin core)
  | _, _ => .next s

end Sys2Proof.Machine
end

