-- ==== Sys2Proof/Machine/Replay.lean ====
section
/-! DEFINITION. Boundary logs and replay (R374 to R376): what an issued instruction leaves in the log of its core, and what
it leaves behind in replay mode. -/

namespace Sys2Proof.Machine

/-! ### The boundary log (R375; log 27) -/

/-- Instructions whose result the log holds whatever they read (R375). -/
def alwaysLogged : Instr → Bool
  | .mgread _ | .mgwait _ | .ecmd _ | .ewait _ => true
  | .sysr _ num => num = 0x00C || num = 0x030 || num = 0x031 || num = 0x041 || num = 0x070
  | .sysw _ _ num | .syss _ _ num | .sysc _ _ num => num = 0x030
  | _ => false
/-- Instructions that meet what came from outside the core, for the load journal (R375). -/
def journalled : Instr → Bool
  | .recv _ | .recvt _ | .radv _ | .bwait _ | .barwait _ | .barrive _ | .binit _ => true
  | _ => false
/-- A trap was taken between two states of a context: by its cause when `lifetime` asks for lifetime failures alone. -/
def trapTaken (old new : Ctx) (lifetime : Bool) : Bool :=
  !old.sr.th && new.sr.th && (!lifetime || new.sr.cause.extractLsb' 0 8 = 0x0B)

/-- Stores of a context that its instruction added to its store queue and FIFO. -/
def newStores (a : Agent) (old new : State) : List Piece :=
  (new.press.queues ++ new.press.fifo).filter (fun p =>
    p.agent == a && !(old.press.queues ++ old.press.fifo).contains p)

/-- An instruction is the first of a pair: its issue group goes on with the next one (R25). -/
def State.leads (s : State) (i : Option Instr) : Bool :=
  match i, s.lineNow with
  | some x, some l => (match pairedWith l.data (s.pc.toNat % 64 / 4) with | some y => s.paired x y | none => false)
  | _, _ => false
/-- A context has issued instruction `i`, or trapped before it had one: from `old` to `new` (R375). -/
def State.logIssued (old new : State) (i : Option Instr) (core slot : Nat) : State :=
  let k := new.coreAt core
  let journal := match new.runOn core with | some r => r.dbg.journal | none => false
  let c := new.ctxOf (.ctx core slot)
  let c0 := old.ctxOf (.ctx core slot)
  let hit := k.dbg.touched || (i.map alwaysLogged).getD false || trapTaken c0 c true || (journal && ((i.map journalled).getD false || trapTaken c0 c false))
  let s := if hit then new.logItem core (.outcome slot c k.window (newStores (.ctx core slot) old new)) else new
  let k := s.coreAt core
  let more := if old.leads i && !trapTaken c0 c false then 0 else 1
  s.setCoreAt core { k with dbg := { k.dbg with count := k.dbg.count + 1, groups := k.dbg.groups + more, touched := false } }

/-! ### Replay mode (R376) -/

/-- The entries of sparse data whose places lie in a core's local memory come from `new`, the others from `old`; keys
count units of `u` bytes. -/
def mixLocal {α : Type} (core u : Nat) (old new : Sparse α) : Sparse α :=
  let here (k : Nat) : Bool := localBase core ≤ u * k && u * k < localBase core + 2 ^ 20
  old.filter (fun p => u * p.1 < localBase core) ++ new.filter (fun p => here p.1)
    ++ old.filter (fun p => !here p.1 && localBase core ≤ u * p.1)
/-- What a replaying core keeps of a step: its contexts, itself but for its engines, matrix unit, ready queue and side log,
and its local memory. Everything else is as before. -/
def State.confine (old new : State) (core : Nat) : State :=
  let k := new.coreAt core
  let u := (old.coreAt core).u
  let s : State := { old with
    cur := new.cur, mem := mixLocal core 1 old.mem new.mem, tags := mixLocal core 32 old.tags new.tags,
    poison := mixLocal core 32 old.poison new.poison }
  let s := (List.range 4).foldl (fun s i => s.setCtxOf (.ctx core i) (new.ctxOf (.ctx core i))) s
  s.setCoreAt core { k with
    stopped := true, run := (old.coreAt core).run,
    u := { k.u with copy := u.copy, epi := u.epi, mx := u.mx, ready := u.ready, waiting := u.waiting, sideLog := u.sideLog } }
/-- An instruction of a replaying core: its own stores reach its local memory, what leaves the core is discarded (R376). -/
def State.replayed (old new : State) (core slot : Nat) : State :=
  let s := old.confine (new.flush (.ctx core slot)) core
  let k := s.coreAt core
  s.setCoreAt core { k with dbg := { k.dbg with count := k.dbg.count + 1, touched := false } }

/-- What an issued instruction leaves once the log or replay mode has had its say. -/
def State.recorded (old new : State) (i : Option Instr) : State :=
  match old.cur with
  | .ctx core slot =>
    if (old.coreAt core).dbg.replaying then old.replayed new core slot
    else if new.logging core then old.logIssued new i core slot
    else new
  | _ => new

/-! ### Loading a snapshot, and the steps of a replay (R376) -/

/-- A capability that comes back keeps its tag while its lease lives (R59). -/
def State.relive (s : State) (c : Cap) : Cap :=
  if c.tag && !((s.lease c.lease.toNat).state = 1 && (s.lease c.lease.toNat).gen = c.gen) then { c with tag := false } else c
/-- The capabilities of a context that comes back. -/
def State.reliveCtx (s : State) (x : Ctx) : Ctx :=
  { x with fcap := s.relive x.fcap, efcap := s.relive x.efcap, esave := s.relive x.esave, frame := s.relive x.frame,
           recCap := s.relive x.recCap, r := { x.r with c := x.r.c.map s.relive } }
/-- Those of an engine's command. -/
def State.reliveEngine (s : State) (x : Engine) : Engine :=
  { x with src := s.relive x.src, dst := s.relive x.dst, idx := s.relive x.idx }
/-- Those of a matrix unit's queues. -/
def State.reliveMatrix (s : State) (x : Matrix) : Matrix :=
  { x with fetches := x.fetches.map (fun f => { f with cap := s.relive f.cap }),
           streams := x.streams.map (fun t => { t with cap := s.relive t.cap }) }
/-- A core that comes back: its capabilities are checked again, and its lease cache is empty (R59, R61). -/
def State.reliveCore (s : State) (k : Core) : Core :=
  { k with
    rcc := s.relive k.rcc, rdc := s.relive k.rdc
    u := { k.u with
      leases := [], copy := s.reliveEngine k.u.copy, epi := s.reliveEngine k.u.epi, mx := s.reliveMatrix k.u.mx
      waiting := k.u.waiting.map (fun p => { p with recCap := s.relive p.recCap, frame := s.relive p.frame })
      ready := k.u.ready.map (fun e => { e with recCap := s.relive e.recCap })
      sideLog := k.u.sideLog.map (fun e =>
        if (s.lease e.lease.toNat).state = 1 && (s.lease e.lease.toNat).gen = e.gen then e else { e with tags := 0 }) } }
/-- A core and its local memory as a snapshot holds them, with the tags that R59 leaves. -/
def State.loadSnapshot (s : State) (x : Snapshot) : State :=
  let s := { s with
    mem := x.bytes.foldl (fun (m : Sparse Byte) (e : Nat × Byte) => Sparse.put 0 m e.1 e.2) (mixLocal x.core 1 s.mem []),
    tags := (x.tags.filter (fun g => (s.relive (x.capAt g)).tag)).foldl (fun (m : Sparse Bool) k => Sparse.put false m k true) (mixLocal x.core 32 s.tags []),
    poison := x.poison.foldl (fun (m : Sparse Bool) k => Sparse.put false m k true) (mixLocal x.core 32 s.poison []) }
  let s := ((List.range 4).zip x.ctxs).foldl (fun s p => s.setCtxOf (.ctx x.core p.1) (s.reliveCtx p.2)) s
  s.setCoreAt x.core (s.reliveCore x.state)

/-- The snapshots of a core that were taken of its run before the present stop, newest first. -/
def State.replaySources (s : State) (core : Nat) : List Snapshot :=
  let k := s.coreAt core
  (s.dev.snapshots.filter (fun x => x.core == core && x.state.run == k.run
    && !(x.count = k.sstepCount && x.state.phase = k.phase))).reverse
/-- The snapshot a replay of a core begins from: the last one, where the debug port names no boundary. -/
def State.replaySource (s : State) (core : Nat) : Option Snapshot := (s.replaySources core).head?
/-- The snapshot of the boundary (COUNT, core) that the debug port names (R374, R376). -/
def State.replayOf (s : State) (core : Nat) (count : BitVec 32) : Option Snapshot :=
  (s.replaySources core).find? (fun x => x.count = count)

/-- A snapshot loaded for replay, its next compute phase begun; the log stays (R376). -/
def State.beginReplay (s : State) (x : Snapshot) : State :=
  let core := x.core
  let log := (s.coreAt core).dbg.log
  let s := { s with dev := { s.dev with replayStops := s.dev.replayStops ++ [s.snapshot core] } }
  let t := s.loadSnapshot x
  let t := match (t.coreAt core).arrived with | some l => t.confine (t.beginPhase core l) core | none => t
  let k := t.coreAt core
  t.setCoreAt core { k with stopped := true, dbg := { k.dbg with log := log, count := 0, groups := 0, touched := false, replaying := true, stepping := false } }

/-- The core is as it was at the stop (R376). -/
def State.endReplay (s : State) (core : Nat) : State :=
  match s.dev.replayStops.find? (fun x => x.core == core) with
  | some x =>
    let s := s.loadSnapshot x
    { s with dev := { s.dev with replayStops := s.dev.replayStops.filter (fun y => y.core != core) } }
  | none => s

/-- The log entries for the next instruction of a replaying core. -/
def Core.nextEntries (k : Core) : List LogItem :=
  (k.dbg.log.filter (fun e => e.sstep = k.sstepCount && e.index == k.dbg.count)).map LogEntry.item

/-- What reached waiting contexts before the next instruction. -/
def State.applyAnswers (s : State) (core : Nat) (items : List LogItem) : State :=
  items.foldl (fun s x => match x with | .answer n c => s.setCtxOf (.ctx core n) c | _ => s) s

/-- A wait whose instruction issues again is over when the schedule says so. -/
def Ctx.reissue (c : Ctx) : Ctx :=
  match c.susp with
  | some w => if w.reason = .counter || w.reason = .page || w.reason = .message then { c with susp := none } else c
  | none => c

/-- One instruction of a replay: its logged outcome, or it issues at the next turn. -/
def State.replayOne (s : State) (core : Nat) : State :=
  let items := (s.coreAt core).nextEntries
  let s := s.applyAnswers core items
  match items.findSome? (fun x => match x with | .outcome n c w st => some (n, c, w, st) | _ => none) with
  | some (n, c, w, st) =>
    let t := st.foldl (fun t p => t.perform p) s
    let s := (s.confine t core).setCtxOf (.ctx core n) c
    let k := s.coreAt core
    s.setCoreAt core { k with window := w, last := BitVec.ofNat 2 n, dbg := { k.dbg with count := k.dbg.count + 1 } }
  | none =>
    let k := s.coreAt core
    let n := (items.findSome? (fun x => match x with | .issue n => some n | _ => none)).getD k.last.toNat
    let s := s.setCtxOf (.ctx core n) (s.ctxOf (.ctx core n)).reissue
    let s := s.setCoreAt core { k with last := BitVec.ofNat 2 n, dbg := { k.dbg with stepping := true } }
    { s with agenda := .issue (.ctx core n) :: s.agenda }

end Sys2Proof.Machine
end

