-- ==== Sys2Proof/Machine/Debug.lean ====
section
/-! DEFINITION. Stops and resumes, BRK interception, reads and writes at a stop, snapshots and replay as the debug port asks
for them (R370 to R376, R383). -/

namespace Sys2Proof.Machine

/-! ### Stops (R370 to R372) -/

/-- An engine of a run's cores still works at a command (R371). -/
def State.enginesBusy (s : State) (r : Run) : Bool :=
  (s.runCores r).any (fun k =>
    (s.coreAt k).run == some r.id.toNat && !((s.coreAt k).u.copy.fifo.isEmpty && (s.coreAt k).u.epi.fifo.isEmpty))

/-- The IDLE of every context of a run's core is over (R313). -/
def State.endIdle (s : State) (run core : Nat) : State :=
  if (s.coreAt core).run = some run then
    (coreAgents core).foldl (fun s a =>
      let c := s.ctxOf a
      if c.idle.isSome then s.setCtxOf a { c with idle := none } else s) s
  else s

/-- STOP_REQUEST (R370, R371): merged with a stop that stands or is pending; "engines busy" at a stop whose engines still
work. -/
def execStopRequest (run level : Nat) (s : State) : Host.Outcome State Fault Refusal :=
  debugAction false s (fun s =>
    match s.run? run with
    | none => s.reply .ended
    | some r =>
      if r.ending.isSome then s.reply .ended
      else if r.domain.level.toNat < level then s.reply .refused
      else if r.dbg.stoppedAt.isSome then s.reply (if s.enginesBusy r then .busy else .done)
      else if r.dbg.stopLevel.isSome then s.reply .done
      else
        let s := (s.runCores r).foldl (fun s k => (s.wake k).endIdle run k) s
        (s.updRun run (fun r => { r with dbg := { r.dbg with stopLevel := some (BitVec.ofNat 3 level) } })).reply .done)

/-- A core of a run goes on after a stop: where the close that took it was the core's own, its compute phase begins as R302
states, or, where its share of the run is saved, once it is restored (R305, R371). -/
def State.goOn (s : State) (run core : Nat) : State :=
  let k := s.coreAt core
  if k.run = some run && k.stopped then
    let s := (s.setCoreAt core { k with stopped := false, closed := none }).wake core
    match k.closed with | some l => s.beginPhase core l | none => s
  else
    match k.saved with
    | some sv =>
      if sv.run = run && sv.wasStopped then
        s.setCoreAt core { k with saved := some { sv with wasStopped := false, closed := none, phase := if sv.closed.isSome then .compute else sv.phase } }
      else s
    | none => s

/-- A context held at a BRK continues at PC + 4 (R372). -/
def State.resumeHeld (s : State) (a : Agent) : State :=
  let c := s.ctxOf a
  let t := match agentCore a with | some k => s.wake k | none => s
  if c.held then (t.setCtxOf a { c with held := false, susp := none, pc := seqPc c.pc 1 }).reply .done else s.reply .refused

/-- DEBUG_RESUME (R370, R372): of a stopped run, or of a held context of it. -/
def execDebugResume (run : Nat) (held : Option Agent) (s : State) : Host.Outcome State Fault Refusal :=
  debugAction false s (fun s =>
    match s.run? run, held with
    | none, _ => s.reply .ended
    | some r, some a =>
      if (match agentCore a with | some k => (s.coreAt k).run == some r.id.toNat | none => false) then s.resumeHeld a
      else s.reply .refused
    | some r, none =>
      if r.ending.isSome then s.reply .ended
      else if r.state = .preempted then s.reply .preempted
      else if (s.runCores r).any (fun k => (s.coreAt k).dbg.replaying) then s.reply .busy
      else
        let s := s.updRun run (fun r =>
          { r with state := if r.state = .stopped then .running else r.state, dbg := { r.dbg with stopLevel := none, stoppedAt := none } })
        ((s.runCores r).foldl (fun s k => s.goOn run k) s).reply .done)

/-- BRK_INTERCEPTION (R372). -/
def execBrkInterception (run : Nat) (armed : Bool) (s : State) : Host.Outcome State Fault Refusal :=
  debugAction false s (fun s =>
    match s.run? run with
    | none => s.reply .ended
    | some r => (((s.runCores r).foldl State.wake s).updRun run (fun r => { r with dbg := { r.dbg with brk := armed } })).reply .done)

/-! ### Reading and writing at a stop (R373, R383) -/

/-- The core a target names. -/
def targetCore : DebugTarget → Option Nat
  | .g core _ _ | .w core _ | .c core _ _ | .v core _ _ _ | .m core _ _ _ | .vw core _ _ | .sysreg core _ _ | .pc core _
  | .localMem core _ | .galley core _ _ | .unit core _ | .bank core _ _ | .barrier core _ | .special core _ _ | .capMark core _ _
  | .granuleMark core _ | .unitMark core _ | .coreState core _ => some core
  | .device _ | .status | .errorLog _ _ | .commandHart _ | .traceUnit _ | .counters _ _ | .colophon _ _ | .firmware _ => none
/-- The context slot a target names, for a context held at a BRK (R372). -/
def targetSlot : DebugTarget → Option Nat
  | .g _ slot _ | .c _ slot _ | .v _ slot _ _ | .m _ slot _ _ | .vw _ slot _ | .sysreg _ slot _ | .pc _ slot
  | .special _ slot _ | .capMark _ slot _ => some slot
  | _ => none
/-- A window-file entry lies in the part that WALLOC gives a slot (R198). -/
def State.ownsEntry (s : State) (core slot entry : Nat) : Bool :=
  let x := wallocSpan ((s.coreAt core).walloc[slot % 4]'(by omega))
  x.1 ≤ entry && entry < x.2
/-- A target's core stands at a stop, or its context, of a w the one that owns it, is held at a BRK (R372, R373). -/
def State.readable (s : State) (t : DebugTarget) (core : Nat) : Bool :=
  let held (n : Nat) : Bool := (s.ctxOf (.ctx core n)).held
  (s.coreAt core).stopped || (match targetSlot t, t with
    | some n, _ => held n
    | none, .w _ entry => (List.range 4).any (fun n => held n && s.ownsEntry core n entry)
    | none, _ => false)

/-- FCAP, EFCAP, ESAVE, and then the binding entries of a context. -/
def Ctx.special (c : Ctx) (n : Nat) : BitVec 256 :=
  if n = 0 then c.fcap.bits else if n = 1 then c.efcap.bits else if n = 2 then c.esave.bits
  else
    let b := c.r.bind[(n - 3) % 8]'(by omega)
    (BitVec.ofBool b.v ++ b.base ++ b.limit ++ b.ctr).setWidth 256
/-- The tag of a capability register: c0 to c15, FCAP, EFCAP, ESAVE. -/
def Ctx.capMark (c : Ctx) (n : Nat) : Bool :=
  if n < 16 then (c.r.c[n % 16]'(by omega)).tag else if n = 16 then c.fcap.tag else if n = 17 then c.efcap.tag else c.esave.tag
/-- The tag of a weight-buffer unit and its cause: 0 empty, 1 a plane with P and k, 2 raw (R254). -/
def WUnit.mark (u : WUnit) : Nat :=
  2 ^ 24 * u.cause.toNat + (match u.tag with | .empty => 0 | .plane p k => 1 + 2 ^ 8 * p + 2 ^ 16 * k | .raw => 2)
/-- The value of a target. -/
def State.debugValue (s : State) : DebugTarget → BitVec 256
  | .g core slot n => ((s.ctxOf (.ctx core slot)).r.g[n % 32]'(by omega)).setWidth 256
  | .w core entry => (Sparse.get 0 (s.coreAt core).window entry).setWidth 256
  | .c core slot n => ((s.ctxOf (.ctx core slot)).r.c[n % 16]'(by omega)).bits
  | .v core slot n byte => ((s.ctxOf (.ctx core slot)).r.v[n % 8]'(by omega)).extractLsb' (8 * byte) 256
  | .m core slot n part => ((s.ctxOf (.ctx core slot)).r.m[n % 4]'(by omega)).extractLsb' (256 * part) 256
  | .vw core slot n => ((s.ctxOf (.ctx core slot)).r.vw[n % 4]'(by omega)).setWidth 256
  | .sysreg core slot num => (({ s with cur := .ctx core slot }).sysGet num).setWidth 256
  | .pc core slot => (s.ctxOf (.ctx core slot)).pc.setWidth 256
  | .localMem core granule => BitVec.ofNat 256 (leNat (s.bytesAt (localBase core + 32 * (granule % 2 ^ 15)) 32))
  | .galley core slot index => BitVec.ofInt 256 (Sparse.get 0 (s.coreAt core).u.mx.galley.acc (slot * 32 * 128 + index))
  | .unit core n => ((s.coreAt core).u.mx.unit n).data
  | .bank core n index =>
    let b := (s.coreAt core).u.mx.bankAt (n % 2 = 1)
    BitVec.ofInt 256 (if index < 2 ^ 14 then Sparse.get 0 b.w index else Sparse.get 0 b.e (index - 2 ^ 14))
  | .barrier core n => ((s.coreAt core).barrier n).word.setWidth 256
  | .device addr => BitVec.ofNat 256 (leNat (s.bytesAt (addr / 32 * 32) 32))
  | .status => ((s.dev.unit ++ s.dev.code ++ (0 : BitVec 37) ++ s.dev.stage : BitVec 64)).setWidth 256
  | .errorLog die k =>
    match (s.die die).log[k]? with
    | some x => x.w3 ++ x.w2 ++ x.w1 ++ x.w0
    | none => 0
  | .special core slot n => (s.ctxOf (.ctx core slot)).special n
  | .traceUnit die =>
    let t := (s.die die).trace
    BitVec.ofNat 256 (t.index + 2 ^ 64 * t.lost + (if t.preempted then 2 ^ 128 else 0))
  | .counters core n =>
    let b := (s.coreAt core).perf
    (if n < 8 then b.pmc[n % 8]'(by omega) else b.ctl).setWidth 256
  | .colophon place part => BitVec.ofNat 256 (leNat (s.bytesAt (place + 32 * (part % 4)) 32))
  | .commandHart hart =>
    let h := s.hart hart
    BitVec.ofNat 256 (h.level + (if h.halted then 256 else 0) + 2 ^ 64 * (h.pc % 2 ^ 64))
  | .capMark core slot n => (BitVec.ofBool ((s.ctxOf (.ctx core slot)).capMark n)).setWidth 256
  | .granuleMark core granule =>
    let a := localBase core + 32 * (granule % 2 ^ 15)
    BitVec.ofNat 256 ((if s.tagAt a then 1 else 0) + if s.poisonAt a then 2 else 0)
  | .unitMark core n => BitVec.ofNat 256 ((s.coreAt core).u.mx.unit n).mark
  | .coreState core granule =>
    match ({ s with cur := .ctx core 0 }.coreGranules core)[granule % 256]? with
    | some x => if granule < 256 then BitVec.ofNat 256 (leNat x.1) else (BitVec.ofBool x.2).setWidth 256
    | none => 0
  | .firmware offset => BitVec.ofNat 256 (leNat (s.readBytes (Config.fwPlace + offset) 32))

/-- A target beside a core's state is there to be read: memory that exists, a bank that the hypervisor holds, a colophon
that was written (R377, R380, R383). -/
def State.present (s : State) : DebugTarget → Bool
  | .device addr => s.physOk addr
  | .traceUnit die => die < s.numDies
  | .counters core _ => core < s.numCores && (s.coreAt core).held
  | .colophon place _ => s.dev.colophons.contains place
  | .firmware offset => offset + 32 ≤ 0x10000
  | .commandHart h => h < 4 * s.numCards
  | _ => true
/-- The die that the debug port raises to P for a target beside a core's state (R383). -/
def targetDie : DebugTarget → Option Nat
  | .device addr => some (dieOf addr)
  | .commandHart h => some (2 * (h / 4))
  | .firmware _ => some 0
  | .traceUnit die => some die
  | .counters core _ => some (core / 384)
  | _ => none
/-- That die raised to P. -/
def State.wakeFor (s : State) (t : DebugTarget) : State := match targetDie t with | some d => s.wakeDie d | none => s
/-- What a debug read finds (R373, R383): DEVSTAT, the error log and colophons always, a core's state at a stop, the rest in
VENDOR. -/
def State.debugRead (s : State) (t : DebugTarget) : State :=
  match targetCore t with
  | some core =>
    if core < s.numCores && s.readable t core && (match t with | .sysreg _ _ n => (sysWriteBy n).isSome | _ => true) then
      (s.wake core).reply (.value (s.debugValue t))
    else s.reply .refused
  | none => if s.present t then (s.wakeFor t).reply (.value (s.debugValue t)) else s.reply .refused

/-- DEBUG_READ (R373, R383). -/
def execDebugRead (t : DebugTarget) (s : State) : Host.Outcome State Fault Refusal :=
  match t with
  | .status | .errorLog _ _ | .colophon _ _ => .next (s.debugRead t)
  | .device _ | .commandHart _ | .firmware _ => debugAction true s (fun s => s.debugRead t)
  | _ => debugAction false s (fun s => s.debugRead t)

/-- A context with a piece of its registers written; tags are never set (R373). -/
def Ctx.debugWrite (c : Ctx) (t : DebugTarget) (x : BitVec 256) : Ctx :=
  match t with
  | .g _ _ n => c.setG (BitVec.ofNat 5 n) (x.setWidth 64)
  | .c _ _ n => c.setC (BitVec.ofNat 4 n) (Cap.ofBits x false)
  | .v _ _ n byte =>
    let old := c.r.v[n % 8]'(by omega)
    let m := ((BitVec.allOnes 256).setWidth 16384) <<< (8 * byte)
    c.setV (BitVec.ofNat 3 n) ((old &&& ~~~m) ||| (x.setWidth 16384 <<< (8 * byte)))
  | .m _ _ n part =>
    let old := c.r.m[n % 4]'(by omega)
    let m := ((BitVec.allOnes 256).setWidth 2048) <<< (256 * part)
    { c with r := { c.r with m := c.r.m.set (n % 4) ((old &&& ~~~m) ||| (x.setWidth 2048 <<< (256 * part))) (by omega) } }
  | .vw _ _ n => { c with r := { c.r with vw := c.r.vw.set (n % 4) (x.setWidth 64) (by omega) } }
  | .sysreg _ _ num =>
    if num = 0x008 then { c with sr := { c.sr with fcsr := x.setWidth 64 &&& 0x2F7 } }
    else if num = 0x009 then { c with sr := { c.sr with vprog := x.setWidth 16 } } else c
  | .pc _ _ => { c with pc := x.setWidth 64, resumed := true }
  | _ => c

/-- The targets a debug write may name (R373): g, c without its tag, w, v, m, vw, FCSR, VPROG, PC and local memory. -/
def writable : DebugTarget → Bool
  | .g _ _ _ | .c _ _ _ | .w _ _ | .v _ _ _ _ | .m _ _ _ _ | .vw _ _ _ | .pc _ _ | .localMem _ _ => true
  | .sysreg _ _ num => num = 0x008 || num = 0x009
  | _ => false
/-- The targets a debug write may name at a BRK (R372): g, w, v, m, FCSR and PC. -/
def writableHeld : DebugTarget → Bool
  | .g _ _ _ | .w _ _ | .v _ _ _ _ | .m _ _ _ _ | .pc _ _ => true
  | .sysreg _ _ num => num = 0x008
  | _ => false

/-- What a debug write of a core's state does (R373, R57). -/
def State.debugWrite (s : State) (t : DebugTarget) (core : Nat) (x : BitVec 256) : State :=
  match t with
  | .w _ entry => s.setCoreAt core { s.coreAt core with window := Sparse.put 0 (s.coreAt core).window (entry % 1024) (x.setWidth 32) }
  | .localMem _ granule => s.writeHome (localBase core + 32 * (granule % 2 ^ 15)) (leBytes 32 x.toNat)
  | _ =>
    match targetSlot t with
    | some n => s.setCtxOf (.ctx core n) ((s.ctxOf (.ctx core n)).debugWrite t x)
    | none => s

/-- A register of a counter bank written (R378, R380). -/
def PerfBank.write (b : PerfBank) (n : Nat) (x : Word) : PerfBank :=
  if n < 8 then { b with pmc := b.pmc.set (n % 8) x (by omega) } else { b with ctl := x &&& 0x00FFFFFFFFFFFFFF }
/-- DEBUG_WRITE (R373, R372, R380, R383): at a stop or a BRK, of a bank that the hypervisor holds; a command hart is halted by
1 and let go by 0, in VENDOR. -/
def execDebugWrite (t : DebugTarget) (value : BitVec 256) (s : State) : Host.Outcome State Fault Refusal :=
  match t with
  | .commandHart h => debugAction true s (fun s =>
      if s.present t then ((s.wakeFor t).setHart h { s.hart h with halted := value.getLsbD 0 }).reply .done else s.reply .refused)
  | .counters core n => debugAction false s (fun s =>
      if s.present t then
        ((s.wakeFor t).setCoreAt core { s.coreAt core with perf := (s.coreAt core).perf.write n (value.setWidth 64) }).reply .done
      else s.reply .refused)
  | _ => debugAction false s (fun s =>
      match targetCore t with
      | some core =>
        if core < s.numCores && s.readable t core && writable t && ((s.coreAt core).stopped || writableHeld t) then
          ((s.wake core).debugWrite t core value).reply .done
        else s.reply .refused
      | none => s.reply .refused)

/-! ### Snapshots and replay (R374, R376) -/

/-- A core's boundary log begins anew. -/
def State.clearLog (s : State) (core : Nat) : State :=
  let k := s.coreAt core
  s.setCoreAt core { k with dbg := { k.dbg with log := [], used := 0 } }
/-- The debug port supplies the regions for a run's snapshots and boundary logs (R374, R375). -/
def State.setRegions (s : State) (run : Nat) (snaps logs : Option Region) : State :=
  let ok (g : Option Region) : Bool := match g with | some g => s.physOk g.base && s.physOk (g.base + g.len - 1) | none => true
  match s.debugRefusal false, s.run? run with
  | some r, _ => s.reply r
  | none, none => s.reply .ended
  | none, some r =>
    if ok snaps && ok logs then
      (((s.runCores r).foldl State.clearLog s).updRun run (fun r => { r with dbg := { r.dbg with snaps := snaps, logs := logs } })).reply .done
    else s.reply .refused
/-- REPLAY_ARM (R374, R375). -/
def execReplayArm (run : Nat) (journal : Bool) (s : State) : Host.Outcome State Fault Refusal :=
  debugAction false s (fun s =>
    match s.run? run with
    | none => s.reply .ended
    | some r =>
      let s := (s.runCores r).foldl (fun s k => (s.wake k).clearLog k) s
      (s.updRun run (fun r => { r with dbg := { r.dbg with replay := true, journal := journal } })).reply .done)

/-- A replay of a core from a snapshot: refused for a core that is not stopped, without a snapshot, or once a weight store was
rewritten (R376). -/
def State.replayOn (s : State) (core : Nat) (source : Option Snapshot) : State :=
  if !(s.coreAt core).stopped || (s.coreAt core).dbg.replaying then s.reply .refused
  else
    match source with
    | none => s.reply .refused
    | some x => if x.rewrites ≠ s.rewrites then s.reply .refused else ((s.wake core).beginReplay x).reply .done
/-- REPLAY (R376): from the last boundary. -/
def execReplay (core : Nat) (s : State) : Host.Outcome State Fault Refusal :=
  debugAction false s (fun s => s.replayOn core (s.replaySource core))
/-- A replay from the boundary (COUNT, core) that the debug port names (R376). -/
def State.replayFrom (s : State) (core : Nat) (count : BitVec 32) : State :=
  match s.debugRefusal false with
  | some r => s.reply r
  | none => s.replayOn core (s.replayOf core count)

/-- REPLAY_STEP (R376): one instruction; the replay ends at the XSYNC of every context. -/
def execReplayStep (core : Nat) (s : State) : Host.Outcome State Fault Refusal :=
  debugAction false s (fun s =>
    let k := s.coreAt core
    if !k.dbg.replaying then s.reply .refused
    else if k.arrived.isSome || (s.liveWaits core).isEmpty then (s.endReplay core).reply .ended
    else (s.replayOne core).reply .done)

/-! ### Command harts (R383) -/

/-- The debug port halts a command hart or lets it go. -/
def State.hartHalt (s : State) (h : Nat) (halt : Bool) : State :=
  match s.debugRefusal true with
  | some r => s.reply r
  | none =>
    if h < 4 * s.numCards then ((s.wakeFor (.commandHart h)).setHart h { s.hart h with halted := halt }).reply .done else s.reply .refused
/-- The debug port steps a halted command hart: it issues once as an agent, and stays halted (log 27). -/
def State.hartStepBy (s : State) (h : Nat) : State :=
  match s.debugRefusal true with
  | some r => s.reply r
  | none =>
    if h < 4 * s.numCards && (s.hart h).halted then
      let t := ((s.wakeFor (.commandHart h)).setHart h { s.hart h with halted := false }).hartStep h
      (t.setHart h { t.hart h with halted := true }).reply .done
    else s.reply .refused

end Sys2Proof.Machine
end

