-- ==== Sys2Proof/Machine/Actions.lean ====
section
/-! DEFINITION. What the host driver, the firmware and the links do besides the rows of the opcode table (R84, R88, R158,
R282, R353, R381). -/

namespace Sys2Proof.Machine

/-- Frames join a tenant's pool: aligned memory that holds nothing of firmware's, no retired page and no frame given before
(R84, R347). -/
def State.grantFrames (s : State) (tenant : Nat) (frames : List Nat) : State :=
  let t := s.tenant tenant
  let taken := s.tenants.flatMap (fun e => e.2.root :: e.2.pool)
  s.setTenant tenant { t with
    pool := t.pool ++ (frames.eraseDups).filter (fun f => s.frameOk? f 65536 && !taken.contains f) }
/-- A range of a tenant is backed on demand (R84). -/
def State.backOnDemand (s : State) (tenant base limit : Nat) : State :=
  let t := s.tenant tenant
  s.setTenant tenant { t with onDemand := (base, limit) :: t.onDemand }
/-- HOST of the leaf entry of a page that is not present (R78, R84). -/
def State.setPageHost (s : State) (tenant va : Nat) (host : Bool) : State :=
  match s.leafPlace tenant va with
  | none => s
  | some (p, t) =>
    let w := t.wordAt p
    if w.getLsbD 63 then s else t.hwWord p (if host then w ||| (1#64 <<< 60) else w &&& ~~~(1#64 <<< 60))
/-- A slice's controller takes k of its sampling interval (R88). -/
def State.setHotInterval (s : State) (die chan : Nat) (k : BitVec 5) : State :=
  if die < s.numDies && decide (chan < 12) && decide (20 ≤ k.toNat) && decide (k.toNat ≤ 30) then
    s.setSlice die chan { s.slice die chan with hotK := k }
  else s
/-- Firmware has read a controller's buffer (R88). -/
def State.readHotList (s : State) (die chan : Nat) : State :=
  if die < s.numDies && decide (chan < 12) then s.setSlice die chan { s.slice die chan with hotFull := false } else s
/-- The host's address translation gives a page of a PASID another page; `State.hostPage` reads it (R393; log 20). -/
def State.setHostMap (s : State) (pasid page place : Nat) : State :=
  if page < 2 ^ 36 && place < 2 ^ 36 then { s with hostMap := Sparse.put 0 s.hostMap (2 ^ 52 * pasid + page) (place + 1) } else s
/-- The contents of SPI flash change (R394); a boot reads them. -/
def State.setFlash (s : State) (x : Flash) : State := { s with dev := { s.dev with flash := x } }

/-- One action. -/
def State.act (s : State) : Action → State
  | .grantFrames tenant frames => s.grantFrames tenant frames
  | .backOnDemand tenant base limit => s.backOnDemand tenant base limit
  | .tenantPasid tenant pasid => s.setTenant tenant { s.tenant tenant with pasid := pasid }
  | .pageHost tenant va host => s.setPageHost tenant va host
  | .guardWrite hart k w => if hart < 4 * s.numCards then s.guardWrite hart k w else s
  | .guardEntry hart level addr => if hart < 4 * s.numCards then s.guardEntry hart level addr else s
  | .enterLevel hart level => if hart < 4 * s.numCards then s.enterLevel hart level else s
  | .resumeCaller hart => if hart < 4 * s.numCards then s.resumeCaller hart else s
  | .dropLevel hart level addr => if hart < 4 * s.numCards then s.dropLevel hart level addr else s
  | .hotInterval die chan k => s.setHotInterval die chan k
  | .readHotList die chan => s.readHotList die chan
  | .microcode _ run kind va => s.giveMicrocode run kind va
  | .sendFlit p i => s.sendFlit p i
  | .takeRequest p => s.takeRequest p
  | .gridRing die base buffers k => s.setGridRing die base buffers k
  | .takeDump die => s.takeDump die
  | .powerCap card watts => s.setCap card watts
  | .migrateRange run k die poff chmask => s.migrateRange run k die poff chmask
  | .draw card watts package => s.setDraw card watts package
  | .barSize card log2 => s.setBar card log2
  | .hostMap pasid page place => s.setHostMap pasid page place
  | .flash x => s.setFlash x
  | .replayRegions run snaps logs => s.setRegions run snaps logs
  | .replayFrom core count => s.replayFrom core count
  | .traceRead die index => s.traceRead die index
  | .traceByHyper die run ring len => s.traceByHyper die run ring len
  | .sampleEvery die k => s.sampleEvery die k
  | .hartHalt hart halt => s.hartHalt hart halt
  | .hartStep hart => s.hartStepBy hart
  | .sweepPart die slice => s.sweepPart die slice

end Sys2Proof.Machine
end

