-- ==== Sys2Proof/Machine/Capability.lean ====
section
/-! DEFINITION. Capability instructions (R49, R53, R62 to R68): moving, reading, narrowing, sealing, slicing, leases and
CENTER. -/

namespace Sys2Proof.Machine

/-! ### Moving and reading -/

/-- A source field: c0 to c15, or fcap with STR1 at the reading instruction (R28, R53). -/
def State.capSrc (s : State) (a : BitVec 5) : Cap := if a = 16 then s.fcapAt s.pc else s.c (a.setWidth 4)

/-- CMOV (R53). -/
def execCmov (d a : BitVec 5) (s : State) : Host.Outcome State Fault Refusal :=
  runInstr (.cmov d a) (step1 fun s => s.setC (d.setWidth 4) (s.capSrc a)) s
/-- CGETB (R62). -/
def execCgetb (d a : BitVec 5) (s : State) : Host.Outcome State Fault Refusal :=
  runInstr (.cgetb d a) (step1 fun s => s.setG d ((s.capSrc a).base.setWidth 64)) s
/-- CGETE (R62). -/
def execCgete (d a k : BitVec 5) (s : State) : Host.Outcome State Fault Refusal :=
  runInstr (.cgete d a k) (step1 fun s => s.setG d (BitVec.ofNat 64 ((s.capSrc a).ext k.toNat))) s
/-- The stride CGETS reads: 1 for dimension 0, the entry offset of CODE zero-extended (R62). -/
def Cap.strideWord (c : Cap) (k : Nat) : Word :=
  if c.fmt.toNat = Fmt.code && k = 1 then c.str1.setWidth 64 else BitVec.ofInt 64 (c.stride k)
/-- CGETS (R62). -/
def execCgets (d a k : BitVec 5) (s : State) : Host.Outcome State Fault Refusal :=
  runInstr (.cgets d a k) (step1 fun s => s.setG d ((s.capSrc a).strideWord k.toNat)) s
/-- CGETF (R62). -/
def execCgetf (d a : BitVec 5) (s : State) : Host.Outcome State Fault Refusal :=
  runInstr (.cgetf d a) (step1 fun s =>
    let c := s.capSrc a
    s.setG d (0#32 ++ c.otype ++ 0#6 ++ c.scope ++ 0#2 ++ c.fmt)) s
/-- CGETP (R62). -/
def execCgetp (d a : BitVec 5) (s : State) : Host.Outcome State Fault Refusal :=
  runInstr (.cgetp d a) (step1 fun s => s.setG d ((s.capSrc a).perm.setWidth 64)) s
/-- CGETL (R62). -/
def execCgetl (d a : BitVec 5) (s : State) : Host.Outcome State Fault Refusal :=
  runInstr (.cgetl d a) (step1 fun s => s.setG d (0#40 ++ (s.capSrc a).gen ++ (s.capSrc a).lease)) s
/-- CTAG (R62). -/
def execCtag (d a : BitVec 5) (s : State) : Host.Outcome State Fault Refusal :=
  runInstr (.ctag d a) (step1 fun s => s.setG d (if (s.capSrc a).tag then 1 else 0)) s
/-- CCLR (R49). -/
def execCclr (d : BitVec 5) (s : State) : Host.Outcome State Fault Refusal :=
  runInstr (.cclr d) (step1 fun s => s.setC (d.setWidth 4) Cap.null) s

/-! ### Narrowing and sealing -/

/-- The checks of every derivation: tagged and unsealed (R62). -/
def derivable (c : Cap) : M Unit := do
  need c.tag 0x08 0
  need (c.otype = 0) 0x0C (c.otype.setWidth 64)

/-- CPERM (R62). -/
def execCperm (d a b : BitVec 5) (s : State) : Host.Outcome State Fault Refusal :=
  runInstr (.cperm d a b) (do
    let s ← get
    let c := s.c (a.setWidth 4)
    derivable c
    step1 (fun t => t.setC (d.setWidth 4) { c with perm := c.perm &&& (s.g b).extractLsb' 0 8 })) s

/-- Allowed(old, new) of CFMT (R62). -/
def fmtAllowed (old new : Nat) : Bool :=
  old = new || (Fmt.isBpi old && Fmt.isBpi new && new ≤ old) || (Fmt.group old ≠ 0 && Fmt.group old = Fmt.group new)

/-- CFMT (R62). -/
def execCfmt (d a b : BitVec 5) (s : State) : Host.Outcome State Fault Refusal :=
  runInstr (.cfmt d a b) (do
    let s ← get
    let c := s.c (a.setWidth 4)
    let new := (s.g b).extractLsb' 0 6
    derivable c
    need (fmtAllowed c.fmt.toNat new.toNat) 0x0E (new.setWidth 64)
    step1 (fun t => t.setC (d.setWidth 4) { c with fmt := new })) s

/-- The checks of a sealer and its first object type (R64). -/
def sealerType (c : Cap) (k : Kind) : M (BitVec 16) := do
  capCheck c k 0 0
  need (1 ≤ c.base.toNat && c.base.toNat ≤ 65535) 0x02 (c.base.setWidth 64)
  pure (c.base.setWidth 16)

/-- CSHUT (R64). -/
def execCshut (d a b : BitVec 5) (s : State) : Host.Outcome State Fault Refusal :=
  runInstr (.cshut d a b) (do
    let s ← get
    let c := s.c (a.setWidth 4)
    let t ← sealerType (s.c (b.setWidth 4)) .SEAL
    derivable c
    step1 (fun s => s.setC (d.setWidth 4) { c with otype := t })) s

/-- COPEN (R64). -/
def execCopen (d a b : BitVec 5) (s : State) : Host.Outcome State Fault Refusal :=
  runInstr (.copen d a b) (do
    let s ← get
    let c := s.c (a.setWidth 4)
    let t ← sealerType (s.c (b.setWidth 4)) .UNSEAL
    need c.tag 0x08 0
    need (c.otype = t) 0x0C (c.otype.setWidth 64)
    step1 (fun s => s.setC (d.setWidth 4) { c with otype := 0 })) s

/-! ### Slicing -/

/-- What a move along dimension `k` by `n` needs: a format with an element size (R50: a reserved code faults on any use,
log 30), and the alignment of R63, else cause 0x18, EVAL `n`; an S4 offset of other dimensions must be even (the CSLICE
entry, which names no EVAL). -/
def moveAligned (c : Cap) (k : Nat) (n : Int) : M Unit := do
  let f := c.fmt.toNat
  need (Sys2Proof.Fmt.defined f) 0x0E (c.fmt.setWidth 64)
  need (!((k = 0 && Fmt.isBpi f && n % 256 ≠ 0) || (k = 0 && f = 0x0F && n % 2 ≠ 0))) 0x18 (evalOf n)
  needOpen (!(k ≠ 0 && f = 0x0F && n * c.stride k % 2 ≠ 0)) 0x18

/-- BASE moved by `n` along dimension `k`, the extent set. -/
def Cap.sliced (c : Cap) (k : Nat) (n : Int) (len : Nat) : Cap := (c.moved (c.byteOffset k n)).withExt k len

/-- A CODE capability cut to `len` lines from line `n` (the CSLICE entry). -/
def Cap.slicedCode (c : Cap) (n : Int) (len : Nat) : Cap :=
  let off : Int := c.str1.toNat - 64 * n
  let off := if off < 0 || 64 * (len : Int) ≤ off then 4 else off
  { c.moved (64 * n) with ext0 := BitVec.ofNat 16 (len - 1), str1 := BitVec.ofInt 32 off }

/-- CSLICE and CSLICEI (R62, R63). -/
def sliceCap (d a : BitVec 4) (k : Nat) (start length : Int) : M (Option Word) := do
  let c := (← get).c a
  derivable c
  need (!(start < 0 || length < 1 || c.ext k < start + length)) 0x09 (BitVec.ofInt 32 length ++ BitVec.ofInt 32 start)
  moveAligned c k start
  if c.fmt.toNat = Fmt.code then do
    need (k = 0) 0x02 (BitVec.ofNat 64 k)
    step1 (fun s => s.setC d (c.slicedCode start length.toNat))
  else step1 (fun s => s.setC d (c.sliced k start length.toNat))

/-- CSLICE (R62). -/
def execCslice (f : CFields) (s : State) : Host.Outcome State Fault Refusal :=
  runInstr (.cslice f) (sliceCap f.cd f.ca (f.imm.extractLsb' 0 2).toNat (s.g f.x).toInt (s.g f.y).toInt) s
/-- CSLICEI (R62). -/
def execCslicei (f : CFields) (s : State) : Host.Outcome State Fault Refusal :=
  runInstr (.cslicei f) (sliceCap f.cd f.ca (f.imm.extractLsb' 30 2).toNat ((f.imm.extractLsb' 0 16).toNat : Int)
    ((f.imm.extractLsb' 16 14).toNat + 1 : Int)) s

/-- CRANK, CSTEP and CFIX are not defined on CODE and SEALER (R62). -/
def shaped (c : Cap) : M Unit := do
  derivable c
  need (c.fmt.toNat ≠ Fmt.code && c.fmt.toNat ≠ Fmt.sealer) 0x0E (c.fmt.setWidth 64)

/-- The part of rank `r` among `n` of an extent `e` in units of `u`: first and end (the CRANK entry). -/
def rankPart (e u n r : Nat) : Nat × Nat :=
  let b := (e + u - 1) / u
  (u * (r * b / n), min e (u * ((r + 1) * b / n)))

/-- CRANK (R62). -/
def execCrank (f : CFields) (s : State) : Host.Outcome State Fault Refusal :=
  runInstr (.crank f) (do
    let s ← get
    let c := s.c f.ca
    let k := (f.imm.extractLsb' 0 2).toNat
    let n := (f.imm.extractLsb' 16 16).toNat
    let r := (s.g f.x).toNat
    shaped c
    need (n ≠ 0) 0x02 0
    need (r < n) 0x09 (s.g f.x)
    let u := if k = 0 && Fmt.isBpi c.fmt.toNat then 256 else if k = 0 && c.fmt.toNat = 0x0F then 2 else 1
    let part := rankPart (c.ext k) u n r
    if part.2 ≤ part.1 then step1 (fun s => s.setC f.cd Cap.null)
    else do
      moveAligned c k part.1
      step1 (fun s => s.setC f.cd (c.sliced k part.1 (part.2 - part.1)))) s

/-- A stride fits its field (R63). -/
def strideFits (c : Cap) (k : Nat) (x : Int) : Bool :=
  (if k = 3 then -(2 ^ 23) ≤ x && x < 2 ^ 23 else -(2 ^ 31) ≤ x && x < 2 ^ 31)
    && (!Fmt.isBpi c.fmt.toNat || x % 256 = 0)

/-- CSTEP (R62). -/
def execCstep (f : CFields) (s : State) : Host.Outcome State Fault Refusal :=
  runInstr (.cstep f) (do
    let c := (← get).c f.ca
    let k := (f.imm.extractLsb' 0 2).toNat
    let n := (f.imm.extractLsb' 16 16).toNat
    shaped c
    needOpen (k ≠ 0 && n ≠ 0) 0x02
    need (strideFits c k (c.stride k * n)) 0x02 (evalOf (c.stride k * n))
    step1 (fun s => s.setC f.cd ((c.withStride k (c.stride k * n)).withExt k ((c.ext k + n - 1) / n)))) s

/-- CFIX (R62). -/
def execCfix (f : CFields) (s : State) : Host.Outcome State Fault Refusal :=
  runInstr (.cfix f) (do
    let s ← get
    let c := s.c f.ca
    let k := (f.imm.extractLsb' 0 2).toNat
    let i := (s.g f.x).toInt
    shaped c
    need (0 ≤ i && i < c.ext k) 0x09 (((s.g f.x).extractLsb' 0 32).setWidth 64)
    moveAligned c k i
    step1 (fun s => s.setC f.cd (c.sliced k i 1))) s

/-! ### Leases -/

/-- The live leases reached from a set through PARENT, in `fuel` rounds (R67). -/
def State.closure (s : State) : Nat → List Nat → List Nat
  | 0, ls => ls
  | fuel + 1, ls =>
    let more := (s.leasesIn 1).filter (fun m => !ls.contains m && ls.contains (s.lease m).parent.toNat)
    if more.isEmpty then ls else s.closure fuel (ls ++ more)
/-- A lease and its descendants, with STATE live (the CFREE entry). -/
def State.liveUnder (s : State) (n : Nat) : List Nat :=
  (s.closure (s.leasesIn 1).length [n]).filter (fun m => (s.lease m).state = 1)

/-- CFREE (R67). Waiters of counters are woken, and those of the freed lease fail at their re-issue (R129). -/
def execCfree (f : CFields) (s : State) : Host.Outcome State Fault Refusal :=
  runInstr (.cfree f) (do
    let s ← get
    let c := s.c f.ca
    derivable c
    need (c.lease ≠ 0 && c.perm.getLsbD 6) 0x0A 0x40
    let n := c.lease.toNat
    need ((s.lease n).state = 1 && (s.lease n).gen = c.gen) 0x0B (c.lease.setWidth 64)
    step1 (fun s =>
      let ls := s.liveUnder n
      let s := (s.revokeAll ls).wakeWatches (fun _ => true)
      s.setG f.x (s.leases.sweepep + (if s.leases.passing then 2 else 1)))) s

/-- The lease CLEASE pops from the head of the free list; none where the list is empty (R66). -/
def State.popLease (s : State) : Option (Nat × State) :=
  let n := s.leases.head
  if n = 0 then none else some (n.toNat, { s with leases := { s.leases with head := (s.lease n.toNat).next } })

/-- A lease becomes live over a range (R67). -/
def State.mintLease (s : State) (n : Nat) (lo hi : Int) (owner parent run : BitVec 16) : State :=
  s.putLease n { s.lease n with
    state := 1, base := BitVec.ofInt 48 lo, limit := BitVec.ofInt 48 hi, owner := owner, parent := parent, run := run }

/-- CLEASE (R62, R67). -/
def execClease (f : CFields) (s : State) : Host.Outcome State Fault Refusal :=
  runInstr (.clease f) (do
    let s ← get
    let c := s.c f.ca
    match s.capFault c .L 0x40 0 0 true with
    | some (cause, eval) => throw (.trap cause eval c.checkNote)
    | none =>
      modify (fun s => s.cacheLease c.lease.toNat)
      let s ← get
      match s.popLease with
      | none => step1 (fun s => (s.setG f.x (BitVec.allOnes 64)).setC f.cd Cap.null)
      | some (m, t) =>
        step1 (fun _ =>
          let s := t.mintLease m c.bounds.1 c.bounds.2 s.ctx.sr.cid c.lease
            (BitVec.ofNat 16 (s.runOf s.cur))
          (s.setC f.cd { c with lease := BitVec.ofNat 16 m, gen := (s.lease m).gen }).setG f.x (BitVec.ofNat 64 m))) s

/-! ### CENTER (R65) -/

/-- The registers that CENTER keeps by a mask. -/
def keepG (g : Vector Word 32) (keep : BitVec 32) : Vector Word 32 :=
  Vector.ofFn (fun i : Fin 32 => if keep.getLsbD i.val && i.val ≠ 0 then g[i] else 0)
/-- c0 to c12 kept by a mask, c13 to c15 set. -/
def keepC (cs : Vector Cap 16) (keep : BitVec 16) (c13 c14 c15 : Cap) : Vector Cap 16 :=
  Vector.ofFn (fun i : Fin 16 =>
    if i.val = 13 then c13 else if i.val = 14 then c14 else if i.val = 15 then c15
    else if keep.getLsbD i.val then cs[i] else Cap.null)

/-- A context's window entries read zero. -/
def State.zeroWindow (s : State) : State :=
  let k := s.core
  s.setCore { k with window := (List.range s.wsize).foldl (fun w i => Sparse.put 0 w (s.wbase + i) 0) k.window }

/-- The effect of CENTER once its checks have passed. -/
def State.enter (s : State) (f : KFields) (nextPc : Word) : State :=
  let c := s.ctx
  let k := s.c f.ck
  let dt := s.c f.dt
  let isret := f.ck = 14 && f.dt = 15
  let rc := { s.fcapAt nextPc with otype := c.sr.cid }
  let rd := { s.c 13 with otype := c.sr.cid }
  let s := s.zeroWindow
  s.setCtx { c with
    fcap := { k with otype := 0 },
    r := { c.r with
      g := keepG c.r.g f.gkeep,
      c := keepC c.r.c f.ckeep { dt with otype := 0 } (if isret then Cap.null else rc) (if isret then Cap.null else rd),
      v := Vector.replicate 8 0, m := Vector.replicate 4 0, vw := Vector.replicate 4 0 },
    sr := { c.sr with cid := k.otype }, zero := 255, clean := 0 }

/-- CENTER (R65, R413): a target outside the footprint it enters faults at its fetch (R20, R22). -/
def execCenter (f : KFields) (s : State) : Host.Outcome State Fault Refusal :=
  runInstr (.center f) (do
    let s ← get
    let k := s.c f.ck
    let dt := s.c f.dt
    need (k.tag && dt.tag) 0x08 0
    need (k.otype ≠ 0 && k.otype = dt.otype) 0x0C (k.otype.setWidth 64)
    need (k.fmt.toNat = Fmt.code) 0x0E (k.fmt.setWidth 64)
    need (s.alive k) 0x0B (k.lease.setWidth 64)
    need (s.alive dt) 0x0B (dt.lease.setWidth 64)
    need (k.perm.getLsbD 4) 0x0A 0x10
    let target : Word := k.base.setWidth 64 + k.str1.setWidth 64
    if k.covers target.toNat then checkTargetM target true
    modify (fun t => t.enter f (seqPc s.pc 3))
    pure (some target)) s

end Sys2Proof.Machine
end

