-- ==== Sys2Proof/Machine/Onar.lean ====
section
/-! DEFINITION. What the host library checks before it makes a launch packet: the version of a native binary (R384), and the
portable Onar form, its operations and the lists it refuses (R387 to R390). -/

namespace Sys2Proof.Machine

/-- The host library launches a native binary of version `major.minor` on this device (R384). -/
def hostLaunches (major minor : Nat) : Bool := major = 3 && minor ≤ 2

/-- An operation of an Onar list (R387). -/
structure OnarOp where
  c : BitVec 10
  b : BitVec 10
  a : BitVec 10
  sat : Bool
  rnd : BitVec 3
  ord : BitVec 2
  scope : BitVec 2
  type : BitVec 6
  sub : BitVec 9
  major : BitVec 6
  len : BitVec 2
  /-- Bits [63:62] and [31] hold 0. -/
  zeros : Bool
  /-- The word that follows a CONST. -/
  literal : Option (BitVec 64)
  deriving DecidableEq, Repr

/-- The fields of an operation's word (R387). -/
def onarOp (w : BitVec 64) (literal : Option (BitVec 64)) : OnarOp :=
  { c := w.extractLsb' 52 10, b := w.extractLsb' 42 10, a := w.extractLsb' 32 10, sat := w.getLsbD 30,
    rnd := w.extractLsb' 27 3, ord := w.extractLsb' 25 2, scope := w.extractLsb' 23 2, type := w.extractLsb' 17 6,
    sub := w.extractLsb' 8 9, major := w.extractLsb' 2 6, len := w.extractLsb' 0 2,
    zeros := w.extractLsb' 62 2 == 0 && !w.getLsbD 31, literal := literal }

/-- The Onar-only operations (R388). -/
inductive OnarOnly where
  | param | const | label | br | jump | merge | back
  deriving DecidableEq, Repr

/-- The Onar-only operation that an operation is; none for a native or a reserved one (R388). -/
def OnarOp.only (x : OnarOp) : Option OnarOnly :=
  if x.len ≠ 3 then none
  else
    match x.major.toNat with
    | 0 => some .param | 1 => some .const | 2 => some .label | 3 => some .br | 4 => some .jump | 5 => some .merge
    | 6 => some .back | _ => none

/-- The operations of a list's words: the word after a CONST is its literal and no operation (R388). -/
def onarOps : List (BitVec 64) → List OnarOp
  | [] => []
  | [w] => [onarOp w none]
  | w :: x :: rest =>
    if (onarOp w none).only = some .const then onarOp w (some x) :: onarOps rest else onarOp w none :: onarOps (x :: rest)

/-- The words of the native instruction that an operation names, its operand fields 0: SUB stands where the format has its
fn9, fn5 or fn4, of the 64-bit major 8 its group and fn9b (R27, R387). -/
def OnarOp.native (x : OnarOp) : List Parcel :=
  let sub : Parcel := x.sub.setWidth 32
  let head : Parcel := x.major.setWidth 32 <<< 2 ||| x.len.setWidth 32
  let m := x.major.toNat
  let place : Nat :=
    if x.len = 0 then (if m = 18 || m = 20 then 18 else if m = 7 then 24 else 23)
    else if x.len = 1 then (if m = 0 || m = 10 || m = 14 then 23 else if m = 7 then 26 else 22)
    else 20
  let bare : Bool := (x.len = 0 && 1 ≤ m && m ≤ 16 && m ≠ 7) || (x.len = 2 && m ≠ 1)
  if x.len = 1 && m = 8 then
    [head ||| ((x.sub.extractLsb' 5 4).setWidth 32 <<< 23), (x.sub.extractLsb' 0 5).setWidth 32 <<< 15, 0]
  else [if bare then head else head ||| sub <<< place, 0, 0]

/-- A register that a launch fills: g0 to g31, c0 to c15 (R306, R388). -/
inductive LaunchReg where
  | g (n : BitVec 5)
  | c (n : BitVec 4)
  deriving DecidableEq, Repr
/-- The launch register that SUB of a PARAM names; none beyond c15 (R388). -/
def OnarOp.param (x : OnarOp) : Option LaunchReg :=
  let n := x.sub.toNat
  if n < 32 then some (.g (BitVec.ofNat 5 n)) else if n < 48 then some (.c (BitVec.ofNat 4 (n - 32))) else none

/-- The bits that SUB has in a native format: fn9, fn5, fn4, the kind of a shift, or the group and fn9b; 0 where the format has
no sub-code (R27, R387). -/
def OnarOp.subBits (x : OnarOp) : Nat :=
  let m := x.major.toNat
  if x.len = 0 then (if m = 7 then 2 else if m = 18 || m = 20 then 4 else if 1 ≤ m && m ≤ 16 then 0 else 9)
  else if x.len = 1 then (if m = 8 || m = 0 || m = 10 || m = 14 then 9 else 5)
  else (if m = 1 then 5 else 0)
/-- An operation names an encoding that this version assigns and that is no legacy one, or is an Onar-only one; a sub-code that
its format cannot hold, and a PARAM beyond c15, name none (R387 to R389; log 68). -/
def OnarOp.assigned (x : OnarOp) : Bool :=
  if x.len = 3 then x.only.isSome && (x.only ≠ some .param || x.param.isSome)
  else
    !(40 ≤ x.major.toNat && x.major.toNat ≤ 47) &&
      (x.subBits = 0 || x.sub.toNat < 2 ^ x.subBits) && (match decode x.native with
        | .ok _ | .error .operand => true
        | .error _ => false)

/-- A native store: ST, STC, STW, VST, VSCATTER. -/
def OnarOp.store (x : OnarOp) : Bool :=
  x.len = 1 && ((x.major = 1 && (x.sub = 1 || x.sub = 3 || x.sub = 6)) || (x.major = 9 && (x.sub = 1 || x.sub = 3)))
/-- An operation has a result that a distance may name (R389). -/
def OnarOp.hasResult (x : OnarOp) : Bool :=
  !x.store && (match x.only with
    | some .label | some .br | some .jump | some .back => false
    | _ => true)
/-- Distance `k` from operation `i` names an operation of the list that has a result; 0 names none (R387, R389). -/
def distanceOk (ops : List OnarOp) (i : Nat) (k : BitVec 10) : Bool :=
  k = 0 || (decide (k.toNat ≤ i) && ((ops[i - k.toNat]?).any OnarOp.hasResult))
/-- The operation whose result a distance of operation `i` names; 0: none (R387). -/
def operand (i : Nat) (k : BitVec 10) : Option Nat := if k = 0 then none else some (i - k.toNat)
/-- What an operand is to its operation (R388). -/
inductive OnarRole where
  /-- Register operands of a native operation, in order. -/
  | source (n : Nat)
  /-- Of a memory operation: the capability, index0, the stored value. -/
  | capability | index | stored
  /-- The condition of BR, a MERGE's first value, the MERGE that BACK feeds and the next value it gives. -/
  | condition | first | merge | next
  deriving DecidableEq, Repr
/-- A memory operation: an access, an atomic, a vector access (R32, R388). -/
def OnarOp.memory (x : OnarOp) : Bool := x.len = 1 && (x.major = 1 || x.major = 2 || x.major = 9)
/-- The operands of operation `i`, each with its role (R388). -/
def OnarOp.operands (x : OnarOp) (i : Nat) : List (OnarRole × Nat) :=
  let take (r : OnarRole) (k : BitVec 10) : List (OnarRole × Nat) := ((operand i k).map (fun n => (r, n))).toList
  match x.only with
  | some .br => take .condition x.a
  | some .merge => take .first x.a
  | some .back => take .merge x.a ++ take .next x.b
  | some _ => []
  | none =>
    if x.memory then take .capability x.a ++ take .index x.b ++ take .stored x.c
    else take (.source 0) x.a ++ take (.source 1) x.b ++ take (.source 2) x.c
/-- The first operation that carries label `n` (R388). -/
def labelAt (ops : List OnarOp) (n : BitVec 9) : Option Nat :=
  (List.range ops.length).find? (fun i => match ops[i]? with | some y => y.only = some .label && y.sub = n | none => false)
/-- The operation after operation `i`, where operands read as `value` (R388): BR goes to its label if its operand is not zero,
JUMP always. -/
def onarNext (ops : List OnarOp) (i : Nat) (value : Nat → Word) : Option Nat :=
  match ops[i]? with
  | none => none
  | some x =>
    match x.only with
    | some .jump => labelAt ops x.sub
    | some .br => match operand i x.a with
      | some n => if value n ≠ 0 then labelAt ops x.sub else some (i + 1)
      | none => some (i + 1)
    | _ => some (i + 1)
/-- The values of a list's operations after operation `i`, where it is one of its own (R388): a PARAM's register, a CONST's
literal, a MERGE's first value, and at a BACK the next value of its MERGE. -/
def onarValue (x : OnarOp) (i : Nat) (launch : LaunchReg → Word) (value : Nat → Word) : Nat → Word :=
  let put (k : Nat) (w : Word) : Nat → Word := fun n => if n = k then w else value n
  match x.only with
  | some .param => match x.param with | some r => put i (launch r) | none => value
  | some .const => put i (x.literal.getD 0)
  | some .merge => match operand i x.a with | some k => put i (value k) | none => value
  | some .back => match operand i x.a, operand i x.b with | some m, some k => put m (value k) | _, _ => value
  | _ => value
/-- The list holds the label that a branch names (R389). -/
def labelOk (ops : List OnarOp) (x : OnarOp) : Bool :=
  (x.only ≠ some .br && x.only ≠ some .jump) || ops.any (fun y => y.only = some .label && y.sub = x.sub)

/-- What the host library makes of a list. -/
inductive OnarAnswer where
  | accepted
  /-- The header's version is not the device's. -/
  | version
  /-- The header breaks R387. -/
  | header
  /-- The first offending operation. -/
  | operation (index : Nat)
  deriving DecidableEq, Repr

/-- The header's zero bits hold 0, and it counts the operations of the list (R387). -/
def headerOk (header : BitVec 64) (n : Nat) : Bool :=
  header.extractLsb' 48 16 = 0 && (header.extractLsb' 16 32).toNat = n
/-- The check of an Onar list (R387, R389): a header that breaks R387 is refused as a whole (log 68). -/
def onarCheck (header : BitVec 64) (words : List (BitVec 64)) : OnarAnswer :=
  if header.extractLsb' 8 8 ≠ 3 || 2 < (header.extractLsb' 0 8).toNat then .version
  else
    let ops := onarOps words
    if !headerOk header ops.length then .header else
    let bad (i : Nat) : Bool :=
      match ops[i]? with
      | some x => !(x.zeros && x.assigned && distanceOk ops i x.a && distanceOk ops i x.b && distanceOk ops i x.c && labelOk ops x)
      | none => false
    match (List.range ops.length).find? bad with
    | some i => .operation i
    | none => .accepted

/-- The synchronisation operations, across which no access of a translation moves (R390): releases, acquires and volatile
accesses by ORD, and FENCE, XSYNC, the counter, barrier, message, board, imposition and engine operations, EXIT, and a SPAWN that is a release
(R311). -/
def OnarOp.sync (x : OnarOp) : Bool :=
  (x.len = 0 && (x.major = 20 || (x.major = 18 && x.sub = 12)))
    || (x.len = 1 && (((x.major = 1 || x.major = 2 || x.major = 9) && x.ord ≠ 0)
        || x.major = 3 || (x.major = 4 && x.sub ≠ 4) || x.major = 5 || x.major = 6 || x.major = 11
        || (x.major = 13 && x.sub = 0 && x.ord = 1)))
/-- A translation may widen a scope and never narrows one (R390). -/
def scopeKept (listed emitted : BitVec 2) : Bool := listed ≤ emitted

end Sys2Proof.Machine
end

