-- ==== Sys2Proof/Machine/Binary.lean ====
section
/-! DEFINITION. Loading and unloading a binary (R46, R71, R384, R400, R403 to R405): its version, its sections, their leases and
pages, its capability constants. -/

namespace Sys2Proof.Machine

/-! ### Sections (R403) -/

/-- A multiple of 64 KiB, at least `n`. -/
def roundPage (n : Nat) : Nat := (n + 65535) / 65536 * 65536
/-- End of a section's last page, and its end. -/
def sectionEnd (x : Section) : Nat := x.va + x.bytes.length
/-- A section stands at 64 KiB boundaries, in region 0b00 and in memory that exists. -/
def State.sectionOk (s : State) (x : Section) : Bool :=
  x.va % 65536 = 0 && x.pa % 65536 = 0 && sectionEnd x ≤ Config.fwBase && x.bytes.length ≠ 0 && x.bytes.length ≤ 2 ^ 33
    && s.physOk x.pa && s.physOk (x.pa + x.bytes.length - 1) && !isWeightStore x.pa && x.lease ≠ 0 && x.lease < 65536
    && (x.pa + roundPage x.bytes.length ≤ Config.fwFrame || Config.fwFrameEnd ≤ x.pa)
    && s.dev.retired.all (fun p => p + 65536 ≤ x.pa || x.pa + roundPage x.bytes.length ≤ p) && (s.lease x.lease).state = 0
/-- .data sections in source order: each begins at the next 64 KiB boundary after the end of the one before it (R403). -/
def sectionsApart : List Section → Bool
  | x :: y :: rest => roundPage (sectionEnd x) = y.va && sectionsApart (y :: rest)
  | _ => true
/-- Two sections have a lease, a virtual page or a page of memory in common. -/
def sectionsMeet (x y : Section) : Bool :=
  x.lease == y.lease || (x.va < roundPage (sectionEnd y) && y.va < roundPage (sectionEnd x)) || (x.pa < roundPage (y.pa + y.bytes.length) && y.pa < roundPage (x.pa + x.bytes.length))
/-- No two sections meet. -/
def sectionsDisjoint : List Section → Bool
  | [] => true
  | x :: rest => !rest.any (sectionsMeet x) && sectionsDisjoint rest

/-- Lease `m` leaves the free list behind entry `prev`, or behind one of the `fuel` entries after it (R66). -/
def State.unlinkLease (s : State) (m : Nat) : Nat → Nat → State
  | 0, _ => s
  | fuel + 1, prev =>
    let n := (s.lease prev).next.toNat
    if n = m then s.putLease prev { s.lease prev with next := (s.lease m).next }
    else if n = 0 then s
    else s.unlinkLease m fuel n
/-- Lease `m` leaves the free list (R66; log 10). -/
def State.takeLease (s : State) (m : Nat) : State :=
  if s.leases.head.toNat = m then { s with leases := { s.leases with head := (s.lease m).next } }
  else if s.leases.head = 0 then s
  else s.unlinkLease m 65536 s.leases.head.toNat

/-- A tenant without tables gets a root and frames from the top of die 0's last channel, or of what reduced service offers; a
retired page is none of them (R347; log 15). -/
def State.openTenant (s : State) (t : Nat) : State :=
  if (s.tenants.any (fun e => e.1 == t)) then s
  else
    let top := if s.reduced then 0x6000000 else 11 * 2 ^ 33 + 0x1E0000000
    let base := top - 2 ^ 21 * (s.tenants.length + 1)
    let frames := ((List.range 32).map (fun i => base + 65536 * i)).filter (fun f => !s.dev.retired.contains f)
    s.setTenant t { Tenant.reset with root := frames.headD base, pool := frames.tail }

/-- A page of a section mapped with R, W and X (R78; log 29); none where no frame is left for a table, or the page is
mapped elsewhere. -/
def State.mapPage (s : State) (t va pa : Nat) : Option State :=
  match s.mapped t va with
  | some q => if q = pa then some s else none
  | none => (s.leafPlace t va).map (fun r => r.2.hwWord r.1 (0xCE00000000000000#64 ||| BitVec.ofNat 64 pa))
/-- `n` pages mapped. -/
def State.mapPages (s : State) (t va pa : Nat) : Nat → Option State
  | 0 => some s
  | n + 1 =>
    match s.mapPage t va pa with
    | some u => u.mapPages t (va + 65536) (pa + 65536) n
    | none => none

/-- A range's lines leave their slices, their dirty sectors written back (R404). -/
def State.dropL2 (s : State) (a n : Nat) : State :=
  (List.range ((a + n + 255) / 256 - a / 256)).foldl (fun s i =>
    let p := 256 * (a / 256 + i)
    let k := s.sliceOf p
    let l := s.slice k.1 k.2
    match l.find (l2Set p) (p / 256) with
    | some w => s.setSlice k.1 k.2 (l.evict (l2Set p) w)
    | none => s) s
/-- A section placed: its pages mapped, its lease minted with RUN 0, its bytes written by accesses that do not allocate: no
line of it is in a slice (R403, R404). -/
def State.placeSection (s : State) (t : Nat) (x : Section) : Option State :=
  (s.mapPages t x.va x.pa (roundPage x.bytes.length / 65536)).map (fun u =>
    let u := (u.takeLease x.lease).mintLease x.lease x.va (sectionEnd x) 0 (BitVec.ofNat 16 x.lease) 0
    let u := if u.reduced then u else u.dropL2 x.pa x.bytes.length
    let u := if x.data then u.setTenant t { u.tenant t with data := (x.lease, x.va, x.bytes.length) :: (u.tenant t).data } else u
    (u.writeHome x.pa x.bytes).touchAll x.pa x.bytes.length .firmware true)
/-- Every section placed. -/
def State.placeSections (s : State) (t : Nat) : List Section → Option State
  | [] => some s
  | x :: rest =>
    match s.placeSection t x with
    | some u => u.placeSections t rest
    | none => none

/-! ### Capability constants (R46, R400, R405) -/

/-- The alignment of BASE (R50). -/
def formatAlign (f : Nat) : Nat :=
  if Fmt.isBpi f then 256 else if f = Fmt.board || f = Fmt.code then 64 else if f = Fmt.sealer || f = 0x0F then 1 else Fmt.size f
/-- Strides fit their fields; of a BPI format they are multiples of 256 (R46, R49, R50). -/
def stridesOk (f : Nat) (str : List Int) : Bool :=
  let fits (i n : Nat) : Bool := -(2 ^ (n - 1) : Nat) ≤ str.getD i 0 && str.getD i 0 < (2 ^ (n - 1) : Nat)
  str.length ≤ 3 && fits 0 32 && fits 1 32 && fits 2 24 && (!Fmt.isBpi f || str.all (fun x => x % 256 = 0))
/-- The capability a constant spells under a lease and its generation (R46). -/
def capOfConst (k : CapConst) (base lease : Nat) (gen : BitVec 8) : Cap :=
  let e (i : Nat) : BitVec 16 := BitVec.ofNat 16 (k.ext.getD i 1 - 1)
  let str (i : Nat) : Int := if k.fmt = Fmt.sealer then 0 else k.str.getD i 0
  { tag := true, otype := 0, base := BitVec.ofNat 48 base, ext0 := e 0, ext1 := e 1, ext2 := e 2, ext3 := e 3,
    str1 := BitVec.ofInt 32 (str 0), str2 := BitVec.ofInt 32 (str 1), str3 := BitVec.ofInt 24 (str 2), gen := gen,
    lease := BitVec.ofNat 16 lease, scope := BitVec.ofNat 2 k.scope, perm := BitVec.ofNat 8 k.perm, fmt := BitVec.ofNat 6 k.fmt }
/-- The limits of a sealer (R405). -/
def sealerOk (k : CapConst) : Bool :=
  2 ≤ k.base && k.base + k.ext.getD 0 1 - 1 ≤ 65535 && k.ext.length = 1 && (k.perm = 1 || k.perm = 2 || k.perm = 3) && k.scope = 1
/-- The form of a constant: a format that is assigned, one to four extents, strides that fit. -/
def constOk (k : CapConst) : Bool :=
  !Fmt.reserved k.fmt && k.fmt < 64 && k.perm < 256 && k.scope < 3 && 1 ≤ k.ext.length && k.ext.length ≤ 4
    && k.ext.all (fun e => 1 ≤ e && e ≤ 65536) && (k.fmt = Fmt.sealer || stridesOk k.fmt k.str)
    && (k.fmt ≠ Fmt.code || (k.ext.length = 1 && k.str.length ≤ 1 && 0 ≤ k.str.getD 0 0 && k.str.getD 0 0 % 4 = 0
      && k.str.getD 0 0 < 64 * (k.ext.getD 0 1 : Int)))
/-- A footprint lies in `[lo, hi)` and BASE is aligned (R46). -/
def footprintOk (c : Cap) (lo hi : Nat) : Bool :=
  (lo : Int) ≤ c.bounds.1 && c.bounds.2 ≤ (hi : Int) && c.base.toNat % (max 1 (formatAlign c.fmt.toNat)) = 0

/-- The capability the loader writes for a constant; none where it refuses it (R46, R400, R405). A local one holds an offset of
the .local image, of `n` bytes, under lease 0 at a generation that is dead, so that none but the front end, which mints it for
each core, makes a live capability of it: the model's choice (log 74). -/
def State.constCap (s : State) (xs : List Section) (n : Nat) (k : CapConst) : Option Cap :=
  if !constOk k then none
  else if k.fmt = Fmt.sealer then (if sealerOk k then some (capOfConst k k.base 0 0) else none)
  else if k.scope = 0 then
    let c := capOfConst k k.base 0 (BitVec.allOnes 8)
    if footprintOk c 0 n then some c else none
  else
    match xs.find? (fun x => x.va ≤ k.base && k.base < sectionEnd x) with
    | none => none
    | some x =>
      let c := capOfConst k k.base x.lease (s.lease x.lease).gen
      if footprintOk c x.va (sectionEnd x) then some c else none

/-- A constant written at its 32-byte place in its section; none where the load fails. -/
def State.placeConst (s : State) (xs : List Section) (n : Nat) (k : CapConst) : Option State :=
  match s.constCap xs n k, xs.find? (fun x => x.va ≤ k.addr && k.addr + 32 ≤ sectionEnd x) with
  | some c, some x => if k.addr % 32 = 0 then some (s.writeCap (x.pa + (k.addr - x.va)) c) else none
  | _, _ => none
/-- Every constant written. -/
def State.placeConsts (s : State) (xs : List Section) (n : Nat) : List CapConst → Option State
  | [] => some s
  | k :: rest =>
    match s.placeConst xs n k with
    | some u => u.placeConsts xs n rest
    | none => none

/-- A load as a whole; none where it fails. -/
def State.loadBinary (s : State) (b : BinaryImage) : Option State :=
  if b.localLen ≤ 2 ^ 20 && b.sections.all s.sectionOk && sectionsApart (b.sections.filter Section.data) && sectionsDisjoint b.sections then
    match (s.openTenant b.tenant).placeSections b.tenant b.sections with
    | some u => u.placeConsts b.sections b.localLen b.caps
    | none => none
  else none

/-- The version that the host library reports to its caller, for a binary that it does not launch (R384). -/
def reportedVersion (b : BinaryImage) : Option (Nat × Nat) :=
  if hostLaunches b.version.1 b.version.2 then none else some b.version
/-- BINARY_LOAD (R46, R384, R403 to R405): all of it, or nothing; nothing of a version that is reported. -/
def execBinaryLoad (b : BinaryImage) (s : State) : Host.Outcome State Fault Refusal :=
  .next (match reportedVersion b with | some _ => s | none => (s.loadBinary b).getD s)

/-- BINARY_UNLOAD (R71): the leases minted for its sections are revoked. -/
def execBinaryUnload (leases : List Nat) (s : State) : Host.Outcome State Fault Refusal :=
  let s : State := { s with
    tenants := s.tenants.map (fun p => (p.1, { p.2 with data := p.2.data.filter (fun x => !leases.contains x.1) })) }
  .next (s.revokeAll ((leases.eraseDups).filter (fun n =>
    let e := s.lease n
    n ≠ 0 && e.state = 1 && e.run = 0 && e.parent.toNat == n)))

/-! ### A run's first instruction (R404) -/

/-- No line of a tenant's .data sections stays in a slice (R404). -/
def State.dropData (s : State) (tenant : Nat) : State :=
  (s.tenant tenant).data.foldl (fun s x =>
    (List.range ((x.2.2 + 65535) / 65536)).foldl (fun s i =>
      match s.mapped tenant (x.2.1 + 65536 * i) with
      | some pa => s.dropL2 pa 65536
      | none => s) s) s

end Sys2Proof.Machine
end

