-- ==== Sys2Proof/Machine/Float.lean ====
section
/-! DEFINITION. Window floating point, short and long forms (R218 to R220). -/

namespace Sys2Proof.Machine

/-- The format code of the F of an instruction: FP64 or FP32. -/
def fpFmt (dbl : Bool) : Nat := if dbl then 0x0C else 0x0B
/-- A short form as its long form with offsets 0 (R200). -/
def shortF (dbl : Bool) (d a b : BitVec 5) : FFields := { dbl := dbl, d := d, a := a, b := b, od := 0, oa := 0, ob := 0 }
/-- The window number of operand d, a or b. -/
def State.wd (s : State) (f : FFields) : Int := s.winNum f.d f.od.toInt
/-- The window number of operand a. -/
def State.wa (s : State) (f : FFields) : Int := s.winNum f.a f.oa.toInt
/-- The window number of operand b. -/
def State.wb (s : State) (f : FFields) : Int := s.winNum f.b f.ob.toInt

/-- Checks 2 and 3 of R218 on window operands in order, each with whether it holds an FP64 value. -/
def checkWins (l : List (Int × Bool)) : M Unit := do
  l.forM (fun x => if x.2 then winEven x.1 else pure ())
  l.forM (fun x => winCheck x.1 x.2)

/-- The value of a window operand. -/
def State.winVal (s : State) (n : Int) (dbl : Bool) : FVal := (floatFmt (fpFmt dbl)).unpack (s.winBits n dbl)

/-- w[d] := Round(op(a, b)) (R218): FADD, FSUB, FMUL, FDIV. -/
def fpArith (i : Instr) (f : FFields) (op : Mode → FVal → FVal → FX × Flags) : M (Option Word) := do
  let s ← get
  checkWins [(s.wd f, f.dbl), (s.wa f, f.dbl), (s.wb f, f.dbl)]
  let mode ← modeOf 7 i.p0
  let r := op mode (s.winVal (s.wa f) f.dbl) (s.winVal (s.wb f) f.dbl)
  let x := floatTail (fpFmt f.dbl) mode false r.1
  step1 (fun t => (t.setWinBits (s.wd f) f.dbl x.1).setFlags (r.2.join x.2))

/-- w[d] := Round(a × b + d), one rounding (R218). -/
def fpFma (i : Instr) (f : FFields) : M (Option Word) := do
  let s ← get
  checkWins [(s.wd f, f.dbl), (s.wa f, f.dbl), (s.wb f, f.dbl)]
  let mode ← modeOf 7 i.p0
  let r := fmaF mode (s.winVal (s.wa f) f.dbl) (s.winVal (s.wb f) f.dbl) (s.winVal (s.wd f) f.dbl)
  let x := floatTail (fpFmt f.dbl) mode false r.1
  step1 (fun t => (t.setWinBits (s.wd f) f.dbl x.1).setFlags (r.2.join x.2))

/-- w[d] := Round(√a) (R218). -/
def fpSqrt (i : Instr) (f : FFields) : M (Option Word) := do
  let s ← get
  checkWins [(s.wd f, f.dbl), (s.wa f, f.dbl)]
  let mode ← modeOf 7 i.p0
  let r := sqrtF (s.winVal (s.wa f) f.dbl)
  let x := floatTail (fpFmt f.dbl) mode false r.1
  step1 (fun t => (t.setWinBits (s.wd f) f.dbl x.1).setFlags (r.2.join x.2))

/-- FMIN and FMAX (R220). -/
def fpMinMax (f : FFields) (wantMax : Bool) : M (Option Word) := do
  let s ← get
  checkWins [(s.wd f, f.dbl), (s.wa f, f.dbl), (s.wb f, f.dbl)]
  let r := minMaxF wantMax (s.winVal (s.wa f) f.dbl) (s.winVal (s.wb f) f.dbl)
  step1 (fun t => (t.setWinBits (s.wd f) f.dbl ((floatFmt (fpFmt f.dbl)).pack r.1)).setFlags r.2)

/-- g[d] := the truth of a comparison (R220); `quiet`: NV for signalling NaNs only. -/
def fpCompare (f : FFields) (quiet : Bool) (rel : FVal → FVal → Bool) : M (Option Word) := do
  let s ← get
  checkWins [(s.wa f, f.dbl), (s.wb f, f.dbl)]
  let a := s.winVal (s.wa f) f.dbl
  let b := s.winVal (s.wb f) f.dbl
  let fl : Flags := if quiet then opFlags [a, b] else { nv := a.isNan || b.isNan }
  step1 (fun t => (t.setG f.d (if !a.isNan && !b.isNan && rel a b then 1 else 0)).setFlags fl)

/-- The class word of FCLASS (R220). -/
def classWord (f : FloatFmt) (bits : Nat) : Word :=
  let sign := if bits / 2 ^ (f.width - 1) % 2 = 1 then 8 else 0
  match f.unpack bits with
  | .nan sig => BitVec.ofNat 64 (sign + (if sig then 7 else 6))
  | .inf _ => BitVec.ofNat 64 (sign + 3)
  | .fin _ m e =>
    if m = 0 then BitVec.ofNat 64 sign
    else
      let lead := (bitLen m : Int) - 1 + e
      BitVec.ofNat 64 ((BitVec.ofInt 16 lead).toNat * 2 ^ 16 + sign + (if lead < f.emin then 1 else 2))

/-- FCLASS (R220). -/
def fpClass (f : FFields) : M (Option Word) := do
  let s ← get
  checkWins [(s.wa f, f.dbl)]
  step1 (fun t => t.setG f.d (classWord (floatFmt (fpFmt f.dbl)) (s.winBits (s.wa f) f.dbl)))

/-- The bits of a value with its sign cleared or turned; a NaN becomes canonical (R220). -/
def signBits (f : FloatFmt) (negate : Bool) (bits : Nat) : Nat :=
  if (f.unpack bits).isNan then f.pack (.nan false)
  else
    let top := 2 ^ (f.width - 1)
    let low := bits % top
    if negate && bits / top % 2 = 0 then low + top else low

/-- FABS and FNEG (R220). -/
def fpSign (f : FFields) (negate : Bool) : M (Option Word) := do
  let s ← get
  checkWins [(s.wd f, f.dbl), (s.wa f, f.dbl)]
  step1 (fun t => t.setWinBits (s.wd f) f.dbl (signBits (floatFmt (fpFmt f.dbl)) negate (s.winBits (s.wa f) f.dbl)))

/-- FMVW (R220). -/
def fpToWindow (f : FFields) : M (Option Word) := do
  let s ← get
  checkWins [(s.wd f, f.dbl)]
  step1 (fun t => t.setWinBits (s.wd f) f.dbl (s.g f.a).toNat)

/-- FMVG (R220). -/
def fpToGeneral (f : FFields) : M (Option Word) := do
  let s ← get
  checkWins [(s.wa f, f.dbl)]
  step1 (fun t => t.setG f.d (BitVec.ofNat 64 (s.winBits (s.wa f) f.dbl)))

/-- FCVT (R219): from the other width. -/
def fpConvert (i : Instr) (f : FFields) : M (Option Word) := do
  let s ← get
  checkWins [(s.wd f, f.dbl), (s.wa f, !f.dbl)]
  let mode ← modeOf 7 i.p0
  let x := convNum (.flt (s.winVal (s.wa f) (!f.dbl))) (fpFmt f.dbl) mode false
  step1 (fun t => (t.setWinBits (s.wd f) f.dbl x.1).setFlags x.2)

/-- FCVTI (R219). -/
def fpToInt (i : Instr) (f : FFields) : M (Option Word) := do
  let s ← get
  checkWins [(s.wa f, f.dbl)]
  let mode ← modeOf 7 i.p0
  let x := convNum (.flt (s.winVal (s.wa f) f.dbl)) Fmt.s64 mode false
  step1 (fun t => (t.setG f.d (BitVec.ofNat 64 x.1)).setFlags x.2)

/-- FCVTF (R219). -/
def fpFromInt (i : Instr) (f : FFields) : M (Option Word) := do
  let s ← get
  checkWins [(s.wd f, f.dbl)]
  let mode ← modeOf 7 i.p0
  let x := convNum (.int (s.g f.a).toInt) (fpFmt f.dbl) mode false
  step1 (fun t => (t.setWinBits (s.wd f) f.dbl x.1).setFlags x.2)

/-- a − b as a sum. -/
def subF (mode : Mode) (a b : FVal) : FX × Flags := addF mode a b.neg
/-- a ≤ b for values that are no NaN. -/
def leF (a b : FVal) : Bool := !ltF b a

/-- FADD, short form (R218). -/
def execFadd (dbl : Bool) (d a b : BitVec 5) (s : State) : Host.Outcome State Fault Refusal :=
  runInstr (.fadd dbl d a b) (fpArith (.fadd dbl d a b) (shortF dbl d a b) addF) s

/-- FSUB, short form (R218). -/
def execFsub (dbl : Bool) (d a b : BitVec 5) (s : State) : Host.Outcome State Fault Refusal :=
  runInstr (.fsub dbl d a b) (fpArith (.fsub dbl d a b) (shortF dbl d a b) subF) s

/-- FMUL, short form (R218). -/
def execFmul (dbl : Bool) (d a b : BitVec 5) (s : State) : Host.Outcome State Fault Refusal :=
  runInstr (.fmul dbl d a b) (fpArith (.fmul dbl d a b) (shortF dbl d a b) (fun _ => mulF)) s

/-- FDIV, short form (R218). -/
def execFdiv (dbl : Bool) (d a b : BitVec 5) (s : State) : Host.Outcome State Fault Refusal :=
  runInstr (.fdiv dbl d a b) (fpArith (.fdiv dbl d a b) (shortF dbl d a b) (fun _ => divF)) s

/-- FSQRT, short form (R218). -/
def execFsqrt (dbl : Bool) (d a : BitVec 5) (s : State) : Host.Outcome State Fault Refusal :=
  runInstr (.fsqrt dbl d a) (fpSqrt (.fsqrt dbl d a) (shortF dbl d a 0)) s

/-- FMIN, short form (R220). -/
def execFmin (dbl : Bool) (d a b : BitVec 5) (s : State) : Host.Outcome State Fault Refusal :=
  runInstr (.fmin dbl d a b) (fpMinMax (shortF dbl d a b) false) s

/-- FMAX, short form (R220). -/
def execFmax (dbl : Bool) (d a b : BitVec 5) (s : State) : Host.Outcome State Fault Refusal :=
  runInstr (.fmax dbl d a b) (fpMinMax (shortF dbl d a b) true) s

/-- FMA, short form (R218). -/
def execFma (dbl : Bool) (d a b : BitVec 5) (s : State) : Host.Outcome State Fault Refusal :=
  runInstr (.fma dbl d a b) (fpFma (.fma dbl d a b) (shortF dbl d a b)) s

/-- FEQ, short form (R220). -/
def execFeq (dbl : Bool) (d a b : BitVec 5) (s : State) : Host.Outcome State Fault Refusal :=
  runInstr (.feq dbl d a b) (fpCompare (shortF dbl d a b) true eqF) s

/-- FLT, short form (R220). -/
def execFlt (dbl : Bool) (d a b : BitVec 5) (s : State) : Host.Outcome State Fault Refusal :=
  runInstr (.flt dbl d a b) (fpCompare (shortF dbl d a b) false ltF) s

/-- FLE, short form (R220). -/
def execFle (dbl : Bool) (d a b : BitVec 5) (s : State) : Host.Outcome State Fault Refusal :=
  runInstr (.fle dbl d a b) (fpCompare (shortF dbl d a b) false leF) s

/-- FCLASS, short form (R220). -/
def execFclass (dbl : Bool) (d a : BitVec 5) (s : State) : Host.Outcome State Fault Refusal :=
  runInstr (.fclass dbl d a) (fpClass (shortF dbl d a 0)) s

/-- FABS, short form (R220). -/
def execFabs (dbl : Bool) (d a : BitVec 5) (s : State) : Host.Outcome State Fault Refusal :=
  runInstr (.fabs dbl d a) (fpSign (shortF dbl d a 0) false) s

/-- FNEG, short form (R220). -/
def execFneg (dbl : Bool) (d a : BitVec 5) (s : State) : Host.Outcome State Fault Refusal :=
  runInstr (.fneg dbl d a) (fpSign (shortF dbl d a 0) true) s

/-- FMVW, short form (R220). -/
def execFmvw (dbl : Bool) (d a : BitVec 5) (s : State) : Host.Outcome State Fault Refusal :=
  runInstr (.fmvw dbl d a) (fpToWindow (shortF dbl d a 0)) s

/-- FMVG, short form (R220). -/
def execFmvg (dbl : Bool) (d a : BitVec 5) (s : State) : Host.Outcome State Fault Refusal :=
  runInstr (.fmvg dbl d a) (fpToGeneral (shortF dbl d a 0)) s

/-- FCVT, short form (R219). -/
def execFcvt (dbl : Bool) (d a : BitVec 5) (s : State) : Host.Outcome State Fault Refusal :=
  runInstr (.fcvt dbl d a) (fpConvert (.fcvt dbl d a) (shortF dbl d a 0)) s

/-- FCVTI, short form (R219). -/
def execFcvti (dbl : Bool) (d a : BitVec 5) (s : State) : Host.Outcome State Fault Refusal :=
  runInstr (.fcvti dbl d a) (fpToInt (.fcvti dbl d a) (shortF dbl d a 0)) s

/-- FCVTF, short form (R219). -/
def execFcvtf (dbl : Bool) (d a : BitVec 5) (s : State) : Host.Outcome State Fault Refusal :=
  runInstr (.fcvtf dbl d a) (fpFromInt (.fcvtf dbl d a) (shortF dbl d a 0)) s

/-- FADD, long form (R218). -/
def execFaddLong (f : FFields) (s : State) : Host.Outcome State Fault Refusal :=
  runInstr (.faddLong f) (fpArith (.faddLong f) f addF) s

/-- FSUB, long form (R218). -/
def execFsubLong (f : FFields) (s : State) : Host.Outcome State Fault Refusal :=
  runInstr (.fsubLong f) (fpArith (.fsubLong f) f subF) s

/-- FMUL, long form (R218). -/
def execFmulLong (f : FFields) (s : State) : Host.Outcome State Fault Refusal :=
  runInstr (.fmulLong f) (fpArith (.fmulLong f) f (fun _ => mulF)) s

/-- FDIV, long form (R218). -/
def execFdivLong (f : FFields) (s : State) : Host.Outcome State Fault Refusal :=
  runInstr (.fdivLong f) (fpArith (.fdivLong f) f (fun _ => divF)) s

/-- FSQRT, long form (R218). -/
def execFsqrtLong (f : FFields) (s : State) : Host.Outcome State Fault Refusal :=
  runInstr (.fsqrtLong f) (fpSqrt (.fsqrtLong f) f) s

/-- FMIN, long form (R220). -/
def execFminLong (f : FFields) (s : State) : Host.Outcome State Fault Refusal :=
  runInstr (.fminLong f) (fpMinMax f false) s

/-- FMAX, long form (R220). -/
def execFmaxLong (f : FFields) (s : State) : Host.Outcome State Fault Refusal :=
  runInstr (.fmaxLong f) (fpMinMax f true) s

/-- FMA, long form (R218). -/
def execFmaLong (f : FFields) (s : State) : Host.Outcome State Fault Refusal :=
  runInstr (.fmaLong f) (fpFma (.fmaLong f) f) s

/-- FEQ, long form (R220). -/
def execFeqLong (f : FFields) (s : State) : Host.Outcome State Fault Refusal :=
  runInstr (.feqLong f) (fpCompare f true eqF) s

/-- FLT, long form (R220). -/
def execFltLong (f : FFields) (s : State) : Host.Outcome State Fault Refusal :=
  runInstr (.fltLong f) (fpCompare f false ltF) s

/-- FLE, long form (R220). -/
def execFleLong (f : FFields) (s : State) : Host.Outcome State Fault Refusal :=
  runInstr (.fleLong f) (fpCompare f false leF) s

/-- FCLASS, long form (R220). -/
def execFclassLong (f : FFields) (s : State) : Host.Outcome State Fault Refusal :=
  runInstr (.fclassLong f) (fpClass f) s

/-- FABS, long form (R220). -/
def execFabsLong (f : FFields) (s : State) : Host.Outcome State Fault Refusal :=
  runInstr (.fabsLong f) (fpSign f false) s

/-- FNEG, long form (R220). -/
def execFnegLong (f : FFields) (s : State) : Host.Outcome State Fault Refusal :=
  runInstr (.fnegLong f) (fpSign f true) s

/-- FMVW, long form (R220). -/
def execFmvwLong (f : FFields) (s : State) : Host.Outcome State Fault Refusal :=
  runInstr (.fmvwLong f) (fpToWindow f) s

/-- FMVG, long form (R220). -/
def execFmvgLong (f : FFields) (s : State) : Host.Outcome State Fault Refusal :=
  runInstr (.fmvgLong f) (fpToGeneral f) s

/-- FCVT, long form (R219). -/
def execFcvtLong (f : FFields) (s : State) : Host.Outcome State Fault Refusal :=
  runInstr (.fcvtLong f) (fpConvert (.fcvtLong f) f) s

/-- FCVTI, long form (R219). -/
def execFcvtiLong (f : FFields) (s : State) : Host.Outcome State Fault Refusal :=
  runInstr (.fcvtiLong f) (fpToInt (.fcvtiLong f) f) s

/-- FCVTF, long form (R219). -/
def execFcvtfLong (f : FFields) (s : State) : Host.Outcome State Fault Refusal :=
  runInstr (.fcvtfLong f) (fpFromInt (.fcvtfLong f) f) s

end Sys2Proof.Machine
end

