-- ==== Sys2Proof/Machine/Memory.lean ====
section
/-! DEFINITION. Scalar, capability and window loads and stores, prefetch (R110 to R119), and the atomics (R123, R124). -/

namespace Sys2Proof.Machine

/-- The register value of a loaded element of `w` bits (R110, R116). -/
def extendLoad (ty w v : Nat) : Word :=
  if ty = 0 || ty = 2 || ty = 4 then BitVec.ofInt 64 (BitVec.ofNat w v).toInt else BitVec.ofNat 64 v
/-- The width in bits of what a scalar access reads: a nibble of S4, else `n` bytes. -/
def scalarBits (c : Cap) (n : Nat) : Nat := if c.fmt.toNat = 0x0F then 4 else 8 * n

/-- LD (R116). -/
def execLd (f : MFields) (s : State) : Host.Outcome State Fault Refusal :=
  runInstr (.ld f) (do
    let c := s.c f.c
    let ty := f.ty.toNat
    let n := scalarSize ty
    let a ← accCheck c .L (scalarAccepts c.fmt.toNat ty true) n (s.index0 f) (s.index1 f)
    let v ← loadElem c n f.ord.toNat (s.index0 f) (s.index1 f) a
    step1 (fun t => t.setG f.t (extendLoad ty (scalarBits c n) v))) s

/-- ST (R116). -/
def execSt (f : MFields) (s : State) : Host.Outcome State Fault Refusal :=
  runInstr (.st f) (do
    let c := s.c f.c
    let n := scalarSize f.ty.toNat
    let a ← accCheck c .S (scalarAccepts c.fmt.toNat f.ty.toNat false) n (s.index0 f) (s.index1 f)
    storeElem c n f.ord.toNat (s.index0 f) (s.index1 f) a (s.g f.t).toNat
    pure none) s

/-- LDC (R117, R59). -/
def execLdc (f : MFields) (s : State) : Host.Outcome State Fault Refusal :=
  runInstr (.ldc f) (do
    let c := s.c f.c
    let a ← accCheck c .LC (c.fmt.toNat = Fmt.cap) 32 (s.index0 f) (s.index1 f)
    let v ← loadCap a f.ord.toNat
    step1 (fun t => t.setC (f.t.setWidth 4) v)) s

/-- STC (R117, R58). -/
def execStc (f : MFields) (s : State) : Host.Outcome State Fault Refusal :=
  runInstr (.stc f) (do
    let c := s.c f.c
    let v := s.c (f.t.setWidth 4)
    let a ← accCheck c .SC (c.fmt.toNat = Fmt.cap) 32 (s.index0 f) (s.index1 f)
    let tag ← stcTag v c a
    storeCap a v tag f.ord.toNat
    pure none) s

/-- The sector a PREF brings in: into its L2 slice and, for ord 0, the view cache (R118). A refusal on its way or at its home
changes nothing but the count of security events (R98, R288). -/
def State.prefetch (s : State) (va ord : Nat) : State :=
  match s.xlate s.cur va .read with
  | .ok pa _ _ =>
    if isDram pa && !s.pathHeld s.cur pa && s.refused s.cur (s.runOf s.cur) pa .read then s.securityEvent
    else if isDram pa && !s.poisonAt pa && !s.pathHeld s.cur pa then
      let s := s.touch pa .read false
      if ord = 0 && (s.view? s.cur va pa).isNone then s.refreshView s.cur va pa else s
    else s
  | _ => s

/-- PREF (R118): the checks of a 1-byte load, whose BYTE type is read as scalar type 1 (log 61); a PREF that fails one does
nothing. -/
def execPref (f : MFields) (s : State) : Host.Outcome State Fault Refusal :=
  runInstr (.pref f) (step1 fun s =>
    let c := s.c f.c
    match accCheck c .L (scalarAccepts c.fmt.toNat 1 true) 1 (s.index0 f) (s.index1 f) s with
    | .ok a t => t.prefetch a f.ord.toNat
    | .error _ _ => s) s

/-- The checks of the window operand of LDW and STW, before any capability check (R119). -/
def windowOperand (n : Int) (wide : Bool) : M Unit := do
  if wide then winEven n
  winCheck n wide

/-- LDW (R119). -/
def execLdw (f : MFields) (s : State) : Host.Outcome State Fault Refusal :=
  runInstr (.ldw f) (do
    let c := s.c f.c
    let wide := f.ty == 6
    let w := s.winNum f.t 0
    windowOperand w wide
    let n := if wide then 8 else 4
    let a ← accCheck c .L (scalarAccepts c.fmt.toNat f.ty.toNat true) n (s.index0 f) (s.index1 f)
    let v ← loadElem c n f.ord.toNat (s.index0 f) (s.index1 f) a
    step1 (fun t => t.setWinBits w wide v)) s

/-- STW (R119). -/
def execStw (f : MFields) (s : State) : Host.Outcome State Fault Refusal :=
  runInstr (.stw f) (do
    let c := s.c f.c
    let wide := f.ty == 6
    let w := s.winNum f.t 0
    windowOperand w wide
    let n := if wide then 8 else 4
    let a ← accCheck c .S (scalarAccepts c.fmt.toNat f.ty.toNat false) n (s.index0 f) (s.index1 f)
    storeElem c n f.ord.toNat (s.index0 f) (s.index1 f) a (s.winBits w wide)
    pure none) s

/-! ### Atomics -/

/-- An atomic with result: performed at its home (R123). -/
def atomicResult (f : MFields) (fn5 : BitVec 5) (a : Nat) (v cmp : Word) : M (Option Word) := do
  let wide := f.ty == 6
  let p ← xl a .atomic
  let old ← atomicAt a p.1 fn5 wide v cmp
  step1 (fun t => t.setG f.t (extendOld fn5 wide old))

/-- An atomic without result: it counts as a store for R80 and R81. -/
def atomicStore (f : MFields) (fn5 : BitVec 5) (c : Cap) (a : Nat) (v cmp : Word) : M (Option Word) := do
  let wide := f.ty == 6
  let op := PressOp.atomic fn5 wide v cmp none
  match ← storeTo a .atomic with
  | .place pa _ => do
    atomicSend op a pa (if wide then 8 else 4)
    pure none
  | .log e => do
    sideRoom 1
    let x := lineBits (a % 64) (List.replicate (if wide then 8 else 4) 0)
    logEntry (.atomic fn5 wide v cmp) a 0 x.2 0 c 0 e
    pure none

/-- The atomics (R124). -/
def atomicOp (f : MFields) (fn5 : BitVec 5) : M (Option Word) := do
  let s ← get
  let c := s.c f.c
  let a ← accCheck c .A (scalarAccepts c.fmt.toNat f.ty.toNat true) (scalarSize f.ty.toNat) (s.index0 f) 0
  need (c.scope ≠ 2) 0x0D (BitVec.ofNat 64 a)
  if f.t = 0 then atomicStore f fn5 c a (s.g f.y) 0 else atomicResult f fn5 a (s.g f.y) (s.g f.t)

/-- AADD (R124). -/
def execAadd (f : MFields) (s : State) : Host.Outcome State Fault Refusal := runInstr (.aadd f) (atomicOp f 0) s
/-- AAND (R124). -/
def execAand (f : MFields) (s : State) : Host.Outcome State Fault Refusal := runInstr (.aand f) (atomicOp f 1) s
/-- AOR (R124). -/
def execAor (f : MFields) (s : State) : Host.Outcome State Fault Refusal := runInstr (.aor f) (atomicOp f 2) s
/-- AXOR (R124). -/
def execAxor (f : MFields) (s : State) : Host.Outcome State Fault Refusal := runInstr (.axor f) (atomicOp f 3) s
/-- AMIN (R124). -/
def execAmin (f : MFields) (s : State) : Host.Outcome State Fault Refusal := runInstr (.amin f) (atomicOp f 4) s
/-- AMAX (R124). -/
def execAmax (f : MFields) (s : State) : Host.Outcome State Fault Refusal := runInstr (.amax f) (atomicOp f 5) s
/-- AMINU (R124). -/
def execAminu (f : MFields) (s : State) : Host.Outcome State Fault Refusal := runInstr (.aminu f) (atomicOp f 6) s
/-- AMAXU (R124). -/
def execAmaxu (f : MFields) (s : State) : Host.Outcome State Fault Refusal := runInstr (.amaxu f) (atomicOp f 7) s
/-- ASWAP (R124). -/
def execAswap (f : MFields) (s : State) : Host.Outcome State Fault Refusal := runInstr (.aswap f) (atomicOp f 8) s
/-- ACAS (R124). -/
def execAcas (f : MFields) (s : State) : Host.Outcome State Fault Refusal := runInstr (.acas f) (atomicOp f 9) s
/-- AFADD (R124). -/
def execAfadd (f : MFields) (s : State) : Host.Outcome State Fault Refusal := runInstr (.afadd f) (atomicOp f 10) s

end Sys2Proof.Machine
end

