-- ==== Sys2Proof/Machine/PressEvents.lean ====
section
/-! DEFINITION. The steps of the Model Press as events (R129, R142, R150, R156). -/

namespace Sys2Proof.Machine

/-- FETCH (R156): the code line at a virtual address enters the fetch buffer of the agent's core. -/
def execFetch (a : Agent) (line : BitVec 64) (s : State) : Host.Outcome State Fault Refusal :=
  if (s.ctxOf a).occupied then
    .next (s.asAgent a (fun t => match t.fetchLine (line.toNat / 64 * 64) with | .line _ t => t | _ => t))
  else .next s

/-- DRAIN (R142, R155): entry `k` of an agent's store queue, when no older entry overlaps it. -/
def execDrain (a : Agent) (k : Nat) (s : State) : Host.Outcome State Fault Refusal :=
  match nthOf a s.press.queues k with
  | some p => .next (if s.drainable p then s.drain p else s)
  | none => .next s

/-- DELIVER (R142, R285): entry `k` of the FIFOs, when it is the head of its own and no link on its way retrains. -/
def execDeliver (k : Nat) (s : State) : Host.Outcome State Fault Refusal :=
  match s.press.fifo[k]? with
  | some p => .next (if s.mayDeliver p then s.deliver p else s)
  | none => .next s

/-- What follows an element in a list. -/
def afterElem {α : Type} [DecidableEq α] (x : α) : List α → List α
  | [] => []
  | y :: ys => if y = x then ys else afterElem x ys

/-- The sector a fabric port copies: of the next port on the path that holds one, else of the home (R142). -/
def State.portSource (s : State) (p : Port) (pa : Nat) : Sector :=
  match (afterElem p (pathPorts (agentDie (.port p)) pa)).findSome? (fun q => s.portView? q pa) with
  | some x => { x with agent := .port p }
  | none => s.homeSector (.port p) pa pa

/-- An agent's view cache may take the sector (R138): a port only what lies across it, the others what they reach. -/
def State.mayRefresh (s : State) (a : Agent) (va pa : Nat) : Bool :=
  cacheable pa && s.hasAgent a && (isHost pa || s.physOk pa) && !s.pathHeld a pa && (match a with
    | .port p => (pathPorts (agentDie a) pa).contains p
    | _ => (match s.xlate a va .read with | .ok q _ _ => q / 128 == pa / 128 | _ => false))

/-- REFRESH (R142). -/
def execRefresh (a : Agent) (va pa : Nat) (s : State) : Host.Outcome State Fault Refusal :=
  if s.mayRefresh a va pa && !s.refused a (s.runOf a) pa .read then
    match a with
    | .port p => .next ((s.putView (s.portSource p pa)).touch pa .read false)
    | _ => .next ((s.refreshView a va pa).touch pa .read false)
  else .next s

/-- EVICT (R142): a sector of a view cache, or a line of the fetch buffer of the agent's core. -/
def execEvict (a : Agent) (ofFetch : Bool) (pa : Nat) (s : State) : Host.Outcome State Fault Refusal :=
  if ofFetch then
    match agentCore a with
    | some k => .next (s.dropLines k (fun l => l.pa / 64 == pa / 64))
    | none => .next s
  else .next (s.dropViews (fun x => x.agent == a && x.pa / 128 == pa / 128))

/-- REPLICA_PROPAGATION (R150, R285): pending propagation `k`, when no link on its way retrains. -/
def execReplicaPropagation (k : Nat) (s : State) : Host.Outcome State Fault Refusal :=
  match s.press.props[k]? with
  | some p =>
    if s.mayPropagate p then .next ({ s with press := { s.press with props := dropAt s.press.props k } }.propagate p)
    else .next s
  | none => .next s

/-- WATCH_WAKE (R129): the watches of a counter cell whose threshold its value has reached. -/
def execWatchWake (cell : Nat) (s : State) : Host.Outcome State Fault Refusal :=
  .next (s.wakeWatches (fun w => w.cell == cell && s.reached w))

/-- WATCH_RETRY (R129): a waiter issues its CTWAIT again; one that was written back becomes ready for it. -/
def execWatchRetry (a : Agent) (s : State) : Host.Outcome State Fault Refusal :=
  match a with
  | .cont core addr =>
    .next (match (s.coreAt core).u.waiting.find? (fun p => p.recAddr.toNat == addr && p.susp.reason = .counter) with
      | some p => s.makeReady core p
      | none => s)
  | _ => .next (s.wakeAgent a .counter)

end Sys2Proof.Machine
end

