-- ==== Sys2Proof/Machine/Scalar.lean ====
section
/-! DEFINITION. Integer instructions, wide immediates, branches, jumps and LOOP (R208 to R217), and what a word that
the map does not assign, or that a retired instruction left, does (R30, R385, R386). -/

namespace Sys2Proof.Machine

/-- 1 or 0. -/
def flag (p : Bool) : Word := if p then 1 else 0
/-- The signed quotient with the fixed cases of R209. -/
def divS (a b : Word) : Word :=
  if b = 0 then (if a.slt 0 then BitVec.intMin 64 else BitVec.intMax 64)
  else if a = BitVec.intMin 64 && b = BitVec.allOnes 64 then BitVec.intMax 64
  else a.sdiv b
/-- The signed remainder with the fixed cases of R209. -/
def remS (a b : Word) : Word :=
  if b = 0 then a else if a = BitVec.intMin 64 && b = BitVec.allOnes 64 then BitVec.allOnes 64 else a.srem b
/-- Leading zero bits. -/
def leadingZeros (x : Word) : Word := BitVec.ofNat 64 (64 - bitLen x.toNat)
/-- Trailing zero bits. -/
def trailingZeros (x : Word) : Word :=
  BitVec.ofNat 64 (((List.range 64).find? (fun i => x.getLsbD i)).getD 64)
/-- One bits. -/
def onesOf (x : Word) : Word := BitVec.ofNat 64 (((List.range 64).filter (fun i => x.getLsbD i)).length)

/-- The conditional branches (R215). -/
def branch (cond : Word → Word → Bool) (a b : BitVec 5) (off : BitVec 14) : M (Option Word) := do
  let s ← get
  if cond (s.g a) (s.g b) then transfer (s.pc + 4 * off.signExtend 64) else pure none

/-- The link of JAL and JALR (R216). -/
def State.link1 (s : State) : Word := ((seqPc s.pc 1).setWidth 48).setWidth 64

/-- ADD (R208). -/
def execAdd (d a b : BitVec 5) (s : State) : Host.Outcome State Fault Refusal :=
  runInstr (.add d a b) (step1 fun s => s.setG d (s.g a + s.g b)) s

/-- SUB (R208). -/
def execSub (d a b : BitVec 5) (s : State) : Host.Outcome State Fault Refusal :=
  runInstr (.sub d a b) (step1 fun s => s.setG d (s.g a - s.g b)) s

/-- AND (R208). -/
def execAnd (d a b : BitVec 5) (s : State) : Host.Outcome State Fault Refusal :=
  runInstr (.and d a b) (step1 fun s => s.setG d (s.g a &&& s.g b)) s

/-- OR (R208). -/
def execOr (d a b : BitVec 5) (s : State) : Host.Outcome State Fault Refusal :=
  runInstr (.or d a b) (step1 fun s => s.setG d (s.g a ||| s.g b)) s

/-- XOR (R208). -/
def execXor (d a b : BitVec 5) (s : State) : Host.Outcome State Fault Refusal :=
  runInstr (.xor d a b) (step1 fun s => s.setG d (s.g a ^^^ s.g b)) s

/-- ANDN (R208). -/
def execAndn (d a b : BitVec 5) (s : State) : Host.Outcome State Fault Refusal :=
  runInstr (.andn d a b) (step1 fun s => s.setG d (s.g a &&& ~~~(s.g b))) s

/-- SLL (R208). -/
def execSll (d a b : BitVec 5) (s : State) : Host.Outcome State Fault Refusal :=
  runInstr (.sll d a b) (step1 fun s => s.setG d (s.g a <<< ((s.g b).toNat % 64))) s

/-- SRL (R208). -/
def execSrl (d a b : BitVec 5) (s : State) : Host.Outcome State Fault Refusal :=
  runInstr (.srl d a b) (step1 fun s => s.setG d (s.g a >>> ((s.g b).toNat % 64))) s

/-- SRA (R208). -/
def execSra (d a b : BitVec 5) (s : State) : Host.Outcome State Fault Refusal :=
  runInstr (.sra d a b) (step1 fun s => s.setG d ((s.g a).sshiftRight ((s.g b).toNat % 64))) s

/-- SLT (R208). -/
def execSlt (d a b : BitVec 5) (s : State) : Host.Outcome State Fault Refusal :=
  runInstr (.slt d a b) (step1 fun s => s.setG d (flag ((s.g a).slt (s.g b)))) s

/-- SLTU (R208). -/
def execSltu (d a b : BitVec 5) (s : State) : Host.Outcome State Fault Refusal :=
  runInstr (.sltu d a b) (step1 fun s => s.setG d (flag ((s.g a).ult (s.g b)))) s

/-- MUL (R208). -/
def execMul (d a b : BitVec 5) (s : State) : Host.Outcome State Fault Refusal :=
  runInstr (.mul d a b) (step1 fun s => s.setG d (s.g a * s.g b)) s

/-- MULH (R208). -/
def execMulh (d a b : BitVec 5) (s : State) : Host.Outcome State Fault Refusal :=
  runInstr (.mulh d a b) (step1 fun s => s.setG d (BitVec.ofInt 64 ((s.g a).toInt * (s.g b).toInt / 2 ^ 64))) s

/-- MULHU (R208). -/
def execMulhu (d a b : BitVec 5) (s : State) : Host.Outcome State Fault Refusal :=
  runInstr (.mulhu d a b) (step1 fun s => s.setG d (BitVec.ofNat 64 ((s.g a).toNat * (s.g b).toNat / 2 ^ 64))) s

/-- DIV (R209). -/
def execDiv (d a b : BitVec 5) (s : State) : Host.Outcome State Fault Refusal :=
  runInstr (.div d a b) (step1 fun s => s.setG d (divS (s.g a) (s.g b))) s

/-- DIVU (R209). -/
def execDivu (d a b : BitVec 5) (s : State) : Host.Outcome State Fault Refusal :=
  runInstr (.divu d a b) (step1 fun s => s.setG d (if s.g b = 0 then BitVec.allOnes 64 else s.g a / s.g b)) s

/-- REM (R209). -/
def execRem (d a b : BitVec 5) (s : State) : Host.Outcome State Fault Refusal :=
  runInstr (.rem d a b) (step1 fun s => s.setG d (remS (s.g a) (s.g b))) s

/-- REMU (R209). -/
def execRemu (d a b : BitVec 5) (s : State) : Host.Outcome State Fault Refusal :=
  runInstr (.remu d a b) (step1 fun s => s.setG d (if s.g b = 0 then s.g a else s.g a % s.g b)) s

/-- MIN (R208). -/
def execMin (d a b : BitVec 5) (s : State) : Host.Outcome State Fault Refusal :=
  runInstr (.min d a b) (step1 fun s => s.setG d (if (s.g b).slt (s.g a) then s.g b else s.g a)) s

/-- MAX (R208). -/
def execMax (d a b : BitVec 5) (s : State) : Host.Outcome State Fault Refusal :=
  runInstr (.max d a b) (step1 fun s => s.setG d (if (s.g a).slt (s.g b) then s.g b else s.g a)) s

/-- MINU (R208). -/
def execMinu (d a b : BitVec 5) (s : State) : Host.Outcome State Fault Refusal :=
  runInstr (.minu d a b) (step1 fun s => s.setG d (if (s.g b).ult (s.g a) then s.g b else s.g a)) s

/-- MAXU (R208). -/
def execMaxu (d a b : BitVec 5) (s : State) : Host.Outcome State Fault Refusal :=
  runInstr (.maxu d a b) (step1 fun s => s.setG d (if (s.g a).ult (s.g b) then s.g b else s.g a)) s

/-- CLZ (R208). -/
def execClz (d a : BitVec 5) (s : State) : Host.Outcome State Fault Refusal :=
  runInstr (.clz d a) (step1 fun s => s.setG d (leadingZeros (s.g a))) s

/-- CTZ (R208). -/
def execCtz (d a : BitVec 5) (s : State) : Host.Outcome State Fault Refusal :=
  runInstr (.ctz d a) (step1 fun s => s.setG d (trailingZeros (s.g a))) s

/-- POPC (R208). -/
def execPopc (d a : BitVec 5) (s : State) : Host.Outcome State Fault Refusal :=
  runInstr (.popc d a) (step1 fun s => s.setG d (onesOf (s.g a))) s

/-- SEL (R208). -/
def execSel (d a b : BitVec 5) (s : State) : Host.Outcome State Fault Refusal :=
  runInstr (.sel d a b) (step1 fun s => s.setG d (if s.g d ≠ 0 then s.g a else s.g b)) s

/-- ADDI (R210). -/
def execAddi (d a : BitVec 5) (imm : BitVec 14) (s : State) : Host.Outcome State Fault Refusal :=
  runInstr (.addi d a imm) (step1 fun s => s.setG d (s.g a + imm.signExtend 64)) s

/-- ANDI (R210). -/
def execAndi (d a : BitVec 5) (imm : BitVec 14) (s : State) : Host.Outcome State Fault Refusal :=
  runInstr (.andi d a imm) (step1 fun s => s.setG d (s.g a &&& imm.signExtend 64)) s

/-- ORI (R210). -/
def execOri (d a : BitVec 5) (imm : BitVec 14) (s : State) : Host.Outcome State Fault Refusal :=
  runInstr (.ori d a imm) (step1 fun s => s.setG d (s.g a ||| imm.signExtend 64)) s

/-- XORI (R210). -/
def execXori (d a : BitVec 5) (imm : BitVec 14) (s : State) : Host.Outcome State Fault Refusal :=
  runInstr (.xori d a imm) (step1 fun s => s.setG d (s.g a ^^^ imm.signExtend 64)) s

/-- SLTI (R210). -/
def execSlti (d a : BitVec 5) (imm : BitVec 14) (s : State) : Host.Outcome State Fault Refusal :=
  runInstr (.slti d a imm) (step1 fun s => s.setG d (flag ((s.g a).slt (imm.signExtend 64)))) s

/-- SLTIU (R210). -/
def execSltiu (d a : BitVec 5) (imm : BitVec 14) (s : State) : Host.Outcome State Fault Refusal :=
  runInstr (.sltiu d a imm) (step1 fun s => s.setG d (flag ((s.g a).ult (imm.signExtend 64)))) s

/-- SLLI (R211). -/
def execSlli (d a : BitVec 5) (amount : BitVec 6) (s : State) : Host.Outcome State Fault Refusal :=
  runInstr (.slli d a amount) (step1 fun s => s.setG d (s.g a <<< amount.toNat)) s

/-- SRLI (R211). -/
def execSrli (d a : BitVec 5) (amount : BitVec 6) (s : State) : Host.Outcome State Fault Refusal :=
  runInstr (.srli d a amount) (step1 fun s => s.setG d (s.g a >>> amount.toNat)) s

/-- SRAI (R211). -/
def execSrai (d a : BitVec 5) (amount : BitVec 6) (s : State) : Host.Outcome State Fault Refusal :=
  runInstr (.srai d a amount) (step1 fun s => s.setG d ((s.g a).sshiftRight amount.toNat)) s

/-- ADDIL (R212). -/
def execAddil (d a : BitVec 5) (imm : BitVec 32) (s : State) : Host.Outcome State Fault Refusal :=
  runInstr (.addil d a imm) (step1 fun s => s.setG d (s.g a + imm.signExtend 64)) s

/-- ANDIL (R212). -/
def execAndil (d a : BitVec 5) (imm : BitVec 32) (s : State) : Host.Outcome State Fault Refusal :=
  runInstr (.andil d a imm) (step1 fun s => s.setG d (s.g a &&& imm.signExtend 64)) s

/-- ORIL (R212). -/
def execOril (d a : BitVec 5) (imm : BitVec 32) (s : State) : Host.Outcome State Fault Refusal :=
  runInstr (.oril d a imm) (step1 fun s => s.setG d (s.g a ||| imm.signExtend 64)) s

/-- XORIL (R212). -/
def execXoril (d a : BitVec 5) (imm : BitVec 32) (s : State) : Host.Outcome State Fault Refusal :=
  runInstr (.xoril d a imm) (step1 fun s => s.setG d (s.g a ^^^ imm.signExtend 64)) s

/-- LI (R212). -/
def execLi (d : BitVec 5) (imm : BitVec 32) (s : State) : Host.Outcome State Fault Refusal :=
  runInstr (.li d imm) (step1 fun s => s.setG d (imm.signExtend 64)) s

/-- LIH (R212). -/
def execLih (d a : BitVec 5) (imm : BitVec 32) (s : State) : Host.Outcome State Fault Refusal :=
  runInstr (.lih d a imm) (step1 fun s => s.setG d (imm ++ (s.g a).extractLsb' 0 32)) s

/-- LIL (R213). -/
def execLil (d : BitVec 5) (imm : BitVec 64) (s : State) : Host.Outcome State Fault Refusal :=
  runInstr (.lil d imm) (step1 fun s => s.setG d (imm)) s

/-- BEQ (R215). -/
def execBeq (a b : BitVec 5) (off : BitVec 14) (s : State) : Host.Outcome State Fault Refusal :=
  runInstr (.beq a b off) (branch (fun x y => x == y) a b off) s

/-- BNE (R215). -/
def execBne (a b : BitVec 5) (off : BitVec 14) (s : State) : Host.Outcome State Fault Refusal :=
  runInstr (.bne a b off) (branch (fun x y => x != y) a b off) s

/-- BLT (R215). -/
def execBlt (a b : BitVec 5) (off : BitVec 14) (s : State) : Host.Outcome State Fault Refusal :=
  runInstr (.blt a b off) (branch BitVec.slt a b off) s

/-- BGE (R215). -/
def execBge (a b : BitVec 5) (off : BitVec 14) (s : State) : Host.Outcome State Fault Refusal :=
  runInstr (.bge a b off) (branch (fun x y => !x.slt y) a b off) s

/-- BLTU (R215). -/
def execBltu (a b : BitVec 5) (off : BitVec 14) (s : State) : Host.Outcome State Fault Refusal :=
  runInstr (.bltu a b off) (branch BitVec.ult a b off) s

/-- BGEU (R215). -/
def execBgeu (a b : BitVec 5) (off : BitVec 14) (s : State) : Host.Outcome State Fault Refusal :=
  runInstr (.bgeu a b off) (branch (fun x y => !x.ult y) a b off) s

/-- JAL (R216). -/
def execJal (d : BitVec 5) (off : BitVec 19) (s : State) : Host.Outcome State Fault Refusal :=
  runInstr (.jal d off) (do
    let s ← get
    let r ← transfer (s.pc + 4 * off.signExtend 64)
    modify (fun t => t.setG d s.link1)
    pure r) s

/-- JALR (R216). -/
def execJalr (d a : BitVec 5) (imm : BitVec 14) (s : State) : Host.Outcome State Fault Refusal :=
  runInstr (.jalr d a imm) (do
    let s ← get
    let r ← transfer (s.g a + 4 * imm.signExtend 64)
    modify (fun t => t.setG d s.link1)
    pure r) s

/-- LOOP (R217). -/
def execLoop (a : BitVec 5) (off : BitVec 14) (s : State) : Host.Outcome State Fault Refusal :=
  runInstr (.loop a off) (do
    let s ← get
    let x := s.g a - 1
    let r ← if x ≠ 0 then transfer (s.pc + 4 * off.signExtend 64) else pure none
    modify (fun t => t.setG a x)
    pure r) s

/-- A word that the map does not assign (R18, R30): cause 0x03 in a legacy major, in engine microcode too (R386), else 0x01;
EVAL the first parcel. -/
def execIllegalInstruction (p0 : BitVec 32) (s : State) : Host.Outcome State Fault Refusal :=
  let major := (p0.extractLsb' 2 6).toNat
  let legacy := p0.extractLsb' 0 2 ≠ 3 && 40 ≤ major && major ≤ 47
  .next (s.takeTrap (if legacy then 0x03 else 0x01) (p0.setWidth 64) 0)

/-- FMADD2, retired: traps for emulation before any other check (R385, R386). -/
def execFmadd2 (dbl : Bool) (d a b : BitVec 5) (s : State) : Host.Outcome State Fault Refusal :=
  .next (s.takeTrap 0x03 (Instr.fmadd2 dbl d a b).p0 0)

/-- CTWAITX, retired: traps for emulation before any other check (R385, R386). -/
def execCtwaitx (f : QFields) (s : State) : Host.Outcome State Fault Refusal :=
  .next (s.takeTrap 0x03 (Instr.ctwaitx f).p0 0)

end Sys2Proof.Machine
end

