-- ==== Sys2Proof/Machine/System.lean ====
section
/-! DEFINITION. System registers by instruction and by event, traps on purpose, return from a handler, IFENCE and PMARK
(R348 to R352, R108, R109, R169, R198, R380). -/

namespace Sys2Proof.Machine

/-- SYSW, SYSS and SYSC (R348): `f old operand` is the value written. -/
def sysModify (d a : BitVec 5) (num : BitVec 10) (f : Word → Word → Word) : M (Option Word) := do
  let s ← get
  let old := s.sysRead num.toNat
  sysWrite num.toNat (f old (s.g a))
  step1 (fun t => t.setG d old)

/-- SYSR (R348). -/
def execSysr (d : BitVec 5) (num : BitVec 10) (s : State) : Host.Outcome State Fault Refusal :=
  runInstr (.sysr d num) (do
    need (sysWriteBy num.toNat).isSome 0x01 (num.setWidth 64)
    step1 (fun t => t.setG d (t.sysRead num.toNat))) s

/-- SYSW (R348). -/
def execSysw (d a : BitVec 5) (num : BitVec 10) (s : State) : Host.Outcome State Fault Refusal :=
  runInstr (.sysw d a num) (sysModify d a num (fun _ x => x)) s
/-- SYSS (R348). -/
def execSyss (d a : BitVec 5) (num : BitVec 10) (s : State) : Host.Outcome State Fault Refusal :=
  runInstr (.syss d a num) (sysModify d a num (fun old x => old ||| x)) s
/-- SYSC (R348). -/
def execSysc (d a : BitVec 5) (num : BitVec 10) (s : State) : Host.Outcome State Fault Refusal :=
  runInstr (.sysc d a num) (sysModify d a num (fun old x => old &&& ~~~x)) s

/-- TRAP (R349). -/
def execTrap (code : BitVec 10) (s : State) : Host.Outcome State Fault Refusal :=
  runInstr (.trap code) (trap 0x2A (code.setWidth 64)) s

/-- BRK (R349, R372): with interception armed for the run the context is held at the BRK. -/
def execBrk (code : BitVec 10) (s : State) : Host.Outcome State Fault Refusal :=
  runInstr (.brk code) (do
    let s ← get
    match s.runOn s.coreNo with
    | some r =>
      if r.dbg.brk then do
        let t := s.suspend .yield 0 0 0 none
        set (t.setCtx { t.ctx with held := true })
        pure (some s.pc)
      else trap 0x29 (code.setWidth 64)
    | none => trap 0x29 (code.setWidth 64)) s

/-- SVC (R349). -/
def execSvc (code : BitVec 10) (s : State) : Host.Outcome State Fault Refusal :=
  runInstr (.svc code) (trap 0x28 (code.setWidth 64)) s

/-- XRET (R350). -/
def execXret (s : State) : Host.Outcome State Fault Refusal :=
  runInstr .xret (do
    let c := (← get).ctx
    need c.sr.th 0x02 0
    need (c.sr.cid = 1) 0x0A (c.sr.cid.setWidth 64)
    if c.efcap.covers c.sr.epc.toNat then checkTargetM (c.sr.epc.setWidth 64) false
    modify State.leaveHandler
    pure (some (c.sr.epc.setWidth 64))) s

/-- A fetch-buffer line lies in the bounding range of a capability. -/
def FetchLine.meets (l : FetchLine) (c : Cap) : Bool := c.bounds.1 < (l.va : Int) + 64 && (l.va : Int) < c.bounds.2

/-- IFENCE (R351): the checks of an execute use without the strict-phase clause, then the lines in range are dropped. -/
def execIfence (a : BitVec 5) (s : State) : Host.Outcome State Fault Refusal :=
  runInstr (.ifence a) (do
    let s ← get
    let c := s.c (a.setWidth 4)
    match s.capFault c .X Kind.X.need 0 0 false with
    | some (cause, eval) => throw (.trap cause eval c.checkNote)
    | none =>
      step1 (fun t =>
        (t.cacheLease c.lease.toNat).dropLines t.coreNo (fun l => l.meets c))) s

/-- PMARK (R352). -/
def execPmark (a : BitVec 5) (code : BitVec 10) (s : State) : Host.Outcome State Fault Refusal :=
  runInstr (.pmark a code) (step1 fun t =>
    (t.count t.coreNo 6 1).trace t.coreNo t.slot 1 (code.setWidth 64) (t.g a)) s

/-- The write of a system register as an event of its own (R169, R108, R109, R198, R380): the effect of the SYSW of the
issuing context, with its checks, and no advance of the PC. -/
def registerWrite (n : Nat) (v : Word) (s : State) : Host.Outcome State Fault Refusal :=
  match sysWrite n v s with
  | .ok _ t => .next t
  | .error stop t => .next (s.afterStop t stop)

/-- PLANSEL (R169). -/
def execPlansel (value : BitVec 64) (s : State) : Host.Outcome State Fault Refusal := registerWrite 0x018 value s
/-- RXCFG (R108). -/
def execRxcfg (ring : BitVec 3) (value : BitVec 64) (s : State) : Host.Outcome State Fault Refusal :=
  registerWrite (0x020 + ring.toNat) value s
/-- KBIN (R109). -/
def execKbin (value : BitVec 64) (s : State) : Host.Outcome State Fault Refusal := registerWrite 0x028 value s
/-- WALLOC (R198). -/
def execWalloc (value : BitVec 64) (s : State) : Host.Outcome State Fault Refusal := registerWrite 0x006 value s
/-- PMCTL (R380). -/
def execPmctl (value : BitVec 64) (s : State) : Host.Outcome State Fault Refusal := registerWrite 0x060 value s

end Sys2Proof.Machine
end

