-- ==== Sys2Proof/Machine/Dispatch.lean ====
section
/-! DEFINITION. One arm per constructor of Instr: an instruction's meaning, or a refusal by name. -/

namespace Sys2Proof.Machine

def exec (i : Instr) (s : State) : Host.Outcome State Fault Refusal :=
  match i with
  | .add d a b => Sys2Proof.Machine.execAdd d a b s
  | .sub d a b => Sys2Proof.Machine.execSub d a b s
  | .and d a b => Sys2Proof.Machine.execAnd d a b s
  | .or d a b => Sys2Proof.Machine.execOr d a b s
  | .xor d a b => Sys2Proof.Machine.execXor d a b s
  | .andn d a b => Sys2Proof.Machine.execAndn d a b s
  | .sll d a b => Sys2Proof.Machine.execSll d a b s
  | .srl d a b => Sys2Proof.Machine.execSrl d a b s
  | .sra d a b => Sys2Proof.Machine.execSra d a b s
  | .slt d a b => Sys2Proof.Machine.execSlt d a b s
  | .sltu d a b => Sys2Proof.Machine.execSltu d a b s
  | .mul d a b => Sys2Proof.Machine.execMul d a b s
  | .mulh d a b => Sys2Proof.Machine.execMulh d a b s
  | .mulhu d a b => Sys2Proof.Machine.execMulhu d a b s
  | .div d a b => Sys2Proof.Machine.execDiv d a b s
  | .divu d a b => Sys2Proof.Machine.execDivu d a b s
  | .rem d a b => Sys2Proof.Machine.execRem d a b s
  | .remu d a b => Sys2Proof.Machine.execRemu d a b s
  | .min d a b => Sys2Proof.Machine.execMin d a b s
  | .max d a b => Sys2Proof.Machine.execMax d a b s
  | .minu d a b => Sys2Proof.Machine.execMinu d a b s
  | .maxu d a b => Sys2Proof.Machine.execMaxu d a b s
  | .clz d a => Sys2Proof.Machine.execClz d a s
  | .ctz d a => Sys2Proof.Machine.execCtz d a s
  | .popc d a => Sys2Proof.Machine.execPopc d a s
  | .sel d a b => Sys2Proof.Machine.execSel d a b s
  | .addi d a imm => Sys2Proof.Machine.execAddi d a imm s
  | .andi d a imm => Sys2Proof.Machine.execAndi d a imm s
  | .ori d a imm => Sys2Proof.Machine.execOri d a imm s
  | .xori d a imm => Sys2Proof.Machine.execXori d a imm s
  | .slti d a imm => Sys2Proof.Machine.execSlti d a imm s
  | .sltiu d a imm => Sys2Proof.Machine.execSltiu d a imm s
  | .slli d a amount => Sys2Proof.Machine.execSlli d a amount s
  | .srli d a amount => Sys2Proof.Machine.execSrli d a amount s
  | .srai d a amount => Sys2Proof.Machine.execSrai d a amount s
  | .beq a b off => Sys2Proof.Machine.execBeq a b off s
  | .bne a b off => Sys2Proof.Machine.execBne a b off s
  | .blt a b off => Sys2Proof.Machine.execBlt a b off s
  | .bge a b off => Sys2Proof.Machine.execBge a b off s
  | .bltu a b off => Sys2Proof.Machine.execBltu a b off s
  | .bgeu a b off => Sys2Proof.Machine.execBgeu a b off s
  | .jal d off => Sys2Proof.Machine.execJal d off s
  | .jalr d a imm => Sys2Proof.Machine.execJalr d a imm s
  | .loop a off => Sys2Proof.Machine.execLoop a off s
  | .fadd dbl d a b => Sys2Proof.Machine.execFadd dbl d a b s
  | .fsub dbl d a b => Sys2Proof.Machine.execFsub dbl d a b s
  | .fmul dbl d a b => Sys2Proof.Machine.execFmul dbl d a b s
  | .fdiv dbl d a b => Sys2Proof.Machine.execFdiv dbl d a b s
  | .fsqrt dbl d a => Sys2Proof.Machine.execFsqrt dbl d a s
  | .fmin dbl d a b => Sys2Proof.Machine.execFmin dbl d a b s
  | .fmax dbl d a b => Sys2Proof.Machine.execFmax dbl d a b s
  | .fma dbl d a b => Sys2Proof.Machine.execFma dbl d a b s
  | .feq dbl d a b => Sys2Proof.Machine.execFeq dbl d a b s
  | .flt dbl d a b => Sys2Proof.Machine.execFlt dbl d a b s
  | .fle dbl d a b => Sys2Proof.Machine.execFle dbl d a b s
  | .fclass dbl d a => Sys2Proof.Machine.execFclass dbl d a s
  | .fabs dbl d a => Sys2Proof.Machine.execFabs dbl d a s
  | .fneg dbl d a => Sys2Proof.Machine.execFneg dbl d a s
  | .fmvw dbl d a => Sys2Proof.Machine.execFmvw dbl d a s
  | .fmvg dbl d a => Sys2Proof.Machine.execFmvg dbl d a s
  | .fcvt dbl d a => Sys2Proof.Machine.execFcvt dbl d a s
  | .fcvti dbl d a => Sys2Proof.Machine.execFcvti dbl d a s
  | .fcvtf dbl d a => Sys2Proof.Machine.execFcvtf dbl d a s
  | .faddLong f => Sys2Proof.Machine.execFaddLong f s
  | .fsubLong f => Sys2Proof.Machine.execFsubLong f s
  | .fmulLong f => Sys2Proof.Machine.execFmulLong f s
  | .fdivLong f => Sys2Proof.Machine.execFdivLong f s
  | .fsqrtLong f => Sys2Proof.Machine.execFsqrtLong f s
  | .fminLong f => Sys2Proof.Machine.execFminLong f s
  | .fmaxLong f => Sys2Proof.Machine.execFmaxLong f s
  | .fmaLong f => Sys2Proof.Machine.execFmaLong f s
  | .feqLong f => Sys2Proof.Machine.execFeqLong f s
  | .fltLong f => Sys2Proof.Machine.execFltLong f s
  | .fleLong f => Sys2Proof.Machine.execFleLong f s
  | .fclassLong f => Sys2Proof.Machine.execFclassLong f s
  | .fabsLong f => Sys2Proof.Machine.execFabsLong f s
  | .fnegLong f => Sys2Proof.Machine.execFnegLong f s
  | .fmvwLong f => Sys2Proof.Machine.execFmvwLong f s
  | .fmvgLong f => Sys2Proof.Machine.execFmvgLong f s
  | .fcvtLong f => Sys2Proof.Machine.execFcvtLong f s
  | .fcvtiLong f => Sys2Proof.Machine.execFcvtiLong f s
  | .fcvtfLong f => Sys2Proof.Machine.execFcvtfLong f s
  | .sysr d num => Sys2Proof.Machine.execSysr d num s
  | .sysw d a num => Sys2Proof.Machine.execSysw d a num s
  | .syss d a num => Sys2Proof.Machine.execSyss d a num s
  | .sysc d a num => Sys2Proof.Machine.execSysc d a num s
  | .trap code => Sys2Proof.Machine.execTrap code s
  | .brk code => Sys2Proof.Machine.execBrk code s
  | .xret => Sys2Proof.Machine.execXret s
  | .idle n => Sys2Proof.Machine.execIdle n s
  | .ifence a => Sys2Proof.Machine.execIfence a s
  | .yield => Sys2Proof.Machine.execYield s
  | .pmark a code => Sys2Proof.Machine.execPmark a code s
  | .svc code => Sys2Proof.Machine.execSvc code s
  | .exit d => Sys2Proof.Machine.execExit d s
  | .cmov d a => Sys2Proof.Machine.execCmov d a s
  | .cgetb d a => Sys2Proof.Machine.execCgetb d a s
  | .cgete d a k => Sys2Proof.Machine.execCgete d a k s
  | .cgets d a k => Sys2Proof.Machine.execCgets d a k s
  | .cgetf d a => Sys2Proof.Machine.execCgetf d a s
  | .cgetp d a => Sys2Proof.Machine.execCgetp d a s
  | .cgetl d a => Sys2Proof.Machine.execCgetl d a s
  | .ctag d a => Sys2Proof.Machine.execCtag d a s
  | .cclr d => Sys2Proof.Machine.execCclr d s
  | .cperm d a b => Sys2Proof.Machine.execCperm d a b s
  | .cfmt d a b => Sys2Proof.Machine.execCfmt d a b s
  | .cshut d a b => Sys2Proof.Machine.execCshut d a b s
  | .copen d a b => Sys2Proof.Machine.execCopen d a b s
  | .xsync d level => Sys2Proof.Machine.execXsync d level s
  | .fence mode => Sys2Proof.Machine.execFence mode s
  | .fmadd2 dbl d a b => Sys2Proof.Machine.execFmadd2 dbl d a b s
  | .ctwaitx f => Sys2Proof.Machine.execCtwaitx f s
  | .addil d a imm => Sys2Proof.Machine.execAddil d a imm s
  | .andil d a imm => Sys2Proof.Machine.execAndil d a imm s
  | .oril d a imm => Sys2Proof.Machine.execOril d a imm s
  | .xoril d a imm => Sys2Proof.Machine.execXoril d a imm s
  | .li d imm => Sys2Proof.Machine.execLi d imm s
  | .lih d a imm => Sys2Proof.Machine.execLih d a imm s
  | .lil d imm => Sys2Proof.Machine.execLil d imm s
  | .ld f => Sys2Proof.Machine.execLd f s
  | .st f => Sys2Proof.Machine.execSt f s
  | .ldc f => Sys2Proof.Machine.execLdc f s
  | .stc f => Sys2Proof.Machine.execStc f s
  | .pref f => Sys2Proof.Machine.execPref f s
  | .ldw f => Sys2Proof.Machine.execLdw f s
  | .stw f => Sys2Proof.Machine.execStw f s
  | .aadd f => Sys2Proof.Machine.execAadd f s
  | .aand f => Sys2Proof.Machine.execAand f s
  | .aor f => Sys2Proof.Machine.execAor f s
  | .axor f => Sys2Proof.Machine.execAxor f s
  | .amin f => Sys2Proof.Machine.execAmin f s
  | .amax f => Sys2Proof.Machine.execAmax f s
  | .aminu f => Sys2Proof.Machine.execAminu f s
  | .amaxu f => Sys2Proof.Machine.execAmaxu f s
  | .aswap f => Sys2Proof.Machine.execAswap f s
  | .acas f => Sys2Proof.Machine.execAcas f s
  | .afadd f => Sys2Proof.Machine.execAfadd f s
  | .ctadd f => Sys2Proof.Machine.execCtadd f s
  | .ctwait f => Sys2Proof.Machine.execCtwait f s
  | .ctread f => Sys2Proof.Machine.execCtread f s
  | .cttry f => Sys2Proof.Machine.execCttry f s
  | .binit f => Sys2Proof.Machine.execBinit f s
  | .barrive f => Sys2Proof.Machine.execBarrive f s
  | .bwait f => Sys2Proof.Machine.execBwait f s
  | .barwait f => Sys2Proof.Machine.execBarwait f s
  | .sbind f => Sys2Proof.Machine.execSbind f s
  | .sunbind f => Sys2Proof.Machine.execSunbind f s
  | .send f => Sys2Proof.Machine.execSend f s
  | .recv f => Sys2Proof.Machine.execRecv f s
  | .recvt f => Sys2Proof.Machine.execRecvt f s
  | .ksend f => Sys2Proof.Machine.execKsend f s
  | .radv f => Sys2Proof.Machine.execRadv f s
  | .nbpost f => Sys2Proof.Machine.execNbpost f s
  | .nbview f => Sys2Proof.Machine.execNbview f s
  | .nbinit f => Sys2Proof.Machine.execNbinit f s
  | .nbslot f => Sys2Proof.Machine.execNbslot f s
  | .tclaim f => Sys2Proof.Machine.execTclaim f s
  | .tdone f => Sys2Proof.Machine.execTdone f s
  | .thand f => Sys2Proof.Machine.execThand f s
  | .schedw f => Sys2Proof.Machine.execSchedw f s
  | .schedr f => Sys2Proof.Machine.execSchedr f s
  | .cslice f => Sys2Proof.Machine.execCslice f s
  | .cslicei f => Sys2Proof.Machine.execCslicei f s
  | .crank f => Sys2Proof.Machine.execCrank f s
  | .cstep f => Sys2Proof.Machine.execCstep f s
  | .cfix f => Sys2Proof.Machine.execCfix f s
  | .cfree f => Sys2Proof.Machine.execCfree f s
  | .clease f => Sys2Proof.Machine.execClease f s
  | .center f => Sys2Proof.Machine.execCenter f s
  | .vadd f => Sys2Proof.Machine.execVadd f s
  | .vsub f => Sys2Proof.Machine.execVsub f s
  | .vmul f => Sys2Proof.Machine.execVmul f s
  | .vmin f => Sys2Proof.Machine.execVmin f s
  | .vmax f => Sys2Proof.Machine.execVmax f s
  | .vand f => Sys2Proof.Machine.execVand f s
  | .vor f => Sys2Proof.Machine.execVor f s
  | .vxor f => Sys2Proof.Machine.execVxor f s
  | .vshl f => Sys2Proof.Machine.execVshl f s
  | .vshr f => Sys2Proof.Machine.execVshr f s
  | .vsra f => Sys2Proof.Machine.execVsra f s
  | .vfma f => Sys2Proof.Machine.execVfma f s
  | .vfms f => Sys2Proof.Machine.execVfms f s
  | .vabs f => Sys2Proof.Machine.execVabs f s
  | .vneg f => Sys2Proof.Machine.execVneg f s
  | .vmov f => Sys2Proof.Machine.execVmov f s
  | .vcvt f => Sys2Proof.Machine.execVcvt f s
  | .vexp2 f => Sys2Proof.Machine.execVexp2 f s
  | .vlog2 f => Sys2Proof.Machine.execVlog2 f s
  | .vrcp f => Sys2Proof.Machine.execVrcp f s
  | .vrsq f => Sys2Proof.Machine.execVrsq f s
  | .vtanh f => Sys2Proof.Machine.execVtanh f s
  | .vcmp f => Sys2Proof.Machine.execVcmp f s
  | .vsel f => Sys2Proof.Machine.execVsel f s
  | .vred f => Sys2Proof.Machine.execVred f s
  | .vscan f => Sys2Proof.Machine.execVscan f s
  | .vtrans f => Sys2Proof.Machine.execVtrans f s
  | .vbcast f => Sys2Proof.Machine.execVbcast f s
  | .vshuf f => Sys2Proof.Machine.execVshuf f s
  | .vrot f => Sys2Proof.Machine.execVrot f s
  | .vins f => Sys2Proof.Machine.execVins f s
  | .vext f => Sys2Proof.Machine.execVext f s
  | .vmand f => Sys2Proof.Machine.execVmand f s
  | .vmor f => Sys2Proof.Machine.execVmor f s
  | .vmnot f => Sys2Proof.Machine.execVmnot f s
  | .vmpop f => Sys2Proof.Machine.execVmpop f s
  | .vplanes f => Sys2Proof.Machine.execVplanes f s
  | .vunplane f => Sys2Proof.Machine.execVunplane f s
  | .vbarq f => Sys2Proof.Machine.execVbarq f s
  | .vld f => Sys2Proof.Machine.execVld f s
  | .vst f => Sys2Proof.Machine.execVst f s
  | .vgather f => Sys2Proof.Machine.execVgather f s
  | .vscatter f => Sys2Proof.Machine.execVscatter f s
  | .vshape d a imm => Sys2Proof.Machine.execVshape d a imm s
  | .swadd f => Sys2Proof.Machine.execSwadd f s
  | .swsub f => Sys2Proof.Machine.execSwsub f s
  | .swmul f => Sys2Proof.Machine.execSwmul f s
  | .swmin f => Sys2Proof.Machine.execSwmin f s
  | .swmax f => Sys2Proof.Machine.execSwmax f s
  | .swfma f => Sys2Proof.Machine.execSwfma f s
  | .swcvt f => Sys2Proof.Machine.execSwcvt f s
  | .swcopy f => Sys2Proof.Machine.execSwcopy f s
  | .swbarq f => Sys2Proof.Machine.execSwbarq f s
  | .ecmd f => Sys2Proof.Machine.execEcmd f s
  | .ewait f => Sys2Proof.Machine.execEwait f s
  | .mwfetch f => Sys2Proof.Machine.execMwfetch f s
  | .mwload f => Sys2Proof.Machine.execMwload f s
  | .mwswap f => Sys2Proof.Machine.execMwswap f s
  | .mgwait f => Sys2Proof.Machine.execMgwait f s
  | .mgadv f => Sys2Proof.Machine.execMgadv f s
  | .mgread f => Sys2Proof.Machine.execMgread f s
  | .mstream f => Sys2Proof.Machine.execMstream f s
  | .spawn f => Sys2Proof.Machine.execSpawn f s
  | .xplan f => Sys2Proof.Machine.execXplan f s
  | .plansel value => Sys2Proof.Machine.execPlansel value s
  | .rxcfg ring value => Sys2Proof.Machine.execRxcfg ring value s
  | .kbin value => Sys2Proof.Machine.execKbin value s
  | .walloc value => Sys2Proof.Machine.execWalloc value s
  | .pmctl value => Sys2Proof.Machine.execPmctl value s
  | .fetch a line => Sys2Proof.Machine.execFetch a line s
  | .drain a k => Sys2Proof.Machine.execDrain a k s
  | .deliver k => Sys2Proof.Machine.execDeliver k s
  | .refresh a va pa => Sys2Proof.Machine.execRefresh a va pa s
  | .evict a ofFetch pa => Sys2Proof.Machine.execEvict a ofFetch pa s
  | .replicaPropagation k => Sys2Proof.Machine.execReplicaPropagation k s
  | .watchWake cell => Sys2Proof.Machine.execWatchWake cell s
  | .watchRetry a => Sys2Proof.Machine.execWatchRetry a s
  | .pageAnswer epoch ok => Sys2Proof.Machine.execPageAnswer epoch ok s
  | .pageRequestTimeout epoch => Sys2Proof.Machine.execPageRequestTimeout epoch s
  | .pageMigration tenant va newPage phase => Sys2Proof.Machine.execPageMigration tenant va newPage phase s
  | .shootdown tenant va => Sys2Proof.Machine.execShootdown tenant va s
  | .hotPageList die chan => Sys2Proof.Machine.execHotPageList die chan s
  | .refreshWindow die bank => Sys2Proof.Machine.execRefreshWindow die bank s
  | .sliceControl die slice tenant shared => Sys2Proof.Machine.execSliceControl die slice tenant shared s
  | .memoryError e => Sys2Proof.Machine.execMemoryError e s
  | .sweepPassBegin => Sys2Proof.Machine.execSweepPassBegin s
  | .sweepPassEnd => Sys2Proof.Machine.execSweepPassEnd s
  | .writeBack core => Sys2Proof.Machine.execWriteBack core s
  | .recordLoad core => Sys2Proof.Machine.execRecordLoad core s
  | .pickUp core => Sys2Proof.Machine.execPickUp core s
  | .idleTimeout a => Sys2Proof.Machine.execIdleTimeout a s
  | .recvtTimeout a => Sys2Proof.Machine.execRecvtTimeout a s
  | .superstepClose run level core => Sys2Proof.Machine.execSuperstepClose run level core s
  | .planEntryDepart core => Sys2Proof.Machine.execPlanEntryDepart core s
  | .planEntryLand k => Sys2Proof.Machine.execPlanEntryLand k s
  | .messageDelivery a => Sys2Proof.Machine.execMessageDelivery a s
  | .keyPairApply k => Sys2Proof.Machine.execKeyPairApply k s
  | .blockQueueLimit p limit => Sys2Proof.Machine.execBlockQueueLimit p limit s
  | .blockQueueTake p => Sys2Proof.Machine.execBlockQueueTake p s
  | .weightFetchRead core => Sys2Proof.Machine.execWeightFetchRead core s
  | .mwloadExpansion core => Sys2Proof.Machine.execMwloadExpansion core s
  | .quoin core rows => Sys2Proof.Machine.execQuoin core rows s
  | .streamCompletion core => Sys2Proof.Machine.execStreamCompletion core s
  | .copy core steps => Sys2Proof.Machine.execCopy core steps s
  | .gather core steps => Sys2Proof.Machine.execGather core steps s
  | .scatter core steps => Sys2Proof.Machine.execScatter core steps s
  | .epilogueS8 core steps => Sys2Proof.Machine.execEpilogueS8 core steps s
  | .epilogueZ8 core steps => Sys2Proof.Machine.execEpilogueZ8 core steps s
  | .epilogueS16 core steps => Sys2Proof.Machine.execEpilogueS16 core steps s
  | .epilogueZ16 core steps => Sys2Proof.Machine.execEpilogueZ16 core steps s
  | .epilogueS32 core steps => Sys2Proof.Machine.execEpilogueS32 core steps s
  | .epilogueZ32 core steps => Sys2Proof.Machine.execEpilogueZ32 core steps s
  | .epilogueFp16 core steps => Sys2Proof.Machine.execEpilogueFp16 core steps s
  | .epilogueBf16 core steps => Sys2Proof.Machine.execEpilogueBf16 core steps s
  | .epilogueFp32 core steps => Sys2Proof.Machine.execEpilogueFp32 core steps s
  | .epilogueE4m3 core steps => Sys2Proof.Machine.execEpilogueE4m3 core steps s
  | .epilogueE5m2 core steps => Sys2Proof.Machine.execEpilogueE5m2 core steps s
  | .flitReceive p f => Sys2Proof.Machine.execFlitReceive p f s
  | .linkRetrain p => Sys2Proof.Machine.execLinkRetrain p s
  | .linkDown p => Sys2Proof.Machine.execLinkDown p s
  | .dieReset die => Sys2Proof.Machine.execDieReset die s
  | .packetLoad q => Sys2Proof.Machine.execPacketLoad q s
  | .launch q => Sys2Proof.Machine.execLaunch q s
  | .waitctr q => Sys2Proof.Machine.execWaitctr q s
  | .signal q => Sys2Proof.Machine.execSignal q s
  | .copyPacket q => Sys2Proof.Machine.execCopyPacket q s
  | .marker q => Sys2Proof.Machine.execMarker q s
  | .doorbell q => Sys2Proof.Machine.execDoorbell q s
  | .runEnd run => Sys2Proof.Machine.execRunEnd run s
  | .preemptionDecision q => Sys2Proof.Machine.execPreemptionDecision q s
  | .preemptBoundary core => Sys2Proof.Machine.execPreemptBoundary core s
  | .save core => Sys2Proof.Machine.execSave core s
  | .preemptingLaunch q => Sys2Proof.Machine.execPreemptingLaunch q s
  | .restore core => Sys2Proof.Machine.execRestore core s
  | .hostKill run => Sys2Proof.Machine.execHostKill run s
  | .queueShadowWrite q word value => Sys2Proof.Machine.execQueueShadowWrite q word value s
  | .queueDestroy q => Sys2Proof.Machine.execQueueDestroy q s
  | .hostWindowTableWrite k w => Sys2Proof.Machine.execHostWindowTableWrite k w s
  | .atsInvalidation pasid hostPage => Sys2Proof.Machine.execAtsInvalidation pasid hostPage s
  | .acceptanceWindowWrite card k w => Sys2Proof.Machine.execAcceptanceWindowWrite card k w s
  | .bar2Access card offset n write => Sys2Proof.Machine.execBar2Access card offset n write s
  | .powerCEntry core => Sys2Proof.Machine.execPowerCEntry core s
  | .powerCExit core => Sys2Proof.Machine.execPowerCExit core s
  | .powerSEntry die => Sys2Proof.Machine.execPowerSEntry die s
  | .powerSExit die => Sys2Proof.Machine.execPowerSExit die s
  | .powerDEntry => Sys2Proof.Machine.execPowerDEntry s
  | .clockStepDown card => Sys2Proof.Machine.execClockStepDown card s
  | .clockStepUp card => Sys2Proof.Machine.execClockStepUp card s
  | .watchdogKick card => Sys2Proof.Machine.execWatchdogKick card s
  | .watchdogExpiry card => Sys2Proof.Machine.execWatchdogExpiry card s
  | .deviceReset monitorOk firmwareOk security => Sys2Proof.Machine.execDeviceReset monitorOk firmwareOk security s
  | .reducedService => Sys2Proof.Machine.execReducedService s
  | .fullService => Sys2Proof.Machine.execFullService s
  | .attestation nonce => Sys2Proof.Machine.execAttestation nonce s
  | .energyInterval card nanojoules activity => Sys2Proof.Machine.execEnergyInterval card nanojoules activity s
  | .routerGridDump die k => Sys2Proof.Machine.execRouterGridDump die k s
  | .counterSample core => Sys2Proof.Machine.execCounterSample core s
  | .stopRequest run level => Sys2Proof.Machine.execStopRequest run level s
  | .debugResume run held => Sys2Proof.Machine.execDebugResume run held s
  | .brkInterception run armed => Sys2Proof.Machine.execBrkInterception run armed s
  | .debugRead t => Sys2Proof.Machine.execDebugRead t s
  | .debugWrite t value => Sys2Proof.Machine.execDebugWrite t value s
  | .replay core => Sys2Proof.Machine.execReplay core s
  | .replayStep core => Sys2Proof.Machine.execReplayStep core s
  | .traceEnable die run ring len => Sys2Proof.Machine.execTraceEnable die run ring len s
  | .hypervisorClaim u => Sys2Proof.Machine.execHypervisorClaim u s
  | .hypervisorRelease u => Sys2Proof.Machine.execHypervisorRelease u s
  | .illegalInstruction p0 => Sys2Proof.Machine.execIllegalInstruction p0 s
  | .trainingFailure code unit => Sys2Proof.Machine.execTrainingFailure code unit s
  | .linkRetrainingComplete p => Sys2Proof.Machine.execLinkRetrainingComplete p s
  | .powerDExit => Sys2Proof.Machine.execPowerDExit s
  | .replayArm run journal => Sys2Proof.Machine.execReplayArm run journal s
  | .binaryLoad b => Sys2Proof.Machine.execBinaryLoad b s
  | .binaryUnload leases => Sys2Proof.Machine.execBinaryUnload leases s
  | .guardTableRefusal hart addr level tenant access => Sys2Proof.Machine.execGuardTableRefusal hart addr level tenant access s

end Sys2Proof.Machine
end

