-- ==== Sys2Proof/Machine/Parts.lean ====
section
/-! DEFINITION. Instructions issued by parts, where the Press or a pre-emption comes between (R122, R142, R249, R340): an
atomic that is still on its way, one element of a tile load, a gather or a scatter, one segment of a sweep. -/

namespace Sys2Proof.Machine

/-! ### Atomics on their way (R142) -/

/-- An atomic with a result enters the FIFO toward its home; the result register is written at its delivery (R142). -/
def atomicPart (f : MFields) (fn5 : BitVec 5) : M (Option Word) := do
  let s ← get
  let c := s.c f.c
  let wide := f.ty == 6
  let a ← accCheck c .A (scalarAccepts c.fmt.toNat f.ty.toNat true) (scalarSize f.ty.toNat) (s.index0 f) 0
  need (c.scope ≠ 2) 0x0D (BitVec.ofNat 64 a)
  let cmp := if f.t = 0 then 0 else s.g f.t
  if f.t = 0 then atomicStore f fn5 c a (s.g f.y) cmp
  else do
    let p ← xl a .atomic
    atomicSend (.atomic fn5 wide (s.g f.y) cmp (some f.t)) a p.1 (if wide then 8 else 4)
    pure none

/-- The part of an instruction that issues in one step: of an atomic its request, of a tile load, gather, scatter or sweep the
next element or segment; of any other all of it. -/
def execPart (i : Instr) (s : State) : Host.Outcome State Fault Refusal :=
  let sweep (f : WFields) (x : SweepOp) := runInstr i (recordedStep f.count.toNat (x.step f i.p0)) s
  match i with
  | .aadd f => runInstr i (atomicPart f 0) s
  | .aand f => runInstr i (atomicPart f 1) s
  | .aor f => runInstr i (atomicPart f 2) s
  | .axor f => runInstr i (atomicPart f 3) s
  | .amin f => runInstr i (atomicPart f 4) s
  | .amax f => runInstr i (atomicPart f 5) s
  | .aminu f => runInstr i (atomicPart f 6) s
  | .amaxu f => runInstr i (atomicPart f 7) s
  | .aswap f => runInstr i (atomicPart f 8) s
  | .acas f => runInstr i (atomicPart f 9) s
  | .afadd f => runInstr i (atomicPart f 10) s
  | .vld f => runInstr i (vldPart f) s
  | .vgather f => runInstr i (do gatherChecks f; recordedStep s.elems (gatherStep f s)) s
  | .vscatter f => runInstr i (do gatherChecks f; recordedStep s.elems (scatterStep f s)) s
  | .swadd f => sweep f (sweepBinary .add f)
  | .swsub f => sweep f (sweepBinary .sub f)
  | .swmul f => sweep f (sweepBinary .mul f)
  | .swmin f => sweep f (sweepBinary .min f)
  | .swmax f => sweep f (sweepBinary .max f)
  | .swfma f => sweep f (sweepFma f)
  | .swcvt f => sweep f (sweepCvt f)
  | .swcopy f => sweep f sweepCopy
  | .swbarq f => sweep f (sweepBarq f)
  | i => exec i s

/-! ### What may issue before an atomic's answer (R142; log 58) -/

/-- The requests of an agent whose answer it awaits. -/
def State.awaits (s : State) (a : Agent) : List Piece := s.press.fifo.filter (fun p => p.agent == a && p.awaited)
/-- The registers those answers will be written to. -/
def awaitedRegs (ps : List Piece) : List Reg :=
  ps.filterMap (fun p => match p.op with | .atomic _ _ _ _ (some d) => some (.g d) | _ => none)
/-- Nothing on its way or at its home would refuse a request (R98, R114, R288). -/
def State.willAnswer (s : State) (p : Piece) : Bool := !s.refused p.agent p.run p.place .both && !s.poisonAt p.place
/-- An instruction is independent of the answers: it is not solo, and neither reads nor writes a register they will be
written to. -/
def State.independent (s : State) (i : Instr) (ps : List Piece) : Bool :=
  issueClass i ≠ .solo && ps.all s.willAnswer
    && (awaitedRegs ps).all (fun r => !((uses s i).reads ++ (uses s i).writes).contains r)
/-- The issuing context went on to its next instruction: it took no trap and waits for nothing. -/
def wentOn (s t : State) : Bool :=
  t.ctx.occupied && t.ctx.sr.th == s.ctx.sr.th && t.ctx.susp.isNone && t.ctx.sending.isNone && !t.ctx.loading
    && t.ctx.fcap == s.ctx.fcap && t.core.run == s.core.run

/-! ### What an issue brings (R25, R367, R378, R404, R412) -/

/-- The first instruction of a run issues: START, and its .data sections cold (R367, R404; log 47). -/
def State.startClock (s : State) (r : Run) : State :=
  (s.updRun r.id.toNat (fun x => { x with begun := true, start := s.cardCycle (r.domain.die / 2) })).dropData r.tenant
/-- The first instruction on a core after its restore issues (R343, R412). -/
def State.restoredIssue (s : State) (core : Nat) : State :=
  if (s.coreAt core).restored then (s.setCoreAt core { s.coreAt core with restored := false }).trace core 0 5 0 0 else s
/-- What a first instruction brings, of its run or of its core after a restore. -/
def State.beginIssue (s : State) : State :=
  let s := match s.run? (s.runOf s.cur) with
    | some r => if r.begun then s else s.startClock r
    | none => s
  match agentCore s.cur with
  | some k => s.restoredIssue k
  | none => s

/-- What an instruction brings as it issues: it may be a first one, and its pair or its pairing miss is counted (R25). -/
def State.countIssue (s : State) (i : Instr) : State :=
  let s := s.beginIssue
  match agentCore s.cur, s.lineNow with
  | some core, some l => s.countPair core l.data (s.pc.toNat % 64 / 4) i
  | _, _ => s

end Sys2Proof.Machine
end

