-- ==== Sys2Proof/Machine/Schedule.lean ====
section
/-! DEFINITION. The order of turns when the schedule names none (R141, R297; log 3), and what passes with every step (R205,
R378; log 4). -/

namespace Sys2Proof.Machine

/-- The cores that hold something. -/
def State.coreIds (s : State) : List Nat := s.cores.map Prod.fst
/-- The agent that issues next: on the next core in the order of their numbers that has one, after the core that issued last
(R297, R309; log 3). -/
def State.pick (s : State) : Option Agent :=
  let k := s.coreNo
  (s.coreIds.filter (fun n => k < n) ++ s.coreIds.filter (fun n => n ≤ k)).findSome? s.pickOn

/-! ### Steps that are taken eventually (R141, R309) -/

/-- A core whose next boundary stops it (R338, R340). -/
def State.boundaryDue (s : State) (core : Nat) : Bool :=
  match s.runOn core with
  | some r => r.ending.isSome || (r.state == .preempted && (s.coreAt core).boundary.isNone)
  | none => false
/-- What an event does to the state. -/
def State.afterEvent (s : State) : Host.Outcome State Fault Refusal → State
  | .next t => t
  | _ => s
/-- The context whose time-limited wait has lasted as many steps as it allows cycles (R177). -/
def State.timedOut? (s : State) (a : Agent) : Bool :=
  match (s.ctxOf a).susp with
  | some w => (match w.limit with | some n => decide (w.since + n ≤ s.tick) | none => false)
  | none => false
/-- The written-back RECVT of a core whose time is over (R177, R309). -/
def State.parkedOver? (s : State) (core : Nat) : Option Parked :=
  (s.coreAt core).u.waiting.find? (fun p =>
    p.susp.reason = .message && (match p.susp.limit with | some n => decide (p.susp.since + n ≤ s.tick) | none => false))
/-- A suspended continuation of a core gives up its slot for a ready record (R294, R309). -/
def State.writableBack (s : State) (core : Nat) : Bool :=
  let k := s.coreAt core
  !k.halted && !k.gated && !k.u.ready.isEmpty && (s.freeSlots core).isEmpty
    && (s.candidates core).any (fun i => (s.writeBackSlot core i).isSome)
/-- A queue whose next packet is a COPY that can go on (R361). -/
def State.copyingQueue? (s : State) : Option Nat :=
  (s.queues.map Prod.fst).find? (fun q => match s.startable q 4 with
    | some p => !(s.weightDies q p).any s.dieBusy
    | none => false)
/-- A sweep hart with its part of the pass before it (R69). -/
def State.sweeper? (s : State) : Option Nat :=
  if s.leases.passing then
    (List.range (16 * s.numDies)).find? (fun k => s.hasAgent (.sweep (k / 16) (k % 16)) && !s.leases.done.contains k)
  else none
/-- The first entry of the exchange channel that its core can take. -/
def State.landing? (s : State) : Option Nat :=
  (List.range s.press.exchange.length).find? (fun k => match s.press.exchange[k]? with
    | some x => !s.exchangeHeld x && (match x with
      | .transfer run _ dst _ _ _ _ => (s.stand run dst).isSome
      | .pair run _ dst _ _ _ => (s.coreAt dst).run == some run)
    | none => false)

/-- The steps that the machine takes of its own, in kinds; none where nothing of a kind is enabled. -/
def State.lane (s : State) (n : Nat) : Option State :=
  if n = 0 then (s.press.fifo.find? s.mayDeliver).map s.deliver
  else if n = 1 then (s.press.queues.find? s.drainable).map s.drain
  else if n = 2 then
    (s.press.props.find? s.mayPropagate).map (fun p =>
      { s with press := { s.press with props := s.press.props.erase p } }.propagate p)
  else if n = 3 then (if s.press.watches.any s.reached then some (s.wakeWatches s.reached) else none)
  else if n = 4 then (s.coreIds.find? s.loadable).map s.recordLoad
  else if n = 5 then (s.coreIds.find? s.pickable?).map s.pickUp
  else if n = 6 then (s.coreIds.find? s.boundaryDue).map (fun k => s.afterEvent (execPreemptBoundary k s))
  else if n = 7 then
    (s.landing?).map (fun k => match s.press.exchange[k]? with
      | some (Exchange.transfer _ _ _ _ _ _ _) => s.afterEvent (execPlanEntryLand k s)
      | _ => s.afterEvent (execKeyPairApply k s))
  else if n = 8 then
    s.coreIds.findSome? (fun k => match s.runOn k, (s.coreAt k).arrived with
      | some r, level =>
        let run := r.id.toNat
        let t := s.afterEvent (execSuperstepClose run (level.getD r.domain.level).toNat k s)
        if (level.isSome || !r.opened.contains (k / 768)) && t != s then some t else none
      | none, _ => none)
  else if n = 9 then
    ((s.coreIds.flatMap coreAgents).find? (fun a => (s.ctxOf a).sending.isSome && !s.messageHeld a)).map s.deliverMessage
  else if n = 10 then ((s.coreIds.flatMap coreAgents).find? s.timedOut?).map (fun a => s.afterEvent (execRecvtTimeout a s))
  else if n = 11 then (s.coreIds.find? s.wakeDue).map (fun k => s.setCoreAt k { s.coreAt k with gated := false })
  else if n = 12 then (s.coreIds.find? s.writableBack).map (fun k => s.afterEvent (execWriteBack k s))
  else if n = 13 then
    s.coreIds.findSome? (fun k => (s.parkedOver? k).map (fun p => s.recvtOver k p.recAddr.toNat))
  else if n = 14 then s.copyingQueue?.map (fun q => s.hartStep (queueHart q))
  else s.sweeper?.map (fun k => s.sweepPart (k / 16) (k % 16))
/-- Kinds of steps. -/
def laneCount : Nat := 16

/-- What moves where the schedule names nothing: the next kind of step that is enabled, the kinds in turn (R141, R309;
log 3). -/
def State.drift (s : State) : State :=
  ((List.range laneCount).findSome? (fun i => s.lane ((s.tick / 4 + i) % laneCount))).getD s
/-- Every fourth step with nothing on the schedule belongs to the steps of R141 (log 3). -/
def State.driftDue (s : State) : Bool := s.tick % 4 = 3

/-! ### Time -/

/-- The events of R378 whose counts depend on timing alone: their increments are free values (log 4). -/
def timedEvent (e : Nat) : Bool := e = 9 || e = 13

/-- A counter bank over a step of `n` cycles: events 1, 11 and 15 count them, a timing event a free number (R378; log 4). -/
def PerfBank.pass (b : PerfBank) (n tick : Nat) (onPage atXsync : Bool) : PerfBank :=
  { b with pmc := Vector.ofFn (fun i : Fin 8 =>
      let e := (b.ctl.extractLsb' (6 * i.val) 6).toNat
      if !b.ctl.getLsbD (48 + i.val) then b.pmc[i]
      else if e = 1 || (e = 11 && onPage) || (e = 15 && atXsync) then b.pmc[i] + BitVec.ofNat 64 n
      else if timedEvent e then b.pmc[i] + Config.freeWord (8 * tick + i.val)
      else b.pmc[i]) }

/-- A continuation of a core is parked on a page (R378). -/
def State.parkedOn (s : State) (core : Nat) : Bool :=
  (coreAgents core).any (fun a => match (s.ctxOf a).susp with | some w => w.reason = .page | none => false)
    || (s.coreAt core).u.waiting.any (fun p => p.susp.reason = .page)

/-- Core-cycles that the runs on a card's cores hold in `n` cycles of die 0's CYCLE (R382). -/
def State.holdCycles (s : State) (card n : Nat) : State :=
  let c := s.card card
  let ids := s.cores.filterMap (fun p => if p.1 / 768 == card then p.2.run else none)
  s.setCard card { c with heldCycles := ids.foldl (fun m r => Sparse.put 0 m r (Sparse.get 0 m r + n)) c.heldCycles }

/-- Time passes: every die's CYCLE by its card's clock, which keeps the two dies of a card equal, the model's choice (R205,
log 4), the counters of cores that run, the core-cycles of
runs, the counter behind free values (R205, R378, R382; log 4). -/
def State.pass (s : State) : State :=
  let s := (List.range s.numDies).foldl (fun s d =>
    s.setDie d { s.die d with cycle := (s.die d).cycle + BitVec.ofNat 64 (s.cyclesNow (d / 2)) }) s
  let s := (List.range (s.numDies / 2)).foldl (fun s k => s.holdCycles k (s.cyclesNow 0)) s
  { s with
    tick := s.tick + 1
    cores := s.cores.map (fun p =>
      if p.2.run.isSome && !p.2.gated then
        (p.1, { p.2 with perf := p.2.perf.pass (s.cyclesNow (p.1 / 768)) s.tick (s.parkedOn p.1) p.2.arrived.isSome })
      else p) }

end Sys2Proof.Machine
end

