-- ==== Sys2Proof/Machine/Step.lean ====
section
/-! DEFINITION. One step of the machine: the next turn of the schedule, or, when the schedule names none, the next
context in issue order or a step of R141 (R141, R297; log 3); and an instruction placed where the next step fetches it
(log 5). -/

namespace Sys2Proof.Machine

/-- A step's outcome once time has passed (log 4). -/
def finish : Host.Outcome State Fault Refusal → Host.Outcome State Fault Refusal
  | .next s => .next s.pass
  | o => o

/-- What issuing leaves once a boundary log or replay mode has had its say (R375, R376). -/
def afterIssue (old : State) (i : Option Instr) : Host.Outcome State Fault Refusal → Host.Outcome State Fault Refusal
  | .next t => .next (old.recorded t i)
  | o => o

/-- The next instruction of the issuing agent, `run` giving its effect: a trap that the agent owes comes first (R174, R288),
then that of a failed page request (R86), then R23 and the instruction. -/
def issueNow (run : Instr → State → Host.Outcome State Fault Refusal) (s : State) : Host.Outcome State Fault Refusal :=
  match s.ctx.owed, s.ctx.pageFail with
  | some (cause, eval, pc), _ => afterIssue s none (.next ((s.setCtx { s.ctx with owed := none, pc := pc, vpart := none }).takeTrap cause eval 0))
  | none, some va => afterIssue s none (.next ((s.setCtx { s.ctx with pageFail := none, vpart := none }).takeTrap 0x10 va 0))
  | none, none =>
    match s.nextInstr with
    | .instr i t => afterIssue t (some i) (run i (t.countIssue i))
    | .illegal p0 t => afterIssue t none (execIllegalInstruction p0 t.beginIssue)
    | .trap cause eval t => afterIssue t none (.next (t.takeTrap cause eval 0))
    | .park va mig t => afterIssue t none (.next (t.parkOn va mig false))
    | .held t => .next t

/-- An agent may issue now; a copy hart not while it runs a closing domain's plan (R162, R297). -/
def State.mayIssue (s : State) (a : Agent) : Bool :=
  s.canIssue a && (match a with | .copy k => !s.planRuns k | _ => true)

/-- Agent `a` issues once what it awaits is there; where a link on the way retrains it waits (R142, R285). -/
def issueBy (run : Instr → State → Host.Outcome State Fault Refusal) (s : State) (a : Agent) : Host.Outcome State Fault Refusal :=
  if !s.mayIssue a then .next { s with cur := a }
  else
    let s := s.settleAwaited a
    if s.awaits a = [] then issueNow run (s.take a) else .next { s with cur := a }
/-- Agent `a` issues one instruction, whole, if it is able to. -/
def issue (s : State) (a : Agent) : Host.Outcome State Fault Refusal := issueBy exec s a

/-- An instruction that depends on no answer which agent `a` awaits issues before it (R142; log 58). -/
def State.issueEarly (s : State) (a : Agent) : Option State :=
  let s := s.take a
  if s.ctx.owed.isSome || s.ctx.pageFail.isSome then none
  else
    match s.nextInstr with
    | .instr i t =>
      if t.independent i (t.awaits a) then
        match execPart i (t.countIssue i) with
        | .next u => if wentOn t u then some u else none
        | _ => none
      else none
    | _ => none
/-- Agent `a` issues by parts (R142, R340); a core that keeps a boundary log or replays one issues whole instructions
(log 27). -/
def issuePart (s : State) (a : Agent) : Host.Outcome State Fault Refusal :=
  let whole : Bool := match agentCore a with | some k => s.logging k || (s.coreAt k).dbg.replaying | none => false
  if whole then issue s a
  else if !s.mayIssue a || s.awaits a = [] then issueBy execPart s a
  else
    match s.issueEarly a with
    | some t => .next t
    | none => issueBy execPart s a

/-- One step. -/
def step (s : State) : Host.Outcome State Fault Refusal :=
  match s.agenda with
  | .event i :: rest => finish (exec i { s with agenda := rest })
  | .issue a :: rest => if s.hasAgent a then finish (issue { s with agenda := rest } a) else .fault .absentAgent
  | .part (.command h) :: rest => finish (.next ({ s with agenda := rest }.hartStep h))
  | .part a :: rest => if s.hasAgent a then finish (issuePart { s with agenda := rest } a) else .fault .absentAgent
  | .act x :: rest => finish (.next ({ s with agenda := rest }.act x))
  | [] =>
    match s.pick, s.driftDue with
    | some a, false => finish (issue s a)
    | _, _ => finish (.next s.drift)

/-- `s` with the instruction whose bits are `w` placed at parcel 1 of a line of core 0's local memory, and context 0 of
core 0 resident at it under a run of its own, as a launch leaves a core (R306; log 5). -/
def State.withFetchWord (s : State) (nbits w : Nat) : State :=
  let s := { s with agenda := [.issue (.ctx 0 0)], cur := .ctx 0 0, runs := placedRun :: s.runs }
  let s := s.setQueues s.press.queues (s.press.fifo.filter (fun p => p.agent != .ctx 0 0))
  let s := s.setBytes (localBase 0) (leBytes 64 (lineOf (tableParcels nbits w)).toNat)
  let c := s.ctx
  let s := s.setCtx { c with
    occupied := true, pinned := true, pc := BitVec.ofNat 64 (localBase 0 + 4), fcap := placedCode, susp := none,
    idle := none, held := false, loading := false, sending := none, pageFail := none, owed := none, vpart := none, sr := { c.sr with cid := 1 } }
  let k := s.coreAt 0
  s.setCoreAt 0 { k with
    run := some 1, last := 3, stopped := false, closed := none, boundary := none, gated := false, arrived := none, restored := false,
    dbg := { k.dbg with replaying := false },
    u := { k.u with fetchBuf := k.u.fetchBuf.filter (fun l => l.pa != localBase 0), leases := k.u.leases.filter (fun e => e.1 != 0) } }

end Sys2Proof.Machine
end

