-- ==== Sys2Proof/Safety.lean ====
section
/-! DEFINITION. What a good state is, and the words in which the statements speak of instructions: when one is accepted,
what it may change, where control goes. -/

namespace Sys2Proof.Machine

/-! ### The invariant -/

/-- The canonical form of memory, of its tags and of its poison. -/
def Memory.wf (s : State) : Bool :=
  Sparse.wf (0#8) s.mem && Sparse.wf false s.tags && Sparse.wf false s.poison

/-- The invariant that every step keeps. -/
def State.Inv (s : State) : Prop := Memory.wf s = true

/-! ### Instructions -/

/-- The issuing agent executes instructions of this kind (R159), and this one is well formed (R30). -/
def State.accepts (s : State) (i : Instr) : Prop :=
  (isEngine s.cur = true → inProfile s.cur i = true) ∧ i.wf = true

/-- What a completed instruction leaves when it left `t` and control goes on in sequence (R19). -/
def State.after (s : State) (i : Instr) (t : State) : State := t.setPc (s.nextPc i)

/-- `i` completes: it leaves `t`, and control goes on in sequence. -/
def State.leaves (s : State) (i : Instr) (t : State) : Prop := exec i s = .next (s.after i t)

/-- `i` completes: g[d] becomes `x`, control goes on in sequence, and that is all. -/
def State.writesG (s : State) (i : Instr) (d : BitVec 5) (x : Word) : Prop := exec i s = .next (s.after i (s.setG d x))

/-- A first parcel that traps with a cause, EVAL the parcel, before anything else is looked at (R30), wherever the whole
instruction stands within a line. -/
def TrapsAtDecode (p : Parcel) (cause : BitVec 8) : Prop :=
  ∀ (line : BitVec 512) (k : Nat) (s : State), isEngine s.cur = false → k + (p.extractLsb' 0 2).toNat < 16 → lineWord line k = p →
    decodeAt line k s = .trap cause (p.setWidth 64) s ∨
      (decodeAt line k s = .illegal p s ∧ execIllegalInstruction p s = .next (s.takeTrap cause (p.setWidth 64) 0))

/-- Control may go to `t`, and `u` is what the check leaves: outside fcap's footprint nothing is checked (R214), inside
it the target passes R20. -/
def State.mayEnter (s : State) (t : Word) (u : State) : Prop :=
  (s.ctx.fcap.covers t.toNat = false ∧ u = s) ∨ (s.ctx.fcap.covers t.toNat = true ∧ s.checkTarget t true = .ok u)

/-! ### Window operands -/

/-- A window operand passes the checks of R201 and R199. -/
def State.winOk (s : State) (n : Int) (wide : Bool) : Prop :=
  0 ≤ n ∧ n < s.wsize ∧ (wide = true → n % 2 = 0 ∧ n + 1 < s.wsize)

/-- The rounding mode of FCSR (R186) is one that exists. -/
def State.modeOk (s : State) : Prop := s.ctx.sr.fcsr.extractLsb' 0 3 ≠ 7
/-- The rounding mode of FCSR. -/
def State.mode (s : State) : Mode := Mode.ofCode (s.ctx.sr.fcsr.extractLsb' 0 3).toNat

/-! ### Tiles -/

/-- A tile of a type fits: whole blocks of a BPI type (R222), no more bytes than a register has (R223). -/
def State.tileOk (s : State) (ty : Nat) : Prop := (Fmt.isBpi ty = true → s.elems % 256 = 0) ∧ tileBytes ty s.elems ≤ s.vbytes
/-- The rounding mode that an rnd field names exists and is `m` (R186, R233). -/
def State.modeIs (s : State) (rnd : BitVec 3) (m : Mode) : Prop :=
  (rnd ≠ 7 ∧ m = Mode.ofCode rnd.toNat) ∨ (rnd = 7 ∧ s.modeOk ∧ m = s.mode)
/-- `i` completes and writes elements 0 to `n - 1` of v[d], of `w` bits each: by `fn` where the mask selects, else the old
value or zero (R224, R225); the bits above keep their value; FCSR takes the flags of the elements computed (R227); nothing
else changes. -/
def State.tileResult (s : State) (i : Instr) (d : BitVec 3) (w n : Nat) (m : BitVec 2) (mz : Bool) (fn : Nat → Nat × Flags) :
    Prop :=
  ∃ x, s.leaves i ((s.setV d x).setFlags
      ((List.range n).foldl (fun fl e => if s.selected m e then fl.join (fn e).2 else fl) {})) ∧
    (∀ e, e < n → elemAt x w e = if s.selected m e then (fn e).1 % 2 ^ w else if mz then 0 else elemAt (s.v d) w e) ∧
    (∀ b, w * n ≤ b → x.getLsbD b = (s.v d).getLsbD b)

/-! ### Traps, releases -/

/-- `i` traps with a cause and an EVAL and has no other effect (R39, R336). -/
def State.traps (s : State) (i : Instr) (cause : BitVec 8) (eval : Word) : Prop :=
  exec i s = .next (s.takeTrap cause eval 0)

/-- `i` traps because Cap_Check of `c` fails: but for the trap, only the read of the lease's entry is left (R60, R61, R87). -/
def State.trapsChecked (s : State) (i : Instr) (c : Cap) (cause : BitVec 8) (eval : Word) : Prop :=
  exec i s = .next ((s.noted c.checkNote).takeTrap cause eval 0)

/-- `i` traps because its target `t` fails the check of R20 or R21: but for the trap, only the fetched line is left, or the
failing walk's reads with the event of a malformed table (R76, R79, R413). -/
def State.trapsAt (s : State) (i : Instr) (cause : BitVec 8) (eval t : Word) : Prop :=
  exec i s = .next ((s.noted (s.targetNote t cause)).takeTrap cause eval 0)

/-- A release of a scope passes and leaves `u` (R127, R83, R285, R337): no deferred fault is pending, before or after every
earlier store of the agent has been performed, no side log holds an entry of the agent, and none of its writes waits at a
link that retrains. -/
def State.releases (s : State) (scope : Nat) (u : State) : Prop :=
  s.ctx.deferred = none ∧ s.logged = false ∧ s.writesHeld = false ∧ (s.flush s.cur).ctx.deferred = none ∧ u = (s.flush s.cur).dropPorts s.cur scope

/-- A handler is installed, its address lies in RCC's footprint and passes R20, and `u` is what that check leaves (R336). -/
def State.mayHandle (s : State) (u : State) : Prop :=
  isEngine s.cur = false ∧ s.ctx.sr.th = false ∧ s.ctx.sr.tvecEn = true ∧
    s.core.rcc.covers s.ctx.sr.tvecAddr.toNat = true ∧ s.checkTarget s.ctx.sr.tvecAddr true = .ok u

/-! ### Progress -/

/-- What an instruction that records its progress in VPROG has reached after `k` of its steps from step `p` on, each
completed; none where one of them stopped (R122, R248). -/
def State.afterSteps (s : State) (step : Nat → M Unit) (p : Nat) : Nat → Option State
  | 0 => some s
  | k + 1 =>
    match s.afterSteps step p k with
    | none => none
    | some t =>
      match step (p + k) t with
      | .ok _ u => some (u.setVprog (p + k + 1))
      | .error _ _ => none

/-- `i` takes the steps from VPROG to `n` (R122, R248): once all have completed it completes with VPROG 0; one that traps or
parks leaves VPROG at it and what the steps before it did; VPROG at or above `n` traps. -/
def State.takesSteps (s : State) (i : Instr) (n : Nat) (step : Nat → M Unit) : Prop :=
  let p := s.vprog
  (n ≤ p → s.traps i 0x02 (BitVec.ofNat 64 p)) ∧
  (p < n →
    (∀ t, s.afterSteps step p (n - p) = some t → s.leaves i (t.setVprog 0)) ∧
    (∀ k t, p + k < n → s.afterSteps step p k = some t →
      (∀ cause eval note u, step (p + k) t = .error (.trap cause eval note) u →
        exec i s = .next ((t.noted note).takeTrap cause eval 0)) ∧
      (∀ va mig kept u, step (p + k) t = .error (.park va mig kept) u → exec i s = .next (t.parkOn va mig false))))

end Sys2Proof.Machine
end

