-- ==== Sys2Proof/Certificates/Slice0/Obligations.lean ====
section
/-! DEFINITION. The statements for the provers. -/

open Sys2Proof Sys2Proof.Machine

/-! ### Integer instructions -/

/-- R208, R209: the 26 register instructions complete for every operand, with the results of the table; the divide
instructions round toward zero and have the fixed results of R209 where the quotient is infinite or does not fit. A
non-zero b of CLZ, CTZ or POPC traps with cause 0x02. -/
def Obligations.IntegerResults : Prop :=
  (∀ (s : State) (d a b : BitVec 5),
    let A := s.g a
    let B := s.g b
    let n := (B.extractLsb' 0 6).toNat
    let ovf : Prop := A.toInt = -2 ^ 63 ∧ B.toInt = -1
    s.writesG (.add d a b) d (A + B) ∧
    s.writesG (.sub d a b) d (A - B) ∧
    s.writesG (.and d a b) d (A &&& B) ∧
    s.writesG (.or d a b) d (A ||| B) ∧
    s.writesG (.xor d a b) d (A ^^^ B) ∧
    s.writesG (.andn d a b) d (A &&& ~~~B) ∧
    s.writesG (.sll d a b) d (A <<< n) ∧
    s.writesG (.srl d a b) d (A >>> n) ∧
    s.writesG (.sra d a b) d (A.sshiftRight n) ∧
    s.writesG (.slt d a b) d (if A.toInt < B.toInt then 1 else 0) ∧
    s.writesG (.sltu d a b) d (if A.toNat < B.toNat then 1 else 0) ∧
    s.writesG (.mul d a b) d (BitVec.ofNat 64 (A.toNat * B.toNat)) ∧
    s.writesG (.mulh d a b) d ((A.signExtend 128 * B.signExtend 128).extractLsb' 64 64) ∧
    s.writesG (.mulhu d a b) d ((A.setWidth 128 * B.setWidth 128).extractLsb' 64 64) ∧
    s.writesG (.div d a b) d (BitVec.ofInt 64
      (if B = 0 then (if A.toInt < 0 then -2 ^ 63 else 2 ^ 63 - 1) else if ovf then 2 ^ 63 - 1 else A.toInt.tdiv B.toInt)) ∧
    s.writesG (.divu d a b) d (BitVec.ofNat 64 (if B = 0 then 2 ^ 64 - 1 else A.toNat / B.toNat)) ∧
    s.writesG (.rem d a b) d (BitVec.ofInt 64 (if B = 0 then A.toInt else if ovf then -1 else A.toInt.tmod B.toInt)) ∧
    s.writesG (.remu d a b) d (if B = 0 then A else BitVec.ofNat 64 (A.toNat % B.toNat)) ∧
    s.writesG (.min d a b) d (if A.toInt ≤ B.toInt then A else B) ∧
    s.writesG (.max d a b) d (if A.toInt ≤ B.toInt then B else A) ∧
    s.writesG (.minu d a b) d (if A.toNat ≤ B.toNat then A else B) ∧
    s.writesG (.maxu d a b) d (if A.toNat ≤ B.toNat then B else A) ∧
    (∃ k : Nat, k ≤ 64 ∧ (∀ i, i < k → A.getLsbD (63 - i) = false) ∧ (k < 64 → A.getLsbD (63 - k) = true) ∧
      s.writesG (.clz d a) d (BitVec.ofNat 64 k)) ∧
    (∃ k : Nat, k ≤ 64 ∧ (∀ i, i < k → A.getLsbD i = false) ∧ (k < 64 → A.getLsbD k = true) ∧
      s.writesG (.ctz d a) d (BitVec.ofNat 64 k)) ∧
    s.writesG (.popc d a) d (BitVec.ofNat 64 ((List.range 64).countP A.getLsbD)) ∧
    s.writesG (.sel d a b) d (if s.g d = 0 then B else A)) ∧
  ∀ (fn9 : BitVec 9) (b a d : BitVec 5), 0x16 ≤ fn9.toNat → fn9.toNat ≤ 0x18 → b ≠ 0 →
    TrapsAtDecode (fn9 ++ b ++ a ++ d ++ 0#6 ++ 0#2) 0x02

/-- R210 to R213: the instructions with an immediate complete for every operand; a shift of kind 0b11 traps with cause
0x01, and non-zero fields that the others do not use trap with cause 0x02. -/
def Obligations.ImmediateResults : Prop :=
  (∀ (s : State) (d a : BitVec 5) (imm : BitVec 14),
    let A := s.g a
    let K := imm.signExtend 64
    s.writesG (.addi d a imm) d (A + K) ∧
    s.writesG (.andi d a imm) d (A &&& K) ∧
    s.writesG (.ori d a imm) d (A ||| K) ∧
    s.writesG (.xori d a imm) d (A ^^^ K) ∧
    s.writesG (.slti d a imm) d (if A.toInt < K.toInt then 1 else 0) ∧
    s.writesG (.sltiu d a imm) d (if A.toNat < K.toNat then 1 else 0)) ∧
  (∀ (s : State) (d a : BitVec 5) (n : BitVec 6),
    s.writesG (.slli d a n) d (s.g a <<< n.toNat) ∧
    s.writesG (.srli d a n) d (s.g a >>> n.toNat) ∧
    s.writesG (.srai d a n) d ((s.g a).sshiftRight n.toNat)) ∧
  (∀ (imm : BitVec 14) (a d : BitVec 5),
    (imm.extractLsb' 6 2 = 3 → TrapsAtDecode (imm ++ a ++ d ++ 7#6 ++ 0#2) 0x01) ∧
    (imm.extractLsb' 6 2 ≠ 3 → imm.extractLsb' 8 6 ≠ 0 → TrapsAtDecode (imm ++ a ++ d ++ 7#6 ++ 0#2) 0x02)) ∧
  (∀ (s : State) (d a : BitVec 5) (imm : BitVec 32),
    let A := s.g a
    let K := imm.signExtend 64
    s.writesG (.addil d a imm) d (A + K) ∧
    s.writesG (.andil d a imm) d (A &&& K) ∧
    s.writesG (.oril d a imm) d (A ||| K) ∧
    s.writesG (.xoril d a imm) d (A ^^^ K) ∧
    s.writesG (.li d imm) d K ∧
    s.writesG (.lih d a imm) d ((imm.setWidth 64 <<< 32) ||| (A &&& 0xFFFFFFFF))) ∧
  (∀ (fn9 : BitVec 9) (b a d : BitVec 5), fn9.toNat ≤ 5 → (b ≠ 0 ∨ (fn9 = 4 ∧ a ≠ 0)) →
    TrapsAtDecode (fn9 ++ b ++ a ++ d ++ 0#6 ++ 1#2) 0x02) ∧
  (∀ (s : State) (d : BitVec 5) (p1 p2 : Parcel),
    s.writesG (.lil d (p2 ++ p1)) d (p2 ++ p1) ∧
    (∀ rest, decode ((0#19 ++ d ++ 0#6 ++ 2#2) :: p1 :: p2 :: rest) = .ok (.lil d (p2 ++ p1), rest))) ∧
  ∀ (z : BitVec 19) (d : BitVec 5), z ≠ 0 → TrapsAtDecode (z ++ d ++ 0#6 ++ 2#2) 0x02

/-! ### Branches, jumps, LOOP -/

/-- R214, R215: a conditional branch whose condition fails goes on in sequence and changes nothing else; one whose
condition holds transfers to PC + 4 × off14, which is checked by R20 only inside fcap's footprint; a failed check is a trap
with the cause found, EVAL as found, and the branch has no effect.
R216, R217: JAL and JALR write the 48-bit address of the next instruction and go to their target; the target of JALR
is read before the link is written. LOOP decrements g[a] and goes to its target unless the result is 0; LOOP of g0, or with a
non-zero b, traps with cause 0x02. A target in the footprint that fails its check traps and writes nothing. -/
def Obligations.BranchAndJumpResults : Prop :=
  (∀ (s : State) (a b : BitVec 5) (off : BitVec 14),
    let A := s.g a
    let B := s.g b
    let t : Word := s.pc + 4 * off.signExtend 64
    ∀ r ∈ ([(.beq a b off, A = B), (.bne a b off, A ≠ B), (.blt a b off, A.toInt < B.toInt),
        (.bge a b off, B.toInt ≤ A.toInt), (.bltu a b off, A.toNat < B.toNat), (.bgeu a b off, B.toNat ≤ A.toNat)] :
        List (Instr × Prop)),
      (¬ r.2 → exec r.1 s = .next (s.setPc (s.nextPc r.1))) ∧
      (∀ u, r.2 → s.mayEnter t u → exec r.1 s = .next (u.setPc t)) ∧
      (∀ cause eval, r.2 → s.ctx.fcap.covers t.toNat = true → s.checkTarget t true = .bad cause eval →
        s.trapsAt r.1 cause eval t)) ∧
  ((∀ (s : State) (d a : BitVec 5) (off : BitVec 19) (imm : BitVec 14),
    ∀ r ∈ ([(.jal d off, s.pc + 4 * off.signExtend 64), (.jalr d a imm, s.g a + 4 * imm.signExtend 64)] :
        List (Instr × Word)),
      (∀ u, s.mayEnter r.2 u → exec r.1 s = .next ((u.setG d (((s.nextPc r.1).setWidth 48).setWidth 64)).setPc r.2)) ∧
      (∀ cause eval, s.ctx.fcap.covers r.2.toNat = true → s.checkTarget r.2 true = .bad cause eval →
        s.trapsAt r.1 cause eval r.2)) ∧
  ∀ (s : State) (a : BitVec 5) (off : BitVec 14),
    let t : Word := s.pc + 4 * off.signExtend 64
    (a = 0 → exec (.loop a off) s = .next (s.takeTrap 0x02 (Instr.loop a off).p0 0)) ∧
    (a ≠ 0 → s.g a = 1 → exec (.loop a off) s = .next (s.after (.loop a off) (s.setG a 0))) ∧
    (∀ u, a ≠ 0 → s.g a ≠ 1 → s.mayEnter t u → exec (.loop a off) s = .next ((u.setG a (s.g a - 1)).setPc t)) ∧
    (∀ cause eval, a ≠ 0 → s.g a ≠ 1 → s.ctx.fcap.covers t.toNat = true → s.checkTarget t true = .bad cause eval →
      s.trapsAt (.loop a off) cause eval t) ∧
    ∀ b : BitVec 5, b ≠ 0 → TrapsAtDecode (off ++ b ++ a ++ 16#6 ++ 0#2) 0x02)

/-- R20, R21: the target check traps with cause 0x06, EVAL the target, for an address that is no multiple of 4 or is word
0 of its line; in a line without poison, with good parities and word bit 29 clear, for a parcel that begins no instruction
or whose TGT bit is clear; and it passes for every other parcel. Without the demand of TGT (R21) it fails, with the same
cause and EVAL, exactly for a parcel that begins no instruction. -/
def Obligations.TransferTargetCheck : Prop :=
  ∀ (s u : State) (t : Word) (l : FetchLine),
    let k := t.toNat % 64 / 4
    (t.toNat % 4 ≠ 0 ∨ k = 0 → s.checkTarget t true = .bad 0x06 t) ∧
    (t.toNat % 4 = 0 → k ≠ 0 → s.fetchLine (t.toNat / 64 * 64) = .line l u → l.poison = 0 →
      parloOk l.data = true → parhiOk l.data = true → l.data.getLsbD 29 = false →
      ((k ∈ starts l.data ∧ l.data.getLsbD (k - 1) = true → s.checkTarget t true = .ok u) ∧
       (¬ (k ∈ starts l.data ∧ l.data.getLsbD (k - 1) = true) → s.checkTarget t true = .bad 0x06 t) ∧
       (k ∈ starts l.data → s.checkTarget t false = .ok u) ∧
       (k ∉ starts l.data → s.checkTarget t false = .bad 0x06 t)))

/-! ### Window floating point -/

/-- R199, R201, R218: the window operands of an instruction are checked for even pairs first, all of them, in the order
d, a, b (cause 0x02, EVAL the number), then for the bounds of the allocation in the same order (cause 0x14, EVAL the low 32
bits of the number outside, sign-extended); FADD and FMA, in both forms, with a failing operand change nothing but by the
trap, and so they do in a rounding mode of 7 (cause 0x02, EVAL the first parcel). -/
def Obligations.WindowOperandChecks : Prop :=
  ∀ (s : State) (l : List (Int × Bool)),
    ((∀ x ∈ l, s.winOk x.1 x.2) → checkWins l s = .ok () s) ∧
    (∀ (p : List (Int × Bool)) (n : Int) q, l = p ++ (n, true) :: q → (∀ y ∈ p, y.2 = true → y.1 % 2 = 0) → n % 2 ≠ 0 →
      checkWins l s = .error (.trap 0x02 (BitVec.ofInt 64 n) .none) s) ∧
    (∀ (p : List (Int × Bool)) (n : Int) wide q, l = p ++ (n, wide) :: q → (∀ y ∈ l, y.2 = true → y.1 % 2 = 0) →
      (∀ y ∈ p, s.winOk y.1 y.2) →
      (¬ (0 ≤ n ∧ n < s.wsize) →
        checkWins l s = .error (.trap 0x14 ((BitVec.ofInt 32 n).signExtend 64) .none) s) ∧
      (0 ≤ n → n < s.wsize → wide = true → ¬ n + 1 < s.wsize →
        checkWins l s = .error (.trap 0x14 ((BitVec.ofInt 32 (n + 1)).signExtend 64) .none) s)) ∧
    (∀ (f : FFields) (cause : BitVec 8) (eval : Word), isEngine s.cur = false →
      checkWins [(s.wd f, f.dbl), (s.wa f, f.dbl), (s.wb f, f.dbl)] s = .error (.trap cause eval .none) s →
      exec (.faddLong f) s = .next (s.takeTrap cause eval 0) ∧ exec (.fmaLong f) s = .next (s.takeTrap cause eval 0) ∧
      (f = shortF f.dbl f.d f.a f.b → exec (.fma f.dbl f.d f.a f.b) s = .next (s.takeTrap cause eval 0) ∧
        exec (.fadd f.dbl f.d f.a f.b) s = .next (s.takeTrap cause eval 0))) ∧
    (∀ (f : FFields), isEngine s.cur = false → s.winOk (s.wd f) f.dbl → s.winOk (s.wa f) f.dbl → s.winOk (s.wb f) f.dbl → ¬ s.modeOk →
      s.traps (.faddLong f) 0x02 (Instr.faddLong f).p0 ∧ s.traps (.fmaLong f) 0x02 (Instr.fmaLong f).p0 ∧
      (f = shortF f.dbl f.d f.a f.b →
        s.traps (.fadd f.dbl f.d f.a f.b) 0x02 (Instr.fadd f.dbl f.d f.a f.b).p0 ∧
        s.traps (.fma f.dbl f.d f.a f.b) 0x02 (Instr.fma f.dbl f.d f.a f.b).p0))

/-- R200, R218: FADD, FSUB, FMUL, FDIV, FMA and FSQRT, in both forms, complete when their window operands pass and the
rounding mode exists: every source is read, the exact result is rounded once in FCSR's mode, w[d] is written and the sticky
flags of FCSR are set; nothing else changes but the PC.
R218: the exact results that the instructions round where the operands are special: an invalid product 0 × ∞ gives the
canonical NaN with NV whatever the addend, FSQRT of −0 gives −0 and of a value below zero the canonical NaN with NV, a
finite non-zero value divided by zero gives a correctly signed infinity without a flag. -/
def Obligations.FloatArithmeticResults : Prop :=
  (∀ (s : State) (f : FFields), isEngine s.cur = false → s.modeOk → s.winOk (s.wd f) f.dbl → s.winOk (s.wa f) f.dbl →
    let result (i : Instr) (r : FX × Flags) : Prop :=
      let x := floatTail (fpFmt f.dbl) s.mode false r.1
      exec i s = .next (s.after i ((s.setWinBits (s.wd f) f.dbl x.1).setFlags (r.2.join x.2)))
    let d := s.winVal (s.wd f) f.dbl
    let a := s.winVal (s.wa f) f.dbl
    let b := s.winVal (s.wb f) f.dbl
    let short : Prop := f.od = 0 ∧ f.oa = 0 ∧ f.ob = 0
    (s.winOk (s.wb f) f.dbl →
      result (.faddLong f) (addF s.mode a b) ∧ result (.fsubLong f) (addF s.mode a b.neg) ∧
      result (.fmulLong f) (mulF a b) ∧ result (.fdivLong f) (divF a b) ∧ result (.fmaLong f) (fmaF s.mode a b d) ∧
      (short →
        result (.fadd f.dbl f.d f.a f.b) (addF s.mode a b) ∧ result (.fsub f.dbl f.d f.a f.b) (addF s.mode a b.neg) ∧
        result (.fmul f.dbl f.d f.a f.b) (mulF a b) ∧ result (.fdiv f.dbl f.d f.a f.b) (divF a b) ∧
        result (.fma f.dbl f.d f.a f.b) (fmaF s.mode a b d))) ∧
    (f.b = 0 → f.ob = 0 →
      result (.fsqrtLong f) (sqrtF a) ∧ (short → result (.fsqrt f.dbl f.d f.a) (sqrtF a)))) ∧
  (∀ (mode : Mode) (n k : Bool) (m : Nat) (e : Int) (c : FVal),
    (fmaF mode (.inf n) (.fin k 0 e) c).1 = .nan ∧ (fmaF mode (.inf n) (.fin k 0 e) c).2.nv = true ∧
    (fmaF mode (.fin k 0 e) (.inf n) c).1 = .nan ∧ (fmaF mode (.fin k 0 e) (.inf n) c).2.nv = true ∧
    sqrtF (.fin true 0 e) = (.zero true, {}) ∧
    (m ≠ 0 → sqrtF (.fin true m e) = (.nan, { nv := true }) ∧ sqrtF (.inf true) = (.nan, { nv := true })) ∧
    (∀ e', m ≠ 0 → divF (.fin n m e) (.fin k 0 e') = (.inf (n != k), {})) ∧
    (∀ dbl sat, floatTail (fpFmt dbl) mode sat .nan = ((floatFmt (fpFmt dbl)).pack (.nan false), {})) ∧
    (floatFmt 0x0B).pack (.nan false) = 0x7FC00000 ∧ (floatFmt 0x0C).pack (.nan false) = 0x7FF8000000000000)

/-- R219, R220: the window instructions that convert, compare, classify and move, in both forms, complete when their window
operands pass (and, for the conversions, the rounding mode exists). Comparisons with a NaN give 0; FEQ sets NV for
signalling NaNs only, FLT and FLE for any NaN; the moves move bits and set no flag. -/
def Obligations.FloatMoveResults : Prop :=
  ∀ (s : State) (f : FFields), isEngine s.cur = false →
    let fmt := floatFmt (fpFmt f.dbl)
    let a := s.winVal (s.wa f) f.dbl
    let b := s.winVal (s.wb f) f.dbl
    let nan := a.isNan || b.isNan
    let nv (p : Bool) : Flags := { nv := p }
    let toW (i : Instr) (x : Nat) (fl : Flags) : Prop := exec i s = .next (s.after i ((s.setWinBits (s.wd f) f.dbl x).setFlags fl))
    let toG (i : Instr) (x : Word) (fl : Flags) : Prop := exec i s = .next (s.after i ((s.setG f.d x).setFlags fl))
    let truth (p : Bool) : Word := if p && !nan then 1 else 0
    let short : Prop := f.od = 0 ∧ f.oa = 0 ∧ f.ob = 0
    let okD := s.winOk (s.wd f) f.dbl
    let okA := s.winOk (s.wa f) f.dbl
    let okB := s.winOk (s.wb f) f.dbl
    let one : Prop := f.b = 0 ∧ f.ob = 0
    -- minimum and maximum
    (okD → okA → okB →
      (∀ wantMax i, (i, wantMax) ∈ [(Instr.fminLong f, false), (.fmaxLong f, true)] →
        toW i (fmt.pack (minMaxF wantMax a b).1) (opFlags [a, b])) ∧
      (short → ∀ wantMax i, (i, wantMax) ∈ [(Instr.fmin f.dbl f.d f.a f.b, false), (.fmax f.dbl f.d f.a f.b, true)] →
        toW i (fmt.pack (minMaxF wantMax a b).1) (opFlags [a, b]))) ∧
    -- comparisons
    (okA → okB → f.od = 0 →
      toG (.feqLong f) (truth (!ltF a b && !ltF b a)) (opFlags [a, b]) ∧ toG (.fltLong f) (truth (ltF a b)) (nv nan) ∧
      toG (.fleLong f) (truth (!ltF b a)) (nv nan) ∧
      (short →
        toG (.feq f.dbl f.d f.a f.b) (truth (!ltF a b && !ltF b a)) (opFlags [a, b]) ∧
        toG (.flt f.dbl f.d f.a f.b) (truth (ltF a b)) (nv nan) ∧ toG (.fle f.dbl f.d f.a f.b) (truth (!ltF b a)) (nv nan))) ∧
    -- class, and moves to a general register
    (okA → f.od = 0 → one →
      s.writesG (.fclassLong f) f.d (classWord fmt (s.winBits (s.wa f) f.dbl)) ∧
      s.writesG (.fmvgLong f) f.d (BitVec.ofNat 64 (s.winBits (s.wa f) f.dbl)) ∧
      (short → s.writesG (.fclass f.dbl f.d f.a) f.d (classWord fmt (s.winBits (s.wa f) f.dbl)) ∧
        s.writesG (.fmvg f.dbl f.d f.a) f.d (BitVec.ofNat 64 (s.winBits (s.wa f) f.dbl)))) ∧
    -- sign operations, and moves to the window
    (okD → okA → one →
      ∀ i negate, ((i, negate) ∈ [(Instr.fabsLong f, false), (.fnegLong f, true)] ∨
          (short ∧ (i, negate) ∈ [(Instr.fabs f.dbl f.d f.a, false), (.fneg f.dbl f.d f.a, true)])) →
        exec i s = .next (s.after i (s.setWinBits (s.wd f) f.dbl (signBits fmt negate (s.winBits (s.wa f) f.dbl))))) ∧
    (okD → f.oa = 0 → one →
      ∀ i, (i = .fmvwLong f ∨ (short ∧ i = .fmvw f.dbl f.d f.a)) →
        exec i s = .next (s.after i (s.setWinBits (s.wd f) f.dbl (s.g f.a).toNat))) ∧
    -- conversions
    (s.modeOk → one →
      (∀ i, okD → s.winOk (s.wa f) (!f.dbl) → (i = .fcvtLong f ∨ (short ∧ i = .fcvt f.dbl f.d f.a)) →
        let x := convNum (.flt (s.winVal (s.wa f) (!f.dbl))) (fpFmt f.dbl) s.mode false
        toW i x.1 x.2) ∧
      (∀ i, okA → f.od = 0 → (i = .fcvtiLong f ∨ (short ∧ i = .fcvti f.dbl f.d f.a)) →
        let x := convNum (.flt a) Fmt.s64 s.mode false
        toG i (BitVec.ofNat 64 x.1) x.2) ∧
      (∀ i, okD → f.oa = 0 → (i = .fcvtfLong f ∨ (short ∧ i = .fcvtf f.dbl f.d f.a)) →
        let x := convNum (.int (s.g f.a).toInt) (fpFmt f.dbl) s.mode false
        toW i x.1 x.2))

/-! ### System registers -/

/-- R202, R203, R348: SYSR reads every defined register and traps with cause 0x01, EVAL the number, on any other. SYSW, SYSS
and SYSC compute the value from the old one and g[a]; in this order they trap on an undefined number (0x01), a register no
instruction writes (0x02, EVAL the number) and, for a run-root register, in a compartment other than 1 (0x0A); what the
register's own rule refuses traps as that rule says with no effect; otherwise the register is written and g[d] receives the
old value. An engine hart that issues one of the three traps with cause 0x01. -/
def Obligations.SysRegisterAccess : Prop :=
  (∀ n, sysWriteBy n = some .root ↔
    n ∈ [0x000, 0x001, 0x002, 0x003, 0x004, 0x006, 0x018, 0x019, 0x020, 0x021, 0x022, 0x023, 0x024, 0x025, 0x026, 0x027,
      0x028, 0x060, 0x061, 0x062, 0x063, 0x064, 0x065, 0x066, 0x067, 0x068]) ∧
  (∀ n, sysWriteBy n = some .anyone ↔ n ∈ [0x007, 0x008, 0x009, 0x030, 0x032]) ∧
  (∀ n, sysWriteBy n = some .nobody ↔
    n ∈ [0x005, 0x00A, 0x00B, 0x00C, 0x00D, 0x00E, 0x00F, 0x010, 0x011, 0x012, 0x013, 0x014, 0x031, 0x041, 0x050, 0x070]) ∧
  (∀ (s : State) (d : BitVec 5) (num : BitVec 10),
    (sysWriteBy num.toNat ≠ none → s.writesG (.sysr d num) d (s.sysRead num.toNat)) ∧
    (sysWriteBy num.toNat = none → s.traps (.sysr d num) 0x01 (num.setWidth 64))) ∧
  ∀ (s : State) (d a : BitVec 5) (num : BitVec 10),
    ∀ r ∈ [(Instr.sysw d a num, s.g a), (.syss d a num, s.sysRead num.toNat ||| s.g a),
        (.sysc d a num, s.sysRead num.toNat &&& ~~~(s.g a))],
      (isEngine s.cur = true → s.traps r.1 0x01 r.1.p0) ∧
      (isEngine s.cur = false →
        (sysWriteBy num.toNat = none → s.traps r.1 0x01 (num.setWidth 64)) ∧
        (sysWriteBy num.toNat = some .nobody → s.traps r.1 0x02 (num.setWidth 64)) ∧
        (sysWriteBy num.toNat = some .root → s.ctx.sr.cid ≠ 1 → s.traps r.1 0x0A (num.setWidth 64)) ∧
        ((sysWriteBy num.toNat = some .root ∧ s.ctx.sr.cid = 1) ∨ sysWriteBy num.toNat = some .anyone →
          (∀ t, sysPut num.toNat r.2 s = .ok () t → exec r.1 s = .next (s.after r.1 (t.setG d (s.sysRead num.toNat)))) ∧
          (∀ stop t, sysPut num.toNat r.2 s = .error stop t → exec r.1 s = .next (s.afterStop t stop))))

/-- R186, R197, R198, R221, R335, R334, R269, R304, R270, R378: what a value written to a register reads as afterwards: FCSR keeps bits 9, 7
to 4 and 2 to 0; EPC 48 bits; CAUSE all but bits 15 to 8; TVEC EN and 48 bits, and EN with an address that is no multiple of
4 traps with cause 0x02; VSHAPE 14 bits, and a shape of more than 2,048 elements (512 in an engine hart) traps; WALLOC 19
bits, checked by R198, with the entries it keeps kept and those it adds zero. XMODE takes bit 1 (XNEXT) and keeps
bit 0; a counter PMC0 to PMC7 reads as the value written. STATUS and MPROG ignore every write. None of these changes memory,
a general, capability, vector or mask register, or the PC. -/
def Obligations.SysRegisterWrites : Prop :=
  ∀ (s : State) (v : Word),
    let kept (t : State) : Prop := t.mem = s.mem ∧ t.ctx.r = s.ctx.r ∧ t.pc = s.pc ∧ t.ctx.sr.cid = s.ctx.sr.cid
    let reads (n : Nat) (x : Word) : Prop := ∃ t, sysPut n v s = .ok () t ∧ t.sysGet n = x ∧ kept t
    let refuses (n : Nat) : Prop := ∃ t, sysPut n v s = .error (.trap 0x02 v .none) t
    sysPut 0x000 v s = .ok () s ∧
    reads 0x001 (v &&& 0xFFFFFFFFFFFF00FF) ∧
    reads 0x002 (v &&& 0xFFFFFFFFFFFF) ∧
    reads 0x003 v ∧
    (¬ (v.getLsbD 63 = true ∧ v.extractLsb' 0 2 ≠ 0) → reads 0x004 (v &&& 0x8000FFFFFFFFFFFF)) ∧
    (v.getLsbD 63 = true → v.extractLsb' 0 2 ≠ 0 → refuses 0x004) ∧
    (((v.extractLsb' 0 6).toNat + 1) * ((v.extractLsb' 6 8).toNat + 1) ≤ s.vbytes → reads 0x007 (v &&& 0x3FFF)) ∧
    (¬ ((v.extractLsb' 0 6).toNat + 1) * ((v.extractLsb' 6 8).toNat + 1) ≤ s.vbytes → refuses 0x007) ∧
    reads 0x008 (v &&& 0x2F7) ∧
    reads 0x009 (v &&& 0xFFFF) ∧
    reads 0x032 (v &&& 7) ∧
    reads 0x019 ((v &&& 2) ||| (s.sysGet 0x019 &&& 1)) ∧
    sysPut 0x030 v s = .ok () s ∧
    (∀ i, i < 8 → reads (0x061 + i) v) ∧
    (s.wallocOk v = false → refuses 0x006) ∧
    (s.wallocOk v = true → ∃ t, sysPut 0x006 v s = .ok () t ∧ t.sysGet 0x006 = v &&& 0x7FFFF ∧ kept t ∧
      ∀ e, (wallocSpan v).1 ≤ e → e < (wallocSpan v).2 →
        t.winFile e = if s.wbase ≤ e ∧ e < s.wbase + s.wsize then s.winFile e else 0)

/-! ### Traps and returns -/

/-- R336: a trap with a handler installed saves the trapped state and enters the handler: EPC is the PC, CAUSE holds SPC and
the code, EVAL the value, STATUS.PCID the old CID with TH 1, CID becomes 1, EFCAP is fcap at the PC, ESAVE is c15, fcap is
RCC at the handler's address, c15 is RDC, the PC the handler's address; no other register of the context, and no window
entry, changes.
R336, R338: a trap inside a handler ends the run with the handler's trap first; a trap without a handler ends it with the
trap's cause; a handler address outside RCC's footprint or failing R20 ends it with the cause of that check, EVAL the
address for cause 0x06. EPC is the PC in each. -/
def Obligations.TrapEntry : Prop :=
  (∀ (s u : State) (cause : BitVec 8) (eval : Word) (spc : BitVec 48), s.mayHandle u →
    let t := s.takeTrap cause eval spc
    let c := s.ctx
    t.ctx = { c with
      pc := c.sr.tvecAddr,
      fcap := { s.core.rcc with str1 := (c.sr.tvecAddr - s.core.rcc.base.setWidth 64).setWidth 32 },
      r := { c.r with c := c.r.c.set 15 s.core.rdc },
      efcap := { c.fcap with str1 := (c.pc - c.fcap.base.setWidth 64).setWidth 32 },
      esave := c.r.c[15],
      sr := { c.sr with
        epc := c.pc.setWidth 48, cause := spc ++ 0#8 ++ cause, eval := eval, status := 0#32 ++ c.sr.cid ++ 1#8 ++ 0#8,
        cid := 1 } } ∧
    t.core.window = s.core.window ∧ t.core.rcc = s.core.rcc ∧ t.core.rdc = s.core.rdc ∧ t.cur = s.cur) ∧
  (∀ (s : State) (cause : BitVec 8) (eval : Word) (spc : BitVec 48), isEngine s.cur = false →
    let t := s.ctx.sr.tvecAddr
    let epc : BitVec 48 := s.pc.setWidth 48
    (s.ctx.sr.th = true → s.takeTrap cause eval spc = s.endRunDouble s.coreNo s.ctx.sr cause epc eval) ∧
    (s.ctx.sr.th = false → s.ctx.sr.tvecEn = false → s.takeTrap cause eval spc = s.endRunAt s.coreNo cause epc eval) ∧
    (s.ctx.sr.th = false → s.ctx.sr.tvecEn = true → s.core.rcc.covers t.toNat = false →
      s.takeTrap cause eval spc = s.endRunAt s.coreNo 0x06 epc t) ∧
    (s.ctx.sr.th = false → s.ctx.sr.tvecEn = true → s.core.rcc.covers t.toNat = true →
      ∀ k e, s.checkTarget t true = .bad k e →
        s.takeTrap cause eval spc = (s.noted (s.targetNote t k)).endRunAt s.coreNo k epc e))

/-- R349: TRAP, BRK and SVC enter the handler with causes 0x2A, 0x29 and 0x28, EVAL the code, EPC their own PC; with BRK
interception armed for the run the context is held at the BRK instead. -/
def Obligations.TrapInstructions : Prop :=
  ∀ (s : State) (code : BitVec 10), isEngine s.cur = false →
    let armed : Bool := match s.runOn s.coreNo with | some r => r.dbg.brk | none => false
    s.traps (.trap code) 0x2A (code.setWidth 64) ∧
    s.traps (.svc code) 0x28 (code.setWidth 64) ∧
    (armed = false → s.traps (.brk code) 0x29 (code.setWidth 64)) ∧
    (armed = true → ∃ t, exec (.brk code) s = .next t ∧ t.ctx.held = true ∧ t.ctx.susp.isSome = true ∧ t.pc = s.pc ∧
      t.ctx.r = s.ctx.r ∧ t.ctx.sr = s.ctx.sr ∧ t.mem = s.mem)

/-- R350: XRET outside a handler traps with cause 0x02, EVAL 0; in a compartment other than 1 with cause 0x0A, EVAL the CID;
to an address of EFCAP's footprint that begins no instruction as R20 says. Otherwise it restores: fcap is EFCAP at EPC, c15
is ESAVE, CID is STATUS.PCID, TH is 0, the PC is EPC; no other register changes. -/
def Obligations.ReturnFromHandler : Prop :=
  ∀ (s : State), isEngine s.cur = false →
    let c := s.ctx
    let t : Word := c.sr.epc.setWidth 64
    (c.sr.th = false → s.traps .xret 0x02 0) ∧
    (c.sr.th = true → c.sr.cid ≠ 1 → s.traps .xret 0x0A (c.sr.cid.setWidth 64)) ∧
    (c.sr.th = true → c.sr.cid = 1 →
      (∀ k e, c.efcap.covers t.toNat = true → s.checkTarget t false = .bad k e → s.trapsAt .xret k e t) ∧
      (∀ u, (c.efcap.covers t.toNat = false ∧ u = s) ∨ (c.efcap.covers t.toNat = true ∧ s.checkTarget t false = .ok u) →
        ∃ v, exec .xret s = .next v ∧ v.core.window = s.core.window ∧ v.mem = s.mem ∧
          v.ctx = { c with
            pc := t, fcap := { c.efcap with str1 := (t - c.efcap.base.setWidth 64).setWidth 32 },
            r := { c.r with c := c.r.c.set 15 c.esave },
            sr := { c.sr with cid := c.sr.pcid, status := 0#32 ++ c.sr.pcid ++ 0#16 } }))

/-- R30, R159: an instruction that is not well formed traps with cause 0x02, EVAL its first parcel; that this is the EVAL of
the range checks of single fields too is the model's choice (log 32); one outside the engine profile traps with cause 0x01 in
an engine hart; a word the map does not assign traps with cause 0x01, one of a legacy major with cause 0x03; a word of a
legacy major whose length field is 0b11 traps with cause 0x01, the model's choice, where item 1 of R30 says 0x03 in any length
(log 60).
R385, R386: the two retired instructions, FMADD2 and CTWAITX, end in the trap with cause 0x03 on every path, in every state,
in engine microcode too: the spec gives this device no other effect of them. -/
def Obligations.DecodingTraps : Prop :=
  (∀ (s : State) (i : Instr) (body : M (Option Word)),
    (isEngine s.cur = true → inProfile s.cur i = false → runInstr i body s = .next (s.takeTrap 0x01 i.p0 0)) ∧
    ((isEngine s.cur = true → inProfile s.cur i = true) → i.wf = false →
      runInstr i body s = .next (s.takeTrap 0x02 i.p0 0))) ∧
  (∀ (s : State) (dbl : Bool) (d a b : BitVec 5), s.traps (.fmadd2 dbl d a b) 0x03 (Instr.fmadd2 dbl d a b).p0) ∧
  (∀ (s : State) (f : QFields), s.traps (.ctwaitx f) 0x03 (Instr.ctwaitx f).p0) ∧
  ∀ (s : State) (p : Parcel),
    let major := (p.extractLsb' 2 6).toNat
    (p.extractLsb' 0 2 ≠ 3 → 40 ≤ major → major ≤ 47 → s.traps (.illegalInstruction p) 0x03 (p.setWidth 64)) ∧
    (¬ (p.extractLsb' 0 2 ≠ 3 ∧ 40 ≤ major ∧ major ≤ 47) → s.traps (.illegalInstruction p) 0x01 (p.setWidth 64))

/-! ### Fences, waits, the end of a continuation -/

/-- R137, R337: FENCE releases at system scope (bit 0 of its mode), drops the agent's view cache (bit 1), the release
first; a release waits while a side log holds entries of the agent or its writes wait at a link; a pending deferred fault is taken at any FENCE with
cause 0x21; mode 0 traps with cause 0x02. -/
def Obligations.FenceResults : Prop :=
  ∀ (s : State) (mode : BitVec 2),
    (mode = 0 → s.traps (.fence mode) 0x02 (Instr.fence mode).p0) ∧
    (∀ u, mode.getLsbD 0 = true → s.releases 3 u →
      exec (.fence mode) s = .next (s.after (.fence mode) (if mode.getLsbD 1 then u.acquireAll else u))) ∧
    (mode = 2 → s.ctx.deferred = none → exec (.fence mode) s = .next (s.after (.fence mode) s.acquireAll)) ∧
    (mode.getLsbD 0 = true → s.ctx.deferred = none → s.logged = true ∨ s.writesHeld = true → exec (.fence mode) s = .next s) ∧
    (∀ d, mode ≠ 0 → s.ctx.deferred = some d →
      exec (.fence mode) s = .next ((s.setCtx { s.ctx with deferred := none }).takeTrap 0x21 d.eval d.pc))

/-- R313, R310, R351, R352: IDLE, YIELD, PMARK, IFENCE, EXIT and XSYNC complete, each with its effect. -/
def Obligations.ContextInstructions : Prop :=
  ∀ (s : State), isEngine s.cur = false →
    (∀ n, exec (.idle n) s = .next (s.after (.idle n)
      (s.setCtx { s.ctx with idle := some (if n = 0 then none else some (64 * n.toNat)) }))) ∧
    (s.core.u.ready = [] ∨ s.freeSlots s.coreNo ≠ [] ∨ s.ctx.isPinned = true →
      exec .yield s = .next (s.after .yield (s.setPc (s.nextPc .yield)))) ∧
    (s.core.u.ready ≠ [] → s.freeSlots s.coreNo = [] → s.ctx.isPinned = false →
      let t := s.setPc (s.nextPc .yield)
      exec .yield s = .next (s.after .yield
        (((t.suspend .yield 0 0 0 none).writeBackSlot t.coreNo t.slot).getD t))) ∧
    (∀ a code, exec (.pmark a code) s = .next (s.after (.pmark a code)
      ((s.count s.coreNo 6 1).trace s.coreNo s.slot 1 (code.setWidth 64) (s.g a)))) ∧
    (∀ (a : BitVec 5), a.toNat < 16 → s.capFault (s.c (a.setWidth 4)) .X Kind.X.need 0 0 false = none →
      let c := s.c (a.setWidth 4)
      let t := s.cacheLease c.lease.toNat
      exec (.ifence a) s = .next (s.after (.ifence a) (t.dropLines t.coreNo (fun l => l.meets c))) ∧
      (t.core.u.fetchBuf.all (fun l => !(l.meets c && l.faulty && !l.met)) = true → t.dropLines t.coreNo (fun l => l.meets c) =
        t.setCore { t.core with u := { t.core.u with fetchBuf := t.core.u.fetchBuf.filter (fun l => !l.meets c) } })) ∧
    (∀ d u, s.core.u.mx.fetches.all (fun q => q.slot != BitVec.ofNat 2 s.slot) = true →
      s.core.u.mx.loads.all (fun q => q.slot != BitVec.ofNat 2 s.slot) = true →
      s.core.u.mx.streams.all (fun q => q.slot != BitVec.ofNat 2 s.slot) = true → s.releases 3 u →
      exec (.exit d) s = .next (s.after (.exit d) (u.exitSlot ((u.g d).setWidth 32 |>.setWidth 64)))) ∧
    (∀ (d : BitVec 5) (level : BitVec 3) r u, s.runOn s.coreNo = some r → level.toNat ≤ r.domain.level.toNat →
      s.core.u.mx.fetches = [] → s.core.u.mx.loads = [] → s.core.u.mx.streams = [] →
      s.releases (scopeOfLevel level.toNat) u → u.otherLevel u.coreNo level.toNat = false →
      exec (.xsync d level) s = .next (s.after (.xsync d level)
        (((u.setPc (seqPc u.pc 1)).suspend .xsync (level.setWidth 64) 0 d none).checkArrival u.coreNo))) ∧
    (∀ (d : BitVec 5) (level : BitVec 3), (∀ r, s.runOn s.coreNo = some r → r.domain.level.toNat < level.toNat) →
      s.traps (.xsync d level) 0x0D (level.setWidth 64))

/-! ### Capabilities -/

/-- R60: Cap_Check makes its checks in the order listed; the first that fails traps with its cause and EVAL, and of
the check only the read of the lease's entry is left (Need(kind) as its table says); a use that passes them all is allowed,
and only the lease cache changes. -/
def Obligations.CapabilityCheck : Prop :=
  [Kind.L, .S, .A, .LC, .SC, .X, .W, .CTR, .CTW, .NB, .SEAL, .UNSEAL].map Kind.need =
    [0x01, 0x02, 0x03, 0x05, 0x0A, 0x10, 0x20, 0x01, 0x02, 0x03, 0x02, 0x01] ∧
  ∀ (s : State) (c : Cap) (k : Kind) (i0 i1 : Int),
    let f := c.fmt.toNat
    let e := s.leaseEntry c.lease.toNat
    let sealed : Prop := f = Fmt.sealer
    let fails : List (Bool × BitVec 8 × Word) :=
      [(!c.tag, 0x08, 0),
       (Fmt.reserved f, 0x0E, c.fmt.setWidth 64),
       (decide (c.otype ≠ 0), 0x0C, c.otype.setWidth 64),
       (decide (e.state ≠ 1 ∨ e.gen ≠ c.gen), 0x0B, c.lease.setWidth 64),
       (!k.admitted f, 0x0E, c.fmt.setWidth 64),
       (decide (c.perm &&& k.need ≠ k.need), 0x0A, k.need.setWidth 64),
       (decide (c.scope = 3), 0x0D, c.base.setWidth 64),
       (decide (sealed ∧ c.scope ≠ 1), 0x0D, c.base.setWidth 64),
       (decide (¬ sealed ∧ scopeAgrees c.scope c.base = false), 0x0D, c.base.setWidth 64),
       (decide (s.strict = true ∧ k ≠ .X ∧ c.scope = 0 ∧ localCore c.base.toNat ≠ s.coreNo), 0x0D, c.base.setWidth 64),
       (decide (s.strict = true ∧ k ≠ .X ∧ c.scope = 2), 0x0D, c.base.setWidth 64),
       (decide (s.strict = true ∧ k ≠ .X ∧ c.scope = 1 ∧ k ≠ .SEAL ∧ k ≠ .UNSEAL ∧ k ≠ .W), 0x0D, c.base.setWidth 64),
       (decide (i0 < 0 ∨ c.ext 0 ≤ i0 ∨ i1 < 0 ∨ c.ext 1 ≤ i1), 0x09, BitVec.ofInt 32 i1 ++ BitVec.ofInt 32 i0)]
    capCheck c k i0 i1 s = match fails.find? Prod.fst with
      | some x => .error (.trap x.2.1 x.2.2 c.checkNote) s
      | none => .ok () (s.cacheLease c.lease.toNat)

/-- R28, R49, R53, R62: CMOV, CGETB, CGETE, CGETS, CGETF, CGETP, CGETL, CTAG and CCLR complete, sealed or not, tagged or
not; source 16 is fcap at the reading instruction. -/
def Obligations.CapabilityReads : Prop :=
  ∀ (s : State) (d a k : BitVec 5), a.toNat ≤ 16 → k.toNat < 4 →
    let c : Cap := if a = 16 then { s.ctx.fcap with str1 := (s.pc - s.ctx.fcap.base.setWidth 64).setWidth 32 }
      else s.c (a.setWidth 4)
    (d.toNat < 16 →
      exec (.cmov d a) s = .next (s.after (.cmov d a) (s.setC (d.setWidth 4) c)) ∧
      exec (.cclr d) s = .next (s.after (.cclr d) (s.setC (d.setWidth 4) Cap.null))) ∧
    s.writesG (.cgetb d a) d (c.base.setWidth 64) ∧
    s.writesG (.cgete d a k) d (BitVec.ofNat 64
      ((if k = 0 then c.ext0 else if k = 1 then c.ext1 else if k = 2 then c.ext2 else c.ext3).toNat + 1)) ∧
    s.writesG (.cgets d a k) d
      (if k = 0 then 1 else if k = 1 then (if c.fmt = 0x24 then c.str1.setWidth 64 else c.str1.signExtend 64)
        else if k = 2 then c.str2.signExtend 64 else c.str3.signExtend 64) ∧
    s.writesG (.cgetf d a) d ((c.otype.setWidth 64 <<< 16) ||| (c.scope.setWidth 64 <<< 8) ||| c.fmt.setWidth 64) ∧
    s.writesG (.cgetp d a) d (c.perm.setWidth 64) ∧
    s.writesG (.cgetl d a) d ((c.gen.setWidth 64 <<< 16) ||| c.lease.setWidth 64) ∧
    s.writesG (.ctag d a) d (if c.tag then 1 else 0)

/-- R62, R64: every derivation of an untagged capability traps with cause 0x08, of a sealed one with cause 0x0C, EVAL its
object type, and has no other effect; CFREE and CLEASE likewise.
R50, R62, R64: CPERM, CFMT, CSHUT and COPEN complete on a source that may be derived, with the results given; a new
format outside the source's size group and plane counts traps with cause 0x0E, EVAL the new format; a sealer's object type
lies in 1 to 65,535, else cause 0x02; CSHUT and COPEN of an untagged capability trap with cause 0x08, CSHUT of a sealed one
and COPEN of one of another type with cause 0x0C, EVAL its object type. The EVAL of the untagged and of the sealed source of
CPERM, CFMT, the slicing instructions, CSHUT and COPEN is the model's choice (log 32). -/
def Obligations.PermissionAndSealing : Prop :=
  (∀ (s : State) (d a b : BitVec 5) (f : CFields), a.toNat < 16 → b.toNat < 16 → d.toNat < 16 →
    (∀ i ∈ [Instr.cperm d a b, .cfmt d a b],
      ((s.c (a.setWidth 4)).tag = false → s.traps i 0x08 0) ∧
      ((s.c (a.setWidth 4)).tag = true → (s.c (a.setWidth 4)).otype ≠ 0 →
        s.traps i 0x0C ((s.c (a.setWidth 4)).otype.setWidth 64))) ∧
    (∀ i ∈ [Instr.cslice f, .cslicei f, .crank f, .cstep f, .cfix f, .cfree f, .clease f], i.wf = true →
      ((s.c f.ca).tag = false → s.traps i 0x08 0) ∧
      ((s.c f.ca).tag = true → (s.c f.ca).otype ≠ 0 → (i = .clease f → Fmt.reserved (s.c f.ca).fmt.toNat = false) →
        s.traps i 0x0C ((s.c f.ca).otype.setWidth 64)))) ∧
  (∀ (s : State) (d a b : BitVec 5), a.toNat < 16 → d.toNat < 16 →
    let c := s.c (a.setWidth 4)
    let puts (i : Instr) (t : State) (x : Cap) : Prop := exec i s = .next (s.after i (t.setC (d.setWidth 4) x))
    (c.tag = true → c.otype = 0 →
      puts (.cperm d a b) s { c with perm := c.perm &&& (s.g b).setWidth 8 } ∧
      (let new : BitVec 6 := (s.g b).setWidth 6
       let ok : Prop := new = c.fmt ∨ (0x12 ≤ c.fmt.toNat ∧ c.fmt.toNat ≤ 0x18 ∧ 0x12 ≤ new.toNat ∧ new.toNat ≤ c.fmt.toNat) ∨
         (c.fmt.toNat ≤ 0x0E ∧ new.toNat ≤ 0x0E ∧ Fmt.size c.fmt.toNat = Fmt.size new.toNat)
       (ok → puts (.cfmt d a b) s { c with fmt := new }) ∧ (¬ ok → s.traps (.cfmt d a b) 0x0E (new.setWidth 64)))) ∧
    (b.toNat < 16 →
      let z := s.c (b.setWidth 4)
      let t := s.cacheLease z.lease.toNat
      (1 ≤ z.base.toNat → z.base.toNat ≤ 65535 →
        (capCheck z .SEAL 0 0 s = .ok () t →
          (c.tag = false → s.traps (.cshut d a b) 0x08 0) ∧
          (c.tag = true → c.otype ≠ 0 → s.traps (.cshut d a b) 0x0C (c.otype.setWidth 64)) ∧
          (c.tag = true → c.otype = 0 → puts (.cshut d a b) t { c with otype := z.base.setWidth 16 })) ∧
        (capCheck z .UNSEAL 0 0 s = .ok () t →
          (c.tag = false → s.traps (.copen d a b) 0x08 0) ∧
          (c.tag = true → c.otype = z.base.setWidth 16 → puts (.copen d a b) t { c with otype := 0 }) ∧
          (c.tag = true → c.otype ≠ z.base.setWidth 16 → s.traps (.copen d a b) 0x0C (c.otype.setWidth 64)))) ∧
      (¬ (1 ≤ z.base.toNat ∧ z.base.toNat ≤ 65535) →
        (capCheck z .SEAL 0 0 s = .ok () t → s.traps (.cshut d a b) 0x02 (z.base.setWidth 64)) ∧
        (capCheck z .UNSEAL 0 0 s = .ok () t → s.traps (.copen d a b) 0x02 (z.base.setWidth 64))) ∧
      (∀ cause eval, capCheck z .SEAL 0 0 s = .error (.trap cause eval z.checkNote) s →
        s.trapsChecked (.cshut d a b) z cause eval) ∧
      (∀ cause eval, capCheck z .UNSEAL 0 0 s = .error (.trap cause eval z.checkNote) s →
        s.trapsChecked (.copen d a b) z cause eval)))

/-- R62, R63: CSLICE, CSLICEI, CRANK, CSTEP and CFIX complete on a tagged, unsealed source whose part lies within its extent
and keeps its alignment: BASE moves by the byte offset of the start, the extent (and for CSTEP the stride) is set, and all
else is the parent's. A part outside the extent traps with cause 0x09; a part within it of a format that R50 reserves traps
with cause 0x0E (log 30). A part that breaks the alignment traps with cause 0x18, EVAL the start along dimension 0 and a free
value along the others of S4 (log 31); a CODE capability is sliced along dimension 0 only, and CRANK, CSTEP and CFIX of a
CODE or SEALER capability trap with cause 0x0E, EVAL its format; CSTEP of dimension 0 or of 0 traps with cause 0x02 and a free
EVAL (log 31). -/
def Obligations.SlicingResults : Prop :=
  ∀ (s : State) (f : CFields),
    let c := s.c f.ca
    let k := (f.imm.extractLsb' 0 2).toNat
    let F := c.fmt.toNat
    let puts (i : Instr) (x : Cap) : Prop := exec i s = .next (s.after i (s.setC f.cd x))
    let plain : Prop := F ≠ Fmt.code ∧ F ≠ Fmt.sealer
    -- a format with an element size (R50)
    let sized : Prop := Sys2Proof.Fmt.defined F = true
    -- a move along a dimension by an aligned number of elements
    let aligned (k : Nat) (n : Int) : Prop :=
      (k = 0 → Fmt.isBpi F = true → n % 256 = 0) ∧ (F = 0x0F → n * c.stride k % 2 = 0)
    let refuses (i : Instr) (k : Nat) (n : Int) : Prop :=
      (k = 0 → (Fmt.isBpi F = true ∧ n % 256 ≠ 0 ∨ F = 0x0F ∧ n % 2 ≠ 0) → s.traps i 0x18 (BitVec.ofInt 64 n)) ∧
      (k ≠ 0 → F = 0x0F → n * c.stride k % 2 ≠ 0 → s.traps i 0x18 s.openEval)
    let part (k : Nat) (n : Int) (len : Nat) : Cap :=
      let off : Int := if F = Fmt.sealer then n else if Fmt.isBpi F then n * c.stride k
        else if F = 0x0F then n * c.stride k / 2 else n * c.stride k * Fmt.size F
      let m : Cap := { c with base := BitVec.ofInt 48 (c.base.toNat + off) }
      m.withExt k len
    c.tag = true → c.otype = 0 →
    (∀ i n (len : Int) k, ((i, n, len, k) ∈ ([(.cslice f, (s.g f.x).toInt, (s.g f.y).toInt, k),
          (.cslicei f, ((f.imm.extractLsb' 0 16).toNat : Int), ((f.imm.extractLsb' 16 14).toNat + 1 : Int),
            (f.imm.extractLsb' 30 2).toNat)] : List (Instr × Int × Int × Nat))) → i.wf = true →
      (0 ≤ n → 1 ≤ len → n + len ≤ c.ext k → sized → aligned k n → F ≠ Fmt.code → puts i (part k n len.toNat)) ∧
      (0 ≤ n → 1 ≤ len → n + len ≤ c.ext k → ¬ sized → s.traps i 0x0E (c.fmt.setWidth 64)) ∧
      (0 ≤ n → 1 ≤ len → n + len ≤ c.ext k → refuses i k n) ∧
      (0 ≤ n → 1 ≤ len → n + len ≤ c.ext k → F = Fmt.code → k ≠ 0 → s.traps i 0x02 (BitVec.ofNat 64 k)) ∧
      (0 ≤ n → 1 ≤ len → n + len ≤ c.ext k → F = Fmt.code → k = 0 →
        let e : Int := c.str1.toNat - 64 * n
        puts i { c with
          base := BitVec.ofInt 48 (c.base.toNat + 64 * n), ext0 := BitVec.ofNat 16 (len.toNat - 1),
          str1 := BitVec.ofInt 32 (if 0 ≤ e ∧ e < 64 * len then e else 4) }) ∧
      (¬ (0 ≤ n ∧ 1 ≤ len ∧ n + len ≤ c.ext k) → s.traps i 0x09 (BitVec.ofInt 32 len ++ BitVec.ofInt 32 n))) ∧
    (¬ plain → ∀ i ∈ [Instr.crank f, .cstep f, .cfix f], i.wf = true → s.traps i 0x0E (c.fmt.setWidth 64)) ∧
    ((Instr.crank f).wf = true → plain → ∀ n r : Nat, n = (f.imm.extractLsb' 16 16).toNat → r = (s.g f.x).toNat → n ≠ 0 → r < n →
      let u := if k = 0 ∧ Fmt.isBpi F = true then 256 else if k = 0 ∧ F = 0x0F then 2 else 1
      let blocks := (c.ext k + u - 1) / u
      let lo := u * (r * blocks / n)
      let hi := min (c.ext k) (u * ((r + 1) * blocks / n))
      (hi ≤ lo → puts (.crank f) Cap.null) ∧ (lo < hi → sized → aligned k lo → puts (.crank f) (part k lo (hi - lo))) ∧
      (lo < hi → ¬ sized → s.traps (.crank f) 0x0E (c.fmt.setWidth 64))) ∧
    ((Instr.crank f).wf = true → plain →
      ((f.imm.extractLsb' 16 16).toNat ≤ (s.g f.x).toNat → f.imm.extractLsb' 16 16 ≠ 0 → s.traps (.crank f) 0x09 (s.g f.x)) ∧
      (f.imm.extractLsb' 16 16 = 0 → s.traps (.crank f) 0x02 0)) ∧
    ((Instr.cstep f).wf = true → plain → (k = 0 ∨ f.imm.extractLsb' 16 16 = 0) → s.traps (.cstep f) 0x02 s.openEval) ∧
    ((Instr.cstep f).wf = true → plain → k ≠ 0 → ∀ n : Nat, n = (f.imm.extractLsb' 16 16).toNat → n ≠ 0 →
      let x := c.stride k * n
      let fits : Prop := (if k = 3 then -(2 ^ 23) ≤ x ∧ x < 2 ^ 23 else -(2 ^ 31) ≤ x ∧ x < 2 ^ 31) ∧
        (Fmt.isBpi F = true → x % 256 = 0)
      (fits → puts (.cstep f) ((c.withStride k x).withExt k ((c.ext k + n - 1) / n))) ∧
      (¬ fits → s.traps (.cstep f) 0x02 (BitVec.ofInt 64 x))) ∧
    ((Instr.cfix f).wf = true → plain →
      (0 ≤ (s.g f.x).toInt → (s.g f.x).toInt < c.ext k → sized → aligned k (s.g f.x).toInt →
        puts (.cfix f) (part k (s.g f.x).toInt 1)) ∧
      (0 ≤ (s.g f.x).toInt → (s.g f.x).toInt < c.ext k → ¬ sized → s.traps (.cfix f) 0x0E (c.fmt.setWidth 64)) ∧
      (0 ≤ (s.g f.x).toInt → (s.g f.x).toInt < c.ext k → refuses (.cfix f) k (s.g f.x).toInt) ∧
      (¬ (0 ≤ (s.g f.x).toInt ∧ (s.g f.x).toInt < c.ext k) →
        s.traps (.cfix f) 0x09 (((s.g f.x).setWidth 32).setWidth 64)))

/-- R62: whatever a derivation leaves, it either trapped, or it wrote one capability register and nothing else, with a
capability whose footprint lies within its source's, whose permissions are a subset, and whose LEASE, GEN and SCOPE are its
source's (or with the null capability). Premise: the source's footprint lies in the address space, its BPI strides are
whole blocks (R63) and a SEALER has one dimension. -/
def Obligations.DerivationsOnlyNarrow : Prop :=
  ∀ (s t : State) (i : Instr) (d a : BitVec 4), i.wf = true →
    (∃ (d5 a5 b : BitVec 5), d = d5.setWidth 4 ∧ a = a5.setWidth 4 ∧
        (i = .cperm d5 a5 b ∨ i = .cfmt d5 a5 b ∨ i = .cshut d5 a5 b ∨ i = .copen d5 a5 b)) ∨
    (∃ f : CFields, d = f.cd ∧ a = f.ca ∧
        (i = .cslice f ∨ i = .cslicei f ∨ i = .crank f ∨ i = .cstep f ∨ i = .cfix f)) →
    let p := s.c a
    0 ≤ p.bounds.1 → p.bounds.2 ≤ 2 ^ 48 →
    (Fmt.isBpi p.fmt.toNat = true → p.str1.toInt % 256 = 0 ∧ p.str2.toInt % 256 = 0 ∧ p.str3.toInt % 256 = 0) →
    (p.fmt.toNat = Fmt.sealer → p.ext1 = 0 ∧ p.ext2 = 0 ∧ p.ext3 = 0) →
    exec i s = .next t →
    (∃ cause eval note, t = (s.noted note).takeTrap cause eval 0) ∨
    (∃ (n : Nat) (c : Cap), (t = s.after i (s.setC d c) ∨ t = s.after i ((s.cacheLease n).setC d c)) ∧
      (c = Cap.null ∨
        (c.tag = true ∧ p.bounds.1 ≤ c.bounds.1 ∧ c.bounds.2 ≤ p.bounds.2 ∧ c.perm &&& p.perm = c.perm ∧
          c.lease = p.lease ∧ c.gen = p.gen ∧ c.scope = p.scope)))

/-- R66, R67: CLEASE pops the free lease at the head of the list, whose NEXT becomes the head, and writes a capability over
the same footprint with the new LEASE and GEN, the lease live with BASE, LIMIT, OWNER, RUN and PARENT written and GEN
unchanged, g[x] its number; no byte outside the lease's entry and no other entry changes; with none free it writes all ones
and the null capability. CFREE completes on a live lease at the capability's generation: it and all live leases reached from it
through PARENT become revoked, each GEN plus 1, and no other entry of the table that the landing of their stored capabilities
left changes; g[x] receives the epoch, and every waiter of
a counter is woken, those of other leases too (the model's reading of R129, log 23); a lease that is not live at the capability's generation traps with cause 0x0B, and a
capability without permission bit 6 with cause 0x0A. CFREE's clause rests on the canonical form of memory. -/
def Obligations.LeaseInstructions : Prop :=
  ∀ (s : State) (f : CFields),
    let c := s.c f.ca
    let n := c.lease.toNat
    ((Instr.clease f).wf = true → s.capFault c .L 0x40 0 0 true = none →
      let t := s.cacheLease n
      (t.popLease = none →
        exec (.clease f) s = .next (s.after (.clease f) ((t.setG f.x (BitVec.allOnes 64)).setC f.cd Cap.null))) ∧
      (∀ m l, t.popLease = some (m, l) → ∃ u, exec (.clease f) s = .next (s.after (.clease f) u) ∧
        u.lease m = { s.lease m with
          state := 1, base := BitVec.ofInt 48 c.bounds.1, limit := BitVec.ofInt 48 c.bounds.2,
          owner := s.ctx.sr.cid, parent := c.lease, run := BitVec.ofNat 16 (s.runOf s.cur) } ∧
        (∀ k, k < 65536 → k ≠ m → u.lease k = s.lease k) ∧ u.leases.head = (s.lease m).next ∧
        (∀ a, (a < leasePlace m ∨ leasePlace m + 32 ≤ a) → u.byteAt a = s.byteAt a) ∧
        u.c f.cd = { c with lease := BitVec.ofNat 16 m, gen := (s.lease m).gen } ∧
        (f.x ≠ 0 → u.g f.x = BitVec.ofNat 64 m))) ∧
    (∀ cause eval, (Instr.clease f).wf = true → s.capFault c .L 0x40 0 0 true = some (cause, eval) →
      s.trapsChecked (.clease f) c cause eval) ∧
    ((Instr.cfree f).wf = true → c.tag = true → c.otype = 0 →
      (¬ (n ≠ 0 ∧ c.perm.getLsbD 6 = true) → s.traps (.cfree f) 0x0A 0x40) ∧
      (n ≠ 0 → c.perm.getLsbD 6 = true → ¬ ((s.lease n).state = 1 ∧ (s.lease n).gen = c.gen) →
        s.traps (.cfree f) 0x0B (c.lease.setWidth 64)) ∧
      (n ≠ 0 → c.perm.getLsbD 6 = true → (s.lease n).state = 1 → (s.lease n).gen = c.gen → s.Inv →
        let ls := s.liveUnder n
        let land := s.landCaps ls
        let u := s.revokeAll ls
        exec (.cfree f) s = .next (s.after (.cfree f) ((u.wakeWatches (fun _ => true)).setG f.x
          (s.leases.sweepep + (if s.leases.passing then 2 else 1)))) ∧
        n ∈ ls ∧ (∀ k, k ∈ ls → (s.lease k).state = 1) ∧
        (∀ k, k < 65536 → k ≠ 0 → (s.lease k).state = 1 → (s.lease k).parent.toNat ∈ ls → k ∈ ls) ∧
        (∀ k, k < 65536 → u.lease k =
          if k ∈ ls then { land.lease k with state := 2, gen := (land.lease k).gen + 1 } else land.lease k) ∧
        ((s.press.queues ++ s.press.fifo ++ s.press.props.map Propagation.piece).all (fun p => !p.carries ls) = true →
          land = s)))

/-- R65: CENTER of two tagged, live capabilities sealed with one object type, the first a CODE capability with X, whose entry
passes R20 or lies outside the footprint entered, enters the compartment: CID is the object type, the PC the entry, fcap the code unsealed, c13 the data unsealed,
c14 and c15 the return pair (null for a return), the registers outside the keep masks zero, the vector, mask and
vector-window registers zero, the window zero; every system register but CID keeps its value. -/
def Obligations.CompartmentEntry : Prop :=
  ∀ (s u : State) (f : KFields), (Instr.center f).wf = true → isEngine s.cur = false →
    let k := s.c f.ck
    let dt := s.c f.dt
    let target : Word := k.base.setWidth 64 + k.str1.setWidth 64
    (¬ (k.tag = true ∧ dt.tag = true) → s.traps (.center f) 0x08 0) ∧
    (k.tag = true → dt.tag = true →
      (¬ (k.otype ≠ 0 ∧ k.otype = dt.otype) → s.traps (.center f) 0x0C (k.otype.setWidth 64)) ∧
      (k.otype ≠ 0 → k.otype = dt.otype →
        (k.fmt ≠ 0x24 → s.traps (.center f) 0x0E (k.fmt.setWidth 64)) ∧
        (k.fmt = 0x24 → s.alive k = false → s.traps (.center f) 0x0B (k.lease.setWidth 64)) ∧
        (k.fmt = 0x24 → s.alive k = true → s.alive dt = false → s.traps (.center f) 0x0B (dt.lease.setWidth 64)) ∧
        (k.fmt = 0x24 → s.alive k = true → s.alive dt = true → k.perm.getLsbD 4 = false → s.traps (.center f) 0x0A 0x10) ∧
        (k.fmt = 0x24 → s.alive k = true → s.alive dt = true → k.perm.getLsbD 4 = true →
          (∀ cause eval, k.covers target.toNat = true → s.checkTarget target true = .bad cause eval →
            s.trapsAt (.center f) cause eval target) ∧
          ((k.covers target.toNat = false ∧ u = s) ∨ (k.covers target.toNat = true ∧ s.checkTarget target true = .ok u) →
            let t := (u.enter f (seqPc s.pc 3)).setPc target
            exec (.center f) s = .next t ∧ t.pc = target ∧ t.ctx.sr.cid = k.otype ∧ t.ctx.fcap = { k with otype := 0 } ∧
            t.c 13 = { dt with otype := 0 } ∧
            t.c 14 = (if f.ck = 14 ∧ f.dt = 15 then Cap.null else { u.fcapAt (seqPc s.pc 3) with otype := u.ctx.sr.cid }) ∧
            t.c 15 = (if f.ck = 14 ∧ f.dt = 15 then Cap.null else { u.c 13 with otype := u.ctx.sr.cid }) ∧
            (∀ j : Fin 13, t.ctx.r.c[j.val] = if f.ckeep.getLsbD j.val then u.ctx.r.c[j.val] else Cap.null) ∧
            (∀ j : Fin 32, t.ctx.r.g[j] = if f.gkeep.getLsbD j.val ∧ j.val ≠ 0 then u.ctx.r.g[j] else 0) ∧
            t.ctx.r.v = Vector.replicate 8 0 ∧ t.ctx.r.m = Vector.replicate 4 0 ∧ t.ctx.r.vw = Vector.replicate 4 0 ∧
            (∀ n, n ≠ 0x005 → t.sysGet n = u.sysGet n) ∧
            (∀ e, s.wbase ≤ e → e < s.wbase + s.wsize → t.winFile e = 0) ∧ t.mem = u.mem))))

/-! ### Loads, stores, atomics -/

/-- R110, R14: an access makes Cap_Check of its indices; a type the format does not accept traps with cause 0x0E, EVAL the
format; a BYTE access also checks its last byte and traps with cause 0x18, EVAL the address, when the address is no multiple
of its size; an address outside the space, or in another region than BASE, traps with cause 0x0D, EVAL the address. -/
def Obligations.AccessCheck : Prop :=
  ∀ (s u v : State) (c : Cap) (k : Kind) (ok : Bool) (n : Nat) (i0 i1 : Int),
    let addr := c.addr i0 i1
    let trapsBy (note : Note) (cause : BitVec 8) (eval : Word) : Prop :=
      ∃ t, accCheck c k ok n i0 i1 s = .error (.trap cause eval note) t
    let traps := trapsBy .none
    let inside : Prop := 0 ≤ addr ∧ addr < 2 ^ 48 ∧ region addr.toNat = region c.base.toNat
    (∀ cause eval, capCheck c k i0 i1 s = .error (.trap cause eval c.checkNote) s → trapsBy c.checkNote cause eval) ∧
    (capCheck c k i0 i1 s = .ok () u →
      (ok = false → traps 0x0E (c.fmt.setWidth 64)) ∧
      (ok = true → c.fmt ≠ 0 → (inside → accCheck c k ok n i0 i1 s = .ok addr.toNat u) ∧
        (¬ inside → traps 0x0D (BitVec.ofInt 64 addr))) ∧
      (ok = true → c.fmt = 0 →
        (∀ cause eval, capCheck c k (i0 + n - 1) i1 u = .error (.trap cause eval c.checkNote) u →
          trapsBy c.checkNote cause eval) ∧
        (capCheck c k (i0 + n - 1) i1 u = .ok () v →
          (addr % n ≠ 0 → traps 0x18 (BitVec.ofInt 64 addr)) ∧
          (addr % n = 0 → (inside → accCheck c k ok n i0 i1 s = .ok addr.toNat v) ∧
            (¬ inside → traps 0x0D (BitVec.ofInt 64 addr))))))

/-- R79, R80, R98, R103, R114, R143, R285: where a load's bytes come from. An address that does not translate traps with the
cause found, EVAL the address; a page not present or under migration parks. With translation: the agent's youngest queued
stores when they cover every byte (ord 0 or 2); else, its overlapping stores performed, the view cache when it holds the
sector (ord 0 or 2), a fresh copy (kept for ord 0 only), or the home (ord 1, local memory, the weight store). A poisoned
granule traps with cause 0x22, EVAL the address; what the home or the way refuses with cause 0x12; a link that retrains
stalls the load, and a refresh window of the weight-store bank holds it back.
R59, R116 to R119: LD, LDC and LDW complete when the access check passes and the bytes are read: LD extends by its
type (BPI elements reconstructed, S4 nibbles), LDC clears the tag of a capability whose lease is not live at its
generation, LDW writes the window entries after its window operand has passed. PREF completes in every state; one whose
checks fail changes nothing but the PC. A failed check or load traps with its cause. Three readings are the model's: the
scalar type of PREF's check (log 61), that a load which meets a younger store of part of its bytes lets the agent's overlapping
stores be performed first (log 45), and the EVAL of an odd pair of LDW (log 32). -/
def Obligations.LoadResults : Prop :=
  (∀ (s : State) (va n ord : Nat),
    (∀ cause t, s.xlate s.cur va .read = .fault cause t →
      ∃ note, load va n ord s = .error (.trap cause (BitVec.ofNat 64 va) note) s) ∧
    (s.xlate s.cur va .read = .absent → load va n ord s = .error (.park va false false) s) ∧
    (s.xlate s.cur va .read = .migrating → load va n ord s = .error (.park va true false) s) ∧
    (∀ pa rpl e, s.xlate s.cur va .read = .ok pa rpl e →
      let r := (s.reach va e).noteRead pa
      let t := r.settle r.cur pa n
      let got := r.readAt va pa n ord
      let x := match t.view? r.cur va pa with | some x => x | none => t.refreshSource r.cur va pa
      -- the way, and the refresh window
      (r.pathHeld r.cur pa = true → ∃ u, load va n ord s = .error .stall u) ∧
      (r.pathHeld r.cur pa = false → r.refused r.cur (r.runOf r.cur) pa .read = true →
        ∃ u, load va n ord s = .error (.trap 0x12 (BitVec.ofNat 64 va) .securityEvent) u) ∧
      (r.pathHeld r.cur pa = false → r.refused r.cur (r.runOf r.cur) pa .read = false →
        (r.refreshLeft pa ≠ 0 → load va n ord s = .error .again (r.refreshStall r.coreNo pa)) ∧
        (r.refreshLeft pa = 0 →
          (got.1.poison.any id = false → load va n ord s = .ok (got.1.bytes, got.1.tag) got.2) ∧
          (got.1.poison.any id = true → ∃ u, load va n ord s = .error (.trap 0x22 (BitVec.ofNat 64 va) .none) u))) ∧
      -- what the bytes are
      (∀ bs, ord ≠ 1 → allSome (r.forward r.cur pa n) = some bs →
        got.2 = r ∧ got.1.bytes = bs.map Prod.fst ∧ got.1.tag = bs.all (fun b => b.2.1)) ∧
      (ord = 1 ∨ allSome (r.forward r.cur pa n) = none →
        got.2.mem = t.mem ∧ got.2.ctxs = t.ctxs ∧
        (ord ≠ 1 → cacheable pa = true →
          got.1 = x.got pa n ∧ ((t.view? r.cur va pa).isSome = true → got.2 = t) ∧
          (ord = 2 → got.2.press.views = t.press.views)) ∧
        (ord = 1 ∨ cacheable pa = false → got.1.bytes = t.readBytes pa n ∧ got.1.tag = (t.tagAt pa && taggable pa))))) ∧
  (∀ (s u w : State) (f : MFields) (a v : Nat),
    let c := s.c f.c
    let ty := f.ty.toNat
    let i0 : Int := (s.g f.x).toInt + f.off.toInt
    let i1 : Int := (s.g f.y).toInt
    let bits : Nat := if c.fmt = 0x0F then 4 else 8 * scalarSize ty
    ((Instr.ld f).wf = true → accCheck c .L (scalarAccepts c.fmt.toNat ty true) (scalarSize ty) i0 i1 s = .ok a u →
      loadElem c (scalarSize ty) f.ord.toNat i0 i1 a u = .ok v w →
      s.leaves (.ld f) (w.setG f.t (if ty = 0 ∨ ty = 2 ∨ ty = 4 then (BitVec.ofNat bits v).signExtend 64 else BitVec.ofNat 64 v))) ∧
    (∀ bytes tag, (Instr.ldc f).wf = true → accCheck c .LC (c.fmt = 0x20) 32 i0 i1 s = .ok a u →
      load a 32 f.ord.toNat u = .ok (bytes, tag) w →
      ∃ x, s.leaves (.ldc f) (w.setC (f.t.setWidth 4) x) ∧ x.bits = BitVec.ofNat 256 (leNat bytes) ∧
        x.tag = (tag && w.alive x)) ∧
    (let wide := f.ty == 6
     let n := s.winNum f.t 0
     let size := if wide then 8 else 4
     (Instr.ldw f).wf = true → isEngine s.cur = false →
      (s.winOk n wide → accCheck c .L (scalarAccepts c.fmt.toNat ty true) size i0 i1 s = .ok a u →
        loadElem c size f.ord.toNat i0 i1 a u = .ok v w → s.leaves (.ldw f) (w.setWinBits n wide v)) ∧
      (wide = true → n % 2 ≠ 0 → s.traps (.ldw f) 0x02 (BitVec.ofInt 64 n)) ∧
      (¬ (0 ≤ n ∧ n < s.wsize) → (wide = true → n % 2 = 0) → s.traps (.ldw f) 0x14 ((BitVec.ofInt 32 n).signExtend 64))) ∧
    ((Instr.pref f).wf = true →
      (accCheck c .L (scalarAccepts c.fmt.toNat 1 true) 1 i0 i1 s = .ok a u →
        s.leaves (.pref f) (u.prefetch a f.ord.toNat) ∧ (u.prefetch a f.ord.toNat).mem = s.mem) ∧
      (∀ stop t, accCheck c .L (scalarAccepts c.fmt.toNat 1 true) 1 i0 i1 s = .error stop t → s.leaves (.pref f) s)) ∧
    (∀ cause eval note t, (Instr.ld f).wf = true →
      accCheck c .L (scalarAccepts c.fmt.toNat ty true) (scalarSize ty) i0 i1 s = .error (.trap cause eval note) t →
      exec (.ld f) s = .next ((s.noted note).takeTrap cause eval 0)))

/-- R58, R111, R116, R117, R119, R142: ST, STC and STW complete when the access check passes and the page translates: one
piece with exactly the stored bytes enters the agent's store queue (with ord 1 the stores of the agent to those bytes are
performed at once). With ord 0 or 2 every byte of memory and every register keeps its value; the byte at the home changes
when the piece is delivered. What the side logs hold of the page is performed first (R82); with empty logs that
changes no byte, no register and no queue.
R57, R111, R142, R145: delivering a store changes the bytes of its mask and no other byte of memory: a bit of the mask
takes the store's bit, the others keep theirs; the granules it touches take its tag where memory has tags (R56), the others keep theirs. -/
def Obligations.StoreResults : Prop :=
  (∀ (s u : State) (f : MFields) (a pa : Nat) (e : Option TlbEntry) (rpl : Bool),
    let c := s.c f.c
    let ty := f.ty.toNat
    let i0 : Int := (s.g f.x).toInt + f.off.toInt
    let i1 : Int := (s.g f.y).toInt
    let x := s.c (f.t.setWidth 4)
    let w := u.reach a e
    let puts (i : Instr) (n : Nat) (value : Nat) (tags : BitVec 2) : Prop :=
      ∃ t p, s.leaves i t ∧ p.agent = s.cur ∧ p.op = .write ∧ p.line = pa / 64 * 64 ∧ p.va.toNat = a % 2 ^ 48 ∧ p.tags = tags ∧
        p.replicated = rpl ∧ p.nonAlloc = decide (f.ord = 2) ∧ p.pc = w.pc.setWidth 48 ∧
        (∀ j, j < 64 → p.mask.extractLsb' (8 * j) 8 = if a % 64 ≤ j ∧ j < a % 64 + n then 0xFF#8 else 0) ∧
        (∀ j, j < n → a % 64 + n ≤ 64 → p.data.extractLsb' (8 * (a % 64 + j)) 8 = BitVec.ofNat 8 (value / 256 ^ j)) ∧
        (f.ord ≠ 1 → t.press.queues = w.press.queues ++ [p] ∧ t.press.fifo = w.press.fifo ∧ t.mem = w.mem ∧
          t.tags = w.tags ∧ t.ctx = w.ctx ∧ t.core.window = w.core.window) ∧
        (f.ord = 1 → t = (w.setQueues (w.press.queues ++ [p]) w.press.fifo).settle w.cur p.place 1)
    u.xlate u.cur a .write = .ok pa rpl e →
    ((∀ k, (u.coreAt k).u.sideLog = []) → w.mem = u.mem ∧ w.tags = u.tags ∧ w.ctxs = u.ctxs ∧ w.press = u.press) ∧
    ((Instr.st f).wf = true → c.fmt ≠ 0x0F →
      accCheck c .S (scalarAccepts c.fmt.toNat ty false) (scalarSize ty) i0 i1 s = .ok a u →
      puts (.st f) (scalarSize ty) (s.g f.t).toNat 0) ∧
    ((Instr.st f).wf = true → c.fmt = 0x0F → accCheck c .S (scalarAccepts 0x0F ty false) (scalarSize ty) i0 i1 s = .ok a u →
      ∃ t, s.leaves (.st f) t ∧
        (f.ord ≠ 1 → t.mem = w.mem ∧ t.ctx = w.ctx ∧ ∃ p, t.press.queues = w.press.queues ++ [p] ∧
          (∀ j, j < 64 → p.mask.extractLsb' (8 * j) 8 = if j = a % 64 then (if c.lin i0 i1 % 2 = 0 then 0x0F#8 else 0xF0#8) else 0) ∧
          p.data.extractLsb' (8 * (a % 64) + (if c.lin i0 i1 % 2 = 0 then 0 else 4)) 4 = (s.g f.t).extractLsb' 0 4)) ∧
    ((Instr.stw f).wf = true → isEngine s.cur = false → s.winOk (s.winNum f.t 0) (f.ty == 6) →
      accCheck c .S (scalarAccepts c.fmt.toNat ty false) (if f.ty == 6 then 8 else 4) i0 i1 s = .ok a u →
      puts (.stw f) (if f.ty == 6 then 8 else 4) (s.winBits (s.winNum f.t 0) (f.ty == 6)) 0) ∧
    ((Instr.stc f).wf = true → accCheck c .SC (c.fmt = 0x20) 32 i0 i1 s = .ok a u →
      let tagged := x.tag && u.alive x
      (tagged = true → x.scope = 0 → c.scope ≠ 0 → c.perm.getLsbD 7 = false → s.traps (.stc f) 0x0A (BitVec.ofNat 64 a)) ∧
      ((tagged = true → x.scope = 0 → c.scope ≠ 0 → c.perm.getLsbD 7 = true) →
        puts (.stc f) 32 x.bits.toNat (if tagged then (if a % 64 < 32 then 1 else 2) else 0)))) ∧
  (∀ (s : State) (p : Piece),
    let t := s.writeLine p
    (∀ x, (x < p.line ∨ p.line + 64 ≤ x) → t.byteAt x = s.byteAt x ∧ (p.line % 64 = 0 → t.tagAt x = s.tagAt x)) ∧
    (∀ i, i < 64 →
      let m := p.mask.extractLsb' (8 * i) 8
      t.byteAt (p.line + i) = (s.byteAt (p.line + i) &&& ~~~m) ||| (p.data.extractLsb' (8 * i) 8 &&& m)) ∧
    (p.line % 64 = 0 → ∀ g, g < 2 →
      t.tagAt (p.line + 32 * g) =
        if p.mask.extractLsb' (256 * g) 256 = 0 then s.tagAt (p.line + 32 * g) else p.tags.getLsbD g && taggable p.line) ∧
    t.ctxs = s.ctxs ∧ t.cores = s.cores)

/-- R114, R123, R124, R285, R288: the eleven atomics complete when the access check passes through a capability whose scope is not
host, the page translates to a granule without poison, and nothing on the way refuses the request (a refusal of one with a
result traps with cause 0x12, a poisoned granule with 0x22; at a link that retrains the atomic stalls). With t ≠ g0 the agent's earlier stores to the bytes and its requests to the
same home are performed first, the location takes the value of the table, no other byte changes, and g[t] receives the old
value; with t = g0 the request enters the FIFO to its home and no register and no byte of memory outside the settled stores
changes. A host-scope capability traps with cause 0x0D, EVAL the address. -/
def Obligations.AtomicResults : Prop :=
  ∀ (s u : State) (f : MFields) (a pa : Nat) (e : Option TlbEntry) (rpl : Bool),
    let c := s.c f.c
    let wide := f.ty == 6
    let n := if wide then 8 else 4
    let i0 : Int := (s.g f.x).toInt + f.off.toInt
    let v := s.g f.y
    let cmp := s.g f.t
    ∀ r ∈ ([(.aadd f, fun o v _ => o + v, fun o v _ => o + v), (.aand f, fun o v _ => o &&& v, fun o v _ => o &&& v),
        (.aor f, fun o v _ => o ||| v, fun o v _ => o ||| v), (.axor f, fun o v _ => o ^^^ v, fun o v _ => o ^^^ v),
        (.amin f, fun o v _ => if v.toInt < o.toInt then v else o, fun o v _ => if v.toInt < o.toInt then v else o),
        (.amax f, fun o v _ => if o.toInt < v.toInt then v else o, fun o v _ => if o.toInt < v.toInt then v else o),
        (.aminu f, fun o v _ => if v.toNat < o.toNat then v else o, fun o v _ => if v.toNat < o.toNat then v else o),
        (.amaxu f, fun o v _ => if o.toNat < v.toNat then v else o, fun o v _ => if o.toNat < v.toNat then v else o),
        (.aswap f, fun _ v _ => v, fun _ v _ => v), (.acas f, fun o v k => if o = k then v else o, fun o v k => if o = k then v else o),
        (.afadd f, fun o _ _ => o, fun o v _ => afaddBits o v)] :
        List (Instr × (Word → Word → Word → Word) × (BitVec 32 → BitVec 32 → BitVec 32 → BitVec 32))),
      r.1.wf = true → accCheck c .A (scalarAccepts c.fmt.toNat f.ty.toNat true) n i0 0 s = .ok a u →
      (c.scope = 2 → s.traps r.1 0x0D (BitVec.ofNat 64 a)) ∧
      (c.scope ≠ 2 → u.xlate u.cur a .atomic = .ok pa rpl e →
        (f.t ≠ 0 →
          let h := (u.reach a e).noteRead pa
          let w := h.atomicReady h.cur pa n
          (h.pathHeld h.cur pa = true → exec r.1 s = .next s) ∧
          (h.pathHeld h.cur pa = false → h.refused h.cur (h.runOf h.cur) pa .both = true →
            exec r.1 s = .next (s.securityEvent.takeTrap 0x12 (BitVec.ofNat 64 a) 0)) ∧
          (h.pathHeld h.cur pa = false → h.refused h.cur (h.runOf h.cur) pa .both = false → w.poisonAt pa = true →
            s.traps r.1 0x22 (BitVec.ofNat 64 a)) ∧
          (h.pathHeld h.cur pa = false → h.refused h.cur (h.runOf h.cur) pa .both = false → w.poisonAt pa = false → (∀ k, blockQueueCell pa ≠ some (k, 40)) →
          let old := BitVec.ofNat 64 (leNat (w.bytesAt pa n))
          let new : Word := if wide then r.2.1 old v cmp
            else (r.2.2 (old.setWidth 32) (v.setWidth 32) (cmp.setWidth 32)).setWidth 64
          ∃ t, s.leaves r.1 t ∧
            t.g f.t = (if wide then old else if r.1 = .aminu f ∨ r.1 = .amaxu f ∨ r.1 = .afadd f then old
              else (old.setWidth 32).signExtend 64) ∧
            (∀ j, j < n → t.byteAt (pa + j) = BitVec.ofNat 8 (new.toNat / 256 ^ j)) ∧
            (∀ x, (x < pa ∨ pa + n ≤ x) → t.byteAt x = w.byteAt x) ∧
            (∀ k, k ≠ f.t → t.g k = w.g k) ∧ t.ctx.r.c = w.ctx.r.c)) ∧
        (f.t = 0 →
          let h := u.reach a e
          let w := h.settle h.cur pa n
          (h.pathHeld h.cur pa = true → exec r.1 s = .next s) ∧
          (h.pathHeld h.cur pa = false → w.poisonAt pa = true → s.traps r.1 0x22 (BitVec.ofNat 64 a)) ∧
          (h.pathHeld h.cur pa = false → w.poisonAt pa = false →
            ∃ t p, s.leaves r.1 t ∧ t.press.fifo = w.press.fifo ++ [p] ∧ p.agent = w.cur ∧
              p.line = pa / 64 * 64 ∧ t.mem = w.mem ∧ t.ctx = w.ctx)))

/-! ### Counters, bindings, barriers -/

/-- R125, R126, R131, R285, R288: a counter operand passes Cap_Check of its index (kind CTR of a read, CTW of an addition), lies at an
address of its own region, and is no host counter (cause 0x0D, EVAL the address); a read stalls at a link that retrains and
traps with cause 0x12 where the home or the way refuses it; it traps with cause 0x12 in the weight
store or on a replicated page, with 0x0D when its scope is smaller than the reach of the issuer and the home, and with 0x22
on a poisoned granule; else the value is the home's, after the agent's own overlapping stores and requests to that home.
R127, R128, R130 to R133: the request of CTADD, to add min(g[d] + imm32, 2^64 − 1) at the home, enters the FIFO toward it,
with the order bit after a release; it traps with cause 0x0D, EVAL the address, when its scope is smaller than the reach of
the issuer and the home, with 0x12 where it is refused; on a page that is not present it traps with cause 0x0D at once where
its scope is core's, or system's in reduced service, which no home passes. The EVAL of a counter in a host window, in the
weight store or on a replicated page is the model's choice (log 32). CTREAD reads the counter, CTTRY writes 1 or 0, CTWAIT completes at
its threshold and below it waits at its own PC; the order bit of a satisfied one drops the sectors of every region bound to
the counter. SBIND and SUNBIND write one binding. -/
def Obligations.CounterResults : Prop :=
  (∀ (s u : State) (f : QFields) (k : Kind) (va : Nat),
    let c := s.c f.c
    let i := (s.g f.x).toInt
    let inside : Prop := 0 ≤ c.addr i 0 ∧ c.addr i 0 < 2 ^ 48 ∧ region (c.addr i 0).toNat = region c.base.toNat
    (∀ cause eval, capCheck c k i 0 s = .error (.trap cause eval c.checkNote) s →
      counterAddr f k s = .error (.trap cause eval c.checkNote) s) ∧
    (capCheck c k i 0 s = .ok () u →
      (inside → c.scope ≠ 2 → counterAddr f k s = .ok (c.addr i 0).toNat u) ∧
      (inside → c.scope = 2 → counterAddr f k s = .error (.trap 0x0D (BitVec.ofNat 64 (c.addr i 0).toNat) .none) u)) ∧
    (counterAddr f .CTR s = .ok va u → ∀ pa rpl e, u.xlate u.cur va .read = .ok pa rpl e →
      let t := (u.reach va e).noteRead pa
      let w := t.atomicReady t.cur pa 8
      let stops (cause : BitVec 8) : Prop := ∃ v, readCounter f s = .error (.trap cause (BitVec.ofNat 64 va) .none) v
      (t.pathHeld t.cur pa = true → ∃ v, readCounter f s = .error .stall v) ∧
      (t.pathHeld t.cur pa = false → t.refused t.cur (t.runOf t.cur) pa .read = true →
        ∃ v, readCounter f s = .error (.trap 0x12 (BitVec.ofNat 64 va) .securityEvent) v) ∧
      (t.pathHeld t.cur pa = false → t.refused t.cur (t.runOf t.cur) pa .read = false →
      (isWeightStore pa = true ∨ rpl = true → stops 0x12) ∧
      (isWeightStore pa = false → rpl = false →
        (t.scopeReaches t.cur pa f.scope.toNat = false → stops 0x0D) ∧
        (t.scopeReaches t.cur pa f.scope.toNat = true →
          (w.poisonAt pa = true → stops 0x22) ∧
          (w.poisonAt pa = false → readCounter f s =
            .ok (va, pa, w.wordAt pa) (((w.touch pa .read false).asksBytes t.cur pa 8).refreshHeld t.cur pa))))))) ∧
  (∀ (s u w : State) (f : QFields) (va pa : Nat) (v : Word),
    let thresh : Word := if (s.g f.d).toNat + f.imm.toNat < 2 ^ 64 then s.g f.d + f.imm.setWidth 64 else BitVec.allOnes 64
    let acq (t : State) : State := if f.ob then t.acquire va else t
    (readCounter f s = .ok (va, pa, v) u →
      ((Instr.ctread f).wf = true → s.leaves (.ctread f) ((acq u).setG f.d v)) ∧
      ((Instr.cttry f).wf = true →
        (thresh.toNat ≤ v.toNat → s.leaves (.cttry f) ((acq u).setG f.d 1)) ∧
        (v.toNat < thresh.toNat → s.leaves (.cttry f) (u.setG f.d 0))) ∧
      ((Instr.ctwait f).wf = true →
        (thresh.toNat ≤ v.toNat → s.leaves (.ctwait f) (acq u)) ∧
        (v.toNat < thresh.toNat → ∃ t, exec (.ctwait f) s = .next t ∧ t.pc = u.pc ∧ t.ctx.r = u.ctx.r ∧ t.mem = u.mem ∧
          ∃ z, t.ctx.susp = some z ∧ z.reason = .counter ∧ z.key = BitVec.ofNat 64 pa ∧ z.thresh = thresh))) ∧
    (∀ cause eval note t, readCounter f s = .error (.trap cause eval note) t → (Instr.ctread f).wf = true →
      exec (.ctread f) s = .next ((s.noted note).takeTrap cause eval 0)) ∧
    -- an addition on an absent page, whose home no check of core scope, and none of system scope in reduced service, could pass
    (counterAddr f .CTW s = .ok va u → (Instr.ctadd f).wf = true → isEngine s.cur = false →
      (u.xlate u.cur va .atomic = .absent ∨ u.xlate u.cur va .atomic = .migrating) →
      f.scope = 0 ∨ (s.reduced = true ∧ f.scope = 3) → s.traps (.ctadd f) 0x0D (BitVec.ofNat 64 va)) ∧
    (∀ rpl e, counterAddr f .CTW s = .ok va u → (Instr.ctadd f).wf = true → u.xlate u.cur va .atomic = .ok pa rpl e →
      let t := u.reach va e
      (t.scopeReaches t.cur pa f.scope.toNat = false → s.traps (.ctadd f) 0x0D (BitVec.ofNat 64 va)) ∧
      (t.scopeReaches t.cur pa f.scope.toNat = true → t.pathHeld t.cur pa = true → exec (.ctadd f) s = .next s) ∧
      (t.scopeReaches t.cur pa f.scope.toNat = true → t.pathHeld t.cur pa = false →
        t.refused t.cur (t.runOf t.cur) pa .write = true →
        exec (.ctadd f) s = .next (s.securityEvent.takeTrap 0x12 (BitVec.ofNat 64 va) 0)) ∧
      (t.scopeReaches t.cur pa f.scope.toNat = true → t.pathHeld t.cur pa = false →
        t.refused t.cur (t.runOf t.cur) pa .write = false →
        (f.ob = false ∧ w = t.settle t.cur pa 8) ∨
          (f.ob = true ∧ ∃ r, t.releases f.scope.toNat r ∧ r.pathHeld r.cur pa = false ∧ w = r.settle r.cur pa 8) →
        w.poisonAt pa = false →
        ∃ (x : State) (p : Piece), s.leaves (.ctadd f) (x.commandDone pa) ∧ (isEngine s.cur = false → x.commandDone pa = x) ∧ x.press.fifo = w.press.fifo ++ [p] ∧ p.agent = w.cur ∧ p.op = .counter thresh ∧
          p.line = pa / 64 * 64 ∧ x.mem = w.mem ∧ x.ctx = w.ctx)) ∧
    (let n := f.imm.toNat % 8
     let r := s.c (f.d.setWidth 4)
     let c := s.c f.c
     let i := (s.g f.x).toInt
     (∀ t, (Instr.sbind f).wf = true → capCheck r .L 0 0 s = .ok () t → capCheck c .CTR i 0 t = .ok () u →
        ∃ x b, s.leaves (.sbind f) x ∧ x.ctx.r = { u.ctx.r with bind := u.ctx.r.bind.set n b (by omega) } ∧ b.v = true ∧
          b.base = BitVec.ofInt 48 r.bounds.1 ∧ b.limit = BitVec.ofInt 48 r.bounds.2 ∧ b.ctr = BitVec.ofInt 48 (c.addr i 0) ∧
          x.mem = s.mem) ∧
     ((Instr.sunbind f).wf = true →
        ∃ x b, s.leaves (.sunbind f) x ∧ x.ctx.r = { s.ctx.r with bind := s.ctx.r.bind.set n b (by omega) } ∧ b.v = false ∧
          x.mem = s.mem)))

/-- R134 to R136: the slot of a barrier instruction is g[x] + imm32[7:0], 256 or more traps with cause 0x02 (and
a free EVAL, log 31). BINIT sets EXP
and clears CNT, after the completion in error phase of a slot with arrivals or waiters; BARRIVE returns GEN and arrives,
after a release with its order bit; BWAIT returns the status at once when GEN has moved on and suspends otherwise; BARWAIT
releases, arrives once and then waits. An arrival that reaches EXP completes the slot with code 0, one that passes it with
code 0x02, GEN plus 1, CNT 0, and every waiter of the core's six agents reads the status. -/
def Obligations.BarrierResults : Prop :=
  (∀ (s : State) (f : QFields),
    let n := (s.g f.x).toNat + (f.imm.extractLsb' 0 8).toNat
    let k := (f.imm.extractLsb' 8 24).toNat
    let b := s.core.barrier n
    let status : Word := (b.code.setWidth 64 <<< 8) ||| b.gen.setWidth 64
    (∀ i ∈ [Instr.binit f, .barrive f, .bwait f, .barwait f], i.wf = true → 256 ≤ n → s.traps i 0x02 s.openEval) ∧
    (n < 256 →
      ((Instr.binit f).wf = true →
        let t := if b.cnt ≠ 0 ∨ s.slotWaited s.coreNo n = true then s.completeBarrier s.coreNo n 0x02 else s
        s.leaves (.binit f) ((t.setCore (t.core.setBarrier n
          { t.core.barrier n with exp := BitVec.ofNat 24 k, cnt := 0 })).setG f.d ((t.core.barrier n).gen.setWidth 64))) ∧
      (∀ u, (Instr.barrive f).wf = true → (f.ob = false ∧ u = s) ∨ (f.ob = true ∧ s.releases 0 u) →
        s.leaves (.barrive f) ((u.setG f.d ((u.core.barrier n).gen.setWidth 64)).arrive u.coreNo n k)) ∧
      ((Instr.bwait f).wf = true →
        (b.gen ≠ (s.g f.d).setWidth 8 → s.writesG (.bwait f) f.d status) ∧
        (b.gen = (s.g f.d).setWidth 8 →
          s.leaves (.bwait f) (s.suspend .barrier (BitVec.ofNat 64 (256 * b.gen.toNat + n)) 0 f.d none))) ∧
      (∀ u, (Instr.barwait f).wf = true → s.releases 0 u →
        let g := (u.core.barrier n).gen
        let v := u.arrive u.coreNo n 1
        s.leaves (.barwait f) (if (v.core.barrier n).gen ≠ g then v.setG f.d (v.core.barrier n).status
          else v.suspend .barrier (BitVec.ofNat 64 (256 * g.toNat + n)) 0 f.d none)))) ∧
  ∀ (s : State) (core n k : Nat),
    let b := (s.coreAt core).barrier n
    let total := b.cnt.toNat + k
    let t := s.arrive core n k
    let b' := (t.coreAt core).barrier n
    (total < b.exp.toNat → b' = { b with cnt := BitVec.ofNat 24 total } ∧ t.ctxs = s.ctxs ∧ t.mem = s.mem) ∧
    (b.exp.toNat ≤ total →
      b' = { b with cnt := 0, gen := b.gen + 1, code := if total = b.exp.toNat ∧ b.exp ≠ 0 then 0 else 0x02 } ∧
      ∀ a ∈ [Agent.ctx core 0, .ctx core 1, .ctx core 2, .ctx core 3, .copy core, .epi core], core < 1536 →
        ∀ w, (s.ctxOf a).susp = some w → w.reason = .barrier → w.key.toNat % 256 = n →
          (t.ctxOf a).susp = none ∧
          (w.dst ≠ 0 → (t.ctxOf a).r.g[w.dst.toNat] = (b'.code.setWidth 64 <<< 8) ||| b'.gen.setWidth 64))

/-! ### Engines' commands, messages -/

/-- R166: ECMD whose block passes the checks, in the core's own local memory and at a multiple of 128, stalls while the
engine's FIFO holds 8; else, after a release, the block's address enters the FIFO, the kick counter counts one more and g[d]
receives it. EWAIT completes when the mailbox has reached g[d] and reads it; below it the context waits at its own PC. -/
def Obligations.EngineCommandResults : Prop :=
  ∀ (s : State) (f : QFields), isEngine s.cur = false →
    let c := s.c f.c
    let i := (s.g f.x).toInt
    let e := (f.imm.extractLsb' 0 1).toNat
    let a := (c.addr i 0).toNat
    (∀ u v, (Instr.ecmd f).wf = true → capCheck c .LC i 0 s = .ok () u → capCheck c .S (i + 127) 0 u = .ok () v →
      (c.fmt ≠ 0 → s.traps (.ecmd f) 0x0E (c.fmt.setWidth 64)) ∧
      (c.fmt = 0 → ¬ (c.scope = 0 ∧ agentCore s.cur = some (localCore c.base.toNat)) →
        s.traps (.ecmd f) 0x0D (c.base.setWidth 64)) ∧
      (c.fmt = 0 → c.scope = 0 → agentCore s.cur = some (localCore c.base.toNat) →
        elemAddr c i 0 v = .ok a v →
        (a % 128 ≠ 0 → s.traps (.ecmd f) 0x18 (BitVec.ofNat 64 a)) ∧
        (a % 128 = 0 → 8 ≤ (s.core.engine e).fifo.length → exec (.ecmd f) s = .next s) ∧
        (∀ t, a % 128 = 0 → (s.core.engine e).fifo.length < 8 → v.releases 0 t →
          ∃ w, s.leaves (.ecmd f) w ∧ (w.core.engine e).fifo = (t.core.engine e).fifo ++ [BitVec.ofNat 48 a] ∧
            w.wordAt (kickCell t.coreNo e) = satAdd (t.wordAt (kickCell t.coreNo e)) 1 ∧
            (f.d ≠ 0 → w.g f.d = w.wordAt (kickCell t.coreNo e))))) ∧
    (let v := s.wordAt (mailCell s.coreNo e)
     (Instr.ewait f).wf = true →
      ((s.g f.d).toNat ≤ v.toNat → s.leaves (.ewait f) ((if f.ob then s.acquireAll else s).setG f.d v)) ∧
      (v.toNat < (s.g f.d).toNat → ∃ t, exec (.ewait f) s = .next t ∧ t.pc = s.pc ∧ t.ctx.r = s.ctx.r ∧
        ∃ z, t.ctx.susp = some z ∧ z.reason = .counter ∧ z.thresh = s.g f.d))

/-- R176 to R178: SEND outside a strict phase, of 1 to 56 bytes in whole elements of an own local-memory capability, with a
scope that reaches the destination, completes: it leaves the context waiting with its message on the way, the bytes read and
which of them lie in poisoned granules (R345). A non-zero field of g[d] traps with cause 0x02, EVAL g[d], a length that is not
1 to 56 or no multiple of the element size with 0x02, EVAL the length (so does, log 64, a format whose elements are no whole bytes), another core's or no local memory with 0x0D, EVAL BASE,
a scope that does not contain the destination with 0x0D, EVAL its number. RECV and RECVT of a ring with a message complete
with the offset of the oldest slot; with none RECV waits at its PC, RECVT of 0 cycles writes all ones, and RECVT otherwise
waits. RADV advances HEAD by at most the occupied slots. All four trap in a strict compute phase, the last three on a disabled
ring, RADV above the occupied slots (EVAL free but SEND's, log 31). KSEND of a level that the run has completes: a pair enters
the exchange channel for the key's owner; above 4 it traps with cause 0x02, above the run's level with 0x0D.
R175, R176: the status of a delivery: 0x1202 for no core, 0x0D02 for a core of another run, 0x0202 for a disabled ring, 1 for a
full one, each with nothing written; else the slot index in [31:16], TAIL advanced, and, where no written-back continuation
waits for the ring, the 64-byte slot written at TAIL: payload, zeros, and the header word.
R178: a pair at disabled bins is dropped and counted; at enabled ones its bin takes the value of the table. -/
def Obligations.MessageResults : Prop :=
  (∀ (s : State) (f : QFields),
    let c := s.c f.c
    let i := (s.g f.x).toInt
    let n := (f.imm.extractLsb' 0 6).toNat
    let size := Fmt.size c.fmt.toNat
    let dst := (s.g f.d).extractLsb' 0 11
    let fields : Prop := (s.g f.d).extractLsb' 19 45 = 0 ∧ (s.g f.d).extractLsb' 11 5 = 0
    let length : Prop := n ≠ 0 ∧ n ≤ 56 ∧ size ≠ 0 ∧ n % size = 0
    (Instr.send f).wf = true →
      (s.strict = true → s.traps (.send f) 0x0D 0) ∧
      (s.strict = false → ¬ fields → s.traps (.send f) 0x02 (s.g f.d)) ∧
      (s.strict = false → fields → ¬ length → s.traps (.send f) 0x02 (BitVec.ofNat 64 n)) ∧
      (∀ u v, s.strict = false → fields → length →
        capCheck c .L i 0 s = .ok () u → capCheck c .L (i + n / size - 1) 0 u = .ok () v →
        let own : Prop := c.scope = 0 ∧ agentCore s.cur = some (localCore c.base.toNat)
        let reaches : Prop := scopeOfCores s.coreName dst.toNat ≤ f.scope.toNat
        (¬ own → s.traps (.send f) 0x0D (c.base.setWidth 64)) ∧
        (own → ¬ reaches → s.traps (.send f) 0x0D (dst.setWidth 64)) ∧
        (∀ w a parts, own → reaches → (s.reduced = false ∨ f.scope ≠ 3) → elemAddr c i 0 v = .ok a v →
          (List.range (n / size)).mapM (fun k => loadAny (a + k * size) size) v = .ok parts w →
          ∃ t, s.leaves (.send f) t ∧ t.ctx.r = w.ctx.r ∧ t.mem = w.mem ∧
            (∃ z, t.ctx.susp = some z ∧ z.reason = .message ∧ z.dst = f.d) ∧
            t.ctx.sending = some
              { dst := dst, ring := (s.g f.d).extractLsb' 16 3, payload := parts.flatMap Got.bytes, poison := parts.flatMap Got.poison }))) ∧
  (∀ (s : State) (f : QFields),
    let ring := (f.imm.extractLsb' 0 3).toNat
    let r := s.core.ring ring
    let slots := 2 ^ r.logn.toNat
    let used := (r.tail.toNat + (4096 - r.head.toNat)) % slots
    let offset : Word := BitVec.ofNat 64 (r.base.toNat * 64 + 64 * r.head.toNat)
    (∀ i ∈ [Instr.recv f, .recvt f, .radv f], i.wf = true →
      (s.strict = true → s.traps i 0x0D s.openEval) ∧ (s.strict = false → r.en = false → s.traps i 0x02 s.openEval)) ∧
    (s.strict = false → r.en = true →
      (used ≠ 0 →
        ((Instr.recv f).wf = true → s.writesG (.recv f) f.d offset) ∧
        ((Instr.recvt f).wf = true → s.writesG (.recvt f) f.d offset)) ∧
      (used = 0 →
        ((Instr.recv f).wf = true →
          exec (.recv f) s = .next ((s.suspend .message (BitVec.ofNat 64 ring) 0 0 none).setPc s.pc)) ∧
        ((Instr.recvt f).wf = true →
          (f.imm.extractLsb' 8 24 = 0 → s.writesG (.recvt f) f.d (BitVec.allOnes 64)) ∧
          (f.imm.extractLsb' 8 24 ≠ 0 → exec (.recvt f) s = .next ((s.suspend .message (BitVec.ofNat 64 ring) 0 f.d
            (some (f.imm.extractLsb' 8 24).toNat)).setPc s.pc)))) ∧
      ((Instr.radv f).wf = true →
        let k := (f.imm.extractLsb' 8 13).toNat
        (k ≤ used → s.leaves (.radv f) (s.setCore (s.core.setRing ring
          { r with head := BitVec.ofNat 12 ((r.head.toNat + k) % slots) }))) ∧
        (used < k → s.traps (.radv f) 0x02 s.openEval)))) ∧
  (∀ (s : State) (f : QFields), (Instr.ksend f).wf = true →
    let n := f.imm.toNat
    (4 < n → s.traps (.ksend f) 0x02 (f.imm.setWidth 64)) ∧
    (∀ core run, n ≤ 4 → agentCore s.cur = some core → s.runOn core = some run →
      (run.domain.level.toNat < n → s.traps (.ksend f) 0x0D (f.imm.setWidth 64)) ∧
      (n ≤ run.domain.level.toNat →
        let ms := s.members run.domain n core
        let owner := (s.g f.x * 0x9E3779B97F4A7C15).toNat / 2 ^ 32 % ms.length
        let dst := ms.getD owner core
        let u : State := { s with press := { s.press with exchange := s.press.exchange ++
          [.pair run.id.toNat core dst (BitVec.ofNat 3 n) (s.g f.x) (s.g f.d)] } }
        s.leaves (.ksend f)
          (u.tells s.cur dst [s.plainRequest s.cur 20 4 (localBase dst) 0 ((s.g f.d ++ s.g f.x).setWidth 256)])))) ∧
  (∀ (s : State) (run : Nat) (scid : BitVec 16) (sender : Nat) (m : Message),
    let dst := m.dst.toNat
    let k := m.ring.toNat
    let r := (s.coreAt dst).ring k
    let slots := 2 ^ r.logn.toNat
    let n := r.tail.toNat % slots
    let used := (r.tail.toNat + (4096 - r.head.toNat)) % slots
    let d := s.deliverTo run scid sender m
    (s.numCores ≤ dst → d = (0x1202, s)) ∧
    (dst < s.numCores → (s.coreAt dst).run ≠ some run → d = (0x0D02, s)) ∧
    (dst < s.numCores → (s.coreAt dst).run = some run →
      (r.en = false → d = (0x0202, s)) ∧
      (r.en = true → used + 1 = slots → d = (1, s)) ∧
      (r.en = true → used + 1 ≠ slots →
        d.1 = BitVec.ofNat 64 (2 ^ 16 * n) ∧
        ((d.2.coreAt dst).ring k).tail = BitVec.ofNat 12 ((n + 1) % slots) ∧ ((d.2.coreAt dst).ring k).head = r.head ∧
        ((s.coreAt dst).u.waiting.all (fun p => !p.susp.onRing k) = true → m.payload.length ≤ 56 →
          let a := localBase dst + r.base.toNat * 64 + 64 * n
          (∀ j, j < 56 → d.2.byteAt (a + j) = m.payload.getD j 0) ∧
          (∀ j, j < 8 → d.2.byteAt (a + 56 + j) =
            BitVec.ofNat 8 ((scid.toNat * 2 ^ 32 + m.payload.length * 2 ^ 16 + sender) / 256 ^ j)) ∧
          (∀ x, (x < a ∨ a + 64 ≤ x) → d.2.byteAt x = s.byteAt x) ∧
          d.2.tagAt a = false ∧ d.2.tagAt (a + 32) = false)))) ∧
  ∀ (s : State) (b : KeyBins) (src dst : Nat) (key value : Word),
    (b.en = false → s.applyPairIn b src dst key value = s.count dst 7 1) ∧
    (b.en = true →
      let n := if b.op = 0 then 4 else 8
      let a := localBase dst + b.base.toNat * 8 + n * (key.toNat % (b.nbm1.toNat + 1))
      let old := leNat (s.bytesAt a n)
      let new := if b.op = 0 then (old + value.toNat) % 2 ^ 32 else if b.op = 3 then max old value.toNat
        else (old + value.toNat) % 2 ^ 64
      let t := s.applyPairIn b src dst key value
      (∀ j, j < n → t.byteAt (a + j) = BitVec.ofNat 8 (new / 256 ^ j)) ∧
      (∀ x, (x < a ∨ a + n ≤ x) → t.byteAt x = s.byteAt x))

/-! ### Notice boards, impositions -/

/-- R315, R318, R320, R321: a board instruction whose board passes its checks completes. NBPOST joins g[d] into slot g[x] by
the board's mode, sets the slot's MASK bit, adds 1 to LEVEL and returns the view: g[d] the new LEVEL, vw the MASK, v the
slots; NBVIEW returns the view; NBINIT clears all 64 slots, LEVEL and MASK and returns the old LEVEL of a valid board;
NBSLOT reads a slot. Where the home lies on another die, the operation and the home's answer cross the links as the records of
R283 (State.unitAsks). A capability that is not of core scope traps with cause 0x25. -/
def Obligations.BoardResults : Prop :=
  ∀ (s u v w : State) (f : QFields) (b : Nat), isEngine s.cur = false →
    let base : Word := (s.c f.c).base.setWidth 64
    let n := f.imm.extractLsb' 2 3
    (∀ t, capCheck (s.c f.c) .NB 0 0 s = .ok () t → (s.c f.c).scope ≠ 0 →
      ∀ i ∈ [Instr.nbpost f, .nbview f, .nbinit f, .nbslot f], i.wf = true → s.traps i 0x25 base) ∧
    (boardAt f s = .ok b u →
      ((f.ob = false ∧ w = u) ∨ (f.ob = true ∧ u.releases f.scope.toNat w) → (Instr.nbpost f).wf = true →
        boardHome b base true (some (s.g f.x)) true w = .ok () v →
        let k := (s.g f.x).toNat
        let old := v.boardSlot b k
        let joined : Word := if v.boardMode b = 0 then old ||| s.g f.d
          else if v.boardMode b = 1 then (if old.toNat < (s.g f.d).toNat then s.g f.d else old)
          else if (v.boardMask b).getLsbD k then old else s.g f.d
        ∃ p t : State, s.leaves (.nbpost f) (t.unitAsks 19 (.nbpost f) f b [s.g f.d, s.g f.x] (t.boardView b)) ∧ t = p.takeView f b ∧ p.boardSlot b k = joined ∧ p.boardLevel b = v.boardLevel b + 1 ∧
          p.boardMask b = v.boardMask b ||| (1 <<< k) ∧ p.wordAt (b + 16) = v.wordAt (b + 16) ∧
          (∀ j, j < 64 → j ≠ k → p.boardSlot b j = v.boardSlot b j) ∧ p.ctx.r = v.ctx.r) ∧
      ((Instr.nbview f).wf = true → boardHome b base true none false u = .ok () v →
        let t := (if f.ob then v.acquireAll else v).takeView f b
        s.leaves (.nbview f) (t.unitAsks 19 (.nbview f) f b [] (t.boardView b))) ∧
      ((Instr.nbinit f).wf = true → boardHome b base false none false u = .ok () v →
        let old := if v.boardV b then v.boardLevel b else 0
        ∃ t : State, s.leaves (.nbinit f) ((t.setG f.d old).unitAsks 19 (.nbinit f) f b [] (leBytes 8 old.toNat)) ∧ t.boardLevel b = 0 ∧
          t.boardMask b = 0 ∧ t.boardV b = true ∧ t.boardInits b = v.boardInits b + 1 ∧
          t.boardMode b = f.imm.extractLsb' 0 2 ∧ t.boardSlots b = (f.imm.extractLsb' 8 6).toNat + 1 ∧
          (∀ j, j < 64 → t.boardSlot b j = 0) ∧ t.ctx.r = v.ctx.r) ∧
      ((Instr.nbslot f).wf = true → boardHome b base true (some (s.g f.x)) false u = .ok () v →
        let x := v.boardSlot b (s.g f.x).toNat
        s.leaves (.nbslot f) ((v.setG f.d x).unitAsks 19 (.nbslot f) f b [s.g f.x] (leBytes 8 x.toNat)))) ∧
    (let t := v.takeView f b
     (f.d ≠ 0 → t.g f.d = v.boardLevel b) ∧ t.ctx.r.vw[(f.imm.extractLsb' 0 2).toNat] = v.boardMask b ∧
      (∀ j, j < 64 → (t.v n).extractLsb' (64 * j) 64 = if j < v.boardSlots b then v.boardSlot b j else 0) ∧
      (∀ j, 64 ≤ j → j < 256 → (t.v n).extractLsb' (64 * j) 64 = (v.v n).extractLsb' (64 * j) 64) ∧ t.mem = v.mem)

/-- R329 to R332: an imposition instruction whose block passes the checks of R328 completes. TCLAIM of a worker the block gives
to the issuing core writes the three words of the unit's claim (State.claim) to g[d], g[d + 1], g[d + 2], with the order bit as
an acquire. TDONE of a box the core holds marks its cells done and no other cell, moves their count from CLAIMED to DONE, ends
the claim entry and returns CELLS − DONE. THAND returns 1 under dynamic placement or when the owner is the own core, 2 when
the owner's ready queue is full, and otherwise, once no write of its own waits at a link that retrains, performs the agent's
earlier stores and hands the continuation over (State.handOver); a pinned or not portable
continuation traps with cause 0x0D, EVAL 0, and a check of its write-back that fails with its cause. SCHEDW stages a valid
PEND of CUR's extents and quanta and returns the epoch it waits for; with INIT it starts the block: PEND current with V, every
cell free, every claim entry and worker at the start, CELLS, DONE, LEVEL, the workers and EPOCH as R332 says. SCHEDR reads
words 0 to 3 of CUR, of the pending register, STAT0 or STAT1. Where the home lies on another die, each operation and its
answer cross the links (State.unitAsks). Each sets SCHEDEP to the block's EPOCH. A trap of TDONE or SCHEDW
leaves its release made: what they find wrong traps with the cause and EVAL of R330 and R332. A block without ACT traps TCLAIM
with cause 0x24, EVAL 0, and a foreign worker with EVAL the worker. -/
def Obligations.ImpositionResults : Prop :=
  (∀ (s u v w : State) (f : QFields) (a : Nat), isEngine s.cur = false →
    let base : Word := (s.c f.c).base.setWidth 64
    let released (p q : State) : Prop := (f.ob = false ∧ q = p) ∨ (f.ob = true ∧ p.releases f.scope.toNat q)
    -- TCLAIM
    (impAt f .L s = .ok a u → impHome a base u = .ok () v → (Instr.tclaim f).wf = true →
      let k := s.g f.x
      (v.impAct a = false → s.traps (.tclaim f) 0x24 0) ∧
      (v.impAct a = true → ¬ (k.toNat < v.impWorkers a ∧ v.impWorker a k.toNat = v.coreNo) → s.traps (.tclaim f) 0x24 k) ∧
      (v.impAct a = true → k.toNat < v.impWorkers a → v.impWorker a k.toNat = v.coreNo →
        let r := v.claim a k.toNat
        let t := r.2.takeEpoch a
        s.leaves (.tclaim f)
          (((((if f.ob then t.acquireAll else t).setG f.d r.1.1).setG (f.d + 1) r.1.2.1).setG (f.d + 2) r.1.2.2).unitAsks 22 (.tclaim f) f a
            [k] (leBytes 8 r.1.1.toNat ++ leBytes 8 r.1.2.1.toNat ++ leBytes 8 r.1.2.2.toNat)))) ∧
    -- TDONE
    (impAt f .L s = .ok a u → released u w → impHome a base w = .ok () v → (Instr.tdone f).wf = true →
      (∀ t, claimOf f a v = .error (.trap 0x24 (v.g f.x) .none) t →
        exec (.tdone f) s = .next (w.takeTrap 0x24 (v.g f.x) 0)) ∧
      (∀ e, claimOf f a v = .ok e v →
        let c := v.schedAt a
        let cells := c.boxCells (c.boxAt (s.g f.x) (s.g (f.x + 1)))
        let left := v.impCells a - (v.impDone a + cells.length)
        ∃ t : State, s.leaves (.tdone f) (((t.takeEpoch a).setG f.d (BitVec.ofNat 64 left)).unitAsks 22 (.tdone f) f a
            [s.g f.x, s.g (f.x + 1)] (leBytes 8 left)) ∧
          (∀ k, t.cellState a k = if k ∈ cells then 2 else v.cellState a k) ∧ (t.wordAt (e + 16)).getLsbD 16 = false ∧
          (v.impDone a + cells.length < 2 ^ 32 → t.impDone a = v.impDone a + cells.length) ∧
          t.impClaimed a = v.impClaimed a - cells.length ∧ t.impCells a = v.impCells a ∧ t.ctx.r = v.ctx.r)) ∧
    -- THAND
    (∀ e, impAt f .L s = .ok a u → impHome a base u = .ok () v → claimOf f a v = .ok e v → (Instr.thand f).wf = true →
      (v.ctx.isPinned = true ∨ v.ctx.portable (some f.c.toNat) = false → s.traps (.thand f) 0x0D 0) ∧
      (v.ctx.isPinned = false → v.ctx.portable (some f.c.toNat) = true →
        (∀ cause eval note t, handChecks v = .error (.trap cause eval note) t →
          exec (.thand f) s = .next ((s.noted note).takeTrap cause eval 0)) ∧
        (handChecks v = .ok () w →
          let t := w.takeEpoch a
          let owner := t.handTarget a (s.g f.x) (s.g (f.x + 1))
          let asked (p : State) (x : Nat) : State := p.unitAsks 22 (.thand f) f a [s.g f.x, s.g (f.x + 1)] (leBytes 8 x)
          let queued (k : Nat) : Nat := (t.readyOf k (t.runOf t.cur)).length
          (owner = none ∨ owner = some t.coreNo → s.leaves (.thand f) (asked (t.setG f.d 1) 1)) ∧
          (∀ k, owner = some k → k ≠ t.coreNo → 56 ≤ queued k → s.leaves (.thand f) (asked (t.setG f.d 2) 2)) ∧
          (∀ k, owner = some k → k ≠ t.coreNo → queued k < 56 → t.writesHeld = true → exec (.thand f) s = .next s) ∧
          (∀ k z, owner = some k → k ≠ t.coreNo → queued k < 56 → t.writesHeld = false →
            ((asked t 0).flush t.cur).handOver e k f.d = some z → s.leaves (.thand f) z)))) ∧
    -- SCHEDW
    (impAt f .S s = .ok a u → released u w → impHome a base w = .ok () v → (Instr.schedw f).wf = true →
      let p := v.schedAt (a + 0x20)
      let fails (cause : BitVec 8) (eval : Word) : Prop := exec (.schedw f) s = .next (w.takeTrap cause eval 0)
      (f.imm.getLsbD 0 = false →
        (v.impAct a = false → fails 0x02 0) ∧
        (∀ x, v.impAct a = true → p.badWord (some (v.schedAt a)) = some x → fails 0x02 x) ∧
        (v.impAct a = true → p.badWord (some (v.schedAt a)) = none →
          let t := (v.setPending (v.runOf v.cur) a { w0 := p.ext, w1 := p.quanta, w2 := p.tile, w3 := p.w3 ||| 0x400 }).takeEpoch a
          s.leaves (.schedw f) ((t.setG f.d ((v.impEpoch a + 1).setWidth 64)).unitAsks 22 (.schedw f) f a []
            (leBytes 8 (v.impEpoch a + 1).toNat)))) ∧
      (f.imm.getLsbD 0 = true →
        let level := (f.imm.extractLsb' 1 3).toNat
        let n := (f.imm.extractLsb' 4 6).toNat + 1
        let idle : Prop := v.impAct a = false ∨ v.impDone a = v.impCells a
        (¬ idle → fails 0x24 0) ∧
        (∀ x, idle → p.badWord none = some x → fails 0x02 x) ∧
        (∀ r, idle → p.badWord none = none → v.runOn v.coreNo = some r →
          let ms := v.members r.domain level (localCore a)
          (r.domain.level.toNat < level → fails 0x02 (BitVec.ofNat 64 level)) ∧
          (∀ j, level ≤ r.domain.level.toNat → j < n → v.impWorker a j ∉ ms → (∀ i, i < j → v.impWorker a i ∈ ms) →
            fails 0x02 (BitVec.ofNat 64 j)) ∧
          (level ≤ r.domain.level.toNat → (∀ j, j < n → v.impWorker a j ∈ ms) →
            (∀ cause eval note z, capCheck (v.c f.c) .S (0xB00 + (p.cells + 3) / 4 - 1) 0 v = .error (.trap cause eval note) z →
              exec (.schedw f) s = .next ((w.noted note).takeTrap cause eval 0)) ∧
            (∀ z, capCheck (v.c f.c) .S (0xB00 + (p.cells + 3) / 4 - 1) 0 v = .ok () z →
              s.leaves (.schedw f)
                ((((z.impInit a p level n).takeEpoch a).setG f.d 0).unitAsks 22 (.schedw f) f a [] (leBytes 8 0))))))) ∧
    -- SCHEDR
    (impAt { f with imm := 0 } .L s = .ok a u → impHome a base u = .ok () v → (Instr.schedr f).wf = true →
      let sel := f.imm.toNat
      let pend := v.pendingAt (v.runOf v.cur) a
      let x := if sel < 4 then v.wordAt (a + 8 * sel) else if sel = 4 then pend.w0 else if sel = 5 then pend.w1
        else if sel = 6 then pend.w2 else if sel = 7 then pend.w3 else v.wordAt (a + 0x40 + 8 * (sel - 8))
      s.leaves (.schedr f) (((v.takeEpoch a).setG f.d x).unitAsks 22 (.schedr f) f a [] (leBytes 8 x.toNat)))) ∧
  -- the block that INIT starts
  (∀ (s : State) (a level n : Nat) (p : Sched), p.badWord none = none → level < 8 → 0 < n → n ≤ 64 →
    let t := s.impInit a p level n
    t.impAct a = true ∧ t.impWorkers a = n ∧ t.impLevel a = level ∧ t.impEpoch a = 0 ∧ t.impCells a = p.cells ∧ t.impDone a = 0 ∧
    t.impClaimed a = 0 ∧ t.impCursor a = 0 ∧ t.schedAt a = { p with w3 := p.w3 ||| 0x400 } ∧
    (∀ k, k < p.cells → t.cellState a k = 0) ∧ (∀ i, i < 64 → (t.wordAt (a + 0x300 + 32 * i + 16)).getLsbD 16 = false) ∧
    (∀ j, j < n → t.impCand a j = none ∧ t.impNext a j = p.start n j ∧ t.impWorker a j = s.impWorker a j)) ∧
  ∀ (s : State) (a : Nat), (s.takeEpoch a).ctx.sr.schedep = s.impEpoch a ∧ (s.takeEpoch a).mem = s.mem

/-! ### The vector unit -/

/-- R236 to R239, R246: the element-wise instructions complete when the tile fits and, where a selected element rounds, the
rounding mode exists: element e of vd is the operation on elements e of va, vb (or the scalar, R232) and vc. A tile that does
not fit traps with cause 0x02, EVAL its bytes. -/
def Obligations.VectorArithmetic : Prop :=
  ∀ (s : State) (f : VFields) (mode : Mode),
    let ty := f.ty.toNat
    let w := elemBits ty
    let a (e : Nat) : Nat := elemAt (s.v f.va) w e
    let b (e : Nat) : Nat := if f.imm8.getLsbD 0 then (s.g f.g).toNat % 2 ^ w else elemAt (s.v f.vb) w e
    let c (e : Nat) : Nat := elemAt (s.v f.vc) w e
    let plainB (e : Nat) : Nat := elemAt (s.v f.vb) w e
    let k := (f.imm8.extractLsb' 0 3).toNat
    let rows : List (Instr × Bool × (Nat → Nat × Flags)) :=
      [(.vadd f, Fmt.isF ty, fun e => VOp.add.elem ty mode f.sat (a e) (b e)),
       (.vsub f, Fmt.isF ty, fun e => VOp.sub.elem ty mode f.sat (a e) (b e)),
       (.vmul f, Fmt.isF ty, fun e => VOp.mul.elem ty mode f.sat (a e) (b e)),
       (.vmin f, false, fun e => VOp.min.elem ty mode f.sat (a e) (b e)),
       (.vmax f, false, fun e => VOp.max.elem ty mode f.sat (a e) (b e)),
       (.vand f, false, fun e => (a e &&& b e, {})), (.vor f, false, fun e => (a e ||| b e, {})),
       (.vxor f, false, fun e => (a e ^^^ b e, {})),
       (.vshl f, false, fun e => intTail ty f.sat (intRead ty (a e) * 2 ^ (b e % w))),
       (.vshr f, false, fun e => (a e / 2 ^ (b e % w), {})),
       (.vsra f, false, fun e => (((BitVec.ofNat w (a e)).sshiftRight (b e % w)).toNat, {})),
       (.vfma f, Fmt.isF ty, fun e => fusedElem false ty mode f.sat (a e) (b e) (c e)),
       (.vfms f, Fmt.isF ty, fun e => fusedElem true ty mode f.sat (a e) (b e) (c e)),
       (.vabs f, false, fun e => signElem false ty f.sat (a e)), (.vneg f, false, fun e => signElem true ty f.sat (a e)),
       (.vexp2 f, true, fun e => Elementary.exp2.elem ty mode f.sat (a e)),
       (.vlog2 f, true, fun e => Elementary.log2.elem ty mode f.sat (a e)),
       (.vrcp f, true, fun e => Elementary.rcp.elem ty mode f.sat (a e)),
       (.vrsq f, true, fun e => Elementary.rsq.elem ty mode f.sat (a e)),
       (.vtanh f, true, fun e => Elementary.tanh.elem ty mode f.sat (a e))]
    (∀ r ∈ rows, r.1.wf = true →
      (s.tileOk ty → (r.2.1 = true → (∃ e, e < s.elems ∧ s.selected f.m e = true) → s.modeIs f.rnd mode) →
        s.tileResult r.1 f.vd w s.elems f.m f.mz r.2.2) ∧
      (s.vbytes < tileBytes ty s.elems → s.traps r.1 0x02 (BitVec.ofNat 64 (tileBytes ty s.elems)))) ∧
    ((Instr.vbarq f).wf = true → Fmt.isBpi ty = false → s.tileOk ty →
      ((∃ e, e < s.elems ∧ s.selected f.m e = true ∧ barqRounds ty k (a e) (plainB e) = true) → s.modeIs f.rnd mode) →
      s.tileResult (.vbarq f) f.vd w s.elems f.m f.mz (fun e => barqElem ty k
        (if (List.range s.elems).any (fun e => s.selected f.m e && barqRounds ty k (a e) (plainB e)) then mode else .rne)
        f.sat (a e) (plainB e)))

/-- R182, R189, R236, R237: what an element operation computes. Integer sums, differences, products and fused forms are
exact and then wrap, or with sat become the nearest bound and set SAT; floating-point ones are rounded once by the mode. -/
def Obligations.ElementArithmetic : Prop :=
  ∀ (ty : Nat) (mode : Mode) (sat : Bool) (a b c : Nat),
    let x := intRead ty a
    let y := intRead ty b
    let z := intRead ty c
    (Fmt.isI ty = true →
      (∀ n : Int, intTail ty sat n =
        if intMin ty ≤ n ∧ n ≤ intMax ty then ((BitVec.ofInt (elemBits ty) n).toNat, {})
        else if sat then ((BitVec.ofInt (elemBits ty) (if n < intMin ty then intMin ty else intMax ty)).toNat, { sat := true })
        else ((BitVec.ofInt (elemBits ty) n).toNat, {})) ∧
      (∀ n : Int, intMin ty ≤ n → n ≤ intMax ty → intRead ty (intTail ty sat n).1 = n) ∧
      VOp.add.elem ty mode sat a b = intTail ty sat (x + y) ∧ VOp.sub.elem ty mode sat a b = intTail ty sat (x - y) ∧
      VOp.mul.elem ty mode sat a b = intTail ty sat (x * y) ∧
      intRead ty (VOp.min.elem ty mode sat a b).1 = min x y ∧ intRead ty (VOp.max.elem ty mode sat a b).1 = max x y ∧
      fusedElem false ty mode sat a b c = intTail ty sat (x * y + z) ∧
      fusedElem true ty mode sat a b c = intTail ty sat (x * y - z) ∧
      signElem true ty sat a = intTail ty sat (-x) ∧ signElem false ty sat a = intTail ty sat |x|) ∧
    (Fmt.isF ty = true →
      let p := (floatFmt ty).unpack a
      let q := (floatFmt ty).unpack b
      let r := (floatFmt ty).unpack c
      let rounded (v : FX × Flags) : Nat × Flags :=
        ((floatTail ty mode sat v.1).1, v.2.join (floatTail ty mode sat v.1).2)
      VOp.add.elem ty mode sat a b = rounded (addF mode p q) ∧ VOp.sub.elem ty mode sat a b = rounded (addF mode p q.neg) ∧
      VOp.mul.elem ty mode sat a b = rounded (mulF p q) ∧
      fusedElem false ty mode sat a b c = rounded (fmaF mode p q r) ∧
      fusedElem true ty mode sat a b c = rounded (fmaF mode p q r.neg) ∧
      (p.isNan = true → VOp.min.elem ty mode sat a b = ((floatFmt ty).pack (if q.isNan then .nan false else q), opFlags [p, q])))

/-- R235, R240, R242 to R244: VMOV, VTRANS, VBCAST, VSHUF, VROT and VSEL move bit patterns and set no flag; VCMP sets the
mask bits of its condition and clears those from N up; the mask instructions work on bits below N; VINS and VEXT move one
element, an index outside the tile traps with cause 0x02, EVAL the index; VSHAPE sets the shape and returns the old one. The
EVAL of VSHUF's trap is the free value of log 31, and its limit of 256 elements in an engine hart, whose register holds no
more indexes, the model's reading (log 44). -/
def Obligations.VectorMoves : Prop :=
  ∀ (s : State) (f : VFields),
    let ty := f.ty.toNat
    let w := elemBits ty
    let n := s.elems
    let a (e : Nat) : Nat := elemAt (s.v f.va) w e
    let R := s.rows
    let K := s.cols
    let moves (i : Instr) (fn : Nat → Nat) : Prop := s.tileResult i f.vd w n f.m f.mz (fun e => (fn e, {}))
    (s.tileOk ty →
      ((Instr.vmov f).wf = true → moves (.vmov f) a) ∧
      ((Instr.vtrans f).wf = true → moves (.vtrans f) (fun t => a (t % R * K + t / R))) ∧
      ((Instr.vbcast f).wf = true → moves (.vbcast f) (fun e =>
        if f.imm8 = 0 then (s.g f.g).toNat % 2 ^ w else if f.imm8 = 1 then a (e % K) else a (e / K * K))) ∧
      ((Instr.vshuf f).wf = true →
        (2 * n ≤ s.vbytes → moves (.vshuf f) (fun e =>
          let k := (s.v f.vb >>> (16 * e)).toNat % 2 ^ 16
          if k < n then a k else 0)) ∧
        (s.vbytes < 2 * n → s.traps (.vshuf f) 0x02 s.openEval)) ∧
      ((Instr.vrot f).wf = true → ∃ fn, moves (.vrot f) fn ∧
        ∀ i j, i < R → j < K →
          (f.imm8 = 0 → fn (i * K + (j + (s.g f.g).toNat) % K) = a (i * K + j)) ∧
          (f.imm8 = 1 → fn ((i + (s.g f.g).toNat) % R * K + j) = a (i * K + j))) ∧
      ((Instr.vsel f).wf = true → s.tileResult (.vsel f) f.vd w n 0 false (fun e =>
        (if (s.m f.m).getLsbD e then a e else elemAt (s.v f.vb) w e, {}))) ∧
      ((Instr.vcmp f).wf = true →
        let at' (e : Nat) := cmpElem ty (f.imm8.extractLsb' 1 3).toNat (a e) (s.operandB f w e)
        ∃ x, s.leaves (.vcmp f) ((s.setM f.m x).setFlags ((List.range n).foldl (fun fl e => fl.join (at' e).2) {})) ∧
          ∀ e, x.getLsbD e = (decide (e < n) && (at' e).1)) ∧
      (let e : Int := ((s.g (8 + f.vc.setWidth 5)).extractLsb' 0 32).toInt + f.imm8.toNat
       (0 ≤ e → e < n →
        ((Instr.vins f).wf = true → ∃ x, s.leaves (.vins f) (s.setV f.vd x) ∧
          ∀ j, j < n → elemAt x w j = if (j : Int) = e then (s.g f.g).toNat % 2 ^ w else elemAt (s.v f.vd) w j) ∧
        ((Instr.vext f).wf = true → s.writesG (.vext f) f.g
          (if Fmt.isI ty = true ∧ isUnsigned ty = false then (BitVec.ofNat w (a e.toNat)).signExtend 64
            else BitVec.ofNat 64 (a e.toNat)))) ∧
       (¬ (0 ≤ e ∧ e < n) → ∀ i ∈ [Instr.vins f, .vext f], i.wf = true → s.traps i 0x02 (BitVec.ofInt 64 e)))) ∧
    (let below : BitVec 2048 := BitVec.ofNat 2048 (2 ^ n - 1)
     let A := s.m (f.va.setWidth 2)
     let B := s.m (f.vb.setWidth 2)
     let d : BitVec 2 := f.vd.setWidth 2
     ((Instr.vmand f).wf = true → s.leaves (.vmand f) (s.setM d (A &&& B &&& below))) ∧
     ((Instr.vmor f).wf = true → s.leaves (.vmor f) (s.setM d ((A ||| B) &&& below))) ∧
     ((Instr.vmnot f).wf = true → s.leaves (.vmnot f) (s.setM d (~~~A &&& below))) ∧
     ((Instr.vmpop f).wf = true → s.writesG (.vmpop f) f.g (BitVec.ofNat 64 ((List.range n).countP A.getLsbD)))) ∧
    ∀ (d x : BitVec 5) (imm : BitVec 32),
      let v := s.g x + imm.setWidth 64
      let old := s.ctx.sr.vshape
      let ok : Prop := v.toNat < 2 ^ 14 ∧ ((v.extractLsb' 0 6).toNat + 1) * ((v.extractLsb' 6 8).toNat + 1) ≤ s.vbytes
      (ok → s.leaves (.vshape d x imm) ((s.setSr { s.ctx.sr with vshape := v &&& 0x3FFF }).setG d old)) ∧
      (¬ ok → s.traps (.vshape d x imm) 0x02 v)

/-- R228, R238, R241, R245, R246: VRED writes the fold of sequence s into element s and keeps the others; VSCAN writes into
each selected element the fold up to it; VCVT converts elements across up to eight registers, a range past v7 traps with cause 0x02; VPLANES and VUNPLANE
move between S8 and bit planes; VBARQ of a BPI type requantises every element. The model's choices for the tail of a fold (log
25), for an unnamed side (log 24) and for the range that is reported when both reach past v7 (log 65) enter through `foldSeq`,
`Config.freeSide` and the order of the two traps of VCVT. -/
def Obligations.VectorFoldsAndConversions : Prop :=
  ∀ (s : State) (f : VFields) (mode : Mode),
    let ty := f.ty.toNat
    let w := elemBits ty
    let n := s.elems
    let a (e : Nat) : Nat := elemAt (s.v f.va) w e
    let op := foldOp (f.imm8.extractLsb' 2 3).toNat
    let seqs := (sequences (f.imm8.extractLsb' 0 2).toNat s.rows s.cols).map (fun q => q.filter (s.selected f.m))
    let fold (q : List Nat) : Nat × Flags :=
      foldSeq op ty (if foldRounds op ty seqs then mode else .rne) f.sat (q.map a)
    (s.tileOk ty → (foldRounds op ty seqs = true → s.modeIs f.rnd mode) →
      ((Instr.vred f).wf = true → ∃ x,
        s.leaves (.vred f) ((s.setV f.vd x).setFlags (seqs.foldl (fun fl q => fl.join (fold q).2) {})) ∧
        (∀ j q, seqs[j]? = some q → elemAt x w j = (fold q).1 % 2 ^ w) ∧
        (∀ b, w * seqs.length ≤ b → x.getLsbD b = (s.v f.vd).getLsbD b)) ∧
      ((Instr.vscan f).wf = true → ∃ x,
        s.leaves (.vscan f) ((s.setV f.vd x).setFlags ((seqs.flatMap (fun q =>
          (List.range q.length).map (fun j => q.take (j + 1)))).foldl (fun fl q => fl.join (fold q).2) {})) ∧
        (∀ q ∈ seqs, ∀ j e, q[j]? = some e → elemAt x w e = (fold (q.take (j + 1))).1 % 2 ^ w) ∧
        (∀ e, e < n → s.selected f.m e = false → elemAt x w e = if f.mz then 0 else elemAt (s.v f.vd) w e))) ∧
    ((Instr.vcvt f).wf = true →
      let src := f.imm8.toNat
      let kd := s.span ty
      let ks := s.span src
      let d := f.vd.toNat
      let v := f.va.toNat
      let rounds := (Fmt.isF src || Fmt.isF ty) && s.someSelected f.m n
      (8 < d + kd → s.traps (.vcvt f) 0x02 (BitVec.ofNat 64 (d + kd - 1))) ∧
      (d + kd ≤ 8 → 8 < v + ks → s.traps (.vcvt f) 0x02 (BitVec.ofNat 64 (v + ks - 1))) ∧
      (d + kd ≤ 8 → v + ks ≤ 8 → ((kd = 1 ∧ ks = 1) ∨ d + kd ≤ v ∨ v + ks ≤ d) → (rounds = true → s.modeIs f.rnd mode) →
        let conv (e : Nat) := convElem src ty (if rounds then mode else .rne) f.sat (s.rangeElem f.va (elemBits src) e)
        let t := s.writeRange f.vd w kd f.m f.mz conv
        s.leaves (.vcvt f) t ∧
        ∀ e, e < n → t.rangeElem f.vd w e =
          if s.selected f.m e then (conv e).1 % 2 ^ w else if f.mz then 0 else s.rangeElem f.vd w e)) ∧
    (Fmt.isBpi ty = true → s.tileOk ty →
      let p := Fmt.planes ty
      ((Instr.vplanes f).wf = true → ∃ x, s.leaves (.vplanes f) (s.setV f.vd x) ∧
        ∀ e, e < n → ∀ k, k < 8 → x.getLsbD (2048 * (e / 256) + 256 * k + e % 256) =
          (decide (k < p) && (s.v f.va).getLsbD (8 * e + 7 - k))) ∧
      ((Instr.vunplane f).wf = true → s.tileResult (.vunplane f) f.vd 8 n 0 false (fun e =>
        ((BitVec.ofInt 8 (bpiElem (s.v f.va) p e)).toNat, {}))) ∧
      (let k := (f.imm8.extractLsb' 0 3).toNat
       let x (e : Nat) : Int := bpiElem (s.v f.va) p e
       let y (e : Nat) : Int := bpiElem (s.v f.vb) p e
       let rounds := (List.range n).any (fun e => barqBpiRounds p k (x e) (y e))
       let m := if rounds then mode else .rne
       let q (e : Nat) := barqBpi p k m (Config.freeSide p k m.code (x e).natAbs) (x e) (y e)
       (Instr.vbarq f).wf = true → (rounds = true → s.modeIs f.rnd mode) →
        s.leaves (.vbarq f) ((s.setV f.vd (s.tileBpi (s.v f.vd) p (fun e => (q e).1))).setFlags
          ((List.range n).foldl (fun fl e => fl.join (q e).2) {}))))

/-! ### Tiles in memory, sweeps -/

/-- R120 to R122, R223: VLD and VST complete when the tile fits, the format pair is accepted, both corners pass their checks and
every row is read, or every line of the access stored: VLD writes row r at columns of row r once all are read. VGATHER and
VSCATTER complete when every element from VPROG on passes its check and is read or stored: each completed element advances
VPROG, the last clears it; an element that traps or parks leaves VPROG at it and what came before done; VPROG at or above the
number of elements traps with cause 0x02, EVAL VPROG. A tile that does not fit traps with cause 0x02, EVAL its bytes; a gather
or scatter of more than 512 elements, or whose indexes do not fit an engine hart's register (log 44), with cause 0x02 and a
free EVAL (log 31). Where a VLD was issued element by element before (R141), what it had read is forgotten as it ends. -/
def Obligations.TileAccessResults : Prop :=
  ∀ (s : State) (f : MFields),
    let c := s.c f.c
    let ty := f.ty.toNat
    let i0 : Int := (s.g f.x).toInt + f.off.toInt
    let i1 : Int := (s.g f.y).toInt
    let d : BitVec 3 := f.t.setWidth 3
    let w := regBits ty
    let fits : Prop := tileBytes ty s.elems ≤ s.vbytes ∧ (Fmt.isBpi ty = true → s.cols % 256 = 0)
    (∀ i ∈ [Instr.vst f, .vgather f, .vscatter f], i.wf = true → s.vbytes < tileBytes ty s.elems →
      s.traps i 0x02 (BitVec.ofNat 64 (tileBytes ty s.elems))) ∧
    ((Instr.vld f).wf = true → s.vbytes < tileBytes ty s.elems →
      exec (.vld f) s = .next (s.noPart.takeTrap 0x02 (BitVec.ofNat 64 (tileBytes ty s.elems)) 0)) ∧
    (∀ i ∈ [Instr.vgather f, .vscatter f], i.wf = true → fits → ¬ (s.elems ≤ 512 ∧ 4 * s.elems ≤ s.vbytes) →
      s.traps i 0x02 s.openEval) ∧
    (∀ rows u v, (Instr.vld f).wf = true → fits → (Fmt.isBpi ty = true → i0 % 256 = 0) →
      tileCorners .vld f c i0 i1 s = .ok () u →
      (List.range s.rows).mapM (fun r => loadTileRow f c s.cols i0 (i1 + r)) u = .ok rows v →
      ∃ x, s.leaves (.vld f) (v.setV d x).noPart ∧
        ∀ r y, rows[r]? = some y → elemAt x (w * s.cols) r = y % 2 ^ (w * s.cols)) ∧
    (∀ u v, (Instr.vst f).wf = true → fits → (Fmt.isBpi ty = true → i0 % 256 = 0) →
      tileCorners .vst f c i0 i1 s = .ok () u →
      storeRows c w s.cols f.ord.toNat i0 i1 ((List.range s.rows).map (elemAt (s.v d) (w * s.cols))) u = .ok () v →
      s.leaves (.vst f) v) ∧
    (fits → s.elems ≤ 512 → 4 * s.elems ≤ s.vbytes →
      let at' (e : Nat) : Int := i0 + ((s.v (f.y.setWidth 3)).extractLsb' (32 * e) 32).toInt
      ((Instr.vgather f).wf = true → s.takesSteps (.vgather f) s.elems (fun e => do
        let a ← accCheck c .L (tileAccepts .gather c.fmt.toNat ty) 1 (at' e) 0
        let x ← loadElem c (Fmt.size ty) f.ord.toNat (at' e) 0 a
        modify (fun t => t.setV d (setTyped (t.v d) ty e x)))) ∧
      ((Instr.vscatter f).wf = true → s.takesSteps (.vscatter f) s.elems (fun e => do
        let a ← accCheck c .S (tileAccepts .scatter c.fmt.toNat ty) 1 (at' e) 0
        storeElem c (Fmt.size ty) f.ord.toNat (at' e) 0 a (getTyped (s.v d) ty e))))

/-- R247 to R250, R252: a sweep completes when each of its segments from VPROG on does: each completed segment advances VPROG,
the last clears it; a segment that traps or parks leaves VPROG at it, what came before done and nothing of it. A segment
(`segment`) checks and reads its operands in the order d, a, b, computes every element by the operation of the table with one
rounding, stores the 128 bytes and sets the flags. VPROG at or above the count traps with cause 0x02, EVAL VPROG.
R247: where a segment begins: segment j of an operand lies j × step bytes from its start, element index i0 within a row of
its first extent and row i1; each kind's check is made on its first and last element; a byte distance that is no multiple of
the element size traps with cause 0x18, and one before the start with cause 0x09. -/
def Obligations.SweepResults : Prop :=
  (∀ (s : State) (f : WFields),
    let ty := f.ty.toNat
    let flt := Fmt.isF ty
    let rows : List (Instr × SweepUse × (Nat → Nat → Nat → Nat → Bool) × (Nat → Mode → Nat → Nat → Nat → Nat × Flags)) :=
      [(.swadd f, { arith := true }, fun _ _ _ _ => flt, fun _ k a b _ => VOp.add.elem ty k f.sat a b),
       (.swsub f, { arith := true }, fun _ _ _ _ => flt, fun _ k a b _ => VOp.sub.elem ty k f.sat a b),
       (.swmul f, { arith := true }, fun _ _ _ _ => flt, fun _ k a b _ => VOp.mul.elem ty k f.sat a b),
       (.swmin f, {}, fun _ _ _ _ => false, fun _ k a b _ => VOp.min.elem ty k f.sat a b),
       (.swmax f, {}, fun _ _ _ _ => false, fun _ k a b _ => VOp.max.elem ty k f.sat a b),
       (.swfma f, { d := true }, fun _ _ _ _ => flt, fun _ k a b d => fusedElem false ty k f.sat a b d),
       (.swcvt f, { b := false, own := true }, fun src _ _ _ => Fmt.isF src || flt, fun src k a _ _ => convElem src ty k f.sat a),
       (.swcopy f, { b := false }, fun _ _ _ _ => false, fun _ _ a _ _ => (a, {})),
       (.swbarq f, { own := true }, fun src _ _ _ => Fmt.isF src || flt, fun src k a b _ => sumElem src ty k f.sat a b)]
    ∀ r ∈ rows, r.1.wf = true →
      s.takesSteps r.1 f.count.toNat (segment f r.2.1 r.1.p0 r.2.2.1 r.2.2.2)) ∧
  (∀ (s u v : State) (c : Cap) (k : Kind) (step : BitVec 16) (n j : Nat),
    let w := elemBits c.fmt.toNat
    let off : Int := j * step.toInt
    let size : Int := if w = 4 then 1 else w / 8
    let l := if w = 4 then 2 * off else off / size
    let i0 := l % (c.ext 0 : Int)
    let i1 := l / (c.ext 0 : Int)
    w ≠ 0 →
    (off % size ≠ 0 → segCheck c [k] true step n j s = .error (.trap 0x18 (BitVec.ofInt 64 (c.base.toNat + off)) .none) s) ∧
    (off % size = 0 → l < 0 → segCheck c [k] true step n j s = .error (.trap 0x09 ((BitVec.ofInt 32 l).signExtend 64) .none) s) ∧
    (off % size = 0 → 0 ≤ l → capCheck c k i0 i1 s = .ok () u → capCheck c k (i0 + n - 1) i1 u = .ok () v →
      (w = 4 → i0 % 2 = 0) → segCheck c [k] true step n j s = .ok (i0, i1) v))

/-! ### The matrix unit -/

/-- R254 to R259, R264, R272, R275 to R280: the matrix instructions of a run without an express area complete when their
checks pass and their queue has room. MWFETCH queues a fetch of its units and tags them; MWLOAD expands its tile into the
bank that is not selected, or waits at its PC; MWSWAP turns the selection; MGWAIT reads the galley once enough tiles are
complete, and stalls below; MGADV frees the oldest tiles; MGREAD converts a block of exact accumulators; MSTREAM queues a
stream. In an express area each traps with cause 0x0D, EVAL its first parcel, MSTREAM once its field checks have passed. A full
queue stalls. In reduced service MWFETCH asks that no byte of a row or unit lies on a weight-store page, MWLOAD BPI8, MSTREAM the type S8. (The
EVAL of MGADV's trap is free, log 31.) -/
def Obligations.MatrixResults : Prop :=
  ∀ (s : State) (f : MQFields) (g : GFields) (mode : Mode),
    let x := s.mx
    let full : List Instr := [.mwfetch f, .mwload f, .mwswap f, .mgwait f, .mgadv f, .mgread f]
    let plain : Prop := ∀ r, s.runOn s.coreNo = some r → r.express = none
    (∀ r, s.runOn s.coreNo = some r → r.express ≠ none → ∀ i ∈ full, s.accepts i → s.traps i 0x0D i.p0) ∧
    (∀ r, s.runOn s.coreNo = some r → r.express ≠ none → s.accepts (.mstream g) → (s.g g.sel).toNat + g.slot.toNat < 256 →
      (s.reduced = false ∨ g.fmt = 1) →
      (g.acc = true → ∀ n, x.bankWidth x.sel = some n → (GFields.rowCount g + 31) / 32 ≤ slotsOf n) →
      s.traps (.mstream g) 0x0D (Instr.mstream g).p0) ∧
    (plain →
      (s.accepts (.mwfetch f) →
        let c := s.c f.c
        let fmt := c.fmt.toNat
        let count := (f.imm.extractLsb' 12 12).toNat
        let at0 := (f.imm.extractLsb' 0 12).toNat
        let row (r : Nat) : Int := if f.sub = 0 then c.addr (s.g f.d).toInt ((s.g f.x).toInt + r)
          else c.addr ((s.g f.x).toInt + 32 * r) 0
        ∀ u v, count ≠ 0 → (s.reduced = true → ∀ r, r < count → s.weightMapped s.cur (row r).toNat = false ∧
            (f.sub = 1 → s.weightMapped s.cur ((row r).toNat + 31) = false)) →
          ((f.sub = 0 ∧ Fmt.isBpi fmt = true ∧ (s.g f.d).toInt % 256 = 0 ∧ at0 + count * Fmt.planes fmt ≤ 4096 ∧
            capCheck c .W (s.g f.d).toInt (s.g f.x).toInt s = .ok () u ∧
            capCheck c .W ((s.g f.d).toInt + 255) ((s.g f.x).toInt + count - 1) u = .ok () v) ∨
           (f.sub = 1 ∧ fmt = 0 ∧ (s.g f.x).toInt % 32 = 0 ∧ at0 + count ≤ 4096 ∧
            capCheck c .W (s.g f.x).toInt 0 s = .ok () u ∧ capCheck c .W ((s.g f.x).toInt + 32 * count - 1) 0 u = .ok () v)) →
          (8 ≤ v.mx.fetches.length → exec (.mwfetch f) s = .next s) ∧
          (v.mx.fetches.length < 8 → ∃ (y : Matrix) (op : FetchOp), s.leaves (.mwfetch f) (v.setMx y) ∧ y.fetches = v.mx.fetches ++ [op] ∧ op.cap = c ∧
            op.unit = at0 ∧ op.count = count ∧ op.raw = decide (f.sub = 1) ∧ y.loads = v.mx.loads ∧
            (f.sub = 0 → op.i0 = (s.g f.d).toInt ∧ op.i1 = (s.g f.x).toInt ∧
              ∀ k, k < count * Fmt.planes fmt → (y.unit (at0 + k)).tag = .plane (Fmt.planes fmt) (k % Fmt.planes fmt)) ∧
            (f.sub = 1 → op.i0 = (s.g f.x).toInt ∧ ∀ k, k < count → (y.unit (at0 + k)).tag = .raw))) ∧
      (s.accepts (.mwload f) → ∀ l, loadChecks f s = .ok l s →
        (4 ≤ x.loads.length → exec (.mwload f) s = .next s) ∧
        (x.loads.length < 4 →
          (x.loadWaits l = true → ∃ t, exec (.mwload f) s = .next t ∧ t.pc = s.pc ∧ t.mx.loads = x.loads ++ [l] ∧
            t.ctx.loading = true) ∧
          (∀ b, x.loadWaits l = false → x.expand l = .ok b →
            s.leaves (.mwload f) (s.setMx (Matrix.setBank { x with seq := x.seq + 1 } l.bank b))) ∧
          (∀ q, x.loadWaits l = false → x.expand l = .error q → s.traps (.mwload f) 0x0E (q.setWidth 64)))) ∧
      (s.accepts (.mwswap f) → s.leaves (.mwswap f) (s.setMx { x with sel := !x.sel })) ∧
      (s.accepts (.mgwait f) →
        (f.sub.toNat + 1 ≤ x.galley.tiles → s.writesG (.mgwait f) f.d x.galley.word) ∧
        (x.galley.tiles < f.sub.toNat + 1 → exec (.mgwait f) s = .next s)) ∧
      (s.accepts (.mgadv f) →
        (f.sub.toNat + 1 ≤ x.galley.tiles → s.leaves (.mgadv f) (s.setMx { x with galley := { x.galley with
          tail := (x.galley.tail + (f.sub.toNat + 1)) % slotsOf x.galley.n, tiles := x.galley.tiles - (f.sub.toNat + 1) } })) ∧
        (x.galley.tiles < f.sub.toNat + 1 → s.traps (.mgadv f) 0x02 s.openEval)) ∧
      (s.accepts (.mgread f) →
        let gx := s.g f.x
        let b := (gx.extractLsb' 0 8).toNat
        let q := (gx.extractLsb' 8 8).toNat
        let rw := if isEngine s.cur then 8 else 32
        let fmt := (f.imm.extractLsb' 0 6).toNat
        let w := elemBits fmt
        let ok : Prop := f.sub.toNat < x.galley.tiles ∧ b < x.galley.n / 32 ∧ q < 32 / rw ∧ gx.extractLsb' 16 48 = 0 ∧
          accFormat fmt = true ∧ f.imm.extractLsb' 10 6 = 0 ∧ f.imm.extractLsb' 24 8 = 0
        let slot := x.galley.slotFrom f.sub.toNat
        let scale : Int := (f.imm.extractLsb' 16 8).toInt - (x.galley.latched slot).p
        let per := 8 * s.vbytes / w
        (¬ ok → s.traps (.mgread f) 0x02 gx) ∧
        (ok → (w = 32 → f.d ≠ 7) → s.modeIs (f.imm.extractLsb' 6 3) mode →
          ∃ t, s.leaves (.mgread f) t ∧ t.mem = s.mem ∧ t.ctx.r.g = s.ctx.r.g ∧ t.ctx.r.c = s.ctx.r.c ∧
            ∀ e, e < 32 * rw → elemAt (t.v (f.d.setWidth 3 + BitVec.ofNat 3 (e / per))) w (e % per) =
              (convAcc (x.galley.get slot (q * rw + e / 32) (32 * b + e % 32)) scale fmt mode (f.imm.getLsbD 9)).1 % 2 ^ w)) ∧
      (s.accepts (.mstream g) → (s.g g.sel).toNat + g.slot.toNat < 256 → (s.reduced = false ∨ g.fmt = 1) →
        (g.acc = true → ∀ n, x.bankWidth x.sel = some n → (GFields.rowCount g + 31) / 32 ≤ slotsOf n) →
        (4 ≤ x.streams.length → exec (.mstream g) s = .next s) ∧
        (x.streams.length < 4 → ∃ op, s.leaves (.mstream g) (s.setMx { x with seq := x.seq + 1, streams := x.streams ++ [op] }) ∧
          op.f = g ∧ op.cap = s.c g.c ∧ op.first = (s.g g.x).toInt ∧ op.bank = x.sel ∧
          op.bslot.toNat = (s.g g.sel).toNat + g.slot.toNat)))

/-- R256, R257, R259 to R268, R340: what the matrix unit does on its own. Every queued fetch that waits for no other reads its units,
wherever it stands in the queue, after those before it; at a core's boundary all stay queued; a queued load whose waits are over fills its bank and lets its context go on; the quoin adds rows of a gang whose members have
all joined; a finished stream arrives at every member's barrier slot.
R262, R263: adding a row of sums changes each of its accumulators to the exact sum modulo 2^96 as a signed number, and no
other accumulator; the wrap flag says whether one left the range. -/
def Obligations.MatrixEvents : Prop :=
  ((∀ (s : State) (core : Nat) (before after : List FetchOp) (f : FetchOp),
    let x := s.mxAt core
    let turn (t : State) (g : FetchOp) : State := if x.fetchWaits g then t else t.runFetch core g
    x.fetches = before ++ f :: after → x.fetchWaits f = false →
    exec (.weightFetchRead core) s =
      .next (if (s.coreAt core).halted then s else after.foldl turn ((before.foldl turn s).runFetch core f)) ∧
    ((s.coreAt core).halted = false → (∀ g ∈ before ++ after, x.fetchWaits g = true) →
      exec (.weightFetchRead core) s = .next (s.runFetch core f))) ∧
  (∀ (s : State) (core : Nat) (l : LoadOp) (b : Bank),
    (s.mxAt core).loads.find? (fun l => !(s.mxAt core).loadWaits l) = some l → (s.coreAt core).halted = false →
    (s.mxAt core).expand l = .ok b →
    ∃ t, exec (.mwloadExpansion core) s = .next t ∧ (t.mxAt core).bankAt l.bank = b ∧
      (t.ctxOf (.ctx core l.slot.toNat)).pc = seqPc (s.ctxOf (.ctx core l.slot.toNat)).pc 2 ∧
      (t.ctxOf (.ctx core l.slot.toNat)).loading = false) ∧
  (∀ (s : State) (core rows : Nat) (t : StreamOp) (ms : List Member), s.headStream core = some t →
    s.joined (gangOf (gangSize t.f.size) core) = some ms →
    (∀ k ∈ gangOf (gangSize t.f.size) core, (s.coreAt k).halted = false) → (∀ m ∈ ms, m.2.f.size = t.f.size) →
    exec (.quoin core rows) s = .next (s.runGang ms rows)) ∧
  (∀ (s : State) (ms : List Member) (tail : Member) (r : Nat) (g : Galley) (xs : List (Member × List Activation)),
    r < GFields.rowCount tail.2.f → (s.mxAt tail.1).galley.ready tail.2.f r = some g → s.gangRow ms r = .ok xs →
    s.gangRows ms tail 1 r = s.addRow ms tail g r xs) ∧
  (∀ (s : State) (core : Nat) (t : StreamOp) (ms : List Member), s.headStream core = some t → t.started = true →
    GFields.rowCount t.f ≤ t.row → s.joined (gangOf (gangSize t.f.size) core) = some ms →
    exec (.streamCompletion core) s =
      .next (ms.foldl (fun s m => ((s.dropStream m).arrive m.1 m.2.bslot.toNat 1).checkArrival m.1) s))) ∧
  (∀ (g : Galley) (slot row n : Nat) (sum : Nat → Int), n ≤ 128 → row < 32 →
    let r := g.addRow slot row ((List.range n).map (fun j => (j, sum j)))
    let total (j : Nat) : Int := g.get slot row j + sum j
    (∀ j, j < n → r.1.get slot row j = ((total j + 2 ^ 95) % 2 ^ 96 - 2 ^ 95 : Int)) ∧
    (∀ s' r' j, j < 128 → r' < 32 → ¬ (s' = slot ∧ r' = row ∧ j < n) → r.1.get s' r' j = g.get s' r' j) ∧
    (r.2 = true ↔ ∃ j, j < n ∧ ¬ (-(2 ^ 95) ≤ total j ∧ total j < 2 ^ 95)) ∧
    r.1.tiles = g.tiles ∧ r.1.opn = g.opn ∧ r.1.head = g.head ∧ r.1.tail = g.tail)

/-! ### Continuations, plans, register writes -/

/-- R311, R312: SPAWN whose parameters, capabilities and code entry pass their checks writes 1 when the queue it names is
full, and else writes the record and the frame's first granule, puts the record into the queue and writes 0. XPLAN outside
compartment 1 traps with cause 0x0A, EVAL 0x018; with the clear bit it clears the plan's EN and writes 0; a plan whose
header and entries pass their checks is selected, and g[d] receives COUNT. -/
def Obligations.ContinuationResults : Prop :=
  (∀ (s r t u v w : State) (f : QFields) (a : Nat) (pf pr : Nat × Bool) (x y : State) (ft rt : Bool),
    s.accepts (.spawn f) → isEngine s.cur = false →
    let g := s.g f.d
    let level := g.extractLsb' 0 3
    let prio := g.extractLsb' 4 2
    let target : Word := s.pc + 4 * (f.imm.extractLsb' 8 24).signExtend 64
    let c := s.c f.c
    let fr := s.c (f.imm.extractLsb' 0 4)
    let i := (s.g f.x).toInt
    (g &&& ~~~0x37) = 0 → (∃ k, s.runOn s.coreNo = some k ∧ level.toNat ≤ k.domain.level.toNat ∧ prio.toNat ≤ k.prio.toNat) →
    (f.ob = true ∨ f.scope = 0) → s.mayEnter target r → capCheck c .SC i 0 r = .ok () t → c.fmt = 0 →
    elemAddr c i 0 t = .ok a t → a % 64 = 0 → capCheck fr .SC 0 0 t = .ok () u →
    capCheck fr .L (if fr.fmt = 0x20 then 47 else 1535) 0 u = .ok () v →
    (level = 0 ∨ (c.scope = 1 ∧ fr.scope = 1)) → (s.reduced = false ∨ f.ob = false ∨ f.scope ≠ 3) →
    ((f.ob = false ∧ w = v) ∨ (f.ob = true ∧ v.releases f.scope.toNat w)) →
    (w.spawnFull level = true → s.leaves (.spawn f) (w.setG f.d 1)) ∧
    (w.spawnFull level = false → xl fr.base.toNat .write w = .ok pf x → xl a .write x = .ok pr y →
      let fc := capAtPc s.ctx.fcap target
      stcTag fc fr fr.base.toNat y = .ok ft y → stcTag fr c (a + 32) y = .ok rt y →
      ∃ z e, s.leaves (.spawn f) ((State.enqueueReady z e).setG f.d 0) ∧
        z = y.spawnWrite fr.base.toNat a pf pr fc ft (recordWords (target.setWidth 48) y.ctx.sr.cid y.coreNo level 0 prio 0 1 0 0) fr rt ∧
        e.recAddr = BitVec.ofNat 48 a ∧ e.prio = prio ∧ e.plevel = level ∧ e.recCap = c ∧ e.run = y.runOf y.cur)) ∧
  ∀ (s t u v w x : State) (f : QFields) (h : PlanHeader) (r : Run), s.accepts (.xplan f) → isEngine s.cur = false →
    (s.ctx.sr.cid ≠ 1 → s.traps (.xplan f) 0x0A 0x018) ∧
    (s.ctx.sr.cid = 1 →
      (f.imm.getLsbD 0 = true → s.leaves (.xplan f)
        ((s.setCore { s.core with plan := { s.core.plan with en := false, offset := s.core.plan.offset } }).setG f.d 0)) ∧
      (let c := s.c f.c
       let i := (s.g f.x).toInt
       let a := (c.addr i 0).toNat
       let off := a % 2 ^ 20
       let sel : Word := BitVec.ofNat 64 (2 ^ 63 + off)
       let level := (f.imm.extractLsb' 1 3).toNat
       f.imm.getLsbD 0 = false → s.runOn s.coreNo = some r → level ≤ r.domain.level.toNat →
       capCheck c .L i 0 s = .ok () t → c.fmt = 0 → capCheck c .L (i + 31) 0 t = .ok () u → i % 32 = 0 →
       elemAddr c i 0 u = .ok a u → a % 32 = 0 → isLocal a = true → localCore a = s.coreNo →
       v = u.settleLocal off 32 →
       (v.planHeader s.coreNo off = none → s.traps (.xplan f) 0x02 sel) ∧
       (v.planHeader s.coreNo off = some h → v.planOk off h = false → s.traps (.xplan f) 0x02 sel) ∧
       (v.planHeader s.coreNo off = some h → v.planOk off h = true →
         planEntries r.id.toNat s.coreNo off h.count (s.members r.domain level s.coreNo) s.area (v.settleLocal off (32 + 32 * h.count)) = .ok () w →
         writePlansel sel w = .ok () x → s.leaves (.xplan f) (x.setG f.d (BitVec.ofNat 64 h.count)))))

/-- R108, R109, R169, R198, R203, R378: the writes of PLANSEL, RXCFG, KBIN, WALLOC and PMCTL complete for the run root when the
register's own checks pass, and leave what each keeps; in a compartment other than 1 they trap with cause 0x0A, EVAL the
register's number. KBIN first has the pairs on their way applied, and waits while a link holds one. That HEAD becomes TAIL when
RXCFG disables a ring, which areas the ring and bin checks compare, and the EVAL of PMCTL are the model's choices (log 46). -/
def Obligations.ControlRegisterWrites : Prop :=
  ∀ (s : State) (v : Word) (ring : BitVec 3),
    (s.ctx.sr.cid ≠ 1 → ∀ r ∈ ([(.plansel v, 0x018), (.rxcfg ring v, 0x020 + ring.setWidth 64), (.kbin v, 0x028),
        (.walloc v, 0x006), (.pmctl v, 0x060)] : List (Instr × Word)), s.traps r.1 0x0A r.2) ∧
    (s.ctx.sr.cid = 1 →
      (v.getLsbD 63 = false → exec (.plansel v) s = .next (s.setCore { s.core with
        plan := { s.core.plan with en := false, offset := v.extractLsb' 5 15 } })) ∧
      (let off := 32 * (v.extractLsb' 5 15).toNat
       let t := s.settleLocal off 32
       v.getLsbD 63 = true → ∀ h, t.planHeader t.coreNo off = some h →
        (t.planOk off h = true → ∃ u, exec (.plansel v) s = .next u ∧ u.core.plan.en = true ∧
          u.core.plan.offset = v.extractLsb' 5 15 ∧ u.core.plan.wbase = BitVec.ofNat 20 h.wbase ∧
          u.core.plan.wsize = BitVec.ofNat 20 h.wsize ∧ u.core.plan.count = BitVec.ofNat 16 h.count) ∧
        (t.planOk off h = false → s.traps (.plansel v) 0x02 v)) ∧
      (let old := s.core.ring ring.toNat
       let new : RxRing := {
         en := v.getLsbD 63, tail := old.tail, base := v.extractLsb' 6 14, logn := v.extractLsb' 24 4,
         head := if old.en = true ∧ v.getLsbD 63 = false then old.tail else v.extractLsb' 32 12 }
       (s.ringOk ring.toNat old new = true → exec (.rxcfg ring v) s = .next (s.setCore (s.core.setRing ring.toNat new))) ∧
       (s.ringOk ring.toNat old new = false → s.traps (.rxcfg ring v) 0x02 v)) ∧
      (let new : KeyBins := { en := v.getLsbD 63, op := v.extractLsb' 60 3, nbm1 := v.extractLsb' 36 16, base := v.extractLsb' 3 17 }
       (s.binsOk new = true → s.pairsHeld s.coreNo = true → exec (.kbin v) s = .next s) ∧
       (s.binsOk new = true → s.pairsHeld s.coreNo = false → exec (.kbin v) s = .next ((s.landPairs s.coreNo).setCore
         { (s.landPairs s.coreNo).core with kbin := new })) ∧
       (s.binsOk new = false → s.traps (.kbin v) 0x02 v)) ∧
      (s.wallocOk v = true → ∃ t, exec (.walloc v) s = .next t ∧ t.sysGet 0x006 = v &&& 0x7FFFF ∧ t.ctx = s.ctx ∧ t.mem = s.mem) ∧
      (s.wallocOk v = false → s.traps (.walloc v) 0x02 v) ∧
      ((∀ i, i < 8 → (v.extractLsb' (6 * i) 6).toNat ≤ 16) → s.core.frozen = none →
        exec (.pmctl v) s = .next (s.setCore { s.core with perf := { s.core.perf with ctl := v &&& 0x00FFFFFFFFFFFFFF } })) ∧
      ((∃ i, i < 8 ∧ 16 < (v.extractLsb' (6 * i) 6).toNat) → s.traps (.pmctl v) 0x02 v))

/-! ### Events of memory -/

/-- R129, R142, R150, R156: each step of the memory model has its effect where it is enabled: a code line enters the fetch
buffer of the agent's core; a queue entry before which nothing of its queue has to leave, and which does not wait for the other
half of its line, drains into the FIFO toward its home; the head of a FIFO that no retraining link holds is performed at its
home, whose answer crosses the links; a sector is copied into a view cache, from the
first fabric port on the path that holds one and else from the home, and what the cache holds of the place under another
virtual address is as new; a sector, or a code line, is dropped, and nothing else of the caches; a propagation that no
retraining link holds is performed;
the watches of a cell that its value has reached wake; a waiter issues its CTWAIT again, and one that was written back
becomes ready. -/
def Obligations.MemoryModelEvents : Prop :=
  ∀ (s : State) (a : Agent) (k va pa : Nat) (p : Piece),
    (∀ l t (line : BitVec 64), (s.ctxOf a).occupied = true → State.fetchLine { s with cur := a } (line.toNat / 64 * 64) = .line l t →
      exec (.fetch a line) s = .next { t with cur := s.cur } ∧ l ∈ t.core.u.fetchBuf) ∧
    (nthOf a s.press.queues k = some p → s.drainable p = true → ∃ t, exec (.drain a k) s = .next t ∧
      t.press.queues = s.press.queues.erase p ∧ t.press.fifo = s.press.fifo ++ [p] ∧ t.mem = s.mem ∧ t.ctxs = s.ctxs) ∧
    (s.press.fifo[k]? = some p → s.isHead p s.press.fifo = true → s.pathHeld p.agent p.line = false →
      let u := s.acknowledge p
      exec (.deliver k) s = .next (State.perform { u with press := { u.press with fifo := u.press.fifo.erase p } } p) ∧
      u.press = s.press ∧ u.mem = s.mem ∧ u.tags = s.tags ∧ u.ctxs = s.ctxs ∧ u.cores = s.cores) ∧
    (s.mayRefresh a va pa = true → s.refused a (s.runOf a) pa .read = false → ∃ t, exec (.refresh a va pa) s = .next t ∧
      let x := match a with | .port q => s.portSource q pa | _ => s.refreshSource a va pa
      x.agent = a ∧ x.pa = pa / 128 * 128 ∧ x ∈ t.press.views ∧
      (∀ y ∈ t.press.views, y.agent = a → y.pa = x.pa → y = { x with va := y.va }) ∧
      (∀ y ∈ s.press.views, ¬ (y.agent = a ∧ y.pa = x.pa) → y ∈ t.press.views) ∧ t.mem = s.mem ∧ t.ctxs = s.ctxs) ∧
    (∃ t, exec (.evict a false pa) s = .next t ∧ t.mem = s.mem ∧ t.ctxs = s.ctxs ∧
      t.press.views = s.press.views.filter (fun x => !(x.agent == a && x.pa / 128 == pa / 128))) ∧
    (∀ core, agentCore a = some core → ∃ t, exec (.evict a true pa) s = .next t ∧ t.mem = s.mem ∧
      (t.coreAt core).u.fetchBuf = (s.coreAt core).u.fetchBuf.filter (fun l => l.pa / 64 != pa / 64)) ∧
    (∀ q, s.press.props[k]? = some q → (s.mayPropagate q = false → exec (.replicaPropagation k) s = .next s) ∧
      (s.mayPropagate q = true → exec (.replicaPropagation k) s =
        .next (State.propagate { s with press := { s.press with props := dropAt s.press.props k } } q))) ∧
    exec (.watchWake pa) s = .next (s.wakeWatches (fun w => w.cell == pa && decide (w.thresh.toNat ≤ (s.wordAt w.cell).toNat))) ∧
    (∀ w, (∀ core addr, a ≠ .cont core addr) → (s.ctxOf a).susp = some w → w.reason = .counter →
      exec (.watchRetry a) s = .next (s.setCtxOf a { s.ctxOf a with susp := none })) ∧
    (∀ core addr w, a = .cont core addr →
      (s.coreAt core).u.waiting.find? (fun w => w.recAddr.toNat == addr && w.susp.reason = .counter) = some w →
      exec (.watchRetry a) s = .next (s.makeReady core w))

/-- R69, R84, R85, R88 to R91, R98, R103, R285, R344, R346: page answers, timeouts, the five steps of a migration in their order,
shootdowns, which leave every page TLB and shared translation cache exactly the translations of other pages, hot-page lists, refresh windows, slice control, memory errors and sweep passes have their effects where they are
enabled. An answer
or a timeout of a request that nothing waits for any more is counted and told to the host where it asked. A hot-page list is
written to its buffer, or dropped and counted where the buffer is full, and the counts are
cleared; TENANT and SHARED of a slice change, and its lines go, only while no run of either tenant is resident and the slice
is not degraded; every memory error but one of a fetch line, which is spoilt until it is met or discarded, writes one log
record of its die; every eligible lease is sweeping once a pass has begun. -/
def Obligations.PageAndSliceEvents : Prop :=
  ∀ (s : State),
    (∀ epoch r ok, s.requests.find? (fun r => r.epoch == epoch) = some r → s.stillWanted r.pageKey = true → r.host = true →
      exec (.pageAnswer epoch ok) s = .next (s.answer r ok)) ∧
    (∀ epoch r ok, s.requests.find? (fun r => r.epoch == epoch) = some r → s.stillWanted r.pageKey = false →
      ∃ t, exec (.pageAnswer epoch ok) s = .next t ∧ exec (.pageRequestTimeout epoch) s = .next t ∧
        t.dev.discardedAnswers = s.dev.discardedAnswers + 1 ∧ t.requests = s.requests.filter (fun r => r.epoch != epoch) ∧
        t.dev.msix = s.dev.msix ++ (if r.host then [3] else []) ∧ t.ctxs = s.ctxs ∧ t.mem = s.mem) ∧
    (∀ epoch r t, s.requests.find? (fun r => r.epoch == epoch) = some r → s.stillWanted r.pageKey = true → r.host = false →
      s.pagePresent r = false → s.backPage r.tenant r.vpage = some t →
      exec (.pageAnswer epoch true) s = .next (t.answer r true)) ∧
    (∀ epoch r, s.requests.find? (fun r => r.epoch == epoch) = some r → s.stillWanted r.pageKey = true →
      exec (.pageRequestTimeout epoch) s = .next (s.answer r false)) ∧
    (∀ tenant va page p e big, s.leafNow tenant va = some (p, e, big) →
      let n := if big then 2 ^ 25 else 2 ^ 16
      let is (m : Migration) : Bool := m.tenant == tenant && m.va / n == va / n && m.newPage == page
      let run (ph : MigrationPhase) := exec (.pageMigration tenant va page ph) s
      (s.migrations.find? is = none → s.mayMigrate e big page = true →
        ∃ t, run .setMig = .next t ∧ t.wordAt p = (e ||| (1#64 <<< 56)) ∧
          ∃ m, t.migrations = s.migrations ++ [m] ∧ m.next = .firstShootdown ∧ m.newPage = page) ∧
      (∀ m, s.migrations.find? is = some m →
        (∀ ph, m.next ≠ ph → run ph = .next s) ∧
        (m.next = .firstShootdown → run .firstShootdown = .next ((s.shootDown tenant va).setMigration m .copyPage)) ∧
        (m.next = .copyPage → s.copyHeld (frameOf e) page = true → run .copyPage = .next s) ∧
        (m.next = .copyPage → s.copyHeld (frameOf e) page = false → s.copyRefused (frameOf e) page = true →
          run .copyPage = .next s.securityEvent) ∧
        (m.next = .copyPage → s.copyHeld (frameOf e) page = false → s.copyRefused (frameOf e) page = false →
          run .copyPage = .next ((s.copyPage (frameOf e) page n).setMigration m .writeLeaf)) ∧
        (m.next = .writeLeaf → ∃ t : State, run .writeLeaf = .next (t.setMigration m .secondShootdown) ∧ t.migrations = s.migrations ∧
          t.wordAt p = ((e &&& ~~~(0x3FFFFFFF#64 <<< 16) &&& ~~~(1#64 <<< 56)) ||| BitVec.ofNat 64 page)) ∧
        (m.next = .secondShootdown →
          let t := s.shootDown tenant va
          run .secondShootdown = .next (State.releasePage { t with migrations := t.migrations.filter (fun x => x != m) }
            { epoch := 0, tenant := tenant, lo := va / n * n, hi := va / n * n + n })))) ∧
    (∀ tenant va, exec (.shootdown tenant va) s = .next (s.shootDown tenant va) ∧
      let n := pageSize (s.bigPage tenant va)
      let lo := va / n * n
      let u := s.settlePage tenant lo (lo + n)
      let t := s.shootDown tenant va
      let misses (x : TlbEntry) : Prop := ∀ a, lo ≤ a → a < lo + n → x.hits tenant a = false
      (∀ core x, x ∈ (t.coreAt core).u.tlb ↔ x ∈ (u.coreAt core).u.tlb ∧ misses x) ∧
      (∀ die x, x ∈ (t.die die).xcache ↔ x ∈ (u.die die).xcache ∧ misses x) ∧
      t.mem = u.mem ∧ t.tags = u.tags ∧ t.ctxs = u.ctxs ∧ t.press = u.press ∧ t.runs = u.runs) ∧
    (∀ die chan, s.full = true → die < s.numDies → chan < 12 →
      2 ^ (s.slice die chan).hotK.toNat ≤ ((s.die die).cycle - (s.slice die chan).hotStart).toNat →
      ∃ t, exec (.hotPageList die chan) s = .next t ∧ (t.slice die chan).sketch = [] ∧ (t.slice die chan).hot = [] ∧
        (t.slice die chan).interval = (s.slice die chan).interval + 1 ∧ (t.slice die chan).hotFull = true ∧
        ((s.slice die chan).hotFull = false → t.bytesAt (Config.hotBuffer die chan) 576 = (wordBytes (hotWords die chan
          (s.slice die chan).interval ((s.slice die chan).hot.foldl (fun m x => insertHot x m) []))).take 576) ∧
        ((s.slice die chan).hotFull = true → t.mem = s.mem ∧ t.dev.droppedHotLists = s.dev.droppedHotLists + 1)) ∧
    (∀ die bank, s.full = true → die < s.numDies → ∃ t, exec (.refreshWindow die bank) s = .next t ∧ t.mem = s.mem ∧
      (t.die die).refreshing = if (s.die die).window.2.1 = true ∧ (s.die die).window.1 = bank then some (BitVec.ofNat 4 bank) else none) ∧
    (∀ die slice tenant shared, die < s.numDies → slice < 12 → tenant < 2 ^ 16 →
      ((s.slice die slice).tenant.toNat ≠ tenant ∨ (s.slice die slice).shared ≠ shared) →
      let free := (s.slice die slice).degraded = false ∧ s.tenantResident tenant = false ∧
        ((s.slice die slice).shared = true ∨ s.tenantResident (s.slice die slice).tenant.toNat = false)
      (free → ∃ t, exec (.sliceControl die slice tenant shared) s = .next t ∧ (t.slice die slice).tenant = BitVec.ofNat 16 tenant ∧
        (t.slice die slice).shared = shared ∧ (t.slice die slice).lines = []) ∧
      (¬ free → exec (.sliceControl die slice tenant shared) s = .next s)) ∧
    (∀ e, s.errorHere e = true →
      let event := if correctable e then 0 else if e.consumed then 1 else 2
      let t := s.logError (errDie e) event (memCode e.mem) e.addr (errUnit e) (errWay e) e.synd (s.errorOwner e)
      (e.mem = .fetch → exec (.memoryError e) s = .next (s.spoil e)) ∧
      (e.mem ≠ .fetch → exec (.memoryError e) s = .next (if correctable e then t else t.spoil e)) ∧
      (t.die (errDie e)).log.length = (s.die (errDie e)).log.length + 1 ∧ t.mem = s.mem) ∧
    (s.leases.passing = false → s.leases.eligible ≠ [] → ∃ t, exec .sweepPassBegin s = .next t ∧ t.leases.passing = true ∧
      t.leases.eligible = [] ∧ ∀ n ∈ s.leases.eligible, n ≠ 0 → (t.lease n).state = 3) ∧
    (s.leases.passing = true → exec .sweepPassEnd s = .next (s.sweep (s.leasesIn 3)))

/-! ### Events of continuations, supersteps and engines -/

/-- R171, R173 to R175, R177, R178, R285, R289, R293 to R295, R301, R302, R307, R313: the events of continuations, supersteps
and messages have their effects where they are enabled. The oldest ready record of the highest priority enters a free slot,
or is dropped and counted; a portable record is picked up; a slot is written back; a timed wait ends. A domain closes once all
its cores have arrived and nothing of a strict phase or a stop holds them: plans depart, the close step is taken, lateness is
written and the next compute phase begins, with XMODE the mode that XNEXT asked for, COUNT one more and SSTEP in the register
of every XSYNC that waited; the first close on each card is the run's own. A plan entry departs to every destination that
takes it, or writes the plan's fault record; it lands in its destination's window. A message is delivered with its status, one
on a way that is down is refused with the model's code (log 71), a pair is applied, a block queue starts a job or hands out an
index. -/
def Obligations.ContinuationEvents : Prop :=
  ∀ (s : State) (a : Agent) (core k : Nat),
    (∀ t, (s.coreAt core).u.ready ≠ [] → s.freeSlots core = [] → (s.candidates core).findSome? (fun i => s.writeBackSlot core i) = some t →
      exec (.writeBack core) s = .next t) ∧
    ((s.coreAt core).halted = false → exec (.recordLoad core) s = .next (s.recordLoad core)) ∧
    (∀ slot rest d e more, (s.coreAt core).halted = false → s.freeSlots core = slot :: rest → (s.coreAt core).u.ready = [] →
      s.pickable core = (d, e) :: more →
      exec (.pickUp core) s = .next (s.loadInto (s.setDie d { s.die d with pickup := (s.die d).pickup.erase e }) core e)) ∧
    (∀ e, bestReady (s.coreAt core).u.ready = some e → ∃ before after, (s.coreAt core).u.ready = before ++ e :: after ∧
      (∀ f ∈ before, f.prio.toNat < e.prio.toNat) ∧ ∀ f ∈ after, f.prio.toNat ≤ e.prio.toNat) ∧
    (∀ slot rest e run, core < 1536 → slot < 4 → (s.coreAt core).halted = false → s.freeSlots core = slot :: rest →
      bestReady (s.coreAt core).u.ready = some e → s.run? e.run = some run →
      let u := s.setCoreAt core { s.coreAt core with
        u := { (s.coreAt core).u with ready := (s.coreAt core).u.ready.erase e } }
      let found := u.enterSlot core slot run e.recAddr e.recCap (.cont e.core.toNat e.recAddr.toNat)
      (∀ t, found = .loaded t → exec (.recordLoad core) s = .next (t.readmit core) ∧
        (t.ctxOf (.ctx core slot)).occupied = true ∧ (t.ctxOf (.ctx core slot)).pinned = false ∧
        (t.ctxOf (.ctx core slot)).susp = none ∧ (t.ctxOf (.ctx core slot)).recAddr = some e.recAddr) ∧
      (∀ t, found = .dropped t → exec (.recordLoad core) s = .next (((t.dropRecord e.run).checkArrival core).readmit core)) ∧
      (found = .held → exec (.recordLoad core) s = .next (s.readmit core))) ∧
    (∀ n, (s.ctxOf a).idle = some (some n) → exec (.idleTimeout a) s = .next (s.setCtxOf a { s.ctxOf a with idle := none })) ∧
    (∀ w n, (s.ctxOf a).susp = some w → w.reason = .message → w.limit = some n → ∃ t, exec (.recvtTimeout a) s = .next t ∧
      (t.ctxOf a).susp = none ∧ (t.ctxOf a).pc = seqPc (s.ctxOf a).pc 2 ∧
      (w.dst ≠ 0 → (t.ctxOf a).r.g[w.dst.toNat] = BitVec.allOnes 64)) ∧
    (∀ run level r, s.run? run = some r → r.ending = none → level ≤ r.domain.level.toNat →
      let ms := s.members r.domain level core
      (∀ m ∈ ms, ∃ x, s.stand run m = some x ∧ x.strictLeft = false ∧ x.halted = false) →
      (∀ m ∈ ms, s.arrivedAt run level m = true) → (∃ m ∈ ms, s.waitsAt run level m = true) →
      (∀ m ∈ core :: ms, r.opened.contains (m / 768) = true) → s.closeHeld run ms = false →
      let mine := ms.filter (s.waitsAt run level)
      let landed := (mine.foldl (fun s m => s.departAll run m planFuel) s).closeStep run ms level
      let u := (ms.foldl (fun s m => s.writeLate run m) landed).switches run ms level
      exec (.superstepClose run level core) s = .next (s.close r level core) ∧
      (r.stopsAt level = none →
        s.close r level core = mine.foldl (fun s m => s.resumeCore run m (BitVec.ofNat 3 level)) u) ∧
      (∀ l, r.stopsAt level = some l → s.close r level core = u.takeStop run l level ms mine)) ∧
    (∀ run r, s.run? run = some r → r.ending = none → r.opened.contains (core / 768) = false →
      core ∈ s.members r.domain r.domain.level.toNat core →
      exec (.superstepClose run r.domain.level.toNat core) s = .next (s.openRun r core)) ∧
    (∀ level, core < 1536 → (s.coreAt core).plan.fault = none →
      (∀ p ∈ (s.coreAt core).u.waiting, p.susp.reason ≠ .xsync) →
      let t := s.beginPhase core level
      (∀ run, (s.coreAt core).run = some run → s.resumeCore run core level = t) ∧
      (t.coreAt core).phase = .compute ∧ (t.coreAt core).xmode = (s.coreAt core).xnext ∧ (t.coreAt core).arrived = none ∧
      (t.coreAt core).stopped = false ∧ (t.coreAt core).plan.next = none ∧ (t.coreAt core).sstepLevel = level ∧
      ((s.coreAt core).phase = .outside → (t.coreAt core).sstepCount = 0) ∧
      ((s.coreAt core).phase ≠ .outside → (s.coreAt core).sstepCount ≠ BitVec.allOnes 32 →
        (t.coreAt core).sstepCount = (s.coreAt core).sstepCount + 1) ∧
      ∀ i, i < 4 →
        (∀ w, (s.ctxOf (.ctx core i)).susp = some w → w.reason = .xsync → w.key.toNat = level.toNat →
          (t.ctxOf (.ctx core i)).susp = none ∧ (t.ctxOf (.ctx core i)).pc = (s.ctxOf (.ctx core i)).pc ∧
          (w.dst ≠ 0 → (t.ctxOf (.ctx core i)).r.g[w.dst.toNat] = (t.coreAt core).sstep)) ∧
        (atXsync level.toNat (s.ctxOf (.ctx core i)).susp = false → t.ctxOf (.ctx core i) = s.ctxOf (.ctx core i))) ∧
    (∀ r level, s.runOn core = some r → (s.coreAt core).arrived = some level →
      s.mayClose r.id.toNat level.toNat (s.members r.domain level.toNat core) = true →
      exec (.planEntryDepart core) s = .next (s.departEntry r.id.toNat core)) ∧
    (∀ run x r i level, s.stand run core = some x → s.run? run = some r → x.plan.next = some i → x.arrived = some level →
      let t := s.departEntry run core
      (x.plan.entries[i]? = none → t = s.setPlanAt run core { x.plan with next := none }) ∧
      ∀ w, x.plan.entries[i]? = some w →
        let m := entryMove w
        let u := s.setPlanAt run core { x.plan with next := some (i + 1) }
        let source := u.sourceFault run core (u.members r.domain level.toNat core) r.area m
        (source = none → (∀ d ∈ m.dests, u.destFault run m d = none) →
          t = { u with press := { u.press with exchange := u.press.exchange ++ u.transfers run core i m } }) ∧
        (source = none → ∀ f, m.dests.findSome? (u.destFault run m) = some f →
          t.press.exchange = s.press.exchange ++ u.transfers run core i m ∧
          (x.plan.fault = none → (t.planAt run core).fault = some (f.1, BitVec.ofNat 64 (faultPlace core x.plan)))) ∧
        ∀ f, source = some f → t.press = s.press ∧
          (x.plan.fault = none → x.plan.nfail = 0 →
            (t.planAt run core).nfail = 1 ∧
            (t.planAt run core).fault = some (f.1, BitVec.ofNat 64 (faultPlace core x.plan)) ∧
            t.wordAt (faultPlace core x.plan) = BitVec.ofNat 64 (i % 65536 + 2 ^ 24 * f.1.toNat + 2 ^ 48) ∧
            t.wordAt (faultPlace core x.plan + 8) = BitVec.ofNat 64 (f.2 % 2 ^ 48))) ∧
    (∀ run src dst x doff bytes poison, s.press.exchange[k]? = some (.transfer run src dst x doff bytes poison) →
      (s.stand run dst).isSome = true → s.pathHeld (.copy src) (localBase dst) = false → ∃ t, exec (.planEntryLand k) s = .next t ∧
        t = State.land { s with press := { s.press with exchange := dropAt s.press.exchange k } } run src dst doff bytes poison ∧
        (s.pathRefuses (.copy src) (localBase dst) .write = true → t.mem = s.mem) ∧
        (s.pathRefuses (.copy src) (localBase dst) .write = false →
          (s.planAt run dst).en = true → doff + bytes.length ≤ (s.planAt run dst).wsize.toNat →
          t.bytesAt (localBase dst + (s.planAt run dst).wbase.toNat + doff) bytes.length = bytes)) ∧
    (∀ m, (s.ctxOf a).sending = some m →
      let r := s.messageStatus a m
      let down : Prop := m.dst.toNat < s.numCores ∧ s.pathRefuses a (localBase m.dst.toNat) .write = true
      (down → r = (0x1202, s.securityEvent)) ∧
      (¬ down → r = s.deliverTo (s.runOf a) (s.ctxOf a).sr.cid ((agentCore a).getD 0) m) ∧
      (s.messageHeld a = true → exec (.messageDelivery a) s = .next s) ∧
      (s.messageHeld a = false → ∃ t, exec (.messageDelivery a) s = .next t ∧ (t.ctxOf a).sending = none ∧
        (t.ctxOf a).susp = none ∧ ∀ w, (r.2.ctxOf a).susp = some w → w.dst ≠ 0 → (t.ctxOf a).r.g[w.dst.toNat] = r.1)) ∧
    (∀ run src dst level key value, s.press.exchange[k]? = some (.pair run src dst level key value) →
      (s.coreAt dst).run = some run → s.pathHeld (.ctx src 0) (localBase dst) = false → exec (.keyPairApply k) s =
        .next (State.applyPair { s with press := { s.press with exchange := dropAt s.press.exchange k } } src dst key value)) ∧
    (∀ p limit, s.isLink p = true → exec (.blockQueueLimit p limit) s =
      .next (s.setBytes (queueCell p 0) (List.replicate 48 0 ++ leBytes 8 limit.toNat))) ∧
    (∀ p, s.isLink p = true → ∃ t, exec (.blockQueueTake p) s = .next t ∧
      let taken := s.atomicResult (queueCell p 40) 0 true 1 0
      t.dev.lastRead = taken.1 ∧ t.wordAt (queueCell p 40) = taken.2)

/-- R155, R158, R163, R164, R272, R274: each engine event runs a turn of its hart while the command at the head of the FIFO has
its OP and nothing holds the hart. A step of the copy hart that moves its elements without a fault advances DONE by their
number, and ends the command when all are done; a fault ends it with what was moved; the store of a step that completes the
line of which the step before wrote the first granule, still in the queue, joins that store to one write (R155; which stores
meet there is the model's choice, log 35). A step of the epilogue hart frees the tile whose last element it writes, and ends
the command with its last tile; in an express area the command ends with cause 0x0D and a free EVAL (log 31). The end of a
command that arrives at no slot writes DONE, BYTES, STATE, CAUSE and EVAL, and its block leaves the FIFO; a refused store that
it finds at its end gives it the cause 0x21, and DONE counts the elements before the refused ones. -/
def Obligations.EngineEvents : Prop :=
  (∀ (s : State) (core op : Nat),
    ∀ r ∈ ([(.copy core 0, 0, op ≠ 1 ∧ op ≠ 2), (.gather core 0, 0, op = 1), (.scatter core 0, 0, op = 2),
        (.epilogueS8 core 0, 1, op < 17 ∨ 26 < op), (.epilogueZ8 core 0, 1, op = 17), (.epilogueS16 core 0, 1, op = 18),
        (.epilogueZ16 core 0, 1, op = 19), (.epilogueS32 core 0, 1, op = 20), (.epilogueZ32 core 0, 1, op = 21),
        (.epilogueFp16 core 0, 1, op = 22), (.epilogueBf16 core 0, 1, op = 23), (.epilogueFp32 core 0, 1, op = 24),
        (.epilogueE4m3 core 0, 1, op = 25), (.epilogueE5m2 core 0, 1, op = 26)] : List (Instr × Nat × Prop)),
      s.headOp core r.2.1 = some op → r.2.2 → s.engineRuns core r.2.1 = true →
      exec r.1 s = .next (s.engineTurn core r.2.1)) ∧
  (∀ (s t : State) (core k : Nat) (fault : Option (BitVec 8 × Word)),
    let x := (s.coreAt core).engine 0
    let size := Fmt.size x.dst.fmt.toNat
    x.busy = true →
    s.engineTurn core 0 = s.copyStep core ∧
    (engineStep 0 x (moveElem x) x.done x.n size { s with cur := .copy core } = .ok (k, fault) t →
      let u : State := { t with cur := s.cur }
      (fault = none → x.done + k ≠ x.n →
        s.copyStep core = u.setCoreAt core ((u.coreAt core).setEngine 0 { x with done := x.done + k })) ∧
      (fault = none → x.done + k = x.n →
        s.copyStep core = u.endCommand core 0 (x.done + k) ((x.done + k) * size) 0 0 true) ∧
      (∀ cause eval, fault = some (cause, eval) →
        s.copyStep core = u.endCommand core 0 (x.done + k) ((x.done + k) * size) cause eval true))) ∧
  (∀ (p l : Piece) (q : List Piece),
    let low : BitVec 512 := BitVec.ofNat 512 (2 ^ 256 - 1)
    (q.filter (fun y => y.agent == p.agent)).getLast? = some l →
    (l.mask ≠ low → joinPair p q = q ++ [p]) ∧
    (∀ core, p.agent = .copy core → l.op = .write → l.line = p.line → l.replicated = p.replicated → l.mask = low → p.mask = ~~~low →
      (joinPair p q).length = q.length ∧
      { l with data := l.data ||| p.data, mask := l.mask ||| p.mask, tags := l.tags ||| p.tags } ∈ joinPair p q)) ∧
  (∀ (s t : State) (core k : Nat) (fault : Option (BitVec 8 × Word)),
    let x := (s.coreAt core).engine 1
    let g := (s.mxAt core).galley
    let per := 32 * g.n
    let fmt := epilogueFmt (x.w0.extractLsb' 0 8).toNat
    let size := Fmt.size fmt
    x.busy = true →
    ((∃ r, s.runOn core = some r ∧ r.express ≠ none) →
      s.engineTurn core 1 = s.endCommand core 1 x.done (x.done * size) 0x0D s.openEval true) ∧
    ((∀ r, s.runOn core = some r → r.express = none) → g.tiles ≠ 0 →
      engineStep 1 x (epilogueElem core x fmt) x.elem per size { s with cur := .epi core } = .ok (k, fault) t →
      let last : Prop := per ≤ x.elem + k
      let freed := if fault = none ∧ last then t.setMxAt core { t.mxAt core with galley := (t.mxAt core).galley.advance 1 } else t
      let u : State := { freed with cur := s.cur }
      let goesOn (y : Engine) : State := u.setCoreAt core ((u.coreAt core).setEngine 1 { y with done := x.done + k })
      let ends (cause : BitVec 8) (eval : Word) : State := u.endCommand core 1 (x.done + k) ((x.done + k) * size) cause eval true
      (fault = none → ¬ last → s.engineTurn core 1 = goesOn { x with elem := x.elem + k }) ∧
      (fault = none → last → x.tile + 1 ≠ x.n → s.engineTurn core 1 = goesOn { x with tile := x.tile + 1, elem := 0 }) ∧
      (fault = none → last → x.tile + 1 = x.n → s.engineTurn core 1 = ends 0 0) ∧
      (∀ cause eval, fault = some (cause, eval) → s.engineTurn core 1 = ends cause eval))) ∧
  ∀ (s : State) (core e done bytes : Nat) (cause : BitVec 8) (eval : Word) (blk : BitVec 48) (rest : List (BitVec 48)),
    let x := (s.coreAt core).engine e
    let a := engineAgent core e
    e < 2 → x.fifo = blk :: rest → x.busy = true → x.w0.getLsbD 24 = false → blk.toNat + 64 ≤ windowCell core 0 →
    let t := s.endCommand core e done bytes cause eval true
    (t.coreAt core).engine e = { x with
      fifo := rest, busy := false, w0 := 0, n := 0, done := 0, src := Cap.null, dst := Cap.null, idx := Cap.null,
      before := x.before - 1, tile := 0, elem := 0, parked := none, epoch := 0, pageFail := none } ∧
    ((cause = 0 → ((s.flush a).ctxOf a).deferred = none) →
      t.wordAt (blk.toNat + 16) = (BitVec.ofNat 32 bytes ++ BitVec.ofNat 32 done : Word) ∧
      t.wordAt (blk.toNat + 24) = (eval.setWidth 48 ++ cause ++ (if cause = 0 then 1#8 else 2#8) : Word)) ∧
    ∀ d, cause = 0 → ((s.flush a).ctxOf a).deferred = some d →
      (t.wordAt (blk.toNat + 16)).setWidth 32 = BitVec.ofNat 32 (x.doneBefore done d.eval) ∧
      t.wordAt (blk.toNat + 24) = (d.eval.setWidth 48 ++ 0x21#8 ++ 2#8 : Word)

/-! ### Events of links, of the host's tables, of power and boot -/

/-- R282, R283, R285, R286, R288, R344, R391, R393, R396: a flit that a module expects is accepted: it frees what it
acknowledges, gives credits back, and its records go to the router; one of another epoch or malformed is dropped and counted;
any other asks the other end for a replay, and a bad CRC is logged; sixteen replays in a row retrain a link, and a link whose
retraining fails is down; a die's reset moves its epoch on, is told to every port, and its links come up anew; the host writes
acceptance windows and the host window table, invalidates ATS results, and reaches memory through BAR 2. The model's choices
among these: SEQ begins again at 0 after a die's reset (log 8), which keeps CYCLE (log 50); how windows and BAR 2 are numbered
(log 20); a read that its way refuses reads as one outside the BAR does (log 20). -/
def Obligations.LinkAndHostEvents : Prop :=
  (∀ (s : State) (p : Port) (i : BitVec 2) (f : Flit), s.isLink p = true →
    let l := s.link p
    let m := s.linkMod p i
    let run := exec (.flitReceive p { via := i, flit := f }) s
    let epochsOk : Prop := flitEpoch f = l.epochOf (flitSrcDie f) ∧
      ∀ e ∈ flitResponseEpochs f, e = (s.die (agentDie (.port p))).epoch
    (l.state = .up → flitCrcOk f = true → flitSeq f = m.expect →
      (∃ t, run = .next t ∧ (t.linkMod p i).expect = m.expect + 1 ∧ (t.linkMod p i).lastGood = flitSeq f ∧
        (t.linkMod p i).replays = 0 ∧ (t.linkMod p i).replayFrom = none) ∧
      (flitWellFormed f = true → epochsOk → ∃ t, run = .next t ∧ t.dev = s.dev ∧ (t.link p).accepted = l.accepted ++ [f] ∧
        (t.linkMod p i).sent = acknowledged (flitAck f) m.sent ∧
        (t.linkMod p i).credits[(flitCvc f).toFin] = m.credits[(flitCvc f).toFin] + flitCredit f ∧
        (t.linkMod p i).freed[(flitVc f).toFin] = m.freed[(flitVc f).toFin] + 1 ∧
        (t.link p).requests = l.requests ++ (flitContent f).filter (fun x => !(x.long && x.dst == agentDie (.port p))) ∧
        (t.link p).parts = l.parts ++ (flitContent f).filter (fun x => x.long && x.dst == agentDie (.port p))) ∧
      (flitWellFormed f = false → ∃ t, run = .next t ∧ (t.link p).accepted = l.accepted ∧ (t.link p).requests = l.requests ∧
        t.dev = { s.dev with protocolErrors := s.dev.protocolErrors + 1 }) ∧
      (flitWellFormed f = true → ¬ epochsOk → ∃ t, run = .next t ∧ (t.link p).accepted = l.accepted ∧
        (t.link p).requests = l.requests ∧ t.dev = { s.dev with droppedFlits := s.dev.droppedFlits + 1 })) ∧
    (l.state = .up → ¬ (flitCrcOk f = true ∧ flitSeq f = m.expect) → ∃ t, run = .next t ∧ (t.link p).accepted = l.accepted ∧
      (t.linkMod p i).replays = m.replays + 1 ∧ (t.linkMod p i).replayFrom = some m.expect ∧
      (t.linkMod (otherEnd p) i).resend = some m.expect ∧
      (t.die (agentDie (.port p))).log.length = (s.die (agentDie (.port p))).log.length + (if flitCrcOk f = true then 0 else 1)) ∧
    (l.state = .up → (∃ j : Fin 4, 16 ≤ l.modules[j].replays) → ∃ t, exec (.linkRetrain p) s = .next t ∧
      (t.link p).state = .retraining ∧ (t.link p).accepted = l.accepted ∧ t.mem = s.mem) ∧
    (l.state = .retraining →
      (∃ t, exec (.linkRetrainingComplete p) s = .next t ∧
        (t.link p).state = .up ∧ (∀ j : Fin 4, (t.link p).modules[j].replays = 0) ∧ (t.link p).accepted = l.accepted ∧
        ∀ d, d < s.numDies → (t.link p).epochOf d = (s.die d).epoch) ∧
      (s.dev.stage ≠ 5 → ∃ t, exec (.linkDown p) s = .next t ∧ (t.link p).state = .down ∧ t.runs = s.runs ∧ t.dev = s.dev) ∧
      (s.dev.stage = 5 → ∃ t, exec (.linkDown p) s = .next t ∧ (t.link p).state = .down ∧
        t.dev.stage = 5 ∧ t.dev.code = 6))) ∧
  (∀ (s : State) (die : Nat), die < s.numDies → ∃ t, exec (.dieReset die) s = .next t ∧
    (t.die die).epoch = (s.die die).epoch + 1 ∧ (t.die die).cycle = (s.die die).cycle ∧
    (t.link (.ucie die)).state = .up ∧ (∀ j : Fin 4, (t.link (.ucie die)).modules[j].expect = 0) ∧
    ∀ p d, s.isLink p = true → d < s.numDies → (t.link p).epochOf d = (t.die d).epoch) ∧
  (∀ (s : State) (card k : Nat) (w : AcceptWindow), s.twoCards = true → card < 2 → k < 16 →
    exec (.acceptanceWindowWrite card k w) s =
      .next (s.setCard card { s.card card with accept := (k, w) :: (s.card card).accept.filter (fun e => e.1 != k) })) ∧
  (∀ (s : State) (k : Nat) (w : HostWindow), windowCard k < s.numCards →
    let c := s.card (windowCard k)
    exec (.hostWindowTableWrite k w) s =
      .next (s.setCard (windowCard k) { c with hostWins := (k, w) :: c.hostWins.filter (fun e => e.1 != k) })) ∧
  (∀ (s : State) (pasid page : Nat),
    let places := s.atsPlaces pasid page
    let held : Prop := ∃ p ∈ s.press.queues ++ s.press.fifo, (∃ a ∈ places, p.touches a 4096 = true) ∧ s.writesWait p.agent = true
    (held → exec (.atsInvalidation pasid page) s = .next s) ∧
    (¬ held → ∃ t, exec (.atsInvalidation pasid page) s = .next t ∧
      t.mem = (places.foldl (fun s a => s.settlePlaces a 4096) s).mem ∧
      ∀ card, card < s.numCards → ∀ e ∈ (t.card card).ats, e.1 ≠ (pasid, page))) ∧
  ∀ (s : State) (card off n : Nat), card < s.numCards → n ≠ 0 → n ≤ 8 →
    (s.barPlace card off n = none →
      (∀ v, exec (.bar2Access card off n (some v)) s = .next s.securityEvent) ∧
      ∃ t, exec (.bar2Access card off n none) s = .next t ∧ t.dev.lastRead = BitVec.allOnes 64 ∧ t.mem = s.mem ∧
        t.dev.securityEvents = s.dev.securityEvents + 1) ∧
    (∀ pa, s.barPlace card off n = some pa →
      (∀ v, exec (.bar2Access card off n (some v)) s = .next (s.hostWrite card pa (leBytes n v.toNat))) ∧
      (s.pathHeld (.host card) pa = true → exec (.bar2Access card off n none) s = .next s) ∧
      (s.pathHeld (.host card) pa = false → ∃ t, exec (.bar2Access card off n none) s = .next t ∧
        (s.pathRefuses (.host card) pa .read = true → t.dev.lastRead = BitVec.allOnes 64 ∧
          t.dev.securityEvents = s.dev.securityEvents + 1) ∧
        (s.pathRefuses (.host card) pa .read = false →
          t.dev.lastRead = BitVec.ofNat 64 (leNat ((s.asksBytes (.host card) pa n).readHome (.host card) pa n true).1))))

/-- R15, R16, R205, R354, R383, R394 to R398: power states are entered where the spec allows, a core in the midst of a replay
staying as it is, and left again, C only on a wake condition; the clock steps down while a card draws more than its cap and up
while it does not; the watchdog is kicked, and once it expires no run is left and the host is told; a device reset ends in
stage 2 when the monitor and the firmware are there and verify, else in stage 6, with the security state that the records
grant; reduced service, training and full service change DEVSTAT in their order, and full service begins with CYCLE and the
epoch counter at 0. The model's choices among these: the free list that begins at lease 1 (log 10), what a device reset and
power state D keep of memory (log 50), and the two steps in which reduced service begins (log 5). -/
def Obligations.PowerAndBootEvents : Prop :=
  (∀ (s : State) (core : Nat), core < s.numCores →
    (s.quiet core = true → (s.coreAt core).dbg.replaying = false →
      exec (.powerCEntry core) s = .next (s.setCoreAt core { s.coreAt core with gated := true })) ∧
    ((s.coreAt core).dbg.replaying = true → exec (.powerCEntry core) s = .next s) ∧
    (s.wakeDue core = true → exec (.powerCExit core) s = .next (s.setCoreAt core { s.coreAt core with gated := false })) ∧
    (s.wakeDue core = false → exec (.powerCExit core) s = .next s) ∧
    (∀ i, i < 4 → (s.coreAt core).gated = true → State.canIssue (s.setCoreAt core { s.coreAt core with gated := false }) (.ctx core i) = true →
      s.wakeDue core = true)) ∧
  (∀ (s : State) (die : Nat), die < s.numDies →
    (s.dieBusy die = false → exec (.powerSEntry die) s = .next (s.setDie die { s.die die with retention := true })) ∧
    exec (.powerSExit die) s = .next (s.setDie die { s.die die with retention := false })) ∧
  (∀ (s : State),
    (s.runs = [] → exec .powerDEntry s = .next { s with dev := { s.dev with off := true } }) ∧
    (s.dev.off = true → ∃ t, exec .powerDExit s = .next t ∧ t.dev.off = false ∧ t.dev.stage = 2 ∧
      t.dev.security = s.dev.security ∧ t.dev.records = s.dev.records ∧ t.mem = s.mem.filter (fun p => isHost p.1) ∧
      t.runs = [] ∧ t.twoCards = s.twoCards)) ∧
  (∀ (s : State) (card : Nat), card < s.numCards →
    let c := s.card card
    let above : Prop := c.capW < c.drawn ∨ 560 < c.drawnPkg
    (above → exec (.clockStepDown card) s = .next (s.setCard card { c with clock := c.clock.down }) ∧
      exec (.clockStepUp card) s = .next s) ∧
    (¬ above → exec (.clockStepDown card) s = .next s ∧
      (s.reduced = false → exec (.clockStepUp card) s = .next (s.setCard card { c with clock := c.clock.up }))) ∧
    exec (.watchdogKick card) s = .next (s.setCard card { c with lastKick := s.cardCycle card }) ∧
    (c.clock.tenMs ≤ (s.cardCycle card - c.lastKick).toNat → ∃ t, exec (.watchdogExpiry card) s = .next t ∧
      t.runs = [] ∧ t.dev.watchdogLost = true ∧ 4 ∈ t.dev.msix ∧
      (∀ x ∈ t.queues, queueCard x.1 ≠ card) ∧ (∀ x ∈ t.harts, x.1 / 4 ≠ card))) ∧
  (∀ (s : State) (monitorHere firmwareHere : Bool) (x : Security), ∃ t, exec (.deviceReset monitorHere firmwareHere x) s = .next t ∧
    t.runs = [] ∧ t.twoCards = s.twoCards ∧ t.dev.flash = s.dev.flash ∧
    (let monitor : Prop := monitorHere = true ∧ verifies s.dev.flash.monitor = true
     let firmware : Prop := firmwareHere = true ∧ verifies s.dev.flash.firmware = true
     (monitor → t.dev.records = s.dev.flash.records.filter (fun r => verifies (r.hash, r.signature)) ∧
       t.dev.security = grantedSecurity s.dev.flash.used x) ∧
     (¬ monitor → t.dev.records = [] ∧ t.dev.security = .locked) ∧
     (monitor ∧ firmware → t.dev.stage = 2 ∧ t.dev.code = 0) ∧
     (¬ (monitor ∧ firmware) → t.dev.stage = 6 ∧ t.dev.code = 1)) ∧
    (t.dev.security ≠ .vendor → t.mem = s.mem ∧ t.tags = s.tags) ∧
    (t.dev.security = .vendor → t.mem = s.mem.filter (fun p => isHost p.1) ∧ t.tags = s.tags.filter (fun p => isHost (32 * p.1))) ∧
    ∀ d, d < s.numDies → (t.die d).epoch = (s.die d).epoch + 1) ∧
  (∀ (s : State), s.dev.off = false →
    (s.dev.stage = 2 → ∃ t, exec .reducedService s = .next t ∧ t.dev.stage = 3 ∧ t.dev.code = 0 ∧
      t.leases = { Leases.reset with head := 1 } ∧
      (∀ a, ¬ (Config.leaseTable ≤ a ∧ a < Config.leaseTable + 0x200000) → t.byteAt a = s.byteAt a) ∧
      (s.twoCards = true → (t.link (.bridge 0)).state = .down) ∧ ∀ k, k < s.numCards → (t.card k).clock = .mhz750) ∧
    (s.dev.stage = 3 → s.dev.code = 0 → exec .reducedService s = .next (s.setStatus 4 0 0))) ∧
  (∀ (s : State) (code unit : Nat), s.dev.stage = 4 → 2 ≤ code → code ≤ 5 →
    exec (.trainingFailure code unit) s = .next (s.setStatus 3 (BitVec.ofNat 8 code) (BitVec.ofNat 16 unit))) ∧
  ∀ (s : State), s.dev.stage = 4 → s.dev.code = 0 → s.dev.off = false → ∃ t, exec .fullService s = .next t ∧
    t.dev.stage = 5 ∧ t.dev.code = 0 ∧ t.leases = { Leases.reset with head := 1 } ∧
    (∀ d, d < s.numDies → (t.die d).cycle = 0 ∧ (t.die d).refreshing = none) ∧
    (∀ k, k < s.numCards → (t.card k).clock = .mhz1500) ∧
    t.bytesAt Config.sweepCell 8 = List.replicate 8 0

/-! ### The command complex -/

/-- R15, R93, R102, R103, R154, R353, R354, R356 to R361, R369: the host writes a queue's shadow half, destroys a queue, rings
its doorbell, which first performs its earlier writes; the next packet is read, checked and taken, a byte 0 stored to its slot
and the index moved on and published, or the queue stops with the packet's error, or the hart is with its monitor; WAITCTR,
SIGNAL, COPY and marker packets that may start have their effects and complete, a COPY into weight stores once no run is on
their dies and it holds launches off them. No packet reaches a core's local memory, and in reduced service none reaches a
counter. What a command hart reads it reads at its home, granule by granule (log 73). -/
def Obligations.PacketEvents : Prop :=
  ∀ (s : State) (q : Nat),
    let x := s.queue q
    let k := s.client q
    (q < 1024 * (s.numDies / 2) → ∀ (word : Nat) (value : Word),
      (word < 8 → word ≠ 3 →
        exec (.queueShadowWrite q word value) s = .next (s.setQueue q (x.setWord word (value &&& shadowMask word)))) ∧
      (value.extractLsb' 0 8 = 0 →
        exec (.queueShadowWrite q 3 value) s = .next (s.setQueue q { x.setWord 3 0 with rung := true }))) ∧
    exec (.queueDestroy q) s = .next (s.setQueue q { Queue.reset with gen := x.gen + 1 }) ∧
    (let u := (s.flush (.host (queueCard q))).dropPorts (.host (queueCard q)) 3
     exec (.doorbell q) s = .next (u.setQueue q { u.queue q with rung := true })) ∧
    (∀ err index, err < 2 ^ 8 → index < 2 ^ 48 →
      ((s.queueError q err index).queue q).word 3 = BitVec.ofNat 64 (2 ^ 16 * index + err) ∧
      (s.queueError q err index).dev.msix = s.dev.msix ++ [1]) ∧
    (∀ index, s.packetMiss q index .fault = s.queueError q 3 index ∧
      s.packetMiss q index .malformed = s.tableError.queueError q 3 index ∧
      s.packetMiss q index .barred = s.securityEvent.queueError q 3 index ∧
      ∀ addr, s.packetMiss q index (.guarded addr) = s.guardStop k.hart addr 1) ∧
    (∀ va n acc, region va = 1 → s.placeFor k va n acc = .error .fault) ∧
    (∀ user v pa rpl bs u, s.queueLive q = true → x.rung = true → s.headPacket q = none →
      s.queueBytes q 2 x.uaddr = .ok (user, v) → userHalfOk user = true → 4 ≤ x.logn → x.logn ≤ 16 → x.rbase % 64 = 0 →
      (wordOf user 2).getLsbD 0 = false →
      let va := x.rbase + 64 * (x.ridx.toNat % 2 ^ x.logn)
      let p : Packet := { index := x.ridx, words := (List.range 8).map (wordOf bs) }
      v.placeFor (v.client q) va 64 .write = .ok (pa, rpl) → v.queueBytes q 2 va = .ok (bs, u) → u.queue q = x →
      let err := u.checkPacket q p
      (p.type = 0 → exec (.packetLoad q) s = .next (u.setQueue q { x with rung := false })) ∧
      (p.type ≠ 0 → err.1 ≠ 0 → err.1 ≠ 3 → exec (.packetLoad q) s = .next (u.queueError q err.1 x.ridx.toNat)) ∧
      (p.type ≠ 0 → err.1 = 3 → exec (.packetLoad q) s = .next (u.packetMiss q x.ridx.toNat err.2)) ∧
      (p.type ≠ 0 → err.1 = 0 →
        let taken := { x with pending := x.pending ++ [p], ridx := x.ridx + 1, sincePublish := x.sincePublish + 1 }
        let y := (u.putFor (u.client q) va pa rpl [0] 0).setQueue q taken
        let said := y.publish q (wordOf user 1).toNat
        (∀ t, said = .ok t → x.isLazy = true → x.sincePublish < x.lazym1 → (p.word 0).getLsbD 9 = false →
          exec (.packetLoad q) s = .next y) ∧
        (∀ t, said = .ok t → (x.isLazy = false ∨ x.lazym1 ≤ x.sincePublish ∨ (p.word 0).getLsbD 9 = true) →
          exec (.packetLoad q) s = .next t) ∧
        (∀ e, said = .error e → exec (.packetLoad q) s = .next (u.packetMiss q x.ridx.toNat e)))) ∧
    (∀ ridx t, s.publish q ridx = .ok t → (t.queue q).published = x.ridx ∧ (t.queue q).sincePublish = 0) ∧
    (∀ va y, s.lookFor k va .read = .ok y → (s.reduced = true ∨ y.2 = true) → s.waitPlace q va = .error .fault) ∧
    (∀ p pa bs t, s.startable q 2 = some p → s.waitPlace q (p.word 1).toNat = .ok pa →
      s.readPiece k false (p.word 1).toNat 8 = .ok (bs, false, t) →
      ((p.word 2).toNat ≤ (wordOf bs 0).toNat →
        exec (.waitctr q) s = .next ((t.dropViews (fun v => v.agent == k.agent)).completePacket q p)) ∧
      ((wordOf bs 0).toNat < (p.word 2).toNat → exec (.waitctr q) s = .next s)) ∧
    (∀ p, s.startable q 3 = some p →
      (∀ t, s.counterFor k (p.word 1) (p.word 2) = .ok t → exec (.signal q) s = .next (t.completePacket q p)) ∧
      (∀ e, s.counterFor k (p.word 1) (p.word 2) = .error e → exec (.signal q) s = .next (s.packetMiss q p.index.toNat e))) ∧
    (∀ va inc y, s.placeFor k va.toNat 8 .atomic = .ok y → s.reduced = true → s.counterFor k va inc = .error .fault) ∧
    (∀ p, s.startable q 4 = some p →
      let ds := s.weightDies q p
      let r := s.copyRun q p ((p.word 3).toNat / 16 + 1)
      ((∃ d ∈ ds, s.dieBusy d = true) → exec (.copyPacket q) s = .next s) ∧
      ((∀ d ∈ ds, s.dieBusy d = false) →
        (x.holds ≠ ds → exec (.copyPacket q) s = .next (s.holdStores q ds)) ∧
        (x.holds = ds → ∀ e, r.2 = some e → exec (.copyPacket q) s = .next (r.1.packetMiss q p.index.toNat e)) ∧
        (x.holds = ds → r.2 = none → r.1.copied q p = false → exec (.copyPacket q) s = .next r.1) ∧
        (x.holds = ds → r.2 = none → r.1.copied q p = true → exec (.copyPacket q) s = .next (r.1.endCopy q p)))) ∧
    (∀ ds d, d ∈ ds → (s.holdStores q ds).storeWriting d = true) ∧
    (∀ (p : Packet) (pa : Nat) (rpl : Bool) (bs : List Byte) (bad : Bool) (u : State),
      let src := (p.word 1).toNat + x.copied
      let dst := (p.word 2).toNat + x.copied
      let n := min ((p.word 3).toNat - x.copied) (32 - dst % 32)
      s.placeFor k dst n .copy = .ok (pa, rpl) → s.readFor k true 2 n src = .ok (bs, bad, u) →
      (∀ va ∈ [src, src + n - 1], ∀ y, s.lookFor k va .read = .ok y → s.refreshLeft y.1 = 0) →
      s.copyChunk q p = .ok (some ((u.putFor k dst pa rpl bs (if bad then 3 else 0)).setQueue q { x with copied := x.copied + n }))) ∧
    (∀ p, x.holds = [] →
      (p.word 4 = 0 → s.endCopy q p = s.completePacket q p) ∧
      (∀ t, p.word 4 ≠ 0 → s.counterFor k (p.word 4) 1 = .ok t → s.endCopy q p = t.completePacket q p)) ∧
    (∀ p, s.startable q 5 = some p →
      let d := 2 * queueCard q
      exec (.marker q) s =
        .next ((if (s.die d).trace.en then s.traceWrite d (traceWord 0x7FF 0 1 0) 0x3FF (p.word 1) else s).completePacket q p)) ∧
    (∀ p, ((s.completePacket q p).queue q).pending = x.pending.filter (fun y => y.index != p.index))

/-- R46, R71, R306, R308, R341, R353, R364, R365, R367 to R369, R384, R403 to R405: a LAUNCH whose turn it is starts its run on
its cores, each pinned context at the entry with rank, size and slot in g1 to g3 and fcap, and a launch the front end refuses
on free cores reports STATUS 3; a run that is done ends as completed and leaves the machine, and one that ends leaves it once
its cores have all stopped, where a command hart does the scheduler's work; a run that the host kills ends with STATUS 4, at
once where no core holds it, and with CAUSE 0x30 where it was pre-empted and has met no fault; a binary is loaded as a whole or
not at all, one of a version that the host does not launch not at all, and its leases are revoked when it is unloaded. -/
def Obligations.LaunchEvents : Prop :=
  (∀ (s : State) (q : Nat) (p : Packet) (l : LaunchPlan), s.startable q 1 = some p → s.preparing q p = none →
    let k := s.client q
    (∀ e, s.prepare k p none = .error e →
      ((∀ c ∈ s.domainCores (launchDomain (p.word 0)), s.coreFree c = true) →
        exec (.launch q) s = .next (s.refuseLaunch q (s.queue q).gen k p e)) ∧
      ((∃ c ∈ s.domainCores (launchDomain (p.word 0)), s.coreFree c = false) → s.hopeless k p = false →
        exec (.launch q) s = .next s) ∧
      s.refuseLaunch q (s.queue q).gen k p .launch = (s.readLaunch k p).refuse q (s.queue q).gen k p) ∧
    (∀ id, s.prepare k p none = .ok l → l.cores.all s.coreFree = true → s.diesReady l = true → s.newRunId = some id →
      (s.queues.map Prod.fst).any (s.goesFirst p.prio q) = false →
      let r := s.newRun q p l id [] none
      let v := s.readLaunch k p
      let u : State := { v with runs := v.runs ++ [r], dev := { v.dev with nextRun := v.dev.nextRun + 1, robin := q } }
      exec (.launch q) s = .next (u.startRunOn r l))) ∧
  (∀ (s : State) (l : LaunchPlan) (id : Word) (prio : BitVec 2) (core : Nat), core < s.numCores →
    let t := s.launchCore l id prio core
    (t.coreAt core).run = some id.toNat ∧ (t.coreAt core).arrived = some l.domain.level ∧ (t.coreAt core).walloc = l.walloc ∧
    (t.coreAt core).rcc = l.code ∧ t.runs = s.runs ∧
    ∀ i, i < 4 → i < l.nctx →
      let c := t.ctxOf (.ctx core i)
      c.occupied = true ∧ c.pinned = true ∧ c.fcap = l.code ∧ c.pc = l.code.base.setWidth 64 + l.code.str1.setWidth 64 ∧
      c.r.g[1] = BitVec.ofNat 64 (indexIn l.cores core) ∧ c.r.g[2] = BitVec.ofNat 64 l.cores.length ∧
      c.r.g[3] = BitVec.ofNat 64 i) ∧
  (∀ (s : State) (run : Nat) (r : Run), s.run? run = some r →
    (s.hartLive (queueHart r.queue) = false → exec (.runEnd run) s = .next s) ∧
    (∀ status, r.ending = some status → s.hartLive (queueHart r.queue) = true →
      (r.state = .ended → ∃ t, exec (.runEnd run) s = .next t ∧ t.run? run = none) ∧
      (r.state ≠ .ended → exec (.runEnd run) s = .next s)) ∧
    (r.ending = none → s.runDone r = true → s.hartLive (queueHart r.queue) = true → ∃ t, exec (.runEnd run) s = .next t ∧ t.run? run = none) ∧
    (r.ending = none → ∃ t x, exec (.hostKill run) s = .next t ∧ t.run? run = some x ∧ x.ending = some 4 ∧
      (s.cores.any (fun k => k.2.run == some run) = false → x.state = .ended) ∧
      (r.state = .preempted → r.f.fault = false → x.f.cause = 0x30))) ∧
  (∀ (s : State) (b : BinaryImage),
    (hostLaunches b.version.1 b.version.2 = false → exec (.binaryLoad b) s = .next s) ∧
    (hostLaunches b.version.1 b.version.2 = true →
      (∀ t, s.loadBinary b = some t → exec (.binaryLoad b) s = .next t) ∧
      (s.loadBinary b = none → exec (.binaryLoad b) s = .next s))) ∧
  ∀ (s : State) (n : Nat), n ≠ 0 → (s.lease n).state = 1 → (s.lease n).run = 0 → (s.lease n).parent.toNat = n →
    let u := s.landCaps [n]
    ∃ t, exec (.binaryUnload [n]) s = .next t ∧ (t.lease n).state = 2 ∧ (t.lease n).gen = (u.lease n).gen + 1 ∧
      n ∈ t.leases.eligible ∧ ∀ a, ¬ (leasePlace n ≤ a ∧ a < leasePlace n + 32) → t.byteAt a = u.byteAt a

/-- R305, R338 to R343, R364, R365, R411: the scheduler decides a pre-emption, and every run it pre-empts is to stop, or refuses a
launch that its express area does not hold; a core of such a run reaches its boundary, is saved and left without a run, takes the pre-empting run when every victim is saved, and has its
own run again by the restore, in its next compute phase where a close completed meanwhile; a core of a run that ends leaves it
at its boundary. -/
def Obligations.PreemptionEvents : Prop :=
  (∀ (s : State) (q : Nat) (p : Packet) (victims : List Run) (e : Nat) (miss : Miss), s.preemption q = some (p, victims, e) →
    s.prepare (s.client q) p (some e) = .error miss →
    exec (.preemptionDecision q) s = .next (s.refuseLaunch q (s.queue q).gen (s.client q) p miss)) ∧
  (∀ (s : State) (q : Nat) (p : Packet) (l : LaunchPlan) (victims : List Run) (e : Nat) (id : Word),
    s.preemption q = some (p, victims, e) → s.prepare (s.client q) p (some e) = .ok l → s.newRunId = some id →
    s.diesReady l = true →
    ∃ t, exec (.preemptionDecision q) s = .next t ∧
      (∀ v ∈ victims, ∃ r ∈ t.runs, r.id = v.id ∧ r.state = .preempted) ∧
      ∃ r ∈ t.runs, r.id = id ∧ r.state = .preparing ∧ r.victims = victims.map (fun v => v.id.toNat) ∧ r.express = some e) ∧
  (∀ (s : State) (core : Nat) (r : Run) (status : BitVec 4), s.runOn core = some r → s.answerHeld core = false →
    r.ending = some status → exec (.preemptBoundary core) s = .next ((s.endFlight core).stopAt r.id.toNat core)) ∧
  (∀ (s : State) (core : Nat) (r : Run), s.runOn core = some r → s.answerHeld core = false → r.ending = none →
    r.state = .preempted → (s.coreAt core).boundary = none →
    (s.coreAt core).dbg.replaying = false → s.closing r core = false → ((s.endFlight core).coreAt core).run = some r.id.toNat →
    ∃ t, exec (.preemptBoundary core) s = .next t ∧
      (t.coreAt core).boundary = some ((s.endFlight core).die (core / 384)).cycle ∧ (t.coreAt core).halted = true) ∧
  (∀ (s : State) (core run : Nat) (since : Word), (s.coreAt core).run = some run → (s.coreAt core).boundary = some since →
    ∃ t, exec (.save core) s = .next t ∧ (t.coreAt core).run = none ∧ (t.coreAt core).boundary = none ∧
      (t.coreAt core).saved = some (s.savedCore core run) ∧ ∀ i, i < 4 → t.ctxOf (.ctx core i) = Ctx.reset) ∧
  (∀ (s : State) (q : Nat) (r : Run) (l : LaunchPlan),
    s.runs.find? (fun r => r.queue == q && r.state = .preparing && s.victimsSaved r) = some r →
    s.hartLive (queueHart q) = true → s.prepare r.client r.launchPacket r.express = .ok l → s.diesReady l = true →
    exec (.preemptingLaunch q) s =
      .next ((s.updRun r.id.toNat (fun x => { x with state := .running })).startRunOn r l)) ∧
  ∀ (s : State) (core : Nat) (sv : SavedCore), (s.coreAt core).run = none → (s.coreAt core).saved = some sv →
    core < s.numCores → s.preempter sv.run = none → sv.plan.fault = none → (∀ p ∈ sv.waiting, p.plevel = 0) →
    ∃ t, exec (.restore core) s = .next t ∧ (t.coreAt core).run = some sv.run ∧ (t.coreAt core).saved = none ∧
      (t.coreAt core).boundary = none ∧ (t.coreAt core).walloc = sv.walloc ∧
      (∀ i, i < 4 → (t.ctxOf (.ctx core i)).occupied = (sv.ctxs.getD i none).any Ctx.occupied) ∧
      if sv.phase = .compute ∧ sv.arrived ≠ none then (t.coreAt core).phase = .compute ∧ (t.coreAt core).arrived = none
      else (t.coreAt core).phase = sv.phase ∧ (t.coreAt core).arrived = sv.arrived

/-! ### The debug port and its instruments -/

/-- R370 to R376, R383: DEVSTAT, the error log and the colophons are read always; what the security state denies, or what meets a
device that is off, changes nothing but the answer; where it is allowed, the core or die concerned is raised to P first, a stop
is requested, which ends every IDLE of the run, and a stopped run resumed, BRK interception is armed and a held context
continues at PC + 4, a stopped core's state is read and written, of a held context's w only its own entries, replay is armed,
begun from the last boundary or from the one that is named, stepped and ended. -/
def Obligations.DebugEvents : Prop :=
  (∀ (s : State) (x : DebugResult) (run level core : Nat) (held : Option Agent) (b : Bool), s.debugRefusal false = some x →
    ∀ i ∈ ([.stopRequest run level, .debugResume run held, .brkInterception run b, .replayArm run b, .replay core,
        .replayStep core] : List Instr), exec i s = .next (s.reply x)) ∧
  (∀ (s : State) (die k : Nat),
    exec (.debugRead .status) s = .next (s.reply (.value (s.debugValue .status))) ∧
    exec (.debugRead (.errorLog die k)) s = .next (s.reply (.value (s.debugValue (.errorLog die k)))) ∧
    ∀ place part, s.dev.colophons.contains place = true → exec (.debugRead (.colophon place part)) s =
      .next (s.reply (.value (BitVec.ofNat 256 (leNat (s.bytesAt (place + 32 * (part % 4)) 32)))))) ∧
  (∀ (s : State) (addr h : Nat) (value : BitVec 256), s.debugRefusal true = none →
    (s.physOk addr = true → exec (.debugRead (.device addr)) s =
      .next ((s.wakeDie (dieOf addr)).reply (.value (BitVec.ofNat 256 (leNat (s.bytesAt (addr / 32 * 32) 32)))))) ∧
    (addr + 32 ≤ 0x10000 → exec (.debugRead (.firmware addr)) s =
      .next ((s.wakeDie 0).reply (.value (BitVec.ofNat 256 (leNat (s.readBytes (Config.fwPlace + addr) 32)))))) ∧
    (h < 4 * s.numCards → exec (.debugWrite (.commandHart h) value) s =
      .next (((s.wakeDie (2 * (h / 4))).setHart h { s.hart h with halted := value.getLsbD 0 }).reply .done))) ∧
  (∀ (s : State) (run level : Nat) (r : Run), s.debugRefusal false = none → s.run? run = some r →
    (r.ending = none → level ≤ r.domain.level.toNat → r.dbg.stoppedAt = none → r.dbg.stopLevel = none →
      ∃ t x, exec (.stopRequest run level) s = .next t ∧ t.dev.result = .done ∧ t.run? run = some x ∧
        x.dbg.stopLevel = some (BitVec.ofNat 3 level) ∧ t.mem = s.mem ∧
        ∀ k i, k ∈ s.runCores r → (s.coreAt k).run = some run → i < 4 → (t.ctxOf (.ctx k i)).idle = none) ∧
    (r.ending = none → r.state ≠ .preempted → (s.runCores r).any (fun k => (s.coreAt k).dbg.replaying) = false →
      ∃ t x, exec (.debugResume run none) s = .next t ∧ t.dev.result = .done ∧ t.run? run = some x ∧
        x.dbg.stopLevel = none ∧ x.dbg.stoppedAt = none ∧
        ∀ k ∈ s.runCores r, (s.coreAt k).run = some run → (t.coreAt k).stopped = false) ∧
    (∀ a k, agentCore a = some k → (s.coreAt k).run = some r.id.toNat → (s.ctxOf a).held = true →
      exec (.debugResume run (some a)) s = .next (((s.wake k).setCtxOf a { s.ctxOf a with
        held := false, susp := none, pc := seqPc (s.ctxOf a).pc 1 }).reply .done)) ∧
    (∀ b : Bool,
      exec (.brkInterception run b) s =
        .next ((((s.runCores r).foldl State.wake s).updRun run (fun r => { r with dbg := { r.dbg with brk := b } })).reply .done) ∧
      exec (.replayArm run b) s =
        .next ((((s.runCores r).foldl (fun s k => (s.wake k).clearLog k) s).updRun run
          (fun r => { r with dbg := { r.dbg with replay := true, journal := b } })).reply .done))) ∧
  (∀ (s : State) (core entry : Nat), (s.coreAt core).stopped = false → s.readable (.w core entry) core = true →
    ∃ n, n < 4 ∧ (s.ctxOf (.ctx core n)).held = true ∧ s.ownsEntry core n entry = true) ∧
  (∀ (s : State) (t : DebugTarget) (core : Nat) (x : BitVec 256), s.debugRefusal false = none → targetCore t = some core →
    core < s.numCores → s.readable t core = true →
    ((∀ c slot n, t = .sysreg c slot n → (sysWriteBy n).isSome = true) →
      ∃ u, exec (.debugRead t) s = .next u ∧ u.dev.result = .value (s.debugValue t) ∧ u.ctxs = s.ctxs ∧ u.mem = s.mem) ∧
    (writable t = true → (s.coreAt core).stopped = true ∨ writableHeld t = true →
      exec (.debugWrite t x) s = .next (((s.wake core).debugWrite t core x).reply .done)) ∧
    (¬ (writable t = true ∧ ((s.coreAt core).stopped = true ∨ writableHeld t = true)) →
      exec (.debugWrite t x) s = .next (s.reply .refused))) ∧
  ∀ (s : State) (core : Nat), s.debugRefusal false = none →
    (∀ x, (s.coreAt core).stopped = true → (s.coreAt core).dbg.replaying = false → s.replaySource core = some x →
      x.rewrites = s.rewrites → exec (.replay core) s = .next (((s.wake core).beginReplay x).reply .done)) ∧
    (∀ x count, (s.coreAt core).stopped = true → (s.coreAt core).dbg.replaying = false → s.replayOf core count = some x →
      (x.rewrites = s.rewrites → s.act (.replayFrom core count) = ((s.wake core).beginReplay x).reply .done) ∧
      (x.rewrites ≠ s.rewrites → s.act (.replayFrom core count) = s.reply .refused) ∧ x.core = core ∧ x.count = count) ∧
    ((s.coreAt core).dbg.replaying = true →
      ((s.coreAt core).arrived = none → s.liveWaits core ≠ [] →
        exec (.replayStep core) s = .next ((s.replayOne core).reply .done)) ∧
      ((s.coreAt core).arrived ≠ none ∨ s.liveWaits core = [] →
        exec (.replayStep core) s = .next ((s.endReplay core).reply .ended)))

/-- R353, R377 to R382, R395: a trace unit begins a ring, a claim freezes the guest's counters, a held bank is read and written
through the port, and its release gives the bank back, a sample leaves a record for every enabled counter at the end of its
interval, a router grid dump takes its place in the ring of buffers or is counted as dropped, with counts that are free values
(log 4); an access that no window of the guard table grants whole enters the monitor at its entry, from which the caller is
resumed, and a plug-in's tenant then runs under default policy; the monitor attests with the nonce, the hashes, the security
state and the serial number; an accounting interval is charged to the runs by their estimates and their share of the
residue. -/
def Obligations.MonitorEvents : Prop :=
  (∀ (s : State) (die run ring len : Nat), s.debugRefusal false = none → die < s.numDies → (s.die die).trace.hyper = false →
    ∃ t, exec (.traceEnable die run ring len) s = .next t ∧ t.dev.result = .done ∧ (t.die die).trace.en = true ∧
      run ∈ (t.die die).trace.runs ∧ (t.die die).trace.ring = ring ∧ (t.die die).trace.len = len ∧
      (t.die die).retention = false) ∧
  (∀ (s : State) (core : Nat), s.debugRefusal false = none → core < s.numCores →
    (∃ t, exec (.hypervisorClaim (.bank core)) s = .next t ∧ t.dev.result = .done ∧ (t.coreAt core).held = true ∧
      ((s.coreAt core).held = false → (t.coreAt core).frozen = some (s.coreAt core).guestPerf ∧
        (t.coreAt core).perf = PerfBank.reset)) ∧
    (∃ t, exec (.hypervisorRelease (.bank core)) s = .next t ∧ t.dev.result = .done ∧ (t.coreAt core).held = false ∧
      (t.coreAt core).frozen = (s.coreAt core).frozen) ∧
    ((s.coreAt core).held = true → ∀ (n : Nat) (x : BitVec 256),
      (∀ h : n < 8, exec (.debugRead (.counters core n)) s =
        .next ((s.wakeDie (core / 384)).reply (.value (((s.coreAt core).perf.pmc[n]'h).setWidth 256)))) ∧
      exec (.debugWrite (.counters core n) x) s =
        .next (((s.wakeDie (core / 384)).setCoreAt core { s.coreAt core with perf := (s.coreAt core).perf.write n (x.setWidth 64) }).reply .done)) ∧
    ((s.coreAt core).held = false → ∀ n, exec (.debugRead (.counters core n)) s = .next (s.reply .refused)) ∧
    let v := (s.die (core / 384)).trace
    (v.sampleK = none → exec (.counterSample core) s = .next s) ∧
    ∀ k, v.sampleK = some k →
      let since := ((s.die (core / 384)).cycle - (v.forCore core k.toNat).sampleStart).toNat
      (since < 2 ^ k.toNat → exec (.counterSample core) s = .next s) ∧
      (2 ^ k.toNat ≤ since → ∃ t, exec (.counterSample core) s = .next t ∧ t.cores = s.cores ∧
        let u := (t.die (core / 384)).trace
        core ∈ u.sampled ∧
        (s.traced core = true →
          u.index + u.lost = v.index + v.lost + (List.range 8).countP (fun n => (s.coreAt core).perf.ctl.getLsbD (48 + n))) ∧
        (s.traced core = false → t.mem = s.mem ∧ u.index = v.index ∧ u.lost = v.lost))) ∧
  (∀ (s : State) (die k : Nat), s.debugRefusal false = none → die < s.numDies →
    (∃ t, exec (.hypervisorClaim (.trace die)) s = .next t ∧ t.dev.result = .done ∧ (t.die die).trace.hyper = true ∧
      (t.die die).trace.en = false ∧ (t.die die).trace.preempted = (s.die die).trace.en) ∧
    (∃ t, exec (.hypervisorRelease (.trace die)) s = .next t ∧ t.dev.result = .done ∧ (t.die die).trace.hyper = false) ∧
    (∀ x, (s.die die).grid.k = some x → x.toNat = k → (s.die die).retention = false →
      let g := (s.die die).grid
      let run := exec (.routerGridDump die k) s
      ((s.die die).cycle.toNat < (g.finish k).toNat → run = .next s) ∧
      ((g.finish k).toNat ≤ (s.die die).cycle.toNat → ∃ t, run = .next t ∧ (t.die die).grid.interval = g.interval + 1 ∧
        (t.die die).grid.since = g.finish k ∧
        (g.full < g.buffers → (t.die die).grid.dropped = 0 ∧ (t.die die).grid.full = g.full + 1 ∧
          (g.dump die k (g.finish k)).length = 7708 ∧
          (g.dump die k (g.finish k)).take 4 = [g.interval, BitVec.ofNat 64 (k + 2 ^ 16 * die), g.finish k, g.dropped] ∧
          t.bytesAt g.place 61664 = wordBytes (g.dump die k (g.finish k))) ∧
        (g.buffers ≤ g.full → t.mem = s.mem ∧ (t.die die).grid.full = g.full ∧ (t.die die).grid.dropped = g.dropped + 1)))) ∧
  (∀ (s : State) (hart addr level tenant : Nat) (access : GuardAccess), hart < 4 * s.numCards → level = 1 ∨ level = 2 →
    let h := s.hart hart
    let run := exec (.guardTableRefusal hart addr level tenant access) s
    (h.level ≠ level → run = .next s) ∧
    (h.grants addr level tenant access = true → run = .next s) ∧
    (h.level = level → h.grants addr level tenant access = false → ∃ t, run = .next t ∧ t.mem = s.mem ∧
      (t.hart hart).level = 0 ∧ (t.hart hart).refused = some (addr, level) ∧ (t.hart hart).pc = h.entry[0].getD h.pc ∧
      (level = 1 → (t.hart hart).callers = (1, h.pc) :: h.callers) ∧
      (level = 2 → (t.hart hart).callers = h.callers ∧ (t.tenant tenant).defaultPolicy = true))) ∧
  (∀ (s : State) (nonce : BitVec 256), s.dev.monitorOk = true → ∃ t r, exec (.attestation nonce) s = .next t ∧
    t.dev.report = some r ∧ t.mem = s.mem ∧ r.nonce = nonce ∧ r.monitor = s.dev.flash.monitor.1 ∧
    r.firmware = s.dev.flash.firmware.1 ∧ r.records = s.dev.records.map ConfigRecord.hash ∧ r.security = s.dev.security ∧
    r.serial = s.dev.serial) ∧
  ∀ (s : State) (card energy : Nat) (activity : List (Nat × Nat)),
    let c := s.card card
    let n := (s.cardCycle 0 - c.intervalStart).toNat
    let act := activityOf s.dev.weights activity
    card < s.numCards → 2 ^ 16 ≤ n → (s.chargeable.map Prod.fst).Nodup →
    ∃ t, exec (.energyInterval card energy activity) s = .next t ∧ 7 ∈ t.dev.msix ∧
      (t.card card).heldCycles = [] ∧ (t.card card).intervalStart = s.cardCycle 0 ∧
      ∀ r ∈ s.runs, ∃ x ∈ t.runs, x.id = r.id ∧
        x.energy = r.energy + energyShare energy (s.chargeable.foldl (fun m y => m + act y.1) 0) (768 * n)
          (Sparse.get 0 c.heldCycles r.id.toNat) (act r.id.toNat)

/-! ### The machine as a whole -/

/-- R19, R22, R23, R86, R142, R297: a step runs the decoded instruction. When the agent whose turn it is may issue, what it awaits
is there and its next instruction is `i`, the step is `exec i` at the state the fetch leaves, its pairing and a first
instruction noted, with what replay and the passing of time add around it; the next instruction is what the decoder reads at
the PC, when fcap may execute the line and the line passes the checks of R23; a trap that the agent owes, or a failed page
request, comes first; a failed check traps, a missing page parks, a line that a retraining link or a refresh window holds is
waited for; an event of the schedule is `exec` of that event, an action of the host driver or of firmware is done, a command
hart goes on by one part, and a turn of an agent that does not exist is a fault. Outside replay nothing is added. Which agent's turn it is where the schedule names none is the model's choice (log 3). -/
def Obligations.StepRunsDecoded : Prop :=
  (∀ (s : State) (a : Agent), (s.agenda = [] ∧ s.pick = some a ∧ s.driftDue = false) ∨
      (∃ rest, s.agenda = .issue a :: rest ∧ s.hasAgent a = true) →
    let u : State := { s with agenda := s.agenda.drop 1 }
    let v := (u.settleAwaited a).take a
    u.mayIssue a = true → (u.settleAwaited a).awaits a = [] →
    (∀ cause eval pc, v.ctx.owed = some (cause, eval, pc) →
      step s = finish (afterIssue v none (.next ((v.setCtx { v.ctx with owed := none, pc := pc, vpart := none }).takeTrap cause eval 0)))) ∧
    (∀ va, v.ctx.owed = none → v.ctx.pageFail = some va →
      step s = finish (afterIssue v none (.next ((v.setCtx { v.ctx with pageFail := none, vpart := none }).takeTrap 0x10 va 0)))) ∧
    (v.ctx.owed = none → v.ctx.pageFail = none →
      (∀ i t, v.nextInstr = .instr i t → step s = finish (afterIssue t (some i) (exec i (t.countIssue i)))) ∧
      (∀ p t, v.nextInstr = .illegal p t → step s = finish (afterIssue t none (exec (.illegalInstruction p) t.beginIssue))) ∧
      (∀ cause eval t, v.nextInstr = .trap cause eval t →
        step s = finish (afterIssue t none (.next (t.takeTrap cause eval 0)))) ∧
      (∀ va mig t, v.nextInstr = .park va mig t → step s = finish (afterIssue t none (.next (t.parkOn va mig false)))) ∧
      (∀ t, v.nextInstr = .held t → step s = finish (.next t)))) ∧
  (∀ (s : State) (i : Instr) (rest : List Turn), s.agenda = .event i :: rest →
    step s = finish (exec i { s with agenda := rest })) ∧
  (∀ (s : State) (x : Action) (h : Nat) (rest : List Turn),
    (s.agenda = .act x :: rest → step s = finish (.next (State.act { s with agenda := rest } x))) ∧
    (s.agenda = .part (.command h) :: rest → step s = finish (.next (State.hartStep { s with agenda := rest } h)))) ∧
  (∀ (s : State) (a : Agent) (rest : List Turn),
    s.agenda = .issue a :: rest ∨ (s.agenda = .part a :: rest ∧ ∀ h, a ≠ .command h) → s.hasAgent a = false →
    step s = .fault .absentAgent) ∧
  (∀ (s u : State) (l : FetchLine) (i : Instr) (rest : List Parcel),
    let c := s.ctx.fcap
    let la := s.pc.toNat / 64 * 64
    let k := s.pc.toNat % 64 / 4
    s.capFault c .X Kind.X.need (((la : Int) - c.base.toNat) / 64) 0 true = none →
    c.covers la = true → c.covers (la + 63) = true → s.fetchLine la = .line l u → u.ctx = s.ctx → s.ctx.resumed = false →
    s.pc.toNat % 4 = 0 → k ≠ 0 → l.poison = 0 → parloOk l.data = true → parhiOk l.data = true → l.data.getLsbD 29 = false →
    decode (lineFrom l.data k) = .ok (i, rest) → s.nextInstr = .instr i (u.cacheLease c.lease.toNat)) ∧
  ∀ (s t : State) (i : Option Instr),
    (∀ core slot, s.cur = .ctx core slot → (s.coreAt core).dbg.replaying = false ∧ t.logging core = false) →
    afterIssue s i (.next t) = .next t

/-- R27, R31 to R34: decoding undoes encoding. Whatever follows it in the line, every well-formed instruction is read back from
its own words with every operand it has, and nothing of what follows is taken. -/
def Obligations.DecodeEncode : Prop :=
  ∀ (i : Instr) (rest : List Parcel), i.wf = true → encode i ≠ [] → decode (encode i ++ rest) = .ok (i, rest)

/-- R18, R27, R30: no bit of a word is dropped. What the decoder accepts is exactly the encoding of the instruction it answers,
followed by the parcels it leaves: two different words are never the same instruction. -/
def Obligations.EncodeDecode : Prop :=
  ∀ (ps rest : List Parcel) (i : Instr), decode ps = .ok (i, rest) → ps = encode i ++ rest

/-- Words written out from the spec's encodings decode to the instructions they stand for. -/
def Obligations.DecodesSpecWords : Prop :=
  decode [0x00200504] = .ok (.addi 5 0 8, []) ∧ decode [0x00948300] = .ok (.sub 3 4 5, []) ∧
  decode [0x00300048] = .ok (.exit 0, []) ∧ decode [0x00C40050] = .ok (.fence 3, [])

/-- Every step keeps the canonical form of memory, of its tags and of its poison. -/
def Obligations.StepKeepsInv : Prop := ∀ s t : State, s.Inv → step s = .next t → t.Inv

/-- The machine right after reset: it is in the invariant; DEVSTAT reads stage 0 without a code, in the security state LOCKED;
no run exists, no context is occupied, no core serves a run, no queue exists; every byte of memory reads 0 (the model's choice,
log 1), no granule has a tag or poison; every general register reads 0 (the model's choice, log 2), FCSR, VSHAPE, VPROG, CAUSE
and STATUS read 0. -/
def Obligations.ResetState : Prop :=
  State.reset.Inv ∧ State.reset.dev.stage = 0 ∧ State.reset.dev.code = 0 ∧ State.reset.dev.security = .locked ∧
  State.reset.runs = [] ∧
  (∀ a : Agent, (State.reset.ctxOf a).occupied = false ∧
    let s : State := { State.reset with cur := a }
    (∀ n, s.g n = 0) ∧ s.ctx.sr.fcsr = 0 ∧ s.ctx.sr.vshape = 0 ∧ s.ctx.sr.vprog = 0 ∧ s.ctx.sr.cause = 0 ∧ s.ctx.sr.status = 0) ∧
  (∀ k, (State.reset.coreAt k).run = none) ∧ (∀ q, (State.reset.queue q).exists = false) ∧
  ∀ a, State.reset.byteAt a = 0 ∧ State.reset.tagAt a = false ∧ State.reset.poisonAt a = false

/-- R196, R19: what an instruction does that writes g[d] and nothing else. Of g0 every read is 0 and every write is discarded;
every other general register, every capability, vector, mask and vector-window register, every system register, the window,
memory with its tags and poison, and every other agent keep their values; the PC is that of the next instruction in sequence,
which is never in word 0 of a line. -/
def Obligations.RegisterFrame : Prop :=
  (∀ (s : State) (i : Instr) (d : BitVec 5) (x : Word) (t : State), s.writesG i d x → exec i s = .next t →
    t.g 0 = 0 ∧ (d ≠ 0 → t.g d = x) ∧ (∀ n, n ≠ d → t.g n = s.g n) ∧
    t.ctx.r.c = s.ctx.r.c ∧ t.ctx.r.v = s.ctx.r.v ∧ t.ctx.r.m = s.ctx.r.m ∧ t.ctx.r.vw = s.ctx.r.vw ∧ t.ctx.sr = s.ctx.sr ∧
    t.ctx.fcap = s.ctx.fcap ∧ t.core.window = s.core.window ∧ t.mem = s.mem ∧ t.tags = s.tags ∧ t.poison = s.poison ∧
    t.press = s.press ∧ (∀ a, agentKey a ≠ agentKey s.cur → t.ctxOf a = s.ctxOf a) ∧ t.pc = s.nextPc i) ∧
  ∀ (s : State) (i : Instr), (encode i).length ≤ 3 → s.pc.toNat % 4 = 0 → 1 ≤ s.pc.toNat % 64 / 4 →
    s.pc.toNat % 64 / 4 + i.parcels ≤ 16 →
    (s.nextPc i).toNat % 4 = 0 ∧ (s.nextPc i).toNat % 64 ≠ 0
end

