-- ==== Sys2Proof/Laws/Encode.lean ====
section
/-! SUPPORT. The words of every instruction. -/

namespace Sys2Proof

theorem encode_add (d a b : BitVec 5) : encode (.add d a b) = [Enc.a 0 b a d 0] := rfl
theorem encode_sub (d a b : BitVec 5) : encode (.sub d a b) = [Enc.a 1 b a d 0] := rfl
theorem encode_and (d a b : BitVec 5) : encode (.and d a b) = [Enc.a 2 b a d 0] := rfl
theorem encode_or (d a b : BitVec 5) : encode (.or d a b) = [Enc.a 3 b a d 0] := rfl
theorem encode_xor (d a b : BitVec 5) : encode (.xor d a b) = [Enc.a 4 b a d 0] := rfl
theorem encode_andn (d a b : BitVec 5) : encode (.andn d a b) = [Enc.a 5 b a d 0] := rfl
theorem encode_sll (d a b : BitVec 5) : encode (.sll d a b) = [Enc.a 6 b a d 0] := rfl
theorem encode_srl (d a b : BitVec 5) : encode (.srl d a b) = [Enc.a 7 b a d 0] := rfl
theorem encode_sra (d a b : BitVec 5) : encode (.sra d a b) = [Enc.a 8 b a d 0] := rfl
theorem encode_slt (d a b : BitVec 5) : encode (.slt d a b) = [Enc.a 9 b a d 0] := rfl
theorem encode_sltu (d a b : BitVec 5) : encode (.sltu d a b) = [Enc.a 10 b a d 0] := rfl
theorem encode_mul (d a b : BitVec 5) : encode (.mul d a b) = [Enc.a 11 b a d 0] := rfl
theorem encode_mulh (d a b : BitVec 5) : encode (.mulh d a b) = [Enc.a 12 b a d 0] := rfl
theorem encode_mulhu (d a b : BitVec 5) : encode (.mulhu d a b) = [Enc.a 13 b a d 0] := rfl
theorem encode_div (d a b : BitVec 5) : encode (.div d a b) = [Enc.a 14 b a d 0] := rfl
theorem encode_divu (d a b : BitVec 5) : encode (.divu d a b) = [Enc.a 15 b a d 0] := rfl
theorem encode_rem (d a b : BitVec 5) : encode (.rem d a b) = [Enc.a 16 b a d 0] := rfl
theorem encode_remu (d a b : BitVec 5) : encode (.remu d a b) = [Enc.a 17 b a d 0] := rfl
theorem encode_min (d a b : BitVec 5) : encode (.min d a b) = [Enc.a 18 b a d 0] := rfl
theorem encode_max (d a b : BitVec 5) : encode (.max d a b) = [Enc.a 19 b a d 0] := rfl
theorem encode_minu (d a b : BitVec 5) : encode (.minu d a b) = [Enc.a 20 b a d 0] := rfl
theorem encode_maxu (d a b : BitVec 5) : encode (.maxu d a b) = [Enc.a 21 b a d 0] := rfl
theorem encode_clz (d a : BitVec 5) : encode (.clz d a) = [Enc.a 22 0 a d 0] := rfl
theorem encode_ctz (d a : BitVec 5) : encode (.ctz d a) = [Enc.a 23 0 a d 0] := rfl
theorem encode_popc (d a : BitVec 5) : encode (.popc d a) = [Enc.a 24 0 a d 0] := rfl
theorem encode_sel (d a b : BitVec 5) : encode (.sel d a b) = [Enc.a 25 b a d 0] := rfl
theorem encode_addi (d a : BitVec 5) (imm : BitVec 14) : encode (.addi d a imm) = [Enc.i imm a d 1] := rfl
theorem encode_andi (d a : BitVec 5) (imm : BitVec 14) : encode (.andi d a imm) = [Enc.i imm a d 2] := rfl
theorem encode_ori (d a : BitVec 5) (imm : BitVec 14) : encode (.ori d a imm) = [Enc.i imm a d 3] := rfl
theorem encode_xori (d a : BitVec 5) (imm : BitVec 14) : encode (.xori d a imm) = [Enc.i imm a d 4] := rfl
theorem encode_slti (d a : BitVec 5) (imm : BitVec 14) : encode (.slti d a imm) = [Enc.i imm a d 5] := rfl
theorem encode_sltiu (d a : BitVec 5) (imm : BitVec 14) : encode (.sltiu d a imm) = [Enc.i imm a d 6] := rfl
theorem encode_slli (d a : BitVec 5) (amount : BitVec 6) : encode (.slli d a amount) = [Enc.i (0#6 ++ 0#2 ++ amount) a d 7] := rfl
theorem encode_srli (d a : BitVec 5) (amount : BitVec 6) : encode (.srli d a amount) = [Enc.i (0#6 ++ 1#2 ++ amount) a d 7] := rfl
theorem encode_srai (d a : BitVec 5) (amount : BitVec 6) : encode (.srai d a amount) = [Enc.i (0#6 ++ 2#2 ++ amount) a d 7] := rfl
theorem encode_beq (a b : BitVec 5) (off : BitVec 14) : encode (.beq a b off) = [Enc.i off b a 8] := rfl
theorem encode_bne (a b : BitVec 5) (off : BitVec 14) : encode (.bne a b off) = [Enc.i off b a 9] := rfl
theorem encode_blt (a b : BitVec 5) (off : BitVec 14) : encode (.blt a b off) = [Enc.i off b a 10] := rfl
theorem encode_bge (a b : BitVec 5) (off : BitVec 14) : encode (.bge a b off) = [Enc.i off b a 11] := rfl
theorem encode_bltu (a b : BitVec 5) (off : BitVec 14) : encode (.bltu a b off) = [Enc.i off b a 12] := rfl
theorem encode_bgeu (a b : BitVec 5) (off : BitVec 14) : encode (.bgeu a b off) = [Enc.i off b a 13] := rfl
theorem encode_jal (d : BitVec 5) (off : BitVec 19) : encode (.jal d off) = [Enc.j off d 14] := rfl
theorem encode_jalr (d a : BitVec 5) (imm : BitVec 14) : encode (.jalr d a imm) = [Enc.i imm a d 15] := rfl
theorem encode_loop (a : BitVec 5) (off : BitVec 14) : encode (.loop a off) = [Enc.i off 0 a 16] := rfl
theorem encode_fadd (dbl : Bool) (d a b : BitVec 5) : encode (.fadd dbl d a b) = [Enc.a (BitVec.ofBool dbl ++ 0#8) b a d 17] := rfl
theorem encode_fsub (dbl : Bool) (d a b : BitVec 5) : encode (.fsub dbl d a b) = [Enc.a (BitVec.ofBool dbl ++ 1#8) b a d 17] := rfl
theorem encode_fmul (dbl : Bool) (d a b : BitVec 5) : encode (.fmul dbl d a b) = [Enc.a (BitVec.ofBool dbl ++ 2#8) b a d 17] := rfl
theorem encode_fdiv (dbl : Bool) (d a b : BitVec 5) : encode (.fdiv dbl d a b) = [Enc.a (BitVec.ofBool dbl ++ 3#8) b a d 17] := rfl
theorem encode_fsqrt (dbl : Bool) (d a : BitVec 5) : encode (.fsqrt dbl d a) = [Enc.a (BitVec.ofBool dbl ++ 4#8) 0 a d 17] := rfl
theorem encode_fmin (dbl : Bool) (d a b : BitVec 5) : encode (.fmin dbl d a b) = [Enc.a (BitVec.ofBool dbl ++ 5#8) b a d 17] := rfl
theorem encode_fmax (dbl : Bool) (d a b : BitVec 5) : encode (.fmax dbl d a b) = [Enc.a (BitVec.ofBool dbl ++ 6#8) b a d 17] := rfl
theorem encode_fma (dbl : Bool) (d a b : BitVec 5) : encode (.fma dbl d a b) = [Enc.a (BitVec.ofBool dbl ++ 7#8) b a d 17] := rfl
theorem encode_feq (dbl : Bool) (d a b : BitVec 5) : encode (.feq dbl d a b) = [Enc.a (BitVec.ofBool dbl ++ 8#8) b a d 17] := rfl
theorem encode_flt (dbl : Bool) (d a b : BitVec 5) : encode (.flt dbl d a b) = [Enc.a (BitVec.ofBool dbl ++ 9#8) b a d 17] := rfl
theorem encode_fle (dbl : Bool) (d a b : BitVec 5) : encode (.fle dbl d a b) = [Enc.a (BitVec.ofBool dbl ++ 10#8) b a d 17] := rfl
theorem encode_fclass (dbl : Bool) (d a : BitVec 5) : encode (.fclass dbl d a) = [Enc.a (BitVec.ofBool dbl ++ 11#8) 0 a d 17] := rfl
theorem encode_fabs (dbl : Bool) (d a : BitVec 5) : encode (.fabs dbl d a) = [Enc.a (BitVec.ofBool dbl ++ 12#8) 0 a d 17] := rfl
theorem encode_fneg (dbl : Bool) (d a : BitVec 5) : encode (.fneg dbl d a) = [Enc.a (BitVec.ofBool dbl ++ 13#8) 0 a d 17] := rfl
theorem encode_fmvw (dbl : Bool) (d a : BitVec 5) : encode (.fmvw dbl d a) = [Enc.a (BitVec.ofBool dbl ++ 14#8) 0 a d 17] := rfl
theorem encode_fmvg (dbl : Bool) (d a : BitVec 5) : encode (.fmvg dbl d a) = [Enc.a (BitVec.ofBool dbl ++ 15#8) 0 a d 17] := rfl
theorem encode_fcvt (dbl : Bool) (d a : BitVec 5) : encode (.fcvt dbl d a) = [Enc.a (BitVec.ofBool dbl ++ 16#8) 0 a d 17] := rfl
theorem encode_fcvti (dbl : Bool) (d a : BitVec 5) : encode (.fcvti dbl d a) = [Enc.a (BitVec.ofBool dbl ++ 17#8) 0 a d 17] := rfl
theorem encode_fcvtf (dbl : Bool) (d a : BitVec 5) : encode (.fcvtf dbl d a) = [Enc.a (BitVec.ofBool dbl ++ 18#8) 0 a d 17] := rfl
theorem encode_faddLong (f : FFields) : encode (.faddLong f) = Enc.f 0 f := rfl
theorem encode_fsubLong (f : FFields) : encode (.fsubLong f) = Enc.f 1 f := rfl
theorem encode_fmulLong (f : FFields) : encode (.fmulLong f) = Enc.f 2 f := rfl
theorem encode_fdivLong (f : FFields) : encode (.fdivLong f) = Enc.f 3 f := rfl
theorem encode_fsqrtLong (f : FFields) : encode (.fsqrtLong f) = Enc.f 4 f := rfl
theorem encode_fminLong (f : FFields) : encode (.fminLong f) = Enc.f 5 f := rfl
theorem encode_fmaxLong (f : FFields) : encode (.fmaxLong f) = Enc.f 6 f := rfl
theorem encode_fmaLong (f : FFields) : encode (.fmaLong f) = Enc.f 7 f := rfl
theorem encode_feqLong (f : FFields) : encode (.feqLong f) = Enc.f 8 f := rfl
theorem encode_fltLong (f : FFields) : encode (.fltLong f) = Enc.f 9 f := rfl
theorem encode_fleLong (f : FFields) : encode (.fleLong f) = Enc.f 10 f := rfl
theorem encode_fclassLong (f : FFields) : encode (.fclassLong f) = Enc.f 11 f := rfl
theorem encode_fabsLong (f : FFields) : encode (.fabsLong f) = Enc.f 12 f := rfl
theorem encode_fnegLong (f : FFields) : encode (.fnegLong f) = Enc.f 13 f := rfl
theorem encode_fmvwLong (f : FFields) : encode (.fmvwLong f) = Enc.f 14 f := rfl
theorem encode_fmvgLong (f : FFields) : encode (.fmvgLong f) = Enc.f 15 f := rfl
theorem encode_fcvtLong (f : FFields) : encode (.fcvtLong f) = Enc.f 16 f := rfl
theorem encode_fcvtiLong (f : FFields) : encode (.fcvtiLong f) = Enc.f 17 f := rfl
theorem encode_fcvtfLong (f : FFields) : encode (.fcvtfLong f) = Enc.f 18 f := rfl
theorem encode_sysr (d : BitVec 5) (num : BitVec 10) : encode (.sysr d num) = [Enc.s num 0 0 d 18] := rfl
theorem encode_sysw (d a : BitVec 5) (num : BitVec 10) : encode (.sysw d a num) = [Enc.s num 1 a d 18] := rfl
theorem encode_syss (d a : BitVec 5) (num : BitVec 10) : encode (.syss d a num) = [Enc.s num 2 a d 18] := rfl
theorem encode_sysc (d a : BitVec 5) (num : BitVec 10) : encode (.sysc d a num) = [Enc.s num 3 a d 18] := rfl
theorem encode_trap (code : BitVec 10) : encode (.trap code) = [Enc.s code 4 0 0 18] := rfl
theorem encode_brk (code : BitVec 10) : encode (.brk code) = [Enc.s code 5 0 0 18] := rfl
theorem encode_xret : encode .xret = [Enc.s 0 6 0 0 18] := rfl
theorem encode_idle (n : BitVec 10) : encode (.idle n) = [Enc.s n 7 0 0 18] := rfl
theorem encode_ifence (a : BitVec 5) : encode (.ifence a) = [Enc.s 0 8 a 0 18] := rfl
theorem encode_yield : encode .yield = [Enc.s 0 9 0 0 18] := rfl
theorem encode_pmark (a : BitVec 5) (code : BitVec 10) : encode (.pmark a code) = [Enc.s code 10 a 0 18] := rfl
theorem encode_svc (code : BitVec 10) : encode (.svc code) = [Enc.s code 11 0 0 18] := rfl
theorem encode_exit (d : BitVec 5) : encode (.exit d) = [Enc.s 0 12 0 d 18] := rfl
theorem encode_cmov (d a : BitVec 5) : encode (.cmov d a) = [Enc.a 0 0 a d 19] := rfl
theorem encode_cgetb (d a : BitVec 5) : encode (.cgetb d a) = [Enc.a 1 0 a d 19] := rfl
theorem encode_cgete (d a k : BitVec 5) : encode (.cgete d a k) = [Enc.a 2 k a d 19] := rfl
theorem encode_cgets (d a k : BitVec 5) : encode (.cgets d a k) = [Enc.a 3 k a d 19] := rfl
theorem encode_cgetf (d a : BitVec 5) : encode (.cgetf d a) = [Enc.a 4 0 a d 19] := rfl
theorem encode_cgetp (d a : BitVec 5) : encode (.cgetp d a) = [Enc.a 5 0 a d 19] := rfl
theorem encode_cgetl (d a : BitVec 5) : encode (.cgetl d a) = [Enc.a 6 0 a d 19] := rfl
theorem encode_ctag (d a : BitVec 5) : encode (.ctag d a) = [Enc.a 7 0 a d 19] := rfl
theorem encode_cclr (d : BitVec 5) : encode (.cclr d) = [Enc.a 8 0 0 d 19] := rfl
theorem encode_cperm (d a b : BitVec 5) : encode (.cperm d a b) = [Enc.a 9 b a d 19] := rfl
theorem encode_cfmt (d a b : BitVec 5) : encode (.cfmt d a b) = [Enc.a 10 b a d 19] := rfl
theorem encode_cshut (d a b : BitVec 5) : encode (.cshut d a b) = [Enc.a 11 b a d 19] := rfl
theorem encode_copen (d a b : BitVec 5) : encode (.copen d a b) = [Enc.a 12 b a d 19] := rfl
theorem encode_xsync (d : BitVec 5) (level : BitVec 3) : encode (.xsync d level) = [Enc.s (0#7 ++ level) 0 0 d 20] := rfl
theorem encode_fence (mode : BitVec 2) : encode (.fence mode) = [Enc.s (0#8 ++ mode) 1 0 0 20] := rfl
theorem encode_fmadd2 (dbl : Bool) (d a b : BitVec 5) : encode (.fmadd2 dbl d a b) = [Enc.a (BitVec.ofBool dbl ++ 0#8) b a d 40] := rfl
theorem encode_ctwaitx (f : QFields) : encode (.ctwaitx f) = Enc.q 0 40 f := rfl
theorem encode_addil (d a : BitVec 5) (imm : BitVec 32) : encode (.addil d a imm) = [Enc.x 0 0 a d 0, imm] := rfl
theorem encode_andil (d a : BitVec 5) (imm : BitVec 32) : encode (.andil d a imm) = [Enc.x 1 0 a d 0, imm] := rfl
theorem encode_oril (d a : BitVec 5) (imm : BitVec 32) : encode (.oril d a imm) = [Enc.x 2 0 a d 0, imm] := rfl
theorem encode_xoril (d a : BitVec 5) (imm : BitVec 32) : encode (.xoril d a imm) = [Enc.x 3 0 a d 0, imm] := rfl
theorem encode_li (d : BitVec 5) (imm : BitVec 32) : encode (.li d imm) = [Enc.x 4 0 0 d 0, imm] := rfl
theorem encode_lih (d a : BitVec 5) (imm : BitVec 32) : encode (.lih d a imm) = [Enc.x 5 0 a d 0, imm] := rfl
theorem encode_lil (d : BitVec 5) (imm : BitVec 64) : encode (.lil d imm) = Enc.l d imm := rfl
theorem encode_ld (f : MFields) : encode (.ld f) = Enc.m 0 1 f := rfl
theorem encode_st (f : MFields) : encode (.st f) = Enc.m 1 1 f := rfl
theorem encode_ldc (f : MFields) : encode (.ldc f) = Enc.m 2 1 f := rfl
theorem encode_stc (f : MFields) : encode (.stc f) = Enc.m 3 1 f := rfl
theorem encode_pref (f : MFields) : encode (.pref f) = Enc.m 4 1 f := rfl
theorem encode_ldw (f : MFields) : encode (.ldw f) = Enc.m 5 1 f := rfl
theorem encode_stw (f : MFields) : encode (.stw f) = Enc.m 6 1 f := rfl
theorem encode_aadd (f : MFields) : encode (.aadd f) = Enc.m 0 2 f := rfl
theorem encode_aand (f : MFields) : encode (.aand f) = Enc.m 1 2 f := rfl
theorem encode_aor (f : MFields) : encode (.aor f) = Enc.m 2 2 f := rfl
theorem encode_axor (f : MFields) : encode (.axor f) = Enc.m 3 2 f := rfl
theorem encode_amin (f : MFields) : encode (.amin f) = Enc.m 4 2 f := rfl
theorem encode_amax (f : MFields) : encode (.amax f) = Enc.m 5 2 f := rfl
theorem encode_aminu (f : MFields) : encode (.aminu f) = Enc.m 6 2 f := rfl
theorem encode_amaxu (f : MFields) : encode (.amaxu f) = Enc.m 7 2 f := rfl
theorem encode_aswap (f : MFields) : encode (.aswap f) = Enc.m 8 2 f := rfl
theorem encode_acas (f : MFields) : encode (.acas f) = Enc.m 9 2 f := rfl
theorem encode_afadd (f : MFields) : encode (.afadd f) = Enc.m 10 2 f := rfl
theorem encode_ctadd (f : QFields) : encode (.ctadd f) = Enc.q 0 3 f := rfl
theorem encode_ctwait (f : QFields) : encode (.ctwait f) = Enc.q 1 3 f := rfl
theorem encode_ctread (f : QFields) : encode (.ctread f) = Enc.q 2 3 f := rfl
theorem encode_cttry (f : QFields) : encode (.cttry f) = Enc.q 3 3 f := rfl
theorem encode_binit (f : QFields) : encode (.binit f) = Enc.q 8 3 f := rfl
theorem encode_barrive (f : QFields) : encode (.barrive f) = Enc.q 9 3 f := rfl
theorem encode_bwait (f : QFields) : encode (.bwait f) = Enc.q 10 3 f := rfl
theorem encode_barwait (f : QFields) : encode (.barwait f) = Enc.q 11 3 f := rfl
theorem encode_sbind (f : QFields) : encode (.sbind f) = Enc.q 16 3 f := rfl
theorem encode_sunbind (f : QFields) : encode (.sunbind f) = Enc.q 17 3 f := rfl
theorem encode_send (f : QFields) : encode (.send f) = Enc.q 0 4 f := rfl
theorem encode_recv (f : QFields) : encode (.recv f) = Enc.q 1 4 f := rfl
theorem encode_recvt (f : QFields) : encode (.recvt f) = Enc.q 2 4 f := rfl
theorem encode_ksend (f : QFields) : encode (.ksend f) = Enc.q 3 4 f := rfl
theorem encode_radv (f : QFields) : encode (.radv f) = Enc.q 4 4 f := rfl
theorem encode_nbpost (f : QFields) : encode (.nbpost f) = Enc.q 0 5 f := rfl
theorem encode_nbview (f : QFields) : encode (.nbview f) = Enc.q 1 5 f := rfl
theorem encode_nbinit (f : QFields) : encode (.nbinit f) = Enc.q 2 5 f := rfl
theorem encode_nbslot (f : QFields) : encode (.nbslot f) = Enc.q 3 5 f := rfl
theorem encode_tclaim (f : QFields) : encode (.tclaim f) = Enc.q 0 6 f := rfl
theorem encode_tdone (f : QFields) : encode (.tdone f) = Enc.q 1 6 f := rfl
theorem encode_thand (f : QFields) : encode (.thand f) = Enc.q 2 6 f := rfl
theorem encode_schedw (f : QFields) : encode (.schedw f) = Enc.q 3 6 f := rfl
theorem encode_schedr (f : QFields) : encode (.schedr f) = Enc.q 4 6 f := rfl
theorem encode_cslice (f : CFields) : encode (.cslice f) = Enc.c 0 f := rfl
theorem encode_cslicei (f : CFields) : encode (.cslicei f) = Enc.c 1 f := rfl
theorem encode_crank (f : CFields) : encode (.crank f) = Enc.c 2 f := rfl
theorem encode_cstep (f : CFields) : encode (.cstep f) = Enc.c 3 f := rfl
theorem encode_cfix (f : CFields) : encode (.cfix f) = Enc.c 4 f := rfl
theorem encode_cfree (f : CFields) : encode (.cfree f) = Enc.c 5 f := rfl
theorem encode_clease (f : CFields) : encode (.clease f) = Enc.c 6 f := rfl
theorem encode_center (f : KFields) : encode (.center f) = Enc.k f := rfl
theorem encode_vadd (f : VFields) : encode (.vadd f) = Enc.v 0 0 f := rfl
theorem encode_vsub (f : VFields) : encode (.vsub f) = Enc.v 0 1 f := rfl
theorem encode_vmul (f : VFields) : encode (.vmul f) = Enc.v 0 2 f := rfl
theorem encode_vmin (f : VFields) : encode (.vmin f) = Enc.v 0 3 f := rfl
theorem encode_vmax (f : VFields) : encode (.vmax f) = Enc.v 0 4 f := rfl
theorem encode_vand (f : VFields) : encode (.vand f) = Enc.v 0 5 f := rfl
theorem encode_vor (f : VFields) : encode (.vor f) = Enc.v 0 6 f := rfl
theorem encode_vxor (f : VFields) : encode (.vxor f) = Enc.v 0 7 f := rfl
theorem encode_vshl (f : VFields) : encode (.vshl f) = Enc.v 0 8 f := rfl
theorem encode_vshr (f : VFields) : encode (.vshr f) = Enc.v 0 9 f := rfl
theorem encode_vsra (f : VFields) : encode (.vsra f) = Enc.v 0 10 f := rfl
theorem encode_vfma (f : VFields) : encode (.vfma f) = Enc.v 1 0 f := rfl
theorem encode_vfms (f : VFields) : encode (.vfms f) = Enc.v 1 1 f := rfl
theorem encode_vabs (f : VFields) : encode (.vabs f) = Enc.v 2 0 f := rfl
theorem encode_vneg (f : VFields) : encode (.vneg f) = Enc.v 2 1 f := rfl
theorem encode_vmov (f : VFields) : encode (.vmov f) = Enc.v 2 2 f := rfl
theorem encode_vcvt (f : VFields) : encode (.vcvt f) = Enc.v 2 3 f := rfl
theorem encode_vexp2 (f : VFields) : encode (.vexp2 f) = Enc.v 3 0 f := rfl
theorem encode_vlog2 (f : VFields) : encode (.vlog2 f) = Enc.v 3 1 f := rfl
theorem encode_vrcp (f : VFields) : encode (.vrcp f) = Enc.v 3 2 f := rfl
theorem encode_vrsq (f : VFields) : encode (.vrsq f) = Enc.v 3 3 f := rfl
theorem encode_vtanh (f : VFields) : encode (.vtanh f) = Enc.v 3 4 f := rfl
theorem encode_vcmp (f : VFields) : encode (.vcmp f) = Enc.v 4 0 f := rfl
theorem encode_vsel (f : VFields) : encode (.vsel f) = Enc.v 4 1 f := rfl
theorem encode_vred (f : VFields) : encode (.vred f) = Enc.v 5 0 f := rfl
theorem encode_vscan (f : VFields) : encode (.vscan f) = Enc.v 5 1 f := rfl
theorem encode_vtrans (f : VFields) : encode (.vtrans f) = Enc.v 6 0 f := rfl
theorem encode_vbcast (f : VFields) : encode (.vbcast f) = Enc.v 6 1 f := rfl
theorem encode_vshuf (f : VFields) : encode (.vshuf f) = Enc.v 6 2 f := rfl
theorem encode_vrot (f : VFields) : encode (.vrot f) = Enc.v 6 3 f := rfl
theorem encode_vins (f : VFields) : encode (.vins f) = Enc.v 7 0 f := rfl
theorem encode_vext (f : VFields) : encode (.vext f) = Enc.v 7 1 f := rfl
theorem encode_vmand (f : VFields) : encode (.vmand f) = Enc.v 8 0 f := rfl
theorem encode_vmor (f : VFields) : encode (.vmor f) = Enc.v 8 1 f := rfl
theorem encode_vmnot (f : VFields) : encode (.vmnot f) = Enc.v 8 2 f := rfl
theorem encode_vmpop (f : VFields) : encode (.vmpop f) = Enc.v 8 3 f := rfl
theorem encode_vplanes (f : VFields) : encode (.vplanes f) = Enc.v 9 0 f := rfl
theorem encode_vunplane (f : VFields) : encode (.vunplane f) = Enc.v 9 1 f := rfl
theorem encode_vbarq (f : VFields) : encode (.vbarq f) = Enc.v 10 0 f := rfl
theorem encode_vld (f : MFields) : encode (.vld f) = Enc.m 0 9 f := rfl
theorem encode_vst (f : MFields) : encode (.vst f) = Enc.m 1 9 f := rfl
theorem encode_vgather (f : MFields) : encode (.vgather f) = Enc.m 2 9 f := rfl
theorem encode_vscatter (f : MFields) : encode (.vscatter f) = Enc.m 3 9 f := rfl
theorem encode_vshape (d a : BitVec 5) (imm : BitVec 32) : encode (.vshape d a imm) = [Enc.x 0 0 a d 10, imm] := rfl
theorem encode_swadd (f : WFields) : encode (.swadd f) = Enc.w 0 f := rfl
theorem encode_swsub (f : WFields) : encode (.swsub f) = Enc.w 1 f := rfl
theorem encode_swmul (f : WFields) : encode (.swmul f) = Enc.w 2 f := rfl
theorem encode_swmin (f : WFields) : encode (.swmin f) = Enc.w 3 f := rfl
theorem encode_swmax (f : WFields) : encode (.swmax f) = Enc.w 4 f := rfl
theorem encode_swfma (f : WFields) : encode (.swfma f) = Enc.w 5 f := rfl
theorem encode_swcvt (f : WFields) : encode (.swcvt f) = Enc.w 6 f := rfl
theorem encode_swcopy (f : WFields) : encode (.swcopy f) = Enc.w 7 f := rfl
theorem encode_swbarq (f : WFields) : encode (.swbarq f) = Enc.w 8 f := rfl
theorem encode_ecmd (f : QFields) : encode (.ecmd f) = Enc.q 0 11 f := rfl
theorem encode_ewait (f : QFields) : encode (.ewait f) = Enc.q 1 11 f := rfl
theorem encode_mwfetch (f : MQFields) : encode (.mwfetch f) = Enc.mq 0 f := rfl
theorem encode_mwload (f : MQFields) : encode (.mwload f) = Enc.mq 1 f := rfl
theorem encode_mwswap (f : MQFields) : encode (.mwswap f) = Enc.mq 2 f := rfl
theorem encode_mgwait (f : MQFields) : encode (.mgwait f) = Enc.mq 3 f := rfl
theorem encode_mgadv (f : MQFields) : encode (.mgadv f) = Enc.mq 4 f := rfl
theorem encode_mgread (f : MQFields) : encode (.mgread f) = Enc.mq 5 f := rfl
theorem encode_mstream (f : GFields) : encode (.mstream f) = Enc.g f := rfl
theorem encode_spawn (f : QFields) : encode (.spawn f) = Enc.q 0 13 f := rfl
theorem encode_xplan (f : QFields) : encode (.xplan f) = Enc.q 1 13 f := rfl

end Sys2Proof
end

