-- ==== Sys2Proof/Laws/Exec.lean ====
section
/-! SUPPORT. The meaning that each arm of `exec` calls. -/

namespace Sys2Proof.Machine

@[simp] theorem exec_add (d a b : BitVec 5) (s : State) : exec (.add d a b) s = execAdd d a b s := rfl
@[simp] theorem exec_sub (d a b : BitVec 5) (s : State) : exec (.sub d a b) s = execSub d a b s := rfl
@[simp] theorem exec_and (d a b : BitVec 5) (s : State) : exec (.and d a b) s = execAnd d a b s := rfl
@[simp] theorem exec_or (d a b : BitVec 5) (s : State) : exec (.or d a b) s = execOr d a b s := rfl
@[simp] theorem exec_xor (d a b : BitVec 5) (s : State) : exec (.xor d a b) s = execXor d a b s := rfl
@[simp] theorem exec_andn (d a b : BitVec 5) (s : State) : exec (.andn d a b) s = execAndn d a b s := rfl
@[simp] theorem exec_sll (d a b : BitVec 5) (s : State) : exec (.sll d a b) s = execSll d a b s := rfl
@[simp] theorem exec_srl (d a b : BitVec 5) (s : State) : exec (.srl d a b) s = execSrl d a b s := rfl
@[simp] theorem exec_sra (d a b : BitVec 5) (s : State) : exec (.sra d a b) s = execSra d a b s := rfl
@[simp] theorem exec_slt (d a b : BitVec 5) (s : State) : exec (.slt d a b) s = execSlt d a b s := rfl
@[simp] theorem exec_sltu (d a b : BitVec 5) (s : State) : exec (.sltu d a b) s = execSltu d a b s := rfl
@[simp] theorem exec_mul (d a b : BitVec 5) (s : State) : exec (.mul d a b) s = execMul d a b s := rfl
@[simp] theorem exec_mulh (d a b : BitVec 5) (s : State) : exec (.mulh d a b) s = execMulh d a b s := rfl
@[simp] theorem exec_mulhu (d a b : BitVec 5) (s : State) : exec (.mulhu d a b) s = execMulhu d a b s := rfl
@[simp] theorem exec_div (d a b : BitVec 5) (s : State) : exec (.div d a b) s = execDiv d a b s := rfl
@[simp] theorem exec_divu (d a b : BitVec 5) (s : State) : exec (.divu d a b) s = execDivu d a b s := rfl
@[simp] theorem exec_rem (d a b : BitVec 5) (s : State) : exec (.rem d a b) s = execRem d a b s := rfl
@[simp] theorem exec_remu (d a b : BitVec 5) (s : State) : exec (.remu d a b) s = execRemu d a b s := rfl
@[simp] theorem exec_min (d a b : BitVec 5) (s : State) : exec (.min d a b) s = execMin d a b s := rfl
@[simp] theorem exec_max (d a b : BitVec 5) (s : State) : exec (.max d a b) s = execMax d a b s := rfl
@[simp] theorem exec_minu (d a b : BitVec 5) (s : State) : exec (.minu d a b) s = execMinu d a b s := rfl
@[simp] theorem exec_maxu (d a b : BitVec 5) (s : State) : exec (.maxu d a b) s = execMaxu d a b s := rfl
@[simp] theorem exec_clz (d a : BitVec 5) (s : State) : exec (.clz d a) s = execClz d a s := rfl
@[simp] theorem exec_ctz (d a : BitVec 5) (s : State) : exec (.ctz d a) s = execCtz d a s := rfl
@[simp] theorem exec_popc (d a : BitVec 5) (s : State) : exec (.popc d a) s = execPopc d a s := rfl
@[simp] theorem exec_sel (d a b : BitVec 5) (s : State) : exec (.sel d a b) s = execSel d a b s := rfl
@[simp] theorem exec_addi (d a : BitVec 5) (imm : BitVec 14) (s : State) : exec (.addi d a imm) s = execAddi d a imm s := rfl
@[simp] theorem exec_andi (d a : BitVec 5) (imm : BitVec 14) (s : State) : exec (.andi d a imm) s = execAndi d a imm s := rfl
@[simp] theorem exec_ori (d a : BitVec 5) (imm : BitVec 14) (s : State) : exec (.ori d a imm) s = execOri d a imm s := rfl
@[simp] theorem exec_xori (d a : BitVec 5) (imm : BitVec 14) (s : State) : exec (.xori d a imm) s = execXori d a imm s := rfl
@[simp] theorem exec_slti (d a : BitVec 5) (imm : BitVec 14) (s : State) : exec (.slti d a imm) s = execSlti d a imm s := rfl
@[simp] theorem exec_sltiu (d a : BitVec 5) (imm : BitVec 14) (s : State) : exec (.sltiu d a imm) s = execSltiu d a imm s := rfl
@[simp] theorem exec_slli (d a : BitVec 5) (amount : BitVec 6) (s : State) : exec (.slli d a amount) s = execSlli d a amount s := rfl
@[simp] theorem exec_srli (d a : BitVec 5) (amount : BitVec 6) (s : State) : exec (.srli d a amount) s = execSrli d a amount s := rfl
@[simp] theorem exec_srai (d a : BitVec 5) (amount : BitVec 6) (s : State) : exec (.srai d a amount) s = execSrai d a amount s := rfl
@[simp] theorem exec_beq (a b : BitVec 5) (off : BitVec 14) (s : State) : exec (.beq a b off) s = execBeq a b off s := rfl
@[simp] theorem exec_bne (a b : BitVec 5) (off : BitVec 14) (s : State) : exec (.bne a b off) s = execBne a b off s := rfl
@[simp] theorem exec_blt (a b : BitVec 5) (off : BitVec 14) (s : State) : exec (.blt a b off) s = execBlt a b off s := rfl
@[simp] theorem exec_bge (a b : BitVec 5) (off : BitVec 14) (s : State) : exec (.bge a b off) s = execBge a b off s := rfl
@[simp] theorem exec_bltu (a b : BitVec 5) (off : BitVec 14) (s : State) : exec (.bltu a b off) s = execBltu a b off s := rfl
@[simp] theorem exec_bgeu (a b : BitVec 5) (off : BitVec 14) (s : State) : exec (.bgeu a b off) s = execBgeu a b off s := rfl
@[simp] theorem exec_jal (d : BitVec 5) (off : BitVec 19) (s : State) : exec (.jal d off) s = execJal d off s := rfl
@[simp] theorem exec_jalr (d a : BitVec 5) (imm : BitVec 14) (s : State) : exec (.jalr d a imm) s = execJalr d a imm s := rfl
@[simp] theorem exec_loop (a : BitVec 5) (off : BitVec 14) (s : State) : exec (.loop a off) s = execLoop a off s := rfl
@[simp] theorem exec_fadd (dbl : Bool) (d a b : BitVec 5) (s : State) : exec (.fadd dbl d a b) s = execFadd dbl d a b s := rfl
@[simp] theorem exec_fsub (dbl : Bool) (d a b : BitVec 5) (s : State) : exec (.fsub dbl d a b) s = execFsub dbl d a b s := rfl
@[simp] theorem exec_fmul (dbl : Bool) (d a b : BitVec 5) (s : State) : exec (.fmul dbl d a b) s = execFmul dbl d a b s := rfl
@[simp] theorem exec_fdiv (dbl : Bool) (d a b : BitVec 5) (s : State) : exec (.fdiv dbl d a b) s = execFdiv dbl d a b s := rfl
@[simp] theorem exec_fsqrt (dbl : Bool) (d a : BitVec 5) (s : State) : exec (.fsqrt dbl d a) s = execFsqrt dbl d a s := rfl
@[simp] theorem exec_fmin (dbl : Bool) (d a b : BitVec 5) (s : State) : exec (.fmin dbl d a b) s = execFmin dbl d a b s := rfl
@[simp] theorem exec_fmax (dbl : Bool) (d a b : BitVec 5) (s : State) : exec (.fmax dbl d a b) s = execFmax dbl d a b s := rfl
@[simp] theorem exec_fma (dbl : Bool) (d a b : BitVec 5) (s : State) : exec (.fma dbl d a b) s = execFma dbl d a b s := rfl
@[simp] theorem exec_feq (dbl : Bool) (d a b : BitVec 5) (s : State) : exec (.feq dbl d a b) s = execFeq dbl d a b s := rfl
@[simp] theorem exec_flt (dbl : Bool) (d a b : BitVec 5) (s : State) : exec (.flt dbl d a b) s = execFlt dbl d a b s := rfl
@[simp] theorem exec_fle (dbl : Bool) (d a b : BitVec 5) (s : State) : exec (.fle dbl d a b) s = execFle dbl d a b s := rfl
@[simp] theorem exec_fclass (dbl : Bool) (d a : BitVec 5) (s : State) : exec (.fclass dbl d a) s = execFclass dbl d a s := rfl
@[simp] theorem exec_fabs (dbl : Bool) (d a : BitVec 5) (s : State) : exec (.fabs dbl d a) s = execFabs dbl d a s := rfl
@[simp] theorem exec_fneg (dbl : Bool) (d a : BitVec 5) (s : State) : exec (.fneg dbl d a) s = execFneg dbl d a s := rfl
@[simp] theorem exec_fmvw (dbl : Bool) (d a : BitVec 5) (s : State) : exec (.fmvw dbl d a) s = execFmvw dbl d a s := rfl
@[simp] theorem exec_fmvg (dbl : Bool) (d a : BitVec 5) (s : State) : exec (.fmvg dbl d a) s = execFmvg dbl d a s := rfl
@[simp] theorem exec_fcvt (dbl : Bool) (d a : BitVec 5) (s : State) : exec (.fcvt dbl d a) s = execFcvt dbl d a s := rfl
@[simp] theorem exec_fcvti (dbl : Bool) (d a : BitVec 5) (s : State) : exec (.fcvti dbl d a) s = execFcvti dbl d a s := rfl
@[simp] theorem exec_fcvtf (dbl : Bool) (d a : BitVec 5) (s : State) : exec (.fcvtf dbl d a) s = execFcvtf dbl d a s := rfl
@[simp] theorem exec_faddLong (f : FFields) (s : State) : exec (.faddLong f) s = execFaddLong f s := rfl
@[simp] theorem exec_fsubLong (f : FFields) (s : State) : exec (.fsubLong f) s = execFsubLong f s := rfl
@[simp] theorem exec_fmulLong (f : FFields) (s : State) : exec (.fmulLong f) s = execFmulLong f s := rfl
@[simp] theorem exec_fdivLong (f : FFields) (s : State) : exec (.fdivLong f) s = execFdivLong f s := rfl
@[simp] theorem exec_fsqrtLong (f : FFields) (s : State) : exec (.fsqrtLong f) s = execFsqrtLong f s := rfl
@[simp] theorem exec_fminLong (f : FFields) (s : State) : exec (.fminLong f) s = execFminLong f s := rfl
@[simp] theorem exec_fmaxLong (f : FFields) (s : State) : exec (.fmaxLong f) s = execFmaxLong f s := rfl
@[simp] theorem exec_fmaLong (f : FFields) (s : State) : exec (.fmaLong f) s = execFmaLong f s := rfl
@[simp] theorem exec_feqLong (f : FFields) (s : State) : exec (.feqLong f) s = execFeqLong f s := rfl
@[simp] theorem exec_fltLong (f : FFields) (s : State) : exec (.fltLong f) s = execFltLong f s := rfl
@[simp] theorem exec_fleLong (f : FFields) (s : State) : exec (.fleLong f) s = execFleLong f s := rfl
@[simp] theorem exec_fclassLong (f : FFields) (s : State) : exec (.fclassLong f) s = execFclassLong f s := rfl
@[simp] theorem exec_fabsLong (f : FFields) (s : State) : exec (.fabsLong f) s = execFabsLong f s := rfl
@[simp] theorem exec_fnegLong (f : FFields) (s : State) : exec (.fnegLong f) s = execFnegLong f s := rfl
@[simp] theorem exec_fmvwLong (f : FFields) (s : State) : exec (.fmvwLong f) s = execFmvwLong f s := rfl
@[simp] theorem exec_fmvgLong (f : FFields) (s : State) : exec (.fmvgLong f) s = execFmvgLong f s := rfl
@[simp] theorem exec_fcvtLong (f : FFields) (s : State) : exec (.fcvtLong f) s = execFcvtLong f s := rfl
@[simp] theorem exec_fcvtiLong (f : FFields) (s : State) : exec (.fcvtiLong f) s = execFcvtiLong f s := rfl
@[simp] theorem exec_fcvtfLong (f : FFields) (s : State) : exec (.fcvtfLong f) s = execFcvtfLong f s := rfl
@[simp] theorem exec_sysr (d : BitVec 5) (num : BitVec 10) (s : State) : exec (.sysr d num) s = execSysr d num s := rfl
@[simp] theorem exec_sysw (d a : BitVec 5) (num : BitVec 10) (s : State) : exec (.sysw d a num) s = execSysw d a num s := rfl
@[simp] theorem exec_syss (d a : BitVec 5) (num : BitVec 10) (s : State) : exec (.syss d a num) s = execSyss d a num s := rfl
@[simp] theorem exec_sysc (d a : BitVec 5) (num : BitVec 10) (s : State) : exec (.sysc d a num) s = execSysc d a num s := rfl
@[simp] theorem exec_trap (code : BitVec 10) (s : State) : exec (.trap code) s = execTrap code s := rfl
@[simp] theorem exec_brk (code : BitVec 10) (s : State) : exec (.brk code) s = execBrk code s := rfl
@[simp] theorem exec_xret (s : State) : exec .xret s = execXret s := rfl
@[simp] theorem exec_idle (n : BitVec 10) (s : State) : exec (.idle n) s = execIdle n s := rfl
@[simp] theorem exec_ifence (a : BitVec 5) (s : State) : exec (.ifence a) s = execIfence a s := rfl
@[simp] theorem exec_yield (s : State) : exec .yield s = execYield s := rfl
@[simp] theorem exec_pmark (a : BitVec 5) (code : BitVec 10) (s : State) : exec (.pmark a code) s = execPmark a code s := rfl
@[simp] theorem exec_svc (code : BitVec 10) (s : State) : exec (.svc code) s = execSvc code s := rfl
@[simp] theorem exec_exit (d : BitVec 5) (s : State) : exec (.exit d) s = execExit d s := rfl
@[simp] theorem exec_cmov (d a : BitVec 5) (s : State) : exec (.cmov d a) s = execCmov d a s := rfl
@[simp] theorem exec_cgetb (d a : BitVec 5) (s : State) : exec (.cgetb d a) s = execCgetb d a s := rfl
@[simp] theorem exec_cgete (d a k : BitVec 5) (s : State) : exec (.cgete d a k) s = execCgete d a k s := rfl
@[simp] theorem exec_cgets (d a k : BitVec 5) (s : State) : exec (.cgets d a k) s = execCgets d a k s := rfl
@[simp] theorem exec_cgetf (d a : BitVec 5) (s : State) : exec (.cgetf d a) s = execCgetf d a s := rfl
@[simp] theorem exec_cgetp (d a : BitVec 5) (s : State) : exec (.cgetp d a) s = execCgetp d a s := rfl
@[simp] theorem exec_cgetl (d a : BitVec 5) (s : State) : exec (.cgetl d a) s = execCgetl d a s := rfl
@[simp] theorem exec_ctag (d a : BitVec 5) (s : State) : exec (.ctag d a) s = execCtag d a s := rfl
@[simp] theorem exec_cclr (d : BitVec 5) (s : State) : exec (.cclr d) s = execCclr d s := rfl
@[simp] theorem exec_cperm (d a b : BitVec 5) (s : State) : exec (.cperm d a b) s = execCperm d a b s := rfl
@[simp] theorem exec_cfmt (d a b : BitVec 5) (s : State) : exec (.cfmt d a b) s = execCfmt d a b s := rfl
@[simp] theorem exec_cshut (d a b : BitVec 5) (s : State) : exec (.cshut d a b) s = execCshut d a b s := rfl
@[simp] theorem exec_copen (d a b : BitVec 5) (s : State) : exec (.copen d a b) s = execCopen d a b s := rfl
@[simp] theorem exec_xsync (d : BitVec 5) (level : BitVec 3) (s : State) : exec (.xsync d level) s = execXsync d level s := rfl
@[simp] theorem exec_fence (mode : BitVec 2) (s : State) : exec (.fence mode) s = execFence mode s := rfl
@[simp] theorem exec_fmadd2 (dbl : Bool) (d a b : BitVec 5) (s : State) : exec (.fmadd2 dbl d a b) s = execFmadd2 dbl d a b s := rfl
@[simp] theorem exec_ctwaitx (f : QFields) (s : State) : exec (.ctwaitx f) s = execCtwaitx f s := rfl
@[simp] theorem exec_addil (d a : BitVec 5) (imm : BitVec 32) (s : State) : exec (.addil d a imm) s = execAddil d a imm s := rfl
@[simp] theorem exec_andil (d a : BitVec 5) (imm : BitVec 32) (s : State) : exec (.andil d a imm) s = execAndil d a imm s := rfl
@[simp] theorem exec_oril (d a : BitVec 5) (imm : BitVec 32) (s : State) : exec (.oril d a imm) s = execOril d a imm s := rfl
@[simp] theorem exec_xoril (d a : BitVec 5) (imm : BitVec 32) (s : State) : exec (.xoril d a imm) s = execXoril d a imm s := rfl
@[simp] theorem exec_li (d : BitVec 5) (imm : BitVec 32) (s : State) : exec (.li d imm) s = execLi d imm s := rfl
@[simp] theorem exec_lih (d a : BitVec 5) (imm : BitVec 32) (s : State) : exec (.lih d a imm) s = execLih d a imm s := rfl
@[simp] theorem exec_lil (d : BitVec 5) (imm : BitVec 64) (s : State) : exec (.lil d imm) s = execLil d imm s := rfl
@[simp] theorem exec_ld (f : MFields) (s : State) : exec (.ld f) s = execLd f s := rfl
@[simp] theorem exec_st (f : MFields) (s : State) : exec (.st f) s = execSt f s := rfl
@[simp] theorem exec_ldc (f : MFields) (s : State) : exec (.ldc f) s = execLdc f s := rfl
@[simp] theorem exec_stc (f : MFields) (s : State) : exec (.stc f) s = execStc f s := rfl
@[simp] theorem exec_pref (f : MFields) (s : State) : exec (.pref f) s = execPref f s := rfl
@[simp] theorem exec_ldw (f : MFields) (s : State) : exec (.ldw f) s = execLdw f s := rfl
@[simp] theorem exec_stw (f : MFields) (s : State) : exec (.stw f) s = execStw f s := rfl
@[simp] theorem exec_aadd (f : MFields) (s : State) : exec (.aadd f) s = execAadd f s := rfl
@[simp] theorem exec_aand (f : MFields) (s : State) : exec (.aand f) s = execAand f s := rfl
@[simp] theorem exec_aor (f : MFields) (s : State) : exec (.aor f) s = execAor f s := rfl
@[simp] theorem exec_axor (f : MFields) (s : State) : exec (.axor f) s = execAxor f s := rfl
@[simp] theorem exec_amin (f : MFields) (s : State) : exec (.amin f) s = execAmin f s := rfl
@[simp] theorem exec_amax (f : MFields) (s : State) : exec (.amax f) s = execAmax f s := rfl
@[simp] theorem exec_aminu (f : MFields) (s : State) : exec (.aminu f) s = execAminu f s := rfl
@[simp] theorem exec_amaxu (f : MFields) (s : State) : exec (.amaxu f) s = execAmaxu f s := rfl
@[simp] theorem exec_aswap (f : MFields) (s : State) : exec (.aswap f) s = execAswap f s := rfl
@[simp] theorem exec_acas (f : MFields) (s : State) : exec (.acas f) s = execAcas f s := rfl
@[simp] theorem exec_afadd (f : MFields) (s : State) : exec (.afadd f) s = execAfadd f s := rfl
@[simp] theorem exec_ctadd (f : QFields) (s : State) : exec (.ctadd f) s = execCtadd f s := rfl
@[simp] theorem exec_ctwait (f : QFields) (s : State) : exec (.ctwait f) s = execCtwait f s := rfl
@[simp] theorem exec_ctread (f : QFields) (s : State) : exec (.ctread f) s = execCtread f s := rfl
@[simp] theorem exec_cttry (f : QFields) (s : State) : exec (.cttry f) s = execCttry f s := rfl
@[simp] theorem exec_binit (f : QFields) (s : State) : exec (.binit f) s = execBinit f s := rfl
@[simp] theorem exec_barrive (f : QFields) (s : State) : exec (.barrive f) s = execBarrive f s := rfl
@[simp] theorem exec_bwait (f : QFields) (s : State) : exec (.bwait f) s = execBwait f s := rfl
@[simp] theorem exec_barwait (f : QFields) (s : State) : exec (.barwait f) s = execBarwait f s := rfl
@[simp] theorem exec_sbind (f : QFields) (s : State) : exec (.sbind f) s = execSbind f s := rfl
@[simp] theorem exec_sunbind (f : QFields) (s : State) : exec (.sunbind f) s = execSunbind f s := rfl
@[simp] theorem exec_send (f : QFields) (s : State) : exec (.send f) s = execSend f s := rfl
@[simp] theorem exec_recv (f : QFields) (s : State) : exec (.recv f) s = execRecv f s := rfl
@[simp] theorem exec_recvt (f : QFields) (s : State) : exec (.recvt f) s = execRecvt f s := rfl
@[simp] theorem exec_ksend (f : QFields) (s : State) : exec (.ksend f) s = execKsend f s := rfl
@[simp] theorem exec_radv (f : QFields) (s : State) : exec (.radv f) s = execRadv f s := rfl
@[simp] theorem exec_nbpost (f : QFields) (s : State) : exec (.nbpost f) s = execNbpost f s := rfl
@[simp] theorem exec_nbview (f : QFields) (s : State) : exec (.nbview f) s = execNbview f s := rfl
@[simp] theorem exec_nbinit (f : QFields) (s : State) : exec (.nbinit f) s = execNbinit f s := rfl
@[simp] theorem exec_nbslot (f : QFields) (s : State) : exec (.nbslot f) s = execNbslot f s := rfl
@[simp] theorem exec_tclaim (f : QFields) (s : State) : exec (.tclaim f) s = execTclaim f s := rfl
@[simp] theorem exec_tdone (f : QFields) (s : State) : exec (.tdone f) s = execTdone f s := rfl
@[simp] theorem exec_thand (f : QFields) (s : State) : exec (.thand f) s = execThand f s := rfl
@[simp] theorem exec_schedw (f : QFields) (s : State) : exec (.schedw f) s = execSchedw f s := rfl
@[simp] theorem exec_schedr (f : QFields) (s : State) : exec (.schedr f) s = execSchedr f s := rfl
@[simp] theorem exec_cslice (f : CFields) (s : State) : exec (.cslice f) s = execCslice f s := rfl
@[simp] theorem exec_cslicei (f : CFields) (s : State) : exec (.cslicei f) s = execCslicei f s := rfl
@[simp] theorem exec_crank (f : CFields) (s : State) : exec (.crank f) s = execCrank f s := rfl
@[simp] theorem exec_cstep (f : CFields) (s : State) : exec (.cstep f) s = execCstep f s := rfl
@[simp] theorem exec_cfix (f : CFields) (s : State) : exec (.cfix f) s = execCfix f s := rfl
@[simp] theorem exec_cfree (f : CFields) (s : State) : exec (.cfree f) s = execCfree f s := rfl
@[simp] theorem exec_clease (f : CFields) (s : State) : exec (.clease f) s = execClease f s := rfl
@[simp] theorem exec_center (f : KFields) (s : State) : exec (.center f) s = execCenter f s := rfl
@[simp] theorem exec_vadd (f : VFields) (s : State) : exec (.vadd f) s = execVadd f s := rfl
@[simp] theorem exec_vsub (f : VFields) (s : State) : exec (.vsub f) s = execVsub f s := rfl
@[simp] theorem exec_vmul (f : VFields) (s : State) : exec (.vmul f) s = execVmul f s := rfl
@[simp] theorem exec_vmin (f : VFields) (s : State) : exec (.vmin f) s = execVmin f s := rfl
@[simp] theorem exec_vmax (f : VFields) (s : State) : exec (.vmax f) s = execVmax f s := rfl
@[simp] theorem exec_vand (f : VFields) (s : State) : exec (.vand f) s = execVand f s := rfl
@[simp] theorem exec_vor (f : VFields) (s : State) : exec (.vor f) s = execVor f s := rfl
@[simp] theorem exec_vxor (f : VFields) (s : State) : exec (.vxor f) s = execVxor f s := rfl
@[simp] theorem exec_vshl (f : VFields) (s : State) : exec (.vshl f) s = execVshl f s := rfl
@[simp] theorem exec_vshr (f : VFields) (s : State) : exec (.vshr f) s = execVshr f s := rfl
@[simp] theorem exec_vsra (f : VFields) (s : State) : exec (.vsra f) s = execVsra f s := rfl
@[simp] theorem exec_vfma (f : VFields) (s : State) : exec (.vfma f) s = execVfma f s := rfl
@[simp] theorem exec_vfms (f : VFields) (s : State) : exec (.vfms f) s = execVfms f s := rfl
@[simp] theorem exec_vabs (f : VFields) (s : State) : exec (.vabs f) s = execVabs f s := rfl
@[simp] theorem exec_vneg (f : VFields) (s : State) : exec (.vneg f) s = execVneg f s := rfl
@[simp] theorem exec_vmov (f : VFields) (s : State) : exec (.vmov f) s = execVmov f s := rfl
@[simp] theorem exec_vcvt (f : VFields) (s : State) : exec (.vcvt f) s = execVcvt f s := rfl
@[simp] theorem exec_vexp2 (f : VFields) (s : State) : exec (.vexp2 f) s = execVexp2 f s := rfl
@[simp] theorem exec_vlog2 (f : VFields) (s : State) : exec (.vlog2 f) s = execVlog2 f s := rfl
@[simp] theorem exec_vrcp (f : VFields) (s : State) : exec (.vrcp f) s = execVrcp f s := rfl
@[simp] theorem exec_vrsq (f : VFields) (s : State) : exec (.vrsq f) s = execVrsq f s := rfl
@[simp] theorem exec_vtanh (f : VFields) (s : State) : exec (.vtanh f) s = execVtanh f s := rfl
@[simp] theorem exec_vcmp (f : VFields) (s : State) : exec (.vcmp f) s = execVcmp f s := rfl
@[simp] theorem exec_vsel (f : VFields) (s : State) : exec (.vsel f) s = execVsel f s := rfl
@[simp] theorem exec_vred (f : VFields) (s : State) : exec (.vred f) s = execVred f s := rfl
@[simp] theorem exec_vscan (f : VFields) (s : State) : exec (.vscan f) s = execVscan f s := rfl
@[simp] theorem exec_vtrans (f : VFields) (s : State) : exec (.vtrans f) s = execVtrans f s := rfl
@[simp] theorem exec_vbcast (f : VFields) (s : State) : exec (.vbcast f) s = execVbcast f s := rfl
@[simp] theorem exec_vshuf (f : VFields) (s : State) : exec (.vshuf f) s = execVshuf f s := rfl
@[simp] theorem exec_vrot (f : VFields) (s : State) : exec (.vrot f) s = execVrot f s := rfl
@[simp] theorem exec_vins (f : VFields) (s : State) : exec (.vins f) s = execVins f s := rfl
@[simp] theorem exec_vext (f : VFields) (s : State) : exec (.vext f) s = execVext f s := rfl
@[simp] theorem exec_vmand (f : VFields) (s : State) : exec (.vmand f) s = execVmand f s := rfl
@[simp] theorem exec_vmor (f : VFields) (s : State) : exec (.vmor f) s = execVmor f s := rfl
@[simp] theorem exec_vmnot (f : VFields) (s : State) : exec (.vmnot f) s = execVmnot f s := rfl
@[simp] theorem exec_vmpop (f : VFields) (s : State) : exec (.vmpop f) s = execVmpop f s := rfl
@[simp] theorem exec_vplanes (f : VFields) (s : State) : exec (.vplanes f) s = execVplanes f s := rfl
@[simp] theorem exec_vunplane (f : VFields) (s : State) : exec (.vunplane f) s = execVunplane f s := rfl
@[simp] theorem exec_vbarq (f : VFields) (s : State) : exec (.vbarq f) s = execVbarq f s := rfl
@[simp] theorem exec_vld (f : MFields) (s : State) : exec (.vld f) s = execVld f s := rfl
@[simp] theorem exec_vst (f : MFields) (s : State) : exec (.vst f) s = execVst f s := rfl
@[simp] theorem exec_vgather (f : MFields) (s : State) : exec (.vgather f) s = execVgather f s := rfl
@[simp] theorem exec_vscatter (f : MFields) (s : State) : exec (.vscatter f) s = execVscatter f s := rfl
@[simp] theorem exec_vshape (d a : BitVec 5) (imm : BitVec 32) (s : State) : exec (.vshape d a imm) s = execVshape d a imm s := rfl
@[simp] theorem exec_swadd (f : WFields) (s : State) : exec (.swadd f) s = execSwadd f s := rfl
@[simp] theorem exec_swsub (f : WFields) (s : State) : exec (.swsub f) s = execSwsub f s := rfl
@[simp] theorem exec_swmul (f : WFields) (s : State) : exec (.swmul f) s = execSwmul f s := rfl
@[simp] theorem exec_swmin (f : WFields) (s : State) : exec (.swmin f) s = execSwmin f s := rfl
@[simp] theorem exec_swmax (f : WFields) (s : State) : exec (.swmax f) s = execSwmax f s := rfl
@[simp] theorem exec_swfma (f : WFields) (s : State) : exec (.swfma f) s = execSwfma f s := rfl
@[simp] theorem exec_swcvt (f : WFields) (s : State) : exec (.swcvt f) s = execSwcvt f s := rfl
@[simp] theorem exec_swcopy (f : WFields) (s : State) : exec (.swcopy f) s = execSwcopy f s := rfl
@[simp] theorem exec_swbarq (f : WFields) (s : State) : exec (.swbarq f) s = execSwbarq f s := rfl
@[simp] theorem exec_ecmd (f : QFields) (s : State) : exec (.ecmd f) s = execEcmd f s := rfl
@[simp] theorem exec_ewait (f : QFields) (s : State) : exec (.ewait f) s = execEwait f s := rfl
@[simp] theorem exec_mwfetch (f : MQFields) (s : State) : exec (.mwfetch f) s = execMwfetch f s := rfl
@[simp] theorem exec_mwload (f : MQFields) (s : State) : exec (.mwload f) s = execMwload f s := rfl
@[simp] theorem exec_mwswap (f : MQFields) (s : State) : exec (.mwswap f) s = execMwswap f s := rfl
@[simp] theorem exec_mgwait (f : MQFields) (s : State) : exec (.mgwait f) s = execMgwait f s := rfl
@[simp] theorem exec_mgadv (f : MQFields) (s : State) : exec (.mgadv f) s = execMgadv f s := rfl
@[simp] theorem exec_mgread (f : MQFields) (s : State) : exec (.mgread f) s = execMgread f s := rfl
@[simp] theorem exec_mstream (f : GFields) (s : State) : exec (.mstream f) s = execMstream f s := rfl
@[simp] theorem exec_spawn (f : QFields) (s : State) : exec (.spawn f) s = execSpawn f s := rfl
@[simp] theorem exec_xplan (f : QFields) (s : State) : exec (.xplan f) s = execXplan f s := rfl
@[simp] theorem exec_plansel (value : BitVec 64) (s : State) : exec (.plansel value) s = execPlansel value s := rfl
@[simp] theorem exec_rxcfg (ring : BitVec 3) (value : BitVec 64) (s : State) : exec (.rxcfg ring value) s = execRxcfg ring value s := rfl
@[simp] theorem exec_kbin (value : BitVec 64) (s : State) : exec (.kbin value) s = execKbin value s := rfl
@[simp] theorem exec_walloc (value : BitVec 64) (s : State) : exec (.walloc value) s = execWalloc value s := rfl
@[simp] theorem exec_pmctl (value : BitVec 64) (s : State) : exec (.pmctl value) s = execPmctl value s := rfl
@[simp] theorem exec_fetch (a : Agent) (line : BitVec 64) (s : State) : exec (.fetch a line) s = execFetch a line s := rfl
@[simp] theorem exec_drain (a : Agent) (k : Nat) (s : State) : exec (.drain a k) s = execDrain a k s := rfl
@[simp] theorem exec_deliver (k : Nat) (s : State) : exec (.deliver k) s = execDeliver k s := rfl
@[simp] theorem exec_refresh (a : Agent) (va pa : Nat) (s : State) : exec (.refresh a va pa) s = execRefresh a va pa s := rfl
@[simp] theorem exec_evict (a : Agent) (ofFetch : Bool) (pa : Nat) (s : State) : exec (.evict a ofFetch pa) s = execEvict a ofFetch pa s := rfl
@[simp] theorem exec_replicaPropagation (k : Nat) (s : State) : exec (.replicaPropagation k) s = execReplicaPropagation k s := rfl
@[simp] theorem exec_watchWake (cell : Nat) (s : State) : exec (.watchWake cell) s = execWatchWake cell s := rfl
@[simp] theorem exec_watchRetry (a : Agent) (s : State) : exec (.watchRetry a) s = execWatchRetry a s := rfl
@[simp] theorem exec_pageAnswer (epoch : Nat) (ok : Bool) (s : State) : exec (.pageAnswer epoch ok) s = execPageAnswer epoch ok s := rfl
@[simp] theorem exec_pageRequestTimeout (epoch : Nat) (s : State) : exec (.pageRequestTimeout epoch) s = execPageRequestTimeout epoch s := rfl
@[simp] theorem exec_pageMigration (tenant va newPage : Nat) (phase : MigrationPhase) (s : State) : exec (.pageMigration tenant va newPage phase) s = execPageMigration tenant va newPage phase s := rfl
@[simp] theorem exec_shootdown (tenant va : Nat) (s : State) : exec (.shootdown tenant va) s = execShootdown tenant va s := rfl
@[simp] theorem exec_hotPageList (die chan : Nat) (s : State) : exec (.hotPageList die chan) s = execHotPageList die chan s := rfl
@[simp] theorem exec_refreshWindow (die bank : Nat) (s : State) : exec (.refreshWindow die bank) s = execRefreshWindow die bank s := rfl
@[simp] theorem exec_sliceControl (die slice tenant : Nat) (shared : Bool) (s : State) : exec (.sliceControl die slice tenant shared) s = execSliceControl die slice tenant shared s := rfl
@[simp] theorem exec_memoryError (e : ErrorReport) (s : State) : exec (.memoryError e) s = execMemoryError e s := rfl
@[simp] theorem exec_sweepPassBegin (s : State) : exec .sweepPassBegin s = execSweepPassBegin s := rfl
@[simp] theorem exec_sweepPassEnd (s : State) : exec .sweepPassEnd s = execSweepPassEnd s := rfl
@[simp] theorem exec_writeBack (core : Nat) (s : State) : exec (.writeBack core) s = execWriteBack core s := rfl
@[simp] theorem exec_recordLoad (core : Nat) (s : State) : exec (.recordLoad core) s = execRecordLoad core s := rfl
@[simp] theorem exec_pickUp (core : Nat) (s : State) : exec (.pickUp core) s = execPickUp core s := rfl
@[simp] theorem exec_idleTimeout (a : Agent) (s : State) : exec (.idleTimeout a) s = execIdleTimeout a s := rfl
@[simp] theorem exec_recvtTimeout (a : Agent) (s : State) : exec (.recvtTimeout a) s = execRecvtTimeout a s := rfl
@[simp] theorem exec_superstepClose (run : Nat) (level core : Nat) (s : State) : exec (.superstepClose run level core) s = execSuperstepClose run level core s := rfl
@[simp] theorem exec_planEntryDepart (core : Nat) (s : State) : exec (.planEntryDepart core) s = execPlanEntryDepart core s := rfl
@[simp] theorem exec_planEntryLand (k : Nat) (s : State) : exec (.planEntryLand k) s = execPlanEntryLand k s := rfl
@[simp] theorem exec_messageDelivery (a : Agent) (s : State) : exec (.messageDelivery a) s = execMessageDelivery a s := rfl
@[simp] theorem exec_keyPairApply (k : Nat) (s : State) : exec (.keyPairApply k) s = execKeyPairApply k s := rfl
@[simp] theorem exec_blockQueueLimit (p : Port) (limit : BitVec 64) (s : State) : exec (.blockQueueLimit p limit) s = execBlockQueueLimit p limit s := rfl
@[simp] theorem exec_blockQueueTake (p : Port) (s : State) : exec (.blockQueueTake p) s = execBlockQueueTake p s := rfl
@[simp] theorem exec_weightFetchRead (core : Nat) (s : State) : exec (.weightFetchRead core) s = execWeightFetchRead core s := rfl
@[simp] theorem exec_mwloadExpansion (core : Nat) (s : State) : exec (.mwloadExpansion core) s = execMwloadExpansion core s := rfl
@[simp] theorem exec_quoin (core rows : Nat) (s : State) : exec (.quoin core rows) s = execQuoin core rows s := rfl
@[simp] theorem exec_streamCompletion (core : Nat) (s : State) : exec (.streamCompletion core) s = execStreamCompletion core s := rfl
@[simp] theorem exec_copy (core steps : Nat) (s : State) : exec (.copy core steps) s = execCopy core steps s := rfl
@[simp] theorem exec_gather (core steps : Nat) (s : State) : exec (.gather core steps) s = execGather core steps s := rfl
@[simp] theorem exec_scatter (core steps : Nat) (s : State) : exec (.scatter core steps) s = execScatter core steps s := rfl
@[simp] theorem exec_epilogueS8 (core steps : Nat) (s : State) : exec (.epilogueS8 core steps) s = execEpilogueS8 core steps s := rfl
@[simp] theorem exec_epilogueZ8 (core steps : Nat) (s : State) : exec (.epilogueZ8 core steps) s = execEpilogueZ8 core steps s := rfl
@[simp] theorem exec_epilogueS16 (core steps : Nat) (s : State) : exec (.epilogueS16 core steps) s = execEpilogueS16 core steps s := rfl
@[simp] theorem exec_epilogueZ16 (core steps : Nat) (s : State) : exec (.epilogueZ16 core steps) s = execEpilogueZ16 core steps s := rfl
@[simp] theorem exec_epilogueS32 (core steps : Nat) (s : State) : exec (.epilogueS32 core steps) s = execEpilogueS32 core steps s := rfl
@[simp] theorem exec_epilogueZ32 (core steps : Nat) (s : State) : exec (.epilogueZ32 core steps) s = execEpilogueZ32 core steps s := rfl
@[simp] theorem exec_epilogueFp16 (core steps : Nat) (s : State) : exec (.epilogueFp16 core steps) s = execEpilogueFp16 core steps s := rfl
@[simp] theorem exec_epilogueBf16 (core steps : Nat) (s : State) : exec (.epilogueBf16 core steps) s = execEpilogueBf16 core steps s := rfl
@[simp] theorem exec_epilogueFp32 (core steps : Nat) (s : State) : exec (.epilogueFp32 core steps) s = execEpilogueFp32 core steps s := rfl
@[simp] theorem exec_epilogueE4m3 (core steps : Nat) (s : State) : exec (.epilogueE4m3 core steps) s = execEpilogueE4m3 core steps s := rfl
@[simp] theorem exec_epilogueE5m2 (core steps : Nat) (s : State) : exec (.epilogueE5m2 core steps) s = execEpilogueE5m2 core steps s := rfl
@[simp] theorem exec_flitReceive (p : Port) (f : FlitArrival) (s : State) : exec (.flitReceive p f) s = execFlitReceive p f s := rfl
@[simp] theorem exec_linkRetrain (p : Port) (s : State) : exec (.linkRetrain p) s = execLinkRetrain p s := rfl
@[simp] theorem exec_linkDown (p : Port) (s : State) : exec (.linkDown p) s = execLinkDown p s := rfl
@[simp] theorem exec_dieReset (die : Nat) (s : State) : exec (.dieReset die) s = execDieReset die s := rfl
@[simp] theorem exec_packetLoad (q : Nat) (s : State) : exec (.packetLoad q) s = execPacketLoad q s := rfl
@[simp] theorem exec_launch (q : Nat) (s : State) : exec (.launch q) s = execLaunch q s := rfl
@[simp] theorem exec_waitctr (q : Nat) (s : State) : exec (.waitctr q) s = execWaitctr q s := rfl
@[simp] theorem exec_signal (q : Nat) (s : State) : exec (.signal q) s = execSignal q s := rfl
@[simp] theorem exec_copyPacket (q : Nat) (s : State) : exec (.copyPacket q) s = execCopyPacket q s := rfl
@[simp] theorem exec_marker (q : Nat) (s : State) : exec (.marker q) s = execMarker q s := rfl
@[simp] theorem exec_doorbell (q : Nat) (s : State) : exec (.doorbell q) s = execDoorbell q s := rfl
@[simp] theorem exec_runEnd (run : Nat) (s : State) : exec (.runEnd run) s = execRunEnd run s := rfl
@[simp] theorem exec_preemptionDecision (q : Nat) (s : State) : exec (.preemptionDecision q) s = execPreemptionDecision q s := rfl
@[simp] theorem exec_preemptBoundary (core : Nat) (s : State) : exec (.preemptBoundary core) s = execPreemptBoundary core s := rfl
@[simp] theorem exec_save (core : Nat) (s : State) : exec (.save core) s = execSave core s := rfl
@[simp] theorem exec_preemptingLaunch (q : Nat) (s : State) : exec (.preemptingLaunch q) s = execPreemptingLaunch q s := rfl
@[simp] theorem exec_restore (core : Nat) (s : State) : exec (.restore core) s = execRestore core s := rfl
@[simp] theorem exec_hostKill (run : Nat) (s : State) : exec (.hostKill run) s = execHostKill run s := rfl
@[simp] theorem exec_queueShadowWrite (q word : Nat) (value : BitVec 64) (s : State) : exec (.queueShadowWrite q word value) s = execQueueShadowWrite q word value s := rfl
@[simp] theorem exec_queueDestroy (q : Nat) (s : State) : exec (.queueDestroy q) s = execQueueDestroy q s := rfl
@[simp] theorem exec_hostWindowTableWrite (k : Nat) (w : HostWindow) (s : State) : exec (.hostWindowTableWrite k w) s = execHostWindowTableWrite k w s := rfl
@[simp] theorem exec_atsInvalidation (pasid hostPage : Nat) (s : State) : exec (.atsInvalidation pasid hostPage) s = execAtsInvalidation pasid hostPage s := rfl
@[simp] theorem exec_acceptanceWindowWrite (card k : Nat) (w : AcceptWindow) (s : State) : exec (.acceptanceWindowWrite card k w) s = execAcceptanceWindowWrite card k w s := rfl
@[simp] theorem exec_bar2Access (card offset n : Nat) (write : Option (BitVec 64)) (s : State) : exec (.bar2Access card offset n write) s = execBar2Access card offset n write s := rfl
@[simp] theorem exec_powerCEntry (core : Nat) (s : State) : exec (.powerCEntry core) s = execPowerCEntry core s := rfl
@[simp] theorem exec_powerCExit (core : Nat) (s : State) : exec (.powerCExit core) s = execPowerCExit core s := rfl
@[simp] theorem exec_powerSEntry (die : Nat) (s : State) : exec (.powerSEntry die) s = execPowerSEntry die s := rfl
@[simp] theorem exec_powerSExit (die : Nat) (s : State) : exec (.powerSExit die) s = execPowerSExit die s := rfl
@[simp] theorem exec_powerDEntry (s : State) : exec .powerDEntry s = execPowerDEntry s := rfl
@[simp] theorem exec_clockStepDown (card : Nat) (s : State) : exec (.clockStepDown card) s = execClockStepDown card s := rfl
@[simp] theorem exec_clockStepUp (card : Nat) (s : State) : exec (.clockStepUp card) s = execClockStepUp card s := rfl
@[simp] theorem exec_watchdogKick (card : Nat) (s : State) : exec (.watchdogKick card) s = execWatchdogKick card s := rfl
@[simp] theorem exec_watchdogExpiry (card : Nat) (s : State) : exec (.watchdogExpiry card) s = execWatchdogExpiry card s := rfl
@[simp] theorem exec_deviceReset (monitorOk firmwareOk : Bool) (security : Security) (s : State) : exec (.deviceReset monitorOk firmwareOk security) s = execDeviceReset monitorOk firmwareOk security s := rfl
@[simp] theorem exec_reducedService (s : State) : exec .reducedService s = execReducedService s := rfl
@[simp] theorem exec_fullService (s : State) : exec .fullService s = execFullService s := rfl
@[simp] theorem exec_attestation (nonce : BitVec 256) (s : State) : exec (.attestation nonce) s = execAttestation nonce s := rfl
@[simp] theorem exec_energyInterval (card nanojoules : Nat) (activity : List (Nat × Nat)) (s : State) : exec (.energyInterval card nanojoules activity) s = execEnergyInterval card nanojoules activity s := rfl
@[simp] theorem exec_routerGridDump (die k : Nat) (s : State) : exec (.routerGridDump die k) s = execRouterGridDump die k s := rfl
@[simp] theorem exec_counterSample (core : Nat) (s : State) : exec (.counterSample core) s = execCounterSample core s := rfl
@[simp] theorem exec_stopRequest (run level : Nat) (s : State) : exec (.stopRequest run level) s = execStopRequest run level s := rfl
@[simp] theorem exec_debugResume (run : Nat) (held : Option Agent) (s : State) : exec (.debugResume run held) s = execDebugResume run held s := rfl
@[simp] theorem exec_brkInterception (run : Nat) (armed : Bool) (s : State) : exec (.brkInterception run armed) s = execBrkInterception run armed s := rfl
@[simp] theorem exec_debugRead (t : DebugTarget) (s : State) : exec (.debugRead t) s = execDebugRead t s := rfl
@[simp] theorem exec_debugWrite (t : DebugTarget) (value : BitVec 256) (s : State) : exec (.debugWrite t value) s = execDebugWrite t value s := rfl
@[simp] theorem exec_replay (core : Nat) (s : State) : exec (.replay core) s = execReplay core s := rfl
@[simp] theorem exec_replayStep (core : Nat) (s : State) : exec (.replayStep core) s = execReplayStep core s := rfl
@[simp] theorem exec_traceEnable (die run ring len : Nat) (s : State) : exec (.traceEnable die run ring len) s = execTraceEnable die run ring len s := rfl
@[simp] theorem exec_hypervisorClaim (u : MonitorUnit) (s : State) : exec (.hypervisorClaim u) s = execHypervisorClaim u s := rfl
@[simp] theorem exec_hypervisorRelease (u : MonitorUnit) (s : State) : exec (.hypervisorRelease u) s = execHypervisorRelease u s := rfl
@[simp] theorem exec_illegalInstruction (p0 : BitVec 32) (s : State) : exec (.illegalInstruction p0) s = execIllegalInstruction p0 s := rfl
@[simp] theorem exec_trainingFailure (code unit : Nat) (s : State) : exec (.trainingFailure code unit) s = execTrainingFailure code unit s := rfl
@[simp] theorem exec_linkRetrainingComplete (p : Port) (s : State) : exec (.linkRetrainingComplete p) s = execLinkRetrainingComplete p s := rfl
@[simp] theorem exec_powerDExit (s : State) : exec .powerDExit s = execPowerDExit s := rfl
@[simp] theorem exec_replayArm (run : Nat) (journal : Bool) (s : State) : exec (.replayArm run journal) s = execReplayArm run journal s := rfl
@[simp] theorem exec_binaryLoad (b : BinaryImage) (s : State) : exec (.binaryLoad b) s = execBinaryLoad b s := rfl
@[simp] theorem exec_binaryUnload (leases : List Nat) (s : State) : exec (.binaryUnload leases) s = execBinaryUnload leases s := rfl
@[simp] theorem exec_guardTableRefusal (hart addr level tenant : Nat) (access : GuardAccess) (s : State) : exec (.guardTableRefusal hart addr level tenant access) s = execGuardTableRefusal hart addr level tenant access s := rfl

end Sys2Proof.Machine
end

