-- ==== Sys2Proof/Laws/Sparse.lean ====
section
/-! SUPPORT. What a reader of sparse data needs: reading after writing, and that writing keeps the canonical form. -/

namespace Sys2Proof

theorem Sparse.get_erase {α : Type} (d : α) (l : List (Nat × α)) (k j : Nat) :
    Sparse.get d (Sparse.erase l k) j = if j = k then d else Sparse.get d l j := by
  induction l with
  | nil => simp [Sparse.erase, Sparse.get]
  | cons p rest ih =>
    obtain ⟨i, x⟩ := p
    by_cases h : i = k
    · subst h
      by_cases hj : j = i
      · subst hj; simpa [Sparse.erase] using ih
      · have : i ≠ j := fun e => hj e.symm
        simpa [Sparse.erase, Sparse.get, hj, this] using ih
    · by_cases hi : i = j
      · subst hi; simp [Sparse.erase, Sparse.get, h]
      · simpa [Sparse.erase, Sparse.get, h, hi] using ih

theorem Sparse.get_insert {α : Type} (d : α) (l : List (Nat × α)) (k j : Nat) (x : α)
    (h : ∀ p ∈ l, p.1 ≠ k) :
    Sparse.get d (Sparse.insert k x l) j = if j = k then x else Sparse.get d l j := by
  induction l with
  | nil =>
    by_cases hj : j = k
    · simp [Sparse.insert, Sparse.get, hj]
    · have : k ≠ j := fun e => hj e.symm
      simp [Sparse.insert, Sparse.get, hj, this]
  | cons p rest ih =>
    obtain ⟨i, y⟩ := p
    have hi : i ≠ k := h (i, y) (by simp)
    have ih' := ih (fun p hp => h p (by simp [hp]))
    by_cases hlt : k < i
    · by_cases hj : j = k
      · subst hj; simp [Sparse.insert, Sparse.get, hlt]
      · have : k ≠ j := fun e => hj e.symm
        simp [Sparse.insert, Sparse.get, hlt, hj, this]
    · by_cases hij : i = j
      · subst hij; simp [Sparse.insert, Sparse.get, hlt, hi]
      · simpa [Sparse.insert, Sparse.get, hlt, hij] using ih'

theorem Sparse.mem_erase {α : Type} (l : List (Nat × α)) (k : Nat) (p : Nat × α) :
    p ∈ Sparse.erase l k → p.1 ≠ k ∧ p ∈ l := by
  induction l with
  | nil => simp [Sparse.erase]
  | cons q rest ih =>
    intro hp
    simp only [Sparse.erase] at hp
    split at hp
    · exact ⟨(ih hp).1, by simp [(ih hp).2]⟩
    · rcases List.mem_cons.1 hp with rfl | hp
      · exact ⟨by assumption, by simp⟩
      · exact ⟨(ih hp).1, by simp [(ih hp).2]⟩

/-- Reading after writing, at the key written and at every other key. -/
theorem Sparse.get_put {α : Type} [DecidableEq α] (d : α) (l : List (Nat × α)) (k j : Nat) (x : α) :
    Sparse.get d (Sparse.put d l k x) j = if j = k then x else Sparse.get d l j := by
  unfold Sparse.put
  split
  · next h => subst h; exact Sparse.get_erase _ l k j
  · rw [Sparse.get_insert d _ k j x (fun p hp => (Sparse.mem_erase l k p hp).1), Sparse.get_erase]
    split <;> rfl

@[simp] theorem Sparse.get_put_self {α : Type} [DecidableEq α] (d : α) (l : List (Nat × α)) (k : Nat) (x : α) :
    Sparse.get d (Sparse.put d l k x) k = x := by simp [Sparse.get_put]

theorem Sparse.get_put_other {α : Type} [DecidableEq α] (d : α) (l : List (Nat × α)) {k j : Nat} (x : α)
    (h : j ≠ k) : Sparse.get d (Sparse.put d l k x) j = Sparse.get d l j := by simp [Sparse.get_put, h]

theorem Sparse.wfFrom_mono {α : Type} [DecidableEq α] (d : α) (l : List (Nat × α)) {a b : Nat} (h : a ≤ b) :
    Sparse.wfFrom d b l = true → Sparse.wfFrom d a l = true := by
  cases l with
  | nil => simp [Sparse.wfFrom]
  | cons p rest =>
    obtain ⟨k, x⟩ := p
    simp only [Sparse.wfFrom, Bool.and_eq_true, decide_eq_true_eq]
    exact fun hw => ⟨⟨Nat.le_trans h hw.1.1, hw.1.2⟩, hw.2⟩

theorem Sparse.wfFrom_erase {α : Type} [DecidableEq α] (d : α) (l : List (Nat × α)) (k a : Nat) :
    Sparse.wfFrom d a l = true → Sparse.wfFrom d a (Sparse.erase l k) = true := by
  induction l generalizing a with
  | nil => simp [Sparse.erase, Sparse.wfFrom]
  | cons p rest ih =>
    obtain ⟨i, x⟩ := p
    intro h
    simp only [Sparse.wfFrom, Bool.and_eq_true, decide_eq_true_eq] at h
    by_cases hk : i = k
    · simp only [Sparse.erase, hk, if_true]
      subst hk
      exact Sparse.wfFrom_mono d _ (by omega) (ih _ h.2)
    · simp [Sparse.erase, hk, Sparse.wfFrom, h.1.1, h.1.2, ih _ h.2]

theorem Sparse.wfFrom_insert {α : Type} [DecidableEq α] (d : α) (l : List (Nat × α)) (k a : Nat) (x : α)
    (hx : x ≠ d) (ha : a ≤ k) (hk : ∀ p ∈ l, p.1 ≠ k) :
    Sparse.wfFrom d a l = true → Sparse.wfFrom d a (Sparse.insert k x l) = true := by
  induction l generalizing a with
  | nil => simp [Sparse.insert, Sparse.wfFrom, hx, ha]
  | cons p rest ih =>
    obtain ⟨i, y⟩ := p
    intro h
    have hi : i ≠ k := hk (i, y) (by simp)
    simp only [Sparse.wfFrom, Bool.and_eq_true, decide_eq_true_eq] at h
    by_cases hlt : k < i
    · have hki : k + 1 ≤ i := hlt
      simp only [Sparse.insert, hlt, if_true, Sparse.wfFrom, Bool.and_eq_true, decide_eq_true_eq]
      exact ⟨⟨ha, hx⟩, ⟨hki, h.1.2⟩, h.2⟩
    · simp only [Sparse.insert, hlt, if_false, Sparse.wfFrom, Bool.and_eq_true, decide_eq_true_eq]
      exact ⟨h.1, ih (i + 1) (by omega) (fun p hp => hk p (by simp [hp])) h.2⟩

/-- A write keeps the canonical form. -/
theorem Sparse.wf_put {α : Type} [DecidableEq α] (d : α) (l : List (Nat × α)) (k : Nat) (x : α) :
    Sparse.wf d l = true → Sparse.wf d (Sparse.put d l k x) = true := by
  intro h
  unfold Sparse.put
  split
  · exact Sparse.wfFrom_erase d l k 0 h
  · next hx =>
    exact Sparse.wfFrom_insert d _ k 0 x hx (Nat.zero_le _) (fun p hp => (Sparse.mem_erase l k p hp).1)
      (Sparse.wfFrom_erase d l k 0 h)

@[simp] theorem Sparse.wf_nil {α : Type} [DecidableEq α] (d : α) : Sparse.wf d [] = true := rfl

end Sys2Proof
end

