-- ==== Sys2Proof/Laws/State.lean ====
section
/-! SUPPORT. What each update of the state leaves alone, field by field, and what a reader finds after it. -/

namespace Sys2Proof.Machine

/-! ### setCtxOf -/

@[simp] theorem State.setCtxOf_twoCards (s : State) (a : Agent) (c : Ctx) : (s.setCtxOf a c).twoCards = s.twoCards := rfl
@[simp] theorem State.setCtxOf_agenda (s : State) (a : Agent) (c : Ctx) : (s.setCtxOf a c).agenda = s.agenda := rfl
@[simp] theorem State.setCtxOf_cur (s : State) (a : Agent) (c : Ctx) : (s.setCtxOf a c).cur = s.cur := rfl
@[simp] theorem State.setCtxOf_tick (s : State) (a : Agent) (c : Ctx) : (s.setCtxOf a c).tick = s.tick := rfl
@[simp] theorem State.setCtxOf_mem (s : State) (a : Agent) (c : Ctx) : (s.setCtxOf a c).mem = s.mem := rfl
@[simp] theorem State.setCtxOf_tags (s : State) (a : Agent) (c : Ctx) : (s.setCtxOf a c).tags = s.tags := rfl
@[simp] theorem State.setCtxOf_poison (s : State) (a : Agent) (c : Ctx) : (s.setCtxOf a c).poison = s.poison := rfl
@[simp] theorem State.setCtxOf_cores (s : State) (a : Agent) (c : Ctx) : (s.setCtxOf a c).cores = s.cores := rfl
@[simp] theorem State.setCtxOf_press (s : State) (a : Agent) (c : Ctx) : (s.setCtxOf a c).press = s.press := rfl
@[simp] theorem State.setCtxOf_leases (s : State) (a : Agent) (c : Ctx) : (s.setCtxOf a c).leases = s.leases := rfl
@[simp] theorem State.setCtxOf_tenants (s : State) (a : Agent) (c : Ctx) : (s.setCtxOf a c).tenants = s.tenants := rfl
@[simp] theorem State.setCtxOf_requests (s : State) (a : Agent) (c : Ctx) : (s.setCtxOf a c).requests = s.requests := rfl
@[simp] theorem State.setCtxOf_migrations (s : State) (a : Agent) (c : Ctx) : (s.setCtxOf a c).migrations = s.migrations := rfl
@[simp] theorem State.setCtxOf_dies (s : State) (a : Agent) (c : Ctx) : (s.setCtxOf a c).dies = s.dies := rfl
@[simp] theorem State.setCtxOf_cards (s : State) (a : Agent) (c : Ctx) : (s.setCtxOf a c).cards = s.cards := rfl
@[simp] theorem State.setCtxOf_links (s : State) (a : Agent) (c : Ctx) : (s.setCtxOf a c).links = s.links := rfl
@[simp] theorem State.setCtxOf_runs (s : State) (a : Agent) (c : Ctx) : (s.setCtxOf a c).runs = s.runs := rfl
@[simp] theorem State.setCtxOf_queues (s : State) (a : Agent) (c : Ctx) : (s.setCtxOf a c).queues = s.queues := rfl
@[simp] theorem State.setCtxOf_harts (s : State) (a : Agent) (c : Ctx) : (s.setCtxOf a c).harts = s.harts := rfl
@[simp] theorem State.setCtxOf_hostMap (s : State) (a : Agent) (c : Ctx) : (s.setCtxOf a c).hostMap = s.hostMap := rfl
@[simp] theorem State.setCtxOf_dev (s : State) (a : Agent) (c : Ctx) : (s.setCtxOf a c).dev = s.dev := rfl

/-! ### setCoreAt -/

@[simp] theorem State.setCoreAt_twoCards (s : State) (k : Nat) (c : Core) : (s.setCoreAt k c).twoCards = s.twoCards := rfl
@[simp] theorem State.setCoreAt_agenda (s : State) (k : Nat) (c : Core) : (s.setCoreAt k c).agenda = s.agenda := rfl
@[simp] theorem State.setCoreAt_cur (s : State) (k : Nat) (c : Core) : (s.setCoreAt k c).cur = s.cur := rfl
@[simp] theorem State.setCoreAt_tick (s : State) (k : Nat) (c : Core) : (s.setCoreAt k c).tick = s.tick := rfl
@[simp] theorem State.setCoreAt_mem (s : State) (k : Nat) (c : Core) : (s.setCoreAt k c).mem = s.mem := rfl
@[simp] theorem State.setCoreAt_tags (s : State) (k : Nat) (c : Core) : (s.setCoreAt k c).tags = s.tags := rfl
@[simp] theorem State.setCoreAt_poison (s : State) (k : Nat) (c : Core) : (s.setCoreAt k c).poison = s.poison := rfl
@[simp] theorem State.setCoreAt_ctxs (s : State) (k : Nat) (c : Core) : (s.setCoreAt k c).ctxs = s.ctxs := rfl
@[simp] theorem State.setCoreAt_press (s : State) (k : Nat) (c : Core) : (s.setCoreAt k c).press = s.press := rfl
@[simp] theorem State.setCoreAt_leases (s : State) (k : Nat) (c : Core) : (s.setCoreAt k c).leases = s.leases := rfl
@[simp] theorem State.setCoreAt_tenants (s : State) (k : Nat) (c : Core) : (s.setCoreAt k c).tenants = s.tenants := rfl
@[simp] theorem State.setCoreAt_requests (s : State) (k : Nat) (c : Core) : (s.setCoreAt k c).requests = s.requests := rfl
@[simp] theorem State.setCoreAt_migrations (s : State) (k : Nat) (c : Core) : (s.setCoreAt k c).migrations = s.migrations := rfl
@[simp] theorem State.setCoreAt_dies (s : State) (k : Nat) (c : Core) : (s.setCoreAt k c).dies = s.dies := rfl
@[simp] theorem State.setCoreAt_cards (s : State) (k : Nat) (c : Core) : (s.setCoreAt k c).cards = s.cards := rfl
@[simp] theorem State.setCoreAt_links (s : State) (k : Nat) (c : Core) : (s.setCoreAt k c).links = s.links := rfl
@[simp] theorem State.setCoreAt_runs (s : State) (k : Nat) (c : Core) : (s.setCoreAt k c).runs = s.runs := rfl
@[simp] theorem State.setCoreAt_queues (s : State) (k : Nat) (c : Core) : (s.setCoreAt k c).queues = s.queues := rfl
@[simp] theorem State.setCoreAt_harts (s : State) (k : Nat) (c : Core) : (s.setCoreAt k c).harts = s.harts := rfl
@[simp] theorem State.setCoreAt_hostMap (s : State) (k : Nat) (c : Core) : (s.setCoreAt k c).hostMap = s.hostMap := rfl
@[simp] theorem State.setCoreAt_dev (s : State) (k : Nat) (c : Core) : (s.setCoreAt k c).dev = s.dev := rfl

/-! ### setDie -/

@[simp] theorem State.setDie_twoCards (s : State) (d : Nat) (x : Die) : (s.setDie d x).twoCards = s.twoCards := rfl
@[simp] theorem State.setDie_agenda (s : State) (d : Nat) (x : Die) : (s.setDie d x).agenda = s.agenda := rfl
@[simp] theorem State.setDie_cur (s : State) (d : Nat) (x : Die) : (s.setDie d x).cur = s.cur := rfl
@[simp] theorem State.setDie_tick (s : State) (d : Nat) (x : Die) : (s.setDie d x).tick = s.tick := rfl
@[simp] theorem State.setDie_mem (s : State) (d : Nat) (x : Die) : (s.setDie d x).mem = s.mem := rfl
@[simp] theorem State.setDie_tags (s : State) (d : Nat) (x : Die) : (s.setDie d x).tags = s.tags := rfl
@[simp] theorem State.setDie_poison (s : State) (d : Nat) (x : Die) : (s.setDie d x).poison = s.poison := rfl
@[simp] theorem State.setDie_ctxs (s : State) (d : Nat) (x : Die) : (s.setDie d x).ctxs = s.ctxs := rfl
@[simp] theorem State.setDie_cores (s : State) (d : Nat) (x : Die) : (s.setDie d x).cores = s.cores := rfl
@[simp] theorem State.setDie_press (s : State) (d : Nat) (x : Die) : (s.setDie d x).press = s.press := rfl
@[simp] theorem State.setDie_leases (s : State) (d : Nat) (x : Die) : (s.setDie d x).leases = s.leases := rfl
@[simp] theorem State.setDie_tenants (s : State) (d : Nat) (x : Die) : (s.setDie d x).tenants = s.tenants := rfl
@[simp] theorem State.setDie_requests (s : State) (d : Nat) (x : Die) : (s.setDie d x).requests = s.requests := rfl
@[simp] theorem State.setDie_migrations (s : State) (d : Nat) (x : Die) : (s.setDie d x).migrations = s.migrations := rfl
@[simp] theorem State.setDie_cards (s : State) (d : Nat) (x : Die) : (s.setDie d x).cards = s.cards := rfl
@[simp] theorem State.setDie_links (s : State) (d : Nat) (x : Die) : (s.setDie d x).links = s.links := rfl
@[simp] theorem State.setDie_runs (s : State) (d : Nat) (x : Die) : (s.setDie d x).runs = s.runs := rfl
@[simp] theorem State.setDie_queues (s : State) (d : Nat) (x : Die) : (s.setDie d x).queues = s.queues := rfl
@[simp] theorem State.setDie_harts (s : State) (d : Nat) (x : Die) : (s.setDie d x).harts = s.harts := rfl
@[simp] theorem State.setDie_hostMap (s : State) (d : Nat) (x : Die) : (s.setDie d x).hostMap = s.hostMap := rfl
@[simp] theorem State.setDie_dev (s : State) (d : Nat) (x : Die) : (s.setDie d x).dev = s.dev := rfl

/-! ### setCard -/

@[simp] theorem State.setCard_twoCards (s : State) (k : Nat) (x : Card) : (s.setCard k x).twoCards = s.twoCards := rfl
@[simp] theorem State.setCard_agenda (s : State) (k : Nat) (x : Card) : (s.setCard k x).agenda = s.agenda := rfl
@[simp] theorem State.setCard_cur (s : State) (k : Nat) (x : Card) : (s.setCard k x).cur = s.cur := rfl
@[simp] theorem State.setCard_tick (s : State) (k : Nat) (x : Card) : (s.setCard k x).tick = s.tick := rfl
@[simp] theorem State.setCard_mem (s : State) (k : Nat) (x : Card) : (s.setCard k x).mem = s.mem := rfl
@[simp] theorem State.setCard_tags (s : State) (k : Nat) (x : Card) : (s.setCard k x).tags = s.tags := rfl
@[simp] theorem State.setCard_poison (s : State) (k : Nat) (x : Card) : (s.setCard k x).poison = s.poison := rfl
@[simp] theorem State.setCard_ctxs (s : State) (k : Nat) (x : Card) : (s.setCard k x).ctxs = s.ctxs := rfl
@[simp] theorem State.setCard_cores (s : State) (k : Nat) (x : Card) : (s.setCard k x).cores = s.cores := rfl
@[simp] theorem State.setCard_press (s : State) (k : Nat) (x : Card) : (s.setCard k x).press = s.press := rfl
@[simp] theorem State.setCard_leases (s : State) (k : Nat) (x : Card) : (s.setCard k x).leases = s.leases := rfl
@[simp] theorem State.setCard_tenants (s : State) (k : Nat) (x : Card) : (s.setCard k x).tenants = s.tenants := rfl
@[simp] theorem State.setCard_requests (s : State) (k : Nat) (x : Card) : (s.setCard k x).requests = s.requests := rfl
@[simp] theorem State.setCard_migrations (s : State) (k : Nat) (x : Card) : (s.setCard k x).migrations = s.migrations := rfl
@[simp] theorem State.setCard_dies (s : State) (k : Nat) (x : Card) : (s.setCard k x).dies = s.dies := rfl
@[simp] theorem State.setCard_links (s : State) (k : Nat) (x : Card) : (s.setCard k x).links = s.links := rfl
@[simp] theorem State.setCard_runs (s : State) (k : Nat) (x : Card) : (s.setCard k x).runs = s.runs := rfl
@[simp] theorem State.setCard_queues (s : State) (k : Nat) (x : Card) : (s.setCard k x).queues = s.queues := rfl
@[simp] theorem State.setCard_harts (s : State) (k : Nat) (x : Card) : (s.setCard k x).harts = s.harts := rfl
@[simp] theorem State.setCard_hostMap (s : State) (k : Nat) (x : Card) : (s.setCard k x).hostMap = s.hostMap := rfl
@[simp] theorem State.setCard_dev (s : State) (k : Nat) (x : Card) : (s.setCard k x).dev = s.dev := rfl

/-! ### setLink -/

@[simp] theorem State.setLink_twoCards (s : State) (p : Port) (x : Link) : (s.setLink p x).twoCards = s.twoCards := rfl
@[simp] theorem State.setLink_agenda (s : State) (p : Port) (x : Link) : (s.setLink p x).agenda = s.agenda := rfl
@[simp] theorem State.setLink_cur (s : State) (p : Port) (x : Link) : (s.setLink p x).cur = s.cur := rfl
@[simp] theorem State.setLink_tick (s : State) (p : Port) (x : Link) : (s.setLink p x).tick = s.tick := rfl
@[simp] theorem State.setLink_mem (s : State) (p : Port) (x : Link) : (s.setLink p x).mem = s.mem := rfl
@[simp] theorem State.setLink_tags (s : State) (p : Port) (x : Link) : (s.setLink p x).tags = s.tags := rfl
@[simp] theorem State.setLink_poison (s : State) (p : Port) (x : Link) : (s.setLink p x).poison = s.poison := rfl
@[simp] theorem State.setLink_ctxs (s : State) (p : Port) (x : Link) : (s.setLink p x).ctxs = s.ctxs := rfl
@[simp] theorem State.setLink_cores (s : State) (p : Port) (x : Link) : (s.setLink p x).cores = s.cores := rfl
@[simp] theorem State.setLink_press (s : State) (p : Port) (x : Link) : (s.setLink p x).press = s.press := rfl
@[simp] theorem State.setLink_leases (s : State) (p : Port) (x : Link) : (s.setLink p x).leases = s.leases := rfl
@[simp] theorem State.setLink_tenants (s : State) (p : Port) (x : Link) : (s.setLink p x).tenants = s.tenants := rfl
@[simp] theorem State.setLink_requests (s : State) (p : Port) (x : Link) : (s.setLink p x).requests = s.requests := rfl
@[simp] theorem State.setLink_migrations (s : State) (p : Port) (x : Link) : (s.setLink p x).migrations = s.migrations := rfl
@[simp] theorem State.setLink_dies (s : State) (p : Port) (x : Link) : (s.setLink p x).dies = s.dies := rfl
@[simp] theorem State.setLink_cards (s : State) (p : Port) (x : Link) : (s.setLink p x).cards = s.cards := rfl
@[simp] theorem State.setLink_runs (s : State) (p : Port) (x : Link) : (s.setLink p x).runs = s.runs := rfl
@[simp] theorem State.setLink_queues (s : State) (p : Port) (x : Link) : (s.setLink p x).queues = s.queues := rfl
@[simp] theorem State.setLink_harts (s : State) (p : Port) (x : Link) : (s.setLink p x).harts = s.harts := rfl
@[simp] theorem State.setLink_hostMap (s : State) (p : Port) (x : Link) : (s.setLink p x).hostMap = s.hostMap := rfl
@[simp] theorem State.setLink_dev (s : State) (p : Port) (x : Link) : (s.setLink p x).dev = s.dev := rfl

/-! ### setTenant -/

@[simp] theorem State.setTenant_twoCards (s : State) (t : Nat) (x : Tenant) : (s.setTenant t x).twoCards = s.twoCards := rfl
@[simp] theorem State.setTenant_agenda (s : State) (t : Nat) (x : Tenant) : (s.setTenant t x).agenda = s.agenda := rfl
@[simp] theorem State.setTenant_cur (s : State) (t : Nat) (x : Tenant) : (s.setTenant t x).cur = s.cur := rfl
@[simp] theorem State.setTenant_tick (s : State) (t : Nat) (x : Tenant) : (s.setTenant t x).tick = s.tick := rfl
@[simp] theorem State.setTenant_mem (s : State) (t : Nat) (x : Tenant) : (s.setTenant t x).mem = s.mem := rfl
@[simp] theorem State.setTenant_tags (s : State) (t : Nat) (x : Tenant) : (s.setTenant t x).tags = s.tags := rfl
@[simp] theorem State.setTenant_poison (s : State) (t : Nat) (x : Tenant) : (s.setTenant t x).poison = s.poison := rfl
@[simp] theorem State.setTenant_ctxs (s : State) (t : Nat) (x : Tenant) : (s.setTenant t x).ctxs = s.ctxs := rfl
@[simp] theorem State.setTenant_cores (s : State) (t : Nat) (x : Tenant) : (s.setTenant t x).cores = s.cores := rfl
@[simp] theorem State.setTenant_press (s : State) (t : Nat) (x : Tenant) : (s.setTenant t x).press = s.press := rfl
@[simp] theorem State.setTenant_leases (s : State) (t : Nat) (x : Tenant) : (s.setTenant t x).leases = s.leases := rfl
@[simp] theorem State.setTenant_requests (s : State) (t : Nat) (x : Tenant) : (s.setTenant t x).requests = s.requests := rfl
@[simp] theorem State.setTenant_migrations (s : State) (t : Nat) (x : Tenant) : (s.setTenant t x).migrations = s.migrations := rfl
@[simp] theorem State.setTenant_dies (s : State) (t : Nat) (x : Tenant) : (s.setTenant t x).dies = s.dies := rfl
@[simp] theorem State.setTenant_cards (s : State) (t : Nat) (x : Tenant) : (s.setTenant t x).cards = s.cards := rfl
@[simp] theorem State.setTenant_links (s : State) (t : Nat) (x : Tenant) : (s.setTenant t x).links = s.links := rfl
@[simp] theorem State.setTenant_runs (s : State) (t : Nat) (x : Tenant) : (s.setTenant t x).runs = s.runs := rfl
@[simp] theorem State.setTenant_queues (s : State) (t : Nat) (x : Tenant) : (s.setTenant t x).queues = s.queues := rfl
@[simp] theorem State.setTenant_harts (s : State) (t : Nat) (x : Tenant) : (s.setTenant t x).harts = s.harts := rfl
@[simp] theorem State.setTenant_hostMap (s : State) (t : Nat) (x : Tenant) : (s.setTenant t x).hostMap = s.hostMap := rfl
@[simp] theorem State.setTenant_dev (s : State) (t : Nat) (x : Tenant) : (s.setTenant t x).dev = s.dev := rfl

/-! ### setQueue -/

@[simp] theorem State.setQueue_twoCards (s : State) (q : Nat) (x : Queue) : (s.setQueue q x).twoCards = s.twoCards := rfl
@[simp] theorem State.setQueue_agenda (s : State) (q : Nat) (x : Queue) : (s.setQueue q x).agenda = s.agenda := rfl
@[simp] theorem State.setQueue_cur (s : State) (q : Nat) (x : Queue) : (s.setQueue q x).cur = s.cur := rfl
@[simp] theorem State.setQueue_tick (s : State) (q : Nat) (x : Queue) : (s.setQueue q x).tick = s.tick := rfl
@[simp] theorem State.setQueue_mem (s : State) (q : Nat) (x : Queue) : (s.setQueue q x).mem = s.mem := rfl
@[simp] theorem State.setQueue_tags (s : State) (q : Nat) (x : Queue) : (s.setQueue q x).tags = s.tags := rfl
@[simp] theorem State.setQueue_poison (s : State) (q : Nat) (x : Queue) : (s.setQueue q x).poison = s.poison := rfl
@[simp] theorem State.setQueue_ctxs (s : State) (q : Nat) (x : Queue) : (s.setQueue q x).ctxs = s.ctxs := rfl
@[simp] theorem State.setQueue_cores (s : State) (q : Nat) (x : Queue) : (s.setQueue q x).cores = s.cores := rfl
@[simp] theorem State.setQueue_press (s : State) (q : Nat) (x : Queue) : (s.setQueue q x).press = s.press := rfl
@[simp] theorem State.setQueue_leases (s : State) (q : Nat) (x : Queue) : (s.setQueue q x).leases = s.leases := rfl
@[simp] theorem State.setQueue_tenants (s : State) (q : Nat) (x : Queue) : (s.setQueue q x).tenants = s.tenants := rfl
@[simp] theorem State.setQueue_requests (s : State) (q : Nat) (x : Queue) : (s.setQueue q x).requests = s.requests := rfl
@[simp] theorem State.setQueue_migrations (s : State) (q : Nat) (x : Queue) : (s.setQueue q x).migrations = s.migrations := rfl
@[simp] theorem State.setQueue_dies (s : State) (q : Nat) (x : Queue) : (s.setQueue q x).dies = s.dies := rfl
@[simp] theorem State.setQueue_cards (s : State) (q : Nat) (x : Queue) : (s.setQueue q x).cards = s.cards := rfl
@[simp] theorem State.setQueue_links (s : State) (q : Nat) (x : Queue) : (s.setQueue q x).links = s.links := rfl
@[simp] theorem State.setQueue_runs (s : State) (q : Nat) (x : Queue) : (s.setQueue q x).runs = s.runs := rfl
@[simp] theorem State.setQueue_harts (s : State) (q : Nat) (x : Queue) : (s.setQueue q x).harts = s.harts := rfl
@[simp] theorem State.setQueue_hostMap (s : State) (q : Nat) (x : Queue) : (s.setQueue q x).hostMap = s.hostMap := rfl
@[simp] theorem State.setQueue_dev (s : State) (q : Nat) (x : Queue) : (s.setQueue q x).dev = s.dev := rfl

/-! ### setHart -/

@[simp] theorem State.setHart_twoCards (s : State) (h : Nat) (x : CommandHart) : (s.setHart h x).twoCards = s.twoCards := rfl
@[simp] theorem State.setHart_agenda (s : State) (h : Nat) (x : CommandHart) : (s.setHart h x).agenda = s.agenda := rfl
@[simp] theorem State.setHart_cur (s : State) (h : Nat) (x : CommandHart) : (s.setHart h x).cur = s.cur := rfl
@[simp] theorem State.setHart_tick (s : State) (h : Nat) (x : CommandHart) : (s.setHart h x).tick = s.tick := rfl
@[simp] theorem State.setHart_mem (s : State) (h : Nat) (x : CommandHart) : (s.setHart h x).mem = s.mem := rfl
@[simp] theorem State.setHart_tags (s : State) (h : Nat) (x : CommandHart) : (s.setHart h x).tags = s.tags := rfl
@[simp] theorem State.setHart_poison (s : State) (h : Nat) (x : CommandHart) : (s.setHart h x).poison = s.poison := rfl
@[simp] theorem State.setHart_ctxs (s : State) (h : Nat) (x : CommandHart) : (s.setHart h x).ctxs = s.ctxs := rfl
@[simp] theorem State.setHart_cores (s : State) (h : Nat) (x : CommandHart) : (s.setHart h x).cores = s.cores := rfl
@[simp] theorem State.setHart_press (s : State) (h : Nat) (x : CommandHart) : (s.setHart h x).press = s.press := rfl
@[simp] theorem State.setHart_leases (s : State) (h : Nat) (x : CommandHart) : (s.setHart h x).leases = s.leases := rfl
@[simp] theorem State.setHart_tenants (s : State) (h : Nat) (x : CommandHart) : (s.setHart h x).tenants = s.tenants := rfl
@[simp] theorem State.setHart_requests (s : State) (h : Nat) (x : CommandHart) : (s.setHart h x).requests = s.requests := rfl
@[simp] theorem State.setHart_migrations (s : State) (h : Nat) (x : CommandHart) : (s.setHart h x).migrations = s.migrations := rfl
@[simp] theorem State.setHart_dies (s : State) (h : Nat) (x : CommandHart) : (s.setHart h x).dies = s.dies := rfl
@[simp] theorem State.setHart_cards (s : State) (h : Nat) (x : CommandHart) : (s.setHart h x).cards = s.cards := rfl
@[simp] theorem State.setHart_links (s : State) (h : Nat) (x : CommandHart) : (s.setHart h x).links = s.links := rfl
@[simp] theorem State.setHart_runs (s : State) (h : Nat) (x : CommandHart) : (s.setHart h x).runs = s.runs := rfl
@[simp] theorem State.setHart_queues (s : State) (h : Nat) (x : CommandHart) : (s.setHart h x).queues = s.queues := rfl
@[simp] theorem State.setHart_dev (s : State) (h : Nat) (x : CommandHart) : (s.setHart h x).dev = s.dev := rfl

/-! ### writeHome, setLease -/

/-- A write at its home changes the bytes, the tags and the poison of memory, and nothing else. -/
theorem State.writeHome_shape (s : State) (a : Nat) (bs : List Byte) :
    ∃ m t p, s.writeHome a bs = { s with mem := m, tags := t, poison := p } := by
  have bytes (s : State) (a : Nat) (bs : List Byte) : ∃ m, s.setBytes a bs = { s with mem := m } := by
    induction bs generalizing s a with
    | nil => exact ⟨s.mem, rfl⟩
    | cons b rest ih => obtain ⟨m, h⟩ := ih (s.setByte a b) (a + 1); exact ⟨m, h⟩
  have tags (s : State) (a : Nat) (is : List Nat) :
      ∃ t, is.foldl (fun s i => s.setTag (a + 32 * i) false) s = { s with tags := t } := by
    induction is generalizing s with
    | nil => exact ⟨s.tags, rfl⟩
    | cons i rest ih => obtain ⟨t, h⟩ := ih (s.setTag (a + 32 * i) false); exact ⟨t, h⟩
  have clean (s : State) (g : Nat → Nat) (ok : Nat → Bool) (is : List Nat) :
      ∃ p, is.foldl (fun s i => if ok i then s.setPoison (g i) false else s) s = { s with poison := p } := by
    induction is generalizing s with
    | nil => exact ⟨s.poison, rfl⟩
    | cons i rest ih =>
      by_cases h : ok i
      · obtain ⟨p, e⟩ := ih (s.setPoison (g i) false); exact ⟨p, by rw [List.foldl_cons, if_pos h, e]; rfl⟩
      · obtain ⟨p, e⟩ := ih s; exact ⟨p, by rw [List.foldl_cons, if_neg h, e]⟩
  obtain ⟨m, hm⟩ := bytes s a bs
  obtain ⟨t, ht⟩ : ∃ t, (s.setBytes a bs).clearTags a bs.length = { s.setBytes a bs with tags := t } := by
    unfold State.clearTags
    split
    · exact ⟨_, rfl⟩
    · exact tags _ a _
  obtain ⟨p, hp⟩ := clean ((s.setBytes a bs).clearTags a bs.length) (fun i => 32 * ((a + 31) / 32 + i))
    (fun i => a ≤ 32 * ((a + 31) / 32 + i) && 32 * ((a + 31) / 32 + i) + 32 ≤ a + bs.length) (List.range (bs.length / 32 + 1))
  exact ⟨m, t, p, by rw [State.writeHome, State.clearPoison]; exact hp.trans (by rw [ht, hm])⟩

@[simp] theorem State.writeHome_twoCards (s : State) (a : Nat) (bs : List Byte) : (s.writeHome a bs).twoCards = s.twoCards := by
  obtain ⟨_, _, _, h⟩ := s.writeHome_shape a bs; rw [h]
@[simp] theorem State.writeHome_agenda (s : State) (a : Nat) (bs : List Byte) : (s.writeHome a bs).agenda = s.agenda := by
  obtain ⟨_, _, _, h⟩ := s.writeHome_shape a bs; rw [h]
@[simp] theorem State.writeHome_cur (s : State) (a : Nat) (bs : List Byte) : (s.writeHome a bs).cur = s.cur := by
  obtain ⟨_, _, _, h⟩ := s.writeHome_shape a bs; rw [h]
@[simp] theorem State.writeHome_tick (s : State) (a : Nat) (bs : List Byte) : (s.writeHome a bs).tick = s.tick := by
  obtain ⟨_, _, _, h⟩ := s.writeHome_shape a bs; rw [h]
@[simp] theorem State.writeHome_ctxs (s : State) (a : Nat) (bs : List Byte) : (s.writeHome a bs).ctxs = s.ctxs := by
  obtain ⟨_, _, _, h⟩ := s.writeHome_shape a bs; rw [h]
@[simp] theorem State.writeHome_cores (s : State) (a : Nat) (bs : List Byte) : (s.writeHome a bs).cores = s.cores := by
  obtain ⟨_, _, _, h⟩ := s.writeHome_shape a bs; rw [h]
@[simp] theorem State.writeHome_press (s : State) (a : Nat) (bs : List Byte) : (s.writeHome a bs).press = s.press := by
  obtain ⟨_, _, _, h⟩ := s.writeHome_shape a bs; rw [h]
@[simp] theorem State.writeHome_leases (s : State) (a : Nat) (bs : List Byte) : (s.writeHome a bs).leases = s.leases := by
  obtain ⟨_, _, _, h⟩ := s.writeHome_shape a bs; rw [h]
@[simp] theorem State.writeHome_tenants (s : State) (a : Nat) (bs : List Byte) : (s.writeHome a bs).tenants = s.tenants := by
  obtain ⟨_, _, _, h⟩ := s.writeHome_shape a bs; rw [h]
@[simp] theorem State.writeHome_requests (s : State) (a : Nat) (bs : List Byte) : (s.writeHome a bs).requests = s.requests := by
  obtain ⟨_, _, _, h⟩ := s.writeHome_shape a bs; rw [h]
@[simp] theorem State.writeHome_migrations (s : State) (a : Nat) (bs : List Byte) : (s.writeHome a bs).migrations = s.migrations := by
  obtain ⟨_, _, _, h⟩ := s.writeHome_shape a bs; rw [h]
@[simp] theorem State.writeHome_dies (s : State) (a : Nat) (bs : List Byte) : (s.writeHome a bs).dies = s.dies := by
  obtain ⟨_, _, _, h⟩ := s.writeHome_shape a bs; rw [h]
@[simp] theorem State.writeHome_cards (s : State) (a : Nat) (bs : List Byte) : (s.writeHome a bs).cards = s.cards := by
  obtain ⟨_, _, _, h⟩ := s.writeHome_shape a bs; rw [h]
@[simp] theorem State.writeHome_links (s : State) (a : Nat) (bs : List Byte) : (s.writeHome a bs).links = s.links := by
  obtain ⟨_, _, _, h⟩ := s.writeHome_shape a bs; rw [h]
@[simp] theorem State.writeHome_runs (s : State) (a : Nat) (bs : List Byte) : (s.writeHome a bs).runs = s.runs := by
  obtain ⟨_, _, _, h⟩ := s.writeHome_shape a bs; rw [h]
@[simp] theorem State.writeHome_queues (s : State) (a : Nat) (bs : List Byte) : (s.writeHome a bs).queues = s.queues := by
  obtain ⟨_, _, _, h⟩ := s.writeHome_shape a bs; rw [h]
@[simp] theorem State.writeHome_harts (s : State) (a : Nat) (bs : List Byte) : (s.writeHome a bs).harts = s.harts := by
  obtain ⟨_, _, _, h⟩ := s.writeHome_shape a bs; rw [h]
@[simp] theorem State.writeHome_hostMap (s : State) (a : Nat) (bs : List Byte) : (s.writeHome a bs).hostMap = s.hostMap := by
  obtain ⟨_, _, _, h⟩ := s.writeHome_shape a bs; rw [h]
@[simp] theorem State.writeHome_dev (s : State) (a : Nat) (bs : List Byte) : (s.writeHome a bs).dev = s.dev := by
  obtain ⟨_, _, _, h⟩ := s.writeHome_shape a bs; rw [h]

@[simp] theorem State.setLease_twoCards (s : State) (n : Nat) (x : Lease) : (s.setLease n x).twoCards = s.twoCards := s.writeHome_twoCards _ _
@[simp] theorem State.setLease_agenda (s : State) (n : Nat) (x : Lease) : (s.setLease n x).agenda = s.agenda := s.writeHome_agenda _ _
@[simp] theorem State.setLease_cur (s : State) (n : Nat) (x : Lease) : (s.setLease n x).cur = s.cur := s.writeHome_cur _ _
@[simp] theorem State.setLease_tick (s : State) (n : Nat) (x : Lease) : (s.setLease n x).tick = s.tick := s.writeHome_tick _ _
@[simp] theorem State.setLease_ctxs (s : State) (n : Nat) (x : Lease) : (s.setLease n x).ctxs = s.ctxs := s.writeHome_ctxs _ _
@[simp] theorem State.setLease_cores (s : State) (n : Nat) (x : Lease) : (s.setLease n x).cores = s.cores := s.writeHome_cores _ _
@[simp] theorem State.setLease_press (s : State) (n : Nat) (x : Lease) : (s.setLease n x).press = s.press := s.writeHome_press _ _
@[simp] theorem State.setLease_leases (s : State) (n : Nat) (x : Lease) : (s.setLease n x).leases = s.leases := s.writeHome_leases _ _
@[simp] theorem State.setLease_tenants (s : State) (n : Nat) (x : Lease) : (s.setLease n x).tenants = s.tenants := s.writeHome_tenants _ _
@[simp] theorem State.setLease_requests (s : State) (n : Nat) (x : Lease) : (s.setLease n x).requests = s.requests := s.writeHome_requests _ _
@[simp] theorem State.setLease_migrations (s : State) (n : Nat) (x : Lease) : (s.setLease n x).migrations = s.migrations := s.writeHome_migrations _ _
@[simp] theorem State.setLease_dies (s : State) (n : Nat) (x : Lease) : (s.setLease n x).dies = s.dies := s.writeHome_dies _ _
@[simp] theorem State.setLease_cards (s : State) (n : Nat) (x : Lease) : (s.setLease n x).cards = s.cards := s.writeHome_cards _ _
@[simp] theorem State.setLease_links (s : State) (n : Nat) (x : Lease) : (s.setLease n x).links = s.links := s.writeHome_links _ _
@[simp] theorem State.setLease_runs (s : State) (n : Nat) (x : Lease) : (s.setLease n x).runs = s.runs := s.writeHome_runs _ _
@[simp] theorem State.setLease_queues (s : State) (n : Nat) (x : Lease) : (s.setLease n x).queues = s.queues := s.writeHome_queues _ _
@[simp] theorem State.setLease_harts (s : State) (n : Nat) (x : Lease) : (s.setLease n x).harts = s.harts := s.writeHome_harts _ _
@[simp] theorem State.setLease_hostMap (s : State) (n : Nat) (x : Lease) : (s.setLease n x).hostMap = s.hostMap := s.writeHome_hostMap _ _
@[simp] theorem State.setLease_dev (s : State) (n : Nat) (x : Lease) : (s.setLease n x).dev = s.dev := s.writeHome_dev _ _

/-! ### updRun -/

@[simp] theorem State.updRun_twoCards (s : State) (i : Nat) (f : Run → Run) : (s.updRun i f).twoCards = s.twoCards := rfl
@[simp] theorem State.updRun_agenda (s : State) (i : Nat) (f : Run → Run) : (s.updRun i f).agenda = s.agenda := rfl
@[simp] theorem State.updRun_cur (s : State) (i : Nat) (f : Run → Run) : (s.updRun i f).cur = s.cur := rfl
@[simp] theorem State.updRun_tick (s : State) (i : Nat) (f : Run → Run) : (s.updRun i f).tick = s.tick := rfl
@[simp] theorem State.updRun_mem (s : State) (i : Nat) (f : Run → Run) : (s.updRun i f).mem = s.mem := rfl
@[simp] theorem State.updRun_tags (s : State) (i : Nat) (f : Run → Run) : (s.updRun i f).tags = s.tags := rfl
@[simp] theorem State.updRun_poison (s : State) (i : Nat) (f : Run → Run) : (s.updRun i f).poison = s.poison := rfl
@[simp] theorem State.updRun_ctxs (s : State) (i : Nat) (f : Run → Run) : (s.updRun i f).ctxs = s.ctxs := rfl
@[simp] theorem State.updRun_cores (s : State) (i : Nat) (f : Run → Run) : (s.updRun i f).cores = s.cores := rfl
@[simp] theorem State.updRun_press (s : State) (i : Nat) (f : Run → Run) : (s.updRun i f).press = s.press := rfl
@[simp] theorem State.updRun_leases (s : State) (i : Nat) (f : Run → Run) : (s.updRun i f).leases = s.leases := rfl
@[simp] theorem State.updRun_tenants (s : State) (i : Nat) (f : Run → Run) : (s.updRun i f).tenants = s.tenants := rfl
@[simp] theorem State.updRun_requests (s : State) (i : Nat) (f : Run → Run) : (s.updRun i f).requests = s.requests := rfl
@[simp] theorem State.updRun_migrations (s : State) (i : Nat) (f : Run → Run) : (s.updRun i f).migrations = s.migrations := rfl
@[simp] theorem State.updRun_dies (s : State) (i : Nat) (f : Run → Run) : (s.updRun i f).dies = s.dies := rfl
@[simp] theorem State.updRun_cards (s : State) (i : Nat) (f : Run → Run) : (s.updRun i f).cards = s.cards := rfl
@[simp] theorem State.updRun_links (s : State) (i : Nat) (f : Run → Run) : (s.updRun i f).links = s.links := rfl
@[simp] theorem State.updRun_queues (s : State) (i : Nat) (f : Run → Run) : (s.updRun i f).queues = s.queues := rfl
@[simp] theorem State.updRun_harts (s : State) (i : Nat) (f : Run → Run) : (s.updRun i f).harts = s.harts := rfl
@[simp] theorem State.updRun_hostMap (s : State) (i : Nat) (f : Run → Run) : (s.updRun i f).hostMap = s.hostMap := rfl
@[simp] theorem State.updRun_dev (s : State) (i : Nat) (f : Run → Run) : (s.updRun i f).dev = s.dev := rfl

/-! ### setByte -/

@[simp] theorem State.setByte_twoCards (s : State) (a : Nat) (x : Byte) : (s.setByte a x).twoCards = s.twoCards := rfl
@[simp] theorem State.setByte_agenda (s : State) (a : Nat) (x : Byte) : (s.setByte a x).agenda = s.agenda := rfl
@[simp] theorem State.setByte_cur (s : State) (a : Nat) (x : Byte) : (s.setByte a x).cur = s.cur := rfl
@[simp] theorem State.setByte_tick (s : State) (a : Nat) (x : Byte) : (s.setByte a x).tick = s.tick := rfl
@[simp] theorem State.setByte_tags (s : State) (a : Nat) (x : Byte) : (s.setByte a x).tags = s.tags := rfl
@[simp] theorem State.setByte_poison (s : State) (a : Nat) (x : Byte) : (s.setByte a x).poison = s.poison := rfl
@[simp] theorem State.setByte_ctxs (s : State) (a : Nat) (x : Byte) : (s.setByte a x).ctxs = s.ctxs := rfl
@[simp] theorem State.setByte_cores (s : State) (a : Nat) (x : Byte) : (s.setByte a x).cores = s.cores := rfl
@[simp] theorem State.setByte_press (s : State) (a : Nat) (x : Byte) : (s.setByte a x).press = s.press := rfl
@[simp] theorem State.setByte_leases (s : State) (a : Nat) (x : Byte) : (s.setByte a x).leases = s.leases := rfl
@[simp] theorem State.setByte_tenants (s : State) (a : Nat) (x : Byte) : (s.setByte a x).tenants = s.tenants := rfl
@[simp] theorem State.setByte_requests (s : State) (a : Nat) (x : Byte) : (s.setByte a x).requests = s.requests := rfl
@[simp] theorem State.setByte_migrations (s : State) (a : Nat) (x : Byte) : (s.setByte a x).migrations = s.migrations := rfl
@[simp] theorem State.setByte_dies (s : State) (a : Nat) (x : Byte) : (s.setByte a x).dies = s.dies := rfl
@[simp] theorem State.setByte_cards (s : State) (a : Nat) (x : Byte) : (s.setByte a x).cards = s.cards := rfl
@[simp] theorem State.setByte_links (s : State) (a : Nat) (x : Byte) : (s.setByte a x).links = s.links := rfl
@[simp] theorem State.setByte_runs (s : State) (a : Nat) (x : Byte) : (s.setByte a x).runs = s.runs := rfl
@[simp] theorem State.setByte_queues (s : State) (a : Nat) (x : Byte) : (s.setByte a x).queues = s.queues := rfl
@[simp] theorem State.setByte_harts (s : State) (a : Nat) (x : Byte) : (s.setByte a x).harts = s.harts := rfl
@[simp] theorem State.setByte_hostMap (s : State) (a : Nat) (x : Byte) : (s.setByte a x).hostMap = s.hostMap := rfl
@[simp] theorem State.setByte_dev (s : State) (a : Nat) (x : Byte) : (s.setByte a x).dev = s.dev := rfl

/-! ### setTag -/

@[simp] theorem State.setTag_twoCards (s : State) (a : Nat) (t : Bool) : (s.setTag a t).twoCards = s.twoCards := rfl
@[simp] theorem State.setTag_agenda (s : State) (a : Nat) (t : Bool) : (s.setTag a t).agenda = s.agenda := rfl
@[simp] theorem State.setTag_cur (s : State) (a : Nat) (t : Bool) : (s.setTag a t).cur = s.cur := rfl
@[simp] theorem State.setTag_tick (s : State) (a : Nat) (t : Bool) : (s.setTag a t).tick = s.tick := rfl
@[simp] theorem State.setTag_mem (s : State) (a : Nat) (t : Bool) : (s.setTag a t).mem = s.mem := rfl
@[simp] theorem State.setTag_poison (s : State) (a : Nat) (t : Bool) : (s.setTag a t).poison = s.poison := rfl
@[simp] theorem State.setTag_ctxs (s : State) (a : Nat) (t : Bool) : (s.setTag a t).ctxs = s.ctxs := rfl
@[simp] theorem State.setTag_cores (s : State) (a : Nat) (t : Bool) : (s.setTag a t).cores = s.cores := rfl
@[simp] theorem State.setTag_press (s : State) (a : Nat) (t : Bool) : (s.setTag a t).press = s.press := rfl
@[simp] theorem State.setTag_leases (s : State) (a : Nat) (t : Bool) : (s.setTag a t).leases = s.leases := rfl
@[simp] theorem State.setTag_tenants (s : State) (a : Nat) (t : Bool) : (s.setTag a t).tenants = s.tenants := rfl
@[simp] theorem State.setTag_requests (s : State) (a : Nat) (t : Bool) : (s.setTag a t).requests = s.requests := rfl
@[simp] theorem State.setTag_migrations (s : State) (a : Nat) (t : Bool) : (s.setTag a t).migrations = s.migrations := rfl
@[simp] theorem State.setTag_dies (s : State) (a : Nat) (t : Bool) : (s.setTag a t).dies = s.dies := rfl
@[simp] theorem State.setTag_cards (s : State) (a : Nat) (t : Bool) : (s.setTag a t).cards = s.cards := rfl
@[simp] theorem State.setTag_links (s : State) (a : Nat) (t : Bool) : (s.setTag a t).links = s.links := rfl
@[simp] theorem State.setTag_runs (s : State) (a : Nat) (t : Bool) : (s.setTag a t).runs = s.runs := rfl
@[simp] theorem State.setTag_queues (s : State) (a : Nat) (t : Bool) : (s.setTag a t).queues = s.queues := rfl
@[simp] theorem State.setTag_harts (s : State) (a : Nat) (t : Bool) : (s.setTag a t).harts = s.harts := rfl
@[simp] theorem State.setTag_hostMap (s : State) (a : Nat) (t : Bool) : (s.setTag a t).hostMap = s.hostMap := rfl
@[simp] theorem State.setTag_dev (s : State) (a : Nat) (t : Bool) : (s.setTag a t).dev = s.dev := rfl

/-! ### setPoison -/

@[simp] theorem State.setPoison_twoCards (s : State) (a : Nat) (t : Bool) : (s.setPoison a t).twoCards = s.twoCards := rfl
@[simp] theorem State.setPoison_agenda (s : State) (a : Nat) (t : Bool) : (s.setPoison a t).agenda = s.agenda := rfl
@[simp] theorem State.setPoison_cur (s : State) (a : Nat) (t : Bool) : (s.setPoison a t).cur = s.cur := rfl
@[simp] theorem State.setPoison_tick (s : State) (a : Nat) (t : Bool) : (s.setPoison a t).tick = s.tick := rfl
@[simp] theorem State.setPoison_mem (s : State) (a : Nat) (t : Bool) : (s.setPoison a t).mem = s.mem := rfl
@[simp] theorem State.setPoison_tags (s : State) (a : Nat) (t : Bool) : (s.setPoison a t).tags = s.tags := rfl
@[simp] theorem State.setPoison_ctxs (s : State) (a : Nat) (t : Bool) : (s.setPoison a t).ctxs = s.ctxs := rfl
@[simp] theorem State.setPoison_cores (s : State) (a : Nat) (t : Bool) : (s.setPoison a t).cores = s.cores := rfl
@[simp] theorem State.setPoison_press (s : State) (a : Nat) (t : Bool) : (s.setPoison a t).press = s.press := rfl
@[simp] theorem State.setPoison_leases (s : State) (a : Nat) (t : Bool) : (s.setPoison a t).leases = s.leases := rfl
@[simp] theorem State.setPoison_tenants (s : State) (a : Nat) (t : Bool) : (s.setPoison a t).tenants = s.tenants := rfl
@[simp] theorem State.setPoison_requests (s : State) (a : Nat) (t : Bool) : (s.setPoison a t).requests = s.requests := rfl
@[simp] theorem State.setPoison_migrations (s : State) (a : Nat) (t : Bool) : (s.setPoison a t).migrations = s.migrations := rfl
@[simp] theorem State.setPoison_dies (s : State) (a : Nat) (t : Bool) : (s.setPoison a t).dies = s.dies := rfl
@[simp] theorem State.setPoison_cards (s : State) (a : Nat) (t : Bool) : (s.setPoison a t).cards = s.cards := rfl
@[simp] theorem State.setPoison_links (s : State) (a : Nat) (t : Bool) : (s.setPoison a t).links = s.links := rfl
@[simp] theorem State.setPoison_runs (s : State) (a : Nat) (t : Bool) : (s.setPoison a t).runs = s.runs := rfl
@[simp] theorem State.setPoison_queues (s : State) (a : Nat) (t : Bool) : (s.setPoison a t).queues = s.queues := rfl
@[simp] theorem State.setPoison_harts (s : State) (a : Nat) (t : Bool) : (s.setPoison a t).harts = s.harts := rfl
@[simp] theorem State.setPoison_hostMap (s : State) (a : Nat) (t : Bool) : (s.setPoison a t).hostMap = s.hostMap := rfl
@[simp] theorem State.setPoison_dev (s : State) (a : Nat) (t : Bool) : (s.setPoison a t).dev = s.dev := rfl

/-! ### Reading after an update -/

theorem State.ctxOf_setCtxOf (s : State) (a b : Agent) (c : Ctx) :
    (s.setCtxOf a c).ctxOf b = if agentKey b = agentKey a then c else s.ctxOf b := Sparse.get_put _ _ _ _ _
@[simp] theorem State.ctxOf_setCtxOf_self (s : State) (a : Agent) (c : Ctx) : (s.setCtxOf a c).ctxOf a = c :=
  Sparse.get_put_self _ _ _ _
theorem State.coreAt_setCoreAt (s : State) (k j : Nat) (c : Core) :
    (s.setCoreAt k c).coreAt j = if j = k then c else s.coreAt j := Sparse.get_put _ _ _ _ _
@[simp] theorem State.coreAt_setCoreAt_self (s : State) (k : Nat) (c : Core) : (s.setCoreAt k c).coreAt k = c :=
  Sparse.get_put_self _ _ _ _
theorem State.die_setDie (s : State) (d e : Nat) (x : Die) : (s.setDie d x).die e = if e = d then x else s.die e :=
  Sparse.get_put _ _ _ _ _
@[simp] theorem State.die_setDie_self (s : State) (d : Nat) (x : Die) : (s.setDie d x).die d = x := Sparse.get_put_self _ _ _ _
theorem State.byteAt_setByte (s : State) (a b : Nat) (x : Byte) :
    (s.setByte a x).byteAt b = if b = a then x else s.byteAt b := Sparse.get_put _ _ _ _ _
theorem State.tagAt_setTag (s : State) (a b : Nat) (t : Bool) :
    (s.setTag a t).tagAt b = if b / 32 = a / 32 then t else s.tagAt b := Sparse.get_put _ _ _ _ _
@[simp] theorem State.card_setCard_self (s : State) (k : Nat) (x : Card) : (s.setCard k x).card k = x := Sparse.get_put_self _ _ _ _
@[simp] theorem State.link_setLink_self (s : State) (p : Port) (x : Link) : (s.setLink p x).link p = x := Sparse.get_put_self _ _ _ _
@[simp] theorem State.tenant_setTenant_self (s : State) (t : Nat) (x : Tenant) : (s.setTenant t x).tenant t = x := Sparse.get_put_self _ _ _ _
@[simp] theorem State.queue_setQueue_self (s : State) (q : Nat) (x : Queue) : (s.setQueue q x).queue q = x := Sparse.get_put_self _ _ _ _
@[simp] theorem State.hart_setHart_self (s : State) (h : Nat) (x : CommandHart) : (s.setHart h x).hart h = x := Sparse.get_put_self _ _ _ _

/-! ### The issuing agent -/

@[simp] theorem State.cur_setCtx (s : State) (c : Ctx) : (s.setCtx c).cur = s.cur := rfl
@[simp] theorem State.ctx_setCtx (s : State) (c : Ctx) : (s.setCtx c).ctx = c := State.ctxOf_setCtxOf_self s s.cur c
@[simp] theorem State.mem_setCtx (s : State) (c : Ctx) : (s.setCtx c).mem = s.mem := rfl
@[simp] theorem State.coreNo_setCtx (s : State) (c : Ctx) : (s.setCtx c).coreNo = s.coreNo := rfl
@[simp] theorem State.core_setCtx (s : State) (c : Ctx) : (s.setCtx c).core = s.core := rfl
@[simp] theorem State.ctx_setCoreAt (s : State) (k : Nat) (c : Core) : (s.setCoreAt k c).ctx = s.ctx := rfl
@[simp] theorem State.pc_setPc (s : State) (x : Word) : (s.setPc x).pc = x := by simp [State.setPc, State.pc]
@[simp] theorem Ctx.pc_setG (c : Ctx) (n : BitVec 5) (x : Word) : (c.setG n x).pc = c.pc := by unfold Ctx.setG; split <;> rfl
@[simp] theorem Ctx.sr_setG (c : Ctx) (n : BitVec 5) (x : Word) : (c.setG n x).sr = c.sr := by unfold Ctx.setG; split <;> rfl
@[simp] theorem Ctx.owed_setG (c : Ctx) (n : BitVec 5) (x : Word) : (c.setG n x).owed = c.owed := by unfold Ctx.setG; split <;> rfl
@[simp] theorem Ctx.susp_setG (c : Ctx) (n : BitVec 5) (x : Word) : (c.setG n x).susp = c.susp := by unfold Ctx.setG; split <;> rfl
@[simp] theorem State.pc_setG (s : State) (n : BitVec 5) (x : Word) : (s.setG n x).pc = s.pc := by simp [State.setG, State.pc]
@[simp] theorem State.g_setPc (s : State) (n : BitVec 5) (x : Word) : (s.setPc x).g n = s.g n := by simp [State.setPc, State.g]
/-- g0 reads 0 whatever is written; any other register reads what was last written (R196). -/
theorem State.g_setG (s : State) (n k : BitVec 5) (x : Word) :
    (s.setG n x).g k = if k = n ∧ n ≠ 0 then x else s.g k := by
  by_cases hn : n = 0#5
  · subst hn; simp [State.setG, Ctx.setG, State.g]
  · by_cases hk : k = 0#5
    · subst hk; simp [State.g]; exact fun h => absurd h.symm hn
    · by_cases h : k = n
      · subst h; simp [State.setG, Ctx.setG, State.g, hk]
      · have h' : ¬ n.toNat = k.toNat := fun e => h (BitVec.eq_of_toNat_eq e.symm)
        simp [State.setG, Ctx.setG, State.g, hk, hn, h, h']

end Sys2Proof.Machine
end

