-- ==== Sys2Proof/Laws/Memory.lean ====
section
/-! SUPPORT. What a reader of memory finds after each memory operation, and that every one of them keeps the canonical
form. -/

namespace Sys2Proof

/-! ### The canonical form as an order -/

theorem Sparse.wfFrom_iff {α : Type} [DecidableEq α] (d : α) (lo : Nat) (l : List (Nat × α)) :
    Sparse.wfFrom d lo l = true ↔ (∀ p ∈ l, lo ≤ p.1 ∧ p.2 ≠ d) ∧ l.Pairwise (fun p q => p.1 < q.1) := by
  induction l generalizing lo with
  | nil => simp [Sparse.wfFrom]
  | cons p rest ih =>
    obtain ⟨k, x⟩ := p
    simp only [Sparse.wfFrom, Bool.and_eq_true, decide_eq_true_eq, ih, List.pairwise_cons, List.mem_cons, forall_eq_or_imp]
    constructor
    · exact fun h => ⟨⟨h.1, fun q hq => ⟨by have := (h.2.1 q hq).1; omega, (h.2.1 q hq).2⟩⟩,
        fun q hq => (h.2.1 q hq).1, h.2.2⟩
    · exact fun h => ⟨h.1.1, fun q hq => ⟨h.2.1 q hq, (h.1.2 q hq).2⟩, h.2.2⟩

theorem Sparse.wf_filter {α : Type} [DecidableEq α] (d : α) (l : List (Nat × α)) (f : Nat × α → Bool)
    (h : Sparse.wf d l = true) : Sparse.wf d (l.filter f) = true := by
  rw [Sparse.wf, Sparse.wfFrom_iff] at *
  exact ⟨fun p hp => h.1 p (List.mem_filter.1 hp).1, h.2.filter f⟩

theorem Sparse.wf_append {α : Type} [DecidableEq α] (d : α) (l r : List (Nat × α)) (hl : Sparse.wf d l = true)
    (hr : Sparse.wf d r = true) (h : ∀ p ∈ l, ∀ q ∈ r, p.1 < q.1) : Sparse.wf d (l ++ r) = true := by
  rw [Sparse.wf, Sparse.wfFrom_iff] at *
  exact ⟨fun p hp => (List.mem_append.1 hp).elim (hl.1 p) (hr.1 p), List.pairwise_append.2 ⟨hl.2, hr.2, h⟩⟩

theorem Sparse.wf_foldl_put {α β : Type} [DecidableEq α] (d : α) (key : β → Nat) (val : β → α) (xs : List β)
    (l : List (Nat × α)) (h : Sparse.wf d l = true) :
    Sparse.wf d (xs.foldl (fun m e => Sparse.put d m (key e) (val e)) l) = true := by
  induction xs generalizing l with
  | nil => exact h
  | cons e rest ih => exact ih _ (Sparse.wf_put d l _ _ h)

namespace Machine

theorem copyKeys_wf {α : Type} [DecidableEq α] (d : α) (l : Sparse α) (a b n : Nat) (h : Sparse.wf d l = true) :
    Sparse.wf d (copyKeys d l a b n) = true :=
  Sparse.wf_foldl_put d Prod.fst Prod.snd _ _ (Sparse.wf_filter d l _ h)

theorem mixLocal_wf {α : Type} [DecidableEq α] (d : α) (core u : Nat) (old new : Sparse α) (ho : Sparse.wf d old = true)
    (hn : Sparse.wf d new = true) : Sparse.wf d (mixLocal core u old new) = true := by
  have lt {a b : Nat} (h : u * a < u * b) : a < b := Nat.lt_of_mul_lt_mul_left h
  unfold mixLocal
  refine Sparse.wf_append d _ _ (Sparse.wf_append d _ _ (Sparse.wf_filter d old _ ho) (Sparse.wf_filter d new _ hn) ?_)
    (Sparse.wf_filter d old _ ho) ?_
  · intro p hp q hq
    simp only [List.mem_filter, Bool.and_eq_true, decide_eq_true_eq] at hp hq
    exact lt (by omega)
  · intro p hp q hq
    simp only [List.mem_append, List.mem_filter, Bool.and_eq_true, Bool.not_eq_true', Bool.and_eq_false_iff,
      decide_eq_true_eq, decide_eq_false_iff_not] at hp hq
    exact lt (by omega)

/-! ### The invariant, part by part -/

theorem State.inv_iff (s : State) :
    s.Inv ↔ Sparse.wf 0#8 s.mem = true ∧ Sparse.wf false s.tags = true ∧ Sparse.wf false s.poison = true := by
  simp [State.Inv, Memory.wf, and_assoc]

/-- The state after reset lists nothing, so it is in canonical form. -/
theorem memory_wf_reset : Memory.wf State.reset = true := rfl

theorem State.inv_of_memory_eq {s t : State} (h : s.Inv) (hm : t.mem = s.mem) (ht : t.tags = s.tags)
    (hp : t.poison = s.poison) : t.Inv := by rw [State.inv_iff] at *; rwa [hm, ht, hp]

/-! ### One byte, one tag, one poison bit -/

theorem State.inv_setByte (s : State) (a : Nat) (x : Byte) (h : s.Inv) : (s.setByte a x).Inv := by
  rw [State.inv_iff] at *; exact ⟨Sparse.wf_put _ _ _ _ h.1, h.2⟩
theorem State.inv_setTag (s : State) (a : Nat) (x : Bool) (h : s.Inv) : (s.setTag a x).Inv := by
  rw [State.inv_iff] at *; exact ⟨h.1, Sparse.wf_put _ _ _ _ h.2.1, h.2.2⟩
theorem State.inv_setPoison (s : State) (a : Nat) (x : Bool) (h : s.Inv) : (s.setPoison a x).Inv := by
  rw [State.inv_iff] at *; exact ⟨h.1, h.2.1, Sparse.wf_put _ _ _ _ h.2.2⟩

theorem State.poisonAt_setPoison (s : State) (a b : Nat) (x : Bool) :
    (s.setPoison a x).poisonAt b = if b / 32 = a / 32 then x else s.poisonAt b := Sparse.get_put _ _ _ _ _
@[simp] theorem State.tagAt_setByte (s : State) (a b : Nat) (x : Byte) : (s.setByte a x).tagAt b = s.tagAt b := rfl
@[simp] theorem State.poisonAt_setByte (s : State) (a b : Nat) (x : Byte) : (s.setByte a x).poisonAt b = s.poisonAt b := rfl
@[simp] theorem State.byteAt_setTag (s : State) (a b : Nat) (x : Bool) : (s.setTag a x).byteAt b = s.byteAt b := rfl
@[simp] theorem State.poisonAt_setTag (s : State) (a b : Nat) (x : Bool) : (s.setTag a x).poisonAt b = s.poisonAt b := rfl
@[simp] theorem State.byteAt_setPoison (s : State) (a b : Nat) (x : Bool) : (s.setPoison a x).byteAt b = s.byteAt b := rfl
@[simp] theorem State.tagAt_setPoison (s : State) (a b : Nat) (x : Bool) : (s.setPoison a x).tagAt b = s.tagAt b := rfl

/-! ### Writes at the home -/

theorem State.inv_foldl {β : Type} (f : State → β → State) (hf : ∀ s b, s.Inv → (f s b).Inv) (xs : List β) (s : State)
    (h : s.Inv) : (xs.foldl f s).Inv := by
  induction xs generalizing s with
  | nil => exact h
  | cons b rest ih => exact ih _ (hf s b h)

theorem State.inv_setBytes (s : State) (a : Nat) (bs : List Byte) (h : s.Inv) : (s.setBytes a bs).Inv := by
  induction bs generalizing s a with
  | nil => exact h
  | cons b rest ih => exact ih _ _ (State.inv_setByte s a b h)

theorem State.inv_clearTags (s : State) (a n : Nat) (h : s.Inv) : (s.clearTags a n).Inv := by
  unfold State.clearTags
  split
  · exact h
  · exact State.inv_foldl _ (fun s i hs => State.inv_setTag s _ _ hs) _ s h

theorem State.inv_clearPoison (s : State) (a n : Nat) (h : s.Inv) : (s.clearPoison a n).Inv := by
  unfold State.clearPoison
  refine State.inv_foldl _ (fun s i hs => ?_) _ s h
  dsimp only
  split
  · exact State.inv_setPoison s _ _ hs
  · exact hs

theorem State.inv_writeHome (s : State) (a : Nat) (bs : List Byte) (h : s.Inv) : (s.writeHome a bs).Inv :=
  State.inv_clearPoison _ _ _ (State.inv_clearTags _ _ _ (State.inv_setBytes s a bs h))
theorem State.inv_writeWord (s : State) (a : Nat) (x : Word) (h : s.Inv) : (s.writeWord a x).Inv :=
  State.inv_writeHome s a _ h
theorem State.inv_writeCap (s : State) (a : Nat) (c : Cap) (h : s.Inv) : (s.writeCap a c).Inv :=
  State.inv_setTag _ _ _ (State.inv_writeHome s a _ h)

theorem State.byteAt_foldl_frame {β : Type} (f : State → β → State) (b : Nat) (hf : ∀ s x, (f s x).byteAt b = s.byteAt b)
    (xs : List β) (s : State) : (xs.foldl f s).byteAt b = s.byteAt b := by
  induction xs generalizing s with
  | nil => rfl
  | cons x rest ih => exact (ih _).trans (hf s x)

@[simp] theorem State.byteAt_clearTags (s : State) (a n b : Nat) : (s.clearTags a n).byteAt b = s.byteAt b := by
  unfold State.clearTags
  split
  · rfl
  · exact State.byteAt_foldl_frame (fun s i => s.setTag (a + 32 * i) false) b (fun _ _ => rfl) _ s
@[simp] theorem State.byteAt_clearPoison (s : State) (a n b : Nat) : (s.clearPoison a n).byteAt b = s.byteAt b := by
  unfold State.clearPoison
  refine State.byteAt_foldl_frame _ b (fun s x => ?_) _ s
  dsimp only
  split <;> rfl

/-- Every byte after consecutive bytes are written: the byte written there, or the old one. -/
theorem State.byteAt_setBytes (s : State) (a b : Nat) (bs : List Byte) :
    (s.setBytes a bs).byteAt b = if a ≤ b ∧ b < a + bs.length then bs.getD (b - a) 0 else s.byteAt b := by
  induction bs generalizing s a with
  | nil => simp [State.setBytes]
  | cons x rest ih =>
    simp only [State.setBytes, ih, State.byteAt_setByte, List.length_cons]
    by_cases h1 : a + 1 ≤ b ∧ b < a + 1 + rest.length
    · have h2 : a ≤ b ∧ b < a + (rest.length + 1) := by omega
      have h3 : b - a = (b - (a + 1)) + 1 := by omega
      rw [if_pos h1, if_pos h2, h3, List.getD_cons_succ]
    · by_cases h2 : b = a
      · subst h2; simp
      · have h3 : ¬(a ≤ b ∧ b < a + (rest.length + 1)) := by omega
        rw [if_neg h1, if_neg h2, if_neg h3]

/-- Every byte after a write at its home. -/
theorem State.byteAt_writeHome (s : State) (a b : Nat) (bs : List Byte) :
    (s.writeHome a bs).byteAt b = if a ≤ b ∧ b < a + bs.length then bs.getD (b - a) 0 else s.byteAt b := by
  simp [State.writeHome, State.byteAt_setBytes]

/-! ### Slices; the lease table -/

/-- What passes a slice leaves memory alone: which bytes an access finds is no matter of caches (R95). -/
@[simp] theorem State.touchSector_mem (s : State) (a : Nat) (w : Writer) (b x : Bool) :
    (s.touchSector a w b x).mem = s.mem := by unfold State.touchSector; split <;> rfl
@[simp] theorem State.touchSector_tags (s : State) (a : Nat) (w : Writer) (b x : Bool) :
    (s.touchSector a w b x).tags = s.tags := by unfold State.touchSector; split <;> rfl
@[simp] theorem State.touchSector_poison (s : State) (a : Nat) (w : Writer) (b x : Bool) :
    (s.touchSector a w b x).poison = s.poison := by unfold State.touchSector; split <;> rfl
@[simp] theorem State.touch_mem (s : State) (a : Nat) (w : Writer) (b : Bool) : (s.touch a w b).mem = s.mem :=
  State.touchSector_mem s a w b false
@[simp] theorem State.touch_tags (s : State) (a : Nat) (w : Writer) (b : Bool) : (s.touch a w b).tags = s.tags :=
  State.touchSector_tags s a w b false
@[simp] theorem State.touch_poison (s : State) (a : Nat) (w : Writer) (b : Bool) : (s.touch a w b).poison = s.poison :=
  State.touchSector_poison s a w b false
@[simp] theorem State.byteAt_touchSector (s : State) (a b : Nat) (w : Writer) (x y : Bool) :
    (s.touchSector a w x y).byteAt b = s.byteAt b := by simp [State.byteAt]
@[simp] theorem State.byteAt_touch (s : State) (a b : Nat) (w : Writer) (x : Bool) : (s.touch a w x).byteAt b = s.byteAt b := by
  simp [State.byteAt]
theorem State.inv_touchSector (s : State) (a : Nat) (w : Writer) (b x : Bool) (h : s.Inv) : (s.touchSector a w b x).Inv :=
  State.inv_of_memory_eq h (by simp) (by simp) (by simp)
theorem State.inv_touch (s : State) (a : Nat) (w : Writer) (b : Bool) (h : s.Inv) : (s.touch a w b).Inv :=
  State.inv_touchSector s a w b false h
theorem State.inv_touchAll (s : State) (a n : Nat) (w : Writer) (b : Bool) (h : s.Inv) : (s.touchAll a n w b).Inv :=
  State.inv_foldl _ (fun s p hs => State.inv_touchSector s p w b _ hs) _ s h
theorem State.inv_writeBy (s : State) (w : Writer) (a : Nat) (bs : List Byte) (h : s.Inv) : (s.writeBy w a bs).Inv :=
  State.inv_touchAll _ _ _ _ _ (State.inv_writeHome s a bs h)
theorem State.inv_putLease (s : State) (n : Nat) (x : Lease) (h : s.Inv) : (s.putLease n x).Inv :=
  State.inv_touch _ _ _ _ (State.inv_writeHome s _ _ h)
/-- Every byte after firmware or hardware writes: the byte written there, or the old one. -/
theorem State.byteAt_writeBy (s : State) (w : Writer) (a b : Nat) (bs : List Byte) :
    (s.writeBy w a bs).byteAt b = if a ≤ b ∧ b < a + bs.length then bs.getD (b - a) 0 else s.byteAt b :=
  (State.byteAt_foldl_frame _ b (fun s p => State.byteAt_touchSector s p b w false _) _ _).trans (State.byteAt_writeHome s a b bs)

/-- Eight bytes read back as the word they were written as. -/
theorem leNat_leBytes (w : Word) : leNat (leBytes 8 w.toNat) = w.toNat := by
  simp only [leBytes, leNat, BitVec.toNat_ofNat]
  have := w.isLt
  omega
theorem State.wordAt_eq {s : State} {a : Nat} {w : Word}
    (h : ∀ i, i < 8 → s.byteAt (a + i) = (leBytes 8 w.toNat).getD i 0) : s.wordAt a = w := by
  have e : s.bytesAt a 8 = leBytes 8 w.toNat := by
    simp only [State.bytesAt, List.range, List.range.loop, List.map_cons, List.map_nil]
    rw [h 0 (by decide), h 1 (by decide), h 2 (by decide), h 3 (by decide), h 4 (by decide), h 5 (by decide),
      h 6 (by decide), h 7 (by decide)]
    rfl
  rw [State.wordAt, e, leNat_leBytes, BitVec.ofNat_toNat, BitVec.setWidth_eq]
/-- The words of an entry are read back as the entry (R66). -/
theorem leaseOfWords_words (x : Lease) :
    leaseOfWords (0#6 ++ x.state ++ x.gen ++ x.base) (x.owner ++ x.limit) (0#16 ++ x.next ++ x.run ++ x.parent) = x := by
  have part {n m k : Nat} (hi : BitVec n) (mid : BitVec m) (lo : BitVec k) : (hi ++ mid ++ lo).extractLsb' k m = mid := by
    ext i h; simp [BitVec.getLsbD_append, h]
  have low {n k : Nat} (hi : BitVec n) (lo : BitVec k) : (hi ++ lo).extractLsb' 0 k = lo := by
    ext i h; simp [BitVec.getLsbD_append, h]
  have high {n k : Nat} (hi : BitVec n) (lo : BitVec k) : (hi ++ lo).extractLsb' k n = hi := by
    ext i h; simp [BitVec.getLsbD_append, h]
  have up {n m k o w : Nat} (hi : BitVec n) (mid : BitVec m) (lo : BitVec k) (h : k ≤ o) :
      (hi ++ mid ++ lo).extractLsb' o w = (hi ++ mid).extractLsb' (o - k) w := by
    ext i _
    have lo' : ¬o + i < k := by omega
    have e : o + i - k = o - k + i := by omega
    rw [BitVec.getElem_extractLsb', BitVec.getElem_extractLsb', BitVec.getLsbD_append, if_neg lo', e]
  simp only [leaseOfWords, part, low, high]
  rw [up _ _ _ (show 48 ≤ 56 by decide), up _ _ _ (show 16 ≤ 32 by decide)]
  simp only [part]
/-- Byte `8 * j + i` of consecutive words is byte `i` of word `j`. -/
theorem wordBytes_getD (ws : List Word) (j i : Nat) (hi : i < 8) :
    (ws.flatMap (fun w => leBytes 8 w.toNat)).getD (8 * j + i) 0 = (leBytes 8 (ws.getD j 0).toNat).getD i 0 := by
  have len (w : Word) : (leBytes 8 w.toNat).length = 8 := rfl
  induction ws generalizing j with
  | nil => interval_cases i <;> simp [leBytes]
  | cons w rest ih =>
    rw [List.flatMap_cons]
    cases j with
    | zero => rw [List.getD_append _ _ _ _ (by rw [len]; omega)]; simp
    | succ j => rw [List.getD_append_right _ _ _ _ (by rw [len]; omega), len, List.getD_cons_succ, ← ih j]; congr 1; omega
/-- Word `j` of an entry just written is read back. -/
theorem State.wordAt_setLease (s : State) (n j : Nat) (x : Lease) (hj : j < 4) :
    (s.setLease n x).wordAt (leasePlace n + 8 * j) = x.words.getD j 0 := by
  refine State.wordAt_eq (fun i hi => ?_)
  have hl : (x.words.flatMap (fun w => leBytes 8 w.toNat)).length = 32 := by
    simp only [Lease.words, List.flatMap_cons, List.flatMap_nil, List.length_append, List.length_nil, leBytes, List.length_cons]
  rw [State.setLease, State.byteAt_writeHome, hl, if_pos (by omega),
    show leasePlace n + 8 * j + i - leasePlace n = 8 * j + i by omega, wordBytes_getD _ _ _ hi]
/-- A lease is read back from the table as it was set; lease 0 stays as it is (R66). -/
theorem State.lease_setLease_self (s : State) (n : Nat) (x : Lease) : (s.setLease n x).lease n = if n = 0 then Lease.zero else x := by
  unfold State.lease
  split
  · rfl
  · have h0 := s.wordAt_setLease n 0 x (by decide)
    have h1 := s.wordAt_setLease n 1 x (by decide)
    have h2 := s.wordAt_setLease n 2 x (by decide)
    simp only [Nat.mul_zero, Nat.add_zero, Nat.mul_one] at h0 h1 h2
    rw [h0, h1, h2]
    exact leaseOfWords_words x

/-! ### Whole pages, sweeps, replay -/

theorem State.inv_copyPage (s : State) (a b n : Nat) (h : s.Inv) : (s.copyPage a b n).Inv := by
  rw [State.inv_iff] at h
  refine State.inv_touchAll _ _ _ _ _ (State.inv_touchAll _ _ _ _ _ ?_)
  rw [State.inv_iff]
  exact ⟨copyKeys_wf _ _ _ _ _ h.1, copyKeys_wf _ _ _ _ _ h.2.1, copyKeys_wf _ _ _ _ _ h.2.2⟩

theorem State.inv_freeLease (s : State) (n : Nat) (h : s.Inv) : (s.freeLease n).Inv :=
  State.inv_of_memory_eq (State.inv_putLease s n _ h) rfl rfl rfl

theorem State.inv_sweep (s : State) (ls : List Nat) (h : s.Inv) : (s.sweep ls).Inv := by
  rw [State.inv_iff] at h
  refine State.inv_foldl _ State.inv_freeLease _ _ (State.inv_writeBy _ _ _ _ (State.inv_of_memory_eq
    (State.inv_foldl _ (fun s g hs => State.inv_touch s _ _ _ hs) _ _ ?_) rfl rfl rfl))
  rw [State.inv_iff]
  exact ⟨h.1, Sparse.wf_filter _ _ _ h.2.1, h.2.2⟩

theorem State.inv_setCtxOf (s : State) (a : Agent) (c : Ctx) (h : s.Inv) : (s.setCtxOf a c).Inv :=
  State.inv_of_memory_eq h rfl rfl rfl
theorem State.inv_setCoreAt (s : State) (k : Nat) (c : Core) (h : s.Inv) : (s.setCoreAt k c).Inv :=
  State.inv_of_memory_eq h rfl rfl rfl

theorem State.inv_confine (old new : State) (core : Nat) (ho : old.Inv) (hn : new.Inv) : (old.confine new core).Inv := by
  rw [State.inv_iff] at ho hn
  refine State.inv_setCoreAt _ _ _ (State.inv_foldl _ (fun s i hs => State.inv_setCtxOf s _ _ hs) _ _ ?_)
  rw [State.inv_iff]
  exact ⟨mixLocal_wf _ _ _ _ _ ho.1 hn.1, mixLocal_wf _ _ _ _ _ ho.2.1 hn.2.1, mixLocal_wf _ _ _ _ _ ho.2.2 hn.2.2⟩

theorem State.inv_loadSnapshot (s : State) (x : Snapshot) (h : s.Inv) : (s.loadSnapshot x).Inv := by
  rw [State.inv_iff] at h
  refine State.inv_setCoreAt _ _ _ (State.inv_foldl _ (fun s i hs => State.inv_setCtxOf s _ _ hs) _ _ ?_)
  rw [State.inv_iff]
  exact ⟨Sparse.wf_foldl_put _ Prod.fst Prod.snd _ _ (mixLocal_wf _ _ _ _ _ h.1 rfl),
    Sparse.wf_foldl_put false id (fun _ => true) _ _ (mixLocal_wf _ _ _ _ _ h.2.1 rfl),
    Sparse.wf_foldl_put false id (fun _ => true) _ _ (mixLocal_wf _ _ _ _ _ h.2.2 rfl)⟩

end Machine

end Sys2Proof
end

