-- ==== Sys2Proof/Laws/Ops.lean ====
section
/-! SUPPORT. Once for every shared operation, what it can do: how operations compose, the five ways an instruction ends,
and the fields of a parcel. -/

namespace Sys2Proof.Machine

/-! ### Operations compose -/

theorem M.bind_eq {α β : Type} (x : M α) (f : α → M β) (s : State) :
    (x >>= f) s = match x s with | .ok a t => f a t | .error e t => .error e t := by
  show EStateM.bind x f s = _
  unfold EStateM.bind
  cases x s <;> rfl
theorem M.bind_ok {α β : Type} {x : M α} {f : α → M β} {s t : State} {a : α} (h : x s = .ok a t) :
    (x >>= f) s = f a t := by rw [M.bind_eq, h]
theorem M.bind_error {α β : Type} {x : M α} {f : α → M β} {s t : State} {e : Stop} (h : x s = .error e t) :
    (x >>= f) s = .error e t := by rw [M.bind_eq, h]
theorem M.map_eq {α β : Type} (f : α → β) (x : M α) (s : State) :
    (f <$> x) s = match x s with | .ok a t => .ok (f a) t | .error e t => .error e t := by
  show EStateM.map f x s = _
  unfold EStateM.map
  cases x s <;> rfl
theorem M.ite_eq {α : Type} (p : Prop) [Decidable p] (x y : M α) (s : State) :
    (if p then x else y) s = if p then x s else y s := by split <;> rfl
@[simp] theorem M.pure_eq {α : Type} (a : α) (s : State) : (pure a : M α) s = .ok a s := rfl
@[simp] theorem M.get_eq (s : State) : (get : M State) s = .ok s s := rfl
@[simp] theorem M.set_eq (t s : State) : (set t : M Unit) s = .ok () t := rfl
@[simp] theorem M.modify_eq (f : State → State) (s : State) : (modify f : M Unit) s = .ok () (f s) := rfl
@[simp] theorem M.throw_eq {α : Type} (e : Stop) (s : State) : (throw e : M α) s = .error e s := rfl
@[simp] theorem M.trap_eq {α : Type} (cause : BitVec 8) (eval : Word) (s : State) :
    (trap cause eval : M α) s = .error (.trap cause eval .none) s := rfl
theorem M.need_ok {ok : Bool} {cause : BitVec 8} {eval : Word} {s : State} (h : ok = true) :
    need ok cause eval s = .ok () s := by subst h; rfl
theorem M.need_bad {ok : Bool} {cause : BitVec 8} {eval : Word} {s : State} (h : ok = false) :
    need ok cause eval s = .error (.trap cause eval .none) s := by subst h; rfl
@[simp] theorem M.step1_eq (f : State → State) (s : State) : step1 f s = .ok none (f s) := rfl

/-! ### The ways an instruction ends -/

/-- A completed instruction leaves what its body left, at the next sequential address. -/
theorem runInstr_next {i : Instr} {body : M (Option Word)} {s t : State}
    (hp : isEngine s.cur = true → inProfile s.cur i = true) (hw : i.wf = true) (hb : body s = .ok none t) :
    runInstr i body s = .next (t.setPc (seqPc s.pc i.parcels)) := by
  have h : (isEngine s.cur && !inProfile s.cur i) = false := by
    cases he : isEngine s.cur
    · rfl
    · simp [hp he]
  simp [runInstr, h, hw, hb]
/-- A body that chose the next address. -/
theorem runInstr_jump {i : Instr} {body : M (Option Word)} {s t : State} {pc : Word}
    (hp : isEngine s.cur = true → inProfile s.cur i = true) (hw : i.wf = true) (hb : body s = .ok (some pc) t) :
    runInstr i body s = .next (t.setPc pc) := by
  have h : (isEngine s.cur && !inProfile s.cur i) = false := by
    cases he : isEngine s.cur
    · rfl
    · simp [hp he]
  simp [runInstr, h, hw, hb]
/-- A body that stopped. -/
theorem runInstr_stop {i : Instr} {body : M (Option Word)} {s t : State} {stop : Stop}
    (hp : isEngine s.cur = true → inProfile s.cur i = true) (hw : i.wf = true) (hb : body s = .error stop t) :
    runInstr i body s = .next (s.afterStop t stop) := by
  have h : (isEngine s.cur && !inProfile s.cur i) = false := by
    cases he : isEngine s.cur
    · rfl
    · simp [hp he]
  simp [runInstr, h, hw, hb]
/-- An engine hart traps with cause 0x01 outside its profile (R159). -/
theorem runInstr_profile {i : Instr} {body : M (Option Word)} {s : State} (he : isEngine s.cur = true)
    (hp : inProfile s.cur i = false) : runInstr i body s = .next (s.takeTrap 0x01 i.p0 0) := by
  simp [runInstr, he, hp]
/-- An ill-formed instruction traps with cause 0x02 (R30). -/
theorem runInstr_operand {i : Instr} {body : M (Option Word)} {s : State}
    (hp : isEngine s.cur = true → inProfile s.cur i = true) (hw : i.wf = false) :
    runInstr i body s = .next (s.takeTrap 0x02 i.p0 0) := by
  have h : (isEngine s.cur && !inProfile s.cur i) = false := by
    cases he : isEngine s.cur
    · rfl
    · simp [hp he]
  simp [runInstr, h, hw]
/-- An instruction always leaves a next state. -/
theorem runInstr_isNext (i : Instr) (body : M (Option Word)) (s : State) : ∃ t, runInstr i body s = .next t := by
  unfold runInstr
  split
  · exact ⟨_, rfl⟩
  · split
    · exact ⟨_, rfl⟩
    · split <;> exact ⟨_, rfl⟩

/-! ### The fields every parcel has -/

/-- The length field of a parcel built from its fields. -/
@[simp] theorem parcel_len {n : Nat} (x : BitVec n) (c : BitVec 2) : (x ++ c).extractLsb' 0 2 = c := by
  ext i hi; simp [BitVec.getLsbD_append, hi]
/-- The major of a parcel built from its fields. -/
@[simp] theorem parcel_major {n : Nat} (x : BitVec n) (m : BitVec 6) (c : BitVec 2) :
    (x ++ m ++ c).extractLsb' 2 6 = m := by
  ext i hi
  have : ¬ 2 + i < 2 := by omega
  simp [BitVec.getLsbD_append, this, hi]

/-- Every 32-bit instruction of majors 0 to 16 is of the engine profile (R159). -/
theorem inProfile_scalar {i : Instr} {p : Parcel} {ps : List Parcel} (a : Agent) (h : encode i = p :: ps)
    (hl : p.extractLsb' 0 2 = 0) (hm : (p.extractLsb' 2 6).toNat ≤ 16) : inProfile a i = true := by
  unfold inProfile
  rw [h]
  unfold parcelInProfile
  dsimp only
  rw [if_pos (by rw [hl]; rfl), decide_eq_true hm]
  rfl

end Sys2Proof.Machine
end

