-- ==== Sys2Proof/Laws/PerInstr.lean ====
section
/-! SUPPORT. One lemma per instruction of a statement about every instruction as syntax: how long its words are. -/

namespace Sys2Proof.Laws

open Sys2Proof.Machine

/-- What R18 says of an instruction's words: at most three parcels, and the length field of the first counts them; an
event has none. -/
def Encodes.Statement (i : Instr) : Prop :=
  match encode i with
  | [] => True
  | p :: ps => (p.extractLsb' 0 2).toNat = ps.length ∧ ps.length ≤ 2

/-- The statement from an instruction's words. -/
theorem counted {i : Instr} {p : Parcel} {ps : List Parcel} (h : encode i = p :: ps)
    (hl : (p.extractLsb' 0 2).toNat = ps.length) (hn : ps.length ≤ 2) : Encodes.Statement i := by
  simp only [Encodes.Statement, h]; exact ⟨hl, hn⟩

theorem Encodes.add (d a b : BitVec 5) : Encodes.Statement (.add d a b) := counted (encode_add d a b) (by simp [Enc.a]) (by simp)
theorem Encodes.sub (d a b : BitVec 5) : Encodes.Statement (.sub d a b) := counted (encode_sub d a b) (by simp [Enc.a]) (by simp)
theorem Encodes.and (d a b : BitVec 5) : Encodes.Statement (.and d a b) := counted (encode_and d a b) (by simp [Enc.a]) (by simp)
theorem Encodes.or (d a b : BitVec 5) : Encodes.Statement (.or d a b) := counted (encode_or d a b) (by simp [Enc.a]) (by simp)
theorem Encodes.xor (d a b : BitVec 5) : Encodes.Statement (.xor d a b) := counted (encode_xor d a b) (by simp [Enc.a]) (by simp)
theorem Encodes.andn (d a b : BitVec 5) : Encodes.Statement (.andn d a b) := counted (encode_andn d a b) (by simp [Enc.a]) (by simp)
theorem Encodes.sll (d a b : BitVec 5) : Encodes.Statement (.sll d a b) := counted (encode_sll d a b) (by simp [Enc.a]) (by simp)
theorem Encodes.srl (d a b : BitVec 5) : Encodes.Statement (.srl d a b) := counted (encode_srl d a b) (by simp [Enc.a]) (by simp)
theorem Encodes.sra (d a b : BitVec 5) : Encodes.Statement (.sra d a b) := counted (encode_sra d a b) (by simp [Enc.a]) (by simp)
theorem Encodes.slt (d a b : BitVec 5) : Encodes.Statement (.slt d a b) := counted (encode_slt d a b) (by simp [Enc.a]) (by simp)
theorem Encodes.sltu (d a b : BitVec 5) : Encodes.Statement (.sltu d a b) := counted (encode_sltu d a b) (by simp [Enc.a]) (by simp)
theorem Encodes.mul (d a b : BitVec 5) : Encodes.Statement (.mul d a b) := counted (encode_mul d a b) (by simp [Enc.a]) (by simp)
theorem Encodes.mulh (d a b : BitVec 5) : Encodes.Statement (.mulh d a b) := counted (encode_mulh d a b) (by simp [Enc.a]) (by simp)
theorem Encodes.mulhu (d a b : BitVec 5) : Encodes.Statement (.mulhu d a b) := counted (encode_mulhu d a b) (by simp [Enc.a]) (by simp)
theorem Encodes.div (d a b : BitVec 5) : Encodes.Statement (.div d a b) := counted (encode_div d a b) (by simp [Enc.a]) (by simp)
theorem Encodes.divu (d a b : BitVec 5) : Encodes.Statement (.divu d a b) := counted (encode_divu d a b) (by simp [Enc.a]) (by simp)
theorem Encodes.rem (d a b : BitVec 5) : Encodes.Statement (.rem d a b) := counted (encode_rem d a b) (by simp [Enc.a]) (by simp)
theorem Encodes.remu (d a b : BitVec 5) : Encodes.Statement (.remu d a b) := counted (encode_remu d a b) (by simp [Enc.a]) (by simp)
theorem Encodes.min (d a b : BitVec 5) : Encodes.Statement (.min d a b) := counted (encode_min d a b) (by simp [Enc.a]) (by simp)
theorem Encodes.max (d a b : BitVec 5) : Encodes.Statement (.max d a b) := counted (encode_max d a b) (by simp [Enc.a]) (by simp)
theorem Encodes.minu (d a b : BitVec 5) : Encodes.Statement (.minu d a b) := counted (encode_minu d a b) (by simp [Enc.a]) (by simp)
theorem Encodes.maxu (d a b : BitVec 5) : Encodes.Statement (.maxu d a b) := counted (encode_maxu d a b) (by simp [Enc.a]) (by simp)
theorem Encodes.clz (d a : BitVec 5) : Encodes.Statement (.clz d a) := counted (encode_clz d a) (by simp [Enc.a]) (by simp)
theorem Encodes.ctz (d a : BitVec 5) : Encodes.Statement (.ctz d a) := counted (encode_ctz d a) (by simp [Enc.a]) (by simp)
theorem Encodes.popc (d a : BitVec 5) : Encodes.Statement (.popc d a) := counted (encode_popc d a) (by simp [Enc.a]) (by simp)
theorem Encodes.sel (d a b : BitVec 5) : Encodes.Statement (.sel d a b) := counted (encode_sel d a b) (by simp [Enc.a]) (by simp)
theorem Encodes.addi (d a : BitVec 5) (imm : BitVec 14) : Encodes.Statement (.addi d a imm) := counted (encode_addi d a imm) (by simp [Enc.i]) (by simp)
theorem Encodes.andi (d a : BitVec 5) (imm : BitVec 14) : Encodes.Statement (.andi d a imm) := counted (encode_andi d a imm) (by simp [Enc.i]) (by simp)
theorem Encodes.ori (d a : BitVec 5) (imm : BitVec 14) : Encodes.Statement (.ori d a imm) := counted (encode_ori d a imm) (by simp [Enc.i]) (by simp)
theorem Encodes.xori (d a : BitVec 5) (imm : BitVec 14) : Encodes.Statement (.xori d a imm) := counted (encode_xori d a imm) (by simp [Enc.i]) (by simp)
theorem Encodes.slti (d a : BitVec 5) (imm : BitVec 14) : Encodes.Statement (.slti d a imm) := counted (encode_slti d a imm) (by simp [Enc.i]) (by simp)
theorem Encodes.sltiu (d a : BitVec 5) (imm : BitVec 14) : Encodes.Statement (.sltiu d a imm) := counted (encode_sltiu d a imm) (by simp [Enc.i]) (by simp)
theorem Encodes.slli (d a : BitVec 5) (amount : BitVec 6) : Encodes.Statement (.slli d a amount) := counted (encode_slli d a amount) (by simp [Enc.i]) (by simp)
theorem Encodes.srli (d a : BitVec 5) (amount : BitVec 6) : Encodes.Statement (.srli d a amount) := counted (encode_srli d a amount) (by simp [Enc.i]) (by simp)
theorem Encodes.srai (d a : BitVec 5) (amount : BitVec 6) : Encodes.Statement (.srai d a amount) := counted (encode_srai d a amount) (by simp [Enc.i]) (by simp)
theorem Encodes.beq (a b : BitVec 5) (off : BitVec 14) : Encodes.Statement (.beq a b off) := counted (encode_beq a b off) (by simp [Enc.i]) (by simp)
theorem Encodes.bne (a b : BitVec 5) (off : BitVec 14) : Encodes.Statement (.bne a b off) := counted (encode_bne a b off) (by simp [Enc.i]) (by simp)
theorem Encodes.blt (a b : BitVec 5) (off : BitVec 14) : Encodes.Statement (.blt a b off) := counted (encode_blt a b off) (by simp [Enc.i]) (by simp)
theorem Encodes.bge (a b : BitVec 5) (off : BitVec 14) : Encodes.Statement (.bge a b off) := counted (encode_bge a b off) (by simp [Enc.i]) (by simp)
theorem Encodes.bltu (a b : BitVec 5) (off : BitVec 14) : Encodes.Statement (.bltu a b off) := counted (encode_bltu a b off) (by simp [Enc.i]) (by simp)
theorem Encodes.bgeu (a b : BitVec 5) (off : BitVec 14) : Encodes.Statement (.bgeu a b off) := counted (encode_bgeu a b off) (by simp [Enc.i]) (by simp)
theorem Encodes.jal (d : BitVec 5) (off : BitVec 19) : Encodes.Statement (.jal d off) := counted (encode_jal d off) (by simp [Enc.j]) (by simp)
theorem Encodes.jalr (d a : BitVec 5) (imm : BitVec 14) : Encodes.Statement (.jalr d a imm) := counted (encode_jalr d a imm) (by simp [Enc.i]) (by simp)
theorem Encodes.loop (a : BitVec 5) (off : BitVec 14) : Encodes.Statement (.loop a off) := counted (encode_loop a off) (by simp [Enc.i]) (by simp)
theorem Encodes.fadd (dbl : Bool) (d a b : BitVec 5) : Encodes.Statement (.fadd dbl d a b) := counted (encode_fadd dbl d a b) (by simp [Enc.a]) (by simp)
theorem Encodes.fsub (dbl : Bool) (d a b : BitVec 5) : Encodes.Statement (.fsub dbl d a b) := counted (encode_fsub dbl d a b) (by simp [Enc.a]) (by simp)
theorem Encodes.fmul (dbl : Bool) (d a b : BitVec 5) : Encodes.Statement (.fmul dbl d a b) := counted (encode_fmul dbl d a b) (by simp [Enc.a]) (by simp)
theorem Encodes.fdiv (dbl : Bool) (d a b : BitVec 5) : Encodes.Statement (.fdiv dbl d a b) := counted (encode_fdiv dbl d a b) (by simp [Enc.a]) (by simp)
theorem Encodes.fsqrt (dbl : Bool) (d a : BitVec 5) : Encodes.Statement (.fsqrt dbl d a) := counted (encode_fsqrt dbl d a) (by simp [Enc.a]) (by simp)
theorem Encodes.fmin (dbl : Bool) (d a b : BitVec 5) : Encodes.Statement (.fmin dbl d a b) := counted (encode_fmin dbl d a b) (by simp [Enc.a]) (by simp)
theorem Encodes.fmax (dbl : Bool) (d a b : BitVec 5) : Encodes.Statement (.fmax dbl d a b) := counted (encode_fmax dbl d a b) (by simp [Enc.a]) (by simp)
theorem Encodes.fma (dbl : Bool) (d a b : BitVec 5) : Encodes.Statement (.fma dbl d a b) := counted (encode_fma dbl d a b) (by simp [Enc.a]) (by simp)
theorem Encodes.feq (dbl : Bool) (d a b : BitVec 5) : Encodes.Statement (.feq dbl d a b) := counted (encode_feq dbl d a b) (by simp [Enc.a]) (by simp)
theorem Encodes.flt (dbl : Bool) (d a b : BitVec 5) : Encodes.Statement (.flt dbl d a b) := counted (encode_flt dbl d a b) (by simp [Enc.a]) (by simp)
theorem Encodes.fle (dbl : Bool) (d a b : BitVec 5) : Encodes.Statement (.fle dbl d a b) := counted (encode_fle dbl d a b) (by simp [Enc.a]) (by simp)
theorem Encodes.fclass (dbl : Bool) (d a : BitVec 5) : Encodes.Statement (.fclass dbl d a) := counted (encode_fclass dbl d a) (by simp [Enc.a]) (by simp)
theorem Encodes.fabs (dbl : Bool) (d a : BitVec 5) : Encodes.Statement (.fabs dbl d a) := counted (encode_fabs dbl d a) (by simp [Enc.a]) (by simp)
theorem Encodes.fneg (dbl : Bool) (d a : BitVec 5) : Encodes.Statement (.fneg dbl d a) := counted (encode_fneg dbl d a) (by simp [Enc.a]) (by simp)
theorem Encodes.fmvw (dbl : Bool) (d a : BitVec 5) : Encodes.Statement (.fmvw dbl d a) := counted (encode_fmvw dbl d a) (by simp [Enc.a]) (by simp)
theorem Encodes.fmvg (dbl : Bool) (d a : BitVec 5) : Encodes.Statement (.fmvg dbl d a) := counted (encode_fmvg dbl d a) (by simp [Enc.a]) (by simp)
theorem Encodes.fcvt (dbl : Bool) (d a : BitVec 5) : Encodes.Statement (.fcvt dbl d a) := counted (encode_fcvt dbl d a) (by simp [Enc.a]) (by simp)
theorem Encodes.fcvti (dbl : Bool) (d a : BitVec 5) : Encodes.Statement (.fcvti dbl d a) := counted (encode_fcvti dbl d a) (by simp [Enc.a]) (by simp)
theorem Encodes.fcvtf (dbl : Bool) (d a : BitVec 5) : Encodes.Statement (.fcvtf dbl d a) := counted (encode_fcvtf dbl d a) (by simp [Enc.a]) (by simp)
theorem Encodes.faddLong (f : FFields) : Encodes.Statement (.faddLong f) := counted (encode_faddLong f) (by simp [Enc.x]) (by simp)
theorem Encodes.fsubLong (f : FFields) : Encodes.Statement (.fsubLong f) := counted (encode_fsubLong f) (by simp [Enc.x]) (by simp)
theorem Encodes.fmulLong (f : FFields) : Encodes.Statement (.fmulLong f) := counted (encode_fmulLong f) (by simp [Enc.x]) (by simp)
theorem Encodes.fdivLong (f : FFields) : Encodes.Statement (.fdivLong f) := counted (encode_fdivLong f) (by simp [Enc.x]) (by simp)
theorem Encodes.fsqrtLong (f : FFields) : Encodes.Statement (.fsqrtLong f) := counted (encode_fsqrtLong f) (by simp [Enc.x]) (by simp)
theorem Encodes.fminLong (f : FFields) : Encodes.Statement (.fminLong f) := counted (encode_fminLong f) (by simp [Enc.x]) (by simp)
theorem Encodes.fmaxLong (f : FFields) : Encodes.Statement (.fmaxLong f) := counted (encode_fmaxLong f) (by simp [Enc.x]) (by simp)
theorem Encodes.fmaLong (f : FFields) : Encodes.Statement (.fmaLong f) := counted (encode_fmaLong f) (by simp [Enc.x]) (by simp)
theorem Encodes.feqLong (f : FFields) : Encodes.Statement (.feqLong f) := counted (encode_feqLong f) (by simp [Enc.x]) (by simp)
theorem Encodes.fltLong (f : FFields) : Encodes.Statement (.fltLong f) := counted (encode_fltLong f) (by simp [Enc.x]) (by simp)
theorem Encodes.fleLong (f : FFields) : Encodes.Statement (.fleLong f) := counted (encode_fleLong f) (by simp [Enc.x]) (by simp)
theorem Encodes.fclassLong (f : FFields) : Encodes.Statement (.fclassLong f) := counted (encode_fclassLong f) (by simp [Enc.x]) (by simp)
theorem Encodes.fabsLong (f : FFields) : Encodes.Statement (.fabsLong f) := counted (encode_fabsLong f) (by simp [Enc.x]) (by simp)
theorem Encodes.fnegLong (f : FFields) : Encodes.Statement (.fnegLong f) := counted (encode_fnegLong f) (by simp [Enc.x]) (by simp)
theorem Encodes.fmvwLong (f : FFields) : Encodes.Statement (.fmvwLong f) := counted (encode_fmvwLong f) (by simp [Enc.x]) (by simp)
theorem Encodes.fmvgLong (f : FFields) : Encodes.Statement (.fmvgLong f) := counted (encode_fmvgLong f) (by simp [Enc.x]) (by simp)
theorem Encodes.fcvtLong (f : FFields) : Encodes.Statement (.fcvtLong f) := counted (encode_fcvtLong f) (by simp [Enc.x]) (by simp)
theorem Encodes.fcvtiLong (f : FFields) : Encodes.Statement (.fcvtiLong f) := counted (encode_fcvtiLong f) (by simp [Enc.x]) (by simp)
theorem Encodes.fcvtfLong (f : FFields) : Encodes.Statement (.fcvtfLong f) := counted (encode_fcvtfLong f) (by simp [Enc.x]) (by simp)
theorem Encodes.sysr (d : BitVec 5) (num : BitVec 10) : Encodes.Statement (.sysr d num) := counted (encode_sysr d num) (by simp [Enc.s]) (by simp)
theorem Encodes.sysw (d a : BitVec 5) (num : BitVec 10) : Encodes.Statement (.sysw d a num) := counted (encode_sysw d a num) (by simp [Enc.s]) (by simp)
theorem Encodes.syss (d a : BitVec 5) (num : BitVec 10) : Encodes.Statement (.syss d a num) := counted (encode_syss d a num) (by simp [Enc.s]) (by simp)
theorem Encodes.sysc (d a : BitVec 5) (num : BitVec 10) : Encodes.Statement (.sysc d a num) := counted (encode_sysc d a num) (by simp [Enc.s]) (by simp)
theorem Encodes.trap (code : BitVec 10) : Encodes.Statement (.trap code) := counted (encode_trap code) (by simp [Enc.s]) (by simp)
theorem Encodes.brk (code : BitVec 10) : Encodes.Statement (.brk code) := counted (encode_brk code) (by simp [Enc.s]) (by simp)
theorem Encodes.xret : Encodes.Statement .xret := counted (encode_xret) (by simp [Enc.s]) (by simp)
theorem Encodes.idle (n : BitVec 10) : Encodes.Statement (.idle n) := counted (encode_idle n) (by simp [Enc.s]) (by simp)
theorem Encodes.ifence (a : BitVec 5) : Encodes.Statement (.ifence a) := counted (encode_ifence a) (by simp [Enc.s]) (by simp)
theorem Encodes.yield : Encodes.Statement .yield := counted (encode_yield) (by simp [Enc.s]) (by simp)
theorem Encodes.pmark (a : BitVec 5) (code : BitVec 10) : Encodes.Statement (.pmark a code) := counted (encode_pmark a code) (by simp [Enc.s]) (by simp)
theorem Encodes.svc (code : BitVec 10) : Encodes.Statement (.svc code) := counted (encode_svc code) (by simp [Enc.s]) (by simp)
theorem Encodes.exit (d : BitVec 5) : Encodes.Statement (.exit d) := counted (encode_exit d) (by simp [Enc.s]) (by simp)
theorem Encodes.cmov (d a : BitVec 5) : Encodes.Statement (.cmov d a) := counted (encode_cmov d a) (by simp [Enc.a]) (by simp)
theorem Encodes.cgetb (d a : BitVec 5) : Encodes.Statement (.cgetb d a) := counted (encode_cgetb d a) (by simp [Enc.a]) (by simp)
theorem Encodes.cgete (d a k : BitVec 5) : Encodes.Statement (.cgete d a k) := counted (encode_cgete d a k) (by simp [Enc.a]) (by simp)
theorem Encodes.cgets (d a k : BitVec 5) : Encodes.Statement (.cgets d a k) := counted (encode_cgets d a k) (by simp [Enc.a]) (by simp)
theorem Encodes.cgetf (d a : BitVec 5) : Encodes.Statement (.cgetf d a) := counted (encode_cgetf d a) (by simp [Enc.a]) (by simp)
theorem Encodes.cgetp (d a : BitVec 5) : Encodes.Statement (.cgetp d a) := counted (encode_cgetp d a) (by simp [Enc.a]) (by simp)
theorem Encodes.cgetl (d a : BitVec 5) : Encodes.Statement (.cgetl d a) := counted (encode_cgetl d a) (by simp [Enc.a]) (by simp)
theorem Encodes.ctag (d a : BitVec 5) : Encodes.Statement (.ctag d a) := counted (encode_ctag d a) (by simp [Enc.a]) (by simp)
theorem Encodes.cclr (d : BitVec 5) : Encodes.Statement (.cclr d) := counted (encode_cclr d) (by simp [Enc.a]) (by simp)
theorem Encodes.cperm (d a b : BitVec 5) : Encodes.Statement (.cperm d a b) := counted (encode_cperm d a b) (by simp [Enc.a]) (by simp)
theorem Encodes.cfmt (d a b : BitVec 5) : Encodes.Statement (.cfmt d a b) := counted (encode_cfmt d a b) (by simp [Enc.a]) (by simp)
theorem Encodes.cshut (d a b : BitVec 5) : Encodes.Statement (.cshut d a b) := counted (encode_cshut d a b) (by simp [Enc.a]) (by simp)
theorem Encodes.copen (d a b : BitVec 5) : Encodes.Statement (.copen d a b) := counted (encode_copen d a b) (by simp [Enc.a]) (by simp)
theorem Encodes.xsync (d : BitVec 5) (level : BitVec 3) : Encodes.Statement (.xsync d level) := counted (encode_xsync d level) (by simp [Enc.s]) (by simp)
theorem Encodes.fence (mode : BitVec 2) : Encodes.Statement (.fence mode) := counted (encode_fence mode) (by simp [Enc.s]) (by simp)
theorem Encodes.fmadd2 (dbl : Bool) (d a b : BitVec 5) : Encodes.Statement (.fmadd2 dbl d a b) := counted (encode_fmadd2 dbl d a b) (by simp [Enc.a]) (by simp)
theorem Encodes.ctwaitx (f : QFields) : Encodes.Statement (.ctwaitx f) := counted (encode_ctwaitx f) (by simp) (by simp)
theorem Encodes.addil (d a : BitVec 5) (imm : BitVec 32) : Encodes.Statement (.addil d a imm) := counted (encode_addil d a imm) (by simp [Enc.x]) (by simp)
theorem Encodes.andil (d a : BitVec 5) (imm : BitVec 32) : Encodes.Statement (.andil d a imm) := counted (encode_andil d a imm) (by simp [Enc.x]) (by simp)
theorem Encodes.oril (d a : BitVec 5) (imm : BitVec 32) : Encodes.Statement (.oril d a imm) := counted (encode_oril d a imm) (by simp [Enc.x]) (by simp)
theorem Encodes.xoril (d a : BitVec 5) (imm : BitVec 32) : Encodes.Statement (.xoril d a imm) := counted (encode_xoril d a imm) (by simp [Enc.x]) (by simp)
theorem Encodes.li (d : BitVec 5) (imm : BitVec 32) : Encodes.Statement (.li d imm) := counted (encode_li d imm) (by simp [Enc.x]) (by simp)
theorem Encodes.lih (d a : BitVec 5) (imm : BitVec 32) : Encodes.Statement (.lih d a imm) := counted (encode_lih d a imm) (by simp [Enc.x]) (by simp)
theorem Encodes.lil (d : BitVec 5) (imm : BitVec 64) : Encodes.Statement (.lil d imm) := counted (encode_lil d imm) (by simp) (by simp)
theorem Encodes.ld (f : MFields) : Encodes.Statement (.ld f) := counted (encode_ld f) (by simp) (by simp)
theorem Encodes.st (f : MFields) : Encodes.Statement (.st f) := counted (encode_st f) (by simp) (by simp)
theorem Encodes.ldc (f : MFields) : Encodes.Statement (.ldc f) := counted (encode_ldc f) (by simp) (by simp)
theorem Encodes.stc (f : MFields) : Encodes.Statement (.stc f) := counted (encode_stc f) (by simp) (by simp)
theorem Encodes.pref (f : MFields) : Encodes.Statement (.pref f) := counted (encode_pref f) (by simp) (by simp)
theorem Encodes.ldw (f : MFields) : Encodes.Statement (.ldw f) := counted (encode_ldw f) (by simp) (by simp)
theorem Encodes.stw (f : MFields) : Encodes.Statement (.stw f) := counted (encode_stw f) (by simp) (by simp)
theorem Encodes.aadd (f : MFields) : Encodes.Statement (.aadd f) := counted (encode_aadd f) (by simp) (by simp)
theorem Encodes.aand (f : MFields) : Encodes.Statement (.aand f) := counted (encode_aand f) (by simp) (by simp)
theorem Encodes.aor (f : MFields) : Encodes.Statement (.aor f) := counted (encode_aor f) (by simp) (by simp)
theorem Encodes.axor (f : MFields) : Encodes.Statement (.axor f) := counted (encode_axor f) (by simp) (by simp)
theorem Encodes.amin (f : MFields) : Encodes.Statement (.amin f) := counted (encode_amin f) (by simp) (by simp)
theorem Encodes.amax (f : MFields) : Encodes.Statement (.amax f) := counted (encode_amax f) (by simp) (by simp)
theorem Encodes.aminu (f : MFields) : Encodes.Statement (.aminu f) := counted (encode_aminu f) (by simp) (by simp)
theorem Encodes.amaxu (f : MFields) : Encodes.Statement (.amaxu f) := counted (encode_amaxu f) (by simp) (by simp)
theorem Encodes.aswap (f : MFields) : Encodes.Statement (.aswap f) := counted (encode_aswap f) (by simp) (by simp)
theorem Encodes.acas (f : MFields) : Encodes.Statement (.acas f) := counted (encode_acas f) (by simp) (by simp)
theorem Encodes.afadd (f : MFields) : Encodes.Statement (.afadd f) := counted (encode_afadd f) (by simp) (by simp)
theorem Encodes.ctadd (f : QFields) : Encodes.Statement (.ctadd f) := counted (encode_ctadd f) (by simp) (by simp)
theorem Encodes.ctwait (f : QFields) : Encodes.Statement (.ctwait f) := counted (encode_ctwait f) (by simp) (by simp)
theorem Encodes.ctread (f : QFields) : Encodes.Statement (.ctread f) := counted (encode_ctread f) (by simp) (by simp)
theorem Encodes.cttry (f : QFields) : Encodes.Statement (.cttry f) := counted (encode_cttry f) (by simp) (by simp)
theorem Encodes.binit (f : QFields) : Encodes.Statement (.binit f) := counted (encode_binit f) (by simp) (by simp)
theorem Encodes.barrive (f : QFields) : Encodes.Statement (.barrive f) := counted (encode_barrive f) (by simp) (by simp)
theorem Encodes.bwait (f : QFields) : Encodes.Statement (.bwait f) := counted (encode_bwait f) (by simp) (by simp)
theorem Encodes.barwait (f : QFields) : Encodes.Statement (.barwait f) := counted (encode_barwait f) (by simp) (by simp)
theorem Encodes.sbind (f : QFields) : Encodes.Statement (.sbind f) := counted (encode_sbind f) (by simp) (by simp)
theorem Encodes.sunbind (f : QFields) : Encodes.Statement (.sunbind f) := counted (encode_sunbind f) (by simp) (by simp)
theorem Encodes.send (f : QFields) : Encodes.Statement (.send f) := counted (encode_send f) (by simp) (by simp)
theorem Encodes.recv (f : QFields) : Encodes.Statement (.recv f) := counted (encode_recv f) (by simp) (by simp)
theorem Encodes.recvt (f : QFields) : Encodes.Statement (.recvt f) := counted (encode_recvt f) (by simp) (by simp)
theorem Encodes.ksend (f : QFields) : Encodes.Statement (.ksend f) := counted (encode_ksend f) (by simp) (by simp)
theorem Encodes.radv (f : QFields) : Encodes.Statement (.radv f) := counted (encode_radv f) (by simp) (by simp)
theorem Encodes.nbpost (f : QFields) : Encodes.Statement (.nbpost f) := counted (encode_nbpost f) (by simp) (by simp)
theorem Encodes.nbview (f : QFields) : Encodes.Statement (.nbview f) := counted (encode_nbview f) (by simp) (by simp)
theorem Encodes.nbinit (f : QFields) : Encodes.Statement (.nbinit f) := counted (encode_nbinit f) (by simp) (by simp)
theorem Encodes.nbslot (f : QFields) : Encodes.Statement (.nbslot f) := counted (encode_nbslot f) (by simp) (by simp)
theorem Encodes.tclaim (f : QFields) : Encodes.Statement (.tclaim f) := counted (encode_tclaim f) (by simp) (by simp)
theorem Encodes.tdone (f : QFields) : Encodes.Statement (.tdone f) := counted (encode_tdone f) (by simp) (by simp)
theorem Encodes.thand (f : QFields) : Encodes.Statement (.thand f) := counted (encode_thand f) (by simp) (by simp)
theorem Encodes.schedw (f : QFields) : Encodes.Statement (.schedw f) := counted (encode_schedw f) (by simp) (by simp)
theorem Encodes.schedr (f : QFields) : Encodes.Statement (.schedr f) := counted (encode_schedr f) (by simp) (by simp)
theorem Encodes.cslice (f : CFields) : Encodes.Statement (.cslice f) := counted (encode_cslice f) (by simp) (by simp)
theorem Encodes.cslicei (f : CFields) : Encodes.Statement (.cslicei f) := counted (encode_cslicei f) (by simp) (by simp)
theorem Encodes.crank (f : CFields) : Encodes.Statement (.crank f) := counted (encode_crank f) (by simp) (by simp)
theorem Encodes.cstep (f : CFields) : Encodes.Statement (.cstep f) := counted (encode_cstep f) (by simp) (by simp)
theorem Encodes.cfix (f : CFields) : Encodes.Statement (.cfix f) := counted (encode_cfix f) (by simp) (by simp)
theorem Encodes.cfree (f : CFields) : Encodes.Statement (.cfree f) := counted (encode_cfree f) (by simp) (by simp)
theorem Encodes.clease (f : CFields) : Encodes.Statement (.clease f) := counted (encode_clease f) (by simp) (by simp)
theorem Encodes.center (f : KFields) : Encodes.Statement (.center f) := counted (encode_center f) (by simp) (by simp)
theorem Encodes.vadd (f : VFields) : Encodes.Statement (.vadd f) := counted (encode_vadd f) (by simp) (by simp)
theorem Encodes.vsub (f : VFields) : Encodes.Statement (.vsub f) := counted (encode_vsub f) (by simp) (by simp)
theorem Encodes.vmul (f : VFields) : Encodes.Statement (.vmul f) := counted (encode_vmul f) (by simp) (by simp)
theorem Encodes.vmin (f : VFields) : Encodes.Statement (.vmin f) := counted (encode_vmin f) (by simp) (by simp)
theorem Encodes.vmax (f : VFields) : Encodes.Statement (.vmax f) := counted (encode_vmax f) (by simp) (by simp)
theorem Encodes.vand (f : VFields) : Encodes.Statement (.vand f) := counted (encode_vand f) (by simp) (by simp)
theorem Encodes.vor (f : VFields) : Encodes.Statement (.vor f) := counted (encode_vor f) (by simp) (by simp)
theorem Encodes.vxor (f : VFields) : Encodes.Statement (.vxor f) := counted (encode_vxor f) (by simp) (by simp)
theorem Encodes.vshl (f : VFields) : Encodes.Statement (.vshl f) := counted (encode_vshl f) (by simp) (by simp)
theorem Encodes.vshr (f : VFields) : Encodes.Statement (.vshr f) := counted (encode_vshr f) (by simp) (by simp)
theorem Encodes.vsra (f : VFields) : Encodes.Statement (.vsra f) := counted (encode_vsra f) (by simp) (by simp)
theorem Encodes.vfma (f : VFields) : Encodes.Statement (.vfma f) := counted (encode_vfma f) (by simp) (by simp)
theorem Encodes.vfms (f : VFields) : Encodes.Statement (.vfms f) := counted (encode_vfms f) (by simp) (by simp)
theorem Encodes.vabs (f : VFields) : Encodes.Statement (.vabs f) := counted (encode_vabs f) (by simp) (by simp)
theorem Encodes.vneg (f : VFields) : Encodes.Statement (.vneg f) := counted (encode_vneg f) (by simp) (by simp)
theorem Encodes.vmov (f : VFields) : Encodes.Statement (.vmov f) := counted (encode_vmov f) (by simp) (by simp)
theorem Encodes.vcvt (f : VFields) : Encodes.Statement (.vcvt f) := counted (encode_vcvt f) (by simp) (by simp)
theorem Encodes.vexp2 (f : VFields) : Encodes.Statement (.vexp2 f) := counted (encode_vexp2 f) (by simp) (by simp)
theorem Encodes.vlog2 (f : VFields) : Encodes.Statement (.vlog2 f) := counted (encode_vlog2 f) (by simp) (by simp)
theorem Encodes.vrcp (f : VFields) : Encodes.Statement (.vrcp f) := counted (encode_vrcp f) (by simp) (by simp)
theorem Encodes.vrsq (f : VFields) : Encodes.Statement (.vrsq f) := counted (encode_vrsq f) (by simp) (by simp)
theorem Encodes.vtanh (f : VFields) : Encodes.Statement (.vtanh f) := counted (encode_vtanh f) (by simp) (by simp)
theorem Encodes.vcmp (f : VFields) : Encodes.Statement (.vcmp f) := counted (encode_vcmp f) (by simp) (by simp)
theorem Encodes.vsel (f : VFields) : Encodes.Statement (.vsel f) := counted (encode_vsel f) (by simp) (by simp)
theorem Encodes.vred (f : VFields) : Encodes.Statement (.vred f) := counted (encode_vred f) (by simp) (by simp)
theorem Encodes.vscan (f : VFields) : Encodes.Statement (.vscan f) := counted (encode_vscan f) (by simp) (by simp)
theorem Encodes.vtrans (f : VFields) : Encodes.Statement (.vtrans f) := counted (encode_vtrans f) (by simp) (by simp)
theorem Encodes.vbcast (f : VFields) : Encodes.Statement (.vbcast f) := counted (encode_vbcast f) (by simp) (by simp)
theorem Encodes.vshuf (f : VFields) : Encodes.Statement (.vshuf f) := counted (encode_vshuf f) (by simp) (by simp)
theorem Encodes.vrot (f : VFields) : Encodes.Statement (.vrot f) := counted (encode_vrot f) (by simp) (by simp)
theorem Encodes.vins (f : VFields) : Encodes.Statement (.vins f) := counted (encode_vins f) (by simp) (by simp)
theorem Encodes.vext (f : VFields) : Encodes.Statement (.vext f) := counted (encode_vext f) (by simp) (by simp)
theorem Encodes.vmand (f : VFields) : Encodes.Statement (.vmand f) := counted (encode_vmand f) (by simp) (by simp)
theorem Encodes.vmor (f : VFields) : Encodes.Statement (.vmor f) := counted (encode_vmor f) (by simp) (by simp)
theorem Encodes.vmnot (f : VFields) : Encodes.Statement (.vmnot f) := counted (encode_vmnot f) (by simp) (by simp)
theorem Encodes.vmpop (f : VFields) : Encodes.Statement (.vmpop f) := counted (encode_vmpop f) (by simp) (by simp)
theorem Encodes.vplanes (f : VFields) : Encodes.Statement (.vplanes f) := counted (encode_vplanes f) (by simp) (by simp)
theorem Encodes.vunplane (f : VFields) : Encodes.Statement (.vunplane f) := counted (encode_vunplane f) (by simp) (by simp)
theorem Encodes.vbarq (f : VFields) : Encodes.Statement (.vbarq f) := counted (encode_vbarq f) (by simp) (by simp)
theorem Encodes.vld (f : MFields) : Encodes.Statement (.vld f) := counted (encode_vld f) (by simp) (by simp)
theorem Encodes.vst (f : MFields) : Encodes.Statement (.vst f) := counted (encode_vst f) (by simp) (by simp)
theorem Encodes.vgather (f : MFields) : Encodes.Statement (.vgather f) := counted (encode_vgather f) (by simp) (by simp)
theorem Encodes.vscatter (f : MFields) : Encodes.Statement (.vscatter f) := counted (encode_vscatter f) (by simp) (by simp)
theorem Encodes.vshape (d a : BitVec 5) (imm : BitVec 32) : Encodes.Statement (.vshape d a imm) := counted (encode_vshape d a imm) (by simp [Enc.x]) (by simp)
theorem Encodes.swadd (f : WFields) : Encodes.Statement (.swadd f) := counted (encode_swadd f) (by simp) (by simp)
theorem Encodes.swsub (f : WFields) : Encodes.Statement (.swsub f) := counted (encode_swsub f) (by simp) (by simp)
theorem Encodes.swmul (f : WFields) : Encodes.Statement (.swmul f) := counted (encode_swmul f) (by simp) (by simp)
theorem Encodes.swmin (f : WFields) : Encodes.Statement (.swmin f) := counted (encode_swmin f) (by simp) (by simp)
theorem Encodes.swmax (f : WFields) : Encodes.Statement (.swmax f) := counted (encode_swmax f) (by simp) (by simp)
theorem Encodes.swfma (f : WFields) : Encodes.Statement (.swfma f) := counted (encode_swfma f) (by simp) (by simp)
theorem Encodes.swcvt (f : WFields) : Encodes.Statement (.swcvt f) := counted (encode_swcvt f) (by simp) (by simp)
theorem Encodes.swcopy (f : WFields) : Encodes.Statement (.swcopy f) := counted (encode_swcopy f) (by simp) (by simp)
theorem Encodes.swbarq (f : WFields) : Encodes.Statement (.swbarq f) := counted (encode_swbarq f) (by simp) (by simp)
theorem Encodes.ecmd (f : QFields) : Encodes.Statement (.ecmd f) := counted (encode_ecmd f) (by simp) (by simp)
theorem Encodes.ewait (f : QFields) : Encodes.Statement (.ewait f) := counted (encode_ewait f) (by simp) (by simp)
theorem Encodes.mwfetch (f : MQFields) : Encodes.Statement (.mwfetch f) := counted (encode_mwfetch f) (by simp) (by simp)
theorem Encodes.mwload (f : MQFields) : Encodes.Statement (.mwload f) := counted (encode_mwload f) (by simp) (by simp)
theorem Encodes.mwswap (f : MQFields) : Encodes.Statement (.mwswap f) := counted (encode_mwswap f) (by simp) (by simp)
theorem Encodes.mgwait (f : MQFields) : Encodes.Statement (.mgwait f) := counted (encode_mgwait f) (by simp) (by simp)
theorem Encodes.mgadv (f : MQFields) : Encodes.Statement (.mgadv f) := counted (encode_mgadv f) (by simp) (by simp)
theorem Encodes.mgread (f : MQFields) : Encodes.Statement (.mgread f) := counted (encode_mgread f) (by simp) (by simp)
theorem Encodes.mstream (f : GFields) : Encodes.Statement (.mstream f) := counted (encode_mstream f) (by simp) (by simp)
theorem Encodes.spawn (f : QFields) : Encodes.Statement (.spawn f) := counted (encode_spawn f) (by simp) (by simp)
theorem Encodes.xplan (f : QFields) : Encodes.Statement (.xplan f) := counted (encode_xplan f) (by simp) (by simp)
theorem Encodes.plansel (value : BitVec 64) : Encodes.Statement (.plansel value) := trivial
theorem Encodes.rxcfg (ring : BitVec 3) (value : BitVec 64) : Encodes.Statement (.rxcfg ring value) := trivial
theorem Encodes.kbin (value : BitVec 64) : Encodes.Statement (.kbin value) := trivial
theorem Encodes.walloc (value : BitVec 64) : Encodes.Statement (.walloc value) := trivial
theorem Encodes.pmctl (value : BitVec 64) : Encodes.Statement (.pmctl value) := trivial
theorem Encodes.fetch (a : Agent) (line : BitVec 64) : Encodes.Statement (.fetch a line) := trivial
theorem Encodes.drain (a : Agent) (k : Nat) : Encodes.Statement (.drain a k) := trivial
theorem Encodes.deliver (k : Nat) : Encodes.Statement (.deliver k) := trivial
theorem Encodes.refresh (a : Agent) (va pa : Nat) : Encodes.Statement (.refresh a va pa) := trivial
theorem Encodes.evict (a : Agent) (ofFetch : Bool) (pa : Nat) : Encodes.Statement (.evict a ofFetch pa) := trivial
theorem Encodes.replicaPropagation (k : Nat) : Encodes.Statement (.replicaPropagation k) := trivial
theorem Encodes.watchWake (cell : Nat) : Encodes.Statement (.watchWake cell) := trivial
theorem Encodes.watchRetry (a : Agent) : Encodes.Statement (.watchRetry a) := trivial
theorem Encodes.pageAnswer (epoch : Nat) (ok : Bool) : Encodes.Statement (.pageAnswer epoch ok) := trivial
theorem Encodes.pageRequestTimeout (epoch : Nat) : Encodes.Statement (.pageRequestTimeout epoch) := trivial
theorem Encodes.pageMigration (tenant va newPage : Nat) (phase : MigrationPhase) : Encodes.Statement (.pageMigration tenant va newPage phase) := trivial
theorem Encodes.shootdown (tenant va : Nat) : Encodes.Statement (.shootdown tenant va) := trivial
theorem Encodes.hotPageList (die chan : Nat) : Encodes.Statement (.hotPageList die chan) := trivial
theorem Encodes.refreshWindow (die bank : Nat) : Encodes.Statement (.refreshWindow die bank) := trivial
theorem Encodes.sliceControl (die slice tenant : Nat) (shared : Bool) : Encodes.Statement (.sliceControl die slice tenant shared) := trivial
theorem Encodes.memoryError (e : ErrorReport) : Encodes.Statement (.memoryError e) := trivial
theorem Encodes.sweepPassBegin : Encodes.Statement .sweepPassBegin := trivial
theorem Encodes.sweepPassEnd : Encodes.Statement .sweepPassEnd := trivial
theorem Encodes.writeBack (core : Nat) : Encodes.Statement (.writeBack core) := trivial
theorem Encodes.recordLoad (core : Nat) : Encodes.Statement (.recordLoad core) := trivial
theorem Encodes.pickUp (core : Nat) : Encodes.Statement (.pickUp core) := trivial
theorem Encodes.idleTimeout (a : Agent) : Encodes.Statement (.idleTimeout a) := trivial
theorem Encodes.recvtTimeout (a : Agent) : Encodes.Statement (.recvtTimeout a) := trivial
theorem Encodes.superstepClose (run : Nat) (level core : Nat) : Encodes.Statement (.superstepClose run level core) := trivial
theorem Encodes.planEntryDepart (core : Nat) : Encodes.Statement (.planEntryDepart core) := trivial
theorem Encodes.planEntryLand (k : Nat) : Encodes.Statement (.planEntryLand k) := trivial
theorem Encodes.messageDelivery (a : Agent) : Encodes.Statement (.messageDelivery a) := trivial
theorem Encodes.keyPairApply (k : Nat) : Encodes.Statement (.keyPairApply k) := trivial
theorem Encodes.blockQueueLimit (p : Port) (limit : BitVec 64) : Encodes.Statement (.blockQueueLimit p limit) := trivial
theorem Encodes.blockQueueTake (p : Port) : Encodes.Statement (.blockQueueTake p) := trivial
theorem Encodes.weightFetchRead (core : Nat) : Encodes.Statement (.weightFetchRead core) := trivial
theorem Encodes.mwloadExpansion (core : Nat) : Encodes.Statement (.mwloadExpansion core) := trivial
theorem Encodes.quoin (core rows : Nat) : Encodes.Statement (.quoin core rows) := trivial
theorem Encodes.streamCompletion (core : Nat) : Encodes.Statement (.streamCompletion core) := trivial
theorem Encodes.copy (core steps : Nat) : Encodes.Statement (.copy core steps) := trivial
theorem Encodes.gather (core steps : Nat) : Encodes.Statement (.gather core steps) := trivial
theorem Encodes.scatter (core steps : Nat) : Encodes.Statement (.scatter core steps) := trivial
theorem Encodes.epilogueS8 (core steps : Nat) : Encodes.Statement (.epilogueS8 core steps) := trivial
theorem Encodes.epilogueZ8 (core steps : Nat) : Encodes.Statement (.epilogueZ8 core steps) := trivial
theorem Encodes.epilogueS16 (core steps : Nat) : Encodes.Statement (.epilogueS16 core steps) := trivial
theorem Encodes.epilogueZ16 (core steps : Nat) : Encodes.Statement (.epilogueZ16 core steps) := trivial
theorem Encodes.epilogueS32 (core steps : Nat) : Encodes.Statement (.epilogueS32 core steps) := trivial
theorem Encodes.epilogueZ32 (core steps : Nat) : Encodes.Statement (.epilogueZ32 core steps) := trivial
theorem Encodes.epilogueFp16 (core steps : Nat) : Encodes.Statement (.epilogueFp16 core steps) := trivial
theorem Encodes.epilogueBf16 (core steps : Nat) : Encodes.Statement (.epilogueBf16 core steps) := trivial
theorem Encodes.epilogueFp32 (core steps : Nat) : Encodes.Statement (.epilogueFp32 core steps) := trivial
theorem Encodes.epilogueE4m3 (core steps : Nat) : Encodes.Statement (.epilogueE4m3 core steps) := trivial
theorem Encodes.epilogueE5m2 (core steps : Nat) : Encodes.Statement (.epilogueE5m2 core steps) := trivial
theorem Encodes.flitReceive (p : Port) (f : FlitArrival) : Encodes.Statement (.flitReceive p f) := trivial
theorem Encodes.linkRetrain (p : Port) : Encodes.Statement (.linkRetrain p) := trivial
theorem Encodes.linkDown (p : Port) : Encodes.Statement (.linkDown p) := trivial
theorem Encodes.dieReset (die : Nat) : Encodes.Statement (.dieReset die) := trivial
theorem Encodes.packetLoad (q : Nat) : Encodes.Statement (.packetLoad q) := trivial
theorem Encodes.launch (q : Nat) : Encodes.Statement (.launch q) := trivial
theorem Encodes.waitctr (q : Nat) : Encodes.Statement (.waitctr q) := trivial
theorem Encodes.signal (q : Nat) : Encodes.Statement (.signal q) := trivial
theorem Encodes.copyPacket (q : Nat) : Encodes.Statement (.copyPacket q) := trivial
theorem Encodes.marker (q : Nat) : Encodes.Statement (.marker q) := trivial
theorem Encodes.doorbell (q : Nat) : Encodes.Statement (.doorbell q) := trivial
theorem Encodes.runEnd (run : Nat) : Encodes.Statement (.runEnd run) := trivial
theorem Encodes.preemptionDecision (q : Nat) : Encodes.Statement (.preemptionDecision q) := trivial
theorem Encodes.preemptBoundary (core : Nat) : Encodes.Statement (.preemptBoundary core) := trivial
theorem Encodes.save (core : Nat) : Encodes.Statement (.save core) := trivial
theorem Encodes.preemptingLaunch (q : Nat) : Encodes.Statement (.preemptingLaunch q) := trivial
theorem Encodes.restore (core : Nat) : Encodes.Statement (.restore core) := trivial
theorem Encodes.hostKill (run : Nat) : Encodes.Statement (.hostKill run) := trivial
theorem Encodes.queueShadowWrite (q word : Nat) (value : BitVec 64) : Encodes.Statement (.queueShadowWrite q word value) := trivial
theorem Encodes.queueDestroy (q : Nat) : Encodes.Statement (.queueDestroy q) := trivial
theorem Encodes.hostWindowTableWrite (k : Nat) (w : HostWindow) : Encodes.Statement (.hostWindowTableWrite k w) := trivial
theorem Encodes.atsInvalidation (pasid hostPage : Nat) : Encodes.Statement (.atsInvalidation pasid hostPage) := trivial
theorem Encodes.acceptanceWindowWrite (card k : Nat) (w : AcceptWindow) : Encodes.Statement (.acceptanceWindowWrite card k w) := trivial
theorem Encodes.bar2Access (card offset n : Nat) (write : Option (BitVec 64)) : Encodes.Statement (.bar2Access card offset n write) := trivial
theorem Encodes.powerCEntry (core : Nat) : Encodes.Statement (.powerCEntry core) := trivial
theorem Encodes.powerCExit (core : Nat) : Encodes.Statement (.powerCExit core) := trivial
theorem Encodes.powerSEntry (die : Nat) : Encodes.Statement (.powerSEntry die) := trivial
theorem Encodes.powerSExit (die : Nat) : Encodes.Statement (.powerSExit die) := trivial
theorem Encodes.powerDEntry : Encodes.Statement .powerDEntry := trivial
theorem Encodes.clockStepDown (card : Nat) : Encodes.Statement (.clockStepDown card) := trivial
theorem Encodes.clockStepUp (card : Nat) : Encodes.Statement (.clockStepUp card) := trivial
theorem Encodes.watchdogKick (card : Nat) : Encodes.Statement (.watchdogKick card) := trivial
theorem Encodes.watchdogExpiry (card : Nat) : Encodes.Statement (.watchdogExpiry card) := trivial
theorem Encodes.deviceReset (monitorOk firmwareOk : Bool) (security : Security) : Encodes.Statement (.deviceReset monitorOk firmwareOk security) := trivial
theorem Encodes.reducedService : Encodes.Statement .reducedService := trivial
theorem Encodes.fullService : Encodes.Statement .fullService := trivial
theorem Encodes.attestation (nonce : BitVec 256) : Encodes.Statement (.attestation nonce) := trivial
theorem Encodes.energyInterval (card nanojoules : Nat) (activity : List (Nat × Nat)) : Encodes.Statement (.energyInterval card nanojoules activity) := trivial
theorem Encodes.routerGridDump (die k : Nat) : Encodes.Statement (.routerGridDump die k) := trivial
theorem Encodes.counterSample (core : Nat) : Encodes.Statement (.counterSample core) := trivial
theorem Encodes.stopRequest (run level : Nat) : Encodes.Statement (.stopRequest run level) := trivial
theorem Encodes.debugResume (run : Nat) (held : Option Agent) : Encodes.Statement (.debugResume run held) := trivial
theorem Encodes.brkInterception (run : Nat) (armed : Bool) : Encodes.Statement (.brkInterception run armed) := trivial
theorem Encodes.debugRead (t : DebugTarget) : Encodes.Statement (.debugRead t) := trivial
theorem Encodes.debugWrite (t : DebugTarget) (value : BitVec 256) : Encodes.Statement (.debugWrite t value) := trivial
theorem Encodes.replay (core : Nat) : Encodes.Statement (.replay core) := trivial
theorem Encodes.replayStep (core : Nat) : Encodes.Statement (.replayStep core) := trivial
theorem Encodes.traceEnable (die run ring len : Nat) : Encodes.Statement (.traceEnable die run ring len) := trivial
theorem Encodes.hypervisorClaim (u : MonitorUnit) : Encodes.Statement (.hypervisorClaim u) := trivial
theorem Encodes.hypervisorRelease (u : MonitorUnit) : Encodes.Statement (.hypervisorRelease u) := trivial
theorem Encodes.illegalInstruction (p0 : BitVec 32) : Encodes.Statement (.illegalInstruction p0) := trivial
theorem Encodes.trainingFailure (code unit : Nat) : Encodes.Statement (.trainingFailure code unit) := trivial
theorem Encodes.linkRetrainingComplete (p : Port) : Encodes.Statement (.linkRetrainingComplete p) := trivial
theorem Encodes.powerDExit : Encodes.Statement .powerDExit := trivial
theorem Encodes.replayArm (run : Nat) (journal : Bool) : Encodes.Statement (.replayArm run journal) := trivial
theorem Encodes.binaryLoad (b : BinaryImage) : Encodes.Statement (.binaryLoad b) := trivial
theorem Encodes.binaryUnload (leases : List Nat) : Encodes.Statement (.binaryUnload leases) := trivial
theorem Encodes.guardTableRefusal (hart addr level tenant : Nat) (access : GuardAccess) : Encodes.Statement (.guardTableRefusal hart addr level tenant access) := trivial

end Sys2Proof.Laws
end

