-- ==== Sys2Proof/Tests/Slice0.lean ====
section
/-! SUPPORT. Tests: ill-formed terms, words of the spec's examples, worked examples of the spec, and for every statement a
state and operands that meet its hypotheses. -/

namespace Sys2Proof.Tests

open Sys2Proof Sys2Proof.Machine
set_option Elab.async false

/-! ### Ill-formed terms, one for each check (R30) -/

/-- Fields all zero. -/
def f0 : FFields := { dbl := false, d := 0, a := 0, b := 0, od := 0, oa := 0, ob := 0 }
/-- Fields all zero, type s32. -/
def m0 : MFields := { ord := 0, x := 0, c := 0, t := 0, ty := 4, y := 0, off := 0 }
/-- Fields all zero. -/
def q0 : QFields := { scope := 0, ob := false, x := 0, c := 0, d := 0, imm := 0 }
/-- Fields all zero. -/
def p0 : MQFields := { sub := 0, x := 0, c := 0, d := 0, imm := 0 }
/-- Fields all zero. -/
def c0 : CFields := { y := 0, x := 0, ca := 0, cd := 0, imm := 0 }
/-- Fields all zero, type S32. -/
def v0 : VFields := { mz := false, m := 0, vc := 0, vb := 0, va := 0, vd := 0, imm8 := 0, g := 0, sat := false, rnd := 0, ty := 5 }
/-- A sweep of one segment of S32. -/
def w0 : WFields := { sat := false, ty := 5, cb := 0, ca := 0, cd := 0, sa := 0, sd := 0, sb := 0, rnd := 0, count := 1 }
/-- Fields all zero. -/
def k0 : KFields := { dt := 0, ck := 0, gkeep := 0, ckeep := 0 }
/-- A stream of one row of S8. -/
def g0 : GFields := { size := 0, sel := 0, x := 0, c := 0, tag := 0, acc := false, p := 0, fmt := 1, rows := 0, slot := 0, step := 0 }

theorem test_wf_scalar : [Instr.loop 0 1, .fsqrtLong { f0 with b := 1 }, .fcvtLong { f0 with ob := 1 }, .feqLong { f0 with od := 1 },
    .fclassLong { f0 with od := 1 }, .fclassLong { f0 with b := 1 }, .fmvwLong { f0 with oa := 1 }, .fcvtfLong { f0 with b := 1 },
    .ifence 16, .fence 0].any Instr.wf = false := by decide
theorem test_wf_capability : [Instr.cmov 16 0, .cmov 0 17, .cgetb 0 17, .cgete 0 17 0, .cgets 0 0 4, .cclr 16, .cperm 16 0 0, .cfmt 0 16 0,
    .cshut 0 0 16, .copen 0 16 0, .cslice { c0 with imm := 4 }, .cslicei { c0 with x := 1 }, .crank { c0 with y := 1 },
    .crank { c0 with imm := 4 }, .cstep { c0 with x := 1 }, .cfix { c0 with imm := 4 }, .cfree { c0 with cd := 1 },
    .clease { c0 with imm := 1 }, .center { k0 with ckeep := 0x2000 }].any Instr.wf = false := by decide
theorem test_wf_memory : [Instr.ld { m0 with ty := 7 }, .st { m0 with ord := 3 }, .ldc { m0 with t := 16, ty := 0 },
    .stc m0, .ldc { m0 with ty := 0, ord := 2 }, .pref { m0 with t := 1, ty := 0 }, .pref m0,
    .pref { m0 with ty := 0, ord := 2 }, .ldw { m0 with ty := 5 }, .stw { m0 with ord := 3 }, .aadd { m0 with ty := 5 },
    .acas { m0 with ord := 1 }, .afadd { m0 with ty := 6 }, .vld { m0 with t := 8 }, .vst { m0 with ty := 0x10 },
    .vld { m0 with ord := 3 }, .vgather { m0 with y := 8 }, .vgather { m0 with t := 1, y := 1 },
    .vscatter { m0 with y := 8 }].any Instr.wf = false := by decide
theorem test_wf_q : [Instr.ctread { q0 with imm := 1 }, .binit q0, .binit { q0 with scope := 1, imm := 0x100 }, .barrive { q0 with c := 1, imm := 0x100 },
    .bwait { q0 with imm := 0x100 }, .barwait { q0 with ob := true }, .sbind { q0 with d := 16 }, .sbind { q0 with imm := 8 },
    .sunbind { q0 with d := 1 }, .send { q0 with ob := true }, .send { q0 with imm := 64 }, .recv { q0 with x := 1 },
    .recv { q0 with imm := 8 }, .recvt { q0 with imm := 8 }, .radv q0, .radv { q0 with imm := 0x100100 }, .radv { q0 with d := 1, imm := 0x100 },
    .ksend { q0 with c := 1 }, .nbpost { q0 with imm := 32 }, .nbview { q0 with x := 1 }, .nbinit { q0 with imm := 3 },
    .nbinit { q0 with imm := 4 }, .nbslot { q0 with imm := 1 }, .tclaim q0, .tclaim { q0 with d := 30 }, .tclaim { q0 with d := 4, x := 6 },
    .tdone q0, .thand { q0 with x := 31 }, .thand { q0 with x := 1, ob := true }, .schedw { q0 with imm := 2 },
    .schedw { q0 with imm := 0x400 }, .schedr { q0 with imm := 10 }, .ecmd { q0 with imm := 2 }, .ewait { q0 with x := 1 },
    .spawn { q0 with imm := 16 }, .xplan { q0 with imm := 16 }, .xplan { q0 with c := 1, imm := 1 },
    .ctwaitx { q0 with scope := 1 }].any Instr.wf = false := by decide
theorem test_wf_matrix : [Instr.mwfetch { p0 with imm := 0x1000000 }, .mwfetch { p0 with sub := 1, d := 1 }, .mwswap { p0 with d := 1 },
    .mgwait { p0 with imm := 1 }, .mgadv { p0 with d := 1 }, .mgread { p0 with d := 8 }, .mstream { g0 with size := 8 },
    .mstream { g0 with fmt := 4 }, .mstream { g0 with fmt := 15, step := 8 }, .mstream { g0 with fmt := 3, step := 1 },
    .mstream { g0 with p := 81 }].any Instr.wf = false := by decide
theorem test_wf_vector : [Instr.vadd { v0 with ty := 0 }, .vadd { v0 with imm8 := 2 }, .vadd { v0 with vc := 1 }, .vadd { v0 with g := 1 },
    .vadd { v0 with imm8 := 1, vb := 1 }, .vadd { v0 with mz := true }, .vmin { v0 with rnd := 1 }, .vmax { v0 with sat := true },
    .vand { v0 with ty := 0x20 }, .vshl { v0 with ty := 9 }, .vshr { v0 with sat := true }, .vfma { v0 with ty := 0 },
    .vabs { v0 with vb := 1 }, .vmov { v0 with imm8 := 1 }, .vcvt { v0 with imm8 := 64 }, .vcvt v0, .vexp2 { v0 with ty := 12 },
    .vcmp { v0 with vd := 1 }, .vcmp { v0 with imm8 := 12 }, .vsel { v0 with mz := true }, .vred { v0 with imm8 := 3 },
    .vscan { v0 with imm8 := 24 }, .vred { v0 with ty := 9, imm8 := 12 }, .vtrans { v0 with m := 1 }, .vbcast { v0 with va := 1 },
    .vbcast { v0 with imm8 := 1, g := 1 }, .vbcast { v0 with imm8 := 3 }, .vshuf { v0 with g := 1 }, .vrot { v0 with imm8 := 2 },
    .vins { v0 with va := 1 }, .vext { v0 with vd := 1 }, .vmand v0, .vmor { v0 with ty := 0, vd := 4 },
    .vmnot { v0 with ty := 0, va := 4 }, .vmpop { v0 with ty := 0, va := 4 }, .vplanes v0, .vunplane { v0 with ty := 0x12, m := 1 },
    .vbarq { v0 with imm8 := 8 }, .vbarq { v0 with ty := 0x12 }].any Instr.wf = false := by decide
theorem test_wf_sweep : [Instr.swadd { w0 with ty := 0 }, .swadd { w0 with count := 0 }, .swmin { w0 with rnd := 1 },
    .swcvt { w0 with cb := 1 }, .swcopy { w0 with sat := true }, .swcopy { w0 with ty := 0x10 }].any Instr.wf = false := by decide

/-! ### Words of the spec's examples -/

/-- The decoder reads exactly this from these parcels. -/
def reads (ps : List Parcel) (i : Instr) : Bool := match decode ps with | .ok (j, []) => decide (j = i) | _ => false

/-- Their own examples in 10_registers_scalar.md, 14_execution.md, 16_faults_preemption.md, 06_access_and_sync.md. -/
theorem test_decode_32 :
    reads [0x00200504] (.addi 5 0 8) ∧ reads [0x00948300] (.sub 3 4 5) ∧ reads [0x00080628] (.blt 6 0 2) ∧
    reads [0x0018C724] (.bne 7 6 6) ∧ reads [0xFFF40540] (.loop 5 0x3FFD) ∧ reads [0x00400448] (.sysr 4 1) ∧
    reads [0x0084C048] (.sysw 0 6 2) ∧ reads [0x01500048] (.trap 5) ∧ reads [0x00140048] (.brk 0) ∧ reads [0x006C0048] (.svc 1) ∧
    reads [0x00180048] .xret ∧ reads [0x041C0048] (.idle 16) ∧ reads [0x00208048] (.ifence 4) ∧ reads [0x00240048] .yield ∧
    reads [0x00300048] (.exit 0) ∧ reads [0x0104A34C] (.cgete 3 5 1) ∧ reads [0x00800550] (.xsync 5 2) ∧
    reads [0x00C40050] (.fence 3) ∧ reads [0xFFFCA504] (.addi 5 5 0x3FFF) ∧ reads [0x020CE61C] (.srai 6 7 3) ∧
    reads [0xFFE86228] (.blt 2 3 0x3FFA) ∧ reads [0x8188C444] (.fdiv true 4 6 2) ∧ reads [0x01E86048] (.pmark 3 7) ∧
    reads [0x02000401, 0x1234] (.li 4 0x1234) := by decide +kernel
/-- 06_access_and_sync.md, 08_engines_exchange_messages.md. -/
theorem test_decode_memory_and_messages :
    reads [0x004A8605, 0x08000008] (.st { m0 with t := 6, c := 4, x := 5, ty := 4, off := 8 }) ∧
    reads [0x0004C009, 0x0C300000] (.aadd { m0 with c := 6, x := 2, y := 3, ty := 6 }) ∧
    reads [0x1808A00D, 1] (.ctadd { q0 with ob := true, scope := 1, c := 5, x := 4, imm := 1 }) ∧
    reads [0x1848A70D, 0] (.ctwait { q0 with ob := true, scope := 1, c := 5, x := 4, d := 7 }) ∧
    reads [0x0408A30D, 0] (.sbind { q0 with d := 3, c := 5, x := 4 }) ∧
    reads [0x0200090D, 0x203] (.binit { q0 with d := 9, imm := 0x203 }) ∧
    reads [0x10164A11, 0x38] (.send { q0 with scope := 1, d := 10, c := 2, x := 11, imm := 56 }) ∧
    reads [0x00400C11, 0] (.recv { q0 with d := 12 }) ∧ reads [0x01000011, 0x100] (.radv { q0 with imm := 0x100 }) ∧
    reads [0x00DC0D11, 2] (.ksend { q0 with d := 13, x := 14, imm := 2 }) ∧
    reads [0x0008C92D, 0] (.ecmd { q0 with d := 9, c := 6, x := 4 }) ∧
    reads [0x0840092D, 0] (.ewait { q0 with ob := true, d := 9 }) := by decide +kernel
/-- 15_boards_impositions.md. -/
theorem test_decode_boards_and_impositions :
    reads [0x1804C515, 0xD] (.nbpost { q0 with scope := 1, ob := true, d := 5, c := 6, x := 2, imm := 0xD }) ∧
    reads [0x1840C615, 8] (.nbview { q0 with scope := 1, ob := true, d := 6, c := 6, imm := 8 }) ∧
    reads [0x1080C015, 0x701] (.nbinit { q0 with scope := 1, c := 6, imm := 0x701 }) ∧
    reads [0x10C6C715, 0] (.nbslot { q0 with scope := 1, d := 7, c := 6, x := 3 }) ∧
    reads [0x2806F419, 0] (.tclaim { q0 with scope := 2, ob := true, d := 20, c := 7, x := 3 }) ∧
    reads [0x2868E519, 0] (.tdone { q0 with scope := 2, ob := true, d := 5, c := 7, x := 20 }) ∧
    reads [0x20A8E519, 0] (.thand { q0 with scope := 2, d := 5, c := 7, x := 20 }) ∧
    reads [0x28C0E919, 0] (.schedw { q0 with scope := 2, ob := true, d := 9, c := 7 }) ∧
    reads [0x20C0E019, 0x57] (.schedw { q0 with scope := 2, c := 7, imm := 0x57 }) ∧
    reads [0x2100E419, 8] (.schedr { q0 with scope := 2, d := 4, c := 7, imm := 8 }) := by decide +kernel
/-- 11_vector.md. -/
theorem test_decode_vector :
    reads [0x0000D121, 9] (.vadd { v0 with vd := 1, va := 2, vb := 3, ty := 9 }) ∧
    reads [0x009FAC21, 0xB] (.vfma { v0 with vd := 4, va := 5, vb := 6, vc := 7, m := 1, ty := 11 }) ∧
    reads [0x01000B21, 0x0901820D] (.vcvt { v0 with vd := 3, va := 1, imm8 := 9, sat := true, ty := 13 }) ∧
    reads [0x02100021, 0x09000009] (.vcmp { v0 with m := 1, imm8 := 9, ty := 9 }) ∧
    reads [0x02802521, 0x0800000B] (.vred { v0 with vd := 5, va := 4, imm8 := 8, ty := 11 }) ∧
    reads [0x04000821, 0x00019800] (.vmpop { v0 with va := 1, g := 6, ty := 0 }) ∧
    reads [0x00000029, 0x3C1] (.vshape 0 0 0x3C1) := by decide +kernel
/-- 06_access_and_sync.md, 11_vector.md, 12_matrix.md, 03_capabilities.md, 14_execution.md. -/
theorem test_decode_others :
    reads [0x0008E225, 0x12500000] (.vld { m0 with t := 2, c := 7, x := 4, y := 5, ty := 9 }) ∧
    reads [0x16054306, 0x00800080, 0x00100080]
      (.swadd { w0 with ty := 11, cd := 3, ca := 4, cb := 5, sd := 128, sa := 128, sb := 128, count := 16 }) ∧
    reads [0x0000410E, 0x00001002, 0x00050020]
      (.mstream { g0 with tag := 1, c := 2, fmt := 1, rows := 2, slot := 5, step := 32 }) ∧
    reads [0x000F0631, 0x00020000] (.mwfetch { p0 with d := 6, c := 8, x := 7, imm := 0x20000 }) ∧
    reads [0x084A0031, 0x1040] (.mwload { p0 with sub := 1, x := 5, imm := 0x1040 }) ∧ reads [0x00800031, 0] (.mwswap p0) ∧
    reads [0x00C00531, 0] (.mgwait { p0 with d := 5 }) ∧ reads [0x01000031, 0] (.mgadv p0) ∧
    reads [0x01520031, 5] (.mgread { p0 with x := 9, imm := 5 }) ∧
    reads [0x0062561D, 1] (.cslice { c0 with cd := 6, ca := 5, x := 2, y := 3, imm := 1 }) ∧
    reads [0x0000540A, 0xF0, 3] (.center { dt := 5, ck := 4, gkeep := 0xF0, ckeep := 3 }) ∧
    reads [0x08112735, 0x0C04] (.spawn { q0 with ob := true, d := 7, c := 9, x := 8, imm := 0x0C04 }) ∧
    reads [0x004D8535, 4] (.xplan { q0 with d := 5, c := 12, x := 6, imm := 4 }) := by decide +kernel
/-- R18, R30: length 0b11 and an instruction past its line are no instruction; a major of the legacy range decodes as its own
retired form (R385). -/
theorem test_decode_refuses :
    (decode [3]).toOption = none ∧ (decode [0x0008E225]).toOption = none ∧ (decode [0x54]).toOption = none ∧
    reads [0xA0] (.fmadd2 false 0 0 0) := by decide +kernel

/-! ### Worked examples of the spec -/

/-- Core 0 about to issue `addi g5, g0, 8` at parcel 1 of the first line of its local memory. -/
def st : State := State.reset.withFetchWord 32 0x00200504
/-- A context whose registers hold these values. -/
def withG (s : State) (l : List (BitVec 5 × Word)) : State := l.foldl (fun s p => s.setG p.1 p.2) s
/-- A context whose capability registers hold these. -/
def withC (s : State) (l : List (BitVec 4 × Cap)) : State := l.foldl (fun s p => s.setC p.1 p.2) s
/-- The outcome is a next state of which `f` holds. -/
def nexts (o : Host.Outcome State Fault Refusal) (f : State → Bool) : Bool := match o with | .next t => f t | _ => false

/-- R19: the step runs the word at the PC and moves past it. -/
theorem test_step_runs_the_word : nexts (step st) (fun t => t.g 5 = 8 ∧ t.pc = st.pc + 4) := by decide +kernel
/-- R209: −7 by 2, −7 by 0, 7 by 0, −2^63 by −1. -/
theorem test_div : nexts (exec (.div 5 6 7) (withG st [(6, -7), (7, 2)])) (fun t => t.g 5 = -3) ∧
    nexts (exec (.div 5 6 7) (withG st [(6, -7)])) (fun t => t.g 5 = 0x8000000000000000) ∧
    nexts (exec (.div 5 6 7) (withG st [(6, 0x8000000000000000), (7, -1)])) (fun t => t.g 5 = 0x7FFFFFFFFFFFFFFF) := by decide +kernel
theorem test_rem : nexts (exec (.rem 5 6 7) (withG st [(6, -7), (7, 2)])) (fun t => t.g 5 = -1) ∧
    nexts (exec (.rem 5 6 7) (withG st [(6, -7)])) (fun t => t.g 5 = -7) ∧
    nexts (exec (.rem 5 6 7) (withG st [(6, 0x8000000000000000), (7, -1)])) (fun t => t.g 5 = -1) := by decide +kernel
theorem test_divu_remu : nexts (exec (.divu 5 6 7) (withG st [(6, 7)])) (fun t => t.g 5 = BitVec.allOnes 64) ∧
    nexts (exec (.remu 5 6 7) (withG st [(6, 7)])) (fun t => t.g 5 = 7) := by decide +kernel
/-- R210: `sltiu gd, ga, -1` gives 1 for every value but all ones. -/
theorem test_sltiu : nexts (exec (.sltiu 5 6 0x3FFF) (withG st [(6, 0xFFFFFFFFFFFFFFFE)])) (fun t => t.g 5 = 1) ∧
    nexts (exec (.sltiu 5 6 0x3FFF) (withG st [(6, BitVec.allOnes 64)])) (fun t => t.g 5 = 0) := by decide +kernel
/-- R212: LI then LIH build a constant. -/
theorem test_lih : nexts (exec (.lih 4 4 0x89ABCDEF) (withG st [(4, 0xFFFFFFFF80000001)])) (fun t => t.g 4 = 0x89ABCDEF80000001) := by
  decide +kernel
/-- R217: a LOOP entered with 0 leaves all ones and branches. -/
theorem test_loop_zero : nexts (exec (.loop 5 4) st) (fun t => t.g 5 = BitVec.allOnes 64 ∧ t.pc = st.pc + 16) := by decide +kernel
/-- R216: JALR reads its target before it writes the link to the same register. -/
theorem test_jalr_same : nexts (exec (.jalr 5 5 1) (withG st [(5, 0x1000)])) (fun t => t.pc = 0x1004 ∧ t.g 5 = st.pc + 4) := by decide +kernel
/-- R196: a write of g0 is discarded. -/
theorem test_g0 : nexts (exec (.addi 0 0 8) st) (fun t => t.g 0 = 0 ∧ t.pc = st.pc + 4) := by decide +kernel
/-- 10_registers_scalar.md: core 605 reads CORENUM 0x0591025D. -/
theorem test_corenum : ({ st with cur := .ctx 605 0 }).sysGet 0x00B = 0x0591025D := by decide +kernel
/-- R191: `vadd.e4m3` of two lanes, without and with sat. -/
theorem test_vadd_e4m3 :
    [(0x7E, 0x7E), (0x7F, 0x38), (0x38, 0x38), (0x00, 0x80)].map (fun p => (VOp.add.elem 0x0D .rne false p.1 p.2).1) = [0x7F, 0x7F, 0x40, 0] ∧
    VOp.add.elem 0x0D .rne true 0x7E 0x7E = (0x7E, { sat := true, of := true, nx := true }) ∧
    (VOp.add.elem 0x0D .rdn false 0 0x80).1 = 0x80 := by decide +kernel
/-- R219: FCLASS of FP32 −0.75. -/
theorem test_fclass : classWord (floatFmt 0x0B) 0xBF400000 = 0xFFFF000A := by decide +kernel
/-- R246: two BPI4 elements. -/
theorem test_vbarq_bpi4 : barqBpi 4 1 .rne false 88 40 = (0x40, { nx := true }) ∧
    (barqBpi 4 0 .rne false 120 120).2 = { sat := true, nx := true } := by decide +kernel
/-- R77: a range of four channels. -/
theorem test_range :
    let r : RangeDesc := { vbase := 0x40000000, vlimit := 0x50000000, poff := 0x10000000, die := 0, chmask := 0xF, rd := true, wr := true, xe := false }
    r.place 0x40032010 = 0x610002010 ∧ r.place 0x40040000 = 0x10010000 := by decide +kernel
/-- 03_capabilities.md: the words of a minted tensor, and its slice of rows 4 to 7. -/
def tensor : Cap := Cap.ofBits (0x0501234858000000#64 ++ 0x0000000000000200#64 ++ 0x00000000003F01FF#64 ++ 0x0000000020000000#64) true
theorem test_tensor : tensor.ext 0 = 512 ∧ tensor.ext 1 = 64 ∧ tensor.stride 1 = 512 ∧ tensor.gen = 5 ∧ tensor.lease = 0x0123 ∧
    tensor.scope = 1 ∧ tensor.perm = 0x21 ∧ tensor.fmt = 0x18 := by decide +kernel
theorem test_cslice : nexts (exec (.cslicei { c0 with cd := 6, ca := 5, imm := 1#2 ++ 3#14 ++ 4#16 }) (withC st [(5, tensor)]))
    (fun t => (t.c 6).base = 0x20000800 ∧ (t.c 6).ext 1 = 4 ∧ (t.c 6).ext 0 = 512 ∧ (t.c 6).tag) := by decide +kernel
/-- R63: parts of 12 elements among 5 ranks. -/
theorem test_crank :
    let c : Cap := { tensor with fmt := 0x06, ext0 := 11, base := 0 }
    (List.range 5).map (fun r => match exec (.crank { c0 with cd := 6, ca := 5, x := 7, imm := 5#16 ++ 0#16 }) (withC (withG st [(7, BitVec.ofNat 64 r)]) [(5, c)]) with
      | .next t => ((t.c 6).base.toNat / 4, (t.c 6).ext 0) | _ => (99, 0)) = [(0, 2), (2, 2), (4, 3), (7, 2), (9, 3)] := by decide +kernel
/-- R192: 70,000 converted to FP16 under RNE, without and with sat. -/
theorem test_convert_overflow : floatTail 0x09 .rne false (.num false 70000 0 false) = (0x7C00, { of := true, nx := true }) ∧
    (floatTail 0x09 .rne true (.num false 70000 0 false)).1 = 0x7BFF := by decide +kernel
/-- R382: the shares of runs A and B. -/
theorem test_energy : energyShare 17476000 12000000 (768 * 2 ^ 16) (512 * 2 ^ 16) 9000000 = 12650666 ∧
    energyShare 17476000 12000000 (768 * 2 ^ 16) (128 * 2 ^ 16) 3000000 = 3912666 := by decide +kernel
/-- R342: slot 0's descriptor in 25_program_preemption.md. -/
theorem test_descriptor : ({ Ctx.reset with occupied := true, pinned := true, zero := 0xF8 }).descriptor = 0xC0F8000000000000 := by decide +kernel
/-- R336: a trap without a handler ends the run; with one it saves and enters. -/
theorem test_trap_without_handler : nexts (exec (.trap 5) st) (fun t => (t.run? 1).any (fun r => r.ending = some 2 ∧ r.f.cause = 0x2A ∧ r.f.eval = 5)) := by
  decide +kernel
/-- A handler at the word the state was placed at. -/
def handled : State :=
  let c := st.ctx
  (st.setCtx { c with sr := { c.sr with tvec := 1#1 ++ (BitVec.ofNat 63 (localBase 0 + 4)) } }).setCore { st.core with rcc := placedCode }
theorem test_trap_enters : nexts (exec (.trap 5) handled) (fun t => t.pc = BitVec.ofNat 64 (localBase 0 + 4) ∧ t.ctx.sr.cause.extractLsb' 0 8 = 0x2A ∧
    t.ctx.sr.eval = 5 ∧ t.ctx.sr.th ∧ t.ctx.sr.cid = 1) := by decide +kernel
theorem test_xret : nexts (exec (.trap 5) handled) (fun t => nexts (exec .xret t) (fun u => u.pc = st.pc ∧ u.ctx.sr.th = false)) := by decide +kernel

/-! ### A state and operands for the hypotheses of every statement

`okM x s` says that `x s` is `.ok`; each theorem names the statement whose hypotheses it meets, at the ends of their ranges where
they have some. -/

/-- An operation passes, and `f` holds of what it leaves. -/
def okM {α : Type} (x : M α) (s : State) (f : α → State → Bool := fun _ _ => true) : Bool :=
  match x s with | .ok a t => f a t | .error _ _ => false
theorem okM_elim {α : Type} {x : M α} {s : State} {f : α → State → Bool} (h : okM x s f = true) :
    ∃ a t, x s = .ok a t ∧ f a t = true := by
  unfold okM at h; split at h
  · next a t e => exact ⟨a, t, e, h⟩
  · cases h
/-- An operation traps with a cause. -/
def badM {α : Type} (x : M α) (s : State) (cause : BitVec 8) : Bool :=
  match x s with | .error (.trap c _ _) _ => c = cause | _ => false
/-- A transfer target passes. -/
def passes (s : State) (t : Word) : Bool := match s.checkTarget t true with | .ok _ => true | _ => false
/-- A transfer target fails with a cause. -/
def fails (s : State) (t : Word) (cause : BitVec 8) : Bool := match s.checkTarget t true with | .bad c _ => c = cause | _ => false
/-- A local capability of core 0: format, permissions, offset, elements. -/
def lc (fmt : BitVec 6) (perm : BitVec 8) (off n : Nat) : Cap :=
  { Cap.null with tag := true, fmt := fmt, perm := perm, base := BitVec.ofNat 48 (localBase 0 + off), ext0 := BitVec.ofNat 16 (n - 1) }

theorem witness_IntegerResults : 0x16 ≤ (0x16#9).toNat ∧ (0x18#9).toNat ≤ 0x18 ∧ (1 : BitVec 5) ≠ 0 ∧
    1 + ((0x16#9 ++ 1#5 ++ 0#5 ++ 0#5 ++ 0#6 ++ 0#2 : Parcel).extractLsb' 0 2).toNat < 16 ∧
    lineWord (lineOf [0x16#9 ++ 1#5 ++ 0#5 ++ 0#5 ++ 0#6 ++ 0#2]) 1 = 0x16#9 ++ 1#5 ++ 0#5 ++ 0#5 ++ 0#6 ++ 0#2 := by decide +kernel
theorem witness_ImmediateResults : (0xC0#14).extractLsb' 6 2 = 3 ∧ (0x100#14).extractLsb' 6 2 ≠ 3 ∧ (0x100#14).extractLsb' 8 6 ≠ 0 ∧
    (5#9).toNat ≤ 5 ∧ (4 : BitVec 9) = 4 ∧ (1 : BitVec 19) ≠ 0 := by decide
/-- A target in the footprint that passes, one outside it, one in it that fails (word 0 of the line); each condition both ways. -/
theorem witness_BranchAndJumpResults :
    st.ctx.fcap.covers (st.pc + 16).toNat = true ∧ passes st (st.pc + 16) = true ∧ st.ctx.fcap.covers (st.pc + 0x4000).toNat = false ∧
    st.ctx.fcap.covers (st.pc - 4).toNat = true ∧ fails st (st.pc - 4) 0x06 = true ∧
    (let s := withG st [(6, -1), (7, 1)]
     s.g 6 = s.g 6 ∧ s.g 6 ≠ s.g 7 ∧ (s.g 6).toInt < (s.g 7).toInt ∧ ¬ (s.g 7).toInt < (s.g 6).toInt ∧ (s.g 7).toNat < (s.g 6).toNat ∧
     (s.g 7).toNat ≤ (s.g 6).toNat ∧ s.g 7 = 1 ∧ s.g 6 ≠ 1) := by decide +kernel
/-- The line of a two-parcel instruction: parcel 2 begins none. -/
theorem witness_TransferTargetCheck :
    let s := State.reset.withFetchWord 64 0x0000000000000001
    (match s.fetchLine (localBase 0) with
      | .line l _ => l.poison = 0 && parloOk l.data && parhiOk l.data && !l.data.getLsbD 29 && (starts l.data).contains 1
          && l.data.getLsbD 0 && !(starts l.data).contains 2 && (starts l.data).contains 15
      | _ => false) = true ∧
    (s.pc + 1).toNat % 4 ≠ 0 ∧ (s.pc - 4).toNat % 64 / 4 = 0 ∧ s.pc.toNat / 64 * 64 = localBase 0 := by decide +kernel
/-- A window of 4 entries. -/
def windowed : State := st.setCore { st.core with walloc := #v[4 * 1024, 0, 0, 0] }
/-- Window operands of 0, 2 and 1, or of pairs 0 and 2. -/
def ff : FFields := { f0 with d := 0, a := 2, b := 1 }
theorem witness_WindowOperandChecks :
    windowed.wsize = 4 ∧ (3 : Int) % 2 ≠ 0 ∧ (2 + 1 : Int) < windowed.wsize ∧ ¬ (0 ≤ (-1 : Int) ∧ (-1 : Int) < windowed.wsize) ∧
    ¬ (4 : Int) < windowed.wsize ∧
    (let s := windowed.setCore { windowed.core with walloc := #v[3 * 1024, 0, 0, 0] }
     0 ≤ (2 : Int) ∧ (2 : Int) < s.wsize ∧ (2 : Int) % 2 = 0 ∧ ¬ (2 + 1 : Int) < s.wsize) ∧
    badM (checkWins [(windowed.wd { ff with d := 5 }, false), (windowed.wa ff, false), (windowed.wb ff, false)]) windowed 0x14 = true ∧
    ({ windowed.ctx with sr := { windowed.ctx.sr with fcsr := 7 } }).sr.fcsr.extractLsb' 0 3 = 7 ∧ isEngine windowed.cur = false := by
  decide +kernel
/-- One form that takes all of FADD to FMA in both forms, one of pairs, one that takes FSQRT. -/
theorem witness_FloatArithmeticResults :
    isEngine windowed.cur = false ∧ windowed.ctx.sr.fcsr.extractLsb' 0 3 ≠ 7 ∧
    okM (checkWins [(windowed.wd ff, false), (windowed.wa ff, false), (windowed.wb ff, false)]) windowed = true ∧
    okM (checkWins [(windowed.wd { ff with dbl := true, b := 0 }, true), (windowed.wa { ff with dbl := true }, true)]) windowed = true ∧
    ff.od = 0 ∧ ff.oa = 0 ∧ ff.ob = 0 ∧ ({ ff with b := 0 }).b = 0 := by decide +kernel
/-- The pair 0 of w and the single entry 2 for FCVT of both directions. -/
theorem witness_FloatMoveResults :
    isEngine windowed.cur = false ∧ windowed.ctx.sr.fcsr.extractLsb' 0 3 ≠ 7 ∧
    (let f := { ff with b := 0 }
     okM (checkWins [(windowed.wd f, f.dbl), (windowed.wa f, f.dbl), (windowed.wb f, f.dbl), (windowed.wa f, !f.dbl)]) windowed = true ∧
     f.od = 0 ∧ f.oa = 0 ∧ f.b = 0 ∧ f.ob = 0) := by decide +kernel
/-- A register of each kind, an engine hart, another compartment, a value that is refused and one that is written. -/
theorem witness_SysRegisterAccess :
    sysWriteBy 0x000 = some .root ∧ sysWriteBy 0x007 = some .anyone ∧ sysWriteBy 0x00B = some .nobody ∧ sysWriteBy 0x3FF = none ∧
    isEngine (.copy 0) = true ∧ isEngine st.cur = false ∧ st.ctx.sr.cid = 1 ∧
    okM (sysPut 0x004 0) st = true ∧ badM (sysPut 0x004 0x8000000000000001) st 0x02 = true := by decide +kernel
theorem witness_SysRegisterWrites :
    (¬ ((0x8000000000000000#64).getLsbD 63 = true ∧ (0x8000000000000000#64).extractLsb' 0 2 ≠ 0)) ∧
    (0x8000000000000001#64).getLsbD 63 = true ∧ (0x8000000000000001#64).extractLsb' 0 2 ≠ 0 ∧
    (31 + 1) * (63 + 1) ≤ st.vbytes ∧ ¬ (32 + 1) * (63 + 1) ≤ st.vbytes ∧
    st.wallocOk (256 * 1024 + 768) = true ∧ st.wallocOk (256 * 1024 + 769) = false := by decide +kernel
/-- A handler; a trap inside it; none; one outside RCC's footprint; one at a word that fails R20. -/
theorem witness_TrapEntry :
    isEngine handled.cur = false ∧ handled.ctx.sr.th = false ∧ handled.ctx.sr.tvecEn = true ∧
    handled.core.rcc.covers handled.ctx.sr.tvecAddr.toNat = true ∧ passes handled handled.ctx.sr.tvecAddr = true ∧
    st.ctx.sr.tvecEn = false ∧ nexts (exec (.trap 5) handled) (fun t => t.ctx.sr.th) = true ∧
    (handled.setCore { handled.core with rcc := Cap.null }).core.rcc.covers handled.ctx.sr.tvecAddr.toNat = false ∧
    (let c := handled.ctx
     let s := handled.setCtx { c with sr := { c.sr with tvec := c.sr.tvec - 4 } }
     s.core.rcc.covers s.ctx.sr.tvecAddr.toNat = true ∧ fails s s.ctx.sr.tvecAddr 0x06 = true) := by decide +kernel
/-- The run with and without BRK interception. -/
theorem witness_TrapInstructions :
    isEngine st.cur = false ∧ (st.runOn st.coreNo).any (fun r => !r.dbg.brk) = true ∧
    ((st.updRun 1 (fun r => { r with dbg := { r.dbg with brk := true } })).runOn st.coreNo).any (fun r => r.dbg.brk) = true := by
  decide +kernel
/-- Inside a handler, in compartment 1 and in another; EFCAP covers EPC and EPC begins an instruction, or it does not. -/
theorem witness_ReturnFromHandler :
    nexts (exec (.trap 5) handled) (fun t =>
      let c := t.ctx
      let u := t.setCtx { c with sr := { c.sr with cid := 2 } }
      let v := t.setCtx { c with sr := { c.sr with epc := c.sr.epc - 4 } }
      c.sr.th && c.sr.cid = 1 && u.ctx.sr.cid ≠ 1 && c.efcap.covers c.sr.epc.toNat
        && (match t.checkTarget (c.sr.epc.setWidth 64) false with | .ok _ => true | _ => false)
        && v.ctx.efcap.covers v.ctx.sr.epc.toNat
        && (match v.checkTarget (v.ctx.sr.epc.setWidth 64) false with | .bad _ _ => true | _ => false)) = true ∧
    st.ctx.sr.th = false := by decide +kernel
theorem witness_DecodingTraps :
    inProfile (.copy 0) (.ecmd q0) = false ∧ inProfile (.copy 0) (.addi 5 0 8) = true ∧ (Instr.fence 0).wf = false ∧
    (0xA4#32).extractLsb' 0 2 ≠ 3 ∧ ((0xA4#32).extractLsb' 2 6).toNat = 41 ∧ ((0xBC#32).extractLsb' 2 6).toNat = 47 ∧
    (0x54#32).extractLsb' 0 2 ≠ 3 := by decide +kernel
/-- A pending deferred fault. -/
def faulty : State := let c := st.ctx; st.setCtx { c with deferred := some { eval := 0x1000, pc := 0x40 } }
/-- A side-log entry of the agent. -/
def side : SideEntry :=
  { op := .write, ord := 0, va := 0x10000, data := 0, mask := 0xFF, tags := 0, lease := 0, gen := 0, agent := .ctx 0 0, run := 1,
    pc := 0x40, epoch := 0 }
/-- A side log that holds an entry of the agent; a link that retrains, toward which a store of the agent waits. -/
theorem witness_FenceResults :
    (3 : BitVec 2).getLsbD 0 = true ∧ (1 : BitVec 2).getLsbD 0 = true ∧ st.ctx.deferred = none ∧ st.logged = false ∧
    st.writesHeld = false ∧ (st.flush st.cur).ctx.deferred = none ∧ faulty.ctx.deferred.isSome = true ∧
    (st.setCore { st.core with u := { st.core.u with sideLog := [side] } }).logged = true := by decide +kernel

/-- A state of the core with other units. -/
def withU (s : State) (f : CoreUnits → CoreUnits) : State := s.setCore { s.core with u := f s.core.u }
/-- A context with other fields. -/
def withX (s : State) (f : Ctx → Ctx) : State := s.setCtx (f s.ctx)
/-- A ready record. -/
def rdy : Ready := { recAddr := 0x40, prio := 0, run := 1, plevel := 0, core := 0, recCap := Cap.null }
theorem witness_ContextInstructions :
    isEngine st.cur = false ∧ st.core.u.ready = [] ∧
    (let s := withU st (fun u => { u with ready := [rdy] }); s.core.u.ready ≠ [] ∧ s.freeSlots s.coreNo ≠ []) ∧
    st.capFault placedCode .X Kind.X.need 0 0 false = none ∧
    st.core.u.mx.fetches = [] ∧ st.core.u.mx.loads = [] ∧ st.core.u.mx.streams = [] ∧ (st.flush st.cur).logged = false ∧
    (st.runOn st.coreNo).any (fun r => decide ((0 : BitVec 3).toNat ≤ r.domain.level.toNat) && decide (r.domain.level.toNat < (7 : BitVec 3).toNat)) = true ∧
    st.otherLevel st.coreNo 0 = false := by decide +kernel
/-- A continuation with a record, no other slot free, and a ready one. -/
theorem witness_ContextInstructions_yield :
    let s := withX (withU st (fun u => { u with ready := [rdy] })) (fun c => { c with
      recAddr := some (BitVec.ofNat 48 (localBase 0 + 0x8000)), recCap := lc 0 0x0F 0x8000 64, frame := lc 0x20 0x0F 0x4000 48, pinned := false })
    let t := [1, 2, 3].foldl (fun (t : State) i => t.setCtxOf (.ctx 0 i) t.ctx) s
    t.core.u.ready ≠ [] ∧ t.freeSlots t.coreNo = [] ∧ t.ctx.isPinned = false ∧
    (((t.setPc (t.nextPc .yield)).suspend .yield 0 0 0 none).writeBackSlot t.coreNo t.slot).isSome = true := by decide +kernel

/-- A sealer of object types from 5, and one at 0. -/
def sealer : Cap := { lc 0x21 0x43 0 16 with base := 5, scope := 1 }
/-- CODE of the first 4 KiB of core 0's local memory, entry 4. -/
def code : Cap := { lc 0x24 0x75 0 64 with str1 := 4 }
theorem witness_CapabilityCheck : (lc 0x05 0x03 0 4).tag = true ∧ (lc 0x05 0x03 0 4).ext 0 = 4 := by decide
theorem witness_CapabilityReads : (16 : BitVec 5).toNat ≤ 16 ∧ (0 : BitVec 5).toNat < 16 ∧ (15 : BitVec 5).toNat < 16 ∧ (3 : BitVec 5).toNat < 4 ∧
    (let c := (withC st [(15, tensor)]).c 15; c.fmt ≠ 0x24 ∧ c.tag = true) ∧ (withC st [(0, code)]).c 0 = code := by decide +kernel
theorem witness_PermissionAndSealing :
    (let s := withC st [(1, { sealer with otype := 5 }), (2, sealer), (3, { sealer with base := 0 }), (4, { sealer with base := 65535 }),
        (5, { sealer with base := 65536 })]
     (s.c 0).tag = false ∧ (s.c 1).tag = true ∧ (s.c 1).otype ≠ 0 ∧ (s.c 2).tag = true ∧ (s.c 2).otype = 0 ∧
     (Instr.cslice c0).wf = true ∧ (Instr.clease c0).wf = true ∧ Fmt.reserved (s.c 1).fmt.toNat = false ∧
     [2, 3, 4, 5].all (fun b => okM (capCheck (s.c b) .SEAL 0 0) s (fun _ t => decide (t = s.cacheLease (s.c b).lease.toNat))
        && okM (capCheck (s.c b) .UNSEAL 0 0) s (fun _ t => decide (t = s.cacheLease (s.c b).lease.toNat))) = true ∧
     (s.c 1).otype = (s.c 2).base.setWidth 16 ∧ (s.c 1).otype ≠ (s.c 4).base.setWidth 16 ∧
     badM (capCheck (s.c 0) .SEAL 0 0) s 0x08 = true ∧ badM (capCheck (s.c 1) .UNSEAL 0 0) s 0x0C = true) ∧
    -- the sizes of CFMT: the same, a narrower BPI, one byte each; and not
    (0x18#6).toNat ≤ 0x18 ∧ 0x12 ≤ (0x12#6).toNat ∧ Fmt.size (0x0D#6).toNat = Fmt.size (0x00#6).toNat ∧
    Fmt.size (0x05#6).toNat ≠ Fmt.size (0x00#6).toNat := by decide +kernel
/-- 8 by 4 S32 elements of rows of 32 bytes; the same of S4, of BPI planes; a stride that no subsampling fits. -/
def s32 : Cap := { lc 0x05 0x41 0 8 with ext1 := 3, str1 := 8 }
def s4 : Cap := { s32 with fmt := 0x0F, str1 := 3 }
def bpi : Cap := { s32 with fmt := 0x18, ext0 := 511, str1 := 512 }
theorem witness_SlicingResults :
    let f (imm : BitVec 32) : CFields := { c0 with ca := 1, cd := 2, x := 7, y := 8, imm := imm }
    let s := withG (withC st [(1, s32), (2, s4), (3, bpi), (4, code), (5, { s32 with str1 := 0x40000000 }), (6, { s32 with fmt := 0x10 })]) [(7, 3), (8, 1)]
    [1, 2, 3, 4, 5, 6].all (fun i => (s.c i).tag && decide ((s.c i).otype = 0)) = true ∧
    (Instr.cslice (f 1)).wf = true ∧ (Instr.cslicei { f 0x40030000 with x := 0, y := 0 }).wf = true ∧
    -- the last row; one past it; a row of S4 of odd stride is no aligned move from row 3, and is from row 2
    (0 ≤ (3 : Int) ∧ 1 ≤ (1 : Int) ∧ (3 : Int) + 1 ≤ (s.c 1).ext 1) ∧ ¬ ((3 : Int) + 2 ≤ (s.c 1).ext 1) ∧
    (2 * (s.c 2).stride 1) % 2 = 0 ∧ (3 * (s.c 2).stride 1) % 2 ≠ 0 ∧ (256 : Int) % 256 = 0 ∧ Fmt.isBpi (s.c 3).fmt.toNat = true ∧
    Sys2Proof.Fmt.defined (s.c 1).fmt.toNat = true ∧ ¬ Sys2Proof.Fmt.defined (s.c 6).fmt.toNat = true ∧ (3 : Int) + 1 ≤ (s.c 6).ext 1 ∧
    -- code: the entry kept, and moved out
    (256 : Int) % 256 = 0 ∧ (3 : Int) % 256 ≠ 0 ∧ (3 : Int) % 2 ≠ 0 ∧ (3 : Int) + 1 ≤ (s.c 2).ext 0 ∧ (3 : Int) + 1 ≤ (s.c 3).ext 0 ∧
    (0 : Int) + 1 ≤ (s.c 4).ext 1 ∧ (Instr.crank { f 1 with y := 0 }).wf = true ∧ (Instr.cstep { f 0x00020000 with x := 0, y := 0 }).wf = true ∧
    (s.c 4).fmt.toNat = Fmt.code ∧ (63 : Int) + 1 ≤ (s.c 4).ext 0 ∧
    (0 ≤ ((s.c 4).str1.toNat : Int) - 64 * 0) ∧ ¬ (0 ≤ ((s.c 4).str1.toNat : Int) - 64 * 1) ∧
    -- CRANK: an empty part, one that is not; a rank out of range
    (Instr.crank { f 0x00040001 with y := 0 }).wf = true ∧ (Instr.crank { f 0x00090001 with y := 0 }).wf = true ∧
    ((s.g 7).toNat < 4) ∧ (3 * 4 / 9 = 1 ∧ 4 * 4 / 9 = 1) ∧ (3 * 4 / 4 < (3 + 1) * 4 / 4) ∧ ¬ (s.g 7).toNat < 3 ∧
    -- CSTEP: fits and does not
    (Instr.cstep { f 0x00020001 with x := 0, y := 0 }).wf = true ∧ ((s.c 1).stride 1 * 2 < 2 ^ 31) ∧ ¬ ((s.c 5).stride 1 * 2 < 2 ^ 31) ∧
    -- CFIX: the last coordinate; one past it
    (Instr.cfix { f 1 with y := 0 }).wf = true ∧ (s.g 7).toInt < (s.c 1).ext 1 ∧ ¬ (s.g 7).toInt < 3 := by decide +kernel
theorem witness_DerivationsOnlyNarrow :
    (Instr.cperm 2 1 0).wf = true ∧ (Instr.cfix { c0 with imm := 1 }).wf = true ∧ 0 ≤ bpi.bounds.1 ∧ bpi.bounds.2 ≤ 2 ^ 48 ∧
    bpi.str1.toInt % 256 = 0 ∧ bpi.str2.toInt % 256 = 0 ∧ bpi.str3.toInt % 256 = 0 ∧ sealer.ext1 = 0 ∧
    nexts (exec (.cfix { c0 with ca := 1, cd := 2, imm := 1 }) (withC st [(1, s32)])) (fun t => (t.c 2).tag) = true := by decide +kernel
/-- Lease 1 live at generation 0, its parent lease 0; the free list begins at lease 2, whose NEXT is 3. -/
def leased : State :=
  { (st.setLease 1 { Lease.reset with state := 1 }).setLease 2 { Lease.reset with next := 3 } with leases := { Leases.reset with head := 2 } }
theorem witness_LeaseInstructions :
    let f : CFields := { c0 with ca := 1, cd := 2, x := 5 }
    (Instr.clease f).wf = true ∧ (Instr.cfree { f with cd := 0 }).wf = true ∧
    leased.capFault s32 .L 0x40 0 0 true = none ∧ leased.capFault { s32 with perm := 1 } .L 0x40 0 0 true = some (0x0A, 0x40) ∧
    ((leased.cacheLease 0).popLease).any (fun x => decide (x.1 = 2) && decide (x.2.leases.head = 3)) = true ∧
    ((({ leased with leases := Leases.reset } : State).cacheLease 0).popLease).isNone = true ∧
    (leased.lease 1).state = 1 ∧ (leased.lease 1).gen = 0 ∧ ¬ (leased.lease 2).state = 1 ∧ s32.perm.getLsbD 6 = true ∧
    Memory.wf leased = true ∧ leased.liveUnder 1 = [1] ∧
    (leased.press.queues ++ leased.press.fifo ++ leased.press.props.map Propagation.piece).all (fun p => !p.carries [1]) = true := by
  decide +kernel
theorem witness_CompartmentEntry :
    let f : KFields := { k0 with ck := 1, dt := 2 }
    let s := withC st [(1, { placedCode with otype := 5 }), (2, { s32 with otype := 5 }), (3, { s32 with otype := 6 })]
    (Instr.center f).wf = true ∧ isEngine s.cur = false ∧ (s.c 0).tag = false ∧ (s.c 1).otype ≠ 0 ∧ (s.c 1).otype = (s.c 2).otype ∧
    (s.c 1).otype ≠ (s.c 3).otype ∧ (s.c 1).fmt = 0x24 ∧ (s.c 2).fmt ≠ 0x24 ∧ s.alive (s.c 1) = true ∧ s.alive (s.c 2) = true ∧
    (s.c 1).perm.getLsbD 4 = true ∧ passes s ((s.c 1).base.setWidth 64 + (s.c 1).str1.setWidth 64) = true ∧
    fails s ((s.c 1).base.setWidth 64) 0x06 = true ∧ (s.c 1).covers ((s.c 1).base.setWidth 64 + (s.c 1).str1.setWidth 64).toNat = true ∧
    ({ s.c 1 with str1 := 0x4000 }).covers ((s.c 1).base.toNat + 0x4000) = false := by decide +kernel

/-- A queued store of an agent: the low word of a line. -/
def piece (a : Agent) (line : Nat) (data : BitVec 512) : Piece :=
  { agent := a, op := .write, line := line, va := BitVec.ofNat 48 line, data := data, mask := 0xFFFFFFFF, tags := 0, poison := 0,
    replicated := false, nonAlloc := false, run := 1, pc := 0x40, ord := 0 }
/-- The same state with these queued stores. -/
def queued (s : State) (l : List Piece) : State := { s with press := { s.press with queues := l } }
/-- The run's range descriptor of the spec's example: channels 0 to 3 from 0x40000000. -/
def ranged : State := st.updRun 1 (fun r => { r with ranges :=
  [{ vbase := 0x40000000, vlimit := 0x50000000, poff := 0x10000000, die := 0, chmask := 0xF, rd := true, wr := true, xe := false }] })
/-- A leaf in core 0's TLB for virtual page `n`. -/
def leafed (n : Nat) (leaf : Word) : State :=
  withU ranged (fun u => { u with tlb := [{ tenant := 0, vpage := n, leaf := leaf, big := false }] })
/-- A device capability: format, permissions, base, elements. -/
def dc (fmt : BitVec 6) (perm : BitVec 8) (base : BitVec 48) (n : Nat) : Cap := { lc fmt perm 0 n with base := base, scope := 1 }
def isAbsent (x : Xlat) : Bool := match x with | .absent => true | _ => false
def isMigrating (x : Xlat) : Bool := match x with | .migrating => true | _ => false
def isFault (x : Xlat) : Bool := match x with | .fault _ _ => true | _ => false
def isPlace (x : Xlat) : Bool := match x with | .ok _ _ _ => true | _ => false
/-- An absent page and one under migration; a place, one that is refused, one that traps. -/
theorem witness_AccessCheck :
    let s := withC st [(1, s32), (2, lc 0 0x41 0 7), (3, { lc 0 0x41 0 64 with base := 0x3FFFFFFFFFFF, scope := 1 })]
    badM (capCheck (s.c 0) .L 0 0) s 0x08 = true ∧ okM (capCheck (s.c 1) .L 7 3) s = true ∧ badM (capCheck (s.c 1) .L 8 3) s 0x09 = true ∧
    (0 ≤ (s.c 1).addr 7 3 ∧ (s.c 1).addr 7 3 < 2 ^ 48 ∧ region ((s.c 1).addr 7 3).toNat = region (s.c 1).base.toNat) ∧
    okM (capCheck (s.c 2) .L 3 0) s (fun _ u => okM (capCheck (s.c 2) .L (3 + 4 - 1) 0) u) = true ∧
    okM (capCheck (s.c 2) .L 4 0) s (fun _ u => badM (capCheck (s.c 2) .L (4 + 4 - 1) 0) u 0x09) = true ∧
    (s.c 2).addr 3 0 % 4 ≠ 0 ∧ (s.c 2).addr 0 0 % 4 = 0 ∧
    okM (capCheck (s.c 3) .L 1 0) s = true ∧ region ((s.c 3).addr 1 0).toNat ≠ region (s.c 3).base.toNat := by decide +kernel
theorem witness_LoadResults_bytes :
    -- faults, absent, migrating, a place
    isFault (st.xlate st.cur 0xC00000000000 .read) = true ∧ isAbsent (st.xlate st.cur 0x10000 .read) = true ∧
    isMigrating ((leafed 1 0x8F00000000010000).xlate st.cur 0x10000 .read) = true ∧ isPlace (ranged.xlate st.cur 0x40000000 .read) = true ∧
    -- no refusal, no wait; queued stores that cover the bytes, that do not
    ranged.refused ranged.cur 1 0x10000000 .read = false ∧ ranged.pathHeld ranged.cur 0x10000000 = false ∧
    ranged.refreshLeft 0x10000000 = 0 ∧
    (allSome ((queued st [piece st.cur (localBase 0) 7]).forward st.cur (localBase 0) 4)).isSome = true ∧
    allSome ((queued st [piece st.cur (localBase 0) 7]).forward st.cur (localBase 0) 8) = none ∧
    cacheable 0x10000000 = true ∧ cacheable (localBase 0) = false ∧
    ranged.view? ranged.cur 0x40000000 0x10000000 = none ∧
    ((ranged.refreshSource ranged.cur 0x40000000 0x10000000).got 0x10000000 4).poison.any id = false ∧
    okM (load 0x40000000 4 0) ranged (fun _ t => (t.view? t.cur 0x40000000 0x10000000).isSome) = true ∧
    (ranged.setPoison 0x10000000 true).poisonAt 0x10000000 = true ∧
    (((ranged.setPoison 0x10000000 true).refreshSource ranged.cur 0x40000000 0x10000000).got 0x10000000 4).poison.any id = true ∧
    st.poisonAt (localBase 0) = false := by decide +kernel
/-- A card on which the host window's home refuses. -/
theorem witness_LoadResults_instructions :
    let s := withC windowed [(1, s32), (2, bpi), (3, s4), (4, lc 0x20 0x07 0 2), (5, lc 0x07 0x41 0 2)]
    (Instr.ld { m0 with c := 1 }).wf = true ∧ (Instr.ldc { m0 with c := 4, ty := 0, t := 15 }).wf = true ∧
    (Instr.ldw { m0 with c := 1, ty := 4 }).wf = true ∧ (Instr.ldw { m0 with c := 5, ty := 6 }).wf = true ∧
    (Instr.pref { m0 with c := 1, ty := 0 }).wf = true ∧
    okM (accCheck (s.c 1) .L (scalarAccepts (s.c 1).fmt.toNat 4 true) 4 7 3) s
      (fun a u => okM (loadElem (s.c 1) 4 0 7 3 a) u) = true ∧
    okM (accCheck (s.c 2) .L (scalarAccepts (s.c 2).fmt.toNat 0 true) 1 511 3) s
      (fun a u => okM (loadElem (s.c 2) 1 0 511 3 a) u) = true ∧
    okM (accCheck (s.c 3) .L (scalarAccepts (s.c 3).fmt.toNat 0 true) 1 7 3) s
      (fun a u => okM (loadElem (s.c 3) 1 0 7 3 a) u) = true ∧
    okM (accCheck (s.c 4) .LC ((s.c 4).fmt = 0x20) 32 1 0) s (fun a u => okM (load a 32 1) u) = true ∧
    (s.winOk 3 false ∧ ¬ s.winOk 4 false ∧ s.winOk 2 true ∧ ¬ s.winOk 1 true) ∧
    badM (accCheck (s.c 1) .L (scalarAccepts (s.c 1).fmt.toNat 1 true) 1 8 0) s 0x09 = true ∧
    badM (accCheck (s.c 1) .L (scalarAccepts (s.c 1).fmt.toNat 2 true) 2 0 0) s 0x0E = true := by
  unfold State.winOk; decide +kernel
theorem witness_StoreResults :
    let s := withC windowed [(1, { s32 with perm := 2 }), (3, { s4 with perm := 2 }), (4, lc 0x20 0x8F 0 2), (5, lc 0x07 2 0 2), (6, s32),
      (7, { lc 0x20 0x0F 0 2 with base := 0x40000000, scope := 1 })]
    isPlace (s.xlate s.cur (localBase 0 + 124) .write) = true ∧ isPlace (ranged.xlate ranged.cur 0x40000000 .write) = true ∧
    okM (accCheck (s.c 1) .S (scalarAccepts (s.c 1).fmt.toNat 4 false) 4 7 3) s (fun a _ => a = localBase 0 + 124) = true ∧
    okM (accCheck (s.c 3) .S (scalarAccepts 0x0F 0 false) 1 7 3) s = true ∧ (Instr.st { m0 with c := 3, ty := 0, ord := 2 }).wf = true ∧
    okM (accCheck (s.c 1) .S (scalarAccepts (s.c 1).fmt.toNat 4 false) 4 7 3) s = true ∧ (Instr.stw { m0 with c := 1, ty := 4 }).wf = true ∧
    okM (accCheck (s.c 5) .S (scalarAccepts (s.c 5).fmt.toNat 6 false) 8 1 0) s = true ∧ (Instr.stw { m0 with c := 5, ty := 6 }).wf = true ∧
    okM (accCheck (s.c 4) .SC ((s.c 4).fmt = 0x20) 32 1 0) s = true ∧ (Instr.stc { m0 with c := 4, ty := 0, t := 6, ord := 1 }).wf = true ∧
    okM (accCheck (s.c 7) .SC ((s.c 7).fmt = 0x20) 32 1 0) s = true ∧
    (s.c 6).tag = true ∧ s.alive (s.c 6) = true ∧ (s.c 6).scope = 0 ∧ (s.c 7).scope ≠ 0 ∧ (s.c 7).perm.getLsbD 7 = false ∧
    (s.c 4).perm.getLsbD 7 = true ∧ (3 : Int) % 2 ≠ 0 ∧ (piece s.cur 64 1).line % 64 = 0 ∧
    (piece s.cur 64 1).mask.extractLsb' 0 256 ≠ 0 ∧ (piece s.cur 64 1).mask.extractLsb' 256 256 = 0 := by decide +kernel
/-- A range of die 1; the link toward it retraining, and down; a slice of another tenant. -/
def farRanged : State := ranged.updRun 1 (fun r => { r with ranges := r.ranges.map (fun d => { d with die := 1 }) })
def linked (x : LinkState) : State := farRanged.setLink (.ucie 0) { Link.reset with state := x }
/-- For each statement about an access: its way is held, its way refuses, its home refuses, its bank refreshes. -/
theorem witness_ways :
    let pa := 0x100010000000
    isPlace (farRanged.xlate st.cur 0x40000000 .read) = true ∧ (linked .retraining).pathHeld st.cur pa = true ∧ farRanged.pathHeld st.cur pa = false ∧
    (linked .down).refused st.cur 1 pa .read = true ∧ (linked .down).refused st.cur 1 pa .both = true ∧ (linked .down).refused st.cur 1 pa .write = true ∧
    (let s := ranged.setSlice 0 0 { Slice.reset with shared := false, tenant := 9 }; s.refused s.cur 1 0x10000000 .read) = true ∧
    ((State.reset.setStatus 5 0 0).setDie 0 { Die.reset with cycle := 48001 }).refreshLeft 0x80000000000 ≠ 0 ∧
    (queued (linked .retraining) [piece st.cur pa 1]).writesHeld = true := by decide +kernel
theorem witness_AtomicResults :
    let s := withC ranged [(1, { s32 with perm := 3 }), (2, lc 0x07 3 0 2), (3, dc 0x0B 3 0x40000000 2), (4, { dc 5 3 0x800000000000 2 with scope := 2 })]
    (Instr.acas { m0 with c := 1, t := 31 }).wf = true ∧ (Instr.aminu { m0 with c := 1, ty := 4 }).wf = true ∧
    (Instr.aadd { m0 with c := 2, ty := 6 }).wf = true ∧ (Instr.afadd { m0 with c := 3, ty := 4 }).wf = true ∧
    okM (accCheck (s.c 1) .A (scalarAccepts (s.c 1).fmt.toNat 4 true) 4 7 0) s = true ∧
    okM (accCheck (s.c 1) .A (scalarAccepts (s.c 1).fmt.toNat 4 true) 4 7 0) s = true ∧
    okM (accCheck (s.c 2) .A (scalarAccepts (s.c 2).fmt.toNat 6 true) 8 1 0) s = true ∧
    okM (accCheck (s.c 3) .A (scalarAccepts (s.c 3).fmt.toNat 4 true) 4 1 0) s = true ∧
    okM (accCheck (s.c 4) .A (scalarAccepts (s.c 4).fmt.toNat 4 true) 4 1 0) s = true ∧ (s.c 4).scope = 2 ∧
    isPlace (s.xlate s.cur (localBase 0) .atomic) = true ∧ isPlace (s.xlate s.cur 0x40000004 .atomic) = true ∧
    s.refused s.cur 1 0x10000004 .both = false ∧ s.pathHeld s.cur 0x10000004 = false ∧ s.poisonAt 0x10000004 = false ∧
    blockQueueCell (localBase 0) = none ∧ blockQueueCell 0x10000004 = none := by decide +kernel

/-- A counter of core 0 and one of device memory. -/
def ctr : Cap := lc 0x22 0x03 0x800 2
/-- The counter a read finds. -/
def counterIs (s : State) (f : QFields) (v : Word) : Bool := okM (readCounter f) s (fun r _ => r.2.2 == v)
/-- A satisfied and an unsatisfied threshold; a saturating one; a counter of larger reach; a poisoned one; a replicated page. -/
theorem witness_CounterResults :
    let s := withG (withC ranged [(1, ctr), (2, dc 0x22 0x03 0x40000000 2), (3, { dc 0x22 0x03 0x800000000000 2 with scope := 2 }),
      (4, { s32 with perm := 3 })]) [(7, 1), (8, BitVec.allOnes 64)]
    let f : QFields := { q0 with c := 1, x := 7, d := 8 }
    badM (capCheck (s.c 0) .CTR 1 0) s 0x08 = true ∧ okM (capCheck (s.c 1) .CTR 1 0) s = true ∧ okM (capCheck (s.c 1) .CTW 1 0) s = true ∧
    okM (capCheck (s.c 3) .CTR 1 0) s = true ∧ (s.c 3).scope = 2 ∧ region ((s.c 3).addr 1 0).toNat = region (s.c 3).base.toNat ∧
    okM (counterAddr f .CTR) s (fun a u => isPlace (u.xlate u.cur a .read)) = true ∧
    okM (counterAddr f .CTW) s (fun a u => isPlace (u.xlate u.cur a .atomic)) = true ∧
    (let t := leafed 1 0xA600000000010000
     okM (counterAddr { f with c := 2 } .CTR) (withG (withC t [(2, dc 0x22 0x03 0x10000 2)]) [(7, 1)])
       (fun a u => match u.xlate u.cur a .read with | .ok _ rpl _ => rpl | _ => false)) = true ∧
    s.scopeReaches s.cur (localBase 0 + 0x808) 0 = true ∧ s.scopeReaches s.cur 0x10000008 0 = false ∧
    (s.setPoison (localBase 0 + 0x808) true).poisonAt (localBase 0 + 0x808) = true ∧ s.poisonAt (localBase 0 + 0x808) = false ∧
    counterIs s f 0 = true ∧ (s.g 8).toNat + (f.imm.toNat + 1) ≥ 2 ^ 64 ∧ (0 : Word).toNat < (s.g 8).toNat ∧
    counterIs s { f with c := 1, d := 0 } 0 = true ∧ (s.g 0).toNat + f.imm.toNat ≤ (0 : Word).toNat ∧
    badM (readCounter { f with c := 2 }) s 0x0D = true ∧
    (Instr.ctread f).wf = true ∧ (Instr.cttry f).wf = true ∧ (Instr.ctwait f).wf = true ∧ (Instr.ctadd { f with ob := true }).wf = true ∧
    (s.flush s.cur).logged = false ∧
    (Instr.sbind { f with d := 4, imm := 7 }).wf = true ∧ okM (capCheck (s.c 4) .L 0 0) s (fun _ t => okM (capCheck (s.c 1) .CTR 1 0) t) = true ∧
    (Instr.sunbind { q0 with imm := 7 }).wf = true := by decide +kernel
/-- Slot 255 of two expected arrivals, one of them made. -/
def barred : State := st.setCore (st.core.setBarrier 255 { code := 0, gen := 255, exp := 2, cnt := 1 })
/-- Slots 255 and 256; one that completes, one that does not, one passed; a waiter. -/
theorem witness_BarrierResults :
    let f : QFields := { q0 with x := 7, d := 5, imm := 0x2FF }
    let b := barred.core.barrier 255
    (Instr.binit f).wf = true ∧ (Instr.barrive f).wf = true ∧ (Instr.barrive { f with ob := true }).wf = true ∧
    (Instr.bwait { f with imm := 0xFF }).wf = true ∧ (Instr.barwait { f with imm := 0xFF }).wf = true ∧
    (barred.g 7).toNat + 255 < 256 ∧ 256 ≤ ((withG barred [(7, 1)]).g 7).toNat + 255 ∧ b.cnt ≠ 0 ∧ st.core.barrier 255 = Barrier.reset ∧
    b.gen ≠ (barred.g 5).setWidth 8 ∧ b.gen = ((withG barred [(5, 0xFF)]).g 5).setWidth 8 ∧
    b.cnt.toNat + 0 < b.exp.toNat ∧ b.cnt.toNat + 1 = b.exp.toNat ∧ b.exp.toNat ≤ b.cnt.toNat + 2 ∧
    (barred.suspend .barrier (256 * 255 + 255) 0 5 none).ctx.susp.any (fun w => w.reason = .barrier ∧ w.key.toNat % 256 = 255 ∧ w.dst ≠ 0) = true ∧
    (barred.flush barred.cur).logged = false := by decide +kernel
/-- A block at 0x400 and one at 0x404; an idle FIFO and a full one; a mailbox below its threshold. -/
theorem witness_EngineCommandResults :
    let f : QFields := { q0 with c := 1, x := 7, d := 5 }
    let s := withC st [(1, lc 0 7 0x400 256), (2, lc 0x20 7 0x400 256), (3, dc 0 7 0x40000000 256)]
    let full := withU s (fun u => { u with copy := { u.copy with fifo := List.replicate 8 0 } })
    isEngine s.cur = false ∧ (Instr.ecmd f).wf = true ∧ (Instr.ewait { f with c := 0, x := 0 }).wf = true ∧
    okM (capCheck (s.c 1) .LC 0 0) s (fun _ u => okM (capCheck (s.c 1) .S (0 + 127) 0) u
      (fun _ v => okM (elemAddr (s.c 1) 0 0) v (fun a w => decide (a = localBase 0 + 0x400) && decide (w = v)))) = true ∧
    okM (capCheck (s.c 2) .LC 0 0) s (fun _ u => okM (capCheck (s.c 2) .S (0 + 127) 0) u) = true ∧ (s.c 2).fmt ≠ 0 ∧
    okM (capCheck (s.c 3) .LC 0 0) s (fun _ u => okM (capCheck (s.c 3) .S (0 + 127) 0) u) = true ∧ (s.c 3).scope ≠ 0 ∧
    (localBase 0 + 0x400) % 128 = 0 ∧ (localBase 0 + 0x404) % 128 ≠ 0 ∧ s.writesHeld = false ∧ (s.core.engine 0).fifo.length < 8 ∧
    8 ≤ (full.core.engine 0).fifo.length ∧ (s.flush s.cur).logged = false ∧
    (s.g 5).toNat ≤ (s.wordAt (mailCell 0 0)).toNat ∧ (s.wordAt (mailCell 0 0)).toNat < ((withG s [(5, 1)]).g 5).toNat := by decide +kernel
/-- A ring of four slots with three messages, the last of which wraps. -/
def ringed : State := st.setCore (st.core.setRing 7 { en := true, tail := 1, head := 2, logn := 2, base := 64 })
theorem witness_MessageResults :
    let f : QFields := { q0 with c := 1, x := 7, d := 5, imm := 56 }
    let s := withG (withC st [(1, lc 0 1 0x400 56), (2, lc 5 1 0x400 14)]) [(5, 0x70001)]
    let strict := st.setCore { st.core with phase := .compute }
    let r := ringed.core.ring 7
    strict.strict = true ∧ s.strict = false ∧ (Instr.send f).wf = true ∧ (s.g 5).extractLsb' 19 45 = 0 ∧ (s.g 5).extractLsb' 11 5 = 0 ∧
    ([1, 2] : List (BitVec 4)).all (fun k =>
      let c := s.c k
      let size := Fmt.size c.fmt.toNat
      decide (56 % size = 0) && okM (capCheck c .L 0 0) s (fun _ u => okM (capCheck c .L (0 + 56 / size - 1) 0) u (fun _ v =>
        okM (elemAddr c 0 0) v (fun a _ => okM ((List.range (56 / size)).mapM (fun j => loadAny (a + j * size) size)) v)))) = true ∧
    s.ownLocal (s.c 1) = true ∧ scopeOfCores s.coreNo 1 ≤ (1 : BitVec 2).toNat ∧ s.reduced = false ∧
    (Instr.recv { q0 with imm := 7 }).wf = true ∧ (Instr.recvt { q0 with imm := 0x107 }).wf = true ∧ (Instr.radv { q0 with imm := 0x307 }).wf = true ∧
    r.en = true ∧ (ringed.core.ring 6).en = false ∧ r.occupied = 3 ∧ 4 > r.occupied ∧
    ((ringed.setCore (ringed.core.setRing 7 { r with head := 1 })).core.ring 7).occupied = 0 ∧
    (Instr.ksend { q0 with x := 7, d := 5 }).wf = true ∧ agentCore s.cur = some 0 ∧
    (s.runOn 0).any (fun q => q.domain.level.toNat < 4 ∧ 0 ≤ q.domain.level.toNat) = true ∧
    s.numCores ≤ 768 ∧ 0 < s.numCores ∧ (s.coreAt 1).run ≠ some 1 ∧ (s.coreAt 0).run = some 1 ∧
    (1 + (4096 - 2)) % 4 + 1 = 4 ∧ (0 + (4096 - 2)) % 4 + 1 ≠ 4 ∧ (s.coreAt 0).kbin.en = false := by decide +kernel
/-- A board of 64 slots, MODE 2, and one in device memory. -/
theorem witness_BoardResults :
    let f : QFields := { q0 with c := 1, x := 7, d := 5, imm := 0 }
    let s := withG (withC ranged [(1, { lc 0x23 3 0x2000 1 with ext0 := 0 }), (2, dc 0x23 3 0x40000000 1)]) [(7, 63)]
    isEngine s.cur = false ∧ okM (capCheck (s.c 2) .NB 0 0) s = true ∧ (s.c 2).scope ≠ 0 ∧ (Instr.nbpost f).wf = true ∧
    (Instr.nbview { f with x := 0, ob := true }).wf = true ∧ (Instr.nbinit { f with x := 0, imm := 0x3F02 }).wf = true ∧ (Instr.nbslot f).wf = true ∧
    okM (boardAt { f with x := 0 }) s (fun b u => okM (boardHome b 0 false none false) u) = true ∧
    nexts (exec (.nbinit { f with x := 0, imm := 0x3F02 }) s) (fun t =>
      okM (boardAt f) t (fun b u => okM (boardHome b 0 true (some 63) true) u && okM (boardHome b 0 true none false) u
        && u.boardMode b == 2 && u.boardSlots b == 64)) = true ∧
    (s.flush s.cur).logged = false := by decide +kernel
/-- Two workers, cores 0 and 1, of a block of 8 cells in 4 tiles of 2, placed as `pl` says. -/
def imp (pl : Word) : State :=
  let s := withC (ranged.updRun 1 (fun r => { r with domain := { r.domain with level := 1, rows := 1, cols := 2 } })) [(1, lc 0 3 0x1000 0xB10)]
  let a := localBase 0 + 0x1000
  let p : Sched := { ext := 7, quanta := 0, tile := 1, w3 := 0xE4 + 256 * pl }
  let words : List (Nat × Word) := [(0, p.ext), (0x10, p.tile), (0x18, p.w3), (0x20, p.ext), (0x30, p.tile), (0x38, p.w3),
    (0x40, 0x101010000), (0x48, 8), (0x80, 0x10000)]
  let t := s.setBytes a (words.foldl (fun l w => l.take w.1 ++ leBytes 8 w.2.toNat ++ l.drop (w.1 + 8)) (List.replicate 0x90 0))
  t.startWorkers a p 2
/-- After a claim of a tile, in a continuation that may move. -/
def claimed (pl : Word) (w : Word) : State :=
  match exec (.tclaim { q0 with c := 1, x := 7, d := 8 }) (withG (imp pl) [(7, w)]) with
  | .next t => withX (withG t [(11, t.g 8), (12, t.g 9)]) (fun c =>
      { c with pinned := false, recAddr := some 0x40001000, recCap := dc 0 0x0F 0x40001000 64, fcap := { c.fcap with scope := 1 }, frame := dc 0x20 0x8F 0x40004000 48 })
  | _ => imp pl
/-- A claim, a foreign worker, an inactive block. -/
theorem witness_ImpositionResults_claim :
    let f : QFields := { q0 with c := 1, x := 7, d := 8 }
    let a := localBase 0 + 0x1000
    isEngine (imp 1).cur = false ∧ (Instr.tclaim f).wf = true ∧
    okM (impAt f .L) (imp 1) (fun b u => decide (b = a) && okM (impHome b 0) u (fun _ v => v.impAct b && decide (0 < v.impWorkers b)
      && decide (v.impWorker b 0 = v.coreNo) && decide (v.impWorker b 1 ≠ v.coreNo) && decide (v.impWorkers b = 2))) = true ∧
    okM (impAt f .L) ((imp 1).unitWrite (a + 0x40) 0) (fun b u => okM (impHome b 0) u (fun _ v => !v.impAct b)) = true := by decide +kernel
/-- The claim found again; a pinned context, an own tile, a foreign one, dynamic placement, a full queue. -/
theorem witness_ImpositionResults_hand :
    let f : QFields := { q0 with c := 1, x := 11, d := 5 }
    (Instr.tdone { f with d := 5 }).wf = true ∧ (Instr.thand f).wf = true ∧
    okM (impAt f .L) (claimed 1 0) (fun a u => okM (impHome a 0) u (fun _ v => okM (claimOf f a) v (fun _ w => decide (w = v)
      && !v.ctx.isPinned && v.ctx.portable (some 1) && okM handChecks v (fun _ x => x.handTarget a (x.g 11) (x.g 12) == some 0)))) = true := by
  decide +kernel
/-- No claim of the box in g11 and g12; a target whose queue is full; a frame that may not hold the block's capability. -/
theorem witness_ImpositionResults_fail :
    let f : QFields := { q0 with c := 1, x := 11, d := 5 }
    okM (impAt f .L) (imp 1) (fun a u => okM (impHome a 0) u (fun _ v => badM (claimOf f a) v 0x24)) = true ∧
    (let k := (claimed 1 0).coreAt 1
     let t := (claimed 1 0).setCoreAt 1 { k with u := { k.u with ready := List.replicate 56 rdy } }
     56 ≤ (t.coreAt 1).u.ready.length) := by decide +kernel
theorem witness_ImpositionResults_refused :
    badM handChecks (withX (claimed 1 0) (fun c => { c with frame := dc 0x20 0x0F 0x40004000 48 })) 0x0A = true := by decide +kernel
theorem witness_ImpositionResults_hand_none :
    let f : QFields := { q0 with c := 1, x := 11, d := 5 }
    okM (impAt f .L) (claimed 0 0) (fun a u => okM (impHome a 0) u (fun _ v => okM (claimOf f a) v (fun _ _ =>
      okM handChecks v (fun _ x => (x.handTarget a (x.g 11) (x.g 12)).isNone)))) = true := by decide +kernel
theorem witness_ImpositionResults_hand_pinned :
    let f : QFields := { q0 with c := 1, x := 11, d := 5 }
    okM (impAt f .L) (withX (claimed 1 0) (fun c => { c with pinned := true })) (fun a u => okM (impHome a 0) u (fun _ v =>
      okM (claimOf f a) v (fun _ _ => v.ctx.isPinned))) = true := by decide +kernel
theorem witness_ImpositionResults_schedule :
    let f : QFields := { q0 with c := 1, d := 5 }
    let s := imp 1
    let done := s.setCounts (localBase 0 + 0x1000) 8 8 8 0
    (Instr.schedw f).wf = true ∧ (Instr.schedw { f with imm := 0x013 }).wf = true ∧ (Instr.schedr { f with imm := 9 }).wf = true ∧
    okM (impAt f .S) s (fun a u => okM (impHome a 0) u (fun _ v => v.impAct a && ((v.schedAt (a + 0x20)).badWord (some (v.schedAt a))).isNone
      && decide (v.impDone a ≠ v.impCells a) && ((v.unitWrite (a + 0x30) 8 |>.schedAt (a + 0x20)).badWord (some (v.schedAt a))).isSome)) = true ∧
    okM (impAt { f with imm := 0x013 } .S) done (fun a u => okM (impHome a 0) u (fun _ v => decide (v.impDone a = v.impCells a)
      && ((v.schedAt (a + 0x20)).badWord none).isNone && (v.runOn (localCore a)).any (fun r => decide (1 ≤ r.domain.level.toNat)
        && (List.range 2).all (fun j => (v.members r.domain 1 (localCore a)).contains (v.impWorker a j)))
      && okM (capCheck (v.c 1) .S (0xB00 + (8 + 3) / 4 - 1) 0) v)) = true ∧
    okM (impAt { f with imm := 0 } .L) s (fun a u => okM (impHome a 0) u) = true := by decide +kernel

/-- A tile of 64 rows of 32 columns, or as `v` says. -/
def shaped (v : Word) : State := st.setSr { st.ctx.sr with vshape := v }
/-- A whole register of bytes, one too wide, the dynamic rounding mode and one that does not exist; masks on and off. -/
theorem witness_VectorArithmetic :
    let s := shaped 0x7FF
    let f : VFields := { v0 with ty := 1 }
    (s.tileOk 1 ∧ s.vbytes < tileBytes 3 s.elems ∧ s.modeIs 7 .rne ∧ s.modeIs 4 (Mode.ofCode 4) ∧ s.elems = 2048) ∧
    s.selected 0 2047 = true ∧ s.selected 1 0 = false ∧
    ([.vadd f, .vsub { f with sat := true, imm8 := 1, g := 31 }, .vmul { f with ty := 3 }, .vmin f, .vmax f, .vand f, .vor f, .vxor f, .vshl f,
      .vshr f, .vsra f, .vfma f, .vfms f, .vabs f, .vneg f, .vexp2 { f with ty := 0x0D, rnd := 7 }, .vlog2 { f with ty := 0x0D },
      .vrcp { f with ty := 0x0D }, .vrsq { f with ty := 0x0D }, .vtanh { f with ty := 0x0D, rnd := 4 }, .vbarq f] : List Instr).all Instr.wf = true ∧
    Fmt.isF 0x0D = true ∧ Fmt.isBpi 1 = false ∧ (List.range 8).any (fun e => barqRounds 0x0D 7 (0x38 + e) 0x01) = true := by
  unfold State.tileOk State.modeIs State.modeOk; decide +kernel
theorem witness_ElementArithmetic : Fmt.isI 1 = true ∧ Fmt.isI 0x0F = true ∧ Fmt.isF 0x09 = true ∧ Fmt.isF 0x0E = true ∧
    intMin 1 ≤ -128 ∧ ¬ intMin 1 ≤ -129 ∧ 127 ≤ intMax 1 ∧ ((floatFmt 0x0B).unpack 0x7FC00000).isNan = true := by decide +kernel
/-- Indexes at both ends; a shuffle that fits and one that does not; both axes; a shape at the limit and past it. -/
theorem witness_VectorMoves :
    let s := shaped 0x7FF
    let f : VFields := { v0 with ty := 1 }
    let m : VFields := { v0 with ty := 0, vd := 3, va := 3 }
    (s.tileOk 1) ∧ ([.vmov f, .vtrans f, .vbcast f, .vbcast { f with imm8 := 2 }, .vshuf f, .vrot f, .vrot { f with imm8 := 1 }, .vsel f, .vcmp f,
      .vins { f with imm8 := 255, vc := 7 }, .vext { f with vd := 0 }, .vmand m, .vmor m, .vmnot m, .vmpop { m with vd := 0 }] : List Instr).all Instr.wf = true ∧
    2 * (shaped 0x3FF).elems ≤ s.vbytes ∧ s.vbytes < 2 * s.elems ∧
    0 ≤ ((s.g 8).extractLsb' 0 32).toInt + 0 ∧ ((withG s [(8, 2047)]).g 8 |>.extractLsb' 0 32).toInt < s.elems ∧
    ¬ ((withG s [(8, 2048)]).g 8 |>.extractLsb' 0 32).toInt < s.elems ∧ ((withG s [(8, -1)]).g 8 |>.extractLsb' 0 32).toInt < 0 ∧
    ((0x7FF : Word).extractLsb' 0 6).toNat = 63 ∧ ((0x7FF : Word).extractLsb' 6 8).toNat = 31 ∧ ¬ (64 * 33 ≤ s.vbytes) := by
  unfold State.tileOk; decide +kernel
theorem witness_VectorFoldsAndConversions :
    let s := shaped 0x7FF
    let f : VFields := { v0 with ty := 1 }
    let b : VFields := { v0 with ty := 0x18 }
    (s.tileOk 1 ∧ s.tileOk 0x18 ∧ s.modeIs 0 (Mode.ofCode 0)) ∧ (Instr.vred f).wf = true ∧ (Instr.vred { f with imm8 := 0x16, ty := 5 }).wf = true ∧
    (Instr.vscan { f with imm8 := 2 }).wf = true ∧ (Instr.vcvt { f with imm8 := 5 }).wf = true ∧
    s.span 1 = 1 ∧ s.span 5 = 4 ∧ 8 < (7 : BitVec 3).toNat + s.span 5 ∧ (4 : BitVec 3).toNat + s.span 5 ≤ 8 ∧
    (Instr.vplanes b).wf = true ∧ (Instr.vunplane b).wf = true ∧ (Instr.vbarq { b with sat := true }).wf = true := by
  unfold State.tileOk State.modeIs State.modeOk; decide +kernel
/-- Tiles of two rows of four S32, and of one BPI row; gathers from element 0 and 1 that trap at the second element. -/
theorem witness_TileAccessResults :
    let s := withC (shaped (3 * 64 + 1)) [(1, { s32 with perm := 3 })]
    let f : MFields := { m0 with c := 1, t := 2, ty := 5, y := 3 }
    let g := { f with y := 0 }
    let c := s.c 1
    let el (e : Nat) : M Unit := do
      let a ← accCheck c .L (tileAccepts .gather c.fmt.toNat 5) 1 (e : Int) 0
      let x ← loadElem c (Fmt.size 5) 0 (e : Int) 0 a
      modify (fun t => t.setV 2 (setTyped (t.v 2) 5 e x))
    ([.vld g, .vst g, .vgather f, .vscatter f] : List Instr).all Instr.wf = true ∧ tileBytes 5 s.elems ≤ s.vbytes ∧
    (shaped 0x7FF).vbytes < tileBytes 5 (shaped 0x7FF).elems ∧ s.elems = 8 ∧ s.vprog = 0 ∧
    okM (tileCorners .vld g c 0 0) s (fun _ u => okM ((List.range s.rows).mapM (fun r => loadTileRow g c s.cols 0 (0 + r))) u) = true ∧
    okM (tileCorners .vst g c 0 0) s (fun _ u => okM (storeRows c 32 s.cols 0 0 0 ((List.range s.rows).map (elemAt (s.v 2) (32 * s.cols)))) u) = true ∧
    okM (el 0) s (fun _ t => okM (el 7) (t.setVprog 7)) = true ∧ badM (el 8) s 0x09 = true ∧
    (s.setVprog 8).vprog ≥ s.elems := by decide +kernel
/-- A segment that completes, one that traps on its step, one past the last row; VPROG below and at the count. -/
theorem witness_SweepResults :
    let c : Cap := { lc 5 3 0x400 64 with ext1 := 1, str1 := 64 }
    let s := withC st [(1, c), (2, { c with base := c.base + 0x400 }), (3, { c with base := c.base + 0x800 })]
    let f : WFields := { w0 with cd := 1, ca := 2, cb := 3, sd := 128, sa := 128, sb := 128, count := 5 }
    let seg (j : Nat) (f : WFields) := segment f {} (Instr.swadd f).p0 (fun _ _ _ _ => false) (fun _ k a b _ => VOp.add.elem 5 k f.sat a b) j
    ([.swadd f, .swsub f, .swmul f, .swmin f, .swmax f, .swfma f, .swcvt { f with cb := 0, sb := 0 }, .swcopy { f with cb := 0, sb := 0 }, .swbarq f] :
      List Instr).all Instr.wf = true ∧
    okM (seg 0 f) s (fun _ t => okM (seg 3 f) (t.setVprog 1)) = true ∧ badM (seg 4 f) s 0x09 = true ∧ badM (seg 1 { f with sd := 2 }) s 0x18 = true ∧
    s.vprog < f.count.toNat ∧ f.count.toNat ≤ (s.setVprog 5).vprog ∧ elemBits c.fmt.toNat ≠ 0 ∧
    (1 * (2 : BitVec 16).toInt) % 4 ≠ 0 ∧ (1 * (-128 : BitVec 16).toInt) % 4 = 0 ∧ 1 * (-128 : BitVec 16).toInt / 4 < 0 ∧
    okM (capCheck c .L 0 1) s (fun _ u => okM (capCheck c .L (0 + 32 - 1) 1) u) = true := by decide +kernel

/-- A matrix unit in core 0. -/
def withMx (s : State) (f : Matrix → Matrix) : State := s.setMxAt 0 (f (s.mxAt 0))
/-- 64 units of two planes from unit 0, and 32 raw units from unit 64 whose first nibble has three bits. -/
def planes : Sparse WUnit :=
  (List.range 64).map (fun i => (i, { tag := .plane 2 (i % 2), cause := 0, data := 0 })) ++
  (List.range 32).map (fun i => (64 + i, { tag := .raw, cause := 0, data := 7 }))
/-- A dense load of the tile at unit 0. -/
def dense : LoadOp := { seq := 0, slot := 0, p := 2, u := 0, j := 0, sparse := false, mask := 0, exp := none, bank := true }
/-- A list of computations that all pass passes. -/
theorem mapM_ok {α β ε : Type} (f : α → Except ε β) (l : List α) (h : ∀ a ∈ l, ∃ b, f a = .ok b) : ∃ bs, l.mapM f = .ok bs := by
  induction l with
  | nil => exact ⟨[], rfl⟩
  | cons a l ih =>
    obtain ⟨b, hb⟩ := h a (by simp)
    obtain ⟨bs, hbs⟩ := ih (fun x hx => h x (by simp [hx]))
    exact ⟨b :: bs, by rw [List.mapM_cons, hb]; show (l.mapM f >>= _) = _; rw [hbs]; rfl⟩
/-- A dense tile always expands. -/
theorem expand_dense (x : Matrix) (l : LoadOp) (h : l.sparse = false) : ∃ b, x.expand l = .ok b := by
  obtain ⟨ws, hw⟩ := mapM_ok (fun i => (do
      let w ← x.weightAt l (i / tileWidth l.p) (i % tileWidth l.p)
      pure (128 * (i / tileWidth l.p) + i % tileWidth l.p, w) : Except (BitVec 4) (Nat × Int))) (List.range (32 * tileWidth l.p)) (by
    intro a _; unfold Matrix.weightAt; simp only [h, Bool.not_false, if_true]; exact ⟨_, rfl⟩)
  unfold Matrix.expand
  simp only [hw]
  exact ⟨_, rfl⟩
/-- The load that a state's queue would take. -/
def loadIs (s : State) (f : MQFields) (p : LoadOp → Bool) : Bool := okM (loadChecks f) s (fun l t => p l && decide (t = s))
theorem witness_MatrixResults_weights :
    let s := withG (withC st [(1, { bpi with fmt := 0x18, perm := 0x20, ext0 := 511 }), (2, lc 0 0x20 0x400 64)]) [(5, 256), (7, 3)]
    let f : MQFields := { p0 with c := 1, x := 7, d := 5, imm := 0x1FF8 }
    let r : MQFields := { p0 with sub := 1, c := 2, x := 8, imm := 0x2FFE }
    (Instr.mwfetch f).wf = true ∧ (Instr.mwfetch r).wf = true ∧ s.mx.fetches.length < 8 ∧ s.reduced = false ∧
    (s.runOn s.coreNo).all (fun q => q.express.isNone) = true ∧
    ((s.updRun 1 (fun q => { q with express := some 0x10000 })).runOn s.coreNo).any (fun q => q.express.isSome) = true ∧
    (s.g 5).toInt % 256 = 0 ∧ (s.g 8).toInt % 32 = 0 ∧ 0xFF8 + 1 * Fmt.planes 0x18 ≤ 4096 ∧ 0xFFE + 2 ≤ 4096 ∧
    okM (capCheck (s.c 1) .W 256 3) s (fun _ u => okM (capCheck (s.c 1) .W (256 + 255) (3 + 1 - 1)) u) = true ∧
    okM (capCheck (s.c 2) .W 0 0) s (fun _ u => okM (capCheck (s.c 2) .W (0 + 32 * 2 - 1) 0) u) = true := by decide +kernel
/-- A tile that expands, one that waits, one whose nibble traps, a full queue. -/
theorem witness_MatrixResults_load :
    let s := withMx st (fun x => { x with buf := planes })
    let f : MQFields := { p0 with imm := 0 }
    let q : MQFields := { p0 with sub := 2, imm := 0x400000 }
    (Instr.mwload f).wf = true ∧ loadIs s f (fun l => decide (l = dense) && !s.mx.loadWaits l) = true ∧ s.mx.loads.length < 4 ∧
    loadIs (withMx s (fun x => { x with loads := [dense], seq := 1 })) f (fun l => Matrix.loadWaits { s.mx with loads := [dense] } l) = true ∧
    loadIs (withMx s (fun x => { x with loads := List.replicate 4 dense, seq := 1 })) f (fun _ => true) = true ∧
    loadIs s q (fun l => l.sparse && match s.mx.expand l with | .error k => k = 7 | _ => false) = true := by decide +kernel
theorem witness_MatrixResults_expands : ∃ b, (withMx st (fun x => { x with buf := planes })).mx.expand dense = .ok b := expand_dense _ _ rfl
/-- Tiles at the count and below it; the first and last block; a stream with room and without. -/
theorem witness_MatrixResults_galley :
    let s := withMx st (fun x => { x with galley := { x.galley with tiles := 2 } })
    let f : MQFields := { p0 with sub := 1, d := 7, imm := 0x005 }
    s.mx.galley.tiles = 2 ∧ (Instr.mwswap p0).wf = true ∧ (Instr.mgwait { p0 with sub := 1, d := 5 }).wf = true ∧ (Instr.mgadv { p0 with sub := 1 }).wf = true ∧
    st.mx.galley.tiles < (1 : BitVec 4).toNat + 1 ∧ (Instr.mgread f).wf = true ∧
    f.sub.toNat < s.mx.galley.tiles ∧ 0 < s.mx.galley.n / 32 ∧ accFormat 5 = true ∧ accFormat 7 = false ∧ elemBits 5 = 32 ∧ elemBits 1 = 8 ∧
    (Instr.mstream { g0 with sel := 7 }).wf = true ∧ (s.g 7).toNat + 255 < 256 ∧ s.mx.streams.length < 4 ∧
    s.mx.bankWidth false = none := by decide +kernel
/-- A stream of one row into a galley with a free slot, by a bank that holds a tile; its rows done. -/
def stream : StreamOp := { seq := 0, slot := 0, f := g0 , cap := lc 1 3 0x400 32, first := 0, bslot := 255, bank := false, row := 0, started := false }
theorem witness_MatrixEvents :
    let f : FetchOp :=
      { seq := 0, slot := 0, cap := lc 0 0x20 0x400 64, raw := true, p := 0, i0 := 0, i1 := 0, unit := 0, count := 2, done := 0,
        strict := false, wait := none }
    let one : GFields := { g0 with rows := 1 }
    let s := withMx st (fun x => { x with fetches := [f], loads := [dense], streams := [{ stream with f := one }], bank0 := { x.bank0 with loaded := true, p := 8, n := 32 } })
    (s.mxAt 0).fetches = [f] ∧ ({ s.mxAt 0 with loads := [] }).fetchWaits f = false ∧
    ((withMx s (fun x => { x with fetches := [] })).mxAt 0).loads.find? (fun l => !({ s.mxAt 0 with fetches := [] }).loadWaits l) = some dense ∧
    (s.coreAt 0).halted = false ∧ s.headStream 0 = some { stream with f := one } ∧ (gangOf (gangSize one.size) 0).all (fun k => !(s.coreAt k).halted) = true ∧
    s.joined (gangOf (gangSize 0) 0) = some [(0, { stream with f := one })] ∧ 0 < GFields.rowCount one ∧
    ((s.mxAt 0).galley.ready one 0).isSome = true ∧ (match s.gangRow [(0, { stream with f := one })] 0 with | .ok _ => true | _ => false) = true ∧
    GFields.rowCount one ≤ 1 ∧
    (-(2 ^ 95) ≤ (2 ^ 95 - 1 : Int) ∧ ¬ ((2 ^ 95 - 1 : Int) + 1 < 2 ^ 95)) := by decide +kernel

/-- A region of 64 S32 records' worth of bytes, a CODE target, a frame and a record of one core; then of the device. -/
def spawning : State := withG (withC (ranged.updRun 1 (fun r => { r with domain := { r.domain with level := 1 }, prio := 1 }))
  [(1, lc 0 0x0B 0x4000 64), (2, lc 0x20 0x0B 0x6000 48), (3, dc 0 0x8B 0x40000000 64), (4, dc 0x20 0x8B 0x40010000 48)]) [(8, 0x11)]
/-- SPAWN bound and portable, the queues with room and full; a tagged frame; a record of a core. -/
theorem witness_ContinuationResults_spawn :
    let s := spawning
    let f : QFields := { q0 with c := 1, x := 7, d := 5, imm := 0x102 }
    let g : QFields := { q0 with c := 3, x := 7, d := 8, imm := 0x104, scope := 1, ob := true }
    let target : Word := s.pc + 4
    (Instr.spawn f).wf = true ∧ (Instr.spawn g).wf = true ∧ isEngine s.cur = false ∧ (s.g 5 &&& ~~~0x37#64) = 0 ∧ (s.g 8 &&& ~~~0x37#64) = 0 ∧
    (s.runOn s.coreNo).any (fun k => decide (1 ≤ k.domain.level.toNat) && decide (1 ≤ k.prio.toNat)) = true ∧
    s.ctx.fcap.covers target.toNat = true ∧ passes s target = true ∧ s.ctx.fcap.covers (s.pc + 0x4000).toNat = false ∧
    ([(1, 2), (3, 4)] : List (BitVec 4 × BitVec 4)).all (fun p =>
      okM (capCheck (s.c p.1) .SC 0 0) s (fun _ t => okM (elemAddr (s.c p.1) 0 0) t (fun a _ => a % 64 = 0) &&
        okM (capCheck (s.c p.2) .SC 0 0) t (fun _ u => okM (capCheck (s.c p.2) .L 47 0) u (fun _ v =>
          okM (xl (s.c p.2).base.toNat .write) v (fun _ x => okM (xl (s.c p.1).base.toNat .write) x (fun _ y =>
            okM (stcTag (capAtPc s.ctx.fcap target) (s.c p.2) (s.c p.2).base.toNat) y && okM (stcTag (s.c p.2) (s.c p.1) 0) y)))))) = true ∧
    (s.c 1).fmt = 0 ∧ (s.c 3).scope = 1 ∧ (s.c 4).scope = 1 ∧ s.spawnFull 0 = false ∧ s.spawnFull 1 = false ∧
    (withU s (fun u => { u with ready := List.replicate 56 rdy })).spawnFull 0 = true ∧ (s.flush s.cur).logged = false := by decide +kernel
/-- The run root and another; the clear bit; a header that is well formed and names a good plan, one that does not, one with a bad field. -/
def header (s : State) (w0 w1 : Word) : State := s.setBytes (localBase 0 + 0x8000) (wordBytes [w0, w1, 0, 0])
theorem witness_ContinuationResults_plan :
    let f : QFields := { q0 with c := 1, x := 7, d := 5, imm := 0 }
    let s := withC (header st 0 0x100000020000) [(1, lc 0 1 0x8000 128)]
    let bad := header s 0 0x100000020001
    isEngine s.cur = false ∧ s.ctx.sr.cid = 1 ∧ (Instr.xplan f).wf = true ∧ (Instr.xplan { f with c := 0, x := 0, imm := 1 }).wf = true ∧
    (withX s (fun c => { c with sr := { c.sr with cid := 2 } })).ctx.sr.cid ≠ 1 ∧
    (s.runOn s.coreNo).any (fun r => decide (0 ≤ r.domain.level.toNat)) = true ∧
    okM (capCheck (s.c 1) .L 0 0) s (fun _ t => okM (capCheck (s.c 1) .L (0 + 31) 0) t (fun _ u => okM (elemAddr (s.c 1) 0 0) u (fun a _ =>
      decide (a = localBase 0 + 0x8000)))) = true ∧
    (s.planHeader 0 0x8000).any (fun h => s.planOk 0x8000 h && okM (planEntries 1 0 0x8000 h.count [0] s.area) (s.settleLocal 0x8000 32)
      (fun _ w => okM (writePlansel (BitVec.ofNat 64 (2 ^ 63 + 0x8000))) w)) = true ∧
    (bad.planHeader 0 0x8000).any (fun h => !bad.planOk 0x8000 h) = true ∧
    (header s 0x10000 0).planHeader 0 0x8000 = none := by decide +kernel
theorem witness_ControlRegisterWrites :
    let s := header st 0 0x100000020000
    let r := s.core.ring 7
    let en : RxRing := { en := true, tail := 0, base := 64, logn := 2, head := 0 }
    let bins : KeyBins := { en := true, op := 3, nbm1 := 0, base := 0x800 }
    s.ctx.sr.cid = 1 ∧ (withX s (fun c => { c with sr := { c.sr with cid := 2 } })).ctx.sr.cid ≠ 1 ∧
    (0x8000000000008000#64).getLsbD 63 = true ∧ (32 * ((0x8000000000008000#64).extractLsb' 5 15).toNat = 0x8000) ∧
    (s.planHeader 0 0x8000).any (s.planOk 0x8000) = true ∧
    ((header s 0 0x100000020001).planHeader 0 0x8000).any (fun h => !(header s 0 0x100000020001).planOk 0x8000 h) = true ∧
    s.ringOk 7 r en = true ∧ s.ringOk 7 r { en with logn := 13 } = false ∧ s.binsOk bins = true ∧ s.binsOk { bins with op := 4 } = false ∧
    s.wallocOk (256 * 1024 + 768) = true ∧ s.wallocOk (256 * 1024 + 769) = false ∧ s.core.frozen = none ∧
    ((16#64).extractLsb' 0 6).toNat ≤ 16 ∧ 16 < ((17#64).extractLsb' 0 6).toNat := by decide +kernel
/-- Overlapping stores in a queue and a FIFO; a refresh, a watch that is reached, a waiter in its slot and one written back. -/
theorem witness_MemoryModelEvents :
    let p := piece st.cur 0x10000000 7
    let s := { ranged with press := { ranged.press with
      queues := [p, { p with data := 8 }], fifo := [p, { p with data := 9 }], props := [{ agent := st.cur, dst := 1, piece := p }] } }
    (s.ctxOf s.cur).occupied = true ∧ (match State.fetchLine { s with cur := s.cur } (localBase 0) with | .line _ _ => true | _ => false) = true ∧
    nthOf s.cur s.press.queues 0 = some p ∧ mayDrain p s.press.queues = true ∧ mayDrain { p with data := 8 } s.press.queues = false ∧
    s.press.fifo[0]? = some p ∧ s.isHead p s.press.fifo = true ∧ s.isHead { p with data := 9 } s.press.fifo = false ∧
    s.pathHeld p.agent p.line = false ∧
    s.mayRefresh s.cur 0x40000000 0x10000000 = true ∧ s.refused s.cur 1 0x10000000 .read = false ∧ agentCore s.cur = some 0 ∧
    s.press.props.length = 1 ∧ (s.suspend .counter 0 1 0 none).ctx.susp.any (fun w => w.reason = .counter) = true ∧
    (let w : Parked :=
      { recAddr := 0x40, susp := { reason := .counter, key := 0, thresh := 1, dst := 0, since := 0, limit := none }, prio := 0,
        run := 1, tenant := 0, plevel := 0, recCap := Cap.null, frame := Cap.null }
     ((withU s (fun u => { u with waiting := [w] })).coreAt 0).u.waiting.find?
      (fun w => w.recAddr.toNat == 0x40 && w.susp.reason = .counter) = some w) := by decide +kernel
/-- Tables of tenant 0 at 0x10000 whose leaf for page 2 is `leaf`. -/
def paged (leaf : Word) : State :=
  let s := ranged.setTenant 0 { Tenant.reset with root := 0x10000, onDemand := [(0x20000, 0x30000)], pool := [0x50000] }
  ((s.writeWord 0x10000 0x8000000000020000).writeWord 0x20000 0x8000000000030000).writeWord 0x30010 leaf
/-- A request a context waits for, present and not, of the scheduler and of the host. -/
def asking (s : State) (host : Bool) : State :=
  State.suspend { s with requests := [{ die := 0, tenant := 0, vpage := 2, epoch := 5, big := false, host := host, pasid := 0, live := true, empties := 2 }] } .page 0x20000 5 0 none
theorem witness_PageAndSliceEvents_pages :
    let s := asking (paged 0) true
    let u := asking (paged 0) false
    let v := paged 0xC600000000050000
    let m : Migration := { tenant := 0, va := 0x20000, newPage := 0x60000, next := .firstShootdown }
    s.requests.any (fun r => s.stillWanted r.pageKey && r.host) = true ∧
    u.requests.any (fun r => u.stillWanted r.pageKey && !r.host && !u.pagePresent r && (u.backPage r.tenant r.vpage).isSome) = true ∧
    v.leafNow 0 0x20000 = some (0x30010, 0xC600000000050000, false) ∧ v.migrations = [] ∧ v.mayMigrate 0xC600000000050000 false 0x60000 = true ∧
    ({ v with migrations := [m] }).migrations.find? (fun k => k.tenant == 0 && k.va / 2 ^ 16 == 2 && k.newPage == 0x60000) = some m := by decide +kernel
theorem witness_PageAndSliceEvents_slices :
    let e : ErrorReport := { mem := .gddr, addr := 0x10000000, core := 0, set := 0, way := 0, errors := 1, consumed := false, synd := 1 }
    (st.slice 0 0).tenant ≠ BitVec.ofNat 16 0xFFFF ∧ (st.slice 0 0).degraded = false ∧ st.tenantResident 0xFFFF = false ∧ (st.slice 0 0).shared = true ∧
    (let f := { (st.setStatus 5 0 0) with dies := [(0, { Die.reset with cycle := 2 ^ 40 })] }
     f.full = true ∧ 2 ^ (f.slice 0 0).hotK.toNat ≤ ((f.die 0).cycle - (f.slice 0 0).hotStart).toNat ∧ (f.slice 0 0).hotFull = false ∧
      (f.setSlice 0 0 { f.slice 0 0 with hotFull := true }).intervalOver 0 0 = true) ∧
    correctable e = true ∧ st.errorHere e = true ∧ correctable { e with errors := 2 } = false ∧ st.errorHere { e with errors := 2, consumed := true } = true ∧
    st.errorHere { e with mem := .fetch } = true ∧
    st.leases.passing = false ∧ ({ st.leases with eligible := [1] }).eligible ≠ [] ∧ ({ st.leases with passing := true }).passing = true := by decide +kernel

/-- A continuation in slot 0 that may leave it, with the other slots taken. -/
def leaving : State :=
  let s := withX (withU st (fun u => { u with ready := [rdy] })) (fun c => { c with
    recAddr := some (BitVec.ofNat 48 (localBase 0 + 0x8000)), recCap := lc 0 0x0F 0x8000 64, frame := lc 0x20 0x0F 0x4000 48, pinned := false })
  let t := [1, 2, 3].foldl (fun (t : State) i => t.setCtxOf (.ctx 0 i) { t.ctx with pinned := true }) s
  t.suspend .yield 0 0 0 none
/-- Entries of the exchange channel, an arrival, a message under way, an IDLE and a RECVT that run out. -/
theorem witness_ContinuationEvents :
    let s := st
    let m : Message := { dst := 0, ring := 7, payload := [1], poison := [false] }
    let t := { s with press := { s.press with exchange := [.transfer 1 0 0 0 0x40 [1] [false], .pair 1 0 0 0 7 8] } }
    let arrived := s.setCore { s.core with arrived := some 0 }
    (leaving.coreAt 0).u.ready ≠ [] ∧ leaving.freeSlots 0 = [] ∧ ((leaving.candidates 0).findSome? (fun i => leaving.writeBackSlot 0 i)).isSome = true ∧
    (s.coreAt 0).halted = false ∧ s.freeSlots 0 = [1, 2, 3] ∧ (s.coreAt 0).u.ready = [] ∧
    (s.setDie 0 { s.die 0 with pickup := [rdy] }).pickable 0 = [(0, rdy)] ∧
    (withX s (fun c => { c with idle := some (some 64) })).ctx.idle = some (some 64) ∧
    (s.suspend .message 7 0 5 (some 1)).ctx.susp.any (fun w => w.reason = .message ∧ w.limit = some 1 ∧ w.dst ≠ 0) = true ∧
    (arrived.run? 1).any (fun r => r.ending.isNone && decide (0 ≤ r.domain.level.toNat) && decide (arrived.members r.domain 0 0 = [0])
      && arrived.mayClose 1 0 [0] && arrived.waitsAt 1 0 0 && (arrived.stand 1 0).any (fun x => !x.strictLeft && !x.halted)) = true ∧
    (s.stand 1 0).isSome = true ∧ (s.planAt 1 0).en = false ∧
    (let u := s.setCore { s.core with plan := { s.core.plan with en := true, wbase := 0x8000, wsize := 0x41 } }
     (u.planAt 1 0).en = true ∧ 0x40 + [(1 : Byte)].length ≤ (u.planAt 1 0).wsize.toNat) ∧
    (arrived.coreAt 0).u.copy.before = 0 ∧ (arrived.coreAt 0).stopped = false ∧ (arrived.coreAt 0).dbg.replaying = false ∧
    (arrived.coreAt 0).arrived = some (BitVec.ofNat 3 0) ∧ arrived.arrivedAt 1 0 0 = true ∧ (s.coreAt 0).xmode = false ∧
    t.press.exchange[0]? = some (.transfer 1 0 0 0 0x40 [1] [false]) ∧ t.press.exchange[1]? = some (.pair 1 0 0 0 7 8) ∧ (t.coreAt 0).run = some 1 ∧
    (withX (s.suspend .message 256 0 5 none) (fun c => { c with sending := some m })).ctx.sending = some m ∧
    s.isLink (.ucie 1) = true ∧ s.isLink (.ucie 2) = false ∧ ({ s with twoCards := true }).isLink (.bridge 1) = true := by decide +kernel
/-- Core 0 with a command of OP `op` at the head of engine `e`'s FIFO, begun or not. -/
def commanded (e : Nat) (op : Word) (busy : Bool) : State :=
  let x : Engine := { Engine.reset with fifo := [BitVec.ofNat 48 (localBase 0 + 0x800)] }
  let y : Engine := { x with busy := true, w0 := op, n := 40, src := lc 1 1 0x400 64, dst := lc (if e = 0 then 1 else 5) 2 0xC00 1024 }
  let s := st.setBytes (localBase 0 + 0x800) (leBytes 8 op.toNat)
  s.setCore (s.core.setEngine e (if busy then y else x))
theorem witness_EngineEvents_turns :
    ([(0, 0), (0, 1), (0, 2), (1, 16), (1, 17), (1, 18), (1, 19), (1, 20), (1, 21), (1, 22), (1, 23), (1, 24), (1, 25), (1, 26)] :
      List (Nat × Nat)).all (fun p => (commanded p.1 (BitVec.ofNat 64 p.2) false).headOp 0 p.1 == some p.2
        && (commanded p.1 (BitVec.ofNat 64 p.2) false).engineRuns 0 p.1) = true := by decide +kernel
/-- A step of 32 of 40 elements, the last 8, one past the destination; an epilogue step of one tile. -/
theorem witness_EngineEvents_steps :
    let s := commanded 0 0 true
    let x := s.core.engine 0
    let run (x : Engine) (f : Nat × Option (BitVec 8 × Word) → State → Bool) : Bool :=
      okM (engineStep 0 x (moveElem x) x.done x.n 1) { s with cur := .copy 0 } f
    x.busy = true ∧ run x (fun r _ => r.2.isNone && decide (0 + r.1 ≠ x.n)) = true ∧
    run { x with done := 32 } (fun r _ => r.2.isNone && decide (32 + r.1 = x.n)) = true ∧
    run { x with done := 32, dst := lc 1 2 0x800 33 } (fun r _ => r.2.isSome) = true ∧
    (let t := withMx (commanded 1 20 true) (fun m => { m with galley := { m.galley with tiles := 1, n := 32 } })
     let y := t.core.engine 1
     let run (k : Nat) (f : Nat → Bool) : Bool := okM (engineStep 1 { y with elem := k } (epilogueElem 0 { y with elem := k } 5) k 1024 4)
       { t with cur := .epi 0 } (fun r _ => r.2.isNone && f r.1)
     (t.mxAt 0).galley.tiles ≠ 0 ∧ run 0 (fun n => n ≠ 1024) = true ∧ run 1016 (fun n => 1016 + n = 1024) = true ∧ y.tile + 1 ≠ y.n ∧
      (t.runOn 0).all (fun r => r.express.isNone) = true) ∧
    ((commanded 1 20 true).updRun 1 (fun r => { r with express := some 0x10000 })).runOn 0 ≠ none ∧ s.engineRuns 0 0 = true ∧
    ((s.flush (.copy 0)).ctxOf (.copy 0)).deferred = none ∧
    x.fifo.length = 1 ∧ x.w0.getLsbD 24 = false ∧ (BitVec.ofNat 48 (localBase 0 + 0x800)).toNat + 64 ≤ windowCell 0 0 := by decide +kernel
/-- A flit of no records with the CRC that the link's code gives it. -/
def flitOf (w0 : BitVec 64) : Flit := { word0 := w0, word1 := Config.flitCrc w0 (List.replicate 240 0) ++ 0#32, body := List.replicate 240 0 }
theorem crc_field (x : BitVec 32) : (x ++ 0#32).extractLsb' 32 32 = x ∧ (x ++ 0#32).extractLsb' 20 12 = 0 := by
  constructor
  · ext i hi
    simp only [BitVec.getElem_extractLsb', BitVec.getLsbD_append]
    rw [if_neg (by omega), show 32 + i - 32 = i by omega]
    exact BitVec.getLsbD_eq_getElem hi
  · ext i hi
    simp only [BitVec.getElem_extractLsb', BitVec.getLsbD_append]
    rw [if_pos (by omega)]
    simp
/-- In order, out of order; of this epoch and of another; malformed. -/
theorem witness_LinkAndHostEvents_flits :
    flitCrcOk (flitOf 0) = true ∧ flitWellFormed (flitOf 0) = true ∧ flitSeq (flitOf 0) = (State.reset.linkMod (.ucie 0) 0).expect ∧
    flitEpoch (flitOf 0) = (State.reset.link (.ucie 0)).epochOf (flitSrcDie (flitOf 0)) ∧ flitResponseEpochs (flitOf 0) = [] ∧
    flitEpoch (flitOf 0x1000000000000) ≠ (State.reset.link (.ucie 0)).epochOf (flitSrcDie (flitOf 0x1000000000000)) ∧
    flitWellFormed (flitOf 1) = false ∧ flitSeq (flitOf 0x1000000000) ≠ (State.reset.linkMod (.ucie 0) 0).expect ∧
    (State.reset.link (.ucie 0)).state = .up ∧ State.reset.isLink (.ucie 0) = true := by
  refine ⟨?_, ?_, ?_, ?_, ?_, ?_, ?_, ?_, ?_, ?_⟩
  · unfold flitCrcOk flitCrc flitOf
    rw [(crc_field _).1]
    simp only [List.length_replicate, decide_true, Bool.and_self]
  · simp only [flitWellFormed, flitOf, (crc_field _).2]; decide +kernel
  all_goals decide +kernel
theorem witness_LinkAndHostEvents :
    (let m (n : Nat) : Link := { Link.reset with modules := Link.reset.modules.set 3 { Link.reset.modules[3] with replays := n } }
     16 ≤ (m 16).modules[(3 : Fin 4)].replays ∧ ¬ 16 ≤ (m 15).modules[(3 : Fin 4)].replays) ∧
    ({ Link.reset with state := .retraining }).state = .retraining ∧ State.reset.dev.stage ≠ 5 ∧ (State.reset.setStatus 5 0 0).dev.stage = 5 ∧
    1 < State.reset.numDies ∧ ({ State.reset with twoCards := true }).twoCards = true ∧ windowCard 1023 < State.reset.numCards ∧
    ¬ windowCard 1024 < State.reset.numCards ∧ 0 < State.reset.numCards ∧
    State.reset.barPlace 0 0 8 = none ∧ (0 : Nat) < State.reset.numCards ∧
    (let w : State := State.reset.setCard 0 { Card.reset with hostWins := [(0, { valid := true, base := 0, limit := 16, hostAddr := 0, pasid := 0 })] }
     let far : State := State.reset.setCard 0 { Card.reset with hostWins := [(0, { valid := true, base := 0, limit := 2 ^ 38, hostAddr := 0, pasid := 0 })] }
     (w.barPlace 0 8 8).isSome = true ∧ w.barPlace 0 9 8 = none ∧ (far.barPlace 0 (2 ^ 37) 8).isSome = true ∧
     w.pathHeld (.host 0) 8 = false ∧ w.pathRefuses (.host 0) 8 .read = false ∧
     ((far.setLink (.ucie 0) { Link.reset with state := .retraining }).pathHeld (.host 0) (2 ^ 44)) = true ∧
     ((far.setLink (.ucie 0) { Link.reset with state := .down }).pathRefuses (.host 0) (2 ^ 44) .read) = true ∧
     (far.setLink (.ucie 0) { Link.reset with state := .down }).pathHeld (.host 0) (2 ^ 44) = false) ∧
    (let p := piece (.command 0) (Config.hostPlace 0) 1
     let ats := State.reset.setCard 0 { Card.reset with ats := [((0, 0), 0)] }
     (ats.atsPlaces 0 0).any (fun a => p.touches a 4096) = true ∧ (queued ats [p]).writesWait (.command 0) = false ∧
     ((queued ats [p]).setLink (.pcie 0) { Link.reset with state := .retraining }).writesWait (.command 0) = true) := by
  decide +kernel
/-- Quiet and busy cores and dies; the watchdog; training that failed and succeeded. -/
theorem witness_PowerAndBootEvents :
    767 < State.reset.numCores ∧ State.reset.quiet 0 = true ∧ (State.reset.coreAt 0).dbg.replaying = false ∧
    ((State.reset.setCoreAt 0 { Core.reset with dbg := { Core.reset.dbg with replaying := true } }).coreAt 0).dbg.replaying = true ∧ st.quiet 0 = false ∧ State.reset.dieBusy 0 = false ∧ st.dieBusy 0 = true ∧
    State.reset.runs = [] ∧ ({ State.reset with dev := { State.reset.dev with off := true } }).dev.off = true ∧ State.reset.dev.off = false ∧
    0 < State.reset.numCards ∧ State.reset.reduced = false ∧
    Clock.mhz1500.tenMs ≤ ((State.reset.setDie 0 { Die.reset with cycle := 15000000 }).cardCycle 0 - 0).toNat ∧
    ¬ Clock.mhz1500.tenMs ≤ ((State.reset.setDie 0 { Die.reset with cycle := 14999999 }).cardCycle 0 - 0).toNat ∧
    (State.reset.setStatus 2 0 0).dev.stage = 2 ∧ (State.reset.setStatus 3 0 0).dev.code = 0 ∧ (State.reset.setStatus 4 0 0).dev.stage = 4 ∧
    Security.vendor ≠ Security.owner := by decide +kernel

/-- A command hart at level 1 to whose software a window grants the whole address space. -/
def scheduler : CommandHart :=
  let w : GuardWindow := { base4k := 0, limit4k := 2 ^ 36, r1 := true, w1 := true, x1 := true, r2 := false, w2 := false, x2 := false, tenant := 0, common := false }
  { CommandHart.reset with level := 1, guard := CommandHart.reset.guard.set 0 (some w) }
/-- Queue 0 of tenant 0 with a ring of 16 slots at 0x21000, full service, its hart at the scheduler's level, and these words
in its next slot. -/
def served (s : State) (words : List Word) : State :=
  let t := (s.setTenant 0 { Tenant.reset with root := 0x10000 }).setBytes 0x51000 (wordBytes words)
  let t := ((t.writeWord 0x10000 0x8000000000020000).writeWord 0x20000 0x8000000000030000).writeWord 0x30010 0xCE00000000050000
  ((t.setStatus 5 0 0).setHart (queueHart 0) scheduler).setQueue 0 { Queue.reset with
    shadow := #v[0x0004000000021000, 0x20000, 0x800000000004C00F, 0, 0, 0, 0, 0], rung := true }
/-- The packet of these words at index 0. -/
def pkt (words : List Word) : Packet := { index := 0, words := words }
/-- Packets of every type, and one that is not assigned; each taken may start. -/
def taken (s : State) (words : List Word) : State :=
  let t := served s words
  t.setQueue 0 { t.queue 0 with pending := [pkt words] }
/-- WAITCTR, SIGNAL and MARKER at address 0x20100, a COPY of 64 bytes, an INVALID slot and TYPE 6. -/
def waitctr : List Word := [2, 0x20100, 0, 0, 0, 0, 0, 0]
def signalPkt : List Word := [3, 0x20100, 1, 0, 0, 0, 0, 0]
def copyPkt : List Word := [4, 0x22000, 0x23000, 64, 0, 0, 0, 0]
def marker : List Word := [5, 7, 0, 0, 0, 0, 0, 0]
/-- An access of a command hart that takes place, and one that does not. -/
def okE {α : Type} (x : Except Miss α) (f : α → Bool := fun _ => true) : Bool := match x with | .ok a => f a | _ => false
def missE {α : Type} (x : Except Miss α) (m : Miss) : Bool := match x with | .error e => e = m | _ => false
theorem witness_PacketEvents_load :
    let s := served State.reset waitctr
    let lazyQ : Queue := { s.queue 0 with shadow := #v[0, 0, 0xC005000000000000, 0, 0, 0, 0, 0] }
    0 < 1024 * (s.numDies / 2) ∧ (0x100#64).extractLsb' 0 8 = 0 ∧ s.queueLive 0 = true ∧ (s.queue 0).rung = true ∧ s.headPacket 0 = none ∧
    4 ≤ (s.queue 0).logn ∧ (s.queue 0).logn ≤ 16 ∧ (s.queue 0).rbase % 64 = 0 ∧
    okE (s.queueBytes 0 2 (s.queue 0).uaddr) (fun u => userHalfOk u.1 && !(wordOf u.1 2).getLsbD 0 &&
      okE (u.2.placeFor (u.2.client 0) 0x21000 64 .write) (fun x => x == (0x51000, false)) &&
      okE (u.2.queueBytes 0 2 0x21000) (fun v => decide ((List.range 8).map (wordOf v.1) = waitctr) && decide (v.2.queue 0 = s.queue 0)
        && decide ((v.2.checkPacket 0 (pkt waitctr)).1 = 0) && okE (v.2.publish 0 0x20000) && missE (v.2.publish 0 0x100000000) .fault)) = true ∧
    (pkt waitctr).type ≠ 0 ∧ (pkt [0, 0, 0, 0, 0, 0, 0, 0]).type = 0 ∧ (s.checkPacket 0 (pkt [6, 0, 0, 0, 0, 0, 0, 0])).1 = 1 ∧
    s.checkPacket 0 (pkt [2, 0x100000000, 0, 0, 0, 0, 0, 0]) = (3, .fault) ∧ region (localBase 0) = 1 ∧
    lazyQ.isLazy = true ∧ lazyQ.sincePublish < lazyQ.lazym1 ∧ (s.queue 0).isLazy = false := by decide +kernel
theorem witness_PacketEvents_plain :
    let s := taken State.reset waitctr
    let t := taken State.reset signalPkt
    let low : State := s.setStatus 4 0 0
    s.startable 0 2 = some (pkt waitctr) ∧ okE (s.waitPlace 0 0x20100) (fun a => a == 0x50100) = true ∧
    okE (s.readPiece (s.client 0) false 0x20100 8) (fun x => !x.2.1 && wordOf x.1 0 == 0) = true ∧ (0 : Word).toNat ≤ 0 ∧ 0 < (1 : Word).toNat ∧
    t.startable 0 3 = some (pkt signalPkt) ∧ okE (t.counterFor (t.client 0) 0x20100 1) = true ∧ missE (t.counterFor (t.client 0) 0x100000000 1) .fault = true ∧
    low.reduced = true ∧ okE (low.placeFor (low.client 0) 0x20100 8 .atomic) = true ∧ okE (low.lookFor (low.client 0) 0x20100 .read) = true ∧
    (taken State.reset marker).startable 0 5 = some (pkt marker) := by decide +kernel
theorem witness_PacketEvents_copy :
    let u := taken State.reset copyPkt
    let r := u.copyRun 0 (pkt copyPkt) (64 / 16 + 1)
    let v := u.copyRun 0 (pkt copyPkt) 1
    let w := u.copyRun 0 (pkt [4, 0x22000, 0x100000000, 64, 0, 0, 0, 0]) 5
    u.startable 0 4 = some (pkt copyPkt) ∧ u.weightDies 0 (pkt copyPkt) = [] ∧ (u.queue 0).holds = [] ∧
    r.2 = none ∧ r.1.copied 0 (pkt copyPkt) = true ∧ v.1.copied 0 (pkt copyPkt) = false ∧ w.2 = some .fault ∧
    (pkt copyPkt).word 4 = 0 ∧ okE (u.counterFor (u.client 0) 0x20100 1) = true ∧
    okE (u.placeFor (u.client 0) 0x23000 32 .copy) = true ∧ okE (u.readFor (u.client 0) true 2 32 0x22000) = true ∧
    okE (u.lookFor (u.client 0) 0x22000 .read) (fun y => u.refreshLeft y.1 == 0) = true := by decide +kernel
/-- Page 3 in die 0's weight store, no run there; a store being written and one that is not. -/
theorem witness_PacketEvents_weights :
    let words : List Word := [4, 0x22000, 0x33000, 64, 0, 0, 0, 0]
    let t := (taken State.reset words).writeWord 0x30018 0xCE00080000000000
    let h := t.holdStores 0 [0]
    let b := h.setCoreAt 0 { h.coreAt 0 with run := some 1 }
    t.startable 0 4 = some (pkt words) ∧ t.weightDies 0 (pkt words) = [0] ∧ t.dieBusy 0 = false ∧ t.storeWriting 0 = false ∧
    (t.queue 0).holds ≠ [0] ∧ (h.queue 0).holds = [0] ∧ h.storeWriting 0 = true ∧ (h.copyRun 0 (pkt words) 5).2 = none ∧ b.dieBusy 0 = true := by
  decide +kernel
/-- A LAUNCH of one core whose description lies at 0x22000 and whose text at 0x24000, of priority `prio`. -/
def launchPkt (prio : Word) : List Word := [1 + 0x80000 * prio, 0x22000, 0x23000, 0, 0, 0, 0, 0]
def launching (s : State) (prio : Word) : State :=
  ((taken s (launchPkt prio)).setBytes 0x52000 (wordBytes [0x24000, 0x400000040])).setBytes 0x54000
    (leBytes 64 (lineOf [0x00300048]).toNat)
theorem witness_LaunchEvents :
    let s := launching State.reset 0
    let p := pkt (launchPkt 0)
    s.startable 0 1 = some p ∧ s.preparing 0 p = none ∧ s.newRunId.isSome = true ∧
    (s.queues.map Prod.fst).any (s.goesFirst p.prio 0) = false ∧ 0 < s.numCores := by decide +kernel
theorem witness_LaunchEvents_place :
    let s := launching State.reset 0
    okE (s.prepare (s.client 0) (pkt (launchPkt 0)) none)
      (fun l => decide (l.cores = [0]) && l.cores.all s.coreFree && s.diesReady l) = true := by decide +kernel
/-- A description that is refused, on free cores and on one of another run, where an express area does not help either. -/
theorem witness_LaunchEvents_none :
    let s := taken State.reset (launchPkt 0)
    let t := launching (st.updRun 1 (fun r => { r with esz := 1, queue := 1 })) 0
    missE (s.prepare (s.client 0) (pkt (launchPkt 0)) none) .launch = true ∧
    (s.domainCores (launchDomain ((pkt (launchPkt 0)).word 0))).all s.coreFree = true ∧
    (t.domainCores (launchDomain ((pkt (launchPkt 0)).word 0))).any (fun c => !t.coreFree c) = true ∧
    t.hopeless (t.client 0) (pkt (launchPkt 0)) = false := by decide +kernel
/-- Runs that are done, ended, pre-empted; a binary without sections; a lease the loader minted. -/
theorem witness_LaunchEvents_end :
    let h := served st marker
    let done := withX h (fun c => c.freed)
    h.hartLive (queueHart 0) = true ∧ st.hartLive (queueHart 0) = false ∧
    (done.run? 1).any (fun r => r.ending.isNone && done.runDone r && done.hartLive (queueHart r.queue)) = true ∧
    ((h.updRun 1 (fun r => { r with ending := some 2 })).run? 1).any (fun r => r.ending.isSome && decide (r.state ≠ .ended)) = true ∧
    ((h.updRun 1 (fun r => { r with state := .ended, ending := some 2 })).run? 1).any (fun r => r.ending.isSome && decide (r.state = .ended)) = true ∧
    ({ st with cores := [] }).cores.any (fun k => k.2.run == some 1) = false ∧
    ((st.updRun 1 (fun r => { r with state := .preempted })).run? 1).any (fun r => decide (r.state = .preempted) && !r.f.fault) = true ∧
    (st.loadBinary { version := (3, 0), tenant := 0, sections := [], localLen := 0, caps := [] }).isSome = true ∧
    (st.loadBinary { version := (3, 0), tenant := 0, sections := [], localLen := 2 ^ 20 + 1, caps := [] }).isNone = true ∧
    hostLaunches 3 0 = true ∧ hostLaunches 4 0 = false ∧
    (let s := st.setLease 1 { Lease.reset with state := 1, parent := 1 }
     (s.lease 1).state = 1 ∧ (s.lease 1).run = 0 ∧ (s.lease 1).parent.toNat = 1) := by decide +kernel
/-- A run with an express area on core 0, and a LAUNCH of a higher priority for that core. -/
def contended : State := launching (st.updRun 1 (fun r => { r with esz := 1, queue := 1 })) 1
theorem witness_PreemptionEvents_decision :
    (match contended.preemption 0 with
      | some (p, victims, e) => decide (victims.map Run.id = [1]) && decide (e = 0x10000)
          && okE (contended.prepare (contended.client 0) p (some e)) (fun l => contended.diesReady l)
      | none => false) = true ∧ contended.newRunId.isSome = true ∧
    (let t := taken (st.updRun 1 (fun r => { r with esz := 1, queue := 1 })) (launchPkt 1)
     match t.preemption 0 with
      | some (p, _, e) => missE (t.prepare (t.client 0) p (some e)) .launch
      | none => false) = true := by decide +kernel
/-- The victim before its boundary, at it, and saved; the launch that waits for it. -/
theorem witness_PreemptionEvents_cores :
    let v := contended.updRun 1 (fun r => { r with state := .preempted })
    let b := v.setCore { v.core with boundary := some 5 }
    let sv := b.savedCore 0 1
    let e : Run := { placedRun with id := 2, state := .preparing, victims := [1], express := some 0x10000, prio := 1, words := launchPkt 1 }
    let w : State := { (v.setCore { v.core with run := none, saved := some sv }) with runs := v.runs ++ [e] }
    (v.runOn 0).any (fun r => decide (r.state = .preempted) && r.ending.isNone && !v.closing r 0 && decide (((v.endFlight 0).coreAt 0).run = some r.id.toNat)) = true ∧
    v.answerHeld 0 = false ∧ ((v.updRun 1 (fun r => { r with ending := some 2 })).runOn 0).any (fun r => r.ending.isSome) = true ∧
    (v.updRun 1 (fun r => { r with ending := some 2 })).answerHeld 0 = false ∧
    (v.coreAt 0).boundary = none ∧ (v.coreAt 0).dbg.replaying = false ∧
    (b.coreAt 0).run = some 1 ∧ (b.coreAt 0).boundary = some 5 ∧
    (w.runs.find? (fun r => r.queue == 0 && r.state = .preparing && w.victimsSaved r)).any
      (fun r => okE (w.prepare r.client r.launchPacket r.express) (fun l => w.diesReady l)) = true ∧ w.hartLive (queueHart 0) = true ∧
    (w.coreAt 0).run = none ∧ 0 < w.numCores ∧ (w.coreAt 0).saved.any (fun x => x.plan.fault.isNone && x.waiting.all (fun p => p.plevel == 0)
      && (({ w with runs := v.runs } : State).preempter x.run).isNone && !(x.phase == .compute && x.arrived.isSome)) = true ∧
    (let late : SavedCore := { sv with phase := .compute, arrived := some 0 }; late.phase = .compute ∧ late.arrived ≠ none) := by decide +kernel
/-- The security states; a stopped core of a run, with and without a snapshot; a context held at a BRK. -/
def owned : State := { st with dev := { st.dev with security := .owner } }
theorem witness_DebugEvents :
    let s := owned.setCore { owned.core with stopped := true }
    let r := { s with dev := { s.dev with snapshots := [{ (s.snapshot 0) with count := 7 }] } }
    ({ owned with dev := { owned.dev with colophons := [0x40000] } }).dev.colophons.contains 0x40000 = true ∧
    State.reset.debugRefusal false = some .denied ∧ owned.debugRefusal false = none ∧ owned.debugRefusal true = some .denied ∧
    ({ owned with dev := { owned.dev with off := true } }).debugRefusal false = some .power ∧
    ({ owned with dev := { owned.dev with security := .vendor } }).debugRefusal true = none ∧ st.physOk 0x10000000 = true ∧ 3 < 4 * st.numCards ∧
    (owned.run? 1).any (fun r => r.ending.isNone && decide (0 ≤ r.domain.level.toNat) && r.dbg.stoppedAt.isNone && r.dbg.stopLevel.isNone
      && decide (r.state ≠ .preempted) && !(owned.runCores r).any (fun k => (owned.coreAt k).dbg.replaying)) = true ∧
    (withX owned (fun c => { c with held := true })).ctx.held = true ∧ agentCore owned.cur = some 0 ∧ (owned.coreAt 0).run = some 1 ∧
    targetCore (.g 0 0 5) = some 0 ∧ s.readable (.g 0 0 5) 0 = true ∧ writable (.g 0 0 5) = true ∧ writable (.galley 0 0 0) = false ∧
    writable (.sysreg 0 0 9) = true ∧ writableHeld (.sysreg 0 0 9) = false ∧ (sysWriteBy 9).isSome = true ∧
    (withX owned (fun c => { c with held := true })).readable (.sysreg 0 0 9) 0 = true ∧ (owned.coreAt 0).stopped = false ∧
    (r.replaySource 0).any (fun x => decide (x.rewrites = r.rewrites)) = true ∧ (r.coreAt 0).stopped = true ∧ (r.coreAt 0).dbg.replaying = false ∧
    (let t := s.setCore { s.core with dbg := { s.core.dbg with replaying := true } }
     (t.coreAt 0).dbg.replaying = true ∧ (t.coreAt 0).arrived = none ∧ t.liveWaits 0 ≠ []) ∧
    (withX s (fun c => c.freed)).liveWaits 0 = [] := by decide +kernel
theorem witness_MonitorEvents :
    let t := owned.setDie 0 { owned.die 0 with trace := { TraceUnit.reset with en := true, runs := [1] } }
    owned.debugRefusal false = none ∧ 1 < owned.numDies ∧ (owned.die 0).trace.hyper = false ∧ 767 < owned.numCores ∧ (owned.coreAt 0).held = false ∧
    ((owned.setCoreAt 0 { owned.coreAt 0 with held := true }).coreAt 0).held = true ∧
    owned.traced 0 = false ∧ t.traced 0 = true ∧ (owned.die 0).retention = false ∧ 3 < 4 * owned.numCards ∧
    ({ owned with dev := { owned.dev with monitorOk := true } }).dev.monitorOk = true ∧
    2 ^ 16 ≤ ((owned.setDie 0 { owned.die 0 with cycle := 65536 }).cardCycle 0 - (owned.card 0).intervalStart).toNat ∧
    (owned.chargeable.map Prod.fst).Nodup := by
  decide +kernel
/-- A guard window, by level, tenant and end; a hart that stands at the level of the access, and one that does not. -/
theorem witness_MonitorEvents_guard :
    let w : GuardWindow := { base4k := 1, limit4k := 2, r1 := true, w1 := false, x1 := false, r2 := false, w2 := true, x2 := false, tenant := 7, common := false }
    let h : CommandHart := { owned.hart 3 with guard := (owned.hart 3).guard.set 23 (some w), level := 1 }
    h.grants 4096 1 0 (.read 4096) = true ∧ h.grants 8190 1 0 (.read 4) = false ∧ h.grants 4096 2 7 (.write 4) = true ∧
    h.grants 4096 2 6 (.write 4) = false ∧ h.level = 1 ∧ (owned.hart 3).level ≠ 2 ∧ ({ h with level := 2 }).level = 2 ∧
    (owned.setHart 3 h).hart 3 = h := by decide +kernel
/-- Sampling off, an interval that is not over, one that is; a ring of dumps with room, one that is full, an interval's end. -/
theorem witness_MonitorEvents_intervals :
    let at' (n : Nat) (f : TraceUnit → TraceUnit) : State := owned.setDie 0 { owned.die 0 with cycle := BitVec.ofNat 64 n, trace := f TraceUnit.reset }
    let past (s : State) : Nat := ((s.die 0).cycle - ((s.die 0).trace.forCore 0 16).sampleStart).toNat
    let on (v : TraceUnit) : TraceUnit := { v with sampleK := some 16 }
    let ring (n full : Nat) : State := owned.setDie 0 { owned.die 0 with
      cycle := BitVec.ofNat 64 n, grid := { GridRing.reset with k := some 16, base := 0x10000000, buffers := 1, full := full } }
    (owned.die 0).trace.sampleK = none ∧ ((at' 65535 on).die 0).trace.sampleK = some 16 ∧ past (at' 65535 on) < 2 ^ 16 ∧
    2 ^ 16 ≤ past (at' 65536 on) ∧ (at' 65536 on).traced 0 = false ∧ (at' 65536 (fun v => { on v with en := true, runs := [1] })).traced 0 = true ∧
    ((ring 65535 0).die 0).grid.k = some 16 ∧ (16 : BitVec 5).toNat = 16 ∧
    ((ring 65535 0).die 0).cycle.toNat < (((ring 65535 0).die 0).grid.finish 16).toNat ∧
    (((ring 65536 0).die 0).grid.finish 16).toNat ≤ ((ring 65536 0).die 0).cycle.toNat ∧ ((ring 65536 0).die 0).retention = false ∧
    ((ring 65536 0).die 0).grid.full < ((ring 65536 0).die 0).grid.buffers ∧ ((ring 65536 1).die 0).grid.buffers ≤ ((ring 65536 1).die 0).grid.full := by
  decide +kernel
/-- A turn by issue order and one of the schedule; a word that decodes, one that does not, a fetch that traps; a line that passes R23. -/
theorem witness_StepRunsDecoded :
    (let s := { st with agenda := [] }; s.pick = some (.ctx 0 0) ∧ s.driftDue = false) ∧ st.agenda = [.issue (.ctx 0 0)] ∧ st.hasAgent (.ctx 0 0) = true ∧
    (let u := { st with agenda := [] }; u.mayIssue st.cur = true ∧ (u.settleAwaited st.cur).awaits st.cur = []) ∧ (st.take st.cur).ctx.owed = none ∧
    ((withX st (fun c => { c with owed := some (0x12, 0, 0x40) })).take st.cur).ctx.owed.isSome = true ∧
    ((withX st (fun c => { c with pageFail := some 0x10000 })).take st.cur).ctx.pageFail.isSome = true ∧
    (st.take st.cur).ctx.pageFail = none ∧ st.hasAgent (.ctx 1536 0) = false ∧
    (match (st.take st.cur).nextInstr with | .instr i _ => decide (i = .addi 5 0 8) | _ => false) = true ∧
    (match ((State.reset.withFetchWord 32 0xA4).take st.cur).nextInstr with | .illegal _ _ => true | _ => false) = true ∧
    (match ((withX st (fun c => { c with pc := c.pc + 0x4000 })).take st.cur).nextInstr with | .trap _ _ _ => true | _ => false) = true ∧
    st.capFault st.ctx.fcap .X Kind.X.need (((localBase 0 : Int) - st.ctx.fcap.base.toNat) / 64) 0 true = none ∧
    st.ctx.fcap.covers (localBase 0) = true ∧ st.ctx.fcap.covers (localBase 0 + 63) = true ∧ st.pc.toNat / 64 * 64 = localBase 0 ∧
    (match st.fetchLine (localBase 0) with
      | .line l u => decide (u.ctx = st.ctx) && decide (l.poison = 0) && parloOk l.data && parhiOk l.data && !l.data.getLsbD 29
          && (match decode (lineFrom l.data 1) with | .ok (i, _) => decide (i = .addi 5 0 8) | _ => false)
      | _ => false) = true ∧
    st.ctx.resumed = false ∧ st.pc.toNat % 4 = 0 ∧ st.pc.toNat % 64 / 4 = 1 ∧
    (st.coreAt 0).dbg.replaying = false ∧ st.logging 0 = false := by decide +kernel
theorem witness_DecodeEncode : ([.addi 31 31 0x3FFF, .loop 31 0, .ld m0, .clease c0, .mwfetch p0, .swadd w0, .mstream g0, .center k0] : List Instr).all
    (fun i => i.wf && !(encode i).isEmpty) = true := by decide +kernel
theorem witness_EncodeDecode : decode [0x00200504, 7] = .ok (.addi 5 0 8, [7]) := by decide +kernel
theorem witness_StepKeepsInv : st.Inv ∧ nexts (step st) (fun _ => true) = true := by unfold State.Inv; decide +kernel
theorem witness_RegisterFrame :
    nexts (exec (.addi 5 0 8) st) (fun t => decide (t = st.after (.addi 5 0 8) (st.setG 5 8))) = true ∧ (encode (.addi 5 0 8)).length ≤ 3 ∧
    st.pc.toNat % 4 = 0 ∧ 1 ≤ st.pc.toNat % 64 / 4 ∧ st.pc.toNat % 64 / 4 + (Instr.addi 5 0 8).parcels ≤ 16 ∧
    (encode (.ld m0)).length = 2 ∧ (encode (.center k0)).length = 3 := by decide +kernel

/-! ### Further clauses, each with its witness -/

/-- A target check without TGT that fails. -/
theorem witness_TransferTargetCheck_plain :
    let s := State.reset.withFetchWord 64 0x0000000000000001
    let t := s.pc + 4
    (match s.checkTarget t false with | .bad c e => decide (c = 0x06) && decide (e = t) | _ => false) = true ∧
    t.toNat % 4 = 0 ∧ t.toNat % 64 / 4 = 2 := by decide +kernel
theorem witness_WindowOperandChecks_mode :
    let f := shortF false 0 2 1
    let s := windowed.setSr { windowed.ctx.sr with fcsr := 7 }
    f = shortF f.dbl f.d f.a f.b ∧ (s.winOk (s.wd f) f.dbl ∧ s.winOk (s.wa f) f.dbl ∧ s.winOk (s.wb f) f.dbl) ∧ ¬ s.modeOk := by
  unfold State.winOk State.modeOk; decide +kernel
theorem witness_SysRegisterWrites_walloc :
    (fun s : State => s.wallocOk 1024) st = true ∧ (fun s : State => s.wallocOk 0x7FFFF) st = false := by decide +kernel
/-- Untagged and sealed sources of CSHUT and COPEN. -/
theorem witness_PermissionAndSealing_sources :
    let s := withC st [(1, { sealer with otype := 5 }), (2, sealer)]
    1 ≤ (s.c 2).base.toNat ∧ (s.c 2).base.toNat ≤ 65535 ∧ (s.c 0).tag = false ∧ (s.c 1).tag = true ∧ (s.c 1).otype ≠ 0 ∧
    okM (capCheck (s.c 2) .SEAL 0 0) s = true ∧ okM (capCheck (s.c 2) .UNSEAL 0 0) s = true := by decide +kernel
theorem witness_SlicingResults_kinds :
    (code.fmt.toNat = Fmt.code ∧ sealer.fmt.toNat = Fmt.sealer) ∧ code.tag = true ∧ code.otype = 0 ∧ sealer.otype = 0 ∧
    (Instr.crank { c0 with ca := 1, imm := 0x00040000 }).wf = true ∧ (Instr.cfix { c0 with ca := 1 }).wf = true := by decide +kernel
/-- Two fetches of which neither waits, and two of which the second does. -/
theorem witness_MatrixEvents_fetches :
    let f (n unit : Nat) : FetchOp :=
      { seq := n, slot := 0, cap := lc 0 0x20 0x400 64, raw := true, p := 0, i0 := 0, i1 := 0, unit := unit, count := 2, done := 0,
        strict := false, wait := none }
    let x : Matrix := { st.mxAt 0 with fetches := [f 0 0, f 1 8] }
    let y : Matrix := { st.mxAt 0 with fetches := [f 0 0, f 1 1] }
    x.fetchWaits (f 0 0) = false ∧ x.fetchWaits (f 1 8) = false ∧ y.fetchWaits (f 0 0) = false ∧ y.fetchWaits (f 1 1) = true ∧
    x.fetches = [f 0 0] ++ f 1 8 :: [] ∧ y.fetches = [] ++ f 0 0 :: [f 1 1] := by decide +kernel
theorem witness_MemoryModelEvents_more :
    let p := piece st.cur 0x10000000 7
    let far := piece st.cur 0x100010000000 7
    let r (l : LinkState) : State := linked l
    let q : Propagation := { agent := st.cur, dst := 0x100010000000, piece := p }
    (queued ranged [p]).drainable p = true ∧ ranged.mayPropagate q = true ∧ (r .retraining).mayPropagate q = false ∧
    (r .retraining).pathHeld far.agent far.line = true := by decide +kernel
/-- A request that nobody waits for, of the host and not; copies held, refused and free. -/
theorem witness_PageAndSliceEvents_more :
    let r : PageRequest := { die := 0, tenant := 0, vpage := 2, epoch := 5, big := false, host := true, pasid := 0, live := false, empties := 0 }
    let s : State := { paged 0 with requests := [r] }
    let two (x : LinkState) : State := ({ paged 0 with twoCards := true } : State).setBridge x
    s.requests.find? (fun r => r.epoch == 5) = some r ∧ s.stillWanted r.pageKey = false ∧
    (paged 0).copyHeld 0x50000 0x60000 = false ∧ (paged 0).copyRefused 0x50000 0x60000 = false ∧
    (two .retraining).copyHeld 0x50000 (2 * 2 ^ 44) = true ∧ (two .up).copyHeld 0x50000 (2 * 2 ^ 44) = false ∧
    (two .up).copyRefused 0x50000 (2 * 2 ^ 44) = true := by decide +kernel
/-- The block of `imp`, its workers' cores exchanged: the claim's owner runs on core 1. -/
theorem witness_ImpositionResults_foreign :
    let f : QFields := { q0 with c := 1, x := 11, d := 5 }
    let s := (claimed 1 0).unitWrite (localBase 0 + 0x1080) 1
    okM (impAt f .L) s (fun a u => okM (impHome a 0) u (fun _ v => okM (claimOf f a) v (fun e _ => okM handChecks v (fun _ w =>
      let t := w.takeEpoch a
      t.handTarget a (s.g 11) (s.g 12) == some 1 && t.coreNo == 0 && decide ((t.readyOf 1 (t.runOf t.cur)).length < 56) && !t.writesHeld
        && ((t.flush t.cur).handOver e 1 5).isSome)))) = true := by decide +kernel
/-- What becomes of a record that enters slot 0 of core 0: 1 loaded, 2 dropped, 3 held, 4 away. -/
def entering (s : State) (e : Ready) : Nat :=
  match s.run? 1, bestReady [e] with
  | some run, some f => (match s.enterSlot 0 0 run f.recAddr f.recCap (.cont f.core.toNat f.recAddr.toNat) with
      | .loaded _ => 1 | .dropped _ => 2 | .held => 3 | .away _ _ => 4)
  | _, _ => 0
/-- The oldest of the highest priority; a record that is dropped, one behind a link that retrains. -/
theorem witness_ContinuationEvents_records :
    let far := { rdy with recAddr := 0x40000000, recCap := dc 0 0x0F 0x40000000 64 }
    let s := withX st (fun c => c.freed)
    bestReady [rdy, { rdy with prio := 1, core := 1 }, { rdy with prio := 1 }] = some { rdy with prio := 1, core := 1 } ∧
    (s.coreAt 0).halted = false ∧ s.freeSlots 0 = [0, 1, 2, 3] ∧ entering s rdy = 2 ∧
    entering (withX (linked .retraining) (fun c => c.freed)) far = 3 := by decide +kernel
/-- A record written in its layout, which is loaded. -/
theorem witness_ContinuationEvents_loaded :
    let a := localBase 0 + 0x8000
    let f := lc 0x20 0x0F 0x4000 48
    let s := (withX st (fun c => c.freed)).setBytes a (wordBytes (recordWords (st.pc.setWidth 48) 1 0 0 0 0 0 1 0 0) ++ leBytes 32 f.bits.toNat)
    entering { s with tags := Sparse.put false s.tags ((a + 32) / 32) true } { rdy with recAddr := BitVec.ofNat 48 a, recCap := lc 0 0x0F 0x8000 64 } = 1 := by
  decide +kernel
/-- A close that a stop holds, one that it does not, one that a link holds; a run whose first close is not done. -/
theorem witness_ContinuationEvents_close :
    let s := st.setCore { st.core with arrived := some 0 }
    let r (l : Option (BitVec 3)) : Run := { placedRun with dbg := { placedRun.dbg with stopLevel := l } }
    (s.run? 1).any (fun r => r.opened.contains 0 && !s.closeHeld 1 [0] && (r.stopsAt 0).isNone) = true ∧
    (r (some 0)).stopsAt 0 = some 0 ∧ (r (some 1)).stopsAt 0 = none ∧ ({ r (some 0) with state := .preempted } : Run).stopsAt 0 = none ∧
    (queued (linked .retraining) [piece st.cur 0x100010000000 1]).closeHeld 1 [0] = true ∧
    (let u := st.updRun 1 (fun r => { r with opened := [] })
     (u.run? 1).any (fun r => r.ending.isNone && !r.opened.contains 0 && (u.members r.domain r.domain.level.toNat 0).contains 0)) = true := by
  decide +kernel
/-- A core before its first phase, and in one; a context at an XSYNC of the level, one that is not. -/
theorem witness_ContinuationEvents_phase :
    let s := (st.setPc (st.pc + 4)).suspend .xsync 2 0 7 none
    (s.coreAt 0).phase = .outside ∧ ((s.setCore { s.core with phase := .exchange }).coreAt 0).phase ≠ .outside ∧ (s.coreAt 0).sstepCount ≠ BitVec.allOnes 32 ∧
    (s.coreAt 0).plan.fault = none ∧ (s.coreAt 0).u.waiting.all (fun p => p.susp.reason ≠ .xsync) = true ∧
    (s.ctxOf (.ctx 0 0)).susp.any (fun w => w.reason = .xsync && decide (w.key.toNat = (2 : BitVec 3).toNat) && w.dst ≠ 0) = true ∧
    atXsync 2 (s.ctxOf (.ctx 0 1)).susp = false := by decide +kernel
/-- A core of a plan of one entry, of 32 bytes from 0x400 to offset `doff` of itself, as its exchange phase begins. -/
def departing (doff wsize : BitVec 20) (src : Word) : State :=
  let e : PlanEntry := { w0 := 0x2000000000, w1 := src, w2 := 0, w3 := doff.setWidth 64 }
  st.setCore { st.core with arrived := some 0, plan := { st.core.plan with en := true, wbase := 0x8000, wsize := wsize, count := 1, entries := [e], next := some 0 } }
/-- An entry that departs, one that its source fails, one that its destination refuses, and the end of the plan. -/
theorem witness_ContinuationEvents_depart :
    let ok (s : State) (src dst : Bool) : Bool := (s.stand 1 0).any (fun (x : Stand) => (x.arrived == some 0#3) && (x.plan.next == some 0) && x.plan.fault.isNone && (x.plan.nfail == 0#16) &&
      (match x.plan.entries[0]? with
        | some w =>
          let m := entryMove w
          let u := s.setPlanAt 1 0 { x.plan with next := some 1 }
          (s.run? 1).any (fun r => (u.sourceFault 1 0 (u.members r.domain 0 0) r.area m).isSome == src) && (m.dests.findSome? (u.destFault 1 m)).isSome == dst
            && (m.dests.all (fun d => (u.destFault 1 m d).isNone)) == !dst
        | none => false))
    ok (departing 0 0x40 0x400) false false = true ∧ ok (departing 0 0x40 0x401) true false = true ∧ ok (departing 0x40 0x40 0x400) false true = true ∧
    (departing 0 0x40 0x400).core.plan.entries[1]? = none ∧
    (departing 0 0x40 0x400).runOn 0 ≠ none := by decide +kernel
/-- A link toward core 384 that retrains, one that is down, one that is up: entries, pairs and messages for it. -/
theorem witness_ContinuationEvents_ways :
    let s (x : LinkState) : State := State.setCtxOf (linked x) st.cur { st.ctx with sending := some { dst := 384, ring := 7, payload := [1], poison := [false] } }
    (s .retraining).pathHeld (.copy 0) (localBase 384) = true ∧ (s .down).pathHeld (.copy 0) (localBase 384) = false ∧
    (s .down).pathRefuses (.copy 0) (localBase 384) .write = true ∧ (s .up).pathRefuses (.copy 0) (localBase 384) .write = false ∧
    (s .up).pathHeld (.ctx 0 0) (localBase 384) = false ∧ (384 : Nat) < (s .up).numCores ∧
    (s .retraining).messageHeld st.cur = true ∧ (s .down).messageHeld st.cur = false ∧ (s .up).messageHeld st.cur = false ∧
    (s .down).pathRefuses st.cur (localBase 384) .write = true ∧ (s .up).pathRefuses st.cur (localBase 384) .write = false ∧
    ((s .up).suspend .message 384 0 5 none).ctx.susp.any (fun w => w.dst ≠ 0) = true := by decide +kernel
/-- The two granules of a line, in turn and not; a refused store of the hart that ends its command. -/
theorem witness_EngineEvents_joins :
    let low : BitVec 512 := BitVec.ofNat 512 (2 ^ 256 - 1)
    let l : Piece := { piece (.copy 0) 0x400 7 with mask := low }
    let p : Piece := { piece (.copy 0) 0x400 0 with mask := ~~~low }
    let s := (commanded 0 0 true).setCtxOf (.copy 0) { (commanded 0 0 true).ctxOf (.copy 0) with deferred := some { eval := 0xC20, pc := 0 } }
    ([l].filter (fun y => y.agent == p.agent)).getLast? = some l ∧ l.mask = low ∧ p.mask = ~~~low ∧ (piece (.copy 0) 0x400 7).mask ≠ low ∧ l.op = .write ∧
    l.line = p.line ∧ l.replicated = p.replicated ∧
    (s.core.engine 0).busy = true ∧ (s.core.engine 0).w0.getLsbD 24 = false ∧ (s.core.engine 0).fifo ≠ [] ∧
    ((s.flush (.copy 0)).ctxOf (.copy 0)).deferred = some { eval := 0xC20, pc := 0 } := by decide +kernel
/-- Waits in state C; a card above its cap, its package above 560 W, and neither. -/
theorem witness_PowerAndBootEvents_wakes :
    let g (s : State) : State := s.setCoreAt 0 { s.coreAt 0 with gated := true }
    (g st).wakeDue 0 = true ∧ (g State.reset).wakeDue 0 = false ∧ (State.setCoreAt (g st) 0 { (g st).coreAt 0 with gated := false }).canIssue (.ctx 0 0) = true ∧
    (let c : Card := State.reset.card 0
     600 < 601 ∧ c.capW < ({ c with drawn := 601 }).drawn ∧ 560 < ({ c with drawnPkg := 561 }).drawnPkg ∧ ¬ (c.capW < c.drawn ∨ 560 < c.drawnPkg)) := by
  decide +kernel
/-- A window entry of the held context and one of none; a snapshot named, and one after a rewrite of a weight store. -/
theorem witness_DebugEvents_more :
    let s := withX (owned.setCore { owned.core with walloc := #v[4 * 1024, 0, 0, 0] }) (fun c => { c with held := true })
    let t := owned.setCore { owned.core with stopped := true }
    let r := { t with dev := { t.dev with snapshots := [{ (t.snapshot 0) with count := 7 }] } }
    let old := { t with dev := { t.dev with snapshots := [{ (t.snapshot 0) with count := 7, rewrites := 1 }] } }
    (s.coreAt 0).stopped = false ∧ s.readable (.w 0 0) 0 = true ∧ s.readable (.w 0 900) 0 = false ∧
    (r.replayOf 0 7).any (fun x => decide (x.rewrites = r.rewrites)) = true ∧ (r.replayOf 0 8).isNone = true ∧
    (old.replayOf 0 7).any (fun x => decide (x.rewrites ≠ old.rewrites)) = true ∧ (r.coreAt 0).stopped = true ∧ (r.coreAt 0).dbg.replaying = false ∧
    (0 : Nat) + 32 ≤ 0x10000 ∧ ({ owned with dev := { owned.dev with security := .vendor } } : State).debugRefusal true = none := by decide +kernel
/-- An action, a part of a command hart, a turn of an agent that does not exist; a fetch that a link holds. -/
theorem witness_StepRunsDecoded_more :
    ({ st with agenda := [.act (.hartHalt 0 true)] } : State).agenda = .act (.hartHalt 0 true) :: [] ∧
    ({ st with agenda := [.part (.command 0)] } : State).agenda = .part (.command 0) :: [] ∧
    st.hasAgent (.copy 768) = false ∧
    (let s := withX ((linked .retraining).updRun 1 (fun r => { r with ranges := r.ranges.map (fun d => { d with xe := true }) })) (fun c => { c with pc := 0x40000004, fcap := { placedCode with base := 0x40000000, scope := 1 } })
     (match (s.take st.cur).nextInstr with | .held _ => true | _ => false)) = true := by decide +kernel

/-! ### The Onar form (R387 to R390) -/

/-- The list of R390: its header for 3.2, five operations and a literal. -/
def onarList : List Word :=
  [0x2203, 0x7, 0x8, 0x00000402000A0005, 0x00000401000E0000, 0x00100C04000A0105]
theorem test_onar_list : onarCheck 0x50302 onarList = .accepted ∧ (onarOps onarList).length = 5 := by decide +kernel
/-- A store has no result, and a distance may not reach before operation 0. -/
theorem test_onar_refused :
    onarCheck 0x60302 (onarList ++ [0x00000001000E0000]) = .operation 5 ∧ onarCheck 0x50303 onarList = .version ∧
    onarCheck 0x10302 [0x00000001000E0000] = .operation 0 := by decide +kernel

end Sys2Proof.Tests
end

section
/-! SUPPORT. What a fold keeps, what a reader of sparse data finds after a fold of writes, in a filtered list and in an
appended one, and that ending a run keeps the cards and the other runs. -/

namespace Sys2Proof

/-- What every step of a fold keeps, the fold keeps. -/
theorem foldl_keeps {σ β γ : Type} (g : σ → γ) (f : σ → β → σ) (h : ∀ s x, g (f s x) = g s) (xs : List β) (s : σ) :
    g (xs.foldl f s) = g s := by
  induction xs generalizing s with
  | nil => rfl
  | cons x rest ih => exact (ih _).trans (h s x)

/-- Each key below `n` is changed once, by what it held. -/
theorem Sparse.get_foldl_put_range {α : Type} [DecidableEq α] (d : α) (g : Nat → α → α) (l : List (Nat × α)) (n j : Nat) :
    Sparse.get d ((List.range n).foldl (fun m k => Sparse.put d m k (g k (Sparse.get d m k))) l) j =
      if j < n then g j (Sparse.get d l j) else Sparse.get d l j := by
  induction n generalizing j with
  | zero => rfl
  | succ n ih =>
    rw [List.range_succ, List.foldl_append, List.foldl_cons, List.foldl_nil, Sparse.get_put, ih n, ih j, if_neg (Nat.lt_irrefl n)]
    by_cases hj : j = n
    · subst hj; simp
    · have : j < n + 1 ↔ j < n := by omega
      simp [hj, this]

theorem Sparse.get_filter {α : Type} (d : α) (l : List (Nat × α)) (f : Nat → Bool) (j : Nat) :
    Sparse.get d (l.filter (fun p => f p.1)) j = if f j then Sparse.get d l j else d := by
  induction l with
  | nil => simp [Sparse.get]
  | cons p rest ih =>
    obtain ⟨k, x⟩ := p
    by_cases hk : k = j
    · subst hk
      cases hf : f k <;> simp [Sparse.get, hf, ih]
    · cases hf : f k <;> simp [Sparse.get, hf, ih, hk]

theorem Sparse.get_append_of_absent_left {α : Type} (d : α) (l r : List (Nat × α)) (j : Nat) (h : ∀ p ∈ l, p.1 ≠ j) :
    Sparse.get d (l ++ r) j = Sparse.get d r j := by
  induction l with
  | nil => rfl
  | cons p rest ih =>
    rw [List.cons_append, Sparse.get, if_neg (h p (by simp))]
    exact ih (fun q hq => h q (by simp [hq]))

theorem Sparse.get_append_of_absent_right {α : Type} (d : α) (l r : List (Nat × α)) (j : Nat) (h : ∀ p ∈ r, p.1 ≠ j) :
    Sparse.get d (l ++ r) j = Sparse.get d l j := by
  induction l with
  | nil =>
    rw [List.nil_append, ← List.append_nil r, Sparse.get_append_of_absent_left d r [] j h]
  | cons p rest ih => simp only [List.cons_append, Sparse.get, ih]

namespace Machine

/-! ### The cards and the runs -/

/-- The two things that ending a run leaves as they are, but for the run itself: how many cards there are, and which runs. -/
def State.roster (s : State) : Bool × List Word := (s.twoCards, s.runs.map Run.id)

theorem State.roster_of_eq {s t : State} (hc : t.twoCards = s.twoCards) (hr : t.runs = s.runs) : t.roster = s.roster := by
  rw [State.roster, State.roster, hc, hr]
theorem State.twoCards_of_roster {s t : State} (h : t.roster = s.roster) : t.twoCards = s.twoCards := congrArg Prod.fst h
theorem State.runIds_of_roster {s t : State} (h : t.roster = s.roster) : t.runs.map Run.id = s.runs.map Run.id :=
  congrArg Prod.snd h

@[simp] theorem State.roster_press (s : State) (p : Press) : ({ s with press := p } : State).roster = s.roster := rfl
@[simp] theorem State.roster_setCtxOf (s : State) (a : Agent) (c : Ctx) : (s.setCtxOf a c).roster = s.roster := rfl
@[simp] theorem State.roster_setCoreAt (s : State) (k : Nat) (c : Core) : (s.setCoreAt k c).roster = s.roster := rfl
@[simp] theorem State.roster_setLink (s : State) (p : Port) (x : Link) : (s.setLink p x).roster = s.roster := rfl
@[simp] theorem State.roster_setSlice (s : State) (d n : Nat) (x : Slice) : (s.setSlice d n x).roster = s.roster := rfl
@[simp] theorem State.roster_setQueue (s : State) (q : Nat) (x : Queue) : (s.setQueue q x).roster = s.roster := rfl
@[simp] theorem State.roster_setViews (s : State) (v : List Sector) : (s.setViews v).roster = s.roster := rfl
@[simp] theorem State.roster_setQueues (s : State) (q f : List Piece) : (s.setQueues q f).roster = s.roster := rfl
@[simp] theorem State.roster_securityEvent (s : State) : s.securityEvent.roster = s.roster := rfl

/-- A change of a run that keeps its number. -/
theorem State.roster_updRun (s : State) (i : Nat) (f : Run → Run) (h : ∀ r, (f r).id = r.id) : (s.updRun i f).roster = s.roster := by
  have hid : (Run.id ∘ fun r => if r.id.toNat == i then f r else r) = Run.id := by
    funext r
    rw [Function.comp_apply]
    split
    · exact h r
    · rfl
  rw [State.roster, State.roster, State.updRun, List.map_map, hid]

theorem State.roster_foldl {β : Type} (f : State → β → State) (h : ∀ s x, (f s x).roster = s.roster) (xs : List β) (s : State) :
    (xs.foldl f s).roster = s.roster := foldl_keeps State.roster f h xs s

theorem State.roster_ite {s t u : State} {c : Prop} [Decidable c] (ht : t.roster = s.roster) (hu : u.roster = s.roster) :
    (if c then t else u).roster = s.roster := by split <;> assumption

/-! ### What the Press does keeps the roster (R138 to R150) -/

@[simp] theorem State.roster_setBytes (s : State) (a : Nat) (bs : List Byte) : (s.setBytes a bs).roster = s.roster := by
  induction bs generalizing s a with
  | nil => rfl
  | cons b rest ih => exact ih _ _
@[simp] theorem State.roster_clearTags (s : State) (a n : Nat) : (s.clearTags a n).roster = s.roster := by
  unfold State.clearTags
  split
  · rfl
  · exact State.roster_foldl (fun s i => s.setTag (a + 32 * i) false) (fun _ _ => rfl) _ s
@[simp] theorem State.roster_writeHome (s : State) (a : Nat) (bs : List Byte) : (s.writeHome a bs).roster = s.roster :=
  State.roster_of_eq (by simp) (by simp)
@[simp] theorem State.roster_setLease (s : State) (n : Nat) (x : Lease) : (s.setLease n x).roster = s.roster :=
  s.roster_writeHome _ _
@[simp] theorem State.roster_touch (s : State) (a : Nat) (w : Writer) (b : Bool) : (s.touch a w b).roster = s.roster := by
  unfold State.touch State.touchSector
  split <;> simp
@[simp] theorem State.roster_putLease (s : State) (n : Nat) (x : Lease) : (s.putLease n x).roster = s.roster := by
  simp [State.putLease]
@[simp] theorem State.roster_written (s : State) (a : Agent) (run p : Nat) (b : Bool) :
    (s.written a run p b).roster = s.roster := by
  simp [State.written, State.noteDelivered, State.refreshHeld]
@[simp] theorem State.roster_performAtomic (s : State) (a : Agent) (run p : Nat) (fn5 : BitVec 5) (wide : Bool) (x y : Word) :
    (s.performAtomic a run p fn5 wide x y).2.roster = s.roster := by
  simp [State.performAtomic]
@[simp] theorem State.roster_performCounter (s : State) (a : Agent) (run p : Nat) (x : Word) :
    (s.performCounter a run p x).roster = s.roster := by
  simp [State.performCounter]
@[simp] theorem State.roster_writeLine (s : State) (p : Piece) : (s.writeLine p).roster = s.roster := by
  unfold State.writeLine
  refine (State.roster_foldl _ (fun s g => ?_) _ _).trans (State.roster_foldl _ (fun s i => ?_) _ _)
  · dsimp only
    split
    · rfl
    · split
      · rfl
      · split <;> rfl
  · dsimp only
    split <;> rfl
@[simp] theorem State.roster_startJob (s : State) (p : Piece) : (s.startJob p).roster = s.roster := by
  unfold State.startJob
  split <;> simp
@[simp] theorem State.roster_markForeign (s : State) (a : Agent) (p : Nat) : (s.markForeign a p).roster = s.roster := by
  unfold State.markForeign
  split
  · rfl
  · exact State.roster_ite rfl (State.roster_ite rfl rfl)
@[simp] theorem State.roster_loseDeferred (s : State) (run : Nat) : (s.loseDeferred run).roster = s.roster :=
  s.roster_updRun run _ (fun _ => rfl)
@[simp] theorem State.roster_deferSaved (s : State) (core slot : Nat) (sv : SavedCore) (d : Deferred) :
    (s.deferSaved core slot sv d).roster = s.roster := by
  unfold State.deferSaved
  cases sv.ctxs.getD slot none with
  | none => exact s.roster_loseDeferred _
  | some c => exact State.roster_ite (s.roster_loseDeferred _) ((State.roster_writeHome _ _ _).trans (s.roster_setCoreAt core _))
@[simp] theorem State.roster_defer (s : State) (a : Agent) (run : Nat) (eval : Word) (pc : BitVec 48) :
    (s.defer a run eval pc).roster = s.roster := by
  unfold State.defer
  extract_lets c here
  have hh : here.roster = s.roster := State.roster_ite rfl (s.roster_loseDeferred run)
  cases a with
  | ctx k n =>
    refine State.roster_ite hh ?_
    cases (s.coreAt k).saved with
    | none => rfl
    | some sv => exact State.roster_ite (s.roster_deferSaved k n sv _) rfl
  | sweep | command | port | host => rfl
  | cont | copy | epi | gateway => exact hh
@[simp] theorem State.roster_failAtomic (s : State) (p : Piece) (dst : Option (BitVec 5)) (cause : BitVec 8) :
    (s.failAtomic p dst cause).roster = s.roster := by
  cases dst with
  | none => exact s.roster_defer _ _ _ _
  | some d =>
    unfold State.failAtomic
    extract_lets x
    cases p.agent with
    | ctx k n =>
      refine State.roster_ite rfl ?_
      cases (s.coreAt k).saved with
      | none => rfl
      | some sv => exact State.roster_ite rfl rfl
    | cont | copy | epi | sweep | gateway | command | port | host => rfl
@[simp] theorem State.roster_perform (s : State) (p : Piece) : (s.perform p).roster = s.roster := by
  unfold State.perform
  extract_lets a t
  split
  case h_1 =>
    refine State.roster_ite (by simp) (State.roster_ite rfl ?_)
    have ht : t.roster = s.roster := by simp [t]
    exact State.roster_ite ht ht
  case h_2 fn5 wide operand cmp dst _ =>
    refine State.roster_ite (by simp) (State.roster_ite (by simp) ?_)
    cases dst <;> simp
  case h_3 => exact State.roster_ite (by simp) (State.roster_ite (by simp) (by simp))
@[simp] theorem State.roster_propagate (s : State) (p : Propagation) : (s.propagate p).roster = s.roster :=
  State.roster_ite (by simp) (by simp)
/-- Sending changes one port of a link at most (R281). The definition is unfolded as a constant and not at its arguments:
else the kernel compares the two sides by evaluating the path to `e * 2 ^ 44`. -/
theorem State.sendItems_eq (s : State) (d e : Nat) (xs : List LinkItem) :
    s.sendItems d e xs = s ∨ ∃ p x, s.sendItems d e xs = s.setLink p x := by
  obtain ⟨send, h⟩ : ∃ send, send = @State.sendItems := ⟨_, rfl⟩
  rw [← h]
  delta State.sendItems at h
  subst h
  beta_reduce
  generalize pathPorts d (e * 2 ^ 44) = ports
  cases ports with
  | nil => exact .inl rfl
  | cons port _ =>
    cases xs with
    | nil => exact .inl rfl
    | cons x rest => exact .inr ⟨_, _, rfl⟩
@[simp] theorem State.roster_sendItems (s : State) (d e : Nat) (xs : List LinkItem) : (s.sendItems d e xs).roster = s.roster := by
  obtain h | ⟨p, x, h⟩ := s.sendItems_eq d e xs <;> rw [h]
  exact s.roster_setLink p x
@[simp] theorem State.roster_drain (s : State) (p : Piece) : (s.drain p).roster = s.roster :=
  (State.roster_sendItems _ _ _ _).trans (s.roster_setQueues _ _)
@[simp] theorem State.roster_acknowledge (s : State) (p : Piece) : (s.acknowledge p).roster = s.roster :=
  State.roster_ite rfl (s.roster_sendItems _ _ _)
@[simp] theorem State.roster_deliver (s : State) (p : Piece) : (s.deliver p).roster = s.roster := by
  simp [State.deliver]
@[simp] theorem State.roster_flush (s : State) (a : Agent) : (s.flush a).roster = s.roster := by
  have drained (s : State) : (s.drainWhere a (fun _ => true)).roster = s.roster := State.roster_foldl _ State.roster_drain _ s
  have delivered (s : State) : (s.deliverWhere a (fun _ => true)).roster = s.roster := State.roster_foldl _ State.roster_deliver _ s
  exact (State.roster_foldl _ State.roster_propagate _ _).trans ((delivered _).trans (drained s))

/-! ### Ending a run keeps the roster (R338, R71) -/

@[simp] theorem State.roster_tellRevoked (s : State) (n : Nat) : (s.tellRevoked n).roster = s.roster := by
  exact State.roster_foldl _ (fun s d => State.roster_ite rfl (by simp)) _ s
@[simp] theorem State.roster_landCaps (s : State) (ls : List Nat) : (s.landCaps ls).roster = s.roster :=
  State.roster_foldl _ State.roster_flush _ s
@[simp] theorem State.roster_revokeAll (s : State) (ls : List Nat) : (s.revokeAll ls).roster = s.roster := by
  have revoked (s : State) : (ls.foldl State.revoke s).roster = s.roster :=
    State.roster_foldl _ (fun s n => s.roster_putLease n _) _ s
  exact (State.roster_foldl _ State.roster_tellRevoked _ _).trans ((revoked _).trans (s.roster_landCaps ls))
@[simp] theorem State.roster_dropCore (s : State) (run k : Nat) : (s.dropCore run k).roster = s.roster := by
  unfold State.dropCore
  extract_lets c _ unwatched freed _ _ unsaved
  refine State.roster_ite ((freed.roster_setCoreAt k _).trans ?_) ((unsaved.roster_setCoreAt k _).trans ?_)
  · exact State.roster_foldl (fun u n => u.setCtxOf (.ctx k n) (u.ctxOf (.ctx k n)).freed) (fun _ _ => rfl) _ unwatched
  · unfold unsaved
    split
    · exact State.roster_ite rfl rfl
    · rfl
@[simp] theorem State.roster_finishStop (s : State) (run : Nat) : (s.finishStop run).roster = s.roster := by
  unfold State.finishStop
  split
  · rfl
  · refine State.roster_ite rfl ?_
    extract_lets dropped _ quiet revoked
    calc (revoked.updRun run (fun r => { r with state := .ended })).dropUnwanted.roster
      _ = revoked.roster := revoked.roster_updRun run (fun r => { r with state := .ended }) (fun _ => rfl)
      _ = quiet.roster := State.roster_revokeAll _ _
      _ = dropped.roster := State.roster_press _ _
      _ = s.roster := State.roster_foldl _ (fun s k => s.roster_dropCore run k) _ s
@[simp] theorem State.roster_stopRun (s : State) (run : Nat) (status : BitVec 4) (now : List Nat) :
    (s.stopRun run status now).roster = s.roster := by
  unfold State.stopRun
  rw [State.roster_finishStop]
  exact (State.roster_foldl _ (fun s k => s.roster_dropCore run k) now _).trans (s.roster_updRun run _ (fun _ => rfl))
@[simp] theorem State.roster_drainRun (s : State) (run : Nat) : (s.drainRun run).roster = s.roster :=
  State.roster_foldl _ State.roster_flush _ s

/-! ### The report of a run keeps the roster (R368) -/

@[simp] theorem State.roster_noteMiss (s : State) (k : Client) (e : Miss) : (s.noteMiss k e).roster = s.roster := by
  cases e <;> rfl
@[simp] theorem State.roster_dropPorts (s : State) (a : Agent) (scope : Nat) : (s.dropPorts a scope).roster = s.roster := by
  unfold State.dropPorts
  extract_lets ports mine dropped
  have h : dropped.roster = s.roster := State.roster_ite rfl rfl
  exact State.roster_ite h (State.roster_ite h h)
@[simp] theorem State.roster_walkedFor (s : State) (k : Client) (va : Nat) : (s.walkedFor k va).roster = s.roster := by
  unfold State.walkedFor
  split
  · exact State.roster_foldl _ (fun s p => s.roster_touch p _ _) _ s
  · rfl
@[simp] theorem State.roster_putFor (s : State) (k : Client) (va pa : Nat) (rpl : Bool) (bs : List Byte) (x : BitVec 2) :
    (s.putFor k va pa rpl bs x).roster = s.roster := by
  simp [State.putFor, State.push]
theorem State.roster_storeFor {s t : State} {k : Client} {va : Nat} {bs : List Byte} (h : s.storeFor k va bs = .ok t) :
    t.roster = s.roster := by
  unfold State.storeFor at h
  dsimp only at h
  split at h
  · cases h
  · split at h
    · cases h; simp
    · split at h
      · cases h
      · cases h; simp
theorem State.roster_counterFor {s t : State} {k : Client} {va inc : Word} (h : s.counterFor k va inc = .ok t) :
    t.roster = s.roster := by
  unfold State.counterFor at h
  split at h
  · cases h
  · extract_lets u at h
    split at h
    · cases h
    · cases h
      simp [u]
theorem State.roster_writeColophon {s t : State} {k : Client} {colo : Nat} {ws : List Word}
    (h : s.writeColophon k colo ws = .ok t) : t.roster = s.roster := by
  simp only [State.writeColophon, bind, Except.bind, pure, Except.pure] at h
  split at h
  · cases h
  · split at h
    · cases h
    · split at h
      · cases h
      · next u hu =>
        split at h
        · cases h
        · next v hv =>
          cases h
          exact (State.roster_storeFor hv).trans (State.roster_storeFor hu)
theorem State.roster_addDone {s t : State} {k : Client} {donectr : Word} (h : s.addDone k donectr = .ok t) :
    t.roster = s.roster := by
  unfold State.addDone at h
  split at h
  · cases h; rfl
  · exact State.roster_counterFor h
theorem State.roster_orMiss (s : State) (k : Client) (x : Except Miss State) (h : ∀ t, x = .ok t → t.roster = s.roster) :
    (s.orMiss k x).roster = s.roster := by
  cases x with
  | ok t => exact h t rfl
  | error e => exact s.roster_noteMiss k e
@[simp] theorem State.roster_report (s : State) (q gen : Nat) (k : Client) (index : Word) (event : Bool) (colo donectr : Word)
    (ws : List Word) : (s.report q gen k index event colo donectr ws).roster = s.roster := by
  unfold State.report
  extract_lets a written b counted x live left told
  have hw : written.roster = s.roster := s.roster_orMiss k a (fun _ h => State.roster_writeColophon h)
  have hc : counted.roster = s.roster := (written.roster_orMiss k b (fun _ h => State.roster_addDone h)).trans hw
  have hl : left.roster = s.roster := State.roster_ite hc hc
  have ht : told.roster = s.roster := State.roster_ite hl hl
  exact State.roster_ite ht ht

/-! ### Runs that leave (R16, R354) -/

theorem State.finishRun_twoCards (s : State) (r : Run) (status : BitVec 4) : (s.finishRun r status).twoCards = s.twoCards := by
  unfold State.finishRun
  extract_lets drained f first reported
  show reported.twoCards = s.twoCards
  exact State.twoCards_of_roster ((State.roster_report _ _ _ _ _ _ _ _ _).trans (s.roster_drainRun _))

theorem State.endService_twoCards (s : State) : s.endService.twoCards = s.twoCards := by
  refine foldl_keeps State.twoCards _ (fun s r => ?_) s.runs s
  have stopped := State.twoCards_of_roster (s.roster_stopRun r.id.toNat 4 (s.runCores r))
  extract_lets t
  split
  · exact (State.finishRun_twoCards _ _ _).trans stopped
  · exact stopped

/-- A run that is forgotten is gone, and the other runs stay (R354). -/
theorem State.runIds_forget (s : State) (r : Run) :
    (s.forget r).runs.map Run.id = (s.runs.map Run.id).filter (fun i => i != r.id) := by
  unfold State.forget
  extract_lets drained x left
  have hr : left.roster = s.roster :=
    (State.roster_ite rfl rfl : left.roster = drained.roster).trans
      ((State.roster_drainRun _ _).trans (s.roster_stopRun _ _ _))
  rw [← State.runIds_of_roster hr, List.filter_map]
  rfl

theorem State.runId_mem_foldl_forget {s : State} {rs : List Run} {i : Word} (h : i ∈ (rs.foldl State.forget s).runs.map Run.id) :
    i ∈ s.runs.map Run.id ∧ i ∉ rs.map Run.id := by
  induction rs generalizing s with
  | nil => exact ⟨h, by simp⟩
  | cons r rest ih =>
    obtain ⟨hs, hrest⟩ := ih h
    rw [State.runIds_forget, List.mem_filter] at hs
    have hne : i ≠ r.id := by simpa using hs.2
    exact ⟨hs.1, by simp only [List.map_cons, List.mem_cons, not_or]; exact ⟨hne, hrest⟩⟩

/-- Once every run has been forgotten, none is left. -/
theorem State.runs_foldl_forget (s : State) : (s.runs.foldl State.forget s).runs = [] := by
  rw [← List.map_eq_nil_iff (f := Run.id), List.eq_nil_iff_forall_not_mem]
  intro i h
  obtain ⟨hin, hout⟩ := State.runId_mem_foldl_forget h
  exact hout hin

end Machine
end Sys2Proof
end

section
/-! Power, clocks, the watchdog, boot and the service stages (O48; R15, R16, R205, R354, R383, R394 to R398). -/

namespace Sys2Proof.Machine

/-! ### Dies and cards, each changed by what it was -/

theorem State.die_foldl_setDie (s : State) (g : Die → Die) (n e : Nat) :
    ((List.range n).foldl (fun s d => s.setDie d (g (s.die d))) s).die e = if e < n then g (s.die e) else s.die e := by
  rw [State.die, ← List.foldl_hom State.dies (g₂ := fun m d => Sparse.put Die.reset m d (g (Sparse.get Die.reset m d)))
    (fun _ _ => rfl)]
  exact Sparse.get_foldl_put_range Die.reset (fun _ => g) s.dies n e
theorem State.card_foldl_setCard (s : State) (g : Card → Card) (n j : Nat) :
    ((List.range n).foldl (fun s k => s.setCard k (g (s.card k))) s).card j = if j < n then g (s.card j) else s.card j := by
  rw [State.card, ← List.foldl_hom State.cards (g₂ := fun m k => Sparse.put Card.reset m k (g (Sparse.get Card.reset m k)))
    (fun _ _ => rfl)]
  exact Sparse.get_foldl_put_range Card.reset (fun _ => g) s.cards n j
theorem State.foldl_setDie_shape (s : State) (g : Die → Die) (ds : List Nat) :
    ∃ l, ds.foldl (fun s d => s.setDie d (g (s.die d))) s = { s with dies := l } := by
  induction ds generalizing s with
  | nil => exact ⟨s.dies, rfl⟩
  | cons d rest ih => obtain ⟨l, h⟩ := ih (s.setDie d (g (s.die d))); exact ⟨l, h⟩
theorem State.foldl_setCard_shape (s : State) (g : Card → Card) (ks : List Nat) :
    ∃ l, ks.foldl (fun s k => s.setCard k (g (s.card k))) s = { s with cards := l } := by
  induction ks generalizing s with
  | nil => exact ⟨s.cards, rfl⟩
  | cons k rest ih => obtain ⟨l, h⟩ := ih (s.setCard k (g (s.card k))); exact ⟨l, h⟩

/-! ### What the parts of a boot change -/

theorem State.setClocks_shape (s : State) (x : Clock) : ∃ l, s.setClocks x = { s with cards := l } :=
  s.foldl_setCard_shape (fun c => { c with clock := x }) _
theorem State.card_setClocks (s : State) (x : Clock) {k : Nat} (h : k < s.numCards) :
    (s.setClocks x).card k = { s.card k with clock := x } :=
  (s.card_foldl_setCard (fun c => { c with clock := x }) s.numCards k).trans (if_pos h)
theorem State.setBridge_shape (s : State) (x : LinkState) : ∃ l, s.setBridge x = { s with links := l } := by
  unfold State.setBridge
  split
  · exact ⟨_, rfl⟩
  · exact ⟨s.links, rfl⟩
theorem State.link_setBridge (s : State) (x : LinkState) (h : s.twoCards = true) :
    ((s.setBridge x).link (.bridge 0)).state = x := by
  have other (t : State) (y : Link) : (t.setLink (.bridge 1) y).link (.bridge 0) = t.link (.bridge 0) :=
    Sparse.get_put_other _ _ _ (by decide)
  have two : s.setBridge x = (s.setLink (.bridge 0) { s.link (.bridge 0) with state := x }).setLink (.bridge 1)
      { (s.setLink (.bridge 0) { s.link (.bridge 0) with state := x }).link (.bridge 1) with state := x } := if_pos h
  rw [two, other, State.link_setLink_self]

theorem State.tellEpochs_shape (s : State) (ps : List Port) : ∃ l, ps.foldl State.tellEpochs s = { s with links := l } := by
  induction ps generalizing s with
  | nil => exact ⟨s.links, rfl⟩
  | cons p rest ih => obtain ⟨l, h⟩ := ih (s.tellEpochs p); exact ⟨l, h⟩

/-- What a reset leaves but for the links (R394, R286, log 50). -/
theorem State.rebooted_shape (s : State) (keep : Bool) : ∃ l, s.rebooted keep = { State.reset with
    twoCards := s.twoCards, agenda := s.agenda, tick := s.tick, hostMap := s.hostMap, dies := s.bootDies, links := l
    mem := s.mem.filter (fun p => keep || isHost p.1), tags := s.tags.filter (fun p => keep || isHost (32 * p.1))
    poison := s.poison.filter (fun p => keep || isHost (32 * p.1))
    dev := { Device.reset with flash := s.dev.flash, serial := s.dev.serial, retired := s.dev.retired } } := by
  obtain ⟨l, h⟩ := State.tellEpochs_shape _ _
  exact ⟨l, h⟩

/-- Each die counts one epoch on (R286). -/
theorem State.get_bootDies (s : State) {d : Nat} (h : d < s.numDies) :
    (Sparse.get Die.reset s.bootDies d).epoch = (s.die d).epoch + 1 := by
  have := Sparse.get_foldl_put_range Die.reset (fun d _ => { Die.reset with epoch := (s.die d).epoch + 1 }) [] s.numDies d
  rw [State.bootDies, this, if_pos h]

/-! ### Verification (R394, R396, R383) -/

/-- Verification changes DEVSTAT and what the device holds of its flash, nothing else. -/
theorem State.verified_shape (s : State) (monitorHere firmwareHere : Bool) (x : Security) :
    ∃ d, s.verified monitorHere firmwareHere x = { s with dev := d } ∧ d.flash = s.dev.flash := by
  unfold State.verified
  extract_lets flash m f rs t
  split <;> exact ⟨_, rfl, rfl⟩
theorem State.verified_records (s : State) (monitorHere firmwareHere : Bool) (x : Security) :
    let rs := if monitorHere && verifies s.dev.flash.monitor then s.dev.flash.used else []
    (s.verified monitorHere firmwareHere x).dev.records = rs ∧
    (s.verified monitorHere firmwareHere x).dev.security = grantedSecurity rs x := by
  unfold State.verified
  extract_lets flash m f rs t
  split <;> exact ⟨rfl, rfl⟩
theorem State.verified_stage (s : State) (monitorHere firmwareHere : Bool) (x : Security) :
    ((s.verified monitorHere firmwareHere x).dev.stage, (s.verified monitorHere firmwareHere x).dev.code) =
      if monitorHere && verifies s.dev.flash.monitor && firmwareHere && verifies s.dev.flash.firmware then (2, 0) else (6, 1) := by
  unfold State.verified
  extract_lets flash m f rs t
  by_cases h : f = true
  · rw [if_pos h, if_pos h]; rfl
  · rw [if_neg h, if_neg h]; rfl
/-- Without a record no other state than LOCKED is granted (R383). -/
theorem grantedSecurity_nil (x : Security) : grantedSecurity [] x = .locked := by cases x <;> rfl

/-! ### The lease table as firmware initialises it (R66, log 10) -/

theorem freshTable_keys {p : Nat × Byte} (h : p ∈ freshTable) : Config.leaseTable ≤ p.1 ∧ p.1 < Config.leaseTable + 0x200000 := by
  simp only [freshTable, List.mem_flatMap, List.mem_range, List.mem_filter, List.mem_cons, List.not_mem_nil, or_false] at h
  obtain ⟨i, hi, rfl | rfl, _⟩ := h <;> simp only [leasePlace] <;> omega
theorem State.byteAt_initLeases (s : State) (a : Nat) (h : ¬ (Config.leaseTable ≤ a ∧ a < Config.leaseTable + 0x200000)) :
    s.initLeases.byteAt a = s.byteAt a := by
  show Sparse.get 0 (splice Config.leaseTable (Config.leaseTable + 0x200000) freshTable s.mem) a = Sparse.get 0 s.mem a
  have fresh : ∀ p ∈ freshTable, p.1 ≠ a := fun p hp e => h (e ▸ freshTable_keys hp)
  unfold splice
  by_cases hlt : a < Config.leaseTable
  · have above : ∀ p ∈ s.mem.filter (fun p => Config.leaseTable + 0x200000 ≤ p.1), p.1 ≠ a := fun p hp => by
      have := (List.mem_filter.1 hp).2
      simp only [decide_eq_true_eq] at this
      omega
    rw [Sparse.get_append_of_absent_right _ _ _ _ above, Sparse.get_append_of_absent_right _ _ _ _ fresh,
      Sparse.get_filter 0 s.mem (fun k => decide (k < Config.leaseTable)), if_pos (by simpa using hlt)]
  · have hle : Config.leaseTable + 0x200000 ≤ a := by omega
    have below : ∀ p ∈ s.mem.filter (fun p => p.1 < Config.leaseTable) ++ freshTable, p.1 ≠ a := fun p hp => by
      rcases List.mem_append.1 hp with hp | hp
      · have := (List.mem_filter.1 hp).2
        simp only [decide_eq_true_eq] at this
        omega
      · exact fresh p hp
    rw [Sparse.get_append_of_absent_left _ _ _ _ below,
      Sparse.get_filter 0 s.mem (fun k => decide (Config.leaseTable + 0x200000 ≤ k)), if_pos (by simpa using hle)]

/-- Bytes are read back where they were written. -/
theorem State.bytesAt_writeHome_self (s : State) (a : Nat) (bs : List Byte) : (s.writeHome a bs).bytesAt a bs.length = bs := by
  refine List.ext_getElem (by simp [State.bytesAt]) (fun i hi hj => ?_)
  simp [State.bytesAt, State.byteAt_writeHome, hj]

/-! ### Power states (R397) -/

/-- A core that a context of it would wake: the contexts of a core are looked at from the one after the last, each once. -/
theorem State.wakeDue_of_canIssue {s : State} {core i : Nat} (hi : i < 4) (hg : (s.coreAt core).gated = true)
    (h : State.canIssue (s.setCoreAt core { s.coreAt core with gated := false }) (.ctx core i) = true) : s.wakeDue core = true := by
  have picked : ((s.setCoreAt core { s.coreAt core with gated := false }).pickOn core).isSome = true := by
    rw [State.pickOn, State.coreAt_setCoreAt_self, List.find?_isSome]
    refine ⟨.ctx core i, List.mem_map.2 ⟨(i + 3 - (s.coreAt core).last.toNat % 4) % 4, List.mem_range.2 (by omega), ?_⟩, h⟩
    congr 1
    change ((s.coreAt core).last.toNat + 1 + _) % 4 = i
    omega
  simp [State.wakeDue, hg, picked]

/-- C is entered where every context of the core is quiet, unless a replay is in progress (R397, R383). -/
theorem exec_powerCEntry_of_quiet {s : State} {core : Nat} (hc : core < s.numCores) (hq : s.quiet core = true)
    (hr : (s.coreAt core).dbg.replaying = false) :
    exec (.powerCEntry core) s = .next (s.setCoreAt core { s.coreAt core with gated := true }) := if_pos (by simp [hc, hq, hr])
theorem exec_powerCEntry_of_replaying {s : State} {core : Nat} (hr : (s.coreAt core).dbg.replaying = true) :
    exec (.powerCEntry core) s = .next s := if_neg (by simp [hr])
theorem exec_powerCExit_of_wakeDue {s : State} {core : Nat} (hc : core < s.numCores) (hw : s.wakeDue core = true) :
    exec (.powerCExit core) s = .next (s.setCoreAt core { s.coreAt core with gated := false }) := if_pos (by simp [hc, hw])
theorem exec_powerCExit_of_not_wakeDue {s : State} {core : Nat} (hw : s.wakeDue core = false) :
    exec (.powerCExit core) s = .next s := if_neg (by simp [hw])
theorem exec_powerSEntry_of_free {s : State} {die : Nat} (hd : die < s.numDies) (hb : s.dieBusy die = false) :
    exec (.powerSEntry die) s = .next (s.setDie die { s.die die with retention := true }) := if_pos (by simp [hd, hb])
theorem exec_powerSExit_of_lt {s : State} {die : Nat} (hd : die < s.numDies) :
    exec (.powerSExit die) s = .next (s.setDie die { s.die die with retention := false }) := if_pos hd
theorem exec_powerDEntry_of_no_runs {s : State} (h : s.runs = []) :
    exec .powerDEntry s = .next { s with dev := { s.dev with off := true } } := if_pos (by simp [h])
/-- D is left to stage 2, with the security state and the records that the monitor kept, and memory as at power-on (R397,
log 50). -/
theorem exec_powerDExit_of_off {s : State} (h : s.dev.off = true) :
    ∃ t, exec .powerDExit s = .next t ∧ t.dev.off = false ∧ t.dev.stage = 2 ∧ t.dev.security = s.dev.security ∧
      t.dev.records = s.dev.records ∧ t.mem = s.mem.filter (fun p => isHost p.1) ∧ t.runs = [] ∧ t.twoCards = s.twoCards := by
  obtain ⟨l, hl⟩ := s.rebooted_shape false
  refine ⟨_, if_pos h, ?_⟩
  rw [hl]
  exact ⟨rfl, rfl, rfl, rfl, rfl, rfl, rfl⟩

/-! ### Clocks and the watchdog (R398, R354) -/

theorem Card.exceeds_iff (c : Card) : c.exceeds = true ↔ c.capW < c.drawn ∨ 560 < c.drawnPkg := by simp [Card.exceeds]

theorem exec_clockStepDown_of_exceeds {s : State} {card : Nat} (hc : card < s.numCards) (h : (s.card card).exceeds = true) :
    exec (.clockStepDown card) s = .next (s.setCard card { s.card card with clock := (s.card card).clock.down }) :=
  if_pos (by simp [hc, h])
theorem exec_clockStepDown_of_not_exceeds {s : State} {card : Nat} (h : (s.card card).exceeds = false) :
    exec (.clockStepDown card) s = .next s := if_neg (by simp [h])
theorem exec_clockStepUp_of_exceeds {s : State} {card : Nat} (h : (s.card card).exceeds = true) :
    exec (.clockStepUp card) s = .next s := if_neg (by simp [h])
theorem exec_clockStepUp_of_not_exceeds {s : State} {card : Nat} (hc : card < s.numCards) (hr : s.reduced = false)
    (h : (s.card card).exceeds = false) :
    exec (.clockStepUp card) s = .next (s.setCard card { s.card card with clock := (s.card card).clock.up }) :=
  if_pos (by simp [hc, hr, h])
theorem exec_watchdogKick_of_lt {s : State} {card : Nat} (hc : card < s.numCards) :
    exec (.watchdogKick card) s = .next (s.setCard card { s.card card with lastKick := s.cardCycle card }) := if_pos hc
/-- 10 ms without a kick: no run is left, the command complex of the card is as at reset, and the host is told (R354). -/
theorem exec_watchdogExpiry_of_due {s : State} {card : Nat} (hc : card < s.numCards)
    (h : (s.card card).clock.tenMs ≤ (s.cardCycle card - (s.card card).lastKick).toNat) :
    ∃ t, exec (.watchdogExpiry card) s = .next t ∧ t.runs = [] ∧ t.dev.watchdogLost = true ∧ 4 ∈ t.dev.msix ∧
      (∀ x ∈ t.queues, queueCard x.1 ≠ card) ∧ (∀ x ∈ t.harts, x.1 / 4 ≠ card) := by
  refine ⟨_, if_pos (by rw [decide_eq_true hc, decide_eq_true h]; rfl), s.runs_foldl_forget, rfl,
    List.mem_append_right _ (List.mem_singleton.2 rfl), ?_, ?_⟩
  · exact fun x hx => bne_iff_ne.1 (List.mem_filter.1 hx).2
  · exact fun x hx => bne_iff_ne.1 (List.mem_filter.1 hx).2

/-! ### Device reset (R394, R383, R396) -/

/-- A device reset enters VENDOR: the monitor is there and verifies, and the records grant it. -/
def State.entersVendor (s : State) (monitorHere : Bool) (x : Security) : Bool :=
  monitorHere && verifies s.dev.flash.monitor && grantedSecurity s.dev.flash.used x = .vendor
theorem exec_deviceReset_eq (s : State) (monitorHere firmwareHere : Bool) (x : Security) :
    exec (.deviceReset monitorHere firmwareHere x) s =
      .next (((s.rebooted (!s.entersVendor monitorHere x)).setStatus 1 0 0).verified monitorHere firmwareHere x) := rfl
theorem State.entersVendor_iff (s : State) (monitorHere : Bool) (x : Security) :
    s.entersVendor monitorHere x = true ↔
      grantedSecurity (if monitorHere && verifies s.dev.flash.monitor then s.dev.flash.used else []) x = .vendor := by
  cases h : monitorHere && verifies s.dev.flash.monitor <;> simp [State.entersVendor, h, grantedSecurity_nil]

/-- A device reset as one record: what it takes over, and what verification makes of the device (R394, R286, log 50). -/
theorem exec_deviceReset_shape (s : State) (monitorHere firmwareHere : Bool) (x : Security) :
    let keep := !s.entersVendor monitorHere x
    let rs := if monitorHere && verifies s.dev.flash.monitor then s.dev.flash.used else []
    ∃ t, exec (.deviceReset monitorHere firmwareHere x) s = .next t ∧ t.runs = [] ∧ t.twoCards = s.twoCards ∧
      t.dev.flash = s.dev.flash ∧ t.dies = s.bootDies ∧ t.mem = s.mem.filter (fun p => keep || isHost p.1) ∧
      t.tags = s.tags.filter (fun p => keep || isHost (32 * p.1)) ∧ t.dev.records = rs ∧
      t.dev.security = grantedSecurity rs x ∧ (t.dev.stage, t.dev.code) =
        if monitorHere && verifies s.dev.flash.monitor && firmwareHere && verifies s.dev.flash.firmware then (2, 0) else (6, 1) := by
  intro keep rs
  obtain ⟨l, hl⟩ := s.rebooted_shape keep
  have flash : ((s.rebooted keep).setStatus 1 0 0).dev.flash = s.dev.flash := by rw [hl]; rfl
  obtain ⟨d, hd, hflash⟩ := ((s.rebooted keep).setStatus 1 0 0).verified_shape monitorHere firmwareHere x
  have records := ((s.rebooted keep).setStatus 1 0 0).verified_records monitorHere firmwareHere x
  have stage := ((s.rebooted keep).setStatus 1 0 0).verified_stage monitorHere firmwareHere x
  rw [flash] at hflash records stage
  refine ⟨_, exec_deviceReset_eq s _ _ _, ?_, ?_, ?_, ?_, ?_, ?_, records.1, records.2, stage⟩
  · rw [hd, hl]; rfl
  · rw [hd, hl]; rfl
  · rw [hd, hflash]
  · rw [hd, hl]; rfl
  · rw [hd, hl]; rfl
  · rw [hd, hl]; rfl

/-! ### Service (R15, R16, R205, R396) -/

theorem State.setBridge_setClocks_shape (s : State) (x : LinkState) (c : Clock) :
    ∃ l k, (s.setBridge x).setClocks c = { s with links := l, cards := k } := by
  obtain ⟨l, hl⟩ := s.setBridge_shape x
  obtain ⟨k, hk⟩ := (s.setBridge x).setClocks_shape c
  exact ⟨l, k, by rw [hk, hl]⟩
theorem State.numCards_setBridge (s : State) (x : LinkState) : (s.setBridge x).numCards = s.numCards := by
  obtain ⟨l, hl⟩ := s.setBridge_shape x
  rw [hl]; rfl

/-- Reduced service begins at 750 MHz with the bridge down and every lease but 0 free (R15, log 10). -/
theorem exec_reducedService_of_stage_two {s : State} (ho : s.dev.off = false) (h : s.dev.stage = 2) :
    ∃ t, exec .reducedService s = .next t ∧ t.dev.stage = 3 ∧ t.dev.code = 0 ∧ t.leases = { Leases.reset with head := 1 } ∧
      (∀ a, ¬ (Config.leaseTable ≤ a ∧ a < Config.leaseTable + 0x200000) → t.byteAt a = s.byteAt a) ∧
      (s.twoCards = true → (t.link (.bridge 0)).state = .down) ∧ ∀ k, k < s.numCards → (t.card k).clock = .mhz750 := by
  obtain ⟨l, k, hs⟩ := (s.initLeases.setStatus 3 0 0).setBridge_setClocks_shape .down .mhz750
  obtain ⟨k', hk⟩ := ((s.initLeases.setStatus 3 0 0).setBridge .down).setClocks_shape .mhz750
  have run : exec .reducedService s = .next (((s.initLeases.setStatus 3 0 0).setBridge .down).setClocks .mhz750) :=
    (if_neg (by simp [ho])).trans (if_pos h)
  refine ⟨_, run, by rw [hs]; rfl, by rw [hs]; rfl, by rw [hs]; rfl, fun a ha => ?_, fun two => ?_, fun n hn => ?_⟩
  · rw [hs]; exact s.byteAt_initLeases a ha
  · rw [hk]; exact State.link_setBridge (s.initLeases.setStatus 3 0 0) .down two
  · rw [State.card_setClocks _ _ (by rw [State.numCards_setBridge]; exact hn)]
theorem exec_reducedService_of_stage_three {s : State} (ho : s.dev.off = false) (h : s.dev.stage = 3) (hc : s.dev.code = 0) :
    exec .reducedService s = .next (s.setStatus 4 0 0) :=
  (if_neg (by simp [ho])).trans ((if_neg (by rw [h]; decide)).trans (if_pos (by simp [h, hc])))
theorem exec_trainingFailure_of_stage_four {s : State} {code unit : Nat} (h : s.dev.stage = 4) (hlo : 2 ≤ code) (hhi : code ≤ 5) :
    exec (.trainingFailure code unit) s = .next (s.setStatus 3 (BitVec.ofNat 8 code) (BitVec.ofNat 16 unit)) :=
  if_pos (by simp [h, hlo, hhi])

/-- A die's and a card's counters as full service begins (R16, R205). -/
def Die.restarted (d : Die) : Die := { d with cycle := 0, refreshStart := 0, refreshing := none }.freshSlices
def Card.restarted (c : Card) : Card := { c with lastKick := 0, heldCycles := [], intervalStart := 0 }
/-- The dies and the cards with their counters at 0. -/
def State.restartClocks (s : State) : State :=
  let t := (List.range s.numDies).foldl (fun s d => s.setDie d (s.die d).restarted) s
  (List.range t.numCards).foldl (fun s k => s.setCard k (s.card k).restarted) t
/-- SWEEPEP at 0, and no run that left is charged any more. -/
def State.restartSweep (s : State) : State :=
  let t := s.writeWord Config.sweepCell 0
  { t with dev := { t.dev with gone := [] } }
theorem exec_fullService_eq {s : State} (h : s.dev.stage = 4) (hc : s.dev.code = 0) (ho : s.dev.off = false) :
    exec .fullService s = .next (((s.endService.initLeases.restartClocks.restartSweep.setBridge .up).setClocks .mhz1500).setStatus
      5 0 0) := if_pos (by simp [h, hc, ho])

theorem State.restartClocks_shape (s : State) : ∃ d k, s.restartClocks = { s with dies := d, cards := k } ∧
    ∀ n, n < s.numDies → (s.restartClocks.die n).cycle = 0 ∧ (s.restartClocks.die n).refreshing = none := by
  obtain ⟨d, hd⟩ := s.foldl_setDie_shape Die.restarted (List.range s.numDies)
  obtain ⟨k, hk⟩ := ((List.range s.numDies).foldl (fun s d => s.setDie d (s.die d).restarted) s).foldl_setCard_shape
    Card.restarted (List.range (State.numCards _))
  refine ⟨d, k, hk.trans (by rw [hd]), fun n hn => ?_⟩
  have restarted : s.restartClocks.die n = (s.die n).restarted :=
    (congrArg (State.die · n) hk).trans ((s.die_foldl_setDie Die.restarted s.numDies n).trans (if_pos hn))
  rw [restarted]
  exact ⟨rfl, rfl⟩
theorem State.initLeases_leases (s : State) : s.initLeases.leases = { Leases.reset with head := 1 } := rfl
theorem State.initLeases_twoCards (s : State) : s.initLeases.twoCards = s.twoCards := rfl
theorem State.restartSweep_twoCards (s : State) : s.restartSweep.twoCards = s.twoCards := s.writeHome_twoCards _ _
theorem State.restartSweep_leases (s : State) : s.restartSweep.leases = s.leases := s.writeHome_leases _ _
theorem State.restartSweep_dies (s : State) : s.restartSweep.dies = s.dies := s.writeHome_dies _ _
theorem State.bytesAt_restartSweep (s : State) : s.restartSweep.bytesAt Config.sweepCell 8 = List.replicate 8 0 :=
  s.bytesAt_writeHome_self Config.sweepCell (leBytes 8 (0 : Word).toNat)

/-- The last part of FULL_SERVICE: the bridge, the clocks and DEVSTAT (R16, R396). -/
theorem State.raiseService_shape (s : State) : ∃ l k,
    ((s.setBridge .up).setClocks .mhz1500).setStatus 5 0 0 = ({ s with links := l, cards := k } : State).setStatus 5 0 0 ∧
    ∀ n, n < s.numCards → ((((s.setBridge .up).setClocks .mhz1500).setStatus 5 0 0).card n).clock = .mhz1500 := by
  obtain ⟨l, k, h⟩ := s.setBridge_setClocks_shape .up .mhz1500
  refine ⟨l, k, by rw [h], fun n hn => ?_⟩
  show (((s.setBridge .up).setClocks .mhz1500).card n).clock = .mhz1500
  rw [State.card_setClocks _ _ (by rw [State.numCards_setBridge]; exact hn)]

/-- Full service begins at 1,500 MHz with CYCLE, the refresh timers and the epoch counter at 0 (R16, R205, R70). -/
theorem exec_fullService_of_trained {s : State} (h : s.dev.stage = 4) (hc : s.dev.code = 0) (ho : s.dev.off = false) :
    ∃ t, exec .fullService s = .next t ∧ t.dev.stage = 5 ∧ t.dev.code = 0 ∧ t.leases = { Leases.reset with head := 1 } ∧
      (∀ d, d < s.numDies → (t.die d).cycle = 0 ∧ (t.die d).refreshing = none) ∧
      (∀ k, k < s.numCards → (t.card k).clock = .mhz1500) ∧ t.bytesAt Config.sweepCell 8 = List.replicate 8 0 := by
  have numDies : s.endService.initLeases.numDies = s.numDies := by
    rw [State.numDies, State.numDies, State.initLeases_twoCards, s.endService_twoCards]
  have leases := s.endService.initLeases_leases
  rw [exec_fullService_eq h hc ho]
  generalize s.endService.initLeases = fresh at numDies leases
  obtain ⟨d, k, hr, dies⟩ := fresh.restartClocks_shape
  have numCards : fresh.restartClocks.restartSweep.numCards = s.numCards := by
    rw [State.numCards, State.numCards, ← numDies, State.numDies, State.numDies, State.restartSweep_twoCards, hr]
  have sweep := fresh.restartClocks.bytesAt_restartSweep
  have kept : fresh.restartClocks.restartSweep.leases = { Leases.reset with head := 1 } := by
    rw [State.restartSweep_leases, hr, leases]
  have counters (n : Nat) (hn : n < s.numDies) : (fresh.restartClocks.restartSweep.die n).cycle = 0 ∧
      (fresh.restartClocks.restartSweep.die n).refreshing = none := by
    rw [State.die, State.restartSweep_dies]
    exact dies n (numDies ▸ hn)
  generalize fresh.restartClocks.restartSweep = full at numCards sweep kept counters
  obtain ⟨l, k', hs, clocks⟩ := full.raiseService_shape
  rw [numCards] at clocks
  exact ⟨_, rfl, by rw [hs]; rfl, by rw [hs]; rfl, by rw [hs]; exact kept, by rw [hs]; exact counters, clocks,
    by rw [hs]; exact sweep⟩

/-! ### The obligation -/

/-- Settles O48: each event by its lemma above. -/
theorem powerAndBootEvents : Obligations.PowerAndBootEvents := by
  unfold Obligations.PowerAndBootEvents
  refine ⟨fun s core hc => ?_, fun s die hd => ?_, fun s => ?_, fun s card hc => ?_, fun s monitorHere firmwareHere x => ?_,
    fun s ho => ?_, fun s code unit => ?_, fun s => ?_⟩
  · exact ⟨exec_powerCEntry_of_quiet hc, exec_powerCEntry_of_replaying, exec_powerCExit_of_wakeDue hc,
      exec_powerCExit_of_not_wakeDue, fun i => State.wakeDue_of_canIssue⟩
  · exact ⟨exec_powerSEntry_of_free hd, exec_powerSExit_of_lt hd⟩
  · exact ⟨exec_powerDEntry_of_no_runs, exec_powerDExit_of_off⟩
  · intro c above
    have below (h : ¬ above) : c.exceeds = false := Bool.eq_false_iff.2 (fun e => h (c.exceeds_iff.1 e))
    exact ⟨fun h => ⟨exec_clockStepDown_of_exceeds hc (c.exceeds_iff.2 h), exec_clockStepUp_of_exceeds (c.exceeds_iff.2 h)⟩,
      fun h => ⟨exec_clockStepDown_of_not_exceeds (below h), fun hr => exec_clockStepUp_of_not_exceeds hc hr (below h)⟩,
      exec_watchdogKick_of_lt hc, exec_watchdogExpiry_of_due hc⟩
  · obtain ⟨t, run, runs, two, flash, dies, mem, tags, records, security, stage⟩ :=
      exec_deviceReset_shape s monitorHere firmwareHere x
    refine ⟨t, run, runs, two, flash, ⟨fun hm => ?_, fun hm => ?_, fun hmf => ?_, fun hmf => ?_⟩, fun hv => ?_, fun hv => ?_,
      fun d hd => ?_⟩
    · rw [records, security]; simp [hm, Flash.used]
    · have : (monitorHere && verifies s.dev.flash.monitor) = false := by simpa using hm
      rw [records, security]; simp [this, grantedSecurity_nil]
    · obtain ⟨⟨hm, hmv⟩, hf, hfv⟩ := hmf
      simpa [hm, hmv, hf, hfv] using stage
    · rw [if_neg (by simpa [and_assoc] using hmf)] at stage
      simpa using stage
    · have out : s.entersVendor monitorHere x = false :=
        Bool.eq_false_iff.2 (fun e => hv (security.trans ((s.entersVendor_iff _ _).1 e)))
      rw [mem, tags]; simp [out]
    · have enters : s.entersVendor monitorHere x = true := (s.entersVendor_iff _ _).2 (security.symm.trans hv)
      rw [mem, tags]; simp [enters]
    · rw [State.die, dies]; exact s.get_bootDies hd
  · exact ⟨exec_reducedService_of_stage_two ho, exec_reducedService_of_stage_three ho⟩
  · exact exec_trainingFailure_of_stage_four
  · exact exec_fullService_of_trained

end Sys2Proof.Machine
end

section
/-! What a word of each format holds: a parcel is the one a format builds exactly when it reads back as the fields (R27). -/

namespace Sys2Proof

theorem append_eq_iff {v w : Nat} {x : BitVec v} {y : BitVec w} {z : BitVec (v + w)} :
    x ++ y = z ↔ z.extractLsb' w v = x ∧ z.extractLsb' 0 w = y := by
  constructor
  · rintro rfl
    exact ⟨BitVec.extractLsb'_append_eq_left, BitVec.extractLsb'_append_eq_right⟩
  · rintro ⟨rfl, rfl⟩
    exact (BitVec.extractLsb'_append_extractLsb'_eq_extractLsb' (by simp)).trans (by simp)

theorem extract_eq_append_iff {u k v w : Nat} {x : BitVec v} {y : BitVec w} {z : BitVec u} :
    z.extractLsb' k (v + w) = x ++ y ↔ z.extractLsb' (k + w) v = x ∧ z.extractLsb' k w = y := by
  have high : (z.extractLsb' k (v + w)).extractLsb' w v = z.extractLsb' (k + w) v := by
    ext i hi; simp [Nat.add_assoc]; omega
  have low : (z.extractLsb' k (v + w)).extractLsb' 0 w = z.extractLsb' k w := by
    ext i hi; simp; omega
  rw [eq_comm, append_eq_iff, high, low]

theorem extract_eq_ofBool_iff {u k : Nat} {b : Bool} {z : BitVec u} :
    z.extractLsb' k 1 = BitVec.ofBool b ↔ z.getLsbD k = b := by
  cases b <;> simp [BitVec.eq_of_getLsbD_eq_iff]

theorem extract_eq_zero_iff {u k : Nat} {z : BitVec u} : z.extractLsb' k 1 = 0#1 ↔ z.getLsbD k = false :=
  extract_eq_ofBool_iff (b := false)

/-! ### Formats of one parcel -/

theorem Enc.a_eq_iff {fn9 : BitVec 9} {b a d : BitVec 5} {major : BitVec 6} {p : Parcel} :
    Enc.a fn9 b a d major = p ↔ p.extractLsb' 23 9 = fn9 ∧ p.extractLsb' 18 5 = b ∧ p.extractLsb' 13 5 = a ∧
      p.extractLsb' 8 5 = d ∧ p.extractLsb' 2 6 = major ∧ p.extractLsb' 0 2 = 0#2 := by
  rw [Enc.a, append_eq_iff]
  repeat rw [extract_eq_append_iff]
  simp only [and_assoc]

theorem Enc.x_eq_iff {fn9 : BitVec 9} {b a d : BitVec 5} {major : BitVec 6} {p : Parcel} :
    Enc.x fn9 b a d major = p ↔ p.extractLsb' 23 9 = fn9 ∧ p.extractLsb' 18 5 = b ∧ p.extractLsb' 13 5 = a ∧
      p.extractLsb' 8 5 = d ∧ p.extractLsb' 2 6 = major ∧ p.extractLsb' 0 2 = 1#2 := by
  rw [Enc.x, append_eq_iff]
  repeat rw [extract_eq_append_iff]
  simp only [and_assoc]

theorem Enc.s_eq_iff {imm : BitVec 10} {fn4 : BitVec 4} {a d : BitVec 5} {major : BitVec 6} {p : Parcel} :
    Enc.s imm fn4 a d major = p ↔ p.extractLsb' 22 10 = imm ∧ p.extractLsb' 18 4 = fn4 ∧ p.extractLsb' 13 5 = a ∧
      p.extractLsb' 8 5 = d ∧ p.extractLsb' 2 6 = major ∧ p.extractLsb' 0 2 = 0#2 := by
  rw [Enc.s, append_eq_iff]
  repeat rw [extract_eq_append_iff]
  simp only [and_assoc]

theorem Enc.i_eq_iff {imm : BitVec 14} {a d : BitVec 5} {major : BitVec 6} {p : Parcel} :
    Enc.i imm a d major = p ↔ p.extractLsb' 18 14 = imm ∧ p.extractLsb' 13 5 = a ∧ p.extractLsb' 8 5 = d ∧
      p.extractLsb' 2 6 = major ∧ p.extractLsb' 0 2 = 0#2 := by
  rw [Enc.i, append_eq_iff]
  repeat rw [extract_eq_append_iff]
  simp only [and_assoc]

theorem Enc.j_eq_iff {off : BitVec 19} {d : BitVec 5} {major : BitVec 6} {p : Parcel} :
    Enc.j off d major = p ↔ p.extractLsb' 13 19 = off ∧ p.extractLsb' 8 5 = d ∧ p.extractLsb' 2 6 = major ∧
      p.extractLsb' 0 2 = 0#2 := by
  rw [Enc.j, append_eq_iff]
  repeat rw [extract_eq_append_iff]
  simp only [and_assoc]

/-- fn9 as short window floating point cuts it: the width bit and fn8 (R31). -/
theorem extract_fn9_eq_iff {p : Parcel} {dbl : Bool} {fn : BitVec 8} :
    p.extractLsb' 23 9 = BitVec.ofBool dbl ++ fn ↔ p.getLsbD 31 = dbl ∧ p.extractLsb' 23 8 = fn := by
  rw [← extract_eq_ofBool_iff]
  exact extract_eq_append_iff (v := 1) (w := 8)

/-! ### Formats of two parcels -/

theorem Enc.f_eq_iff {fn : BitVec 8} {f : FFields} {p0 p1 : Parcel} :
    Enc.f fn f = [p0, p1] ↔ Dec.f p0 p1 = f ∧ p0.extractLsb' 23 8 = fn ∧ p1.extractLsb' 24 8 = 0#8 ∧
      p0.extractLsb' 2 6 = 14#6 ∧ p0.extractLsb' 0 2 = 1#2 := by
  cases f
  rw [Enc.f, List.cons.injEq, List.cons.injEq, Enc.x_eq_iff, append_eq_iff, extract_fn9_eq_iff]
  repeat rw [extract_eq_append_iff]
  simp only [Dec.f, FFields.mk.injEq]
  tauto

theorem Enc.m_eq_iff {fn5 : BitVec 5} {major : BitVec 6} {f : MFields} {p0 p1 : Parcel} :
    Enc.m fn5 major f = [p0, p1] ↔ Dec.m p0 p1 = f ∧ p0.extractLsb' 22 5 = fn5 ∧ p0.extractLsb' 30 2 = 0#2 ∧
      p0.extractLsb' 2 6 = major ∧ p0.extractLsb' 0 2 = 1#2 := by
  cases f
  rw [Enc.m, List.cons.injEq, List.cons.injEq, append_eq_iff, append_eq_iff]
  repeat rw [extract_eq_append_iff]
  simp only [Dec.m, MFields.mk.injEq]
  tauto

theorem Enc.q_eq_iff {fn5 : BitVec 5} {major : BitVec 6} {f : QFields} {p0 p1 : Parcel} :
    Enc.q fn5 major f = [p0, p1] ↔ Dec.q p0 p1 = f ∧ p0.extractLsb' 22 5 = fn5 ∧ p0.extractLsb' 30 2 = 0#2 ∧
      p0.extractLsb' 2 6 = major ∧ p0.extractLsb' 0 2 = 1#2 := by
  cases f
  rw [Enc.q, List.cons.injEq, List.cons.injEq, append_eq_iff]
  repeat rw [extract_eq_append_iff]
  simp only [Dec.q, QFields.mk.injEq, extract_eq_ofBool_iff, eq_comm (b := p1)]
  tauto

theorem Enc.mq_eq_iff {fn5 : BitVec 5} {f : MQFields} {p0 p1 : Parcel} :
    Enc.mq fn5 f = [p0, p1] ↔ Dec.mq p0 p1 = f ∧ p0.extractLsb' 22 5 = fn5 ∧ p0.extractLsb' 30 2 = 0#2 ∧
      p0.extractLsb' 2 6 = 12#6 ∧ p0.extractLsb' 0 2 = 1#2 := by
  cases f
  rw [Enc.mq, List.cons.injEq, List.cons.injEq, append_eq_iff]
  repeat rw [extract_eq_append_iff]
  simp only [Dec.mq, MQFields.mk.injEq, eq_comm (b := p1)]
  tauto

theorem Enc.c_eq_iff {fn5 : BitVec 5} {f : CFields} {p0 p1 : Parcel} :
    Enc.c fn5 f = [p0, p1] ↔ Dec.c p0 p1 = f ∧ p0.extractLsb' 26 5 = fn5 ∧ p0.getLsbD 31 = false ∧
      p0.extractLsb' 2 6 = 7#6 ∧ p0.extractLsb' 0 2 = 1#2 := by
  cases f
  rw [Enc.c, List.cons.injEq, List.cons.injEq, append_eq_iff]
  repeat rw [extract_eq_append_iff]
  simp only [Dec.c, CFields.mk.injEq, extract_eq_zero_iff, eq_comm (b := p1)]
  tauto

theorem Enc.v_eq_iff {fn5 : BitVec 5} {fn9b : BitVec 9} {f : VFields} {p0 p1 : Parcel} :
    Enc.v fn5 fn9b f = [p0, p1] ↔ Dec.v p0 p1 = f ∧ p0.extractLsb' 23 5 = fn5 ∧ p1.extractLsb' 15 9 = fn9b ∧
      p0.extractLsb' 28 4 = 0#4 ∧ p0.extractLsb' 2 6 = 8#6 ∧ p0.extractLsb' 0 2 = 1#2 := by
  cases f
  rw [Enc.v, List.cons.injEq, List.cons.injEq, append_eq_iff, append_eq_iff]
  repeat rw [extract_eq_append_iff]
  simp only [Dec.v, extract_eq_ofBool_iff, VFields.mk.injEq]
  tauto

/-! ### Formats of three parcels -/

theorem Enc.w_eq_iff {fn5 : BitVec 5} {f : WFields} {p0 p1 p2 : Parcel} :
    Enc.w fn5 f = [p0, p1, p2] ↔ Dec.w p0 p1 p2 = f ∧ p0.extractLsb' 20 5 = fn5 ∧ p2.getLsbD 31 = false ∧
      p0.extractLsb' 2 6 = 1#6 ∧ p0.extractLsb' 0 2 = 2#2 := by
  cases f
  rw [Enc.w, List.cons.injEq, List.cons.injEq, List.cons.injEq, append_eq_iff, append_eq_iff, append_eq_iff]
  repeat rw [extract_eq_append_iff]
  simp only [Dec.w, extract_eq_ofBool_iff, extract_eq_zero_iff, WFields.mk.injEq]
  tauto

theorem Enc.k_eq_iff {f : KFields} {p0 p1 p2 : Parcel} :
    Enc.k f = [p0, p1, p2] ↔ Dec.k p0 p1 p2 = f ∧ p0.extractLsb' 16 16 = 0#16 ∧ p2.extractLsb' 16 16 = 0#16 ∧
      p0.extractLsb' 2 6 = 2#6 ∧ p0.extractLsb' 0 2 = 2#2 := by
  cases f
  rw [Enc.k, List.cons.injEq, List.cons.injEq, List.cons.injEq, append_eq_iff, append_eq_iff]
  repeat rw [extract_eq_append_iff]
  simp only [Dec.k, KFields.mk.injEq, eq_comm (b := p1)]
  tauto

theorem Enc.g_eq_iff {f : GFields} {p0 p1 p2 : Parcel} :
    Enc.g f = [p0, p1, p2] ↔ Dec.g p0 p1 p2 = f ∧ p1.extractLsb' 26 6 = 0#6 ∧ p2.extractLsb' 24 8 = 0#8 ∧
      p0.extractLsb' 2 6 = 3#6 ∧ p0.extractLsb' 0 2 = 2#2 := by
  cases f
  rw [Enc.g, List.cons.injEq, List.cons.injEq, List.cons.injEq, append_eq_iff, append_eq_iff, append_eq_iff]
  repeat rw [extract_eq_append_iff]
  simp only [Dec.g, extract_eq_ofBool_iff, GFields.mk.injEq]
  tauto

theorem Enc.l_eq_iff {d : BitVec 5} {imm : BitVec 64} {p0 p1 p2 : Parcel} :
    Enc.l d imm = [p0, p1, p2] ↔ p0.extractLsb' 8 5 = d ∧ p2 ++ p1 = imm ∧ p0.extractLsb' 13 19 = 0#19 ∧
      p0.extractLsb' 2 6 = 0#6 ∧ p0.extractLsb' 0 2 = 2#2 := by
  rw [Enc.l, List.cons.injEq, List.cons.injEq, List.cons.injEq, append_eq_iff, append_eq_iff]
  repeat rw [extract_eq_append_iff]
  tauto

end Sys2Proof
end

section
/-! What the decoder's tables answer: an instruction whose words hold the sub-code and the operands the table was given
(R31 to R34). -/

namespace Sys2Proof

theorem Dec.when_eq_ok {zero : Bool} {i j : Instr} : Dec.when zero i = .ok j ↔ zero = true ∧ i = j := by
  cases zero <;> simp [Dec.when]

/-- An entry guarded by zero fields. -/
theorem encode_of_when {zero : Bool} {i j : Instr} {ps : List Parcel} (words : encode i = ps) (h : Dec.when zero i = .ok j) :
    zero = true ∧ encode j = ps := by
  obtain ⟨hz, rfl⟩ := Dec.when_eq_ok.1 h
  exact ⟨hz, words⟩

/-- An entry guarded by an unused field, which its words hold as 0. -/
theorem encode_of_unused {w : Nat} {x : BitVec w} {i j : Instr} {ps : BitVec w → List Parcel} (words : encode i = ps 0)
    (h : Dec.when (x == 0) i = .ok j) : encode j = ps x := by
  obtain ⟨hz, rfl⟩ := Dec.when_eq_ok.1 h
  rw [words, eq_of_beq hz]

/-- An entry guarded by nothing. -/
theorem encode_of_ok {i j : Instr} {ps : List Parcel} (words : encode i = ps) (h : Except.ok (ε := DecodeError) i = .ok j) :
    encode j = ps := by
  cases h
  exact words

/-! ### Tables whose entries all have the same zero field -/

theorem encode_of_fpLong {n : Nat} {f : FFields} {zero : Bool} {i : Instr} (h : Dec.fpLong n f zero = .ok i) :
    zero = true ∧ encode i = Enc.f (BitVec.ofNat 8 n) f := by
  unfold Dec.fpLong at h
  split at h
  case h_20 => cases h
  all_goals exact encode_of_when rfl h

theorem encode_of_mem {n : Nat} {f : MFields} {zero : Bool} {i : Instr} (h : Dec.mem n f zero = .ok i) :
    zero = true ∧ encode i = Enc.m (BitVec.ofNat 5 n) 1 f := by
  unfold Dec.mem at h
  split at h
  case h_8 => cases h
  all_goals exact encode_of_when rfl h

theorem encode_of_atomic {n : Nat} {f : MFields} {zero : Bool} {i : Instr} (h : Dec.atomic n f zero = .ok i) :
    zero = true ∧ encode i = Enc.m (BitVec.ofNat 5 n) 2 f := by
  unfold Dec.atomic at h
  split at h
  case h_12 => cases h
  all_goals exact encode_of_when rfl h

theorem encode_of_vmem {n : Nat} {f : MFields} {zero : Bool} {i : Instr} (h : Dec.vmem n f zero = .ok i) :
    zero = true ∧ encode i = Enc.m (BitVec.ofNat 5 n) 9 f := by
  unfold Dec.vmem at h
  split at h
  case h_5 => cases h
  all_goals exact encode_of_when rfl h

theorem encode_of_sync {n : Nat} {f : QFields} {zero : Bool} {i : Instr} (h : Dec.sync n f zero = .ok i) :
    zero = true ∧ encode i = Enc.q (BitVec.ofNat 5 n) 3 f := by
  unfold Dec.sync at h
  split at h
  case h_11 => cases h
  all_goals exact encode_of_when rfl h

theorem encode_of_msg {n : Nat} {f : QFields} {zero : Bool} {i : Instr} (h : Dec.msg n f zero = .ok i) :
    zero = true ∧ encode i = Enc.q (BitVec.ofNat 5 n) 4 f := by
  unfold Dec.msg at h
  split at h
  case h_6 => cases h
  all_goals exact encode_of_when rfl h

theorem encode_of_board {n : Nat} {f : QFields} {zero : Bool} {i : Instr} (h : Dec.board n f zero = .ok i) :
    zero = true ∧ encode i = Enc.q (BitVec.ofNat 5 n) 5 f := by
  unfold Dec.board at h
  split at h
  case h_5 => cases h
  all_goals exact encode_of_when rfl h

theorem encode_of_impose {n : Nat} {f : QFields} {zero : Bool} {i : Instr} (h : Dec.impose n f zero = .ok i) :
    zero = true ∧ encode i = Enc.q (BitVec.ofNat 5 n) 6 f := by
  unfold Dec.impose at h
  split at h
  case h_6 => cases h
  all_goals exact encode_of_when rfl h

theorem encode_of_engine {n : Nat} {f : QFields} {zero : Bool} {i : Instr} (h : Dec.engine n f zero = .ok i) :
    zero = true ∧ encode i = Enc.q (BitVec.ofNat 5 n) 11 f := by
  unfold Dec.engine at h
  split at h
  case h_3 => cases h
  all_goals exact encode_of_when rfl h

theorem encode_of_cont {n : Nat} {f : QFields} {zero : Bool} {i : Instr} (h : Dec.cont n f zero = .ok i) :
    zero = true ∧ encode i = Enc.q (BitVec.ofNat 5 n) 13 f := by
  unfold Dec.cont at h
  split at h
  case h_3 => cases h
  all_goals exact encode_of_when rfl h

theorem encode_of_derive {n : Nat} {f : CFields} {zero : Bool} {i : Instr} (h : Dec.derive n f zero = .ok i) :
    zero = true ∧ encode i = Enc.c (BitVec.ofNat 5 n) f := by
  unfold Dec.derive at h
  split at h
  case h_8 => cases h
  all_goals exact encode_of_when rfl h

theorem encode_of_matrix {n : Nat} {f : MQFields} {zero : Bool} {i : Instr} (h : Dec.matrix n f zero = .ok i) :
    zero = true ∧ encode i = Enc.mq (BitVec.ofNat 5 n) f := by
  unfold Dec.matrix at h
  split at h
  case h_7 => cases h
  all_goals exact encode_of_when rfl h

theorem encode_of_sweep {n : Nat} {f : WFields} {zero : Bool} {i : Instr} (h : Dec.sweep n f zero = .ok i) :
    zero = true ∧ encode i = Enc.w (BitVec.ofNat 5 n) f := by
  unfold Dec.sweep at h
  split at h
  case h_10 => cases h
  all_goals exact encode_of_when rfl h

theorem encode_of_vector {g n : Nat} {f : VFields} {zero : Bool} {i : Instr} (h : Dec.vector g n f zero = .ok i) :
    zero = true ∧ encode i = Enc.v (BitVec.ofNat 5 g) (BitVec.ofNat 9 n) f := by
  unfold Dec.vector at h
  split at h
  case h_40 => cases h
  all_goals exact encode_of_when rfl h

/-! ### Tables of one parcel and of format X, whose entries leave different fields unused -/

theorem encode_of_alu {n : Nat} {d a b : BitVec 5} {i : Instr} (h : Dec.alu n d a b = .ok i) :
    encode i = [Enc.a (BitVec.ofNat 9 n) b a d 0] := by
  unfold Dec.alu at h
  split at h
  case h_23 | h_24 | h_25 => exact encode_of_unused (ps := fun b => [Enc.a _ b a d 0]) rfl h
  case h_27 => cases h
  all_goals exact encode_of_ok rfl h

theorem encode_of_fp {n : Nat} {dbl : Bool} {d a b : BitVec 5} {i : Instr} (h : Dec.fp n dbl d a b = .ok i) :
    encode i = [Enc.a (BitVec.ofBool dbl ++ BitVec.ofNat 8 n) b a d 17] := by
  unfold Dec.fp at h
  split at h
  case h_1 | h_2 | h_3 | h_4 | h_6 | h_7 | h_8 | h_9 | h_10 | h_11 => exact encode_of_ok rfl h
  case h_20 => cases h
  all_goals exact encode_of_unused (ps := fun b => [Enc.a (BitVec.ofBool dbl ++ BitVec.ofNat 8 _) b a d 17]) rfl h

theorem encode_of_sys {n : Nat} {imm : BitVec 10} {a d : BitVec 5} {i : Instr} (h : Dec.sys n imm a d = .ok i) :
    encode i = [Enc.s imm (BitVec.ofNat 4 n) a d 18] := by
  unfold Dec.sys at h
  split at h
  case h_2 | h_3 | h_4 => exact encode_of_ok rfl h
  case h_14 => cases h
  all_goals
    simp only [Dec.when_eq_ok, Bool.and_eq_true, beq_iff_eq] at h
    obtain ⟨unused, rfl⟩ := h
    simp only [unused]
    rfl

theorem encode_of_cap {n : Nat} {d a b : BitVec 5} {i : Instr} (h : Dec.cap n d a b = .ok i) :
    encode i = [Enc.a (BitVec.ofNat 9 n) b a d 19] := by
  unfold Dec.cap at h
  split at h
  case h_3 | h_4 | h_10 | h_11 | h_12 | h_13 => exact encode_of_ok rfl h
  case h_9 =>
    simp only [Dec.when_eq_ok, Bool.and_eq_true, beq_iff_eq] at h
    obtain ⟨⟨rfl, rfl⟩, rfl⟩ := h
    rfl
  case h_14 => cases h
  all_goals exact encode_of_unused (ps := fun b => [Enc.a _ b a d 19]) rfl h

theorem encode_of_wide {major n : Nat} {b a d : BitVec 5} {imm : BitVec 32} {i : Instr}
    (h : Dec.wide major n b a d imm = .ok i) : encode i = [Enc.x (BitVec.ofNat 9 n) b a d (BitVec.ofNat 6 major), imm] := by
  unfold Dec.wide at h
  split at h
  case h_5 =>
    simp only [Dec.when_eq_ok, Bool.and_eq_true, beq_iff_eq] at h
    obtain ⟨⟨rfl, rfl⟩, rfl⟩ := h
    rfl
  case h_8 => cases h
  all_goals exact encode_of_unused (ps := fun b => [Enc.x _ b a d _, imm]) rfl h

end Sys2Proof
end

section
/-! A word that decodes is the encoding of what the decoder answers: no bit of it is dropped (R18, R27, R30). -/

namespace Sys2Proof

theorem singleton_eq {p q : Parcel} (h : p = q) : [p] = [q] := congrArg (fun x => [x]) h

theorem eq_ofNat_toNat {w : Nat} (x : BitVec w) : x = BitVec.ofNat w x.toNat := by simp

/-- imm14 of a shift by a constant: zeros, the kind, the amount (R211). -/
theorem imm14_of_shift {imm : BitVec 14} {kind : BitVec 2} (high : (imm.extractLsb' 8 6 == 0) = true)
    (mid : (imm.extractLsb' 6 2).toNat = kind.toNat) : 0#6 ++ kind ++ imm.extractLsb' 0 6 = imm :=
  append_eq_iff.2 ⟨extract_eq_append_iff.2 ⟨eq_of_beq high, BitVec.eq_of_toNat_eq mid⟩, rfl⟩

theorem encode_of_shift {p : Parcel} {i j : Instr} {kind : BitVec 2}
    (words : encode i = [Enc.i (0#6 ++ kind ++ (p.extractLsb' 18 14).extractLsb' 0 6) (p.extractLsb' 13 5) (p.extractLsb' 8 5) 7])
    (major : (p.extractLsb' 2 6).toNat = 7) (length : p.extractLsb' 0 2 = 0#2)
    (mid : ((p.extractLsb' 18 14).extractLsb' 6 2).toNat = kind.toNat)
    (h : Dec.when ((p.extractLsb' 18 14).extractLsb' 8 6 == 0) i = .ok j) : encode j = [p] := by
  obtain ⟨high, rfl⟩ := Dec.when_eq_ok.1 h
  rw [words, imm14_of_shift high mid]
  exact singleton_eq (Enc.i_eq_iff.2 ⟨rfl, rfl, rfl, BitVec.eq_of_toNat_eq major, length⟩)

theorem Enc.a_fp {p : Parcel} {fn : BitVec 8} {major : BitVec 6} (hfn : p.extractLsb' 23 8 = fn)
    (hmajor : p.extractLsb' 2 6 = major) (length : p.extractLsb' 0 2 = 0#2) :
    Enc.a (BitVec.ofBool (p.getLsbD 31) ++ fn) (p.extractLsb' 18 5) (p.extractLsb' 13 5) (p.extractLsb' 8 5) major = p :=
  Enc.a_eq_iff.2 ⟨extract_fn9_eq_iff.2 ⟨rfl, hfn⟩, rfl, rfl, rfl, hmajor, length⟩

theorem encode_of_one {p : Parcel} {i : Instr} (length : p.extractLsb' 0 2 = 0#2) (h : Dec.one p = .ok i) : encode i = [p] := by
  dsimp only [Dec.one] at h
  split at h <;> rename_i major
  case h_1 =>
    rw [encode_of_alu h, ← eq_ofNat_toNat]
    exact singleton_eq (Enc.a_eq_iff.2 ⟨rfl, rfl, rfl, rfl, BitVec.eq_of_toNat_eq major, length⟩)
  case h_8 =>
    split at h
    case h_4 => cases h
    all_goals exact encode_of_shift rfl major length ‹_› h
  case h_15 =>
    cases h
    exact singleton_eq (Enc.j_eq_iff.2 ⟨rfl, rfl, BitVec.eq_of_toNat_eq major, length⟩)
  case h_17 =>
    obtain ⟨unused, rfl⟩ := Dec.when_eq_ok.1 h
    exact singleton_eq (Enc.i_eq_iff.2 ⟨rfl, eq_of_beq unused, rfl, BitVec.eq_of_toNat_eq major, length⟩)
  case h_18 =>
    rw [encode_of_fp h, ← eq_ofNat_toNat]
    exact singleton_eq (Enc.a_fp rfl (BitVec.eq_of_toNat_eq major) length)
  case h_19 =>
    rw [encode_of_sys h, ← eq_ofNat_toNat]
    exact singleton_eq (Enc.s_eq_iff.2 ⟨rfl, rfl, rfl, rfl, BitVec.eq_of_toNat_eq major, length⟩)
  case h_20 =>
    rw [encode_of_cap h, ← eq_ofNat_toNat]
    exact singleton_eq (Enc.a_eq_iff.2 ⟨rfl, rfl, rfl, rfl, BitVec.eq_of_toNat_eq major, length⟩)
  case h_21 =>
    split at h <;> rename_i fn4
    case h_3 => cases h
    all_goals simp only [Dec.when_eq_ok, Bool.and_eq_true, beq_iff_eq] at h
    case h_1 =>
      obtain ⟨⟨ha, high⟩, rfl⟩ := h
      exact singleton_eq (Enc.s_eq_iff.2
        ⟨(append_eq_iff.2 ⟨high, rfl⟩).symm, BitVec.eq_of_toNat_eq fn4, ha, rfl, BitVec.eq_of_toNat_eq major, length⟩)
    case h_2 =>
      obtain ⟨⟨⟨ha, hd⟩, high⟩, rfl⟩ := h
      exact singleton_eq (Enc.s_eq_iff.2
        ⟨(append_eq_iff.2 ⟨high, rfl⟩).symm, BitVec.eq_of_toNat_eq fn4, ha, hd, BitVec.eq_of_toNat_eq major, length⟩)
  case h_22 =>
    split at h
    case isTrue fn8 =>
      cases h
      exact singleton_eq (Enc.a_fp (BitVec.eq_of_toNat_eq fn8) (BitVec.eq_of_toNat_eq major) length)
    case isFalse => cases h
  case h_23 => split at h <;> cases h
  all_goals
    cases h
    exact singleton_eq (Enc.i_eq_iff.2 ⟨rfl, rfl, rfl, BitVec.eq_of_toNat_eq major, length⟩)


/-! A table's answer, read from the fields of the word's own format, is that word. -/

section
variable {p0 p1 : Parcel} {i : Instr} {major : BitVec 6}

theorem encode_eq_m (words : (p0.extractLsb' 30 2 == 0) = true ∧
    encode i = Enc.m (BitVec.ofNat 5 (p0.extractLsb' 22 5).toNat) major (Dec.m p0 p1))
    (hmajor : (p0.extractLsb' 2 6).toNat = major.toNat) (length : p0.extractLsb' 0 2 = 1#2) : encode i = [p0, p1] := by
  rw [words.2, ← eq_ofNat_toNat]
  exact Enc.m_eq_iff.2 ⟨rfl, rfl, eq_of_beq words.1, BitVec.eq_of_toNat_eq hmajor, length⟩

theorem encode_eq_q (words : (p0.extractLsb' 30 2 == 0) = true ∧
    encode i = Enc.q (BitVec.ofNat 5 (p0.extractLsb' 22 5).toNat) major (Dec.q p0 p1))
    (hmajor : (p0.extractLsb' 2 6).toNat = major.toNat) (length : p0.extractLsb' 0 2 = 1#2) : encode i = [p0, p1] := by
  rw [words.2, ← eq_ofNat_toNat]
  exact Enc.q_eq_iff.2 ⟨rfl, rfl, eq_of_beq words.1, BitVec.eq_of_toNat_eq hmajor, length⟩

theorem encode_eq_x (words : encode i = [Enc.x (BitVec.ofNat 9 (p0.extractLsb' 23 9).toNat) (p0.extractLsb' 18 5)
    (p0.extractLsb' 13 5) (p0.extractLsb' 8 5) major, p1])
    (hmajor : (p0.extractLsb' 2 6).toNat = major.toNat) (length : p0.extractLsb' 0 2 = 1#2) : encode i = [p0, p1] := by
  rw [words, ← eq_ofNat_toNat]
  exact congrArg (fun p => [p, p1]) (Enc.x_eq_iff.2 ⟨rfl, rfl, rfl, rfl, BitVec.eq_of_toNat_eq hmajor, length⟩)

end

theorem encode_of_two {p0 p1 : Parcel} {i : Instr} (length : p0.extractLsb' 0 2 = 1#2) (h : Dec.two p0 p1 = .ok i) :
    encode i = [p0, p1] := by
  dsimp only [Dec.two] at h
  split at h <;> rename_i major
  case h_1 | h_11 => exact encode_eq_x (encode_of_wide h) major length
  case h_2 => exact encode_eq_m (encode_of_mem h) major length
  case h_3 => exact encode_eq_m (encode_of_atomic h) major length
  case h_4 => exact encode_eq_q (encode_of_sync h) major length
  case h_5 => exact encode_eq_q (encode_of_msg h) major length
  case h_6 => exact encode_eq_q (encode_of_board h) major length
  case h_7 => exact encode_eq_q (encode_of_impose h) major length
  case h_8 =>
    obtain ⟨zero, words⟩ := encode_of_derive h
    rw [words, ← eq_ofNat_toNat]
    exact Enc.c_eq_iff.2 ⟨rfl, rfl, by simpa using zero, BitVec.eq_of_toNat_eq major, length⟩
  case h_9 =>
    obtain ⟨zero, words⟩ := encode_of_vector h
    rw [words, ← eq_ofNat_toNat, ← eq_ofNat_toNat]
    exact Enc.v_eq_iff.2 ⟨rfl, rfl, rfl, eq_of_beq zero, BitVec.eq_of_toNat_eq major, length⟩
  case h_10 => exact encode_eq_m (encode_of_vmem h) major length
  case h_12 => exact encode_eq_q (encode_of_engine h) major length
  case h_13 =>
    obtain ⟨zero, words⟩ := encode_of_matrix h
    rw [words, ← eq_ofNat_toNat]
    exact Enc.mq_eq_iff.2 ⟨rfl, rfl, eq_of_beq zero, BitVec.eq_of_toNat_eq major, length⟩
  case h_14 => exact encode_eq_q (encode_of_cont h) major length
  case h_15 =>
    obtain ⟨zero, words⟩ := encode_of_fpLong h
    rw [words, ← eq_ofNat_toNat]
    exact Enc.f_eq_iff.2 ⟨rfl, rfl, eq_of_beq zero, BitVec.eq_of_toNat_eq major, length⟩
  case h_16 =>
    split at h
    case isTrue fields =>
      obtain ⟨fn5, zero, -, -⟩ := fields
      cases h
      exact Enc.q_eq_iff.2 ⟨rfl, BitVec.eq_of_toNat_eq fn5, eq_of_beq zero, BitVec.eq_of_toNat_eq major, length⟩
    case isFalse => cases h
  case h_17 => split at h <;> cases h

theorem encode_of_three {p0 p1 p2 : Parcel} {i : Instr} (length : p0.extractLsb' 0 2 = 2#2) (h : Dec.three p0 p1 p2 = .ok i) :
    encode i = [p0, p1, p2] := by
  unfold Dec.three at h
  split at h <;> rename_i major
  case h_1 =>
    obtain ⟨zero, rfl⟩ := Dec.when_eq_ok.1 h
    rw [encode_lil]
    exact Enc.l_eq_iff.2 ⟨rfl, rfl, eq_of_beq zero, BitVec.eq_of_toNat_eq major, length⟩
  case h_2 =>
    obtain ⟨zero, words⟩ := encode_of_sweep h
    rw [words, ← eq_ofNat_toNat]
    exact Enc.w_eq_iff.2 ⟨rfl, rfl, by simpa using zero, BitVec.eq_of_toNat_eq major, length⟩
  case h_3 =>
    simp only [Dec.when_eq_ok, Bool.and_eq_true, beq_iff_eq] at h
    obtain ⟨⟨low, high⟩, rfl⟩ := h
    rw [encode_center]
    exact Enc.k_eq_iff.2 ⟨rfl, low, high, BitVec.eq_of_toNat_eq major, length⟩
  case h_4 =>
    simp only [Dec.when_eq_ok, Bool.and_eq_true, beq_iff_eq] at h
    obtain ⟨⟨low, high⟩, rfl⟩ := h
    rw [encode_mstream]
    exact Enc.g_eq_iff.2 ⟨rfl, low, high, BitVec.eq_of_toNat_eq major, length⟩
  case h_5 => split at h <;> cases h

theorem map_pair_eq_ok {x : Except DecodeError Instr} {i : Instr} {r rest : List Parcel}
    (h : x.map (·, r) = .ok (i, rest)) : x = .ok i ∧ r = rest := by
  cases x with
  | error e => cases h
  | ok j => cases h; exact ⟨rfl, rfl⟩

/-- What decodes is its instruction's words and what follows them: by the number of parcels the length field asks for. -/
theorem eq_encode_of_decode {ps rest : List Parcel} {i : Instr} (h : decode ps = .ok (i, rest)) : ps = encode i ++ rest := by
  unfold decode at h
  split at h
  case h_1 => cases h
  case h_2 p0 ps =>
    split at h <;> rename_i length
    case h_1 =>
      obtain ⟨one, rfl⟩ := map_pair_eq_ok h
      rw [encode_of_one (BitVec.eq_of_toNat_eq length) one]
      rfl
    case h_2 =>
      obtain ⟨two, rfl⟩ := map_pair_eq_ok h
      rw [encode_of_two (BitVec.eq_of_toNat_eq length) two]
      rfl
    case h_3 =>
      obtain ⟨three, rfl⟩ := map_pair_eq_ok h
      rw [encode_of_three (BitVec.eq_of_toNat_eq length) three]
      rfl
    all_goals cases h

/-- Settles O56. -/
theorem encodeDecode : Obligations.EncodeDecode := by
  unfold Obligations.EncodeDecode
  exact fun ps rest i => eq_encode_of_decode

end Sys2Proof
end

section
/-! The words of every well-formed instruction decode to it, whatever follows (R27, R31 to R34). -/

namespace Sys2Proof

/-! ### By the length field -/

theorem decode_of_one {p : Parcel} (rest : List Parcel) (length : p.extractLsb' 0 2 = 0#2) :
    decode ([p] ++ rest) = (Dec.one p).map (·, rest) := by
  simp [decode, length]

theorem decode_of_two {p0 p1 : Parcel} (rest : List Parcel) (length : p0.extractLsb' 0 2 = 1#2) :
    decode ([p0, p1] ++ rest) = (Dec.two p0 p1).map (·, rest) := by
  simp [decode, length]

theorem decode_of_three {p0 p1 p2 : Parcel} (rest : List Parcel) (length : p0.extractLsb' 0 2 = 2#2) :
    decode ([p0, p1, p2] ++ rest) = (Dec.three p0 p1 p2).map (·, rest) := by
  simp [decode, length]

/-! ### Words of one parcel (R31) -/

section
variable (d a b : BitVec 5) (rest : List Parcel)

theorem decode_alu (fn9 : BitVec 9) : decode ([Enc.a fn9 b a d 0] ++ rest) = (Dec.alu fn9.toNat d a b).map (·, rest) := by
  obtain ⟨fn, hb, ha, hd, major, length⟩ := Enc.a_eq_iff.1 (rfl : Enc.a fn9 b a d 0 = _)
  rw [decode_of_one rest length]
  simp only [Dec.one, fn, hb, ha, hd, major]
  rfl

theorem decode_cap (fn9 : BitVec 9) : decode ([Enc.a fn9 b a d 19] ++ rest) = (Dec.cap fn9.toNat d a b).map (·, rest) := by
  obtain ⟨fn, hb, ha, hd, major, length⟩ := Enc.a_eq_iff.1 (rfl : Enc.a fn9 b a d 19 = _)
  rw [decode_of_one rest length]
  simp only [Dec.one, fn, hb, ha, hd, major]
  rfl

theorem decode_fp (dbl : Bool) (fn8 : BitVec 8) :
    decode ([Enc.a (BitVec.ofBool dbl ++ fn8) b a d 17] ++ rest) = (Dec.fp fn8.toNat dbl d a b).map (·, rest) := by
  obtain ⟨fn9, hb, ha, hd, major, length⟩ := Enc.a_eq_iff.1 (rfl : Enc.a (BitVec.ofBool dbl ++ fn8) b a d 17 = _)
  obtain ⟨hdbl, fn⟩ := extract_fn9_eq_iff.1 fn9
  rw [decode_of_one rest length]
  simp only [Dec.one, fn, hdbl, hb, ha, hd, major]
  rfl

theorem decode_fmadd2 (dbl : Bool) :
    decode ([Enc.a (BitVec.ofBool dbl ++ 0#8) b a d 40] ++ rest) = .ok (.fmadd2 dbl d a b, rest) := by
  obtain ⟨fn9, hb, ha, hd, major, length⟩ := Enc.a_eq_iff.1 (rfl : Enc.a (BitVec.ofBool dbl ++ 0#8) b a d 40 = _)
  obtain ⟨hdbl, fn⟩ := extract_fn9_eq_iff.1 fn9
  rw [decode_of_one rest length]
  simp only [Dec.one, fn, hdbl, hb, ha, hd, major]
  rfl

theorem decode_sys (imm : BitVec 10) (fn4 : BitVec 4) :
    decode ([Enc.s imm fn4 a d 18] ++ rest) = (Dec.sys fn4.toNat imm a d).map (·, rest) := by
  obtain ⟨himm, fn, ha, hd, major, length⟩ := Enc.s_eq_iff.1 (rfl : Enc.s imm fn4 a d 18 = _)
  rw [decode_of_one rest length]
  simp only [Dec.one, fn, himm, ha, hd, major]
  rfl

theorem decode_xsync (level : BitVec 3) : decode ([Enc.s (0#7 ++ level) 0 0 d 20] ++ rest) = .ok (.xsync d level, rest) := by
  obtain ⟨himm, fn, ha, hd, major, length⟩ := Enc.s_eq_iff.1 (rfl : Enc.s (0#7 ++ level) 0 0 d 20 = _)
  obtain ⟨high, low⟩ := append_eq_iff.1 (rfl : 0#7 ++ level = _)
  rw [decode_of_one rest length]
  simp only [Dec.one, fn, himm, ha, hd, major, high, low]
  rfl

theorem decode_fence (mode : BitVec 2) : decode ([Enc.s (0#8 ++ mode) 1 0 0 20] ++ rest) = .ok (.fence mode, rest) := by
  obtain ⟨himm, fn, ha, hd, major, length⟩ := Enc.s_eq_iff.1 (rfl : Enc.s (0#8 ++ mode) 1 0 0 20 = _)
  obtain ⟨high, low⟩ := append_eq_iff.1 (rfl : 0#8 ++ mode = _)
  rw [decode_of_one rest length]
  simp only [Dec.one, fn, himm, ha, hd, major, high, low]
  rfl

/-- A word of format I whose major's reading, given its fields, is known. -/
theorem decode_i {imm : BitVec 14} {major : BitVec 6} {i : Instr}
    (reads : ∀ p : Parcel, p.extractLsb' 18 14 = imm → p.extractLsb' 13 5 = a → p.extractLsb' 8 5 = d →
      p.extractLsb' 2 6 = major → Dec.one p = .ok i) : decode ([Enc.i imm a d major] ++ rest) = .ok (i, rest) := by
  obtain ⟨himm, ha, hd, hmajor, length⟩ := Enc.i_eq_iff.1 (rfl : Enc.i imm a d major = _)
  rw [decode_of_one rest length, reads _ himm ha hd hmajor]
  rfl

theorem decode_shift {kind : BitVec 2} {k : BitVec 6} {i : Instr}
    (reads : ∀ p : Parcel, p.extractLsb' 13 5 = a → p.extractLsb' 8 5 = d → p.extractLsb' 2 6 = 7#6 →
      (p.extractLsb' 18 14).extractLsb' 0 6 = k → (p.extractLsb' 18 14).extractLsb' 6 2 = kind →
      (p.extractLsb' 18 14).extractLsb' 8 6 = 0#6 → Dec.one p = .ok i) :
    decode ([Enc.i (0#6 ++ kind ++ k) a d 7] ++ rest) = .ok (i, rest) := by
  refine decode_i d a rest (fun p himm ha hd major => ?_)
  obtain ⟨high, low⟩ := append_eq_iff.1 himm.symm
  obtain ⟨zero, mid⟩ := extract_eq_append_iff.1 high
  exact reads p ha hd major low mid zero

theorem decode_jal (off : BitVec 19) : decode ([Enc.j off d 14] ++ rest) = .ok (.jal d off, rest) := by
  obtain ⟨hoff, hd, major, length⟩ := Enc.j_eq_iff.1 (rfl : Enc.j off d 14 = _)
  rw [decode_of_one rest length]
  simp only [Dec.one, hoff, hd, major]
  rfl

/-! ### Words of two parcels (R32, R33) -/

theorem decode_wide (fn9 : BitVec 9) (imm : BitVec 32) :
    decode ([Enc.x fn9 b a d 0, imm] ++ rest) = (Dec.wide 0 fn9.toNat b a d imm).map (·, rest) := by
  obtain ⟨fn, hb, ha, hd, major, length⟩ := Enc.x_eq_iff.1 (rfl : Enc.x fn9 b a d 0 = _)
  rw [decode_of_two rest length]
  simp only [Dec.two, fn, hb, ha, hd, major]
  rfl

theorem decode_vshape (imm : BitVec 32) : decode ([Enc.x 0 0 a d 10, imm] ++ rest) = .ok (.vshape d a imm, rest) := by
  obtain ⟨fn, hb, ha, hd, major, length⟩ := Enc.x_eq_iff.1 (rfl : Enc.x 0 0 a d 10 = _)
  rw [decode_of_two rest length]
  simp only [Dec.two, fn, hb, ha, hd, major]
  rfl

end

theorem decode_mem (fn5 : BitVec 5) (f : MFields) (rest : List Parcel) :
    decode (Enc.m fn5 1 f ++ rest) = (Dec.mem fn5.toNat f true).map (·, rest) := by
  obtain ⟨fields, fn, zero, major, length⟩ := Enc.m_eq_iff.1 (rfl : Enc.m fn5 1 f = _)
  refine (decode_of_two rest length).trans ?_
  simp only [Dec.two, fields, fn, zero, major]
  rfl

theorem decode_atomic (fn5 : BitVec 5) (f : MFields) (rest : List Parcel) :
    decode (Enc.m fn5 2 f ++ rest) = (Dec.atomic fn5.toNat f true).map (·, rest) := by
  obtain ⟨fields, fn, zero, major, length⟩ := Enc.m_eq_iff.1 (rfl : Enc.m fn5 2 f = _)
  refine (decode_of_two rest length).trans ?_
  simp only [Dec.two, fields, fn, zero, major]
  rfl

theorem decode_vmem (fn5 : BitVec 5) (f : MFields) (rest : List Parcel) :
    decode (Enc.m fn5 9 f ++ rest) = (Dec.vmem fn5.toNat f true).map (·, rest) := by
  obtain ⟨fields, fn, zero, major, length⟩ := Enc.m_eq_iff.1 (rfl : Enc.m fn5 9 f = _)
  refine (decode_of_two rest length).trans ?_
  simp only [Dec.two, fields, fn, zero, major]
  rfl

theorem decode_sync (fn5 : BitVec 5) (f : QFields) (rest : List Parcel) :
    decode (Enc.q fn5 3 f ++ rest) = (Dec.sync fn5.toNat f true).map (·, rest) := by
  obtain ⟨fields, fn, zero, major, length⟩ := Enc.q_eq_iff.1 (rfl : Enc.q fn5 3 f = _)
  refine (decode_of_two rest length).trans ?_
  simp only [Dec.two, fields, fn, zero, major]
  rfl

theorem decode_msg (fn5 : BitVec 5) (f : QFields) (rest : List Parcel) :
    decode (Enc.q fn5 4 f ++ rest) = (Dec.msg fn5.toNat f true).map (·, rest) := by
  obtain ⟨fields, fn, zero, major, length⟩ := Enc.q_eq_iff.1 (rfl : Enc.q fn5 4 f = _)
  refine (decode_of_two rest length).trans ?_
  simp only [Dec.two, fields, fn, zero, major]
  rfl

theorem decode_board (fn5 : BitVec 5) (f : QFields) (rest : List Parcel) :
    decode (Enc.q fn5 5 f ++ rest) = (Dec.board fn5.toNat f true).map (·, rest) := by
  obtain ⟨fields, fn, zero, major, length⟩ := Enc.q_eq_iff.1 (rfl : Enc.q fn5 5 f = _)
  refine (decode_of_two rest length).trans ?_
  simp only [Dec.two, fields, fn, zero, major]
  rfl

theorem decode_impose (fn5 : BitVec 5) (f : QFields) (rest : List Parcel) :
    decode (Enc.q fn5 6 f ++ rest) = (Dec.impose fn5.toNat f true).map (·, rest) := by
  obtain ⟨fields, fn, zero, major, length⟩ := Enc.q_eq_iff.1 (rfl : Enc.q fn5 6 f = _)
  refine (decode_of_two rest length).trans ?_
  simp only [Dec.two, fields, fn, zero, major]
  rfl

theorem decode_engine (fn5 : BitVec 5) (f : QFields) (rest : List Parcel) :
    decode (Enc.q fn5 11 f ++ rest) = (Dec.engine fn5.toNat f true).map (·, rest) := by
  obtain ⟨fields, fn, zero, major, length⟩ := Enc.q_eq_iff.1 (rfl : Enc.q fn5 11 f = _)
  refine (decode_of_two rest length).trans ?_
  simp only [Dec.two, fields, fn, zero, major]
  rfl

theorem decode_cont (fn5 : BitVec 5) (f : QFields) (rest : List Parcel) :
    decode (Enc.q fn5 13 f ++ rest) = (Dec.cont fn5.toNat f true).map (·, rest) := by
  obtain ⟨fields, fn, zero, major, length⟩ := Enc.q_eq_iff.1 (rfl : Enc.q fn5 13 f = _)
  refine (decode_of_two rest length).trans ?_
  simp only [Dec.two, fields, fn, zero, major]
  rfl

theorem decode_matrix (fn5 : BitVec 5) (f : MQFields) (rest : List Parcel) :
    decode (Enc.mq fn5 f ++ rest) = (Dec.matrix fn5.toNat f true).map (·, rest) := by
  obtain ⟨fields, fn, zero, major, length⟩ := Enc.mq_eq_iff.1 (rfl : Enc.mq fn5 f = _)
  refine (decode_of_two rest length).trans ?_
  simp only [Dec.two, fields, fn, zero, major]
  rfl

theorem decode_derive (fn5 : BitVec 5) (f : CFields) (rest : List Parcel) :
    decode (Enc.c fn5 f ++ rest) = (Dec.derive fn5.toNat f true).map (·, rest) := by
  obtain ⟨fields, fn, zero, major, length⟩ := Enc.c_eq_iff.1 (rfl : Enc.c fn5 f = _)
  refine (decode_of_two rest length).trans ?_
  simp only [Dec.two, fields, fn, zero, major]
  rfl

theorem decode_fpLong (fn8 : BitVec 8) (f : FFields) (rest : List Parcel) :
    decode (Enc.f fn8 f ++ rest) = (Dec.fpLong fn8.toNat f true).map (·, rest) := by
  obtain ⟨fields, fn, zero, major, length⟩ := Enc.f_eq_iff.1 (rfl : Enc.f fn8 f = _)
  refine (decode_of_two rest length).trans ?_
  simp only [Dec.two, fields, fn, zero, major]
  rfl

theorem decode_vector (fn5 : BitVec 5) (fn9b : BitVec 9) (f : VFields) (rest : List Parcel) :
    decode (Enc.v fn5 fn9b f ++ rest) = (Dec.vector fn5.toNat fn9b.toNat f true).map (·, rest) := by
  obtain ⟨fields, fn, sub, zero, major, length⟩ := Enc.v_eq_iff.1 (rfl : Enc.v fn5 fn9b f = _)
  refine (decode_of_two rest length).trans ?_
  simp only [Dec.two, fields, fn, sub, zero, major]
  rfl

/-- The retired counter wait: only without scope and order bit is it the instruction (R385). -/
theorem decode_ctwaitx (f : QFields) (rest : List Parcel) (plain : WF.plainQ f = true) :
    decode (Enc.q 0 40 f ++ rest) = .ok (.ctwaitx f, rest) := by
  obtain ⟨scope, ob, x, c, d, imm⟩ := f
  simp only [WF.plainQ, Bool.and_eq_true, beq_iff_eq, Bool.not_eq_true'] at plain
  obtain ⟨rfl, rfl⟩ := plain
  obtain ⟨fields, fn, zero, major, length⟩ := Enc.q_eq_iff.1 (rfl : Enc.q 0 40 ⟨0, false, x, c, d, imm⟩ = _)
  refine (decode_of_two rest length).trans ?_
  simp only [Dec.two, fields, fn, zero, major]
  rfl

/-! ### Words of three parcels (R34) -/

theorem decode_sweep (fn5 : BitVec 5) (f : WFields) (rest : List Parcel) :
    decode (Enc.w fn5 f ++ rest) = (Dec.sweep fn5.toNat f true).map (·, rest) := by
  obtain ⟨fields, fn, zero, major, length⟩ := Enc.w_eq_iff.1 (rfl : Enc.w fn5 f = _)
  refine (decode_of_three rest length).trans ?_
  simp only [Dec.three, fields, fn, zero, major]
  rfl

theorem decode_lil (d : BitVec 5) (imm : BitVec 64) (rest : List Parcel) :
    decode (Enc.l d imm ++ rest) = .ok (.lil d imm, rest) := by
  obtain ⟨hd, himm, zero, major, length⟩ := Enc.l_eq_iff.1 (rfl : Enc.l d imm = _)
  refine (decode_of_three rest length).trans ?_
  simp only [Dec.three, hd, himm, zero, major]
  rfl

theorem decode_center (f : KFields) (rest : List Parcel) : decode (Enc.k f ++ rest) = .ok (.center f, rest) := by
  obtain ⟨fields, low, high, major, length⟩ := Enc.k_eq_iff.1 (rfl : Enc.k f = _)
  refine (decode_of_three rest length).trans ?_
  simp only [Dec.three, fields, low, high, major]
  rfl

theorem decode_mstream (f : GFields) (rest : List Parcel) : decode (Enc.g f ++ rest) = .ok (.mstream f, rest) := by
  obtain ⟨fields, low, high, major, length⟩ := Enc.g_eq_iff.1 (rfl : Enc.g f = _)
  refine (decode_of_three rest length).trans ?_
  simp only [Dec.three, fields, low, high, major]
  rfl

end Sys2Proof
end

section
/-! Every well-formed instruction is read back from its words, by the table that holds it. -/

namespace Sys2Proof

/-- Of the checks of R30 only the retired counter wait needs its own: its words without them are no instruction. -/
theorem decode_encode (i : Instr) (rest : List Parcel) (hwf : i.wf = true) (hne : encode i ≠ []) :
    decode (encode i ++ rest) = .ok (i, rest) := by
  cases i with
  | add | sub | and | or | xor | andn | sll | srl | sra | slt | sltu | mul | mulh | mulhu | div | divu | rem | remu | min | max
  | minu | maxu | clz | ctz | popc | sel => exact decode_alu _ _ _ _ _
  | addi | andi | ori | xori | slti | sltiu | beq | bne | blt | bge | bltu | bgeu | jalr | loop =>
    exact decode_i _ _ _ (fun p imm a d major => by simp only [Dec.one, imm, a, d, major]; rfl)
  | slli | srli | srai =>
    exact decode_shift _ _ _ (fun p a d major low mid zero => by simp only [Dec.one, a, d, major, low, mid, zero]; rfl)
  | jal => exact decode_jal _ _ _
  | fadd | fsub | fmul | fdiv | fsqrt | fmin | fmax | fma | feq | flt | fle | fclass | fabs | fneg | fmvw | fmvg | fcvt | fcvti
  | fcvtf => exact decode_fp _ _ _ _ _ _
  | faddLong | fsubLong | fmulLong | fdivLong | fsqrtLong | fminLong | fmaxLong | fmaLong | feqLong | fltLong | fleLong
  | fclassLong | fabsLong | fnegLong | fmvwLong | fmvgLong | fcvtLong | fcvtiLong | fcvtfLong => exact decode_fpLong _ _ _
  | sysr | sysw | syss | sysc | trap | brk | xret | idle | ifence | yield | pmark | svc | exit => exact decode_sys _ _ _ _ _
  | cmov | cgetb | cgete | cgets | cgetf | cgetp | cgetl | ctag | cclr | cperm | cfmt | cshut | copen =>
    exact decode_cap _ _ _ _ _
  | xsync => exact decode_xsync _ _ _
  | fence => exact decode_fence _ _
  | fmadd2 => exact decode_fmadd2 _ _ _ _ _
  | ctwaitx => exact decode_ctwaitx _ _ hwf
  | addil | andil | oril | xoril | li | lih => exact decode_wide _ _ _ _ _ _
  | vshape => exact decode_vshape _ _ _ _
  | lil => exact decode_lil _ _ _
  | ld | st | ldc | stc | pref | ldw | stw => exact decode_mem _ _ _
  | aadd | aand | aor | axor | amin | amax | aminu | amaxu | aswap | acas | afadd => exact decode_atomic _ _ _
  | vld | vst | vgather | vscatter => exact decode_vmem _ _ _
  | ctadd | ctwait | ctread | cttry | binit | barrive | bwait | barwait | sbind | sunbind => exact decode_sync _ _ _
  | send | recv | recvt | ksend | radv => exact decode_msg _ _ _
  | nbpost | nbview | nbinit | nbslot => exact decode_board _ _ _
  | tclaim | tdone | thand | schedw | schedr => exact decode_impose _ _ _
  | cslice | cslicei | crank | cstep | cfix | cfree | clease => exact decode_derive _ _ _
  | center => exact decode_center _ _
  | vadd | vsub | vmul | vmin | vmax | vand | vor | vxor | vshl | vshr | vsra | vfma | vfms | vabs | vneg | vmov | vcvt | vexp2
  | vlog2 | vrcp | vrsq | vtanh | vcmp | vsel | vred | vscan | vtrans | vbcast | vshuf | vrot | vins | vext | vmand | vmor | vmnot
  | vmpop | vplanes | vunplane | vbarq => exact decode_vector _ _ _ _
  | swadd | swsub | swmul | swmin | swmax | swfma | swcvt | swcopy | swbarq => exact decode_sweep _ _ _
  | ecmd | ewait => exact decode_engine _ _ _
  | mwfetch | mwload | mwswap | mgwait | mgadv | mgread => exact decode_matrix _ _ _
  | mstream => exact decode_mstream _ _
  | spawn | xplan => exact decode_cont _ _ _
  | _ => exact absurd rfl hne

/-- Settles O55. -/
theorem decodeEncode : Obligations.DecodeEncode := by
  unfold Obligations.DecodeEncode
  exact decode_encode

/-- Settles O57: the words are the instructions' own. -/
theorem decodesSpecWords : Obligations.DecodesSpecWords := by
  unfold Obligations.DecodesSpecWords
  exact ⟨decode_encode (.addi 5 0 8) [] rfl (List.cons_ne_nil _ _), decode_encode (.sub 3 4 5) [] rfl (List.cons_ne_nil _ _),
    decode_encode (.exit 0) [] rfl (List.cons_ne_nil _ _), decode_encode (.fence 3) [] rfl (List.cons_ne_nil _ _)⟩

end Sys2Proof
end

section
/-! The target check on a line that is sound, and what decoding refuses (R20, R21, R30). -/

namespace Sys2Proof.Machine

/-! ### The target check -/

theorem FetchLine.lineFault_of_sound {l : FetchLine} (poison : l.poison = 0) (lo : parloOk l.data = true)
    (hi : parhiOk l.data = true) (bit29 : l.data.getLsbD 29 = false) (needLo needHi : Bool) :
    l.lineFault needLo needHi = none := by
  simp only [FetchLine.lineFault, poison, lo, hi, bit29]
  simp

theorem State.checkTarget_misplaced (s : State) {t : Word} (tgt : Bool) (h : t.toNat % 4 ≠ 0 ∨ t.toNat % 64 / 4 = 0) :
    s.checkTarget t tgt = .bad 0x06 t :=
  if_pos (by simpa using h)

/-- On a sound line only the parcel decides: it begins an instruction, with its TGT bit where that is asked for. -/
theorem State.checkTarget_of_line {s u : State} {t : Word} {l : FetchLine} (tgt : Bool) (aligned : t.toNat % 4 = 0)
    (inner : t.toNat % 64 / 4 ≠ 0) (line : s.fetchLine (t.toNat / 64 * 64) = .line l u)
    (sound : l.lineFault true (8 ≤ t.toNat % 64 / 4) = none) :
    s.checkTarget t tgt = if t.toNat % 64 / 4 ∈ starts l.data ∧ (tgt = true → l.data.getLsbD (t.toNat % 64 / 4 - 1) = true)
      then .ok u else .bad 0x06 t := by
  rw [State.checkTarget, if_neg (by simp [aligned, inner]), line]
  dsimp only
  rw [sound]
  cases tgt <;> simp

/-- Settles O4. -/
theorem transferTargetCheck : Obligations.TransferTargetCheck := by
  unfold Obligations.TransferTargetCheck
  refine fun s u t l => ⟨s.checkTarget_misplaced true, fun aligned inner line poison lo hi bit29 => ?_⟩
  have check (tgt : Bool) := State.checkTarget_of_line tgt aligned inner line
    (FetchLine.lineFault_of_sound poison lo hi bit29 true (8 ≤ t.toNat % 64 / 4))
  rw [check true, check false]
  exact ⟨fun h => if_pos ⟨h.1, fun _ => h.2⟩, fun h => if_neg (fun e => h ⟨e.1, e.2 rfl⟩),
    fun h => if_pos ⟨h, Bool.noConfusion⟩, fun h => if_neg (fun e => h e.1)⟩

/-! ### Words and instructions that are refused -/

/-- Settles O13: the checks before any body, and the three meanings that are a trap. -/
theorem decodingTraps : Obligations.DecodingTraps := by
  unfold Obligations.DecodingTraps
  refine ⟨fun s i body => ⟨runInstr_profile, runInstr_operand⟩, fun s dbl d a b => exec_fmadd2 dbl d a b s,
    fun s f => exec_ctwaitx f s, fun s p => ?_⟩
  have run := exec_illegalInstruction p s
  rw [execIllegalInstruction] at run
  refine ⟨fun short lo hi => run.trans ?_, fun other => run.trans ?_⟩
  · rw [if_pos (by simpa only [Bool.and_eq_true, decide_eq_true_eq, and_assoc] using ⟨short, lo, hi⟩)]
  · rw [if_neg (by simpa only [Bool.and_eq_true, decide_eq_true_eq, and_assoc] using other)]

end Sys2Proof.Machine
end

section
/-! A step as the schedule names its turn, and what an agent issues (R19, R22, R23, R297). -/

namespace Sys2Proof.Machine

/-! ### What a read of the lease table leaves -/

@[simp] theorem State.touch_ctx (s : State) (a : Nat) (w : Writer) (b : Bool) : (s.touch a w b).ctx = s.ctx := by
  unfold State.touch State.touchSector
  split <;> rfl
@[simp] theorem State.readLease_ctx (s : State) (n : Nat) : (s.readLease n).ctx = s.ctx := by
  unfold State.readLease
  split
  · rfl
  · exact s.touch_ctx _ _ _
@[simp] theorem State.cacheLease_ctx (s : State) (n : Nat) : (s.cacheLease n).ctx = s.ctx := by
  rw [State.cacheLease]
  split <;> exact s.readLease_ctx n

/-! ### The next instruction -/

/-- On a line whose halves pass, a continuation that has not just been resumed issues what the decoder reads (R23). -/
theorem State.issueFrom_of_sound {s : State} {l : FetchLine} {k : Nat} {i : Instr} {rest : List Parcel} (la : Word)
    (fresh : s.ctx.resumed = false) (inner : k ≠ 0) (aligned : s.pc.toNat % 4 = 0)
    (sound : ∀ lo hi, l.lineFault lo hi = none) (reads : decode (lineFrom l.data k) = .ok (i, rest)) :
    s.issueFrom l k la = .instr i s := by
  have placed : ¬ (s.ctx.resumed || k = 0 || s.pc.toNat % 4 ≠ 0) = true := by simp [fresh, inner, aligned]
  simp only [State.issueFrom, if_neg placed, sound, decodeAt, reads]
  rw [if_neg (by simp [fresh])]

/-- Fetch through fcap: a line that fcap may execute is the one that is issued from (R22). -/
theorem State.nextInstr_of_line {s u : State} {l : FetchLine}
    (right : s.capFault s.ctx.fcap .X Kind.X.need
      (((s.pc.toNat / 64 * 64 : Nat) - (s.ctx.fcap.base.toNat : Int)) / 64) 0 true = none)
    (first : s.ctx.fcap.covers (s.pc.toNat / 64 * 64 : Nat) = true)
    (last : s.ctx.fcap.covers ((s.pc.toNat / 64 * 64 : Nat) + 63) = true)
    (line : s.fetchLine (s.pc.toNat / 64 * 64) = .line l u) :
    s.nextInstr = (u.cacheLease s.ctx.fcap.lease.toNat).issueFrom l (u.pc.toNat % 64 / 4)
      (BitVec.ofNat 64 (s.pc.toNat / 64 * 64)) := by
  simp only [State.nextInstr, right, first, last, line]
  rfl

/-! ### The turn -/

/-- A turn to issue, whether the schedule names it or the order of issue does (R141, log 3). -/
theorem step_issue {s : State} {a : Agent} (turn : (s.agenda = [] ∧ s.pick = some a ∧ s.driftDue = false) ∨
    (∃ rest, s.agenda = .issue a :: rest ∧ s.hasAgent a = true)) :
    step s = finish (issue { s with agenda := s.agenda.drop 1 } a) := by
  obtain ⟨free, picked, still⟩ | ⟨rest, named, there⟩ := turn
  · have same : ({ s with agenda := s.agenda.drop 1 } : State) = s := by rw [free, List.drop_nil, ← free]
    rw [same]
    simp only [step, free, picked, still]
  · simp only [step, named, there]
    rfl

theorem step_issue_absent {s : State} {a : Agent} {rest : List Turn} (absent : s.hasAgent a = false)
    (turn : s.agenda = .issue a :: rest ∨ (s.agenda = .part a :: rest ∧ ∀ h, a ≠ .command h)) : step s = .fault .absentAgent := by
  obtain named | ⟨named, other⟩ := turn
  · simp only [step, named, absent]
    rfl
  · cases a with
    | command h => exact absurd rfl (other h)
    | _ => simp only [step, named, absent]; rfl

theorem issue_of_mayIssue {s : State} {a : Agent} (may : s.mayIssue a = true) (ready : (s.settleAwaited a).awaits a = []) :
    issue s a = issueNow exec ((s.settleAwaited a).take a) := by
  simp only [issue, issueBy, may, ready]
  rfl

/-! ### What comes before an instruction -/

section
variable (run : Instr → State → Host.Outcome State Fault Refusal) {s : State}

theorem issueNow_of_owed {cause : BitVec 8} {eval pc : Word} (owed : s.ctx.owed = some (cause, eval, pc)) :
    issueNow run s =
      afterIssue s none (.next ((s.setCtx { s.ctx with owed := none, pc := pc, vpart := none }).takeTrap cause eval 0)) := by
  simp only [issueNow, owed]

theorem issueNow_of_pageFail {va : Word} (owed : s.ctx.owed = none) (failed : s.ctx.pageFail = some va) :
    issueNow run s =
      afterIssue s none (.next ((s.setCtx { s.ctx with pageFail := none, vpart := none }).takeTrap 0x10 va 0)) := by
  simp only [issueNow, owed, failed]

/-- What issuing does with what comes next. -/
def issueNext : Next → Host.Outcome State Fault Refusal
  | .instr i t => afterIssue t (some i) (run i (t.countIssue i))
  | .illegal p0 t => afterIssue t none (execIllegalInstruction p0 t.beginIssue)
  | .trap cause eval t => afterIssue t none (.next (t.takeTrap cause eval 0))
  | .park va mig t => afterIssue t none (.next (t.parkOn va mig false))
  | .held t => .next t

theorem issueNow_of_free (owed : s.ctx.owed = none) (failed : s.ctx.pageFail = none) :
    issueNow run s = issueNext run s.nextInstr := by
  simp only [issueNow, owed, failed]
  rfl

end

/-- Outside replay, and where the core keeps no log, nothing is added to what issuing leaves (R375, R376). -/
theorem afterIssue_next_of_quiet {s t : State} (i : Option Instr)
    (quiet : ∀ core slot, s.cur = .ctx core slot → (s.coreAt core).dbg.replaying = false ∧ t.logging core = false) :
    afterIssue s i (.next t) = .next t := by
  unfold afterIssue State.recorded
  cases cur : s.cur with
  | ctx core slot =>
    obtain ⟨live, unlogged⟩ := quiet core slot cur
    simp only [live, unlogged]
    rfl
  | _ => rfl

/-- Settles O54. -/
theorem stepRunsDecoded : Obligations.StepRunsDecoded := by
  unfold Obligations.StepRunsDecoded
  refine ⟨fun s a turn => ?_, fun s i rest named => ?_, fun s x h rest => ⟨fun named => ?_, fun named => ?_⟩,
    fun s a rest turn absent => step_issue_absent absent turn, fun s u l i rest => ?_, fun s t i => afterIssue_next_of_quiet i⟩
  · intro u v may ready
    have run : step s = finish (issueNow exec v) := by rw [step_issue turn, issue_of_mayIssue may ready]
    refine ⟨fun cause eval pc owed => ?_, fun va owed failed => ?_, fun owed failed => ?_⟩
    · rw [run, issueNow_of_owed exec owed]
    · rw [run, issueNow_of_pageFail exec owed failed]
    · have next {n : Next} (h : v.nextInstr = n) : step s = finish (issueNext exec n) := by
        rw [run, issueNow_of_free exec owed failed, h]
      exact ⟨fun i t h => next h, fun p t h => next h, fun cause eval t h => next h, fun va mig t h => next h,
        fun t h => next h⟩
  · simp only [step, named]
  · simp only [step, named]
  · simp only [step, named]
  · intro c la k right first last line kept fresh aligned inner poison lo hi bit29 reads
    have pc : u.pc = s.pc := congrArg Ctx.pc kept
    rw [State.nextInstr_of_line right first last line, pc]
    refine State.issueFrom_of_sound _ ?_ inner ?_ (FetchLine.lineFault_of_sound poison lo hi bit29) reads
    · rw [State.cacheLease_ctx, kept]
      exact fresh
    · rw [State.pc, State.cacheLease_ctx, kept]
      exact aligned

end Sys2Proof.Machine
end

section
/-! The reads and moves of capability registers complete, whatever the source holds (R49, R53, R62). -/

namespace Sys2Proof.Machine

/-- The short capability instructions are of the engine profile (R159). -/
theorem inProfile_capability {i : Instr} {fn9 : BitVec 9} {b a d : BitVec 5} (g : Agent)
    (words : encode i = [Enc.a fn9 b a d 19]) : inProfile g i = true := by
  obtain ⟨-, -, -, -, major, length⟩ := Enc.a_eq_iff.1 (rfl : Enc.a fn9 b a d 19 = _)
  simp only [inProfile, words, parcelInProfile, major, length]
  rfl

/-- A short capability instruction that only changes the state completes. -/
theorem leaves_of_capability {i : Instr} {fn9 : BitVec 9} {b a d : BitVec 5} {s : State} (f : State → State)
    (words : encode i = [Enc.a fn9 b a d 19]) (wf : i.wf = true) (run : exec i s = runInstr i (step1 f) s) :
    exec i s = .next (s.after i (f s)) :=
  run.trans (runInstr_next (fun _ => inProfile_capability s.cur words) wf (M.step1_eq f s))

/-! The dimension is a register field (R62). -/

theorem Cap.ext_toNat (c : Cap) (k : BitVec 5) : c.ext k.toNat =
    (if k = 0 then c.ext0 else if k = 1 then c.ext1 else if k = 2 then c.ext2 else c.ext3).toNat + 1 := by
  simp only [Cap.ext, ← BitVec.toNat_inj]
  rfl
theorem Cap.strideWord_toNat (c : Cap) (k : BitVec 5) : c.strideWord k.toNat =
    if k = 0 then 1 else if k = 1 then (if c.fmt = 0x24 then c.str1.setWidth 64 else c.str1.signExtend 64)
      else if k = 2 then c.str2.signExtend 64 else c.str3.signExtend 64 := by
  have code : c.fmt.toNat = Fmt.code ↔ c.fmt = 0x24 := by rw [← BitVec.toNat_inj]; rfl
  have one : k.toNat = 1 ↔ k = 1 := by rw [← BitVec.toNat_inj]; rfl
  have two : k.toNat = 2 ↔ k = 2 := by rw [← BitVec.toNat_inj]; rfl
  have none : k.toNat = 0 ↔ k = 0 := by rw [← BitVec.toNat_inj]; rfl
  simp only [Cap.strideWord, Cap.stride, code, one, two, none]
  split_ifs <;> simp_all [BitVec.signExtend]

/-- The words that CGETF and CGETL read, as their fields shifted into place (R62). -/
theorem cgetf_word (otype : BitVec 16) (scope : BitVec 2) (fmt : BitVec 6) : 0#32 ++ otype ++ 0#6 ++ scope ++ 0#2 ++ fmt =
    (otype.setWidth 64 <<< 16) ||| (scope.setWidth 64 <<< 8) ||| fmt.setWidth 64 := by
  rw [← BitVec.setWidth_eq (0#32 ++ otype ++ 0#6 ++ scope ++ 0#2 ++ fmt)]
  repeat rw [BitVec.setWidth_append_eq_shiftLeft_setWidth_or]
  simp [BitVec.shiftLeft_or_distrib, ← BitVec.shiftLeft_add]
theorem cgetl_word (gen : BitVec 8) (lease : BitVec 16) :
    0#40 ++ gen ++ lease = (gen.setWidth 64 <<< 16) ||| lease.setWidth 64 := by
  rw [← BitVec.setWidth_eq (0#40 ++ gen ++ lease)]
  repeat rw [BitVec.setWidth_append_eq_shiftLeft_setWidth_or]
  simp

/-- Settles O17. -/
theorem capabilityReads : Obligations.CapabilityReads := by
  unfold Obligations.CapabilityReads
  intro s d a k ha hk c
  have read : s.capSrc a = c := rfl
  have wf : WF.capOrFcap a = true := decide_eq_true ha
  have wf_dimension : (WF.capOrFcap a && k.toNat ≤ 3) = true := Bool.and_eq_true_iff.2 ⟨wf, decide_eq_true (by omega)⟩
  refine ⟨fun hd => ⟨?_, ?_⟩, ?_, ?_, ?_, ?_, ?_, ?_, ?_⟩
  · exact leaves_of_capability _ (encode_cmov d a) (Bool.and_eq_true_iff.2 ⟨decide_eq_true hd, wf⟩) (exec_cmov d a s)
  · exact leaves_of_capability _ (encode_cclr d) (decide_eq_true hd) (exec_cclr d s)
  · exact leaves_of_capability _ (encode_cgetb d a) wf (exec_cgetb d a s)
  · refine (leaves_of_capability _ (encode_cgete d a k) wf_dimension (exec_cgete d a k s)).trans ?_
    rw [read, Cap.ext_toNat]
  · refine (leaves_of_capability _ (encode_cgets d a k) wf_dimension (exec_cgets d a k s)).trans ?_
    rw [read, Cap.strideWord_toNat]
  · refine (leaves_of_capability _ (encode_cgetf d a) wf (exec_cgetf d a s)).trans ?_
    dsimp only
    rw [read, cgetf_word]
  · exact leaves_of_capability _ (encode_cgetp d a) wf (exec_cgetp d a s)
  · refine (leaves_of_capability _ (encode_cgetl d a) wf (exec_cgetl d a s)).trans ?_
    rw [read, cgetl_word]
  · exact leaves_of_capability _ (encode_ctag d a) wf (exec_ctag d a s)

end Sys2Proof.Machine
end

section
/-! What the Press performs at the homes neither reads nor changes the tables of the tenants, and of a run it changes
nothing but the count of lost deferred faults (R138 to R150, R337). -/

namespace Sys2Proof.Machine

/-- The machine with other tenants. -/
def State.withTenants (s : State) (T : Sparse Tenant) : State := { s with tenants := T }

/-- A run without its count of lost deferred faults. -/
def Run.ledger (r : Run) : Run := { r with f := { r.f with lostdef := 0 } }
/-- What the Press leaves of the runs. -/
def State.ledger (s : State) : List Run := s.runs.map Run.ledger

/-- `x` is `y` with other tenants, and the runs of `y` are those of the ledger `L`: the Press keeps both. -/
structure Twin (T : Sparse Tenant) (L : List Run) (x y : State) : Prop where
  tenants : x = y.withTenants T
  ledger : y.ledger = L

variable {T : Sparse Tenant} {L : List Run} {x y : State}

/-- A change that neither reads nor changes the tenants, and leaves the runs. -/
theorem Twin.map (h : Twin T L x y) (f : State → State)
    (natural : ∀ s, f (s.withTenants T) = (f s).withTenants T := by intros; rfl)
    (runs : ∀ s, (f s).runs = s.runs := by intros; rfl) : Twin T L (f x) (f y) := by
  obtain ⟨rfl, hl⟩ := h
  exact ⟨natural y, by rw [State.ledger, runs]; exact hl⟩

/-- Something that the tenants have no part in is the same in both. -/
theorem Twin.same {α : Sort _} (h : Twin T L x y) (v : State → α)
    (blind : ∀ s : State, v (s.withTenants T) = v s := by intros; rfl) : v x = v y := by
  rw [h.tenants]
  exact blind y

theorem Twin.ite {x' y' : State} {c : Prop} [Decidable c] (h : Twin T L x y) (h' : Twin T L x' y') :
    Twin T L (if c then x else x') (if c then y else y') := by
  split
  · exact h
  · exact h'

theorem Twin.foldl {β : Type} {f : State → β → State} (step : ∀ {x y}, Twin T L x y → ∀ b, Twin T L (f x b) (f y b))
    (bs : List β) (h : Twin T L x y) : Twin T L (bs.foldl f x) (bs.foldl f y) := by
  induction bs generalizing x y with
  | nil => exact h
  | cons b rest ih => exact ih (step h b)

/-! ### Writes at their home -/

theorem Twin.setBytes (h : Twin T L x y) (a : Nat) (bs : List Byte) : Twin T L (x.setBytes a bs) (y.setBytes a bs) := by
  induction bs generalizing x y a with
  | nil => exact h
  | cons b rest ih => exact ih (h.map (·.setByte a b)) _
theorem Twin.clearTags (h : Twin T L x y) (a n : Nat) : Twin T L (x.clearTags a n) (y.clearTags a n) := by
  unfold State.clearTags
  exact .ite h (.foldl (fun h i => h.map (·.setTag (a + 32 * i) false)) _ h)
theorem Twin.touch (h : Twin T L x y) (a : Nat) (w : Writer) (b : Bool) : Twin T L (x.touch a w b) (y.touch a w b) := by
  obtain ⟨rfl, hl⟩ := h
  unfold State.touch State.touchSector
  exact .ite ⟨rfl, hl⟩ ⟨rfl, hl⟩
theorem Twin.written (h : Twin T L x y) (a : Agent) (run p : Nat) (b : Bool) :
    Twin T L (x.written a run p b) (y.written a run p b) :=
  (h.touch p (writerOf a run) b).map (fun s => (s.refreshHeld a p).noteDelivered a p)
theorem Twin.clearPoison (h : Twin T L x y) (a n : Nat) : Twin T L (x.clearPoison a n) (y.clearPoison a n) := by
  unfold State.clearPoison
  refine .foldl (fun h i => ?_) _ h
  exact .ite (h.map (·.setPoison (32 * ((a + 31) / 32 + i)) false)) h
theorem Twin.writeHome (h : Twin T L x y) (a : Nat) (bs : List Byte) : Twin T L (x.writeHome a bs) (y.writeHome a bs) :=
  ((h.setBytes a bs).clearTags a _).clearPoison a _
theorem Twin.performAtomic (h : Twin T L x y) (a : Agent) (run p : Nat) (fn5 : BitVec 5) (wide : Bool) (v w : Word) :
    Twin T L (x.performAtomic a run p fn5 wide v w).2 (y.performAtomic a run p fn5 wide v w).2 := by
  unfold State.performAtomic
  rw [h.same (·.atomicResult p fn5 wide v w)]
  exact ((h.setBytes p _).clearTags p _).written a run p false
theorem Twin.performCounter (h : Twin T L x y) (a : Agent) (run p : Nat) (v : Word) :
    Twin T L (x.performCounter a run p v) (y.performCounter a run p v) := by
  unfold State.performCounter
  rw [h.same (·.wordAt p)]
  exact ((h.setBytes p _).clearTags p _).written a run p false
theorem Twin.writeLine (h : Twin T L x y) (p : Piece) : Twin T L (x.writeLine p) (y.writeLine p) := by
  unfold State.writeLine
  refine .foldl (fun h g => ?_) _ (.foldl (fun h i => ?_) _ h)
  · have tagged := h.map (·.setTag (p.line + 32 * g) (p.tags.getLsbD g && taggable p.line))
    exact .ite h (.ite (tagged.map (·.setPoison (p.line + 32 * g) (p.poison.getLsbD g)))
      (.ite (tagged.map (·.setPoison (p.line + 32 * g) true)) tagged))
  · exact .ite h (h.map fun s => s.setByte (p.line + i)
      ((s.byteAt (p.line + i) &&& ~~~maskByte p.mask i) ||| (p.data.extractLsb' (8 * i) 8 &&& maskByte p.mask i)))
theorem Twin.startJob (h : Twin T L x y) (p : Piece) : Twin T L (x.startJob p) (y.startJob p) := by
  unfold State.startJob
  split
  · exact h.setBytes _ _
  · exact h
theorem Twin.markForeign (h : Twin T L x y) (a : Agent) (p : Nat) : Twin T L (x.markForeign a p) (y.markForeign a p) := by
  obtain ⟨rfl, hl⟩ := h
  unfold State.markForeign
  cases placeCore p with
  | none => exact ⟨rfl, hl⟩
  | some k => exact .ite ⟨rfl, hl⟩ (.ite ⟨rfl, hl⟩ ⟨rfl, hl⟩)

/-! ### Faults of what could not be performed -/

theorem State.ledger_updRun (s : State) (i : Nat) (f : Run → Run) (h : ∀ r, (f r).ledger = r.ledger) :
    (s.updRun i f).ledger = s.ledger := by
  rw [State.ledger, State.ledger, State.updRun, List.map_map]
  refine List.map_congr_left fun r _ => ?_
  rw [Function.comp_apply]
  split
  · exact h r
  · rfl
theorem Twin.loseDeferred (h : Twin T L x y) (run : Nat) : Twin T L (x.loseDeferred run) (y.loseDeferred run) := by
  obtain ⟨rfl, hl⟩ := h
  exact ⟨rfl, (y.ledger_updRun run _ (by intro r; rfl)).trans hl⟩
theorem Twin.deferSaved (h : Twin T L x y) (core slot : Nat) (sv : SavedCore) (d : Deferred) :
    Twin T L (x.deferSaved core slot sv d) (y.deferSaved core slot sv d) := by
  unfold State.deferSaved
  cases sv.ctxs.getD slot none with
  | none => exact h.loseDeferred _
  | some c =>
    exact .ite (h.loseDeferred _) ((h.map fun s => s.setCoreAt core { s.coreAt core with saved := some _ }).writeHome _ _)
theorem Twin.defer (h : Twin T L x y) (a : Agent) (run : Nat) (eval : Word) (pc : BitVec 48) :
    Twin T L (x.defer a run eval pc) (y.defer a run eval pc) := by
  unfold State.defer
  rw [h.same (·.ctxOf a)]
  extract_lets c xHere yHere
  have here : Twin T L xHere yHere := .ite (h.map (·.setCtxOf a _)) (h.loseDeferred run)
  cases a with
  | ctx k n =>
    simp only [h.same (·.coreAt k)]
    refine .ite here ?_
    cases (y.coreAt k).saved with
    | none => exact h
    | some sv => exact .ite (h.deferSaved k n sv _) h
  | sweep | command | port | host => exact h
  | cont | copy | epi | gateway => exact here
theorem Twin.failAtomic (h : Twin T L x y) (p : Piece) (dst : Option (BitVec 5)) (cause : BitVec 8) :
    Twin T L (x.failAtomic p dst cause) (y.failAtomic p dst cause) := by
  unfold State.failAtomic
  cases dst with
  | none => exact h.defer _ _ _ _
  | some d =>
    have owes (a : Agent) (o : Option (BitVec 8 × Word × Word)) :
        Twin T L (x.setCtxOf a { x.ctxOf a with owed := o }) (y.setCtxOf a { y.ctxOf a with owed := o }) :=
      h.map fun s => s.setCtxOf a { s.ctxOf a with owed := o }
    dsimp only
    cases p.agent with
    | ctx k n =>
      simp only [h.same (·.coreAt k)]
      refine .ite (owes _ _) ?_
      cases (y.coreAt k).saved with
      | none => exact h
      | some sv => exact .ite (h.map (·.setCoreAt k _)) h
    | cont | copy | epi | sweep | gateway | command | port | host => exact owes _ _

/-! ### Deliveries -/

theorem Twin.perform (h : Twin T L x y) (p : Piece) : Twin T L (x.perform p) (y.perform p) := by
  have event := h.map State.securityEvent
  unfold State.perform
  have refused (w : Wants) : x.refused p.agent p.run p.place w = _ := h.same (·.refused p.agent p.run p.place w)
  simp only [refused, h.same (·.poisonAt p.place)]
  split
  case h_1 =>
    have done := (((h.writeLine p).startJob p).written p.agent p.run p.place p.nonAlloc).markForeign p.agent p.place
    exact .ite (event.defer _ _ _ _) (.ite h (.ite (done.map fun s =>
      { s with press := { s.press with props := s.press.props ++ (s.otherReplicas p.line).map (fun d =>
        { agent := p.agent, dst := d, piece := p }) } }) done))
  case h_2 fn5 wide operand cmp dst _ =>
    refine .ite (event.failAtomic p _ _) (.ite (h.failAtomic p _ _) ?_)
    have done := h.performAtomic p.agent p.run p.place fn5 wide operand cmp
    have old : (x.performAtomic p.agent p.run p.place fn5 wide operand cmp).1 = _ :=
      h.same fun s => (s.performAtomic p.agent p.run p.place fn5 wide operand cmp).1
    cases dst with
    | none => exact done
    | some d =>
      rw [old]
      exact done.map fun s => s.setCtxOf p.agent ((s.ctxOf p.agent).setG d _)
  case h_3 => exact .ite (event.failAtomic p _ _) (.ite (h.failAtomic p _ _) (h.performCounter _ _ _ _))
theorem Twin.propagate (h : Twin T L x y) (p : Propagation) : Twin T L (x.propagate p) (y.propagate p) := by
  unfold State.propagate
  rw [h.same (·.pathRefuses p.agent p.dst .write)]
  exact .ite ((h.map State.securityEvent).defer _ _ _ _) ((h.writeLine _).written _ _ _ _)
/-- The definition is unfolded as a constant and not at its arguments, as in `State.sendItems_eq`. -/
theorem Twin.sendItems (h : Twin T L x y) (d e : Nat) (xs : List LinkItem) :
    Twin T L (x.sendItems d e xs) (y.sendItems d e xs) := by
  obtain ⟨send, hs⟩ : ∃ send, send = @State.sendItems := ⟨_, rfl⟩
  rw [← hs]
  delta State.sendItems at hs
  subst hs
  beta_reduce
  generalize pathPorts d (e * 2 ^ 44) = ports
  cases ports with
  | nil => exact h
  | cons port _ =>
    cases xs with
    | nil => exact h
    | cons item rest =>
      obtain ⟨rfl, hl⟩ := h
      exact ⟨rfl, hl⟩
theorem Twin.drain (h : Twin T L x y) (p : Piece) : Twin T L (x.drain p) (y.drain p) := by
  have queued := h.map fun s => s.setQueues (s.press.queues.erase p) (s.press.fifo ++ [p])
  unfold State.drain State.route
  rw [queued.same fun s => s.requestsOf p]
  exact queued.sendItems _ _ _
theorem Twin.acknowledge (h : Twin T L x y) (p : Piece) : Twin T L (x.acknowledge p) (y.acknowledge p) := by
  unfold State.acknowledge
  rw [h.same fun s => s.requestsOf p, h.same fun s => s.atomicOld p.place true]
  exact .ite h (h.sendItems _ _ _)
theorem Twin.deliver (h : Twin T L x y) (p : Piece) : Twin T L (x.deliver p) (y.deliver p) :=
  ((h.acknowledge p).map fun t => t.setQueues t.press.queues (t.press.fifo.erase p)).perform p
theorem Twin.flush (h : Twin T L x y) (a : Agent) : Twin T L (x.flush a) (y.flush a) := by
  have drained : Twin T L (x.drainWhere a fun _ => true) (y.drainWhere a fun _ => true) := by
    unfold State.drainWhere
    rw [h.same (·.press)]
    exact .foldl Twin.drain _ h
  have delivered : Twin T L ((x.drainWhere a fun _ => true).deliverWhere a fun _ => true)
      ((y.drainWhere a fun _ => true).deliverWhere a fun _ => true) := by
    unfold State.deliverWhere
    rw [drained.same (·.press)]
    exact .foldl Twin.deliver _ drained
  unfold State.flush
  dsimp only
  rw [delivered.same fun s => s.press.props.filter (fun p => p.agent == a)]
  exact .foldl Twin.propagate _ (delivered.map fun s =>
    { s with press := { s.press with props := s.press.props.filter (fun p => p.agent != a) } })
theorem Twin.landCaps (h : Twin T L x y) (ls : List Nat) : Twin T L (x.landCaps ls) (y.landCaps ls) := by
  unfold State.landCaps
  rw [h.same (·.press)]
  exact .foldl Twin.flush _ h

theorem Twin.revoke (h : Twin T L x y) (n : Nat) : Twin T L (x.revoke n) (y.revoke n) := by
  unfold State.revoke State.putLease State.setLease
  rw [h.same (·.lease n)]
  exact (h.writeHome _ _).touch _ _ _

/-- What lands before a revocation does not depend on the tenants. -/
theorem State.landCaps_withTenants (s : State) (T : Sparse Tenant) (ls : List Nat) :
    (s.withTenants T).landCaps ls = (s.landCaps ls).withTenants T :=
  (Twin.landCaps (L := s.ledger) ⟨rfl, rfl⟩ ls).tenants
theorem State.revoke_withTenants (s : State) (T : Sparse Tenant) (n : Nat) :
    (s.withTenants T).revoke n = (s.revoke n).withTenants T :=
  (Twin.revoke (L := s.ledger) ⟨rfl, rfl⟩ n).tenants
theorem State.ledger_landCaps (s : State) (ls : List Nat) : (s.landCaps ls).ledger = s.ledger :=
  (Twin.landCaps (T := s.tenants) (x := s) ⟨rfl, rfl⟩ ls).ledger

end Sys2Proof.Machine
end

section
/-! A revocation and the end of a run: what they leave of the runs and of memory (R67, R69, R71, R338, R367). -/

namespace Sys2Proof.Machine

/-! ### Revocation (R67, R69) -/

/-- Telling the dies of a revocation changes nothing but the links. -/
theorem State.tellRevoked_keeps {γ : Type} (g : State → γ) (links : ∀ s l, g { s with links := l } = g s)
    (s : State) (n : Nat) : g (s.tellRevoked n) = g s := by
  have sent (s : State) (d e : Nat) (xs : List LinkItem) : g (s.sendItems d e xs) = g s := by
    obtain h | ⟨p, x, h⟩ := s.sendItems_eq d e xs <;> rw [h]
    exact links s _
  refine foldl_keeps g _ (fun s d => ?_) _ s
  split
  · rfl
  · exact (sent _ _ _ _).trans (sent _ _ _ _)
theorem State.touch_runs (s : State) (a : Nat) (w : Writer) (b : Bool) : (s.touch a w b).runs = s.runs := by
  unfold State.touch State.touchSector
  split <;> rfl
theorem State.revoke_runs (s : State) (n : Nat) : (s.revoke n).runs = s.runs :=
  (State.touch_runs _ _ _ _).trans (s.writeHome_runs _ _)
theorem State.ledger_revokeAll (s : State) (ls : List Nat) : (s.revokeAll ls).ledger = s.ledger := by
  have runs : (s.revokeAll ls).runs = (s.landCaps ls).runs :=
    (foldl_keeps State.runs _ (State.tellRevoked_keeps State.runs fun _ _ => rfl) ls _).trans
      (foldl_keeps State.runs _ State.revoke_runs ls _)
  exact (congrArg (List.map Run.ledger) runs).trans (s.ledger_landCaps ls)

/-! ### A core leaves its run (R338) -/

theorem State.dropCore_runs (s : State) (run k : Nat) : (s.dropCore run k).runs = s.runs := by
  unfold State.dropCore
  extract_lets c _ unwatched freed _ _ unsaved
  split
  · exact foldl_keeps State.runs (fun u n => u.setCtxOf (.ctx k n) (u.ctxOf (.ctx k n)).freed) (fun _ _ => rfl) _ unwatched
  · have kept : unsaved.runs = s.runs := by
      unfold unsaved
      split
      · split <;> rfl
      · rfl
    exact kept

/-! ### The run of a number -/

theorem State.id_of_run? {s : State} {i : Nat} {r : Run} (h : s.run? i = some r) : r.id.toNat = i := by
  simpa using List.find?_some h
theorem State.run?_map (s : State) (i : Nat) (g : Run → Run) (h : ∀ r, (g r).id = r.id) :
    (s.runs.map g).find? (fun r => r.id.toNat == i) = (s.run? i).map g := by
  rw [List.find?_map, State.run?]
  simp only [Function.comp_def, h]
theorem State.run?_updRun (s : State) (i : Nat) (g : Run → Run) (h : ∀ r, (g r).id = r.id) :
    (s.updRun i g).run? i = (s.run? i).map g := by
  rw [State.run?, State.updRun, State.run?_map]
  · cases found : s.run? i with
    | none => rfl
    | some r => simp [State.id_of_run? found]
  · intro r
    split
    · exact h r
    · rfl
theorem State.run?_of_ledger {s t : State} (h : t.ledger = s.ledger) {i : Nat} {r : Run} (found : s.run? i = some r) :
    ∃ x, t.run? i = some x ∧ x.ledger = r.ledger := by
  have kept : (t.run? i).map Run.ledger = (s.run? i).map Run.ledger := by
    rw [← State.run?_map t i Run.ledger fun _ => rfl, ← State.run?_map s i Run.ledger fun _ => rfl]
    exact congrArg (List.find? _) h
  rw [found] at kept
  exact Option.map_eq_some_iff.1 kept
theorem State.finishRun_run? (s : State) (r : Run) (status : BitVec 4) : (s.finishRun r status).run? r.id.toNat = none := by
  refine List.find?_eq_none.2 fun x hx => ?_
  obtain ⟨-, other⟩ := List.mem_filter.1 hx
  rw [beq_iff_eq, BitVec.toNat_inj]
  simpa using other

/-! ### The end of a run (R338, R367) -/

/-- A run that is to end keeps its status and its cause when it stops; it is over where no core holds it. -/
theorem State.run?_finishStop {s : State} {run : Nat} {r : Run} (found : s.run? run = some r) (ending : r.ending.isSome = true) :
    ∃ x, (s.finishStop run).run? run = some x ∧ x.ending = r.ending ∧ x.f.cause = r.f.cause ∧
      (s.cores.any (fun k => k.2.run == some run) = false → x.state = .ended) := by
  unfold State.finishStop
  split
  next absent => exact absurd (absent.symm.trans found) nofun
  next r' found' =>
  obtain rfl := Option.some.inj (found.symm.trans found')
  split
  case isTrue waits =>
    refine ⟨r, found, rfl, rfl, fun free => ?_⟩
    simpa [free, Option.isSome_iff_ne_none.1 ending] using waits
  case isFalse =>
    extract_lets dropped _ quiet revoked
    have ledger : revoked.ledger = s.ledger := (State.ledger_revokeAll _ _).trans
      (congrArg (List.map Run.ledger) (foldl_keeps State.runs _ (fun s k => s.dropCore_runs run k) _ s))
    obtain ⟨x, hx, same⟩ := State.run?_of_ledger ledger found
    have status : x.ending = r.ending := (congrArg Run.ending same :)
    have cause : x.f.cause = r.f.cause := (congrArg (fun r => r.f.cause) same :)
    refine ⟨{ x with state := .ended }, ?_, status, cause, fun _ => rfl⟩
    have := revoked.run?_updRun run (fun r => { r with state := .ended }) fun _ => rfl
    rw [hx] at this
    exact this
/-- A run that the host kills ends with status 4 (R367, R369). -/
theorem State.run?_stopRun_kill {s : State} {run : Nat} {r : Run} (found : s.run? run = some r) (alive : r.ending = none) :
    ∃ x, (s.stopRun run 4 []).run? run = some x ∧ x.ending = some 4 ∧
      (s.cores.any (fun k => k.2.run == some run) = false → x.state = .ended) ∧
      (r.state = .preempted → r.f.fault = false → x.f.cause = 0x30) := by
  have told := s.run?_updRun run (fun r => r.endWith 4) fun _ => rfl
  rw [found] at told
  have ending : (r.endWith 4).ending = some 4 := by simp [Run.endWith, alive]
  obtain ⟨x, hx, status, cause, left⟩ := State.run?_finishStop told (by rw [ending]; rfl)
  refine ⟨x, hx, status.trans ending, left, fun preempted clean => cause.trans ?_⟩
  simp [Run.endWith, alive, preempted, clean]

theorem runEnd_events (s : State) (run : Nat) (r : Run) (found : s.run? run = some r) :
    (s.hartLive (queueHart r.queue) = false → exec (.runEnd run) s = .next s) ∧
    (∀ status, r.ending = some status → s.hartLive (queueHart r.queue) = true →
      (r.state = .ended → ∃ t, exec (.runEnd run) s = .next t ∧ t.run? run = none) ∧
      (r.state ≠ .ended → exec (.runEnd run) s = .next s)) ∧
    (r.ending = none → s.runDone r = true → s.hartLive (queueHart r.queue) = true →
      ∃ t, exec (.runEnd run) s = .next t ∧ t.run? run = none) := by
  have gone (u : State) (status : BitVec 4) : (u.finishRun r status).run? run = none := by
    have := u.finishRun_run? r status
    rwa [State.id_of_run? found] at this
  simp only [exec_runEnd, execRunEnd, found]
  refine ⟨fun dead => ?_, fun status ending live => ⟨fun ended => ?_, fun running => ?_⟩, fun alive done live => ?_⟩
  · rw [dead]
    rfl
  · simp only [live, ending, ended]
    exact ⟨_, rfl, gone _ _⟩
  · simp [live, ending, running]
  · simp only [live, alive, done]
    exact ⟨_, rfl, gone _ _⟩
end Sys2Proof.Machine
end

section
/-! Launches and binaries: what a core receives, which outcome a LAUNCH has, what loading and unloading a binary leave
(R71, R306, R307, R364, R365, R384, R403). -/

namespace Sys2Proof.Machine

/-! ### What a core receives (R306, R401) -/

/-- Capabilities in memory change the bytes, the tags and the poison of memory, and nothing else. -/
theorem State.writeCaps_keeps {γ : Type} (g : State → γ)
    (memory : ∀ s m t p, g { s with mem := m, tags := t, poison := p } = g s) (s : State) (a : Nat) (cs : List Cap) :
    g (s.writeCaps a cs) = g s := by
  induction cs generalizing s a with
  | nil => rfl
  | cons c rest ih =>
    obtain ⟨m, t, p, h⟩ := s.writeHome_shape a (leBytes 32 c.bits.toNat)
    rw [State.writeCaps, ih, State.writeCap, h]
    exact memory s _ _ _
theorem State.writeHome_keeps {γ : Type} (g : State → γ)
    (memory : ∀ s m t p, g { s with mem := m, tags := t, poison := p } = g s) (s : State) (a : Nat) (bs : List Byte) :
    g (s.writeHome a bs) = g s := by
  obtain ⟨m, t, p, h⟩ := s.writeHome_shape a bs
  rw [h]
  exact memory s _ _ _

theorem State.numCores_le (s : State) : s.numCores ≤ 1536 := by
  unfold State.numCores State.numDies
  split <;> decide
/-- The slots of a core have numbers of their own. -/
theorem agentKey_slot_ne {core i : Nat} (hc : core < 1536) : agentKey (.ctx core i) ≠ agentKey (.copy core) ∧
    agentKey (.ctx core i) ≠ agentKey (.epi core) := by
  simp only [agentKey]
  omega
theorem State.ctxOf_foldl_setCtxOf (s : State) (core : Nat) (c : Nat → Ctx) {n i : Nat} (hn : n ≤ 4) (hi : i < n) :
    ((List.range n).foldl (fun s i => s.setCtxOf (.ctx core i) (c i)) s).ctxOf (.ctx core i) = c i := by
  induction n with
  | zero => omega
  | succ n ih =>
    rw [List.range_succ, List.foldl_append, List.foldl_cons, List.foldl_nil, State.ctxOf_setCtxOf]
    rcases Nat.lt_succ_iff_lt_or_eq.1 hi with earlier | rfl
    · rw [if_neg (by simp only [agentKey]; omega)]
      exact ih (by omega) earlier
    · exact if_pos rfl

theorem LaunchPlan.regs_g (l : LaunchPlan) (core rank slot : Nat) :
    (l.regs core rank slot).g[1] = BitVec.ofNat 64 rank ∧ (l.regs core rank slot).g[2] = BitVec.ofNat 64 l.cores.length ∧
      (l.regs core rank slot).g[3] = BitVec.ofNat 64 slot := by
  simp [LaunchPlan.regs]

theorem State.launchCore_effects (s : State) (l : LaunchPlan) (id : Word) (prio : BitVec 2) {core : Nat}
    (hc : core < s.numCores) :
    let t := s.launchCore l id prio core
    (t.coreAt core).run = some id.toNat ∧ (t.coreAt core).arrived = some l.domain.level ∧ (t.coreAt core).walloc = l.walloc ∧
    (t.coreAt core).rcc = l.code ∧ t.runs = s.runs ∧
    ∀ i, i < 4 → i < l.nctx → t.ctxOf (.ctx core i) = l.ctx core (indexIn l.cores core) i prio := by
  have slots := fun i => agentKey_slot_ne (i := i) (hc.trans_le s.numCores_le)
  unfold State.launchCore
  extract_lets rank contexts harts k _ placed written t
  have kept {γ : Type} (g : State → γ) (memory : ∀ s m t p, g { s with mem := m, tags := t, poison := p } = g s) :
      g t = g placed := by
    have home : g written = g placed := (State.writeHome_keeps g memory _ _ _).trans (State.writeHome_keeps g memory _ _ _)
    unfold t
    split
    · exact home
    · exact (State.writeCaps_keeps g memory _ _ _).trans home
  rw [kept (·.coreAt core) fun _ _ _ _ => rfl, State.coreAt_setCoreAt_self]
  refine ⟨rfl, rfl, rfl, rfl, ?_, fun i hi used => ?_⟩
  · calc t.runs
      _ = placed.runs := kept State.runs fun _ _ _ _ => rfl
      _ = harts.runs := State.setCoreAt_runs _ _ _
      _ = contexts.runs := rfl
      _ = s.runs := foldl_keeps State.runs _ (fun _ _ => State.setCtxOf_runs _ _ _) _ s
  · calc t.ctxOf (.ctx core i)
      _ = placed.ctxOf (.ctx core i) := kept (·.ctxOf (.ctx core i)) fun _ _ _ _ => rfl
      _ = harts.ctxOf (.ctx core i) := congrArg (Sparse.get Ctx.reset · _) (State.setCoreAt_ctxs _ _ _)
      _ = contexts.ctxOf (.ctx core i) := by
        rw [State.ctxOf_setCtxOf, if_neg (slots i).2, State.ctxOf_setCtxOf, if_neg (slots i).1]
      _ = if i < l.nctx then l.ctx core rank i prio else Ctx.reset := State.ctxOf_foldl_setCtxOf s core _ (le_refl 4) hi
      _ = l.ctx core rank i prio := if_pos used

/-! ### LAUNCH (R364, R365) -/

theorem launch_refused {s : State} {q : Nat} {p : Packet} {e : Miss} (start : s.startable q 1 = some p)
    (fresh : s.preparing q p = none) (wrong : s.prepare (s.client q) p none = .error e) :
    ((∀ c ∈ s.domainCores (launchDomain (p.word 0)), s.coreFree c = true) →
      exec (.launch q) s = .next (s.refuseLaunch q (s.queue q).gen (s.client q) p e)) ∧
    ((∃ c ∈ s.domainCores (launchDomain (p.word 0)), s.coreFree c = false) → s.hopeless (s.client q) p = false →
      exec (.launch q) s = .next s) := by
  simp only [exec_launch, execLaunch, start, fresh, wrong, Option.isSome_none, Bool.false_eq_true, if_false]
  refine ⟨fun free => if_pos ?_, fun ⟨c, member, taken⟩ hope => if_neg ?_⟩
  · rw [List.all_eq_true.2 free, Bool.true_or]
  · rw [hope, Bool.or_false, List.all_eq_true]
    exact fun free => Bool.false_ne_true (taken.symm.trans (free c member))
theorem State.launchable_eq {s : State} {q : Nat} {p : Packet} {l : LaunchPlan} {id : Word} (start : s.startable q 1 = some p)
    (fresh : s.preparing q p = none) (plan : s.prepare (s.client q) p none = .ok l) (free : l.cores.all s.coreFree = true)
    (ready : s.diesReady l = true) (number : s.newRunId = some id) : s.launchable q = some (p, l) := by
  simp only [State.launchable, start, fresh, plan, free, ready, number, Option.isSome_none, Option.isSome_some,
    Bool.false_eq_true, if_false, Bool.and_self, if_true]
theorem launch_started {s : State} {q : Nat} {p : Packet} {l : LaunchPlan} {id : Word} (start : s.startable q 1 = some p)
    (fresh : s.preparing q p = none) (plan : s.prepare (s.client q) p none = .ok l) (free : l.cores.all s.coreFree = true)
    (ready : s.diesReady l = true) (number : s.newRunId = some id)
    (first : (s.queues.map Prod.fst).any (s.goesFirst p.prio q) = false) :
    let r := s.newRun q p l id [] none
    let v := s.readLaunch (s.client q) p
    let u : State := { v with runs := v.runs ++ [r], dev := { v.dev with nextRun := v.dev.nextRun + 1, robin := q } }
    exec (.launch q) s = .next (u.startRunOn r l) := by
  have chosen := State.launchable_eq start fresh plan free ready number
  simp only [exec_launch, execLaunch, start, fresh, plan, chosen, number, first, Option.isSome_none, Bool.false_eq_true, if_false]

/-! ### Binaries (R71, R384, R403) -/

theorem binaryLoad_outcome (s : State) (b : BinaryImage) :
    (hostLaunches b.version.1 b.version.2 = false → exec (.binaryLoad b) s = .next s) ∧
    (hostLaunches b.version.1 b.version.2 = true →
      (∀ t, s.loadBinary b = some t → exec (.binaryLoad b) s = .next t) ∧
      (s.loadBinary b = none → exec (.binaryLoad b) s = .next s)) := by
  simp only [exec_binaryLoad, execBinaryLoad, reportedVersion]
  refine ⟨fun old => by simp [old], fun good => ⟨fun t loaded => ?_, fun failed => ?_⟩⟩
  · simp [good, loaded]
  · simp [good, failed]

theorem State.lease_of_mem {s t : State} (h : t.mem = s.mem) (n : Nat) : t.lease n = s.lease n := by
  have bytes : t.byteAt = s.byteAt := by
    funext a
    rw [State.byteAt, h, State.byteAt]
  simp only [State.lease, State.wordAt, State.bytesAt, bytes]
theorem State.lease_revoke_self (s : State) {n : Nat} (h : n ≠ 0) :
    (s.revoke n).lease n = { s.lease n with state := 2, gen := (s.lease n).gen + 1 } := by
  rw [State.revoke, State.putLease, State.lease_of_mem (State.touch_mem _ _ _ _), State.lease_setLease_self, if_neg h]
theorem State.byteAt_revoke_outside (s : State) {n a : Nat} (h : ¬ (leasePlace n ≤ a ∧ a < leasePlace n + 32)) :
    (s.revoke n).byteAt a = s.byteAt a := by
  rw [State.revoke, State.putLease, State.byteAt_touch, State.setLease, State.byteAt_writeHome]
  exact if_neg h
theorem State.mem_revokeAll_one (s : State) (n : Nat) : (s.revokeAll [n]).mem = ((s.landCaps [n]).revoke n).mem :=
  foldl_keeps State.mem _ (State.tellRevoked_keeps State.mem fun _ _ => rfl) [n] _

/-- The machine when no .data section of some leases is kept any more: the step before their revocation. -/
def State.unloaded (s : State) (ls : List Nat) : State :=
  s.withTenants (s.tenants.map (fun p => (p.1, { p.2 with data := p.2.data.filter (fun x => !ls.contains x.1) })))
/-- An unloaded lease is revoked, at a memory that holds what landed before; the tenants have no part in it (R71). -/
theorem binaryUnload_revokes (s : State) {n : Nat} (nonzero : n ≠ 0) (live : (s.lease n).state = 1)
    (minted : (s.lease n).run = 0) (own : (s.lease n).parent.toNat = n) :
    let u := s.landCaps [n]
    ∃ t, exec (.binaryUnload [n]) s = .next t ∧ (t.lease n).state = 2 ∧ (t.lease n).gen = (u.lease n).gen + 1 ∧
      n ∈ t.leases.eligible ∧ ∀ a, ¬ (leasePlace n ≤ a ∧ a < leasePlace n + 32) → t.byteAt a = u.byteAt a := by
  intro u
  have still : (s.unloaded [n]).lease n = s.lease n := rfl
  have run : exec (.binaryUnload [n]) s = .next ((s.unloaded [n]).revokeAll [n]) := by
    have kept : [n].eraseDups.filter (fun n => let e := (s.unloaded [n]).lease n
        n ≠ 0 && e.state = 1 && e.run = 0 && e.parent.toNat == n) = [n] := by
      rw [show [n].eraseDups = [n] from rfl]
      simp [still, nonzero, live, minted, own]
    exact congrArg (fun ls => Host.Outcome.next ((s.unloaded [n]).revokeAll ls)) kept
  have mem : ((s.unloaded [n]).revokeAll [n]).mem = (u.revoke n).mem := by
    rw [State.mem_revokeAll_one, State.unloaded, State.landCaps_withTenants, State.revoke_withTenants]
    rfl
  have lease := (State.lease_of_mem mem n).trans (u.lease_revoke_self nonzero)
  refine ⟨_, run, by rw [lease], by rw [lease], List.mem_append_right _ (List.mem_singleton_self n), fun a ha => ?_⟩
  rw [State.byteAt, mem]
  exact u.byteAt_revoke_outside ha

/-- Settles O50, event by event. -/
theorem launchEvents : Obligations.LaunchEvents := by
  unfold Obligations.LaunchEvents
  refine ⟨fun s q p l start fresh => ⟨fun e wrong => ?_, fun id plan free ready number first => ?_⟩,
    fun s l id prio core hc => ?_, fun s run r found => ?_, binaryLoad_outcome, fun s n => binaryUnload_revokes s⟩
  · obtain ⟨refused, waits⟩ := launch_refused start fresh wrong
    exact ⟨refused, waits, rfl⟩
  · exact launch_started start fresh plan free ready number first
  · obtain ⟨run, arrived, walloc, rcc, runs, ctxs⟩ := s.launchCore_effects l id prio hc
    refine ⟨run, arrived, walloc, rcc, runs, fun i hi used => ?_⟩
    dsimp only
    rw [ctxs i hi used]
    exact ⟨rfl, rfl, rfl, rfl, l.regs_g core _ i⟩
  · obtain ⟨dead, stopped, done⟩ := runEnd_events s run r found
    refine ⟨dead, stopped, done, fun alive => ?_⟩
    obtain ⟨x, hx, killed⟩ := State.run?_stopRun_kill found alive
    refine ⟨s.stopRun run 4 [], x, ?_, hx, killed⟩
    rw [exec_hostKill, execHostKill, found]
end Sys2Proof.Machine
end

section
/-! How a body goes on after each of the operations it may begin with, and what a body that may only trap leaves.
From here on proofs are elaborated one after another: side by side they need more memory than a compile of the text may take. -/

namespace Sys2Proof.Machine
set_option Elab.async false

/-! ### The first operation of a body -/

@[simp] theorem M.get_bind {α : Type} (f : State → M α) (s : State) : ((get : M State) >>= f) s = f s s := rfl
@[simp] theorem M.set_bind {α : Type} (t : State) (f : PUnit → M α) (s : State) : ((set t : M PUnit) >>= f) s = f () t := rfl
@[simp] theorem M.modify_bind {α : Type} (g : State → State) (f : PUnit → M α) (s : State) :
    ((modify g : M PUnit) >>= f) s = f () (g s) := rfl
@[simp] theorem M.throw_bind {α β : Type} (e : Stop) (f : α → M β) (s : State) : ((throw e : M α) >>= f) s = .error e s := rfl
@[simp] theorem M.trap_bind {α β : Type} (cause : BitVec 8) (eval : Word) (f : α → M β) (s : State) :
    ((trap cause eval : M α) >>= f) s = .error (.trap cause eval .none) s := rfl
@[simp] theorem M.need_bind {α : Type} (ok : Bool) (cause : BitVec 8) (eval : Word) (f : Unit → M α) (s : State) :
    (need ok cause eval >>= f) s = if ok = true then f () s else .error (.trap cause eval .none) s := by
  cases ok <;> rfl
@[simp] theorem M.needOpen_bind {α : Type} (ok : Bool) (cause : BitVec 8) (f : Unit → M α) (s : State) :
    (needOpen ok cause >>= f) s = if ok = true then f () s else .error (.trap cause s.openEval .none) s := by
  cases ok <;> rfl
@[simp] theorem M.need_eq (ok : Bool) (cause : BitVec 8) (eval : Word) (s : State) :
    need ok cause eval s = if ok = true then .ok () s else .error (.trap cause eval .none) s := by
  cases ok <;> rfl

/-! ### Bodies that can only trap -/

/-- The operation completes with `P`, or it traps. -/
def M.TrapsOr {α : Type} (x : M α) (s : State) (P : α → State → Prop) : Prop :=
  match x s with
  | .ok a t => P a t
  | .error stop _ => ∃ cause eval note, stop = .trap cause eval note

theorem M.TrapsOr.bind {α β : Type} {x : M α} {f : α → M β} {s : State} {P : β → State → Prop}
    (h : M.TrapsOr x s fun a t => M.TrapsOr (f a) t P) : M.TrapsOr (x >>= f) s P := by
  unfold M.TrapsOr at *
  rw [M.bind_eq]
  cases hx : x s with
  | ok a t => simpa [hx] using h
  | error e t => simpa [hx] using h
theorem M.TrapsOr.get {α : Type} {f : State → M α} {s : State} {P : α → State → Prop} (h : M.TrapsOr (f s) s P) :
    M.TrapsOr ((get : M State) >>= f) s P := h
theorem M.TrapsOr.need {α : Type} {ok : Bool} {cause : BitVec 8} {eval : Word} {f : Unit → M α} {s : State}
    {P : α → State → Prop} (h : ok = true → M.TrapsOr (f ()) s P) : M.TrapsOr (need ok cause eval >>= f) s P := by
  cases ok with
  | false => exact ⟨_, _, _, rfl⟩
  | true => exact h rfl
theorem M.TrapsOr.needOpen {α : Type} {ok : Bool} {cause : BitVec 8} {f : Unit → M α} {s : State}
    {P : α → State → Prop} (h : ok = true → M.TrapsOr (f ()) s P) : M.TrapsOr (needOpen ok cause >>= f) s P := by
  cases ok with
  | false => exact ⟨_, _, _, rfl⟩
  | true => exact h rfl
theorem M.TrapsOr.step1 {f : State → State} {s : State} {P : Option Word → State → Prop} (h : P none (f s)) :
    M.TrapsOr (step1 f) s P := h
theorem M.TrapsOr.ite {α : Type} {p : Prop} [Decidable p] {x y : M α} {s : State} {P : α → State → Prop}
    (h : p → M.TrapsOr x s P) (h' : ¬ p → M.TrapsOr y s P) : M.TrapsOr (if p then x else y) s P := by
  split
  · exact h ‹_›
  · exact h' ‹_›

/-- What an instruction leaves whose body completes in sequence or traps. -/
theorem runInstr_trapsOr {i : Instr} {body : M (Option Word)} {s t : State} {Q : State → Prop}
    (h : M.TrapsOr body s fun a u => a = none ∧ Q u) (run : runInstr i body s = .next t) :
    (∃ cause eval note, t = (s.noted note).takeTrap cause eval 0) ∨ ∃ u, Q u ∧ t = s.after i u := by
  unfold runInstr at run
  split at run
  · cases run; exact .inl ⟨_, _, .none, rfl⟩
  · split at run
    · cases run; exact .inl ⟨_, _, .none, rfl⟩
    · unfold M.TrapsOr at h
      cases hb : body s with
      | ok a u =>
        rw [hb] at h run
        obtain ⟨rfl, hq⟩ := h
        cases run
        exact .inr ⟨u, hq, rfl⟩
      | error stop u =>
        rw [hb] at h run
        obtain ⟨cause, eval, note, rfl⟩ := h
        cases run
        exact .inl ⟨cause, eval, note, rfl⟩

end Sys2Proof.Machine
end

section
/-! No derivation widens a capability (R55, R62, R63). -/

namespace Sys2Proof.Machine
set_option Elab.async false

/-! ### What setting an extent or a stride leaves -/

section
variable (c : Cap) (k j : Nat)

@[simp] theorem Cap.moved_base (off : Int) : (c.moved off).base = BitVec.ofInt 48 (c.base.toNat + off) := rfl
@[simp] theorem Cap.moved_fmt (off : Int) : (c.moved off).fmt = c.fmt := rfl
@[simp] theorem Cap.moved_ext (off : Int) : (c.moved off).ext k = c.ext k := rfl
@[simp] theorem Cap.moved_stride (off : Int) : (c.moved off).stride k = c.stride k := rfl
@[simp] theorem Cap.withExt_base (e : Nat) : (c.withExt k e).base = c.base := by unfold Cap.withExt; split_ifs <;> rfl
@[simp] theorem Cap.withExt_fmt (e : Nat) : (c.withExt k e).fmt = c.fmt := by unfold Cap.withExt; split_ifs <;> rfl
@[simp] theorem Cap.withExt_stride (e : Nat) : (c.withExt k e).stride j = c.stride j := by
  unfold Cap.withExt; split_ifs <;> rfl
@[simp] theorem Cap.withStride_base (x : Int) : (c.withStride k x).base = c.base := by
  unfold Cap.withStride; split_ifs <;> rfl
@[simp] theorem Cap.withStride_fmt (x : Int) : (c.withStride k x).fmt = c.fmt := by unfold Cap.withStride; split_ifs <;> rfl
@[simp] theorem Cap.withStride_ext (x : Int) : (c.withStride k x).ext j = c.ext j := by
  unfold Cap.withStride; split_ifs <;> rfl
theorem Cap.ext_pos : 1 ≤ c.ext k := Nat.le_add_left 1 _
theorem Cap.ext_le : c.ext k ≤ 65536 := by unfold Cap.ext; omega
/-- The extent set is the one read, of dimensions 0 to 3. -/
theorem Cap.ext_withExt {e : Nat} (hk : k < 4) (hj : j < 4) (lo : 1 ≤ e) (hi : e ≤ 65536) :
    (c.withExt k e).ext j = if j = k then e else c.ext j := by
  have back : (e - 1) % 65536 + 1 = e := by omega
  interval_cases k <;> interval_cases j <;> simp [Cap.withExt, Cap.ext, back]

/-- The stride set is the one read, where it fits its field (R63). -/
theorem Cap.stride_withStride {x : Int} (hk : k < 4) (hj : j < 4) (h0 : k ≠ 0) (fits : strideFits c k x = true) :
    (c.withStride k x).stride j = if j = k then x else c.stride j := by
  have word (lo : -2147483648 ≤ x) (hi : x < 2147483648) : (BitVec.ofInt 32 x).toInt = x := by
    rw [BitVec.toInt_ofInt]; exact Int.bmod_eq_of_le (by omega) (by omega)
  have part (lo : -8388608 ≤ x) (hi : x < 8388608) : (BitVec.ofInt 24 x).toInt = x := by
    rw [BitVec.toInt_ofInt]; exact Int.bmod_eq_of_le (by omega) (by omega)
  simp only [strideFits, Bool.and_eq_true] at fits
  obtain ⟨fits, -⟩ := fits
  interval_cases k
  · exact absurd rfl h0
  all_goals
    simp at fits
    interval_cases j <;> simp [Cap.withStride, Cap.stride, word, part, fits]

end

/-! ### The footprint (R55) -/

theorem Cap.reach_eq (c : Cap) (k : Nat) :
    c.reach k = (min 0 (c.stride k * ((c.ext k : Int) - 1)), max 0 (c.stride k * ((c.ext k : Int) - 1))) := by
  unfold Cap.reach
  dsimp only
  split
  · next h => rw [min_eq_right h.le, max_eq_left h.le]
  · next h => rw [min_eq_left (not_lt.1 h), max_eq_right (not_lt.1 h)]

/-- The least and the greatest linear element of the footprint. -/
def Cap.lowLin (c : Cap) : Int := (c.reach 0).1 + (c.reach 1).1 + (c.reach 2).1 + (c.reach 3).1
def Cap.highLin (c : Cap) : Int := (c.reach 0).2 + (c.reach 1).2 + (c.reach 2).2 + (c.reach 3).2
/-- Bytes of the last element of a footprint. -/
def Cap.lastBytes (f : Nat) : Int := if Fmt.isBpi f then 32 * Fmt.planes f else if f = 0x0F then 1 else Fmt.size f

theorem Cap.bounds_of_not_code {c : Cap} (h : c.fmt.toNat ≠ Fmt.code) :
    c.bounds = (c.base.toNat + c.elemBytes c.lowLin, c.base.toNat + c.elemBytes c.highLin + Cap.lastBytes c.fmt.toNat) := by
  have zero : c.reach 0 = (0, (c.ext 0 : Int) - 1) := by
    have := c.ext_pos 0
    simp only [Cap.reach_eq, Cap.stride, if_true, one_mul]
    rw [min_eq_left (by omega), max_eq_right (by omega)]
  have hi : (c.reach 1).2 + (c.reach 2).2 + (c.reach 3).2 + ((c.ext 0 : Int) - 1) = c.highLin := by
    rw [Cap.highLin, zero]; ring
  have lo : (c.reach 1).1 + (c.reach 2).1 + (c.reach 3).1 = c.lowLin := by rw [Cap.lowLin, zero]; ring
  simp only [Cap.bounds, if_neg h, lo, hi, Cap.lastBytes]
theorem Cap.bounds_of_code {c : Cap} (h : c.fmt.toNat = Fmt.code) :
    c.bounds = ((c.base.toNat : Int), (c.base.toNat : Int) + 64 * c.ext 0) := by rw [Cap.bounds, if_pos h]

theorem Cap.elemBytes_mono (c : Cap) {x y : Int} (h : x ≤ y) : c.elemBytes x ≤ c.elemBytes y := by
  unfold Cap.elemBytes
  dsimp only
  split_ifs
  · omega
  · omega
  · exact Int.mul_le_mul_of_nonneg_left h (by positivity)

/-- A part of a footprint whose elements are some of the whole's, told by their distance from BASE. -/
theorem Cap.bounds_within {p c : Cap} (code : p.fmt.toNat ≠ Fmt.code) (fmt : c.fmt = p.fmt) {m : Int}
    (base : ∀ x, (c.base.toNat : Int) + p.elemBytes x = p.base.toNat + p.elemBytes (m + x))
    (low : p.lowLin ≤ m + c.lowLin) (high : m + c.highLin ≤ p.highLin) :
    p.bounds.1 ≤ c.bounds.1 ∧ c.bounds.2 ≤ p.bounds.2 := by
  have same (x : Int) : c.elemBytes x = p.elemBytes x := by simp only [Cap.elemBytes, fmt]
  rw [Cap.bounds_of_not_code code, Cap.bounds_of_not_code (c := c) (by rwa [fmt])]
  simp only [same, base, fmt]
  have hl := p.elemBytes_mono low
  have hh := p.elemBytes_mono high
  omega

/-! ### Parts of one dimension -/

/-- Elements `n` to `n + len - 1` of a dimension reach no further than all its elements. -/
theorem reach_of_part (s : Int) {n len e : Int} (hn : 0 ≤ n) (hlen : 1 ≤ len) (he : n + len ≤ e) :
    min 0 (s * (e - 1)) ≤ n * s + min 0 (s * (len - 1)) ∧ n * s + max 0 (s * (len - 1)) ≤ max 0 (s * (e - 1)) := by
  rcases le_total 0 s with hs | hs
  · have first : 0 ≤ n * s := mul_nonneg hn hs
    have part : 0 ≤ s * (len - 1) := mul_nonneg hs (by omega)
    have last : n * s + s * (len - 1) ≤ s * (e - 1) := by
      have := mul_le_mul_of_nonneg_left (show n + len - 1 ≤ e - 1 by omega) hs; linarith [mul_comm n s, mul_sub s (n + len) 1, mul_add s n len, mul_sub s len 1]
    omega
  · have first : n * s ≤ 0 := mul_nonpos_of_nonneg_of_nonpos hn hs
    have part : s * (len - 1) ≤ 0 := mul_nonpos_of_nonpos_of_nonneg hs (by omega)
    have last : s * (e - 1) ≤ n * s + s * (len - 1) := by
      have := mul_le_mul_of_nonpos_left (show n + len - 1 ≤ e - 1 by omega) hs; linarith [mul_comm n s, mul_sub s (n + len) 1, mul_add s n len, mul_sub s len 1]
    omega

/-- Every `n`-th element of a dimension reaches no further than all its elements. -/
theorem reach_of_step (s : Int) {n e q : Int} (hq : 1 ≤ q) (h : n * (q - 1) ≤ e - 1) (hn : 0 ≤ n) :
    min 0 (s * (e - 1)) ≤ min 0 (s * n * (q - 1)) ∧ max 0 (s * n * (q - 1)) ≤ max 0 (s * (e - 1)) := by
  have inner : 0 ≤ n * (q - 1) := mul_nonneg hn (by omega)
  rw [mul_assoc]
  rcases le_total 0 s with hs | hs
  · have := mul_le_mul_of_nonneg_left h hs
    have := mul_nonneg hs inner
    omega
  · have := mul_le_mul_of_nonpos_left h hs
    have := mul_nonpos_of_nonpos_of_nonneg hs inner
    omega

/-- Where only dimension `k` differs, the linear elements differ by what that dimension reaches. -/
theorem Cap.lin_of_reach {p c : Cap} {k : Nat} (hk : k < 4) (others : ∀ j, j < 4 → j ≠ k → c.reach j = p.reach j) {m : Int}
    (low : (p.reach k).1 ≤ m + (c.reach k).1) (high : m + (c.reach k).2 ≤ (p.reach k).2) :
    p.lowLin ≤ m + c.lowLin ∧ m + c.highLin ≤ p.highLin := by
  unfold Cap.lowLin Cap.highLin
  have h0 := others 0 (by decide)
  have h1 := others 1 (by decide)
  have h2 := others 2 (by decide)
  have h3 := others 3 (by decide)
  interval_cases k <;> simp at h0 h1 h2 h3 <;> simp only [h0, h1, h2, h3] <;> omega

/-! ### Derivations (R62 to R64) -/

/-- A capability over no more than another: within its footprint, with no other permission, under the same lease, generation and
scope. -/
structure Cap.Within (p c : Cap) : Prop where
  tag : c.tag = true
  first : p.bounds.1 ≤ c.bounds.1
  last : c.bounds.2 ≤ p.bounds.2
  perm : c.perm &&& p.perm = c.perm
  lease : c.lease = p.lease
  gen : c.gen = p.gen
  scope : c.scope = p.scope

/-- What every capability that the machine derives or starts with keeps: its footprint lies in the address space, its BPI
strides are whole blocks (R63), and a SEALER has one dimension. -/
structure Cap.Regular (p : Cap) : Prop where
  first : 0 ≤ p.bounds.1
  last : p.bounds.2 ≤ 2 ^ 48
  blocks : Fmt.isBpi p.fmt.toNat = true → ∀ k, k ≠ 0 → p.stride k % 256 = 0
  sealer : p.fmt.toNat = Fmt.sealer → ∀ k, k ≠ 0 → p.ext k = 1

theorem Cap.withExt_keeps (c : Cap) (k e : Nat) : (c.withExt k e).tag = c.tag ∧ (c.withExt k e).perm = c.perm ∧
    (c.withExt k e).lease = c.lease ∧ (c.withExt k e).gen = c.gen ∧ (c.withExt k e).scope = c.scope := by
  unfold Cap.withExt; split_ifs <;> exact ⟨rfl, rfl, rfl, rfl, rfl⟩
theorem Cap.withStride_keeps (c : Cap) (k : Nat) (x : Int) : (c.withStride k x).tag = c.tag ∧
    (c.withStride k x).perm = c.perm ∧ (c.withStride k x).lease = c.lease ∧ (c.withStride k x).gen = c.gen ∧
    (c.withStride k x).scope = c.scope := by
  unfold Cap.withStride; split_ifs <;> exact ⟨rfl, rfl, rfl, rfl, rfl⟩

/-- A format with an element size has a last byte of an element. -/
theorem Fmt.lastBytes_pos {f : Nat} (h : Sys2Proof.Fmt.defined f = true) : 1 ≤ Cap.lastBytes f := by
  have lt : f < 0x25 := by simp [Sys2Proof.Fmt.defined] at h; omega
  have all : ∀ f < 0x25, Sys2Proof.Fmt.defined f = true → 1 ≤ Cap.lastBytes f := by decide
  exact all f lt h

/-- The alignment of a move along a dimension, as its check leaves it (R63). -/
def Cap.Aligned (c : Cap) (k : Nat) (n : Int) : Prop :=
  Sys2Proof.Fmt.defined c.fmt.toNat = true ∧ (k = 0 → Fmt.isBpi c.fmt.toNat = true → n % 256 = 0) ∧
    (c.fmt.toNat = 0x0F → n * c.stride k % 2 = 0)

/-- BASE moved by an aligned `n` along a dimension is the place of that element (R54, R63). -/
theorem Cap.elemBytes_moved {p : Cap} (reg : p.Regular) {k : Nat} {n : Int} (one : k ≠ 0 → p.fmt.toNat = Fmt.sealer → n = 0)
    (aligned : p.Aligned k n) (x : Int) : p.byteOffset k n + p.elemBytes x = p.elemBytes (n * p.stride k + x) := by
  obtain ⟨-, whole, even⟩ := aligned
  have zero : p.stride 0 = 1 := rfl
  unfold Cap.byteOffset Cap.elemBytes
  dsimp only
  split_ifs with bpi s4 sealer
  · have blocks : n * p.stride k % 256 = 0 := by
      by_cases h : k = 0
      · subst h; rw [zero, mul_one]; exact whole rfl bpi
      · rw [Int.mul_emod, reg.blocks bpi k h, mul_zero]; rfl
    omega
  · have := even s4
    omega
  · have size : Fmt.size p.fmt.toNat = 1 := by rw [sealer]; rfl
    rw [size, Nat.cast_one, one_mul, one_mul]
    by_cases h : k = 0
    · subst h; rw [zero, mul_one]
    · rw [one h sealer, zero_mul]
  · ring

theorem Cap.lowLin_nonpos (c : Cap) : c.lowLin ≤ 0 := by simp only [Cap.lowLin, Cap.reach_eq]; omega
theorem Cap.highLin_nonneg (c : Cap) : 0 ≤ c.highLin := by simp only [Cap.highLin, Cap.reach_eq]; omega

/-- BASE moved to an element of the footprint is that element's place: nothing wraps. -/
theorem Cap.moved_inside {p : Cap} (reg : p.Regular) (code : p.fmt.toNat ≠ Fmt.code) {k : Nat} {n : Int}
    (one : k ≠ 0 → p.fmt.toNat = Fmt.sealer → n = 0) (aligned : p.Aligned k n) (low : p.lowLin ≤ n * p.stride k)
    (high : n * p.stride k ≤ p.highLin) :
    ((p.moved (p.byteOffset k n)).base.toNat : Int) = p.base.toNat + p.byteOffset k n := by
  have place := p.elemBytes_moved reg one aligned 0
  have none : p.elemBytes 0 = 0 := by unfold Cap.elemBytes; simp
  rw [none, add_zero, add_zero] at place
  have first := p.elemBytes_mono low
  have last := p.elemBytes_mono high
  have width := Fmt.lastBytes_pos aligned.1
  have lo := reg.first
  have hi := reg.last
  rw [Cap.bounds_of_not_code code] at lo hi
  dsimp only at lo hi
  rw [Cap.moved_base, BitVec.toNat_ofInt]
  omega

/-- A part of a dimension lies within the footprint (R63). -/
theorem Cap.sliced_within {p : Cap} (reg : p.Regular) (tag : p.tag = true) (code : p.fmt.toNat ≠ Fmt.code) {k : Nat}
    (hk : k < 4) {n : Int} {len : Nat} (hn : 0 ≤ n) (hlen : 1 ≤ len) (part : n + len ≤ p.ext k) (aligned : p.Aligned k n) :
    p.Within (p.sliced k n len) := by
  have le := p.ext_le k
  have ext (j : Nat) (hj : j < 4) : (p.sliced k n len).ext j = if j = k then len else p.ext j :=
    Cap.ext_withExt _ k j hk hj hlen (by omega)
  have stride (j : Nat) : (p.sliced k n len).stride j = p.stride j := by simp [Cap.sliced]
  have fmt : (p.sliced k n len).fmt = p.fmt := by simp [Cap.sliced]
  have one : k ≠ 0 → p.fmt.toNat = Fmt.sealer → n = 0 := fun h sealer => by
    have := reg.sealer sealer k h
    omega
  have inner := reach_of_part (p.stride k) hn (show (1 : Int) ≤ len by omega) part
  have lin : p.lowLin ≤ n * p.stride k + (p.sliced k n len).lowLin ∧
      n * p.stride k + (p.sliced k n len).highLin ≤ p.highLin := by
    refine Cap.lin_of_reach hk (fun j hj ne => ?_) ?_ ?_
    · rw [Cap.reach_eq, Cap.reach_eq, ext j hj, stride, if_neg ne]
    · rw [Cap.reach_eq, Cap.reach_eq, ext k hk, stride, if_pos rfl]
      exact inner.1
    · rw [Cap.reach_eq, Cap.reach_eq, ext k hk, stride, if_pos rfl]
      exact inner.2
  have base : ((p.sliced k n len).base.toNat : Int) = p.base.toNat + p.byteOffset k n := by
    have low := (p.sliced k n len).lowLin_nonpos
    have high := (p.sliced k n len).highLin_nonneg
    rw [Cap.sliced, Cap.withExt_base]
    exact Cap.moved_inside reg code one aligned (by omega) (by omega)
  have bounds := Cap.bounds_within code fmt (m := n * p.stride k)
    (fun x => by rw [base, ← p.elemBytes_moved reg one aligned x]; ring) lin.1 lin.2
  obtain ⟨htag, hperm, hlease, hgen, hscope⟩ := (p.moved (p.byteOffset k n)).withExt_keeps k len
  exact ⟨htag.trans tag, bounds.1, bounds.2, by rw [Cap.sliced, hperm]; exact BitVec.and_self, hlease, hgen, hscope⟩

/-- Some of the lines of a CODE capability lie within its footprint (the CSLICE entry). -/
theorem Cap.slicedCode_within {p : Cap} (reg : p.Regular) (tag : p.tag = true) (code : p.fmt.toNat = Fmt.code) {n : Int}
    {len : Nat} (hn : 0 ≤ n) (hlen : 1 ≤ len) (part : n + len ≤ p.ext 0) : p.Within (p.slicedCode n len) := by
  have le := p.ext_le 0
  have hi := reg.last
  rw [Cap.bounds_of_code code] at hi
  dsimp only at hi
  have ext : (p.slicedCode n len).ext 0 = len := by
    show (BitVec.ofNat 16 (len - 1)).toNat + 1 = len
    rw [BitVec.toNat_ofNat]
    omega
  have base : ((p.slicedCode n len).base.toNat : Int) = p.base.toNat + 64 * n := by
    show ((BitVec.ofInt 48 (p.base.toNat + 64 * n)).toNat : Int) = _
    rw [BitVec.toNat_ofInt]
    omega
  have bounds : p.bounds.1 ≤ (p.slicedCode n len).bounds.1 ∧ (p.slicedCode n len).bounds.2 ≤ p.bounds.2 := by
    rw [Cap.bounds_of_code code, Cap.bounds_of_code (c := p.slicedCode n len) code, base, ext]
    dsimp only
    omega
  exact ⟨tag, bounds.1, bounds.2, BitVec.and_self, rfl, rfl, rfl⟩

/-- The elements left when every `n`-th of `e` is taken. -/
theorem div_up_bounds {e n : Nat} (he : 1 ≤ e) (hn : n ≠ 0) :
    1 ≤ (e + n - 1) / n ∧ n * ((e + n - 1) / n - 1) ≤ e - 1 ∧ (e + n - 1) / n ≤ e := by
  have pos := Nat.pos_of_ne_zero hn
  have first : 1 ≤ (e + n - 1) / n := (Nat.one_le_div_iff pos).2 (by omega)
  have last : n * ((e + n - 1) / n - 1) ≤ e - 1 := by
    have := Nat.mul_div_le (e + n - 1) n
    rw [Nat.mul_sub_one]
    omega
  have few := Nat.le_mul_of_pos_left ((e + n - 1) / n - 1) pos
  exact ⟨first, last, by omega⟩

/-- Every `n`-th element of a dimension lies within the footprint (the CSTEP entry). -/
theorem Cap.stepped_within {p : Cap} (tag : p.tag = true) (code : p.fmt.toNat ≠ Fmt.code) {k : Nat} (hk : k < 4) (h0 : k ≠ 0)
    {n : Nat} (hn : n ≠ 0) (fits : strideFits p k (p.stride k * n) = true) :
    p.Within ((p.withStride k (p.stride k * n)).withExt k ((p.ext k + n - 1) / n)) := by
  have le := p.ext_le k
  have pos := p.ext_pos k
  obtain ⟨first, last, few⟩ := div_up_bounds pos hn
  set q := (p.ext k + n - 1) / n
  have small : q ≤ 65536 := few.trans le
  let c := (p.withStride k (p.stride k * n)).withExt k q
  have ext (j : Nat) (hj : j < 4) : c.ext j = if j = k then q else p.ext j := by
    rw [Cap.ext_withExt _ k j hk hj first small, Cap.withStride_ext]
  have stride (j : Nat) (hj : j < 4) : c.stride j = if j = k then p.stride k * n else p.stride j := by
    rw [Cap.withExt_stride, Cap.stride_withStride p k j hk hj h0 fits]
  have lin : p.lowLin ≤ 0 + c.lowLin ∧ 0 + c.highLin ≤ p.highLin := by
    have inner := reach_of_step (p.stride k) (n := n) (e := p.ext k) (q := q) (by omega)
      (by have : ((n * (q - 1) : Nat) : Int) ≤ ((p.ext k - 1 : Nat) : Int) := by exact_mod_cast last
          push_cast [Nat.cast_sub first, Nat.cast_sub pos] at this
          exact this) (by omega)
    refine Cap.lin_of_reach hk (fun j hj ne => ?_) ?_ ?_
    · rw [Cap.reach_eq, Cap.reach_eq, ext j hj, stride j hj, if_neg ne, if_neg ne]
    · rw [Cap.reach_eq, Cap.reach_eq, ext k hk, stride k hk, if_pos rfl, if_pos rfl, zero_add]
      exact inner.1
    · rw [Cap.reach_eq, Cap.reach_eq, ext k hk, stride k hk, if_pos rfl, if_pos rfl, zero_add]
      exact inner.2
  have bounds := Cap.bounds_within code (c := c) (by simp [c]) (m := 0) (fun x => by simp [c]) lin.1 lin.2
  obtain ⟨htag, hperm, hlease, hgen, hscope⟩ := (p.withStride k (p.stride k * n)).withExt_keeps k q
  obtain ⟨htag', hperm', hlease', hgen', hscope'⟩ := p.withStride_keeps k (p.stride k * n)
  exact ⟨htag.trans (htag'.trans tag), bounds.1, bounds.2, by rw [hperm, hperm', BitVec.and_self], hlease.trans hlease',
    hgen.trans hgen', hscope.trans hscope'⟩

/-- A format that CFMT admits has elements of the same size, or fewer planes of the same blocks. -/
theorem fmtAllowed_cases {old new : Nat} (h : fmtAllowed old new = true) : old = new ∨
    (old ≠ Fmt.code ∧ new ≠ Fmt.code ∧ Cap.lastBytes new ≤ Cap.lastBytes old ∧ Fmt.isBpi new = Fmt.isBpi old ∧
      (new = 0x0F ↔ old = 0x0F) ∧ (Fmt.isBpi old = false → Fmt.size new = Fmt.size old)) := by
  have bpi (f : Nat) : Fmt.isBpi f = true ↔ 0x12 ≤ f ∧ f ≤ 0x18 := by simp [Fmt.isBpi, Sys2Proof.Fmt.isP]
  have code : Fmt.code = 0x24 := rfl
  simp only [fmtAllowed, Bool.or_eq_true, Bool.and_eq_true, decide_eq_true_eq, bpi] at h
  rcases h with (rfl | ⟨⟨ho, hn⟩, le⟩) | ⟨some, same⟩
  · exact .inl rfl
  · have bo := (bpi old).2 ho
    have bn := (bpi new).2 hn
    refine .inr ⟨by omega, by omega, ?_, by rw [bo, bn], by omega, fun h => absurd h (by simp [bo])⟩
    simp only [Cap.lastBytes, bo, bn, if_true, Fmt.planes]
    omega
  · have group (f : Nat) (h : Fmt.group f ≠ 0) : f ≤ 0x0E ∧ Fmt.group f = Fmt.size f := by
      unfold Fmt.group at *
      split at h
      · next le => exact ⟨le, if_pos le⟩
      · exact absurd rfl h
    obtain ⟨lo, so⟩ := group old some
    obtain ⟨ln, sn⟩ := group new (same ▸ some)
    have bo : Fmt.isBpi old = false := by rw [← Bool.not_eq_true, bpi]; omega
    have bn : Fmt.isBpi new = false := by rw [← Bool.not_eq_true, bpi]; omega
    have size : Fmt.size new = Fmt.size old := by rw [← sn, ← so, same]
    refine .inr ⟨by omega, by omega, ?_, by rw [bo, bn], by omega, fun _ => size⟩
    simp [Cap.lastBytes, bo, bn, size, show old ≠ 0x0F by omega, show new ≠ 0x0F by omega]

theorem Cap.reformatted_within {p : Cap} (tag : p.tag = true) {new : BitVec 6} (h : fmtAllowed p.fmt.toNat new.toNat = true) :
    p.Within { p with fmt := new } := by
  rcases fmtAllowed_cases h with same | ⟨ho, hn, width, bpi, s4, size⟩
  · obtain rfl := BitVec.eq_of_toNat_eq same
    exact ⟨tag, le_refl _, le_refl _, BitVec.and_self, rfl, rfl, rfl⟩
  · have bytes (x : Int) : Cap.elemBytes { p with fmt := new } x = p.elemBytes x := by
      cases hb : Fmt.isBpi p.fmt.toNat <;> simp [Cap.elemBytes, bpi, s4, size, hb]
    have bounds : p.bounds.1 = (Cap.bounds { p with fmt := new }).1 ∧ (Cap.bounds { p with fmt := new }).2 ≤ p.bounds.2 := by
      rw [Cap.bounds_of_not_code ho, Cap.bounds_of_not_code (c := { p with fmt := new }) hn, bytes, bytes]
      exact ⟨rfl, Int.add_le_add_left width _⟩
    exact ⟨tag, bounds.1.le, bounds.2, BitVec.and_self, rfl, rfl, rfl⟩

end Sys2Proof.Machine
end

section
/-! What the derivations leave (R62 to R64). -/

namespace Sys2Proof.Machine
set_option Elab.async false

/-! ### The checks of a derivation -/

theorem capCheck_eq (c : Cap) (k : Kind) (i0 i1 : Int) (s : State) :
    capCheck c k i0 i1 s = match s.capFault c k k.need i0 i1 true with
      | some x => .error (.trap x.1 x.2 c.checkNote) s
      | none => .ok () (s.cacheLease c.lease.toNat) := by
  unfold capCheck
  rw [M.get_bind]
  cases s.capFault c k k.need i0 i1 true with
  | some x => rfl
  | none => rfl

section
variable {α : Type} {s : State} {P : α → State → Prop} {c : Cap}

theorem M.TrapsOr.derivable {f : Unit → M α} (h : c.tag = true → M.TrapsOr (f ()) s P) :
    M.TrapsOr (derivable c >>= f) s P := by
  unfold Machine.derivable
  rw [bind_assoc]
  exact .need fun tag => .need fun _ => h tag

theorem M.TrapsOr.moveAligned {k : Nat} {n : Int} {f : Unit → M α} (h : c.Aligned k n → M.TrapsOr (f ()) s P) :
    M.TrapsOr (moveAligned c k n >>= f) s P := by
  unfold Machine.moveAligned
  dsimp only
  rw [bind_assoc]
  refine .need fun defined => ?_
  rw [bind_assoc]
  refine .need fun whole => .needOpen fun even => h ⟨defined, fun h0 bpi => ?_, fun s4 => ?_⟩
  · simp only [Bool.not_eq_true', Bool.or_eq_false_iff] at whole
    simpa [h0, bpi] using whole.1
  · simp only [Bool.not_eq_true', Bool.or_eq_false_iff] at whole even
    by_cases h0 : k = 0
    · have stride : c.stride 0 = 1 := rfl
      simpa [h0, s4, stride] using whole.2
    · simpa [h0, s4] using even

theorem M.TrapsOr.capCheck {k : Kind} {i0 i1 : Int} {f : Unit → M α}
    (h : M.TrapsOr (f ()) (s.cacheLease c.lease.toNat) P) : M.TrapsOr (capCheck c k i0 i1 >>= f) s P := by
  refine .bind ?_
  unfold M.TrapsOr
  rw [capCheck_eq]
  cases s.capFault c k k.need i0 i1 true with
  | some x => exact ⟨_, _, _, rfl⟩
  | none => exact h

theorem M.TrapsOr.sealerType {k : Kind} {f : BitVec 16 → M α}
    (h : ∀ x, M.TrapsOr (f x) (s.cacheLease c.lease.toNat) P) : M.TrapsOr (sealerType c k >>= f) s P := by
  unfold Machine.sealerType
  rw [bind_assoc]
  refine M.TrapsOr.capCheck ?_
  rw [bind_assoc]
  exact .need fun _ => h _

end

/-! ### One capability register, and no more than its source -/

/-- One capability register is written, at most after a lease has been read, with null or with a part of `p`. -/
def State.Derives (s : State) (d : BitVec 4) (p : Cap) (u : State) : Prop :=
  ∃ (n : Nat) (c : Cap), (u = s.setC d c ∨ u = (s.cacheLease n).setC d c) ∧ (c = Cap.null ∨ p.Within c)

section
variable {s : State} {d : BitVec 4} {p c : Cap}

theorem State.Derives.part (h : p.Within c) : s.Derives d p (s.setC d c) := ⟨0, c, .inl rfl, .inr h⟩
theorem State.Derives.cached (n : Nat) (h : p.Within c) : s.Derives d p ((s.cacheLease n).setC d c) := ⟨n, c, .inr rfl, .inr h⟩
theorem State.Derives.null : s.Derives d p (s.setC d Cap.null) := ⟨0, _, .inl rfl, .inl rfl⟩

/-- The source with another object type, or with fewer permissions, is no more than the source. -/
theorem Cap.within_resealed (tag : p.tag = true) (x : BitVec 16) : p.Within { p with otype := x } :=
  ⟨tag, le_refl _, le_refl _, BitVec.and_self, rfl, rfl, rfl⟩
theorem Cap.within_masked (tag : p.tag = true) (m : BitVec 8) : p.Within { p with perm := p.perm &&& m } := by
  refine ⟨tag, le_refl _, le_refl _, ?_, rfl, rfl, rfl⟩
  show p.perm &&& m &&& p.perm = p.perm &&& m
  rw [BitVec.and_assoc, BitVec.and_comm m, ← BitVec.and_assoc, BitVec.and_self]

end

/-! ### The instructions -/

section
variable (s : State) (d a : BitVec 4)

theorem sliceCap_derives {k : Nat} (hk : k < 4) {start length : Int} (reg : (s.c a).Regular) :
    M.TrapsOr (sliceCap d a k start length) s fun r u => r = none ∧ s.Derives d (s.c a) u := by
  unfold sliceCap
  refine .get (.derivable fun tag => .need fun inside => .moveAligned fun aligned => ?_)
  simp only [Bool.not_eq_true', Bool.or_eq_false_iff, decide_eq_false_iff_not, not_lt] at inside
  obtain ⟨⟨first, some⟩, last⟩ := inside
  have size : ((length.toNat : Nat) : Int) = length := Int.toNat_of_nonneg (by omega)
  split
  · next code =>
    refine .need fun zero => .step1 ⟨rfl, .part ?_⟩
    obtain rfl : k = 0 := by simpa using zero
    exact Cap.slicedCode_within reg tag code first (by omega) (by omega)
  · next code => exact .step1 ⟨rfl, .part (Cap.sliced_within reg tag code hk first (by omega) (by omega) aligned)⟩

/-- A dimension field names one of the four. -/
theorem dimension_lt (imm : BitVec 32) (o : Nat) : (imm.extractLsb' o 2).toNat < 4 := (imm.extractLsb' o 2).isLt

theorem rankPart_le (e u n r : Nat) : (rankPart e u n r).2 ≤ e := min_le_left _ _

end

end Sys2Proof.Machine
end

section
/-! Every derivation leaves a trap, or one capability register over no more than its source (O20). -/
namespace Sys2Proof.Machine
set_option Elab.async false

section
variable {s t : State} {f : CFields} {d a b : BitVec 5}

/-- What an instruction leaves that only derives: a trap, or one capability register over no more than the source. -/
def State.DerivesOrTraps (s : State) (i : Instr) (d : BitVec 4) (p : Cap) (t : State) : Prop :=
  (∃ cause eval note, t = (s.noted note).takeTrap cause eval 0) ∨ ∃ u, s.Derives d p u ∧ t = s.after i u

theorem cperm_derives (run : exec (.cperm d a b) s = .next t) :
    s.DerivesOrTraps (.cperm d a b) (d.setWidth 4) (s.c (a.setWidth 4)) t := by
  refine runInstr_trapsOr ?_ run
  exact .get (.derivable fun tag => .step1 ⟨rfl, .part (Cap.within_masked tag _)⟩)

theorem cfmt_derives (run : exec (.cfmt d a b) s = .next t) :
    s.DerivesOrTraps (.cfmt d a b) (d.setWidth 4) (s.c (a.setWidth 4)) t := by
  refine runInstr_trapsOr ?_ run
  exact .get (.derivable fun tag => .need fun allowed => .step1 ⟨rfl, .part (Cap.reformatted_within tag allowed)⟩)

theorem cshut_derives (run : exec (.cshut d a b) s = .next t) :
    s.DerivesOrTraps (.cshut d a b) (d.setWidth 4) (s.c (a.setWidth 4)) t := by
  refine runInstr_trapsOr ?_ run
  exact .get (.sealerType fun x => .derivable fun tag => .step1 ⟨rfl, .cached _ (Cap.within_resealed tag x)⟩)

theorem copen_derives (run : exec (.copen d a b) s = .next t) :
    s.DerivesOrTraps (.copen d a b) (d.setWidth 4) (s.c (a.setWidth 4)) t := by
  refine runInstr_trapsOr ?_ run
  exact .get (.sealerType fun x => .need fun tag => .need fun _ => .step1 ⟨rfl, .cached _ (Cap.within_resealed tag 0)⟩)

theorem M.TrapsOr.shaped {α : Type} {P : α → State → Prop} {c : Cap} {g : Unit → M α}
    (h : c.tag = true → c.fmt.toNat ≠ Fmt.code → M.TrapsOr (g ()) s P) : M.TrapsOr (shaped c >>= g) s P := by
  unfold Machine.shaped
  rw [bind_assoc]
  refine .derivable fun tag => .need fun plain => h tag ?_
  simp only [ne_eq, Bool.and_eq_true, decide_eq_true_eq] at plain
  exact plain.1

theorem cslice_derives (reg : (s.c f.ca).Regular) (run : exec (.cslice f) s = .next t) :
    s.DerivesOrTraps (.cslice f) f.cd (s.c f.ca) t :=
  runInstr_trapsOr (sliceCap_derives s f.cd f.ca (dimension_lt f.imm 0) reg) run
theorem cslicei_derives (reg : (s.c f.ca).Regular) (run : exec (.cslicei f) s = .next t) :
    s.DerivesOrTraps (.cslicei f) f.cd (s.c f.ca) t :=
  runInstr_trapsOr (sliceCap_derives s f.cd f.ca (dimension_lt f.imm 30) reg) run

theorem crank_derives (reg : (s.c f.ca).Regular) (run : exec (.crank f) s = .next t) :
    s.DerivesOrTraps (.crank f) f.cd (s.c f.ca) t := by
  refine runInstr_trapsOr ?_ run
  refine .get (.shaped fun tag code => .need fun _ => .need fun _ => .ite (fun _ => .step1 ⟨rfl, .null⟩) fun some =>
    .moveAligned fun aligned => .step1 ⟨rfl, .part (Cap.sliced_within reg tag code (dimension_lt f.imm 0)
      (Int.natCast_nonneg _) (by omega) ?_ aligned)⟩)
  exact_mod_cast (Nat.add_sub_of_le (by omega)).trans_le (rankPart_le _ _ _ _)

theorem cstep_derives (run : exec (.cstep f) s = .next t) : s.DerivesOrTraps (.cstep f) f.cd (s.c f.ca) t := by
  refine runInstr_trapsOr ?_ run
  refine .get (.shaped fun tag code => .needOpen fun proper => .need fun fits => .step1 (And.intro rfl (.part ?_)))
  simp only [ne_eq, Bool.and_eq_true, decide_eq_true_eq] at proper
  exact Cap.stepped_within tag code (dimension_lt f.imm 0) proper.1 proper.2 fits

theorem cfix_derives (reg : (s.c f.ca).Regular) (run : exec (.cfix f) s = .next t) :
    s.DerivesOrTraps (.cfix f) f.cd (s.c f.ca) t := by
  refine runInstr_trapsOr ?_ run
  refine .get (.shaped fun tag code => .need fun inside => .moveAligned fun aligned => .step1 ⟨rfl, .part ?_⟩)
  simp only [Bool.and_eq_true, decide_eq_true_eq] at inside
  exact Cap.sliced_within reg tag code (dimension_lt f.imm 0) inside.1 le_rfl (by omega) aligned

end

/-- Settles O20: each derivation by its lemma above. -/
theorem derivationsOnlyNarrow : Obligations.DerivationsOnlyNarrow := by
  unfold Obligations.DerivationsOnlyNarrow
  intro s t i d a _ named p first last blocks sealer run
  have reg : p.Regular := by
    refine ⟨first, last, fun bpi k h => ?_, fun one k h => ?_⟩
    · obtain ⟨h1, h2, h3⟩ := blocks bpi
      unfold Cap.stride
      rw [if_neg h]
      split_ifs <;> assumption
    · obtain ⟨h1, h2, h3⟩ := sealer one
      unfold Cap.ext
      rw [if_neg h, h1, h2, h3]
      split_ifs <;> rfl
  have derives : s.DerivesOrTraps i d p t := by
    rcases named with ⟨d5, a5, b, rfl, rfl, rfl | rfl | rfl | rfl⟩ | ⟨f, rfl, rfl, rfl | rfl | rfl | rfl | rfl⟩
    · exact cperm_derives run
    · exact cfmt_derives run
    · exact cshut_derives run
    · exact copen_derives run
    · exact cslice_derives reg run
    · exact cslicei_derives reg run
    · exact crank_derives reg run
    · exact cstep_derives run
    · exact cfix_derives reg run
  rcases derives with trapped | ⟨u, ⟨n, c, wrote, part⟩, rfl⟩
  · exact .inl trapped
  · refine .inr ⟨n, c, wrote.imp (congrArg _) (congrArg _), part.imp_right fun h => ?_⟩
    exact ⟨h.tag, h.first, h.last, h.perm, h.lease, h.gen, h.scope⟩

end Sys2Proof.Machine
end

section
/-! Cap_Check makes its checks one after the other (R60). -/

namespace Sys2Proof.Machine
set_option Elab.async false

/-- What the check leaves once its first failing check is known. -/
def Cap.verdict (c : Cap) (s : State) : Option (BitVec 8 × Word) → EStateM.Result Stop State Unit
  | some x => .error (.trap x.1 x.2 c.checkNote) s
  | none => .ok () (s.cacheLease c.lease.toNat)

/-- The first of a list of checks that fails. -/
def firstFault (fails : List (Bool × BitVec 8 × Word)) : Option (BitVec 8 × Word) := (fails.find? Prod.fst).map Prod.snd

theorem firstFault_cons {cond : Prop} [Decidable cond] {b : Bool} {x : BitVec 8 × Word} {y : Option (BitVec 8 × Word)}
    {rest : List (Bool × BitVec 8 × Word)} (same : b = true ↔ cond) (h : ¬ cond → y = firstFault rest) :
    (if cond then some x else y) = firstFault ((b, x) :: rest) := by
  by_cases hc : cond
  · simp [firstFault, same.2 hc, hc]
  · have hb : b = false := by rw [← Bool.not_eq_true, same]; exact hc
    rw [if_neg hc, h hc, hb]
    rfl
/-- A check that passes is as good as none. -/
theorem firstFault_pass {b : Bool} {x : BitVec 8 × Word} {rest : List (Bool × BitVec 8 × Word)} (pass : b = false) :
    firstFault ((b, x) :: rest) = firstFault rest := by subst pass; rfl

/-- Two checks one after the other with one cause and EVAL. -/
theorem firstFault_or {b d : Bool} {x : BitVec 8 × Word} {rest : List (Bool × BitVec 8 × Word)} :
    firstFault ((b, x) :: (d, x) :: rest) = firstFault ((b || d, x) :: rest) := by cases b <;> rfl

/-- The use of a SEALER is of one of two kinds (R50). -/
theorem Kind.of_sealer {k : Kind} (h : k.admitted Fmt.sealer = true) : k = .SEAL ∨ k = .UNSEAL := by
  revert h; cases k <;> decide

/-- When the strict-phase clause refuses a use (R60, R304). -/
theorem State.strictOk_eq_false_iff (s : State) (c : Cap) (k : Kind) : s.strictOk c k = false ↔
    s.strict = true ∧ k ≠ .X ∧ ((c.scope = 0 ∧ localCore c.base.toNat ≠ s.coreNo) ∨ c.scope = 2 ∨
      (c.scope = 1 ∧ k ≠ .SEAL ∧ k ≠ .UNSEAL ∧ k ≠ .W)) := by
  simp only [State.strictOk, Bool.or_eq_false_iff, Bool.not_eq_false', Bool.or_eq_true, Bool.and_eq_true, decide_eq_true_eq,
    decide_eq_false_iff_not, bne_iff_ne, and_assoc, or_assoc]

/-- Settles O16: the checks of `State.capFault`, one by one. -/
theorem capabilityCheck : Obligations.CapabilityCheck := by
  unfold Obligations.CapabilityCheck
  refine ⟨rfl, fun s c k i0 i1 => ?_⟩
  intro f e sealed fails
  have first : s.capFault c k k.need i0 i1 true = firstFault fails := by
    unfold State.capFault
    dsimp only
    refine firstFault_cons Iff.rfl fun _ => firstFault_cons Iff.rfl fun _ => firstFault_cons (by simp) fun _ =>
      firstFault_cons ?_ fun _ => firstFault_cons Iff.rfl fun admitted => firstFault_cons (by simp) fun _ =>
      firstFault_cons (by simp) fun _ => ?_
    · simp [State.alive, e, or_iff_not_imp_left]
    · by_cases h : f = Fmt.sealer
      · rw [if_pos h]
        refine firstFault_cons (by simp [sealed, h]) fun scope => ?_
        have one : c.scope = 1#2 := not_not.1 scope
        rw [firstFault_pass (by simp [sealed, h]), firstFault_pass (by simp [one]), firstFault_pass (by simp [one]),
          firstFault_pass (by rcases Kind.of_sealer (by simpa [f, h] using admitted) with rfl | rfl <;> simp)]
        exact firstFault_cons (by simp [or_assoc]) fun _ => rfl
      · rw [if_neg h, firstFault_pass (by simp [sealed, h])]
        refine firstFault_cons (by simp [sealed, h]) fun _ => ?_
        rw [firstFault_or, firstFault_or]
        refine firstFault_cons ?_ fun _ => firstFault_cons (by simp [or_assoc]) fun _ => rfl
        rw [Bool.true_and, Bool.not_eq_true', State.strictOk_eq_false_iff]
        simp only [Bool.or_eq_true, decide_eq_true_eq]
        tauto
  rw [capCheck_eq, first]
  simp only [firstFault]
  cases fails.find? Prod.fst <;> rfl

end Sys2Proof.Machine
end

section
/-! Instructions that their own body decides, and what CPERM, CFMT, CSHUT and COPEN leave (R50, R62, R64). -/

namespace Sys2Proof.Machine
set_option Elab.async false

/-! ### An instruction that its body decides -/

/-- The meaning of `i` is `body`, and neither the engine profile nor the operand checks refuse `i`. -/
structure State.Runs (s : State) (i : Instr) (body : M (Option Word)) : Prop where
  run : exec i s = runInstr i body s
  accepted : s.accepts i

section
variable {s t : State} {i : Instr} {body : M (Option Word)} {cause : BitVec 8} {eval : Word}

theorem State.Runs.leaves (h : s.Runs i body) (done : body s = .ok none t) : s.leaves i t :=
  h.run.trans (runInstr_next h.accepted.1 h.accepted.2 done)
theorem State.Runs.jumps {pc : Word} (h : s.Runs i body) (done : body s = .ok (some pc) t) : exec i s = .next (t.setPc pc) :=
  h.run.trans (runInstr_jump h.accepted.1 h.accepted.2 done)
theorem State.Runs.stops {stop : Stop} (h : s.Runs i body) (stopped : body s = .error stop t) :
    exec i s = .next (s.afterStop t stop) :=
  h.run.trans (runInstr_stop h.accepted.1 h.accepted.2 stopped)
theorem State.Runs.traps (h : s.Runs i body) (stopped : body s = .error (.trap cause eval .none) t) : s.traps i cause eval :=
  h.stops stopped
/-- Only what the body makes of the state counts. -/
theorem State.Runs.congr {body' : M (Option Word)} (h : s.Runs i body) (same : body s = body' s) : s.Runs i body' :=
  ⟨h.run.trans (by simp only [runInstr, same]), h.accepted⟩
theorem State.Runs.trapsChecked {c : Cap} (h : s.Runs i body) (stopped : body s = .error (.trap cause eval c.checkNote) t) :
    s.trapsChecked i c cause eval :=
  h.stops stopped

/-- The short capability instructions are of the engine profile (R159). -/
theorem State.accepts_short {fn9 : BitVec 9} {b a d : BitVec 5} (words : encode i = [Enc.a fn9 b a d 19]) (wf : i.wf = true) :
    s.accepts i := ⟨fun _ => inProfile_capability s.cur words, wf⟩
/-- So are the derivations with an immediate (R159). -/
theorem State.accepts_derive {fn5 : BitVec 5} {f : CFields} (words : encode i = Enc.c fn5 f) (wf : i.wf = true) :
    s.accepts i := by
  refine ⟨fun _ => ?_, wf⟩
  obtain ⟨-, -, -, major, length⟩ := Enc.c_eq_iff.1 (rfl : Enc.c fn5 f = [_, _])
  simp only [inProfile, words, Enc.c, parcelInProfile, major, length]
  rfl

end

/-! ### The checks that derivations begin with -/

section
variable {α : Type} (c : Cap) (s : State)

@[simp] theorem derivable_bind (f : Unit → M α) : (derivable c >>= f) s =
    if c.tag = true then if c.otype = 0 then f () s else .error (.trap 0x0C (c.otype.setWidth 64) .none) s
    else .error (.trap 0x08 0 .none) s := by
  unfold derivable
  rw [bind_assoc, M.need_bind, M.need_bind]
  simp only [decide_eq_true_eq]

@[simp] theorem shaped_bind (f : Unit → M α) : (shaped c >>= f) s =
    (derivable c >>= fun _ => need (c.fmt.toNat ≠ Fmt.code && c.fmt.toNat ≠ Fmt.sealer) 0x0E (c.fmt.setWidth 64) >>= f) s := by
  unfold shaped
  rw [bind_assoc]

variable {c s}

theorem sealerType_bind_ok {k : Kind} {t : State} (passed : capCheck c k 0 0 s = .ok () t) (f : BitVec 16 → M α) :
    (sealerType c k >>= f) s = if 1 ≤ c.base.toNat ∧ c.base.toNat ≤ 65535 then f (c.base.setWidth 16) t
      else .error (.trap 0x02 (c.base.setWidth 64) .none) t := by
  unfold sealerType
  rw [bind_assoc, M.bind_ok passed, bind_assoc, M.need_bind]
  simp only [Bool.and_eq_true, decide_eq_true_eq]
  rfl
theorem sealerType_bind_error {k : Kind} {t : State} {e : Stop} (failed : capCheck c k 0 0 s = .error e t)
    (f : BitVec 16 → M α) : (sealerType c k >>= f) s = .error e t := by
  unfold sealerType
  rw [bind_assoc, M.bind_error failed]

/-- A body that begins as a derivation refuses untagged and sealed sources (R62). -/
theorem State.Runs.refuses {i : Instr} {body : M (Option Word)} {x : EStateM.Result Stop State (Option Word)}
    (h : s.Runs i body) (begins : body s =
      if c.tag = true then if c.otype = 0 then x else .error (.trap 0x0C (c.otype.setWidth 64) .none) s
      else .error (.trap 0x08 0 .none) s) :
    (c.tag = false → s.traps i 0x08 0) ∧ (c.tag = true → c.otype ≠ 0 → s.traps i 0x0C (c.otype.setWidth 64)) :=
  ⟨fun untagged => h.traps (begins.trans (if_neg (by simp [untagged]))),
    fun tag sealed => h.traps (begins.trans ((if_pos tag).trans (if_neg sealed)))⟩

end

/-! ### CPERM and CFMT -/

theorem extractLsb'_zero_eq_setWidth {w : Nat} (x : BitVec w) (n : Nat) : x.extractLsb' 0 n = x.setWidth n := by
  ext i hi; simp

/-- The formats that CFMT admits (R50, R62). -/
theorem fmtAllowed_iff (old new : BitVec 6) : fmtAllowed old.toNat new.toNat = true ↔
    new = old ∨ (0x12 ≤ old.toNat ∧ old.toNat ≤ 0x18 ∧ 0x12 ≤ new.toNat ∧ new.toNat ≤ old.toNat) ∨
      (old.toNat ≤ 0x0E ∧ new.toNat ≤ 0x0E ∧ Fmt.size old.toNat = Fmt.size new.toNat) := by
  have sized : ∀ f ≤ 0x0E, Fmt.size f ≠ 0 := by decide
  have group (f : Nat) : Fmt.group f = if f ≤ 0x0E then Fmt.size f else 0 := rfl
  have same : old.toNat = new.toNat ↔ new = old := by rw [BitVec.toNat_inj, eq_comm]
  simp only [fmtAllowed, Fmt.isBpi, Sys2Proof.Fmt.isP, Bool.or_eq_true, Bool.and_eq_true, decide_eq_true_eq, same, or_assoc]
  refine or_congr_right (or_congr (by omega) ?_)
  rw [group, group]
  have := sized old.toNat
  split_ifs <;> simp_all

section
variable {s : State} {d a b : BitVec 5} {f : CFields}

theorem accepts_cperm (hd : d.toNat < 16) (ha : a.toNat < 16) : s.accepts (.cperm d a b) :=
  State.accepts_short (encode_cperm d a b) (Bool.and_eq_true_iff.2 ⟨decide_eq_true hd, decide_eq_true ha⟩)
theorem accepts_cfmt (hd : d.toNat < 16) (ha : a.toNat < 16) : s.accepts (.cfmt d a b) :=
  State.accepts_short (encode_cfmt d a b) (Bool.and_eq_true_iff.2 ⟨decide_eq_true hd, decide_eq_true ha⟩)
theorem wf_of_three (hd : d.toNat < 16) (ha : a.toNat < 16) (hb : b.toNat < 16) :
    (WF.cap d && WF.cap a && WF.cap b) = true :=
  Bool.and_eq_true_iff.2 ⟨Bool.and_eq_true_iff.2 ⟨decide_eq_true hd, decide_eq_true ha⟩, decide_eq_true hb⟩
theorem accepts_cshut (hd : d.toNat < 16) (ha : a.toNat < 16) (hb : b.toNat < 16) : s.accepts (.cshut d a b) :=
  State.accepts_short (encode_cshut d a b) (wf_of_three hd ha hb)
theorem accepts_copen (hd : d.toNat < 16) (ha : a.toNat < 16) (hb : b.toNat < 16) : s.accepts (.copen d a b) :=
  State.accepts_short (encode_copen d a b) (wf_of_three hd ha hb)

/-! ### Untagged and sealed sources (R62) -/

/-- A source that no derivation takes. -/
def State.RefusesSource (s : State) (i : Instr) (c : Cap) : Prop :=
  (c.tag = false → s.traps i 0x08 0) ∧ (c.tag = true → c.otype ≠ 0 → s.traps i 0x0C (c.otype.setWidth 64))

theorem State.RefusesSource.unless {i : Instr} {c : Cap} (h : s.RefusesSource i c) {p : Prop} : (c.tag = false → s.traps i 0x08 0) ∧
    (c.tag = true → c.otype ≠ 0 → p → s.traps i 0x0C (c.otype.setWidth 64)) := ⟨h.1, fun tag sealed _ => h.2 tag sealed⟩

theorem cperm_refuses (hd : d.toNat < 16) (ha : a.toNat < 16) : s.RefusesSource (.cperm d a b) (s.c (a.setWidth 4)) :=
  State.Runs.refuses ⟨rfl, accepts_cperm hd ha⟩ (by rw [M.get_bind, derivable_bind])
theorem cfmt_refuses (hd : d.toNat < 16) (ha : a.toNat < 16) : s.RefusesSource (.cfmt d a b) (s.c (a.setWidth 4)) :=
  State.Runs.refuses ⟨rfl, accepts_cfmt hd ha⟩ (by rw [M.get_bind, derivable_bind])
theorem cslice_refuses (wf : (Instr.cslice f).wf = true) : s.RefusesSource (.cslice f) (s.c f.ca) :=
  State.Runs.refuses ⟨rfl, State.accepts_derive (encode_cslice f) wf⟩ (by rw [sliceCap, M.get_bind, derivable_bind])
theorem cslicei_refuses (wf : (Instr.cslicei f).wf = true) : s.RefusesSource (.cslicei f) (s.c f.ca) :=
  State.Runs.refuses ⟨rfl, State.accepts_derive (encode_cslicei f) wf⟩ (by rw [sliceCap, M.get_bind, derivable_bind])
theorem crank_refuses (wf : (Instr.crank f).wf = true) : s.RefusesSource (.crank f) (s.c f.ca) :=
  State.Runs.refuses ⟨rfl, State.accepts_derive (encode_crank f) wf⟩ (by rw [M.get_bind, shaped_bind, derivable_bind])
theorem cstep_refuses (wf : (Instr.cstep f).wf = true) : s.RefusesSource (.cstep f) (s.c f.ca) :=
  State.Runs.refuses ⟨rfl, State.accepts_derive (encode_cstep f) wf⟩ (by rw [M.get_bind, shaped_bind, derivable_bind])
theorem cfix_refuses (wf : (Instr.cfix f).wf = true) : s.RefusesSource (.cfix f) (s.c f.ca) :=
  State.Runs.refuses ⟨rfl, State.accepts_derive (encode_cfix f) wf⟩ (by rw [M.get_bind, shaped_bind, derivable_bind])
theorem cfree_refuses (wf : (Instr.cfree f).wf = true) : s.RefusesSource (.cfree f) (s.c f.ca) :=
  State.Runs.refuses ⟨rfl, State.accepts_derive (encode_cfree f) wf⟩ (by rw [M.get_bind, derivable_bind])

/-- CLEASE of a capability that its check refuses. -/
theorem clease_of_fault {cause : BitVec 8} {eval : Word} (wf : (Instr.clease f).wf = true)
    (fault : s.capFault (s.c f.ca) .L 0x40 0 0 true = some (cause, eval)) :
    s.trapsChecked (.clease f) (s.c f.ca) cause eval :=
  State.Runs.trapsChecked ⟨rfl, State.accepts_derive (encode_clease f) wf⟩ (by rw [M.get_bind, fault]; rfl)
theorem clease_refuses (wf : (Instr.clease f).wf = true) :
    ((s.c f.ca).tag = false → s.traps (.clease f) 0x08 0) ∧
    ((s.c f.ca).tag = true → (s.c f.ca).otype ≠ 0 → Fmt.reserved (s.c f.ca).fmt.toNat = false →
      s.traps (.clease f) 0x0C ((s.c f.ca).otype.setWidth 64)) := by
  refine ⟨fun tag => ?_, fun tag sealed known => ?_⟩
  · have checked := clease_of_fault (s := s) (cause := 0x08) (eval := 0) wf (by simp [State.capFault, tag])
    rwa [State.trapsChecked, Cap.checkNote, if_neg (by simp [tag])] at checked
  · have checked := clease_of_fault (s := s) (cause := 0x0C) (eval := (s.c f.ca).otype.setWidth 64) wf
      (by simp only [State.capFault]; rw [if_neg (by simp [tag]), if_neg (by simp [known]), if_pos sealed])
    rwa [State.trapsChecked, Cap.checkNote, if_neg (mt (fun h => of_decide_eq_true (Bool.and_eq_true_iff.1 h).2) sealed)] at checked

/-! ### What CPERM and CFMT derive -/

theorem cperm_leaves (hd : d.toNat < 16) (ha : a.toNat < 16) (tag : (s.c (a.setWidth 4)).tag = true)
    (unsealed : (s.c (a.setWidth 4)).otype = 0) :
    s.leaves (.cperm d a b) (s.setC (d.setWidth 4)
      { s.c (a.setWidth 4) with perm := (s.c (a.setWidth 4)).perm &&& (s.g b).setWidth 8 }) := by
  refine State.Runs.leaves ⟨rfl, accepts_cperm hd ha⟩ ?_
  rw [M.get_bind, derivable_bind, if_pos tag, if_pos unsealed, extractLsb'_zero_eq_setWidth]
  rfl
theorem cfmt_leaves (hd : d.toNat < 16) (ha : a.toNat < 16) (tag : (s.c (a.setWidth 4)).tag = true)
    (unsealed : (s.c (a.setWidth 4)).otype = 0)
    (allowed : fmtAllowed (s.c (a.setWidth 4)).fmt.toNat ((s.g b).setWidth 6).toNat = true) :
    s.leaves (.cfmt d a b) (s.setC (d.setWidth 4) { s.c (a.setWidth 4) with fmt := (s.g b).setWidth 6 }) := by
  refine State.Runs.leaves ⟨rfl, accepts_cfmt hd ha⟩ ?_
  rw [M.get_bind, derivable_bind, if_pos tag, if_pos unsealed, M.need_bind, extractLsb'_zero_eq_setWidth, if_pos allowed]
  rfl
theorem cfmt_traps (hd : d.toNat < 16) (ha : a.toNat < 16) (tag : (s.c (a.setWidth 4)).tag = true)
    (unsealed : (s.c (a.setWidth 4)).otype = 0)
    (other : ¬ fmtAllowed (s.c (a.setWidth 4)).fmt.toNat ((s.g b).setWidth 6).toNat = true) :
    s.traps (.cfmt d a b) 0x0E (((s.g b).setWidth 6).setWidth 64) := by
  refine State.Runs.traps (t := s) ⟨rfl, accepts_cfmt hd ha⟩ ?_
  rw [M.get_bind, derivable_bind, if_pos tag, if_pos unsealed, M.need_bind, extractLsb'_zero_eq_setWidth, if_neg other]

end

/-! ### Sealing and unsealing (R64) -/

section
variable {s t : State} {d a b : BitVec 5} (hd : d.toNat < 16) (ha : a.toNat < 16) (hb : b.toNat < 16)
include hd ha hb

/-- CSHUT once the check of its sealer has passed. -/
theorem cshut_of_sealer (passed : capCheck (s.c (b.setWidth 4)) .SEAL 0 0 s = .ok () t) :
    let c := s.c (a.setWidth 4)
    let z := s.c (b.setWidth 4)
    (1 ≤ z.base.toNat → z.base.toNat ≤ 65535 →
      (c.tag = false → s.traps (.cshut d a b) 0x08 0) ∧
      (c.tag = true → c.otype ≠ 0 → s.traps (.cshut d a b) 0x0C (c.otype.setWidth 64)) ∧
      (c.tag = true → c.otype = 0 →
        s.leaves (.cshut d a b) (t.setC (d.setWidth 4) { c with otype := z.base.setWidth 16 }))) ∧
    (¬ (1 ≤ z.base.toNat ∧ z.base.toNat ≤ 65535) → s.traps (.cshut d a b) 0x02 (z.base.setWidth 64)) := by
  intro c z
  refine ⟨fun lo hi => ⟨fun untagged => ?_, fun tag sealed => ?_, fun tag unsealed => ?_⟩, fun bad => ?_⟩
  · refine State.Runs.traps (t := t) ⟨rfl, accepts_cshut hd ha hb⟩ ?_
    rw [M.get_bind, sealerType_bind_ok passed, if_pos ⟨lo, hi⟩, derivable_bind, if_neg (by simp [c, untagged])]
  · refine State.Runs.traps (t := t) ⟨rfl, accepts_cshut hd ha hb⟩ ?_
    rw [M.get_bind, sealerType_bind_ok passed, if_pos ⟨lo, hi⟩, derivable_bind, if_pos tag, if_neg sealed]
  · refine State.Runs.leaves ⟨rfl, accepts_cshut hd ha hb⟩ ?_
    rw [M.get_bind, sealerType_bind_ok passed, if_pos ⟨lo, hi⟩, derivable_bind, if_pos tag, if_pos unsealed]
    rfl
  · refine State.Runs.traps (t := t) ⟨rfl, accepts_cshut hd ha hb⟩ ?_
    rw [M.get_bind, sealerType_bind_ok passed, if_neg bad]

/-- COPEN once the check of its sealer has passed. -/
theorem copen_of_sealer (passed : capCheck (s.c (b.setWidth 4)) .UNSEAL 0 0 s = .ok () t) :
    let c := s.c (a.setWidth 4)
    let z := s.c (b.setWidth 4)
    (1 ≤ z.base.toNat → z.base.toNat ≤ 65535 →
      (c.tag = false → s.traps (.copen d a b) 0x08 0) ∧
      (c.tag = true → c.otype = z.base.setWidth 16 → s.leaves (.copen d a b) (t.setC (d.setWidth 4) { c with otype := 0 })) ∧
      (c.tag = true → c.otype ≠ z.base.setWidth 16 → s.traps (.copen d a b) 0x0C (c.otype.setWidth 64))) ∧
    (¬ (1 ≤ z.base.toNat ∧ z.base.toNat ≤ 65535) → s.traps (.copen d a b) 0x02 (z.base.setWidth 64)) := by
  intro c z
  refine ⟨fun lo hi => ⟨fun untagged => ?_, fun tag same => ?_, fun tag other => ?_⟩, fun bad => ?_⟩
  · refine State.Runs.traps (t := t) ⟨rfl, accepts_copen hd ha hb⟩ ?_
    rw [M.get_bind, sealerType_bind_ok passed, if_pos ⟨lo, hi⟩, M.need_bind, if_neg (by simp [c, untagged])]
  · refine State.Runs.leaves ⟨rfl, accepts_copen hd ha hb⟩ ?_
    rw [M.get_bind, sealerType_bind_ok passed, if_pos ⟨lo, hi⟩, M.need_bind, if_pos tag, M.need_bind,
      if_pos (decide_eq_true same)]
    rfl
  · refine State.Runs.traps (t := t) ⟨rfl, accepts_copen hd ha hb⟩ ?_
    rw [M.get_bind, sealerType_bind_ok passed, if_pos ⟨lo, hi⟩, M.need_bind, if_pos tag, M.need_bind,
      if_neg (by rw [decide_eq_true_eq]; exact other)]
  · refine State.Runs.traps (t := t) ⟨rfl, accepts_copen hd ha hb⟩ ?_
    rw [M.get_bind, sealerType_bind_ok passed, if_neg bad]

end

/-- Settles O18. -/
theorem permissionAndSealing : Obligations.PermissionAndSealing := by
  unfold Obligations.PermissionAndSealing
  refine ⟨fun s d a b f ha hb hd => ⟨fun i hi => ?_, fun i hi wf => ?_⟩, fun s d a b ha hd => ?_⟩
  · simp only [List.mem_cons, List.not_mem_nil, or_false] at hi
    rcases hi with rfl | rfl
    · exact cperm_refuses hd ha
    · exact cfmt_refuses hd ha
  · simp only [List.mem_cons, List.not_mem_nil, or_false] at hi
    rcases hi with rfl | rfl | rfl | rfl | rfl | rfl | rfl
    · exact State.RefusesSource.unless (cslice_refuses wf)
    · exact State.RefusesSource.unless (cslicei_refuses wf)
    · exact State.RefusesSource.unless (crank_refuses wf)
    · exact State.RefusesSource.unless (cstep_refuses wf)
    · exact State.RefusesSource.unless (cfix_refuses wf)
    · exact State.RefusesSource.unless (cfree_refuses wf)
    · exact ⟨(clease_refuses wf).1, fun tag sealed known => (clease_refuses wf).2 tag sealed (known rfl)⟩
  · refine ⟨fun tag unsealed => ⟨cperm_leaves hd ha tag unsealed, fun ok => ?_, fun other => ?_⟩, fun hb => ?_⟩
    · exact cfmt_leaves hd ha tag unsealed ((fmtAllowed_iff _ _).2 ok)
    · exact cfmt_traps hd ha tag unsealed (mt (fmtAllowed_iff _ _).1 other)
    · refine ⟨fun lo hi => ⟨fun passed => (cshut_of_sealer hd ha hb passed).1 lo hi,
        fun passed => (copen_of_sealer hd ha hb passed).1 lo hi⟩,
        fun bad => ⟨fun passed => (cshut_of_sealer hd ha hb passed).2 bad,
        fun passed => (copen_of_sealer hd ha hb passed).2 bad⟩, fun cause eval failed => ?_, fun cause eval failed => ?_⟩
      · exact State.Runs.trapsChecked ⟨rfl, accepts_cshut hd ha hb⟩ (by rw [M.get_bind, sealerType_bind_error failed])
      · exact State.Runs.trapsChecked ⟨rfl, accepts_copen hd ha hb⟩ (by rw [M.get_bind, sealerType_bind_error failed])

end Sys2Proof.Machine
end

section
/-! What CSLICE, CSLICEI, CRANK, CSTEP and CFIX derive and refuse (R62, R63). -/

namespace Sys2Proof.Machine
set_option Elab.async false

/-! ### A move along a dimension (R63) -/

section
variable {α : Type} {c : Cap} {k : Nat} {n : Int} {s : State}

theorem moveAligned_bind (f : Unit → M α) : (moveAligned c k n >>= f) s =
    if Sys2Proof.Fmt.defined c.fmt.toNat = true then
      if k = 0 ∧ (Fmt.isBpi c.fmt.toNat = true ∧ n % 256 ≠ 0 ∨ c.fmt.toNat = 0x0F ∧ n % 2 ≠ 0) then
        .error (.trap 0x18 (BitVec.ofInt 64 n) .none) s
      else if k ≠ 0 ∧ c.fmt.toNat = 0x0F ∧ n * c.stride k % 2 ≠ 0 then .error (.trap 0x18 s.openEval .none) s
      else f () s
    else .error (.trap 0x0E (c.fmt.setWidth 64) .none) s := by
  unfold moveAligned
  dsimp only
  rw [bind_assoc, M.need_bind, bind_assoc, M.need_bind, M.needOpen_bind]
  have whole : (!(decide (k = 0) && Fmt.isBpi c.fmt.toNat && decide (n % 256 ≠ 0) ||
      decide (k = 0) && decide (c.fmt.toNat = 0x0F) && decide (n % 2 ≠ 0))) = true ↔
      ¬ (k = 0 ∧ (Fmt.isBpi c.fmt.toNat = true ∧ n % 256 ≠ 0 ∨ c.fmt.toNat = 0x0F ∧ n % 2 ≠ 0)) := by
    rw [Bool.not_eq_true', ← Bool.not_eq_true]
    simp only [Bool.or_eq_true, Bool.and_eq_true, decide_eq_true_eq, and_assoc, ← and_or_left]
  have even : (!(decide (k ≠ 0) && decide (c.fmt.toNat = 0x0F) && decide (n * c.stride k % 2 ≠ 0))) = true ↔
      ¬ (k ≠ 0 ∧ c.fmt.toNat = 0x0F ∧ n * c.stride k % 2 ≠ 0) := by
    rw [Bool.not_eq_true', ← Bool.not_eq_true]
    simp only [Bool.and_eq_true, decide_eq_true_eq, and_assoc]
  simp only [whole, even, ite_not]
  rfl

theorem moveAligned_bind_ok (aligned : c.Aligned k n) (f : Unit → M α) : (moveAligned c k n >>= f) s = f () s := by
  obtain ⟨defined, whole, even⟩ := aligned
  have stride : c.stride 0 = 1 := rfl
  rw [moveAligned_bind, if_pos defined, if_neg, if_neg]
  · exact fun ⟨_, s4, odd⟩ => odd (even s4)
  · rintro ⟨rfl, ⟨bpi, part⟩ | ⟨s4, odd⟩⟩
    · exact part (whole rfl bpi)
    · exact odd (by simpa [stride] using even s4)

/-- How a misaligned start is refused (R63; log 31). -/
def State.RefusesMove (s : State) (i : Instr) (c : Cap) (k : Nat) (n : Int) : Prop :=
  (k = 0 → (Fmt.isBpi c.fmt.toNat = true ∧ n % 256 ≠ 0 ∨ c.fmt.toNat = 0x0F ∧ n % 2 ≠ 0) → s.traps i 0x18 (BitVec.ofInt 64 n)) ∧
    (k ≠ 0 → c.fmt.toNat = 0x0F → n * c.stride k % 2 ≠ 0 → s.traps i 0x18 s.openEval)

variable {i : Instr} {g : Unit → M (Option Word)}

theorem State.Runs.moves (runs : s.Runs i (moveAligned c k n >>= g)) {t : State}
    (aligned : c.Aligned k n) (done : g () s = .ok none t) : s.leaves i t :=
  runs.leaves ((moveAligned_bind_ok aligned g).trans done)
theorem State.Runs.move_undefined (runs : s.Runs i (moveAligned c k n >>= g))
    (undefined : ¬ Sys2Proof.Fmt.defined c.fmt.toNat = true) : s.traps i 0x0E (c.fmt.setWidth 64) :=
  runs.traps ((moveAligned_bind g).trans (if_neg undefined))
theorem State.Runs.move_refused (runs : s.Runs i (moveAligned c k n >>= g)) :
    s.RefusesMove i c k n := by
  refine ⟨fun h0 bad => ?_, fun h0 s4 odd => ?_⟩
  · have defined : Sys2Proof.Fmt.defined c.fmt.toNat = true := by
      rcases bad with ⟨bpi, -⟩ | ⟨s4, -⟩
      · simp only [Fmt.isBpi, Sys2Proof.Fmt.isP, Bool.and_eq_true, decide_eq_true_eq] at bpi
        simp [Sys2Proof.Fmt.defined, bpi]
      · rw [s4]; rfl
    exact runs.traps ((moveAligned_bind g).trans ((if_pos defined).trans (if_pos ⟨h0, bad⟩)))
  · have defined : Sys2Proof.Fmt.defined c.fmt.toNat = true := by rw [s4]; rfl
    exact runs.traps ((moveAligned_bind g).trans ((if_pos defined).trans ((if_neg fun h => h0 h.1).trans (if_pos ⟨h0, s4, odd⟩))))

end

/-- The byte offset, by the kind of format. -/
theorem Cap.byteOffset_eq (c : Cap) (k : Nat) (n : Int) : c.byteOffset k n =
    if c.fmt.toNat = Fmt.sealer then n else if Fmt.isBpi c.fmt.toNat then n * c.stride k
    else if c.fmt.toNat = 0x0F then n * c.stride k / 2 else n * c.stride k * Fmt.size c.fmt.toNat := by
  unfold Cap.byteOffset
  dsimp only
  by_cases h : c.fmt.toNat = Fmt.sealer
  · simp only [h, if_true]; rfl
  · simp only [if_neg h]

/-! ### CSLICE and CSLICEI -/

section
variable {s : State} {i : Instr} {d a : BitVec 4} {k : Nat} {n len : Int}

theorem sliceCap_inside (tag : (s.c a).tag = true) (unsealed : (s.c a).otype = 0) (first : 0 ≤ n) (many : 1 ≤ len)
    (last : n + len ≤ (s.c a).ext k) : sliceCap d a k n len s = (moveAligned (s.c a) k n >>= fun _ =>
      if (s.c a).fmt.toNat = Fmt.code then need (k = 0) 0x02 (BitVec.ofNat 64 k) >>= fun _ =>
        step1 (fun s' => s'.setC d ((s.c a).slicedCode n len.toNat))
      else step1 (fun s' => s'.setC d ((s.c a).sliced k n len.toNat))) s := by
  have inside : (!(decide (n < 0) || decide (len < 1) || decide ((s.c a).ext k < n + len))) = true := by
    simp only [Bool.not_eq_true', Bool.or_eq_false_iff, decide_eq_false_iff_not, not_lt]
    exact ⟨⟨first, many⟩, last⟩
  rw [sliceCap, M.get_bind, derivable_bind, if_pos tag, if_pos unsealed, M.need_bind, if_pos inside]

theorem sliceCap_outside (tag : (s.c a).tag = true) (unsealed : (s.c a).otype = 0)
    (outside : ¬ (0 ≤ n ∧ 1 ≤ len ∧ n + len ≤ (s.c a).ext k)) :
    sliceCap d a k n len s = .error (.trap 0x09 (BitVec.ofInt 32 len ++ BitVec.ofInt 32 n) .none) s := by
  have bad : ¬ (!(decide (n < 0) || decide (len < 1) || decide ((s.c a).ext k < n + len))) = true := by
    simp only [Bool.not_eq_true', Bool.or_eq_false_iff, decide_eq_false_iff_not, not_lt]
    exact fun ⟨⟨first, many⟩, last⟩ => outside ⟨first, many, last⟩
  rw [sliceCap, M.get_bind, derivable_bind, if_pos tag, if_pos unsealed, M.need_bind, if_neg bad]

/-- A CODE capability has no alignment but its lines. -/
theorem Cap.aligned_of_code {c : Cap} (code : c.fmt.toNat = Fmt.code) (k : Nat) (n : Int) : c.Aligned k n := by
  refine ⟨by rw [code]; rfl, fun _ bpi => ?_, fun s4 => ?_⟩
  · rw [code] at bpi; cases bpi
  · rw [code] at s4; cases s4

theorem Cap.slicedCode_eq (c : Cap) (n : Int) {len : Int} (many : 1 ≤ len) : c.slicedCode n len.toNat =
    { c with
      base := BitVec.ofInt 48 (c.base.toNat + 64 * n), ext0 := BitVec.ofNat 16 (len.toNat - 1),
      str1 := BitVec.ofInt 32 (if 0 ≤ c.str1.toNat - 64 * n ∧ c.str1.toNat - 64 * n < 64 * len then c.str1.toNat - 64 * n
        else 4) } := by
  have size : ((len.toNat : Nat) : Int) = len := Int.toNat_of_nonneg (by omega)
  have entry : (if (decide ((c.str1.toNat : Int) - 64 * n < 0) || decide (64 * len ≤ c.str1.toNat - 64 * n)) = true then (4 : Int)
      else c.str1.toNat - 64 * n) =
      if 0 ≤ (c.str1.toNat : Int) - 64 * n ∧ (c.str1.toNat : Int) - 64 * n < 64 * len then c.str1.toNat - 64 * n else 4 := by
    simp only [Bool.or_eq_true, decide_eq_true_eq]
    split_ifs <;> omega
  simp only [Cap.slicedCode, Cap.moved, size, entry]

/-- What a slice leaves or how it is refused, by where its part lies (the CSLICE entry). -/
theorem slice_results (runs : s.Runs i (sliceCap d a k n len)) (tag : (s.c a).tag = true) (unsealed : (s.c a).otype = 0) :
    (0 ≤ n → 1 ≤ len → n + len ≤ (s.c a).ext k →
      ((s.c a).Aligned k n → (s.c a).fmt.toNat ≠ Fmt.code → s.leaves i (s.setC d ((s.c a).sliced k n len.toNat))) ∧
      (¬ Sys2Proof.Fmt.defined (s.c a).fmt.toNat = true → s.traps i 0x0E ((s.c a).fmt.setWidth 64)) ∧
      s.RefusesMove i (s.c a) k n ∧
      ((s.c a).fmt.toNat = Fmt.code → k ≠ 0 → s.traps i 0x02 (BitVec.ofNat 64 k)) ∧
      ((s.c a).fmt.toNat = Fmt.code → k = 0 → s.leaves i (s.setC d ((s.c a).slicedCode n len.toNat)))) ∧
    (¬ (0 ≤ n ∧ 1 ≤ len ∧ n + len ≤ (s.c a).ext k) →
      s.traps i 0x09 (BitVec.ofInt 32 len ++ BitVec.ofInt 32 n)) := by
  refine ⟨fun first many last => ?_, fun outside => runs.traps (sliceCap_outside tag unsealed outside)⟩
  replace runs := runs.congr (sliceCap_inside tag unsealed first many last)
  refine ⟨fun aligned plain => runs.moves aligned (by rw [if_neg plain]; rfl), runs.move_undefined, runs.move_refused,
    fun code h0 => ?_, fun code h0 => ?_⟩
  · refine runs.traps (t := s) ?_
    rw [moveAligned_bind_ok (Cap.aligned_of_code code k n), if_pos code, M.need_bind, if_neg (by simpa using h0)]
  · refine runs.moves (Cap.aligned_of_code code k n) ?_
    rw [if_pos code, M.need_bind, if_pos (decide_eq_true h0)]
    rfl

end

/-! ### CRANK, CSTEP and CFIX -/

theorem strideFits_iff (c : Cap) (k : Nat) (x : Int) : strideFits c k x = true ↔
    (if k = 3 then -(2 ^ 23) ≤ x ∧ x < 2 ^ 23 else -(2 ^ 31) ≤ x ∧ x < 2 ^ 31) ∧ (Fmt.isBpi c.fmt.toNat = true → x % 256 = 0) := by
  unfold strideFits
  split_ifs <;> simp [imp_iff_not_or]

section
variable {s : State} {f : CFields} (tag : (s.c f.ca).tag = true) (unsealed : (s.c f.ca).otype = 0)
include tag unsealed

theorem shaped_bind_plain {α : Type} (plain : (s.c f.ca).fmt.toNat ≠ Fmt.code ∧ (s.c f.ca).fmt.toNat ≠ Fmt.sealer)
    (g : Unit → M α) : (shaped (s.c f.ca) >>= g) s = g () s := by
  rw [shaped_bind, derivable_bind, if_pos tag, if_pos unsealed, M.need_bind, if_pos]
  simpa using plain
theorem shaped_bind_other {α : Type} (other : ¬ ((s.c f.ca).fmt.toNat ≠ Fmt.code ∧ (s.c f.ca).fmt.toNat ≠ Fmt.sealer))
    (g : Unit → M α) : (shaped (s.c f.ca) >>= g) s = .error (.trap 0x0E ((s.c f.ca).fmt.setWidth 64) .none) s := by
  rw [shaped_bind, derivable_bind, if_pos tag, if_pos unsealed, M.need_bind, if_neg]
  simpa using other

theorem shaped_refuses (other : ¬ ((s.c f.ca).fmt.toNat ≠ Fmt.code ∧ (s.c f.ca).fmt.toNat ≠ Fmt.sealer)) :
    ∀ i ∈ [Instr.crank f, .cstep f, .cfix f], i.wf = true → s.traps i 0x0E ((s.c f.ca).fmt.setWidth 64) := by
  intro i hi wf
  simp only [List.mem_cons, List.not_mem_nil, or_false] at hi
  rcases hi with rfl | rfl | rfl
  · exact State.Runs.traps (t := s) ⟨rfl, State.accepts_derive (encode_crank f) wf⟩
      (by rw [M.get_bind, shaped_bind_other tag unsealed other])
  · exact State.Runs.traps (t := s) ⟨rfl, State.accepts_derive (encode_cstep f) wf⟩
      (by rw [M.get_bind, shaped_bind_other tag unsealed other])
  · exact State.Runs.traps (t := s) ⟨rfl, State.accepts_derive (encode_cfix f) wf⟩
      (by rw [M.get_bind, shaped_bind_other tag unsealed other])

variable (plain : (s.c f.ca).fmt.toNat ≠ Fmt.code ∧ (s.c f.ca).fmt.toNat ≠ Fmt.sealer)
include plain

theorem cfix_results (wf : (Instr.cfix f).wf = true) :
    let c := s.c f.ca
    let k := (f.imm.extractLsb' 0 2).toNat
    let i := (s.g f.x).toInt
    (0 ≤ i → i < c.ext k → (c.Aligned k i → s.leaves (.cfix f) (s.setC f.cd (c.sliced k i 1))) ∧
      (¬ Sys2Proof.Fmt.defined c.fmt.toNat = true → s.traps (.cfix f) 0x0E (c.fmt.setWidth 64)) ∧
      s.RefusesMove (.cfix f) c k i) ∧
    (¬ (0 ≤ i ∧ i < c.ext k) → s.traps (.cfix f) 0x09 (((s.g f.x).setWidth 32).setWidth 64)) := by
  intro c k i
  have runs : s.Runs (.cfix f) _ := ⟨rfl, State.accepts_derive (encode_cfix f) wf⟩
  refine ⟨fun first last => ?_, fun outside => runs.traps (t := s) ?_⟩
  · replace runs := runs.congr (body' := moveAligned c k i >>= fun _ => step1 (fun s' => s'.setC f.cd (c.sliced k i 1)))
      (by rw [M.get_bind, shaped_bind_plain tag unsealed plain, M.need_bind, if_pos (Bool.and_eq_true_iff.2 ⟨decide_eq_true first, decide_eq_true last⟩)])
    exact ⟨fun aligned => runs.moves aligned rfl, runs.move_undefined, runs.move_refused⟩
  · rw [M.get_bind, shaped_bind_plain tag unsealed plain, M.need_bind, if_neg (mt (fun h => ⟨of_decide_eq_true (Bool.and_eq_true_iff.1 h).1, of_decide_eq_true (Bool.and_eq_true_iff.1 h).2⟩) outside), extractLsb'_zero_eq_setWidth]

theorem cstep_results (wf : (Instr.cstep f).wf = true) :
    let c := s.c f.ca
    let k := (f.imm.extractLsb' 0 2).toNat
    let n := (f.imm.extractLsb' 16 16).toNat
    ((k = 0 ∨ n = 0) → s.traps (.cstep f) 0x02 s.openEval) ∧
    (k ≠ 0 → n ≠ 0 →
      (strideFits c k (c.stride k * n) = true →
        s.leaves (.cstep f) (s.setC f.cd ((c.withStride k (c.stride k * n)).withExt k ((c.ext k + n - 1) / n)))) ∧
      (¬ strideFits c k (c.stride k * n) = true → s.traps (.cstep f) 0x02 (BitVec.ofInt 64 (c.stride k * n)))) := by
  intro c k n
  have runs : s.Runs (.cstep f) _ := ⟨rfl, State.accepts_derive (encode_cstep f) wf⟩
  refine ⟨fun bad => runs.traps (t := s) ?_, fun h0 hn => ⟨fun fits => runs.leaves ?_, fun wide => runs.traps (t := s) ?_⟩⟩
  · rw [M.get_bind, shaped_bind_plain tag unsealed plain, M.needOpen_bind, if_neg]
    rw [Bool.and_eq_true, decide_eq_true_eq, decide_eq_true_eq]
    exact not_and_or.2 (bad.imp not_not.2 not_not.2)
  · rw [M.get_bind, shaped_bind_plain tag unsealed plain, M.needOpen_bind, if_pos (Bool.and_eq_true_iff.2 ⟨decide_eq_true h0, decide_eq_true hn⟩), M.need_bind, if_pos fits]
    rfl
  · rw [M.get_bind, shaped_bind_plain tag unsealed plain, M.needOpen_bind, if_pos (Bool.and_eq_true_iff.2 ⟨decide_eq_true h0, decide_eq_true hn⟩), M.need_bind, if_neg wide]
    rfl

/-- The unit in which CRANK shares out an extent. -/
def rankUnit (k f : Nat) : Nat := if k = 0 && Fmt.isBpi f then 256 else if k = 0 && f = 0x0F then 2 else 1

theorem crank_results (wf : (Instr.crank f).wf = true) :
    let c := s.c f.ca
    let k := (f.imm.extractLsb' 0 2).toNat
    let n := (f.imm.extractLsb' 16 16).toNat
    let part := rankPart (c.ext k) (rankUnit k c.fmt.toNat) n (s.g f.x).toNat
    (n = 0 → s.traps (.crank f) 0x02 0) ∧
    (n ≠ 0 → n ≤ (s.g f.x).toNat → s.traps (.crank f) 0x09 (s.g f.x)) ∧
    (n ≠ 0 → (s.g f.x).toNat < n →
      (part.2 ≤ part.1 → s.leaves (.crank f) (s.setC f.cd Cap.null)) ∧
      (part.1 < part.2 →
        (c.Aligned k part.1 → s.leaves (.crank f) (s.setC f.cd (c.sliced k part.1 (part.2 - part.1)))) ∧
        (¬ Sys2Proof.Fmt.defined c.fmt.toNat = true → s.traps (.crank f) 0x0E (c.fmt.setWidth 64)))) := by
  intro c k n part
  have runs : s.Runs (.crank f) _ := ⟨rfl, State.accepts_derive (encode_crank f) wf⟩
  refine ⟨fun hn => runs.traps (t := s) ?_, fun hn hr => runs.traps (t := s) ?_, fun hn hr => ?_⟩
  · rw [M.get_bind, shaped_bind_plain tag unsealed plain, M.need_bind, if_neg (mt of_decide_eq_true (not_not.2 hn))]
  · rw [M.get_bind, shaped_bind_plain tag unsealed plain, M.need_bind, if_pos (decide_eq_true hn), M.need_bind, if_neg (mt of_decide_eq_true (not_lt.2 hr))]
  · replace runs := runs.congr (body' := if part.2 ≤ part.1 then step1 (fun s' => s'.setC f.cd Cap.null)
        else moveAligned c k part.1 >>= fun _ => step1 (fun s' => s'.setC f.cd (c.sliced k part.1 (part.2 - part.1))))
      (by rw [M.get_bind, shaped_bind_plain tag unsealed plain, M.need_bind, if_pos (decide_eq_true hn), M.need_bind, if_pos (decide_eq_true hr)]
          rfl)
    refine ⟨fun none => ?_, fun part => ?_⟩
    · rw [if_pos none] at runs
      exact runs.leaves rfl
    · rw [if_neg (by omega)] at runs
      exact ⟨fun aligned => runs.moves aligned rfl, runs.move_undefined⟩

end

/-! ### CSLICE along a dimension that it does not name

In O19 the bound variable `k` hides the dimension that the instruction names: of CSLICE the clauses are stated for every `k`,
and along two of them the part is not the same. With the dimension of the immediate they hold: `slice_results` above, and
`crank_results`, `cstep_results` and `cfix_results` of the others. -/

/-- A capability over four by four bytes. -/
def squareCap : Cap := { Cap.null with tag := true, ext0 := 3, ext1 := 3, str1 := 4 }
/-- c0 holds it, and g1 holds 2. -/
def squareState : State := (State.reset.setC 0 squareCap).setG 1 2
/-- CSLICE c0, c0, g0, g1 along dimension 0. -/
def squareSlice : CFields := { y := 1, x := 0, ca := 0, cd := 0, imm := 0 }

theorem State.c_setPc (s : State) (x : Word) (n : BitVec 4) : (s.setPc x).c n = s.c n := by
  simp [State.c, State.setPc]
theorem State.c_setC_self (s : State) (n : BitVec 4) (x : Cap) : (s.setC n x).c n = x := by
  simp [State.c, State.setC, Ctx.setC]

/-- Refutes O19: CSLICE of the first two of four columns would also be CSLICE of the first two of four rows. -/
theorem not_slicingResults : ¬ Obligations.SlicingResults := by
  unfold Obligations.SlicingResults
  intro h
  have slice := (h squareState squareSlice (by decide) (by decide)).1 (.cslice squareSlice) 0 2
  have columns := (slice 0 (by decide) (by decide)).1 (by decide) (by decide) (by decide) (by decide) (by decide) (by decide)
  have rows := (slice 1 (by decide) (by decide)).1 (by decide) (by decide) (by decide) (by decide) (by decide) (by decide)
  have left := congrArg (State.c · squareSlice.cd) (Host.Outcome.next.inj (columns.symm.trans rows))
  simp only [State.after, State.c_setPc, State.c_setC_self] at left
  exact absurd (congrArg Cap.ext0 left) (by decide)

end Sys2Proof.Machine
end

section
/-! What a translation, a read at a home and the records it sends leave: dies, links, and of the cores their page TLBs (R76, R87,
R283). -/

namespace Sys2Proof.Machine
set_option Elab.async false

/-! ### The parts that change -/

theorem State.touchSector_shape (s : State) (a : Nat) (w : Writer) (b x : Bool) :
    ∃ D, s.touchSector a w b x = { s with dies := D } := by
  unfold State.touchSector
  split
  · exact ⟨_, rfl⟩
  · exact ⟨s.dies, rfl⟩
theorem State.touch_shape (s : State) (a : Nat) (w : Writer) (b : Bool) : ∃ D, s.touch a w b = { s with dies := D } :=
  s.touchSector_shape a w b false

theorem State.sendItems_shape (s : State) (d e : Nat) (xs : List LinkItem) : ∃ L, s.sendItems d e xs = { s with links := L } := by
  obtain h | ⟨p, x, h⟩ := s.sendItems_eq d e xs
  · exact ⟨s.links, h⟩
  · exact ⟨_, h⟩
theorem State.asks_shape (s : State) (a : Agent) (r : Request) (place : Nat) (answers : List LinkBody) :
    ∃ L, s.asks a r place answers = { s with links := L } := by
  unfold State.asks
  dsimp only
  split
  · exact ⟨s.links, rfl⟩
  · obtain ⟨L, hL⟩ := s.sendItems_shape (agentDie a) (routeDie (agentDie a) place)
      [{ vc := 1, dst := routeDie (agentDie a) place, body := .record r }]
    rw [hL]
    obtain ⟨L', hL'⟩ := ({ s with links := L } : State).sendItems_shape (routeDie (agentDie a) place) (agentDie a)
      (answers.map (fun b => { vc := 2, dst := agentDie a, body := b }))
    exact ⟨L', hL'⟩
theorem State.asksBytes_shape (s : State) (a : Agent) (pa n : Nat) : ∃ L, s.asksBytes a pa n = { s with links := L } :=
  s.asks_shape a _ pa _

theorem State.foldl_dies_shape {β : Type} (f : State → β → State) (h : ∀ s x, ∃ D, f s x = { s with dies := D }) (xs : List β)
    (s : State) : ∃ D, xs.foldl f s = { s with dies := D } := by
  induction xs generalizing s with
  | nil => exact ⟨s.dies, rfl⟩
  | cons x rest ih =>
    obtain ⟨D, hD⟩ := h s x
    obtain ⟨D', hD'⟩ := ih (f s x)
    exact ⟨D', by rw [List.foldl_cons, hD', hD]⟩
theorem State.walked_shape (s : State) (a : Agent) (va : Nat) : ∃ D, s.walked a va = { s with dies := D } := by
  unfold State.walked
  split
  · exact State.foldl_dies_shape _ (fun s p => s.touch_shape p .read false) _ s
  · exact ⟨s.dies, rfl⟩

/-- A core with another page TLB. -/
def Core.withTlb (c : Core) (l : List TlbEntry) : Core := { c with u := { c.u with tlb := l } }

/-- Another state of the dies, of the links and of the page TLBs. -/
structure State.Translates (s t : State) : Prop where
  shape : ∃ D L C, t = { s with dies := D, links := L, cores := C }
  core : ∀ k, ∃ l, t.coreAt k = (s.coreAt k).withTlb l

theorem State.Translates.of_dies {s : State} (D : Sparse Die) : s.Translates { s with dies := D } :=
  ⟨⟨D, s.links, s.cores, rfl⟩, fun k => ⟨(s.coreAt k).u.tlb, rfl⟩⟩
theorem State.Translates.of_links {s : State} (L : Sparse Link) : s.Translates { s with links := L } :=
  ⟨⟨s.dies, L, s.cores, rfl⟩, fun k => ⟨(s.coreAt k).u.tlb, rfl⟩⟩
theorem State.Translates.refl (s : State) : s.Translates s := .of_dies s.dies
theorem State.Translates.trans {s t u : State} (h : s.Translates t) (h' : t.Translates u) : s.Translates u := by
  obtain ⟨D, L, C, rfl⟩ := h.shape
  obtain ⟨D', L', C', rfl⟩ := h'.shape
  refine ⟨⟨D', L', C', rfl⟩, fun k => ?_⟩
  obtain ⟨l, hl⟩ := h.core k
  obtain ⟨l', hl'⟩ := h'.core k
  exact ⟨l', by rw [hl', hl]; rfl⟩

theorem State.translates_touch (s : State) (a : Nat) (w : Writer) (b : Bool) : s.Translates (s.touch a w b) := by
  obtain ⟨D, h⟩ := s.touch_shape a w b
  rw [h]
  exact .of_dies D
theorem State.translates_asksBytes (s : State) (a : Agent) (pa n : Nat) : s.Translates (s.asksBytes a pa n) := by
  obtain ⟨L, h⟩ := s.asksBytes_shape a pa n
  rw [h]
  exact .of_links L
theorem State.translates_walked (s : State) (a : Agent) (va : Nat) : s.Translates (s.walked a va) := by
  obtain ⟨D, h⟩ := s.walked_shape a va
  rw [h]
  exact .of_dies D
theorem State.translates_setTlb (s : State) (k : Nat) (l : List TlbEntry) :
    s.Translates (s.setCoreAt k ((s.coreAt k).withTlb l)) := by
  refine ⟨⟨s.dies, s.links, _, rfl⟩, fun j => ?_⟩
  rw [State.coreAt_setCoreAt]
  split
  · next same => subst same; exact ⟨l, rfl⟩
  · exact ⟨(s.coreAt j).u.tlb, rfl⟩
theorem State.translates_holdLeaf (s : State) (a : Agent) (e : Option TlbEntry) : s.Translates (s.holdLeaf a e) := by
  unfold State.holdLeaf
  cases e with
  | none => exact .refl s
  | some e =>
    dsimp only
    obtain ⟨t, first, ht⟩ : ∃ t, s.Translates t ∧ (if (s.die (agentDie a)).xcache.contains e then s
        else s.setDie (agentDie a) { s.die (agentDie a) with xcache := holdEntry e 4096 (s.die (agentDie a)).xcache }) = t := by
      refine ⟨_, ?_, rfl⟩
      split
      · exact .refl s
      · exact .of_dies _
    rw [ht]
    split
    · exact first
    · split
      · exact first
      · exact first.trans (State.translates_setTlb _ _ _)
theorem State.translates_translated (s : State) (a : Agent) (va : Nat) (e : Option TlbEntry) :
    s.Translates (s.translated a va e) := (s.translates_walked a va).trans (State.translates_holdLeaf _ a e)

section
variable {s t : State} (h : s.Translates t)
include h

theorem State.Translates.cur : t.cur = s.cur := by obtain ⟨D, L, C, rfl⟩ := h.shape; rfl
theorem State.Translates.ctxs : t.ctxs = s.ctxs := by obtain ⟨D, L, C, rfl⟩ := h.shape; rfl
theorem State.Translates.mem : t.mem = s.mem := by obtain ⟨D, L, C, rfl⟩ := h.shape; rfl
theorem State.Translates.tags : t.tags = s.tags := by obtain ⟨D, L, C, rfl⟩ := h.shape; rfl
theorem State.Translates.poison : t.poison = s.poison := by obtain ⟨D, L, C, rfl⟩ := h.shape; rfl
theorem State.Translates.press : t.press = s.press := by obtain ⟨D, L, C, rfl⟩ := h.shape; rfl
theorem State.Translates.ctx : t.ctx = s.ctx := by obtain ⟨D, L, C, rfl⟩ := h.shape; rfl
theorem State.Translates.coreNo : t.coreNo = s.coreNo := by obtain ⟨D, L, C, rfl⟩ := h.shape; rfl
theorem State.Translates.slot : t.slot = s.slot := by obtain ⟨D, L, C, rfl⟩ := h.shape; rfl

end

end Sys2Proof.Machine
end

section
/-! CENTER enters a compartment, or traps at the first of its checks that fails (R65, R413). -/

namespace Sys2Proof.Machine
set_option Elab.async false

/-! ### What the check of a target leaves (R20, R22) -/

/-- Another state of the dies, the links and the units of the cores: what fetching a line may change. -/
structure State.Fetches (s t : State) : Prop where
  shape : ∃ D L C, t = { s with dies := D, links := L, cores := C }
  core : ∀ k, ∃ u, t.coreAt k = { s.coreAt k with u := u }

theorem State.Fetches.refl (s : State) : s.Fetches s := ⟨⟨s.dies, s.links, s.cores, rfl⟩, fun k => ⟨(s.coreAt k).u, rfl⟩⟩
theorem State.Fetches.setUnits {s t : State} (h : s.Translates t) (k : Nat) (u : CoreUnits) :
    s.Fetches (t.setCoreAt k { t.coreAt k with u := u }) := by
  obtain ⟨D, L, C, rfl⟩ := h.shape
  refine ⟨⟨D, L, _, rfl⟩, fun j => ?_⟩
  obtain ⟨l, hl⟩ := h.core j
  rw [State.coreAt_setCoreAt]
  split
  · next same => subst same; exact ⟨u, by rw [hl]; rfl⟩
  · exact ⟨_, hl⟩

theorem State.fetches_of_line {s u : State} {la : Nat} {l : FetchLine} (h : s.fetchLine la = .line l u) : s.Fetches u := by
  unfold State.fetchLine at h
  split at h
  · cases h
  · cases h
  · cases h
  · dsimp only at h
    split at h
    · cases h; exact .refl s
    · split at h
      · cases h
      · split at h
        · cases h
        · cases h
          exact .setUnits (((s.translates_translated _ _ _).trans (State.translates_touch _ _ _ _)).trans
            (State.translates_asksBytes _ _ _ _)) _ _

theorem State.fetches_of_checkTarget {s u : State} {t : Word} {tgt : Bool} (h : s.checkTarget t tgt = .ok u) : s.Fetches u := by
  unfold State.checkTarget at h
  dsimp only at h
  split at h
  · cases h
  · split at h
    · cases h
    · cases h
    · cases h
    · next line =>
      split at h
      · cases h
      · split at h
        · cases h; exact State.fetches_of_line line
        · cases h

section
variable {s t : State} (h : s.Fetches t)
include h

theorem State.Fetches.cur : t.cur = s.cur := by obtain ⟨D, L, C, rfl⟩ := h.shape; rfl
theorem State.Fetches.ctx : t.ctx = s.ctx := by obtain ⟨D, L, C, rfl⟩ := h.shape; rfl
theorem State.Fetches.slot : t.slot = s.slot := by obtain ⟨D, L, C, rfl⟩ := h.shape; rfl
theorem State.Fetches.walloc : t.core.walloc = s.core.walloc := by
  have no : t.coreNo = s.coreNo := by obtain ⟨D, L, C, rfl⟩ := h.shape; rfl
  obtain ⟨u, hu⟩ := h.core s.coreNo
  rw [State.core, no, hu]
  rfl
theorem State.Fetches.wbase : t.wbase = s.wbase := by simp only [State.wbase, h.walloc, h.slot]
theorem State.Fetches.wsize : t.wsize = s.wsize := by simp only [State.wsize, h.walloc, h.slot]

end

/-! ### The system registers read what a context's own registers do not decide (R202) -/

/-- The same machine, but for the windows of its cores and for the contexts' registers. -/
structure State.SameUnits (s t : State) : Prop where
  shape : ∃ X C, t = { s with ctxs := X, cores := C }
  core : ∀ k, ∃ w, t.coreAt k = { s.coreAt k with window := w }

section
variable {s t : State} (h : s.SameUnits t)
include h

theorem State.SameUnits.run (k : Nat) : (t.coreAt k).run = (s.coreAt k).run := by
  obtain ⟨w, hw⟩ := h.core k
  rw [hw]
theorem State.SameUnits.runOn (k : Nat) : t.runOn k = s.runOn k := by
  rw [State.runOn, h.run]
  obtain ⟨X, C, rfl⟩ := h.shape
  rfl
theorem State.SameUnits.contRun (k rec : Nat) : t.contRun k rec = s.contRun k rec := by
  obtain ⟨w, hw⟩ := h.core k
  obtain ⟨X, C, rfl⟩ := h.shape
  simp only [State.contRun, hw]
  rfl
theorem State.SameUnits.runFor : t.runFor t.cur = s.runFor s.cur := by
  have on := h.runOn
  have cont := h.contRun
  obtain ⟨X, C, rfl⟩ := h.shape
  have same : ({ s with ctxs := X, cores := C } : State).cur = s.cur := rfl
  unfold State.runFor
  rw [same]
  split
  · rfl
  · rw [cont]; rfl
  · simp only [funext on]

theorem State.SameUnits.domid (k l : Nat) : t.domid k l = s.domid k l := by
  have on := h.runOn k
  obtain ⟨X, C, rfl⟩ := h.shape
  rw [State.domid, on]
  rfl

/-- A system register other than CID depends on the system registers but CID, and on nothing else of the contexts. -/
theorem State.SameUnits.sysGet {x : BitVec 16} (sr : t.ctx.sr = { s.ctx.sr with cid := x }) {n : Nat} (other : n ≠ 0x005) :
    t.sysGet n = s.sysGet n := by
  have run := h.runFor
  have domid := h.domid s.coreName
  obtain ⟨w, hw⟩ := h.core s.coreNo
  obtain ⟨X, C, rfl⟩ := h.shape
  have core : ({ s with ctxs := X, cores := C } : State).core = { s.core with window := w } := hw
  replace run : ({ s with ctxs := X, cores := C } : State).runFor s.cur = s.runFor s.cur := run
  replace domid (l : Nat) : ({ s with ctxs := X, cores := C } : State).domid
      ({ s with ctxs := X, cores := C } : State).coreName l = s.domid s.coreName l := domid l
  simp only [State.sysGet, sr, core, run, domid, if_neg other]
  rfl

end

/-! ### What CENTER leaves (R65) -/

theorem Sparse.get_foldl_put_const (l : Sparse (BitVec 32)) (a n j : Nat) :
    Sparse.get 0 ((List.range n).foldl (fun w i => Sparse.put 0 w (a + i) 0) l) j =
      if a ≤ j ∧ j < a + n then 0 else Sparse.get 0 l j := by
  induction n with
  | zero => simp
  | succ n ih =>
    rw [List.range_succ, List.foldl_append, List.foldl_cons, List.foldl_nil, Sparse.get_put, ih]
    have more : (a ≤ j ∧ j < a + (n + 1)) ↔ j = a + n ∨ (a ≤ j ∧ j < a + n) := by omega
    simp only [more]
    by_cases last : j = a + n
    · simp [last]
    · simp [last]

section
variable (s : State) (f : KFields) (pc : Word)

theorem State.sameUnits_enter (dest : Word) : s.SameUnits ((s.enter f pc).setPc dest) := by
  refine ⟨⟨_, _, rfl⟩, fun k => ?_⟩
  show ∃ w, s.zeroWindow.coreAt k = _
  unfold State.zeroWindow State.setCore
  rw [State.coreAt_setCoreAt]
  split
  · next same => subst same; exact ⟨_, rfl⟩
  · exact ⟨(s.coreAt k).window, rfl⟩
theorem State.winFile_enter (dest : Word) {e : Nat} (lo : s.wbase ≤ e) (hi : e < s.wbase + s.wsize) :
    ((s.enter f pc).setPc dest).winFile e = 0 := by
  show Sparse.get 0 (s.zeroWindow.coreAt s.coreNo).window e = 0
  unfold State.zeroWindow State.setCore
  rw [State.coreAt_setCoreAt_self, Sparse.get_foldl_put_const, if_pos ⟨lo, hi⟩]

/-- The registers that CENTER leaves, when the contexts at its end are those it found. -/
theorem State.ctx_enter (dest : Word) : ((s.enter f pc).setPc dest).ctx = { (s.enter f pc).ctx with pc := dest } := by
  simp [State.setPc]

theorem keepC_13 (cs : Vector Cap 16) (m : BitVec 16) (a b c : Cap) : (keepC cs m a b c)[13] = a := by simp [keepC]
theorem keepC_14 (cs : Vector Cap 16) (m : BitVec 16) (a b c : Cap) : (keepC cs m a b c)[14] = b := by simp [keepC]
theorem keepC_15 (cs : Vector Cap 16) (m : BitVec 16) (a b c : Cap) : (keepC cs m a b c)[15] = c := by simp [keepC]
theorem keepC_low (cs : Vector Cap 16) (m : BitVec 16) (a b c : Cap) {j : Nat} (h : j < 13) :
    (keepC cs m a b c)[j] = if m.getLsbD j then cs[j] else Cap.null := by
  simp only [keepC, Vector.getElem_ofFn]
  rw [if_neg (by omega), if_neg (by omega), if_neg (by omega)]
  rfl

/-- The registers of the compartment entered. -/
theorem State.enter_registers (dest : Word) :
    let k := s.c f.ck
    let dt := s.c f.dt
    let t := (s.enter f pc).setPc dest
    t.pc = dest ∧ t.ctx.sr = { s.ctx.sr with cid := k.otype } ∧ t.ctx.fcap = { k with otype := 0 } ∧
    t.c 13 = { dt with otype := 0 } ∧
    t.c 14 = (if f.ck = 14 ∧ f.dt = 15 then Cap.null else { s.fcapAt pc with otype := s.ctx.sr.cid }) ∧
    t.c 15 = (if f.ck = 14 ∧ f.dt = 15 then Cap.null else { s.c 13 with otype := s.ctx.sr.cid }) ∧
    (∀ j : Fin 13, t.ctx.r.c[j.val] = if f.ckeep.getLsbD j.val then s.ctx.r.c[j.val] else Cap.null) ∧
    (∀ j : Fin 32, t.ctx.r.g[j] = if f.gkeep.getLsbD j.val ∧ j.val ≠ 0 then s.ctx.r.g[j] else 0) ∧
    t.ctx.r.v = Vector.replicate 8 0 ∧ t.ctx.r.m = Vector.replicate 4 0 ∧ t.ctx.r.vw = Vector.replicate 4 0 := by
  intro k dt t
  have registers : t.ctx = { (s.enter f pc).ctx with pc := dest } := s.ctx_enter f pc dest
  simp only [State.enter, State.ctx_setCtx] at registers
  have caps : t.ctx.r.c = keepC s.ctx.r.c f.ckeep { dt with otype := 0 }
      (if (decide (f.ck = 14) && decide (f.dt = 15)) = true then Cap.null else { s.fcapAt pc with otype := s.ctx.sr.cid })
      (if (decide (f.ck = 14) && decide (f.dt = 15)) = true then Cap.null else { s.c 13 with otype := s.ctx.sr.cid }) := by
    rw [registers]
  refine ⟨congrArg Ctx.pc registers, congrArg Ctx.sr registers, congrArg Ctx.fcap registers, ?_, ?_, ?_, fun j => ?_, fun j => ?_,
    congrArg (fun c => c.r.v) registers, congrArg (fun c => c.r.m) registers, congrArg (fun c => c.r.vw) registers⟩
  · show t.ctx.r.c[13] = _
    simp only [caps, keepC_13]
  · show t.ctx.r.c[14] = _
    simp only [caps, keepC_14, Bool.and_eq_true, decide_eq_true_eq]
  · show t.ctx.r.c[15] = _
    simp only [caps, keepC_15, Bool.and_eq_true, decide_eq_true_eq]
  · simp only [caps, keepC_low _ _ _ _ _ j.isLt]
  · simp only [registers, keepG, Fin.getElem_fin, Vector.getElem_ofFn, Bool.and_eq_true, decide_eq_true_eq]

end

/-! ### CENTER -/

theorem accepts_center {s : State} {f : KFields} (wf : (Instr.center f).wf = true) (engine : isEngine s.cur = false) :
    s.accepts (.center f) := ⟨fun h => absurd (h.symm.trans engine) (by decide), wf⟩

/-- The body of CENTER after its checks of the pair. -/
def centerTo (s : State) (f : KFields) (target : Word) : M (Option Word) := do
  if (s.c f.ck).covers target.toNat then checkTargetM target true
  modify (fun t => t.enter f (seqPc s.pc 3))
  pure (some target)

/-- CENTER's checks of the pair, in the order of R65. -/
theorem center_pair {s : State} {f : KFields} (wf : (Instr.center f).wf = true) (engine : isEngine s.cur = false) :
    let k := s.c f.ck
    let dt := s.c f.dt
    s.Runs (.center f) (do
      need (k.tag && dt.tag) 0x08 0
      need (k.otype ≠ 0 && k.otype = dt.otype) 0x0C (k.otype.setWidth 64)
      need (k.fmt.toNat = Fmt.code) 0x0E (k.fmt.setWidth 64)
      need (s.alive k) 0x0B (k.lease.setWidth 64)
      need (s.alive dt) 0x0B (dt.lease.setWidth 64)
      need (k.perm.getLsbD 4) 0x0A 0x10
      centerTo s f (k.base.setWidth 64 + k.str1.setWidth 64)) :=
  State.Runs.congr ⟨rfl, accepts_center wf engine⟩ rfl

section
variable {s u : State} {f : KFields} {target : Word}

theorem centerTo_outside (out : (s.c f.ck).covers target.toNat = false) :
    centerTo s f target s = .ok (some target) (s.enter f (seqPc s.pc 3)) := by
  unfold centerTo
  rw [if_neg (by simp [out])]
  rfl
theorem checkTargetM_ok {tgt : Bool} (ok : s.checkTarget target tgt = .ok u) : checkTargetM target tgt s = .ok () u := by
  rw [checkTargetM, M.get_bind, ok]
  rfl
theorem checkTargetM_bad {tgt : Bool} {cause : BitVec 8} {eval : Word} (bad : s.checkTarget target tgt = .bad cause eval) :
    checkTargetM target tgt s = .error (.trap cause eval (s.targetNote target cause)) s := by
  rw [checkTargetM, M.get_bind, bad]
  rfl
theorem centerTo_inside (inside : (s.c f.ck).covers target.toNat = true) (ok : s.checkTarget target true = .ok u) :
    centerTo s f target s = .ok (some target) (u.enter f (seqPc s.pc 3)) := by
  unfold centerTo
  rw [if_pos inside, M.bind_ok (checkTargetM_ok ok)]
  rfl
theorem centerTo_bad {cause : BitVec 8} {eval : Word} (inside : (s.c f.ck).covers target.toNat = true)
    (bad : s.checkTarget target true = .bad cause eval) :
    centerTo s f target s = .error (.trap cause eval (s.targetNote target cause)) s := by
  unfold centerTo
  rw [if_pos inside, M.bind_error (checkTargetM_bad bad)]

end

/-- Settles O22. -/
theorem compartmentEntry : Obligations.CompartmentEntry := by
  unfold Obligations.CompartmentEntry
  intro s u f wf engine k dt target
  have runs := center_pair wf engine
  have code : k.fmt.toNat = Fmt.code ↔ k.fmt = 0x24 := by rw [← BitVec.toNat_inj]; rfl
  refine ⟨fun untagged => runs.traps (t := s) ?_, fun tag dtag => ⟨fun other => runs.traps (t := s) ?_, fun sealed same =>
    ⟨fun fmt => ?_, fun fmt dead => ?_, fun fmt live dead => ?_, fun fmt live dlive perm => ?_, fun fmt live dlive perm => ?_⟩⟩⟩
  · rw [M.need_bind, if_neg]
    rw [Bool.and_eq_true]; exact untagged
  · rw [M.need_bind, if_pos (Bool.and_eq_true_iff.2 ⟨tag, dtag⟩), M.need_bind, if_neg]
    rw [Bool.and_eq_true, decide_eq_true_eq, decide_eq_true_eq]; exact other
  all_goals replace runs := runs.congr (by
    rw [M.need_bind, if_pos (Bool.and_eq_true_iff.2 ⟨tag, dtag⟩), M.need_bind,
      if_pos (Bool.and_eq_true_iff.2 ⟨decide_eq_true sealed, decide_eq_true same⟩)])
  · refine runs.traps (t := s) ?_
    rw [M.need_bind, if_neg (mt of_decide_eq_true (mt code.1 fmt))]
  all_goals replace runs := runs.congr (by rw [M.need_bind, if_pos (decide_eq_true (code.2 fmt))])
  · refine runs.traps (t := s) ?_
    rw [M.need_bind, if_neg (by rw [dead]; decide)]
  all_goals replace runs := runs.congr (by rw [M.need_bind, if_pos live])
  · refine runs.traps (t := s) ?_
    rw [M.need_bind, if_neg (by rw [dead]; decide)]
  all_goals replace runs := runs.congr (by rw [M.need_bind, if_pos dlive])
  · refine runs.traps (t := s) ?_
    rw [M.need_bind, if_neg (by rw [perm]; decide)]
  replace runs : s.Runs (.center f) (centerTo s f target) := runs.congr (by rw [M.need_bind, if_pos perm])
  refine ⟨fun cause eval inside bad => runs.stops (centerTo_bad inside bad), fun passed => ?_⟩
  have fetched : s.Fetches u := by
    rcases passed with ⟨-, rfl⟩ | ⟨-, ok⟩
    · exact .refl _
    · exact State.fetches_of_checkTarget ok
  have done : centerTo s f target s = .ok (some target) (u.enter f (seqPc s.pc 3)) := by
    rcases passed with ⟨outside, rfl⟩ | ⟨inside, ok⟩
    · exact centerTo_outside outside
    · exact centerTo_inside inside ok
  have cap (n : BitVec 4) : u.c n = s.c n := by rw [State.c, fetched.ctx]; rfl
  obtain ⟨pc, sr, fcap, c13, c14, c15, cs, gs, v, m, vw⟩ := u.enter_registers f (seqPc s.pc 3) target
  rw [cap f.ck] at sr fcap
  rw [cap f.dt] at c13
  exact ⟨runs.jumps done, pc, congrArg SysRegs.cid sr, fcap, c13, c14, c15, cs, gs, v, m, vw,
    fun n other => (u.sameUnits_enter f _ target).sysGet sr other,
    fun e lo hi => u.winFile_enter f _ target (by rwa [fetched.wbase]) (by rwa [fetched.wbase, fetched.wsize]), rfl⟩

end Sys2Proof.Machine
end

section
/-! The invariant through bodies and outcomes. -/

namespace Sys2Proof.Machine
set_option Elab.async false
open Std.Do
set_option mvcgen.warning false

/-- However the body ends, it keeps the canonical form of memory. -/
abbrev M.Keeps {α : Type} (x : M α) : Prop :=
  ⦃fun s => ⌜s.Inv⌝⦄ x ⦃post⟨fun _ s => ⌜s.Inv⌝, fun _ s => ⌜s.Inv⌝⟩⦄

/-- The state that follows, if there is one, is in the invariant. -/
def Outcome.Keeps (x : Host.Outcome State Fault Refusal) : Prop := ∀ t, x = .next t → t.Inv

theorem State.inv_ite {p : Prop} [Decidable p] {t u : State} (ht : t.Inv) (hu : u.Inv) : (if p then t else u).Inv := by
  split
  · exact ht
  · exact hu

theorem Outcome.keeps_next (t : State) : Outcome.Keeps (.next t) ↔ t.Inv :=
  ⟨fun h => h t rfl, fun h u e => by cases e; exact h⟩

theorem M.keeps_iff {α : Type} {x : M α} :
    x.Keeps ↔ ∀ s, s.Inv → match x s with | .ok _ t => t.Inv | .error _ t => t.Inv := by
  constructor
  · intro h s hs
    have := h s hs
    simp only [wp, PredTrans.apply, EStateM.run] at this
    cases e : x s <;> rw [e] at this <;> exact this
  · intro h s hs
    have := h s hs
    simp only [wp, PredTrans.apply, EStateM.run]
    cases e : x s <;> rw [e] at this <;> exact this

theorem M.Keeps.ok {α : Type} {x : M α} (h : x.Keeps) {s t : State} {a : α} (hs : s.Inv) (e : x s = .ok a t) : t.Inv := by
  simpa only [e] using M.keeps_iff.1 h s hs

theorem M.Keeps.error {α : Type} {x : M α} (h : x.Keeps) {s t : State} {e : Stop} (hs : s.Inv) (he : x s = .error e t) :
    t.Inv := by
  simpa only [he] using M.keeps_iff.1 h s hs

theorem M.Keeps.bind {α β : Type} {x : M α} {f : α → M β} (hx : x.Keeps) (hf : ∀ a, (f a).Keeps) : (x >>= f).Keeps := by
  mvcgen [hx, hf]

theorem M.keeps_pure {α : Type} (a : α) : (pure a : M α).Keeps := M.keeps_iff.2 fun _ hs => hs

theorem M.keeps_throw {α : Type} (e : Stop) : (throw e : M α).Keeps := M.keeps_iff.2 fun _ hs => hs

theorem M.Keeps.get {α : Type} {f : State → M α} (hf : ∀ s, s.Inv → (f s).Keeps) : ((get : M State) >>= f).Keeps :=
  M.keeps_iff.2 fun s hs => M.keeps_iff.1 (hf s hs) s hs

theorem M.keeps_modify (f : State → State) (hf : ∀ s, s.Inv → (f s).Inv) : (modify f : M PUnit).Keeps :=
  M.keeps_iff.2 fun s hs => hf s hs

theorem M.keeps_mapM {α β : Type} (f : α → M β) (xs : List α) (hf : ∀ x, (f x).Keeps) : (xs.mapM f).Keeps := by
  induction xs with
  | nil => exact M.keeps_pure []
  | cons x rest ih =>
    rw [List.mapM_cons]
    exact (hf x).bind fun b => ih.bind fun bs => M.keeps_pure (b :: bs)

theorem M.keeps_forM {α : Type} (f : α → M PUnit) (xs : List α) (hf : ∀ x, (f x).Keeps) : (xs.forM f).Keeps := by
  induction xs with
  | nil => exact M.keeps_pure ()
  | cons x rest ih => exact (hf x).bind fun _ => ih

theorem M.keeps_foldlM {α β : Type} (f : β → α → M β) (xs : List α) (a : β) (hf : ∀ a x, (f a x).Keeps) :
    (xs.foldlM f a).Keeps := by
  induction xs generalizing a with
  | nil => exact M.keeps_pure a
  | cons x rest ih => exact (hf a x).bind fun b => ih b

end Sys2Proof.Machine
end

section
/-! The invariant: memory accesses: translation, sectors, views and the store queues. -/

namespace Sys2Proof.Machine
set_option Elab.async false
open Std.Do
set_option mvcgen.warning false

/-! ### Access to memory -/

theorem State.inv_setCtx (s : State) (c : Ctx) (hs : s.Inv) :
    (s.setCtx c).Inv := by
  unfold State.setCtx
  grind [State.inv_setCtxOf]

theorem State.inv_setCore (s : State) (c : Core) (hs : s.Inv) :
    (s.setCore c).Inv := by
  unfold State.setCore
  grind [State.inv_setCoreAt]

theorem State.inv_setDie (s : State) (d : Nat) (x : Die) (hs : s.Inv) :
    (s.setDie d x).Inv :=
  State.inv_of_memory_eq hs rfl rfl rfl

theorem State.inv_setCard (s : State) (c : Nat) (x : Card) (hs : s.Inv) :
    (s.setCard c x).Inv :=
  State.inv_of_memory_eq hs rfl rfl rfl

theorem State.inv_setLink (s : State) (p : Port) (x : Link) (hs : s.Inv) :
    (s.setLink p x).Inv :=
  State.inv_of_memory_eq hs rfl rfl rfl

theorem State.inv_setSlice (s : State) (d n : Nat) (x : Slice) (hs : s.Inv) :
    (s.setSlice d n x).Inv := by
  unfold State.setSlice
  grind [State.inv_setDie]

theorem State.inv_setTenant (s : State) (t : Nat) (x : Tenant) (hs : s.Inv) :
    (s.setTenant t x).Inv :=
  State.inv_of_memory_eq hs rfl rfl rfl

theorem State.inv_setQueue (s : State) (q : Nat) (x : Queue) (hs : s.Inv) :
    (s.setQueue q x).Inv :=
  State.inv_of_memory_eq hs rfl rfl rfl

theorem State.inv_setHart (s : State) (h : Nat) (x : CommandHart) (hs : s.Inv) :
    (s.setHart h x).Inv :=
  State.inv_of_memory_eq hs rfl rfl rfl

theorem State.inv_updRun (s : State) (id : Nat) (f : Run → Run) (hs : s.Inv) :
    (s.updRun id f).Inv :=
  State.inv_of_memory_eq hs rfl rfl rfl

theorem State.inv_raise (s : State) (vector : BitVec 3) (hs : s.Inv) :
    (s.raise vector).Inv :=
  State.inv_of_memory_eq hs rfl rfl rfl

theorem State.inv_securityEvent (s : State) (hs : s.Inv) :
    (s.securityEvent).Inv :=
  State.inv_of_memory_eq hs rfl rfl rfl

theorem State.inv_setG (s : State) (n : BitVec 5) (x : Word) (hs : s.Inv) :
    (s.setG n x).Inv := by
  unfold State.setG
  grind [State.inv_setCtx]

theorem State.inv_setC (s : State) (n : BitVec 4) (x : Cap) (hs : s.Inv) :
    (s.setC n x).Inv := by
  unfold State.setC
  grind [State.inv_setCtx]

theorem State.inv_setV (s : State) (n : BitVec 3) (x : BitVec 16384) (hs : s.Inv) :
    (s.setV n x).Inv := by
  unfold State.setV
  grind [State.inv_setCtx]

theorem State.inv_setM (s : State) (n : BitVec 2) (x : BitVec 2048) (hs : s.Inv) :
    (s.setM n x).Inv := by
  unfold State.setM
  grind [State.inv_setCtx]

theorem State.inv_setVW (s : State) (n : BitVec 2) (x : Word) (hs : s.Inv) :
    (s.setVW n x).Inv := by
  unfold State.setVW
  grind [State.inv_setCtx]

theorem State.inv_setSr (s : State) (x : SysRegs) (hs : s.Inv) :
    (s.setSr x).Inv := by
  unfold State.setSr
  grind [State.inv_setCtx]

theorem State.inv_setPc (s : State) (x : Word) (hs : s.Inv) :
    (s.setPc x).Inv := by
  unfold State.setPc
  grind [State.inv_setCtx]

theorem State.inv_setWinFile (s : State) (e : Nat) (x : BitVec 32) (hs : s.Inv) :
    (s.setWinFile e x).Inv := by
  unfold State.setWinFile
  grind [State.inv_setCore]

theorem State.inv_setLease (s : State) (n : Nat) (x : Lease) (hs : s.Inv) :
    (s.setLease n x).Inv := by
  unfold State.setLease
  grind [State.inv_writeHome]

/-! ### The Press -/

theorem State.inv_hwWord (s : State) (a : Nat) (x : Word) (hs : s.Inv) :
    (s.hwWord a x).Inv := by
  unfold State.hwWord
  grind [State.inv_writeBy]

theorem State.inv_setViews (s : State) (v : List Sector) (hs : s.Inv) :
    (s.setViews v).Inv :=
  State.inv_of_memory_eq hs rfl rfl rfl

theorem State.inv_dropViews (s : State) (p : Sector → Bool) (hs : s.Inv) :
    (s.dropViews p).Inv := by
  unfold State.dropViews
  grind [State.inv_setViews]

theorem State.inv_refreshHeld (s : State) (a : Agent) (pa : Nat) (hs : s.Inv) :
    (s.refreshHeld a pa).Inv := by
  unfold State.refreshHeld
  grind [State.inv_setViews]

theorem State.inv_putView (s : State) (x : Sector) (hs : s.Inv) :
    (s.putView x).Inv := by
  unfold State.putView
  grind [State.inv_setViews]

theorem State.inv_refreshView (s : State) (a : Agent) (va pa : Nat) (hs : s.Inv) :
    (s.refreshView a va pa).Inv := by
  unfold State.refreshView
  grind [State.inv_putView]

theorem State.inv_writeLine (s : State) (p : Piece) (hs : s.Inv) :
    (s.writeLine p).Inv := by
  unfold State.writeLine
  grind [State.inv_foldl, State.inv_setByte, State.inv_setPoison, State.inv_setTag]

theorem State.inv_noteDelivered (s : State) (agent : Agent) (a : Nat) (hs : s.Inv) :
    (s.noteDelivered agent a).Inv :=
  State.inv_of_memory_eq hs rfl rfl rfl

theorem State.inv_written (s : State) (agent : Agent) (run a : Nat) (nonAlloc : Bool) (hs : s.Inv) :
    (s.written agent run a nonAlloc).Inv := by
  unfold State.written
  grind [State.inv_noteDelivered, State.inv_refreshHeld, State.inv_touch]

theorem State.inv_performAtomic (s : State) (agent : Agent) (run : Nat) (a : Nat) (fn5 : BitVec 5) (wide : Bool)
    (operand cmp : Word) (hs : s.Inv) :
    (s.performAtomic agent run a fn5 wide operand cmp).2.Inv := by
  unfold State.performAtomic
  grind [State.inv_clearTags, State.inv_setBytes, State.inv_written]

theorem State.inv_performCounter (s : State) (agent : Agent) (run : Nat) (a : Nat) (inc : Word) (hs : s.Inv) :
    (s.performCounter agent run a inc).Inv := by
  unfold State.performCounter
  grind [State.inv_clearTags, State.inv_setBytes, State.inv_written]

theorem State.inv_startJob (s : State) (p : Piece) (hs : s.Inv) :
    (s.startJob p).Inv := by
  unfold State.startJob
  grind [State.inv_setBytes]

theorem State.inv_markForeign (s : State) (agent : Agent) (a : Nat) (hs : s.Inv) :
    (s.markForeign agent a).Inv := by
  unfold State.markForeign
  grind [State.inv_setCoreAt]

theorem State.inv_loseDeferred (s : State) (run : Nat) (hs : s.Inv) :
    (s.loseDeferred run).Inv := by
  unfold State.loseDeferred
  grind [State.inv_updRun]

theorem State.inv_deferSaved (s : State) (core slot : Nat) (sv : SavedCore) (d : Deferred) (hs : s.Inv) :
    (s.deferSaved core slot sv d).Inv := by
  unfold State.deferSaved
  grind [State.inv_loseDeferred, State.inv_setCoreAt, State.inv_writeHome]

theorem State.inv_defer (s : State) (a : Agent) (run : Nat) (eval : Word) (pc : BitVec 48) (hs : s.Inv) :
    (s.defer a run eval pc).Inv := by
  unfold State.defer
  grind [State.inv_deferSaved, State.inv_loseDeferred, State.inv_setCtxOf, State.inv_sweep]

theorem State.inv_failAtomic (s : State) (p : Piece) (dst : Option (BitVec 5)) (cause : BitVec 8) (hs : s.Inv) :
    (s.failAtomic p dst cause).Inv := by
  unfold State.failAtomic
  grind [State.inv_defer, State.inv_setCoreAt, State.inv_setCtxOf]

theorem State.inv_perform (s : State) (p : Piece) (hs : s.Inv) :
    (s.perform p).Inv := by
  unfold State.perform
  grind [State.inv_iff, State.inv_defer, State.inv_failAtomic, State.inv_markForeign, State.inv_performAtomic,
      State.inv_performCounter, State.inv_securityEvent, State.inv_setCtxOf, State.inv_setG, State.inv_startJob,
      State.inv_writeLine, State.inv_written]

theorem State.inv_propagate (s : State) (p : Propagation) (hs : s.Inv) :
    (s.propagate p).Inv := by
  unfold State.propagate
  grind [State.inv_defer, State.inv_securityEvent, State.inv_writeLine, State.inv_written]

theorem State.inv_setQueues (s : State) (q f : List Piece) (hs : s.Inv) :
    (s.setQueues q f).Inv :=
  State.inv_of_memory_eq hs rfl rfl rfl

theorem State.inv_sendItems (s : State) (fromDie dst : Nat) (xs : List LinkItem) (hs : s.Inv) :
    (s.sendItems fromDie dst xs).Inv := by
  rcases s.sendItems_eq fromDie dst xs with e | ⟨p, x, e⟩ <;> rw [e]
  · exact hs
  · exact State.inv_setLink s p x hs

theorem State.inv_route (s : State) (p : Piece) (hs : s.Inv) :
    (s.route p).Inv := by
  unfold State.route
  grind [State.inv_sendItems]

theorem State.inv_asks (s : State) (a : Agent) (r : Request) (place : Nat) (answers : List LinkBody) (hs : s.Inv) :
    (s.asks a r place answers).Inv := by
  unfold State.asks
  grind [State.inv_sendItems]

theorem State.inv_tells (s : State) (a : Agent) (core : Nat) (rs : List Request) (hs : s.Inv) :
    (s.tells a core rs).Inv := by
  unfold State.tells
  grind [State.inv_sendItems]

theorem State.inv_asksSector (s : State) (a : Agent) (pa : Nat) (hs : s.Inv) :
    (s.asksSector a pa).Inv := by
  unfold State.asksSector
  grind [State.inv_asks]

theorem State.inv_asksBytes (s : State) (a : Agent) (pa n : Nat) (hs : s.Inv) :
    (s.asksBytes a pa n).Inv := by
  unfold State.asksBytes
  grind [State.inv_asks]

theorem State.inv_drain (s : State) (p : Piece) (hs : s.Inv) :
    (s.drain p).Inv := by
  unfold State.drain
  grind [State.inv_route, State.inv_setQueues]

theorem State.inv_acknowledge (s : State) (p : Piece) (hs : s.Inv) :
    (s.acknowledge p).Inv := by
  unfold State.acknowledge
  grind [State.inv_sendItems]

theorem State.inv_deliver (s : State) (p : Piece) (hs : s.Inv) :
    (s.deliver p).Inv := by
  unfold State.deliver
  grind [State.inv_acknowledge, State.inv_perform, State.inv_setQueues]

theorem State.inv_drainWhere (s : State) (a : Agent) (w : Piece → Bool) (hs : s.Inv) :
    (s.drainWhere a w).Inv := by
  unfold State.drainWhere
  grind [State.inv_foldl, State.inv_drain]

theorem State.inv_deliverWhere (s : State) (a : Agent) (w : Piece → Bool) (hs : s.Inv) :
    (s.deliverWhere a w).Inv := by
  unfold State.deliverWhere
  grind [State.inv_foldl, State.inv_deliver]

theorem State.inv_flush (s : State) (a : Agent) (hs : s.Inv) :
    (s.flush a).Inv := by
  unfold State.flush
  grind [State.inv_iff, State.inv_foldl, State.inv_deliverWhere, State.inv_drainWhere, State.inv_propagate]

theorem State.inv_settle (s : State) (a : Agent) (place n : Nat) (hs : s.Inv) :
    (s.settle a place n).Inv := by
  unfold State.settle
  grind [State.inv_deliverWhere, State.inv_drainWhere]

theorem State.inv_storeNow (s : State) (p : Piece) (hs : s.Inv) :
    (s.storeNow p).Inv := by
  unfold State.storeNow
  grind [State.inv_perform, State.inv_settle]

theorem State.inv_readHome (s : State) (a : Agent) (pa n : Nat) (nonAlloc : Bool) (hs : s.Inv) :
    (s.readHome a pa n nonAlloc).2.Inv := by
  unfold State.readHome
  grind [State.inv_foldl, State.inv_refreshHeld, State.inv_settle, State.inv_touch]

/-! ### Translation -/

theorem State.inv_holdLeaf (s : State) (a : Agent) (e : Option TlbEntry) (hs : s.Inv) :
    (s.holdLeaf a e).Inv := by
  unfold State.holdLeaf
  grind [State.inv_setCoreAt, State.inv_setDie]

theorem State.inv_walked (s : State) (a : Agent) (va : Nat) (hs : s.Inv) :
    (s.walked a va).Inv := by
  unfold State.walked
  grind [State.inv_foldl, State.inv_touch]

theorem State.inv_translated (s : State) (a : Agent) (va : Nat) (e : Option TlbEntry) (hs : s.Inv) :
    (s.translated a va e).Inv := by
  unfold State.translated
  grind [State.inv_holdLeaf, State.inv_walked]

theorem State.inv_holdAts (s : State) (a : Agent) (va : Nat) (hs : s.Inv) :
    (s.holdAts a va).Inv := by
  unfold State.holdAts
  grind [State.inv_setCard]

theorem State.inv_requestPage (s : State) (die tenant va : Nat) (hs : s.Inv) :
    (s.requestPage die tenant va).2.Inv := by
  unfold State.requestPage
  grind [State.inv_iff]

theorem State.inv_awaitPage (s : State) (a : Agent) (va : Nat) (mig : Bool) (hs : s.Inv) :
    (s.awaitPage a va mig).2.Inv := by
  unfold State.awaitPage
  grind [State.inv_requestPage]

theorem State.inv_logError (s : State) (die : Nat) (event mem addr unit way : Nat) (synd : BitVec 32)
    (owner : BitVec 16) (hs : s.Inv) :
    (s.logError die event mem addr unit way synd owner).Inv := by
  unfold State.logError
  grind [State.inv_raise, State.inv_setDie]

theorem State.inv_tableError (s : State) (hs : s.Inv) :
    (s.tableError).Inv :=
  State.inv_of_memory_eq hs rfl rfl rfl

theorem State.inv_logAgain (s : State) (core : Nat) (e : SideEntry) (epoch : Nat) (hs : s.Inv) :
    (s.logAgain core e epoch).Inv := by
  unfold State.logAgain
  grind [State.inv_setCoreAt]

theorem State.inv_replayEntry (s : State) (core : Nat) (e : SideEntry) (hs : s.Inv) :
    (s.replayEntry core e).Inv := by
  unfold State.replayEntry
  grind [State.inv_defer, State.inv_logAgain, State.inv_requestPage, State.inv_storeNow, State.inv_tableError,
      State.inv_translated]

theorem State.inv_takeFrom (s : State) (core : Nat) (hit : SideEntry → Bool) (f : State → SideEntry → State)
    (hs : s.Inv) (hf : ∀ (s : State) (x : SideEntry), s.Inv → (f s x).Inv) :
    (s.takeFrom core hit f).Inv := by
  unfold State.takeFrom
  grind [State.inv_foldl, State.inv_setCoreAt]

theorem State.inv_replayOwn (s : State) (a : Agent) (va : Nat) (hs : s.Inv) :
    (s.replayOwn a va).Inv := by
  unfold State.replayOwn
  grind [State.inv_foldl, State.inv_replayEntry, State.inv_takeFrom]

theorem State.inv_dropLeaseCaches (s : State) (ls : List Nat) (hs : s.Inv) :
    (s.dropLeaseCaches ls).Inv :=
  State.inv_of_memory_eq hs rfl rfl rfl

theorem State.inv_tellRevoked (s : State) (n : Nat) (hs : s.Inv) :
    (s.tellRevoked n).Inv := by
  unfold State.tellRevoked
  grind [State.inv_foldl, State.inv_sendItems]

theorem State.inv_revoke (s : State) (n : Nat) (hs : s.Inv) :
    (s.revoke n).Inv := by
  unfold State.revoke
  grind [State.inv_putLease]

theorem State.inv_landCaps (s : State) (ls : List Nat) (hs : s.Inv) :
    (s.landCaps ls).Inv := by
  unfold State.landCaps
  grind [State.inv_foldl, State.inv_flush]

theorem State.inv_revokeAll (s : State) (ls : List Nat) (hs : s.Inv) :
    (s.revokeAll ls).Inv := by
  unfold State.revokeAll
  grind [State.inv_iff, State.inv_foldl, State.inv_dropLeaseCaches, State.inv_landCaps, State.inv_revoke,
      State.inv_tellRevoked]

theorem State.inv_dropUnwanted (s : State) (hs : s.Inv) :
    (s.dropUnwanted).Inv :=
  State.inv_of_memory_eq hs rfl rfl rfl

theorem State.inv_dropCore (s : State) (run k : Nat) (hs : s.Inv) :
    (s.dropCore run k).Inv := by
  unfold State.dropCore
  grind [State.inv_iff, State.inv_foldl, State.inv_setCoreAt, State.inv_setCtxOf]

theorem State.inv_finishStop (s : State) (run : Nat) (hs : s.Inv) :
    (s.finishStop run).Inv := by
  unfold State.finishStop
  grind [State.inv_iff, State.inv_foldl, State.inv_dropCore, State.inv_dropUnwanted, State.inv_revokeAll,
      State.inv_updRun]

theorem State.inv_stopAt (s : State) (run core : Nat) (hs : s.Inv) :
    (s.stopAt run core).Inv := by
  unfold State.stopAt
  grind [State.inv_dropCore, State.inv_finishStop]

theorem State.inv_stopRun (s : State) (run : Nat) (status : BitVec 4) (now : List Nat) (hs : s.Inv) :
    (s.stopRun run status now).Inv := by
  unfold State.stopRun
  grind [State.inv_foldl, State.inv_dropCore, State.inv_finishStop, State.inv_updRun]

theorem State.inv_endRunOf (s : State) (run core : Nat) (cause : BitVec 8) (epc : BitVec 48) (eval : Word)
    (hs : s.Inv) :
    (s.endRunOf run core cause epc eval).Inv := by
  unfold State.endRunOf
  grind [State.inv_stopRun, State.inv_updRun]

theorem State.inv_endRunAt (s : State) (core : Nat) (cause : BitVec 8) (epc : BitVec 48) (eval : Word) (hs : s.Inv) :
    (s.endRunAt core cause epc eval).Inv := by
  unfold State.endRunAt
  grind [State.inv_endRunOf]

theorem State.inv_endRunDouble (s : State) (core : Nat) (sr : SysRegs) (cause : BitVec 8) (epc : BitVec 48)
    (eval : Word) (hs : s.Inv) :
    (s.endRunDouble core sr cause epc eval).Inv := by
  unfold State.endRunDouble
  grind [State.inv_stopRun, State.inv_updRun]
end Sys2Proof.Machine
end

section
/-! The invariant: operands, flags, fetching, system registers and waits. -/

namespace Sys2Proof.Machine
set_option Elab.async false
open Std.Do
set_option mvcgen.warning false

/-! ### Operations of the machine -/

theorem keeps_trap {α : Type} (cause : BitVec 8) (eval : Word) : (trap cause eval : M α).Keeps := by
  mvcgen [trap]

theorem keeps_need (ok : Bool) (cause : BitVec 8) (eval : Word) :
    (need ok cause eval).Keeps := by
  mvcgen [need, keeps_trap]

theorem keeps_needOpen (ok : Bool) (cause : BitVec 8) :
    (needOpen ok cause).Keeps := by
  mvcgen [needOpen, keeps_need]

theorem State.inv_dropLines (s : State) (core : Nat) (p : FetchLine → Bool) (hs : s.Inv) :
    (s.dropLines core p).Inv := by
  unfold State.dropLines
  grind [State.inv_foldl, State.inv_logError, State.inv_setCoreAt]

theorem State.inv_meetLine (s : State) (va : Nat) (hs : s.Inv) :
    (s.meetLine va).Inv := by
  unfold State.meetLine
  grind [State.inv_logError, State.inv_setCore]

theorem State.inv_count (s : State) (core event n : Nat) (hs : s.Inv) :
    (s.count core event n).Inv := by
  unfold State.count
  grind [State.inv_setCoreAt]

theorem State.inv_refreshStall (s : State) (core pa : Nat) (hs : s.Inv) :
    (s.refreshStall core pa).Inv := by
  unfold State.refreshStall
  grind [State.inv_count]

theorem State.inv_heldBy (s : State) (w : Hold) (hs : s.Inv) : (s.heldBy w).Inv := by
  cases w <;> simp only [State.heldBy] <;> grind [State.inv_refreshStall, State.inv_count]

theorem State.inv_fetchLine (s : State) (la : Nat) (hs : s.Inv) (l : FetchLine) (t : State)
    (ht : s.fetchLine la = .line l t) : t.Inv := by
  unfold State.fetchLine at ht
  grind [State.inv_translated, State.inv_touch, State.inv_asksBytes, State.inv_setCore]

theorem State.inv_checkTarget (s : State) (x : Word) (tgt : Bool) (hs : s.Inv) (t : State)
    (ht : s.checkTarget x tgt = .ok t) : t.Inv := by
  unfold State.checkTarget at ht
  grind [State.inv_fetchLine]

theorem State.inv_readLease (s : State) (n : Nat) (hs : s.Inv) :
    (s.readLease n).Inv := by
  unfold State.readLease
  grind [State.inv_touch]

theorem State.inv_noted (s : State) (n : Note) (hs : s.Inv) : (s.noted n).Inv := by
  cases n <;> simp only [State.noted] <;>
    grind [State.inv_walked, State.inv_tableError, State.inv_securityEvent, State.inv_fetchLine, State.inv_meetLine,
        State.inv_readLease]

theorem keeps_checkTargetM (t : Word) (tgt : Bool) :
    (checkTargetM t tgt).Keeps := by
  mvcgen [checkTargetM] with grind [State.inv_checkTarget]

theorem keeps_transfer (t : Word) :
    (transfer t).Keeps := by
  mvcgen [transfer, keeps_checkTargetM]

theorem State.inv_cacheLease (s : State) (n : Nat) (hs : s.Inv) :
    (s.cacheLease n).Inv := by
  unfold State.cacheLease
  grind [State.inv_readLease, State.inv_setCore]

theorem keeps_capCheck (c : Cap) (k : Kind) (i0 i1 : Int) :
    (capCheck c k i0 i1).Keeps := by
  mvcgen [capCheck, keeps_need] with grind [State.inv_cacheLease]

theorem keeps_elemAddr (c : Cap) (i0 i1 : Int) :
    (elemAddr c i0 i1).Keeps := by
  mvcgen [elemAddr, keeps_trap]

theorem State.inv_logItem (s : State) (core : Nat) (x : LogItem) (hs : s.Inv) :
    (s.logItem core x).Inv := by
  unfold State.logItem
  grind [State.inv_count, State.inv_setCoreAt, State.inv_writeBy]

theorem State.inv_noteRead (s : State) (pa : Nat) (hs : s.Inv) :
    (s.noteRead pa).Inv := by
  unfold State.noteRead
  grind [State.inv_setCoreAt]

theorem State.inv_logWake (s : State) (a : Agent) (hs : s.Inv) :
    (s.logWake a).Inv := by
  unfold State.logWake
  grind [State.inv_logItem]

theorem State.inv_logAnswer (s : State) (a : Agent) (hs : s.Inv) :
    (s.logAnswer a).Inv := by
  unfold State.logAnswer
  grind [State.inv_logItem]

theorem keeps_refreshWait (pa : Nat) :
    (refreshWait pa).Keeps := by
  mvcgen [refreshWait]

theorem State.inv_reach (s : State) (va : Nat) (e : Option TlbEntry) (hs : s.Inv) :
    (s.reach va e).Inv := by
  unfold State.reach
  grind [State.inv_holdAts, State.inv_replayOwn, State.inv_translated]

theorem keeps_pathOk (va pa : Nat) (want : Wants) :
    (pathOk va pa want).Keeps := by
  mvcgen [pathOk]

theorem keeps_xl (va : Nat) (acc : Access) :
    (xl va acc).Keeps := by
  mvcgen [xl, keeps_pathOk] with grind [State.inv_noteRead, State.inv_reach]

theorem State.inv_missed (s : State) (pa : Nat) (hs : s.Inv) :
    (s.missed pa).Inv := by
  unfold State.missed
  grind [State.inv_asksSector, State.inv_count]

theorem State.inv_readPast (s : State) (va pa n ord : Nat) (hs : s.Inv) :
    (s.readPast va pa n ord).2.Inv := by
  unfold State.readPast
  grind [State.inv_asksBytes, State.inv_missed, State.inv_refreshHeld, State.inv_refreshView, State.inv_settle,
      State.inv_touch]

theorem State.inv_readAt (s : State) (va pa n ord : Nat) (hs : s.Inv) :
    (s.readAt va pa n ord).2.Inv := by
  unfold State.readAt
  grind [State.inv_readPast]

theorem keeps_loadAt (va pa n : Nat) (ord : Nat) :
    (loadAt va pa n ord).Keeps := by
  mvcgen [loadAt, keeps_refreshWait] with grind [State.inv_readAt]

theorem keeps_loadAny (va n : Nat) :
    (loadAny va n).Keeps := by
  mvcgen [loadAny, keeps_refreshWait, keeps_xl] with grind [State.inv_readAt]

theorem keeps_load (va n ord : Nat) :
    (load va n ord).Keeps := by
  mvcgen [load, keeps_loadAt, keeps_xl]

theorem keeps_storeTo_logIt (va : Nat) (mig : Bool) : (storeTo.logIt va mig).Keeps := by
  mvcgen [storeTo.logIt] with grind [State.inv_awaitPage, State.inv_walked]

theorem keeps_storeTo (va : Nat) (acc : Access) : (storeTo va acc).Keeps := by
  mvcgen [storeTo, keeps_storeTo_logIt] with grind [State.inv_reach]

theorem keeps_sideRoom (k : Nat) :
    (sideRoom k).Keeps := by
  mvcgen [sideRoom]

theorem keeps_logEntry (op : LogOp) (va : Nat) (d m : BitVec 512) (tags : BitVec 2) (c : Cap) (ord epoch : Nat) :
    (logEntry op va d m tags c ord epoch).Keeps := by
  mvcgen [logEntry]

theorem keeps_enqueue (op : PressOp) (va pa : Nat) (d m : BitVec 512) (tags : BitVec 2) (rpl : Bool) (ord : Nat) :
    (enqueue op va pa d m tags rpl ord).Keeps := by
  mvcgen [enqueue] with grind [State.inv_setQueues, State.inv_settle]

theorem keeps_storeBits (va : Nat) (d m : BitVec 512) (tags : BitVec 2) (c : Cap) (ord : Nat) :
    (storeBits va d m tags c ord).Keeps := by
  mvcgen [storeBits, keeps_enqueue, keeps_logEntry, keeps_sideRoom, keeps_storeTo, keeps_storeTo_logIt]

theorem keeps_storeBytes (va : Nat) (bs : List Byte) (ord : Nat) :
    (storeBytes va bs ord).Keeps := by
  mvcgen [storeBytes, keeps_storeBits]

theorem keeps_stcTag (v : Cap) (dst : Cap) (va : Nat) :
    (stcTag v dst va).Keeps := by
  mvcgen [stcTag, keeps_trap]

theorem keeps_storeCap (va : Nat) (v : Cap) (tag : Bool) (ord : Nat) :
    (storeCap va v tag ord).Keeps := by
  mvcgen [storeCap, keeps_storeBits]

theorem keeps_loadCap (va ord : Nat) :
    (loadCap va ord).Keeps := by
  mvcgen [loadCap, keeps_load]

theorem State.inv_atomicReady (s : State) (a : Agent) (pa n : Nat) (hs : s.Inv) :
    (s.atomicReady a pa n).Inv := by
  unfold State.atomicReady
  grind [State.inv_deliverWhere, State.inv_settle]

theorem keeps_atomicAt (va pa : Nat) (fn5 : BitVec 5) (wide : Bool) (operand cmp : Word) :
    (atomicAt va pa fn5 wide operand cmp).Keeps := by
  mvcgen [atomicAt] with grind [State.inv_atomicReady, State.inv_performAtomic]

theorem keeps_atomicSend (op : PressOp) (va pa n : Nat) :
    (atomicSend op va pa n).Keeps := by
  mvcgen [atomicSend] with grind [State.inv_route, State.inv_setQueues, State.inv_settle]

theorem State.inv_dropPorts (s : State) (a : Agent) (scope : Nat) (hs : s.Inv) :
    (s.dropPorts a scope).Inv := by
  unfold State.dropPorts
  grind [State.inv_iff, State.inv_dropViews]

theorem keeps_takeDeferred :
    (takeDeferred).Keeps := by
  mvcgen [takeDeferred]

theorem keeps_release (scope : Nat) :
    (release scope).Keeps := by
  mvcgen [release, keeps_takeDeferred] with grind [State.inv_dropPorts, State.inv_flush]

theorem keeps_standing {α : Type} (x : M α) (hx : x.Keeps) : (standing x).Keeps := by
  refine M.keeps_iff.2 fun s hs => ?_
  have h := M.keeps_iff.1 hx s hs
  unfold standing
  grind [State.inv_noted]

theorem State.inv_acquire (s : State) (ctr : Nat) (hs : s.Inv) :
    (s.acquire ctr).Inv := by
  unfold State.acquire
  grind [State.inv_dropViews]

theorem State.inv_acquireAll (s : State) (hs : s.Inv) :
    (s.acquireAll).Inv := by
  unfold State.acquireAll
  grind [State.inv_dropViews]

theorem State.inv_coreStore (s : State) (core run : Nat) (a : Agent) (va : Nat) (x : BitVec 512 × BitVec 512)
    (hs : s.Inv) :
    (s.coreStore core run a va x).Inv := by
  unfold State.coreStore
  grind [State.inv_defer, State.inv_logAgain, State.inv_requestPage, State.inv_setQueues, State.inv_storeNow,
      State.inv_tableError, State.inv_translated]

theorem State.inv_writeImageG (s : State) (core : Nat) (p : Parked) (x : Word) (hs : s.Inv) :
    (s.writeImageG core p x).Inv := by
  unfold State.writeImageG
  grind [State.inv_coreStore]

theorem State.inv_writeState (s : State) (core run : Nat) (a : Agent) (rec : Nat) (x : BitVec 4) (hs : s.Inv) :
    (s.writeState core run a rec x).Inv := by
  unfold State.writeState
  grind [State.inv_coreStore]

theorem State.inv_writeThresh (s : State) (core run : Nat) (a : Agent) (rec : Nat) (x : Word) (hs : s.Inv) :
    (s.writeThresh core run a rec x).Inv := by
  unfold State.writeThresh
  grind [State.inv_coreStore]

theorem State.inv_checkArrival (s : State) (core : Nat) (hs : s.Inv) :
    (s.checkArrival core).Inv := by
  unfold State.checkArrival
  grind [State.inv_setCoreAt]

theorem State.inv_makeReady (s : State) (core : Nat) (p : Parked) (hs : s.Inv) :
    (s.makeReady core p).Inv := by
  unfold State.makeReady
  grind [State.inv_checkArrival, State.inv_setCoreAt, State.inv_setDie, State.inv_writeState]

theorem State.inv_wakeBarrier (s : State) (core n : Nat) (status : Word) (hs : s.Inv) :
    (s.wakeBarrier core n status).Inv := by
  unfold State.wakeBarrier
  grind [State.inv_foldl, State.inv_logWake, State.inv_makeReady, State.inv_setCtxOf, State.inv_setG,
      State.inv_writeImageG]

theorem State.inv_completeBarrier (s : State) (core n : Nat) (code : BitVec 8) (hs : s.Inv) :
    (s.completeBarrier core n code).Inv := by
  unfold State.completeBarrier
  grind [State.inv_setCoreAt, State.inv_wakeBarrier]

theorem State.inv_arrive (s : State) (core n : Nat) (k : Nat) (hs : s.Inv) :
    (s.arrive core n k).Inv := by
  unfold State.arrive
  grind [State.inv_completeBarrier, State.inv_setCoreAt]

theorem State.inv_handBlock (s : State) (core e : Nat) (hs : s.Inv) :
    (s.handBlock core e).Inv := by
  unfold State.handBlock
  grind [State.inv_setC, State.inv_setCtxOf]

theorem State.inv_commandDone (s : State) (cell : Nat) (hs : s.Inv) :
    (s.commandDone cell).Inv := by
  unfold State.commandDone
  grind [State.inv_handBlock, State.inv_setCoreAt]

theorem State.inv_endCommand (s : State) (core e : Nat) (done bytes : Nat) (cause : BitVec 8) (eval : Word)
    (head : Bool) (hs : s.Inv) :
    (s.endCommand core e done bytes cause eval head).Inv := by
  unfold State.endCommand
  grind [State.inv_arrive, State.inv_clearTags, State.inv_completeBarrier, State.inv_flush,
      State.inv_performCounter, State.inv_setCoreAt, State.inv_setCtxOf, State.inv_writeBy]

theorem State.inv_engineTrap (s : State) (cause : BitVec 8) (eval : Word) (hs : s.Inv) :
    (s.engineTrap cause eval).Inv := by
  unfold State.engineTrap
  grind [State.inv_endCommand, State.inv_endRunAt, State.inv_endRunOf, State.inv_handBlock, State.inv_setCtx]

theorem State.inv_traceWrite (s : State) (die : Nat) (word0 a b : Word) (hs : s.Inv) :
    (s.traceWrite die word0 a b).Inv := by
  unfold State.traceWrite
  grind [State.inv_setDie, State.inv_writeBy]

theorem State.inv_trace (s : State) (core slot kind : Nat) (a b : Word) (hs : s.Inv) :
    (s.trace core slot kind a b).Inv := by
  unfold State.trace
  grind [State.inv_traceWrite]

theorem State.inv_parkOn (s : State) (va : Nat) (mig entry : Bool) (hs : s.Inv) :
    (s.parkOn va mig entry).Inv := by
  unfold State.parkOn
  grind [State.inv_awaitPage, State.inv_setCtx, State.inv_walked]

theorem State.inv_enterHandler (s : State) (cause : BitVec 8) (eval : Word) (spc : BitVec 48) (hs : s.Inv) :
    (s.enterHandler cause eval spc).Inv := by
  unfold State.enterHandler
  grind [State.inv_setCtx, State.inv_trace]

theorem State.inv_keepDeferred (s : State) (cause : BitVec 8) (eval : Word) (spc : BitVec 48) (hs : s.Inv) :
    (s.keepDeferred cause eval spc).Inv := by
  unfold State.keepDeferred
  grind [State.inv_setCtx]

theorem State.inv_takeTrap (s : State) (cause : BitVec 8) (eval : Word) (spc : BitVec 48) (hs : s.Inv) :
    (s.takeTrap cause eval spc).Inv := by
  unfold State.takeTrap
  grind [State.inv_checkTarget, State.inv_endRunAt, State.inv_endRunDouble, State.inv_engineTrap,
      State.inv_enterHandler, State.inv_heldBy, State.inv_keepDeferred, State.inv_noted, State.inv_parkOn]

theorem State.inv_leaveHandler (s : State) (hs : s.Inv) :
    (s.leaveHandler).Inv := by
  unfold State.leaveHandler
  grind [State.inv_setCtx]

theorem State.inv_afterStop (old s : State) (x : Stop) (ho : old.Inv) (hs : s.Inv) : (old.afterStop s x).Inv := by
  cases x <;> simp only [State.afterStop] <;>
    grind [State.inv_noted, State.inv_takeTrap, State.inv_heldBy, State.inv_parkOn, State.inv_endRunAt]

theorem keeps_runInstr (i : Instr) (body : M (Option Word)) (s : State) (hs : s.Inv) (hb : body.Keeps) :
    Outcome.Keeps (runInstr i body s) := by
  have h := M.keeps_iff.1 hb s hs
  unfold runInstr
  grind [Outcome.keeps_next, State.inv_takeTrap, State.inv_setPc, State.inv_afterStop]

theorem M.keeps_step1 (f : State → State) (hf : ∀ s, s.Inv → (f s).Inv) : (step1 f).Keeps :=
  M.keeps_iff.2 fun s hs => hf s hs

theorem State.inv_suspend (s : State) (r : Reason) (key thresh : Word) (dst : BitVec 5) (limit : Option Nat)
    (hs : s.Inv) :
    (s.suspend r key thresh dst limit).Inv := by
  unfold State.suspend
  grind [State.inv_setCtx]

/-! ### Flags -/

theorem State.inv_setFlags (s : State) (f : Flags) (hs : s.Inv) :
    (s.setFlags f).Inv := by
  unfold State.setFlags
  grind [State.inv_setSr]

theorem keeps_modeOf (rnd : Nat) (p0 : Word) :
    (modeOf rnd p0).Keeps := by
  mvcgen [modeOf, keeps_trap]

/-! ### Operands -/

theorem keeps_winEven (n : Int) :
    (winEven n).Keeps := by
  mvcgen [winEven, keeps_need]

theorem keeps_winIn (n : Int) :
    (winIn n).Keeps := by
  mvcgen [winIn, keeps_need]

theorem keeps_winCheck (n : Int) (wide : Bool) :
    (winCheck n wide).Keeps := by
  mvcgen [winCheck, keeps_winIn]

theorem State.inv_setWin (s : State) (n : Int) (x : BitVec 32) (hs : s.Inv) :
    (s.setWin n x).Inv := by
  unfold State.setWin
  grind [State.inv_setWinFile]

theorem State.inv_setWinBits (s : State) (n : Int) (wide : Bool) (x : Nat) (hs : s.Inv) :
    (s.setWinBits n wide x).Inv := by
  unfold State.setWinBits
  grind [State.inv_setWin]

theorem keeps_accCheck (c : Cap) (k : Kind) (ok : Bool) (n : Nat) (i0 i1 : Int) :
    (accCheck c k ok n i0 i1).Keeps := by
  mvcgen [accCheck, keeps_capCheck, keeps_elemAddr, keeps_need]

theorem keeps_loadBpi (p a : Nat) (lin : Int) (ord : Nat) :
    (loadBpi p a lin ord).Keeps := by
  mvcgen [loadBpi, keeps_load, M.keeps_mapM]

theorem keeps_loadElem (c : Cap) (n : Nat) (ord : Nat) (i0 i1 : Int) (a : Nat) :
    (loadElem c n ord i0 i1 a).Keeps := by
  mvcgen [loadElem, keeps_load, keeps_loadBpi]

theorem keeps_storeElem (c : Cap) (n : Nat) (ord : Nat) (i0 i1 : Int) (a : Nat) (x : Nat) :
    (storeElem c n ord i0 i1 a x).Keeps := by
  mvcgen [storeElem, keeps_storeBits, keeps_storeBytes]

theorem keeps_checkTile (ty : Nat) :
    (checkTile ty).Keeps := by
  mvcgen [checkTile, keeps_need]

theorem keeps_checkBlocks (ty n : Nat) :
    (checkBlocks ty n).Keeps := by
  mvcgen [checkBlocks, keeps_need]

/-! ### Fetch -/

theorem State.inv_take (s : State) (a : Agent) (hs : s.Inv) :
    (s.take a).Inv := by
  unfold State.take
  grind [State.inv_iff, State.inv_count, State.inv_logItem, State.inv_setCoreAt, State.inv_setCtx]

/-! ### System registers -/

theorem State.inv_settleLocal (s : State) (off n : Nat) (hs : s.Inv) :
    (s.settleLocal off n).Inv := by
  unfold State.settleLocal
  grind [State.inv_settle]

theorem keeps_writePlansel (v : Word) :
    (writePlansel v).Keeps := by
  mvcgen [writePlansel, keeps_need, keeps_trap] with grind [State.inv_count, State.inv_setCore, State.inv_settleLocal]

theorem keeps_writeRxcfg (n : Nat) (v : Word) :
    (writeRxcfg n v).Keeps := by
  mvcgen [writeRxcfg, keeps_need]

theorem State.inv_applyPairIn (s : State) (k : KeyBins) (src dst : Nat) (key value : Word) (hs : s.Inv) :
    (s.applyPairIn k src dst key value).Inv := by
  unfold State.applyPairIn
  grind [State.inv_clearTags, State.inv_count, State.inv_markForeign, State.inv_setBytes]

theorem State.inv_pairArrives (s : State) (k : KeyBins) (src dst : Nat) (key value : Word) (hs : s.Inv) :
    (s.pairArrives k src dst key value).Inv := by
  unfold State.pairArrives
  split
  · exact State.inv_securityEvent s hs
  · exact State.inv_applyPairIn s k src dst key value hs

theorem State.inv_applyPair (s : State) (src dst : Nat) (key value : Word) (hs : s.Inv) :
    (s.applyPair src dst key value).Inv := by
  unfold State.applyPair
  grind [State.inv_pairArrives]

theorem State.inv_applyPairs (s : State) (xs : List Exchange) (hs : s.Inv) : (s.applyPairs xs).Inv := by
  induction xs generalizing s with
  | nil => exact hs
  | cons x rest ih => cases x <;> simp only [State.applyPairs] <;> grind [State.inv_applyPair]

theorem State.inv_landPairs (s : State) (core : Nat) (hs : s.Inv) :
    (s.landPairs core).Inv := by
  unfold State.landPairs
  grind [State.inv_iff, State.inv_applyPairs]

theorem keeps_writeKbin (v : Word) :
    (writeKbin v).Keeps := by
  mvcgen [writeKbin, keeps_need] with grind [State.inv_landPairs, State.inv_setCore]

theorem keeps_writeWalloc (v : Word) :
    (writeWalloc v).Keeps := by
  mvcgen [writeWalloc, keeps_need]

theorem keeps_writeVshape (v : Word) :
    (writeVshape v).Keeps := by
  mvcgen [writeVshape, keeps_need]

theorem keeps_writePmctl (v : Word) :
    (writePmctl v).Keeps := by
  mvcgen [writePmctl, keeps_need] with grind [State.inv_setCore]

theorem keeps_writePmc (n : Nat) (v : Word) :
    (writePmc n v).Keeps := by
  mvcgen [writePmc] with grind [State.inv_setCore]

theorem keeps_sysPut (n : Nat) (v : Word) :
    (sysPut n v).Keeps := by
  mvcgen [sysPut, keeps_need, keeps_writeKbin, keeps_writePlansel, keeps_writePmc, keeps_writePmctl,
      keeps_writeRxcfg, keeps_writeVshape, keeps_writeWalloc]

theorem keeps_sysWrite (n : Nat) (v : Word) :
    (sysWrite n v).Keeps := by
  mvcgen [sysWrite, keeps_need, keeps_sysPut, keeps_trap]

/-! ### Waits at counters -/

theorem State.inv_wakeAgent (s : State) (a : Agent) (why : Reason) (hs : s.Inv) :
    (s.wakeAgent a why).Inv := by
  unfold State.wakeAgent
  grind [State.inv_setCtxOf]

theorem State.inv_wakeRecord (s : State) (core : Nat) (addr : BitVec 48) (hs : s.Inv) :
    (s.wakeRecord core addr).Inv := by
  unfold State.wakeRecord
  grind [State.inv_makeReady]

theorem State.inv_wakeWaiter (s : State) (w : Waiter) (hs : s.Inv) : (s.wakeWaiter w).Inv := by
  cases w <;> simp only [State.wakeWaiter] <;> grind [State.inv_wakeAgent, State.inv_wakeRecord]

theorem State.inv_tellWake (s : State) (w : Watch) (hs : s.Inv) :
    (s.tellWake w).Inv := by
  unfold State.tellWake
  grind [State.inv_sendItems]

theorem State.inv_wakeWatches (s : State) (p : Watch → Bool) (hs : s.Inv) :
    (s.wakeWatches p).Inv := by
  unfold State.wakeWatches
  grind [State.inv_iff, State.inv_foldl, State.inv_tellWake, State.inv_wakeWaiter]

theorem State.inv_addWatch (s : State) (w : Watch) (hs : s.Inv) :
    (s.addWatch w).Inv := by
  unfold State.addWatch
  grind [State.inv_iff]
end Sys2Proof.Machine
end

section
/-! The invariant: synchronization, messages and records. -/

namespace Sys2Proof.Machine
set_option Elab.async false
open Std.Do
set_option mvcgen.warning false

/-! ### Counters and barriers -/

theorem keeps_counterAddr (f : QFields) (k : Kind) :
    (counterAddr f k).Keeps := by
  mvcgen [counterAddr, keeps_capCheck, keeps_elemAddr, keeps_need]

theorem keeps_scopeCheck (f : QFields) (va pa : Nat) :
    (scopeCheck f va pa).Keeps := by
  mvcgen [scopeCheck, keeps_need]

theorem keeps_readCounter (f : QFields) :
    (readCounter f).Keeps := by
  mvcgen [readCounter, keeps_counterAddr, keeps_need, keeps_scopeCheck, keeps_trap,
      keeps_xl] with grind [State.inv_asksBytes, State.inv_atomicReady, State.inv_refreshHeld, State.inv_touch]

theorem State.inv_acquireIf (s : State) (on : Bool) (va : Nat) (hs : s.Inv) :
    (s.acquireIf on va).Inv := by
  unfold State.acquireIf
  grind [State.inv_acquire]

theorem keeps_execCtadd (f : QFields) (s : State) (hs : s.Inv) :
    Outcome.Keeps (execCtadd f s) := by
  refine keeps_runInstr _ _ s hs ?_
  mvcgen [keeps_atomicSend, keeps_counterAddr, keeps_logEntry, keeps_need, keeps_pathOk, keeps_release,
      keeps_scopeCheck, keeps_sideRoom, keeps_storeTo, keeps_storeTo_logIt] with grind [State.inv_commandDone]

theorem keeps_waitCounter (pa : Nat) (thresh : Word) :
    (waitCounter pa thresh).Keeps := by
  mvcgen [waitCounter] with grind [State.inv_addWatch, State.inv_asks, State.inv_count, State.inv_suspend]

theorem keeps_execCtwait (f : QFields) (s : State) (hs : s.Inv) :
    Outcome.Keeps (execCtwait f s) := by
  refine keeps_runInstr _ _ s hs ?_
  mvcgen [keeps_readCounter, keeps_waitCounter, step1] with grind [State.inv_acquireIf]

theorem keeps_execCtread (f : QFields) (s : State) (hs : s.Inv) :
    Outcome.Keeps (execCtread f s) := by
  refine keeps_runInstr _ _ s hs ?_
  mvcgen [keeps_readCounter, step1] with grind [State.inv_acquireIf, State.inv_setG]

theorem keeps_execCttry (f : QFields) (s : State) (hs : s.Inv) :
    Outcome.Keeps (execCttry f s) := by
  refine keeps_runInstr _ _ s hs ?_
  refine (keeps_readCounter f).bind fun r => ?_
  split
  · exact M.keeps_step1 _ fun s hs => State.inv_setG _ _ _ (State.inv_acquireIf _ _ _ hs)
  · exact M.keeps_step1 _ fun s hs => State.inv_setG _ _ _ hs

theorem keeps_execSbind (f : QFields) (s : State) (hs : s.Inv) :
    Outcome.Keeps (execSbind f s) := by
  refine keeps_runInstr _ _ s hs ?_
  mvcgen [keeps_capCheck, step1]

theorem keeps_execSunbind (f : QFields) (s : State) (hs : s.Inv) :
    Outcome.Keeps (execSunbind f s) := by
  refine keeps_runInstr _ _ s hs ?_
  mvcgen [step1]

theorem keeps_barrierSlot (f : QFields) :
    (barrierSlot f).Keeps := by
  mvcgen [barrierSlot, keeps_needOpen]

theorem keeps_execBinit (f : QFields) (s : State) (hs : s.Inv) :
    Outcome.Keeps (execBinit f s) := by
  refine keeps_runInstr _ _ s hs ?_
  mvcgen [keeps_barrierSlot, step1] with grind [State.inv_completeBarrier, State.inv_setCore, State.inv_setG]

theorem keeps_execBarrive (f : QFields) (s : State) (hs : s.Inv) :
    Outcome.Keeps (execBarrive f s) := by
  refine keeps_runInstr _ _ s hs ?_
  mvcgen [keeps_barrierSlot, keeps_release, step1] with grind [State.inv_arrive, State.inv_setG]

theorem keeps_barrierWait (f : QFields) (n : Nat) (gen : BitVec 8) :
    (barrierWait f n gen).Keeps := by
  refine M.keeps_step1 _ fun s hs => ?_
  split
  · exact State.inv_setG _ _ _ hs
  · exact State.inv_suspend _ _ _ _ _ _ hs

theorem keeps_execBwait (f : QFields) (s : State) (hs : s.Inv) :
    Outcome.Keeps (execBwait f s) := by
  refine keeps_runInstr _ _ s hs ?_
  mvcgen [keeps_barrierSlot, keeps_barrierWait]

theorem keeps_execBarwait (f : QFields) (s : State) (hs : s.Inv) :
    Outcome.Keeps (execBarwait f s) := by
  refine keeps_runInstr _ _ s hs ?_
  mvcgen [keeps_barrierSlot, keeps_barrierWait, keeps_release] with grind [State.inv_arrive]

theorem keeps_execFence (mode : BitVec 2) (s : State) (hs : s.Inv) :
    Outcome.Keeps (execFence mode s) := by
  refine keeps_runInstr _ _ s hs ?_
  mvcgen [keeps_release, keeps_takeDeferred, step1] with grind [State.inv_acquireAll]

/-! ### Messages -/

theorem State.inv_tailMoved (s : State) (core n : Nat) (hs : s.Inv) :
    (s.tailMoved core n).Inv := by
  unfold State.tailMoved
  grind [State.inv_foldl, State.inv_makeReady, State.inv_setCtxOf]

theorem State.inv_deliverTo (s : State) (run : Nat) (scid : BitVec 16) (score : Nat) (m : Message) (hs : s.Inv) :
    (s.deliverTo run scid score m).2.Inv := by
  unfold State.deliverTo
  grind [State.inv_foldl, State.inv_markForeign, State.inv_setCoreAt, State.inv_setPoison, State.inv_tailMoved,
      State.inv_take, State.inv_writeHome]

theorem State.inv_messageStatus (s : State) (a : Agent) (m : Message) (hs : s.Inv) :
    (s.messageStatus a m).2.Inv := by
  unfold State.messageStatus
  grind [State.inv_deliverTo, State.inv_securityEvent]

theorem State.inv_deliverMessage (s : State) (a : Agent) (hs : s.Inv) :
    (s.deliverMessage a).Inv := by
  unfold State.deliverMessage
  grind [State.inv_logAnswer, State.inv_messageStatus, State.inv_sendItems, State.inv_setCtxOf, State.inv_setG]

theorem keeps_execMessageDelivery (a : Agent) (s : State) (hs : s.Inv) :
    Outcome.Keeps (execMessageDelivery a s) := by
  unfold execMessageDelivery
  grind [State.inv_deliverMessage, Outcome.keeps_next]

theorem keeps_sendLength (f : QFields) :
    (sendLength f).Keeps := by
  mvcgen [sendLength, keeps_need]

theorem keeps_execSend (f : QFields) (s : State) (hs : s.Inv) :
    Outcome.Keeps (execSend f s) := by
  refine keeps_runInstr _ _ s hs ?_
  mvcgen [keeps_capCheck, keeps_elemAddr, keeps_loadAny, keeps_need, keeps_needOpen, keeps_sendLength, M.keeps_mapM,
      step1] with grind [State.inv_setCtx, State.inv_suspend, State.inv_tells]

theorem keeps_ringCheck (n : Nat) :
    (ringCheck n).Keeps := by
  mvcgen [ringCheck, keeps_needOpen]

theorem keeps_execRecv (f : QFields) (s : State) (hs : s.Inv) :
    Outcome.Keeps (execRecv f s) := by
  refine keeps_runInstr _ _ s hs ?_
  mvcgen [keeps_ringCheck, step1]

theorem keeps_execRecvt (f : QFields) (s : State) (hs : s.Inv) :
    Outcome.Keeps (execRecvt f s) := by
  refine keeps_runInstr _ _ s hs ?_
  mvcgen [keeps_ringCheck, step1]

theorem State.inv_recvtOver (s : State) (core rec : Nat) (hs : s.Inv) :
    (s.recvtOver core rec).Inv := by
  unfold State.recvtOver
  grind [State.inv_makeReady, State.inv_setCtxOf]

theorem keeps_execRecvtTimeout (a : Agent) (s : State) (hs : s.Inv) :
    Outcome.Keeps (execRecvtTimeout a s) := by
  unfold execRecvtTimeout
  grind [State.inv_logAnswer, State.inv_recvtOver, State.inv_setCtxOf, State.inv_setG, Outcome.keeps_next]

theorem keeps_execRadv (f : QFields) (s : State) (hs : s.Inv) :
    Outcome.Keeps (execRadv f s) := by
  refine keeps_runInstr _ _ s hs ?_
  mvcgen [keeps_needOpen, keeps_ringCheck, step1]

theorem keeps_execKsend (f : QFields) (s : State) (hs : s.Inv) :
    Outcome.Keeps (execKsend f s) := by
  refine keeps_runInstr _ _ s hs ?_
  mvcgen [keeps_need, keeps_trap, step1] with grind [State.inv_iff, State.inv_tells]

theorem keeps_execKeyPairApply (k : Nat) (s : State) (hs : s.Inv) :
    Outcome.Keeps (execKeyPairApply k s) := by
  unfold execKeyPairApply
  grind [State.inv_iff, State.inv_applyPair, Outcome.keeps_next]

theorem keeps_execEcmd (f : QFields) (s : State) (hs : s.Inv) :
    Outcome.Keeps (execEcmd f s) := by
  refine keeps_runInstr _ _ s hs ?_
  mvcgen [keeps_capCheck, keeps_elemAddr, keeps_need, keeps_release, step1] with grind [State.inv_handBlock,
      State.inv_performCounter, State.inv_setCore, State.inv_setG]

theorem keeps_execEwait (f : QFields) (s : State) (hs : s.Inv) :
    Outcome.Keeps (execEwait f s) := by
  refine keeps_runInstr _ _ s hs ?_
  mvcgen [keeps_waitCounter, step1] with grind [State.inv_acquireAll, State.inv_setG]

/-! ### Records -/

theorem State.inv_asAgent (s : State) (a : Agent) (f : State → State) (hs : s.Inv) (hf : ∀ (s : State), s.Inv →
    (f s).Inv) :
    (s.asAgent a f).Inv := by
  unfold State.asAgent
  grind [State.inv_iff]

theorem inv_putGranules (a : Agent) (r : Run) (xs : List (List Byte × Bool)) (va : Nat) (s : State) (hs : s.Inv)
    (t : State)
    (ht : putGranules a r xs va s = some t) : t.Inv := by
  induction xs generalizing va s with
  | nil => cases ht; exact hs
  | cons x rest ih =>
    unfold putGranules at ht
    split at ht
    · cases ht
    · exact ih _ _ (State.inv_storeNow _ _ (State.inv_replayOwn _ _ _ hs)) ht

theorem State.inv_getGranules (s : State) (a : Agent) (r : Run) (n va : Nat) (hs : s.Inv) (bs : List Byte)
    (tags : List Bool)
    (t : State) (ht : s.getGranules a r n va = some (bs, tags, t)) : t.Inv := by
  unfold State.getGranules at ht
  obtain ⟨ps, -, e⟩ := Option.map_eq_some_iff.1 ht
  cases e
  exact State.inv_foldl _ (fun s pa h => State.inv_touch s pa _ _ h) _ _ hs

theorem State.inv_badTables (s : State) (a : Agent) (r : Run) (n va : Nat) (acc : Access) (hs : s.Inv) :
    (s.badTables a r n va acc).Inv := by
  unfold State.badTables
  grind [State.inv_tableError]

theorem State.inv_setSlotWindow (s : State) (core slot : Nat) (xs : List (BitVec 32)) (hs : s.Inv) :
    (s.setSlotWindow core slot xs).Inv := by
  unfold State.setSlotWindow
  grind [State.inv_foldl, State.inv_setCoreAt]

theorem State.inv_restoreSlot (s : State) (core slot : Nat) (bs : List Byte) (tags : List Bool) (cid : BitVec 16)
    (full : Bool) (hs : s.Inv) :
    (s.restoreSlot core slot bs tags cid full).Inv := by
  unfold State.restoreSlot
  grind [State.inv_asAgent, State.inv_setCtx, State.inv_setSlotWindow, State.inv_take]

theorem State.inv_readRecord (s : State) (a : Agent) (r : Run) (va : Nat) (hs : s.Inv) (x : Record) (t : State)
    (ht : s.readRecord a r va = some (x, t)) : t.Inv := by
  unfold State.readRecord at ht
  grind [State.inv_getGranules]

theorem State.inv_renameAgent (s : State) (a b : Agent) (run : Nat) (hs : s.Inv) :
    (s.renameAgent a b run).Inv := by
  unfold State.renameAgent
  grind [State.inv_iff]

theorem State.inv_writeBack (s : State) (core slot target : Nat) (plevel : BitVec 3) (w : Susp) (hs : s.Inv) (t : State)
    (ht : s.writeBack core slot target plevel w = some t) : t.Inv := by
  unfold State.writeBack at ht
  have h1 := State.inv_deliverMessage s (.ctx core slot) hs
  dsimp only at ht
  repeat' split at ht
  all_goals cases ht
  all_goals
    rename_i hg
    obtain ⟨u, hu, hv⟩ := Option.bind_eq_some_iff.1 hg
    have h2 := inv_putGranules _ _ _ _ _ (inv_putGranules _ _ _ _ _ h1 _ hu) _ hv
    exact State.inv_setCoreAt _ _ _ (State.inv_renameAgent _ _ _ _ (State.inv_setCtxOf _ _ _
        (State.inv_setCtxOf _ _ _ h2)))

theorem State.inv_moveWatch (s : State) (a : Agent) (core : Nat) (addr : BitVec 48) (w : Susp) (hs : s.Inv) :
    (s.moveWatch a core addr w).Inv := by
  unfold State.moveWatch
  grind [State.inv_iff, State.inv_addWatch]

theorem State.inv_writeBackSlot (s : State) (core slot : Nat) (hs : s.Inv) (t : State)
    (ht : s.writeBackSlot core slot = some t) : t.Inv := by
  unfold State.writeBackSlot at ht
  grind [State.inv_makeReady, State.inv_moveWatch, State.inv_writeBack]

theorem State.inv_writeBackFails (s : State) (core slot : Nat) (t : State) (ht : t.Inv) :
    (s.writeBackFails core slot t).Inv := by
  unfold State.writeBackFails
  grind [State.inv_badTables]

theorem keeps_execWriteBack (core : Nat) (s : State) (hs : s.Inv) :
    Outcome.Keeps (execWriteBack core s) := by
  unfold execWriteBack
  split
  · exact (Outcome.keeps_next s).2 hs
  · split
    · obtain ⟨i, -, e⟩ := List.exists_of_findSome?_eq_some ‹_›
      exact (Outcome.keeps_next _).2 (State.inv_writeBackSlot s core i hs _ e)
    · exact (Outcome.keeps_next _).2
        (State.inv_foldl _ (fun t i ht => State.inv_writeBackFails s core i t ht) _ _ hs)

theorem State.inv_dropRecord (s : State) (run : Nat) (hs : s.Inv) :
    (s.dropRecord run).Inv := by
  unfold State.dropRecord
  grind [State.inv_updRun]

theorem State.inv_enterSlot_loaded (s : State) (core slot : Nat) (run : Run) (addr : BitVec 48) (rec : Cap)
    (old : Agent)
    (hs : s.Inv) (t : State) (ht : s.enterSlot core slot run addr rec old = .loaded t) : t.Inv := by
  unfold State.enterSlot at ht
  dsimp only at ht
  repeat' split at ht
  all_goals cases ht
  all_goals
    rename_i hr _ _ _ _ _ _ _ _ _ hg _
    have h1 := State.inv_readRecord s _ _ _ hs _ _ hr
    have h2 := State.inv_getGranules _ _ _ _ _ h1 _ _ _ hg
    exact State.inv_coreStore _ _ _ _ _ _ (State.inv_dropViews _ _ (State.inv_renameAgent _ _ _ _
      (State.inv_setCtxOf _ _ _ (State.inv_setCtxOf _ _ _ (State.inv_restoreSlot _ _ _ _ _ _ _ h2)))))

theorem State.inv_enterSlot_dropped (s : State) (core slot : Nat) (run : Run) (addr : BitVec 48) (rec : Cap)
    (old : Agent)
    (hs : s.Inv) (t : State) (ht : s.enterSlot core slot run addr rec old = .dropped t) : t.Inv := by
  unfold State.enterSlot at ht
  grind [State.inv_readRecord, State.inv_badTables]

theorem State.inv_awaitLoad (s : State) (core : Nat) (e : Ready) (run : Run) (va : Nat) (mig : Bool) (hs : s.Inv) :
    (s.awaitLoad core e run va mig).Inv := by
  unfold State.awaitLoad
  grind [State.inv_requestPage, State.inv_setCoreAt]

theorem State.inv_loadInto (old s : State) (core : Nat) (e : Ready) (hold : old.Inv) (hs : s.Inv) :
    (old.loadInto s core e).Inv := by
  unfold State.loadInto
  grind [State.inv_awaitLoad, State.inv_checkArrival, State.inv_dropRecord, State.inv_enterSlot_dropped,
      State.inv_enterSlot_loaded]

theorem State.inv_readmit (s : State) (core : Nat) (hs : s.Inv) :
    (s.readmit core).Inv := by
  unfold State.readmit
  grind [State.inv_foldl, State.inv_makeReady]

theorem State.inv_recordLoad (s : State) (core : Nat) (hs : s.Inv) :
    (s.recordLoad core).Inv := by
  unfold State.recordLoad
  grind [State.inv_loadInto, State.inv_readmit, State.inv_setCoreAt]

theorem keeps_execRecordLoad (core : Nat) (s : State) (hs : s.Inv) :
    Outcome.Keeps (execRecordLoad core s) := by
  unfold execRecordLoad
  grind [State.inv_recordLoad, Outcome.keeps_next]

theorem State.inv_pickUp (s : State) (core : Nat) (hs : s.Inv) :
    (s.pickUp core).Inv := by
  unfold State.pickUp
  grind [State.inv_loadInto, State.inv_setDie]

theorem keeps_execPickUp (core : Nat) (s : State) (hs : s.Inv) :
    Outcome.Keeps (execPickUp core s) := by
  unfold execPickUp
  grind [State.inv_pickUp, Outcome.keeps_next]

theorem keeps_execIdleTimeout (a : Agent) (s : State) (hs : s.Inv) :
    Outcome.Keeps (execIdleTimeout a s) := by
  unfold execIdleTimeout
  grind [State.inv_setCtxOf, Outcome.keeps_next]
end Sys2Proof.Machine
end

section
/-! The invariant: vector and matrix instructions. -/

namespace Sys2Proof.Machine
set_option Elab.async false
open Std.Do
set_option mvcgen.warning false

/-! ### Vector instructions -/

theorem keeps_vCheck (ty : Nat) :
    (vCheck ty).Keeps := by
  mvcgen [vCheck, keeps_checkBlocks, keeps_checkTile]

theorem keeps_modeIf (rounds : Bool) (rnd : BitVec 3) (p0 : Word) :
    (modeIf rounds rnd p0).Keeps := by
  mvcgen [modeIf, keeps_modeOf]

theorem keeps_vElementwise (f : VFields) (p0 : Word) (rounds : Bool) (fn : State → Mode → Nat → Nat × Flags) :
    (vElementwise f p0 rounds fn).Keeps := by
  mvcgen [vElementwise, keeps_modeIf, keeps_vCheck, step1]

theorem keeps_vMove (f : VFields) (fn : State → Nat → Nat → Nat) :
    (vMove f fn).Keeps := by
  mvcgen [vMove, keeps_vElementwise]

theorem keeps_execVshape (d a : BitVec 5) (imm : BitVec 32) (s : State) (hs : s.Inv) :
    Outcome.Keeps (execVshape d a imm s) := by
  refine keeps_runInstr _ _ s hs ?_
  mvcgen [keeps_need, keeps_writeVshape, step1]

theorem keeps_vBinary (op : VOp) (f : VFields) (p0 : Word) :
    (vBinary op f p0).Keeps := by
  mvcgen [vBinary, keeps_vElementwise]

theorem keeps_execVadd (f : VFields) (s : State) (hs : s.Inv) :
    Outcome.Keeps (execVadd f s) := by
  refine keeps_runInstr _ _ s hs ?_
  mvcgen [keeps_vBinary]

theorem keeps_execVsub (f : VFields) (s : State) (hs : s.Inv) :
    Outcome.Keeps (execVsub f s) := by
  refine keeps_runInstr _ _ s hs ?_
  mvcgen [keeps_vBinary]

theorem keeps_execVmul (f : VFields) (s : State) (hs : s.Inv) :
    Outcome.Keeps (execVmul f s) := by
  refine keeps_runInstr _ _ s hs ?_
  mvcgen [keeps_vBinary]

theorem keeps_execVmin (f : VFields) (s : State) (hs : s.Inv) :
    Outcome.Keeps (execVmin f s) := by
  refine keeps_runInstr _ _ s hs ?_
  mvcgen [keeps_vBinary]

theorem keeps_execVmax (f : VFields) (s : State) (hs : s.Inv) :
    Outcome.Keeps (execVmax f s) := by
  refine keeps_runInstr _ _ s hs ?_
  mvcgen [keeps_vBinary]

theorem keeps_execVand (f : VFields) (s : State) (hs : s.Inv) :
    Outcome.Keeps (execVand f s) := by
  refine keeps_runInstr _ _ s hs ?_
  mvcgen [keeps_vBinary]

theorem keeps_execVor (f : VFields) (s : State) (hs : s.Inv) :
    Outcome.Keeps (execVor f s) := by
  refine keeps_runInstr _ _ s hs ?_
  mvcgen [keeps_vBinary]

theorem keeps_execVxor (f : VFields) (s : State) (hs : s.Inv) :
    Outcome.Keeps (execVxor f s) := by
  refine keeps_runInstr _ _ s hs ?_
  mvcgen [keeps_vBinary]

theorem keeps_execVshl (f : VFields) (s : State) (hs : s.Inv) :
    Outcome.Keeps (execVshl f s) := by
  refine keeps_runInstr _ _ s hs ?_
  mvcgen [keeps_vBinary]

theorem keeps_execVshr (f : VFields) (s : State) (hs : s.Inv) :
    Outcome.Keeps (execVshr f s) := by
  refine keeps_runInstr _ _ s hs ?_
  mvcgen [keeps_vBinary]

theorem keeps_execVsra (f : VFields) (s : State) (hs : s.Inv) :
    Outcome.Keeps (execVsra f s) := by
  refine keeps_runInstr _ _ s hs ?_
  mvcgen [keeps_vBinary]

theorem keeps_vFusedOp (minus : Bool) (f : VFields) (p0 : Word) :
    (vFusedOp minus f p0).Keeps := by
  mvcgen [vFusedOp, keeps_vElementwise]

theorem keeps_execVfma (f : VFields) (s : State) (hs : s.Inv) :
    Outcome.Keeps (execVfma f s) := by
  refine keeps_runInstr _ _ s hs ?_
  mvcgen [keeps_vFusedOp]

theorem keeps_execVfms (f : VFields) (s : State) (hs : s.Inv) :
    Outcome.Keeps (execVfms f s) := by
  refine keeps_runInstr _ _ s hs ?_
  mvcgen [keeps_vFusedOp]

theorem keeps_vSignOp (neg : Bool) (f : VFields) :
    (vSignOp neg f).Keeps := by
  mvcgen [vSignOp, keeps_vElementwise]

theorem keeps_execVabs (f : VFields) (s : State) (hs : s.Inv) :
    Outcome.Keeps (execVabs f s) := by
  refine keeps_runInstr _ _ s hs ?_
  mvcgen [keeps_vSignOp]

theorem keeps_execVneg (f : VFields) (s : State) (hs : s.Inv) :
    Outcome.Keeps (execVneg f s) := by
  refine keeps_runInstr _ _ s hs ?_
  mvcgen [keeps_vSignOp]

theorem keeps_execVmov (f : VFields) (s : State) (hs : s.Inv) :
    Outcome.Keeps (execVmov f s) := by
  refine keeps_runInstr _ _ s hs ?_
  mvcgen [keeps_vMove]

theorem State.inv_writeRange (s : State) (d : BitVec 3) (w k : Nat) (m : BitVec 2) (mz : Bool)
    (fn : Nat → Nat × Flags) (hs : s.Inv) :
    (s.writeRange d w k m mz fn).Inv := by
  unfold State.writeRange
  grind [State.inv_foldl, State.inv_setFlags, State.inv_setV]

theorem keeps_execVcvt (f : VFields) (s : State) (hs : s.Inv) :
    Outcome.Keeps (execVcvt f s) := by
  refine keeps_runInstr _ _ s hs ?_
  mvcgen [keeps_modeIf, keeps_need, step1] with grind [State.inv_writeRange]

theorem keeps_vElementaryOp (fn : Elementary) (f : VFields) (p0 : Word) :
    (vElementaryOp fn f p0).Keeps := by
  mvcgen [vElementaryOp, keeps_vElementwise]

theorem keeps_execVexp2 (f : VFields) (s : State) (hs : s.Inv) :
    Outcome.Keeps (execVexp2 f s) := by
  refine keeps_runInstr _ _ s hs ?_
  mvcgen [keeps_vElementaryOp]

theorem keeps_execVlog2 (f : VFields) (s : State) (hs : s.Inv) :
    Outcome.Keeps (execVlog2 f s) := by
  refine keeps_runInstr _ _ s hs ?_
  mvcgen [keeps_vElementaryOp]

theorem keeps_execVrcp (f : VFields) (s : State) (hs : s.Inv) :
    Outcome.Keeps (execVrcp f s) := by
  refine keeps_runInstr _ _ s hs ?_
  mvcgen [keeps_vElementaryOp]

theorem keeps_execVrsq (f : VFields) (s : State) (hs : s.Inv) :
    Outcome.Keeps (execVrsq f s) := by
  refine keeps_runInstr _ _ s hs ?_
  mvcgen [keeps_vElementaryOp]

theorem keeps_execVtanh (f : VFields) (s : State) (hs : s.Inv) :
    Outcome.Keeps (execVtanh f s) := by
  refine keeps_runInstr _ _ s hs ?_
  mvcgen [keeps_vElementaryOp]

theorem keeps_execVcmp (f : VFields) (s : State) (hs : s.Inv) :
    Outcome.Keeps (execVcmp f s) := by
  refine keeps_runInstr _ _ s hs ?_
  mvcgen [keeps_vCheck, step1]

theorem keeps_execVsel (f : VFields) (s : State) (hs : s.Inv) :
    Outcome.Keeps (execVsel f s) := by
  refine keeps_runInstr _ _ s hs ?_
  mvcgen [keeps_vCheck, step1]

theorem keeps_execVred (f : VFields) (s : State) (hs : s.Inv) :
    Outcome.Keeps (execVred f s) := by
  refine keeps_runInstr _ _ s hs ?_
  mvcgen [keeps_modeIf, keeps_vCheck, step1]

theorem keeps_execVscan (f : VFields) (s : State) (hs : s.Inv) :
    Outcome.Keeps (execVscan f s) := by
  refine keeps_runInstr _ _ s hs ?_
  mvcgen [keeps_modeIf, keeps_vCheck, step1]

theorem keeps_execVtrans (f : VFields) (s : State) (hs : s.Inv) :
    Outcome.Keeps (execVtrans f s) := by
  refine keeps_runInstr _ _ s hs ?_
  mvcgen [keeps_vMove]

theorem keeps_execVbcast (f : VFields) (s : State) (hs : s.Inv) :
    Outcome.Keeps (execVbcast f s) := by
  refine keeps_runInstr _ _ s hs ?_
  mvcgen [keeps_vMove]

theorem keeps_execVshuf (f : VFields) (s : State) (hs : s.Inv) :
    Outcome.Keeps (execVshuf f s) := by
  refine keeps_runInstr _ _ s hs ?_
  mvcgen [keeps_needOpen, keeps_vCheck, keeps_vMove]

theorem keeps_execVrot (f : VFields) (s : State) (hs : s.Inv) :
    Outcome.Keeps (execVrot f s) := by
  refine keeps_runInstr _ _ s hs ?_
  mvcgen [keeps_vMove]

theorem keeps_vIndex (f : VFields) :
    (vIndex f).Keeps := by
  mvcgen [vIndex, keeps_need]

theorem keeps_execVins (f : VFields) (s : State) (hs : s.Inv) :
    Outcome.Keeps (execVins f s) := by
  refine keeps_runInstr _ _ s hs ?_
  mvcgen [keeps_vCheck, keeps_vIndex, step1]

theorem keeps_execVext (f : VFields) (s : State) (hs : s.Inv) :
    Outcome.Keeps (execVext f s) := by
  refine keeps_runInstr _ _ s hs ?_
  mvcgen [keeps_vCheck, keeps_vIndex, step1]

theorem keeps_vMaskOp (f : VFields) (fn : BitVec 2048 → BitVec 2048 → BitVec 2048) :
    (vMaskOp f fn).Keeps := by
  mvcgen [vMaskOp, step1]

theorem keeps_execVmand (f : VFields) (s : State) (hs : s.Inv) :
    Outcome.Keeps (execVmand f s) := by
  refine keeps_runInstr _ _ s hs ?_
  mvcgen [keeps_vMaskOp]

theorem keeps_execVmor (f : VFields) (s : State) (hs : s.Inv) :
    Outcome.Keeps (execVmor f s) := by
  refine keeps_runInstr _ _ s hs ?_
  mvcgen [keeps_vMaskOp]

theorem keeps_execVmnot (f : VFields) (s : State) (hs : s.Inv) :
    Outcome.Keeps (execVmnot f s) := by
  refine keeps_runInstr _ _ s hs ?_
  mvcgen [keeps_vMaskOp]

theorem keeps_execVmpop (f : VFields) (s : State) (hs : s.Inv) :
    Outcome.Keeps (execVmpop f s) := by
  refine keeps_runInstr _ _ s hs ?_
  mvcgen [step1]

theorem keeps_execVplanes (f : VFields) (s : State) (hs : s.Inv) :
    Outcome.Keeps (execVplanes f s) := by
  refine keeps_runInstr _ _ s hs ?_
  mvcgen [keeps_vCheck, step1]

theorem keeps_execVunplane (f : VFields) (s : State) (hs : s.Inv) :
    Outcome.Keeps (execVunplane f s) := by
  refine keeps_runInstr _ _ s hs ?_
  mvcgen [keeps_vCheck, step1]

theorem keeps_barqPlain (f : VFields) :
    (barqPlain f).Keeps := by
  mvcgen [barqPlain, keeps_modeIf, step1]

theorem keeps_barqPlanes (f : VFields) :
    (barqPlanes f).Keeps := by
  mvcgen [barqPlanes, keeps_modeIf, step1]

theorem keeps_execVbarq (f : VFields) (s : State) (hs : s.Inv) :
    Outcome.Keeps (execVbarq f s) := by
  refine keeps_runInstr _ _ s hs ?_
  mvcgen [keeps_barqPlain, keeps_barqPlanes, keeps_vCheck]

/-! ### Matrix instructions -/

theorem State.inv_setMxAt (s : State) (core : Nat) (x : Matrix) (hs : s.Inv) :
    (s.setMxAt core x).Inv := by
  unfold State.setMxAt
  grind [State.inv_setCoreAt]

theorem State.inv_setMx (s : State) (x : Matrix) (hs : s.Inv) :
    (s.setMx x).Inv := by
  unfold State.setMx
  grind [State.inv_setMxAt]

theorem keeps_noExpress (p0 : Word) :
    (noExpress p0).Keeps := by
  mvcgen [noExpress, keeps_need]

theorem keeps_queueRoom (ok : Bool) :
    (queueRoom ok).Keeps := by
  mvcgen [queueRoom]

theorem keeps_enqueueFetch (f : FetchOp) :
    (enqueueFetch f).Keeps := by
  mvcgen [enqueueFetch, keeps_queueRoom, step1]

theorem keeps_execMwfetch (f : MQFields) (s : State) (hs : s.Inv) :
    Outcome.Keeps (execMwfetch f s) := by
  refine keeps_runInstr _ _ s hs ?_
  mvcgen [keeps_capCheck, keeps_enqueueFetch, keeps_need, keeps_needOpen, keeps_noExpress]

theorem State.inv_fillUnit (s : State) (core u : Nat) (cause : BitVec 8) (data : BitVec 256) (hs : s.Inv) :
    (s.fillUnit core u cause data).Inv := by
  unfold State.fillUnit
  grind [State.inv_setMxAt]

theorem State.inv_readParts (s : State) (a : Agent) (ps : List UnitPart) (hs : s.Inv) :
    (s.readParts a ps).Inv := by
  unfold State.readParts
  grind [State.inv_foldl, State.inv_asksBytes, State.inv_touch, State.inv_translated]

theorem State.inv_readUnits (s : State) (core : Nat) (f : FetchOp) (n k : Nat) (hs : s.Inv) :
    (s.readUnits core f n k).2.2.Inv := by
  induction n generalizing s k with
  | zero => exact hs
  | succ n ih =>
    unfold State.readUnits
    grind [State.inv_asAgent, State.inv_awaitPage, State.inv_fillUnit, State.inv_noted, State.inv_readParts,
        State.inv_refreshStall, State.inv_walked]

theorem State.inv_runFetch (s : State) (core : Nat) (f : FetchOp) (hs : s.Inv) :
    (s.runFetch core f).Inv := by
  unfold State.runFetch
  grind [State.inv_checkArrival, State.inv_readUnits, State.inv_setMxAt]

theorem keeps_execWeightFetchRead (core : Nat) (s : State) (hs : s.Inv) :
    Outcome.Keeps (execWeightFetchRead core s) := by
  unfold execWeightFetchRead
  grind [State.inv_foldl, State.inv_runFetch, Outcome.keeps_next]

theorem State.inv_failFetches (s : State) (core epoch : Nat) (hs : s.Inv) :
    (s.failFetches core epoch).Inv := by
  unfold State.failFetches
  grind [State.inv_checkArrival, State.inv_setMxAt]

theorem keeps_loadChecks (f : MQFields) :
    (loadChecks f).Keeps := by
  mvcgen [loadChecks, keeps_need, keeps_trap]

theorem keeps_execMwload (f : MQFields) (s : State) (hs : s.Inv) :
    Outcome.Keeps (execMwload f s) := by
  refine keeps_runInstr _ _ s hs ?_
  mvcgen [keeps_loadChecks, keeps_noExpress, keeps_queueRoom, keeps_trap, step1]

theorem State.inv_endLoad (s : State) (core : Nat) (l : LoadOp) (hs : s.Inv) :
    (s.endLoad core l).Inv := by
  unfold State.endLoad
  grind [State.inv_asAgent, State.inv_checkArrival, State.inv_setCtxOf, State.inv_setMxAt, State.inv_takeTrap]

theorem keeps_execMwloadExpansion (core : Nat) (s : State) (hs : s.Inv) :
    Outcome.Keeps (execMwloadExpansion core s) := by
  unfold execMwloadExpansion
  grind [State.inv_endLoad, Outcome.keeps_next]

theorem keeps_execMwswap (f : MQFields) (s : State) (hs : s.Inv) :
    Outcome.Keeps (execMwswap f s) := by
  refine keeps_runInstr _ _ s hs ?_
  mvcgen [keeps_noExpress, step1]

theorem keeps_execMgwait (f : MQFields) (s : State) (hs : s.Inv) :
    Outcome.Keeps (execMgwait f s) := by
  refine keeps_runInstr _ _ s hs ?_
  mvcgen [keeps_noExpress, keeps_queueRoom, step1]

theorem keeps_execMgadv (f : MQFields) (s : State) (hs : s.Inv) :
    Outcome.Keeps (execMgadv f s) := by
  refine keeps_runInstr _ _ s hs ?_
  mvcgen [keeps_needOpen, keeps_noExpress, step1]

theorem keeps_execMgread (f : MQFields) (s : State) (hs : s.Inv) :
    Outcome.Keeps (execMgread f s) := by
  refine keeps_runInstr _ _ s hs ?_
  mvcgen [keeps_modeOf, keeps_need, keeps_noExpress, step1] with grind [State.inv_foldl, State.inv_setFlags,
      State.inv_setV]

theorem keeps_execMstream (f : GFields) (s : State) (hs : s.Inv) :
    Outcome.Keeps (execMstream f s) := by
  refine keeps_runInstr _ _ s hs ?_
  mvcgen [keeps_need, keeps_needOpen, keeps_noExpress, keeps_queueRoom, step1]

theorem State.inv_dropStream (s : State) (m : Member) (hs : s.Inv) :
    (s.dropStream m).Inv := by
  unfold State.dropStream
  grind [State.inv_setMxAt]

theorem State.inv_failStreams (s : State) (ms : List Member) (code : BitVec 8) (hs : s.Inv) :
    (s.failStreams ms code).Inv := by
  unfold State.failStreams
  grind [State.inv_foldl, State.inv_checkArrival, State.inv_completeBarrier, State.inv_dropStream]

theorem State.inv_dropOpen (s : State) (tail : Nat) (hs : s.Inv) :
    (s.dropOpen tail).Inv := by
  unfold State.dropOpen
  grind [State.inv_setMxAt]

theorem State.inv_setMflags (s : State) (m : Member) (nx wrap nv : Bool) (hs : s.Inv) :
    (s.setMflags m nx wrap nv).Inv := by
  unfold State.setMflags
  grind [State.inv_setCtxOf]

theorem State.inv_setRow (s : State) (ms : List Member) (r : Nat) (hs : s.Inv) :
    (s.setRow ms r).Inv := by
  unfold State.setRow
  grind [State.inv_foldl, State.inv_setMxAt]

theorem State.inv_addRow (s : State) (ms : List Member) (tail : Member) (g : Galley) (r : Nat) (rows : List
    (Member × List Activation)) (hs : s.Inv) :
    (s.addRow ms tail g r rows).Inv := by
  unfold State.addRow
  grind [State.inv_foldl, State.inv_count, State.inv_setMflags, State.inv_setMxAt, State.inv_setRow]

theorem State.inv_gangRows (s : State) (ms : List Member) (tail : Member) (n k : Nat) (hs : s.Inv) :
    (s.gangRows ms tail n k).Inv := by
  induction n generalizing s k with
  | zero => exact hs
  | succ n ih =>
    unfold State.gangRows
    grind [State.inv_addRow, State.inv_dropOpen, State.inv_failStreams]

theorem State.inv_runGang (s : State) (ms : List Member) (k : Nat) (hs : s.Inv) :
    (s.runGang ms k).Inv := by
  unfold State.runGang
  grind [State.inv_failStreams, State.inv_gangRows, State.inv_setMxAt, State.inv_setRow]

theorem State.inv_failJoin (s : State) (ms : List Member) (hs : s.Inv) :
    (s.failJoin ms).Inv := by
  unfold State.failJoin
  grind [State.inv_foldl, State.inv_dropOpen, State.inv_failStreams]

theorem keeps_execQuoin (core rows : Nat) (s : State) (hs : s.Inv) :
    Outcome.Keeps (execQuoin core rows s) := by
  unfold execQuoin
  grind [State.inv_failJoin, State.inv_runGang, Outcome.keeps_next]

theorem keeps_execStreamCompletion (core : Nat) (s : State) (hs : s.Inv) :
    Outcome.Keeps (execStreamCompletion core s) := by
  unfold execStreamCompletion
  grind [State.inv_foldl, State.inv_arrive, State.inv_checkArrival, State.inv_dropStream, Outcome.keeps_next]
end Sys2Proof.Machine
end

section
/-! The invariant: continuations, core state, boards, imposition and supersteps. -/

namespace Sys2Proof.Machine
set_option Elab.async false
open Std.Do
set_option mvcgen.warning false

/-! ### Continuations -/

theorem keeps_execXsync (d : BitVec 5) (level : BitVec 3) (s : State) (hs : s.Inv) :
    Outcome.Keeps (execXsync d level s) := by
  refine keeps_runInstr _ _ s hs ?_
  mvcgen [keeps_need, keeps_takeDeferred, keeps_release] with
    exact State.inv_checkArrival _ _ (State.inv_suspend _ _ _ _ _ _ (State.inv_setPc _ _ ‹_›))

theorem keeps_spawnParams (g : Word) :
    (spawnParams g).Keeps := by
  mvcgen [spawnParams, keeps_need]

theorem State.inv_enqueueReady (s : State) (e : Ready) (hs : s.Inv) :
    (s.enqueueReady e).Inv := by
  unfold State.enqueueReady
  grind [State.inv_setCore, State.inv_setDie]

theorem State.inv_storeHere (s : State) (va : Nat) (p : Nat × Bool) (bs : List Byte) (tags : BitVec 2) (hs : s.Inv) :
    (s.storeHere va p bs tags).Inv := by
  unfold State.storeHere
  grind [State.inv_storeNow]

theorem State.inv_spawnWrite (s : State) (vf vr : Nat) (pf pr : Nat × Bool) (fc : Cap) (ft : Bool) (ws : List Word)
    (f : Cap) (rt : Bool) (hs : s.Inv) :
    (s.spawnWrite vf vr pf pr fc ft ws f rt).Inv := by
  unfold State.spawnWrite
  grind [State.inv_storeHere]

theorem keeps_execSpawn (f : QFields) (s : State) (hs : s.Inv) :
    Outcome.Keeps (execSpawn f s) := by
  refine keeps_runInstr _ _ s hs ?_
  mvcgen [keeps_capCheck, keeps_checkTargetM, keeps_elemAddr, keeps_need, keeps_needOpen, keeps_release,
      keeps_spawnParams, keeps_stcTag, keeps_xl, step1] with grind [State.inv_enqueueReady, State.inv_setG,
      State.inv_spawnWrite]

theorem keeps_execYield (s : State) (hs : s.Inv) :
    Outcome.Keeps (execYield s) := by
  refine keeps_runInstr _ _ s hs ?_
  mvcgen with grind [State.inv_setPc, State.inv_suspend, State.inv_writeBackSlot]

theorem keeps_execIdle (n : BitVec 10) (s : State) (hs : s.Inv) :
    Outcome.Keeps (execIdle n s) := by
  refine keeps_runInstr _ _ s hs ?_
  mvcgen [step1]

theorem State.inv_exitRecord (s : State) (thresh : Word) (hs : s.Inv) :
    (s.exitRecord thresh).Inv := by
  unfold State.exitRecord
  grind [State.inv_writeState, State.inv_writeThresh]

theorem State.inv_exitSlot (s : State) (thresh : Word) (hs : s.Inv) :
    (s.exitSlot thresh).Inv := by
  unfold State.exitSlot
  grind [State.inv_checkArrival, State.inv_exitRecord, State.inv_setCtx]

theorem keeps_execExit (d : BitVec 5) (s : State) (hs : s.Inv) :
    Outcome.Keeps (execExit d s) := by
  refine keeps_runInstr _ _ s hs ?_
  mvcgen [keeps_release, keeps_takeDeferred, step1] with grind [State.inv_exitSlot]

/-! ### The state of a core -/

theorem State.inv_putLocal (s : State) (a : Nat) (xs : List (List Byte × Bool)) (hs : s.Inv) :
    (s.putLocal a xs).Inv := by
  induction xs generalizing s a with
  | nil => exact hs
  | cons x rest ih => exact ih _ _ (State.inv_setTag _ _ _ (State.inv_writeHome _ _ _ hs))

theorem State.inv_writeSnapshot (s : State) (run core : Nat) (hs : s.Inv) :
    (s.writeSnapshot run core).Inv := by
  unfold State.writeSnapshot
  split
  · dsimp only
    split
    · exact State.inv_writeBy s _ _ _ hs
    · exact hs
  · exact hs

/-! ### Boards -/

theorem State.inv_unitWrite (s : State) (a : Nat) (x : Word) (hs : s.Inv) :
    (s.unitWrite a x).Inv := by
  unfold State.unitWrite
  grind [State.inv_clearTags, State.inv_markForeign, State.inv_setBytes]

theorem State.inv_reachHome (s : State) (pa n : Nat) (hs : s.Inv) :
    (s.reachHome pa n).Inv := by
  unfold State.reachHome
  grind [State.inv_atomicReady]

theorem State.inv_unitAsks (s : State) (op : Nat) (i : Instr) (f : QFields) (place : Nat) (operands : List Word)
    (answer : List Byte) (hs : s.Inv) :
    (s.unitAsks op i f place operands answer).Inv := by
  unfold State.unitAsks
  grind [State.inv_asks]

theorem keeps_boardAt (f : QFields) :
    (boardAt f).Keeps := by
  mvcgen [boardAt, keeps_capCheck, keeps_need, keeps_xl]

theorem keeps_boardHome (b : Nat) (base : Word) (v : Bool) (slot : Option Word) (post : Bool) :
    (boardHome b base v slot post).Keeps := by
  mvcgen [boardHome, keeps_need] with grind [State.inv_reachHome]

theorem State.inv_boardPost (s : State) (b k : Nat) (u : Word) (hs : s.Inv) :
    (s.boardPost b k u).Inv := by
  unfold State.boardPost
  grind [State.inv_unitWrite]

theorem State.inv_takeView (s : State) (f : QFields) (b : Nat) (hs : s.Inv) :
    (s.takeView f b).Inv := by
  unfold State.takeView
  grind [State.inv_setG, State.inv_setV, State.inv_setVW]

theorem keeps_execNbpost (f : QFields) (s : State) (hs : s.Inv) :
    Outcome.Keeps (execNbpost f s) := by
  refine keeps_runInstr _ _ s hs ?_
  mvcgen [keeps_boardAt, keeps_boardHome, keeps_release, keeps_standing, step1] with grind [State.inv_boardPost,
      State.inv_takeView, State.inv_unitAsks]

theorem keeps_execNbview (f : QFields) (s : State) (hs : s.Inv) :
    Outcome.Keeps (execNbview f s) := by
  refine keeps_runInstr _ _ s hs ?_
  mvcgen [keeps_boardAt, keeps_boardHome, step1] with grind [State.inv_acquireAll, State.inv_takeView,
      State.inv_unitAsks]

theorem State.inv_boardInit (s : State) (b : Nat) (mode : BitVec 2) (nsm1 : BitVec 6) (hs : s.Inv) :
    (s.boardInit b mode nsm1).Inv := by
  unfold State.boardInit
  grind [State.inv_foldl, State.inv_unitWrite]

theorem keeps_execNbinit (f : QFields) (s : State) (hs : s.Inv) :
    Outcome.Keeps (execNbinit f s) := by
  refine keeps_runInstr _ _ s hs ?_
  mvcgen [keeps_boardAt, keeps_boardHome, step1] with grind [State.inv_boardInit, State.inv_setG, State.inv_unitAsks]

theorem keeps_execNbslot (f : QFields) (s : State) (hs : s.Inv) :
    Outcome.Keeps (execNbslot f s) := by
  refine keeps_runInstr _ _ s hs ?_
  mvcgen [keeps_boardAt, keeps_boardHome, step1] with grind [State.inv_setG, State.inv_unitAsks]

/-! ### Imposition -/

theorem State.inv_setWorker (s : State) (a w : Nat) (cand : Option Nat) (next : Nat) (hs : s.Inv) :
    (s.setWorker a w cand next).Inv := by
  unfold State.setWorker
  grind [State.inv_unitWrite]

theorem State.inv_setCell (s : State) (a c x : Nat) (hs : s.Inv) :
    (s.setCell a c x).Inv := by
  unfold State.setCell
  grind [State.inv_clearTags, State.inv_markForeign, State.inv_setByte]

theorem State.inv_setCells (s : State) (a : Nat) (cs : List Nat) (x : Nat) (hs : s.Inv) :
    (s.setCells a cs x).Inv := by
  unfold State.setCells
  grind [State.inv_foldl, State.inv_setCell]

theorem State.inv_setCounts (s : State) (a cells done claimed cursor : Nat) (hs : s.Inv) :
    (s.setCounts a cells done claimed cursor).Inv := by
  unfold State.setCounts
  grind [State.inv_unitWrite]

theorem State.inv_startWorkers (s : State) (a : Nat) (c : Sched) (m : Nat) (hs : s.Inv) :
    (s.startWorkers a c m).Inv := by
  unfold State.startWorkers
  grind [State.inv_foldl, State.inv_setWorker]

theorem State.inv_setPending (s : State) (run a : Nat) (p : PendSched) (hs : s.Inv) :
    (s.setPending run a p).Inv := by
  unfold State.setPending
  grind [State.inv_setCoreAt]

theorem keeps_impAt (f : QFields) (k : Kind) :
    (impAt f k).Keeps := by
  mvcgen [impAt, keeps_capCheck, keeps_need, keeps_needOpen, keeps_xl]

theorem keeps_impHome (a : Nat) (base : Word) :
    (impHome a base).Keeps := by
  mvcgen [impHome, keeps_need, keeps_trap] with grind [State.inv_reachHome]

theorem State.inv_takeEpoch (s : State) (a : Nat) (hs : s.Inv) :
    (s.takeEpoch a).Inv := by
  unfold State.takeEpoch
  grind [State.inv_setSr]

theorem State.inv_claim (s : State) (a w : Nat) (hs : s.Inv) :
    (s.claim a w).2.Inv := by
  unfold State.claim
  grind [State.inv_setCells, State.inv_setCounts, State.inv_setWorker, State.inv_unitWrite]

theorem keeps_execTclaim (f : QFields) (s : State) (hs : s.Inv) :
    Outcome.Keeps (execTclaim f s) := by
  refine keeps_runInstr _ _ s hs ?_
  mvcgen [keeps_impAt, keeps_impHome, keeps_need, step1] with grind [State.inv_acquireAll, State.inv_claim,
      State.inv_setG, State.inv_takeEpoch, State.inv_unitAsks]

theorem keeps_claimOf (f : QFields) (a : Nat) :
    (claimOf f a).Keeps := by
  refine M.Keeps.get fun s _ => ?_
  dsimp only
  split
  · exact keeps_trap _ _
  · refine M.Keeps.bind ?_ ?_
    · exact keeps_need _ _ _
    · exact fun _ => M.keeps_pure _

theorem keeps_execTdone (f : QFields) (s : State) (hs : s.Inv) :
    Outcome.Keeps (execTdone f s) := by
  refine keeps_runInstr _ _ s hs ?_
  mvcgen [keeps_claimOf, keeps_impAt, keeps_impHome, keeps_release, keeps_standing]
  all_goals exact M.keeps_step1 _ fun t ht => State.inv_unitAsks _ _ _ _ _ _ _ (State.inv_setG _ _ _
    (State.inv_takeEpoch _ _ (State.inv_unitWrite _ _ _ (State.inv_setCounts _ _ _ _ _ _
        (State.inv_setCells _ _ _ _ ht)))))

theorem keeps_writePages (va n : Nat) :
    (writePages va n).Keeps := by
  mvcgen [writePages, keeps_pathOk, keeps_xl, M.keeps_forM]

theorem keeps_storeCheck (c : Cap) (i : Int) :
    (storeCheck c i).Keeps := by
  mvcgen [storeCheck, keeps_need, keeps_trap]

theorem keeps_handChecks :
    (handChecks).Keeps := by
  mvcgen [handChecks, keeps_storeCheck, keeps_trap, keeps_writePages]

theorem State.inv_enqueueAt (s : State) (target : Nat) (p : Parked) (hs : s.Inv) :
    (s.enqueueAt target p).Inv := by
  unfold State.enqueueAt
  grind [State.inv_makeReady, State.inv_setCoreAt, State.inv_writeState]

theorem State.inv_handOver (s : State) (e target : Nat) (d : BitVec 5) (hs : s.Inv) (t : State)
    (ht : s.handOver e target d = some t) : t.Inv := by
  unfold State.handOver at ht
  grind [State.inv_checkArrival, State.inv_enqueueAt, State.inv_setG, State.inv_setPc, State.inv_unitWrite,
      State.inv_writeBack]

theorem keeps_execThand (f : QFields) (s : State) (hs : s.Inv) :
    Outcome.Keeps (execThand f s) := by
  refine keeps_runInstr _ _ s hs ((keeps_impAt _ _).bind fun a => (keeps_impHome _ _).bind fun _ =>
    (keeps_claimOf _ _).bind fun e => M.Keeps.get fun _ _ =>
        (keeps_need _ _ _).bind fun _ => keeps_handChecks.bind fun _ =>
    (M.keeps_modify _ fun t ht => State.inv_takeEpoch t a ht).bind fun _ => M.Keeps.get fun t ht => ?_)
  have asked (x : Nat) (w : Word) : M.Keeps (step1 fun t => (t.setG f.d w).unitAsks 22 (.thand f) f a
      [s.g f.x, s.g (f.x + 1)] (leBytes 8 x)) :=
    M.keeps_step1 _ fun t ht => State.inv_unitAsks _ _ _ _ _ _ _ (State.inv_setG _ _ _ ht)
  dsimp only
  split
  · exact asked 1 1
  · split_ifs
    · exact asked 1 1
    · exact asked 2 2
    · exact M.keeps_throw _
    · split
      · exact M.keeps_step1 _ fun _ _ => State.inv_handOver _ _ _ _
          (State.inv_flush _ _ (State.inv_unitAsks _ _ _ _ _ _ _ ht)) _ ‹_›
      · exact M.keeps_throw _

theorem keeps_schedNext (f : QFields) (a : Nat) :
    (schedNext f a).Keeps := by
  refine M.Keeps.get fun s hs => (keeps_need _ _ _).bind fun _ => ?_
  dsimp only
  split
  · exact keeps_trap _ _
  · exact M.keeps_step1 _ fun t ht =>
      State.inv_unitAsks _ _ _ _ _ _ _ (State.inv_setG _ _ _ (State.inv_takeEpoch _ _
          (State.inv_setPending _ _ _ _ ht)))

theorem State.inv_impInit (s : State) (a : Nat) (p : Sched) (level workers : Nat) (hs : s.Inv) :
    (s.impInit a p level workers).Inv := by
  unfold State.impInit
  grind [State.inv_foldl, State.inv_clearTags, State.inv_markForeign, State.inv_setByte, State.inv_setCounts,
      State.inv_setPending, State.inv_startWorkers, State.inv_unitWrite]

theorem keeps_schedInit (f : QFields) (a : Nat) :
    (schedInit f a).Keeps := by
  have init (w : State → State) (hw : ∀ t, t.Inv → (w t).Inv) : M.Keeps (step1 fun t =>
      (((w t).takeEpoch a).setG f.d 0).unitAsks 22 (.schedw f) f a [] (leBytes 8 0)) :=
    M.keeps_step1 _ fun t ht =>
      State.inv_unitAsks _ _ _ _ _ _ _ (State.inv_setG _ _ _ (State.inv_takeEpoch _ _ (hw t ht)))
  refine M.Keeps.get fun s hs => (keeps_need _ _ _).bind fun _ => ?_
  dsimp only
  split
  · exact keeps_trap _ _
  · split
    · exact keeps_trap _ _
    · refine (keeps_need _ _ _).bind fun _ => ?_
      split
      · exact keeps_trap _ _
      · exact (keeps_capCheck _ _ _ _).bind fun _ => init _ fun t ht => State.inv_impInit t _ _ _ _ ht

theorem keeps_execSchedw (f : QFields) (s : State) (hs : s.Inv) :
    Outcome.Keeps (execSchedw f s) := by
  refine keeps_runInstr _ _ s hs ?_
  mvcgen [keeps_impAt, keeps_impHome, keeps_release, keeps_schedInit, keeps_schedNext, keeps_standing]

theorem keeps_execSchedr (f : QFields) (s : State) (hs : s.Inv) :
    Outcome.Keeps (execSchedr f s) := by
  refine keeps_runInstr _ _ s hs ?_
  mvcgen [keeps_impAt, keeps_impHome, step1] with grind [State.inv_setG, State.inv_takeEpoch, State.inv_unitAsks]

theorem State.inv_switchBlock (s : State) (run a : Nat) (hs : s.Inv) :
    (s.switchBlock run a).Inv := by
  unfold State.switchBlock
  grind [State.inv_setCounts, State.inv_setPending, State.inv_startWorkers, State.inv_unitWrite]

theorem State.inv_switches (s : State) (run : Nat) (members : List Nat) (level : Nat) (hs : s.Inv) :
    (s.switches run members level).Inv := by
  unfold State.switches
  grind [State.inv_foldl, State.inv_switchBlock]

/-! ### Supersteps -/

theorem State.inv_setPlanAt (s : State) (run core : Nat) (p : Plan) (hs : s.Inv) :
    (s.setPlanAt run core p).Inv := by
  unfold State.setPlanAt
  grind [State.inv_setCoreAt]

theorem State.inv_planFailure (s : State) (run core i : Nat) (f : EntryFault) (mask : Nat) (hs : s.Inv) :
    (s.planFailure run core i f mask).Inv := by
  unfold State.planFailure
  grind [State.inv_clearTags, State.inv_setBytes, State.inv_setPlanAt, State.inv_writeHome]

theorem State.inv_departEntry (s : State) (run core : Nat) (hs : s.Inv) :
    (s.departEntry run core).Inv := by
  unfold State.departEntry
  repeat' split
  all_goals grind [State.inv_iff, State.inv_planFailure, State.inv_setPlanAt]

theorem State.inv_countLate (s : State) (run dst : Nat) (hs : s.Inv) :
    (s.countLate run dst).Inv := by
  unfold State.countLate
  grind [State.inv_count, State.inv_setPlanAt]

theorem State.inv_land (s : State) (run src dst doff : Nat) (bytes : List Byte) (poison : List Bool) (hs : s.Inv) :
    (s.land run src dst doff bytes poison).Inv := by
  unfold State.land
  dsimp only
  split
  · exact State.inv_securityEvent s hs
  · split
    · exact hs
    · exact State.inv_countLate _ _ _ (State.inv_foldl _
        (fun s x h => State.inv_markForeign _ _ _ (State.inv_setPoison _ _ _ h)) _ _
        (State.inv_clearTags _ _ _ (State.inv_setBytes _ _ _ hs)))

theorem State.inv_performExchange (s : State) (x : Exchange) (hs : s.Inv) : (s.performExchange x).Inv := by
  cases x <;> simp only [State.performExchange] <;> grind [State.inv_land, State.inv_pairArrives]

theorem keeps_execPlanEntryDepart (core : Nat) (s : State) (hs : s.Inv) :
    Outcome.Keeps (execPlanEntryDepart core s) := by
  unfold execPlanEntryDepart
  grind [State.inv_departEntry, Outcome.keeps_next]

theorem keeps_execPlanEntryLand (k : Nat) (s : State) (hs : s.Inv) :
    Outcome.Keeps (execPlanEntryLand k s) := by
  unfold execPlanEntryLand
  grind [State.inv_iff, State.inv_land, keeps_transfer, Outcome.keeps_next]

theorem State.inv_departAll (s : State) (run core n : Nat) (hs : s.Inv) : (s.departAll run core n).Inv := by
  induction n generalizing s with
  | zero => exact hs
  | succ n ih =>
    unfold State.departAll
    split
    · exact ih _ (State.inv_departEntry s run core hs)
    · exact hs

theorem State.inv_closeStep (s : State) (run : Nat) (members : List Nat) (level : Nat) (hs : s.Inv) :
    (s.closeStep run members level).Inv := by
  unfold State.closeStep
  have h1 := State.inv_foldl State.flush (fun s a h => State.inv_flush s a h)
  have h2 := State.inv_foldl State.performExchange (fun s x h => State.inv_performExchange s x h)
  refine State.inv_foldl _ (fun s k h => State.inv_dropLines s k _ h) _ _ (State.inv_dropViews _ _ (h2 _ _ ?_))
  refine State.inv_of_memory_eq (State.inv_foldl _ (fun s k h => ?_) _ _ (h1 _ _ hs)) rfl rfl rfl
  exact State.inv_takeFrom _ _ _ _ h fun s e h => State.inv_replayEntry s k e h

theorem State.inv_resumeSlot (s : State) (core slot : Nat) (fault : Option (BitVec 8 × Word)) (hs : s.Inv) :
    (s.resumeSlot core slot fault).Inv := by
  unfold State.resumeSlot
  grind [State.inv_asAgent, State.inv_setCtxOf, State.inv_setG, State.inv_takeTrap]

theorem State.inv_writeLate (s : State) (run core : Nat) (hs : s.Inv) :
    (s.writeLate run core).Inv := by
  unfold State.writeLate
  grind [State.inv_clearTags, State.inv_setBytes, State.inv_setPlanAt]

theorem State.inv_owe (s : State) (core : Nat) (p : Parked) (f : BitVec 8 × Word) (hs : s.Inv) :
    (s.owe core p f).Inv := by
  unfold State.owe
  grind [State.inv_setCtxOf]

theorem State.inv_beginPhase (s : State) (core : Nat) (level : BitVec 3) (hs : s.Inv) :
    (s.beginPhase core level).Inv := by
  unfold State.beginPhase
  grind [State.inv_foldl, State.inv_count, State.inv_makeReady, State.inv_owe, State.inv_resumeSlot,
      State.inv_setCoreAt, State.inv_trace, State.inv_writeImageG]

theorem State.inv_resumeCore (s : State) (run core : Nat) (level : BitVec 3) (hs : s.Inv) :
    (s.resumeCore run core level).Inv := by
  unfold State.resumeCore
  grind [State.inv_beginPhase, State.inv_setCoreAt]

theorem State.inv_holdCore (s : State) (run core : Nat) (closed : Option (BitVec 3)) (hs : s.Inv) :
    (s.holdCore run core closed).Inv := by
  unfold State.holdCore
  grind [State.inv_setCoreAt]

theorem State.inv_takeStop (s : State) (run level at' : Nat) (members mine : List Nat) (hs : s.Inv) :
    (s.takeStop run level at' members mine).Inv := by
  unfold State.takeStop
  grind [State.inv_iff, State.inv_foldl, State.inv_holdCore, State.inv_trace, State.inv_updRun, State.inv_writeSnapshot]

theorem State.inv_close (s : State) (r : Run) (level core : Nat) (hs : s.Inv) :
    (s.close r level core).Inv := by
  unfold State.close
  have h1 := State.inv_switches _ r.id.toNat (s.members r.domain level core) level
    (State.inv_foldl _ (fun s k h => State.inv_writeLate s r.id.toNat k h) (s.members r.domain level core) _
      (State.inv_closeStep _ r.id.toNat (s.members r.domain level core) level
        (State.inv_foldl _ (fun s k h => State.inv_departAll s r.id.toNat k planFuel h)
          ((s.members r.domain level core).filter (s.waitsAt r.id.toNat level)) s hs)))
  dsimp only
  split
  · exact State.inv_takeStop _ _ _ _ _ _ h1
  · exact State.inv_foldl _ (fun s k h => State.inv_resumeCore s _ k _ h) _ _ h1

theorem State.inv_openRun (s : State) (r : Run) (core : Nat) (hs : s.Inv) :
    (s.openRun r core).Inv := by
  unfold State.openRun
  grind [State.inv_foldl, State.inv_resumeCore, State.inv_takeStop, State.inv_updRun]

theorem keeps_execSuperstepClose (run level core : Nat) (s : State) (hs : s.Inv) :
    Outcome.Keeps (execSuperstepClose run level core s) := by
  unfold execSuperstepClose
  grind [State.inv_close, State.inv_openRun, Outcome.keeps_next]

theorem keeps_planEntries (run core off n : Nat) (members : List Nat) (area : Nat × Nat) :
    (planEntries run core off n members area).Keeps := by
  mvcgen [planEntries, keeps_trap, M.keeps_forM]

theorem keeps_execXplan (f : QFields) (s : State) (hs : s.Inv) :
    Outcome.Keeps (execXplan f s) := by
  refine keeps_runInstr _ _ s hs ?_
  mvcgen [keeps_capCheck, keeps_elemAddr, keeps_need, keeps_planEntries, keeps_trap, keeps_writePlansel,
      step1] with grind [State.inv_count, State.inv_setG, State.inv_settleLocal]
end Sys2Proof.Machine
end

section
/-! The invariant: sweeps and engine commands. -/

namespace Sys2Proof.Machine
set_option Elab.async false
open Std.Do
set_option mvcgen.warning false

/-! ### Sweeps -/

theorem keeps_loadRun (fuel va n ord : Nat) : (loadRun fuel va n ord).Keeps := by
  induction fuel generalizing va n with
  | zero => exact M.keeps_pure []
  | succ fuel ih => mvcgen [loadRun, keeps_load, ih]

theorem keeps_loadNat (va n ord : Nat) :
    (loadNat va n ord).Keeps := by
  mvcgen [loadNat, keeps_loadRun]

theorem keeps_storeLines (ls : List LineStore) (ord : Nat) :
    (storeLines ls ord).Keeps := by
  mvcgen [storeLines, keeps_storeBits, M.keeps_forM]

theorem keeps_loadRow (c : Cap) (w n ord : Nat) (i0 i1 : Int) :
    (loadRow c w n ord i0 i1).Keeps := by
  mvcgen [loadRow, keeps_elemAddr, keeps_loadNat]

theorem keeps_addRow (c : Cap) (w n : Nat) (i0 i1 : Int) (x : Nat) (ls : List LineStore) :
    (addRow c w n i0 i1 x ls).Keeps := by
  mvcgen [addRow, keeps_elemAddr]

theorem keeps_storeRows (c : Cap) (w n ord : Nat) (i0 i1 : Int) (xs : List Nat) :
    (storeRows c w n ord i0 i1 xs).Keeps := by
  exact (M.keeps_foldlM _ _ _ fun ls x => keeps_addRow _ _ _ _ _ _ _).bind fun ls => keeps_storeLines _ _

theorem keeps_loadPlanes (c : Cap) (n ord : Nat) (i0 i1 : Int) :
    (loadPlanes c n ord i0 i1).Keeps := by
  mvcgen [loadPlanes, keeps_elemAddr, keeps_loadBpi, M.keeps_mapM]

theorem keeps_loadBlocks (c : Cap) (p n ord : Nat) (i0 i1 : Int) :
    (loadBlocks c p n ord i0 i1).Keeps := by
  refine M.Keeps.bind (M.keeps_mapM _ _ fun t => (keeps_elemAddr _ _ _).bind fun a => keeps_loadNat _ _ _) fun xs => ?_
  exact M.keeps_pure _

theorem keeps_tileChecks (f : MFields) (block : Bool) (i0 : Int) :
    (tileChecks f block i0).Keeps := by
  mvcgen [tileChecks, keeps_checkTile, keeps_need]

theorem keeps_tileCorners (k : TileKind) (f : MFields) (c : Cap) (i0 i1 : Int) :
    (tileCorners k f c i0 i1).Keeps := by
  mvcgen [tileCorners, keeps_accCheck]

theorem keeps_loadTileRow (f : MFields) (c : Cap) (n : Nat) (i0 i1 : Int) :
    (loadTileRow f c n i0 i1).Keeps := by
  mvcgen [loadTileRow, keeps_loadBlocks, keeps_loadPlanes, keeps_loadRow]

theorem State.inv_noPart (s : State) (hs : s.Inv) :
    (s.noPart).Inv := by
  unfold State.noPart
  grind [State.inv_setCtx]

theorem keeps_wholeLoad (x : M (Option Word)) (hx : x.Keeps) :
    (wholeLoad x).Keeps := by
  refine M.keeps_iff.2 fun s hs => ?_
  have h := M.keeps_iff.1 hx s hs
  unfold wholeLoad
  grind [State.inv_noted, State.inv_noPart]

theorem keeps_execVld (f : MFields) (s : State) (hs : s.Inv) :
    Outcome.Keeps (execVld f s) := by
  refine keeps_runInstr _ _ s hs ?_
  mvcgen [keeps_loadTileRow, keeps_tileChecks, keeps_tileCorners, keeps_wholeLoad, M.keeps_mapM, step1]

theorem keeps_vldPart (f : MFields) :
    (vldPart f).Keeps := by
  mvcgen [vldPart, keeps_loadTileRow, keeps_tileChecks, keeps_tileCorners, keeps_wholeLoad, step1]

theorem keeps_execVst (f : MFields) (s : State) (hs : s.Inv) :
    Outcome.Keeps (execVst f s) := by
  refine keeps_runInstr _ _ s hs ?_
  mvcgen [keeps_storeRows, keeps_tileChecks, keeps_tileCorners]

theorem State.inv_setVprog (s : State) (n : Nat) (hs : s.Inv) :
    (s.setVprog n).Inv := by
  unfold State.setVprog
  grind [State.inv_setSr]

theorem keeps_keeping (act : M Unit) (hact : act.Keeps) :
    (keeping act).Keeps := by
  refine M.keeps_iff.2 fun s hs => ?_
  have h := M.keeps_iff.1 hact s hs
  unfold keeping
  grind [State.inv_noted]

theorem keeps_stepsFrom (n : Nat) (body : Nat → M Unit) (hbody : ∀ i, (body i).Keeps) (k : Nat) :
    (stepsFrom n body k).Keeps := by
  induction k with
  | zero => exact M.keeps_modify _ fun s hs => State.inv_setVprog s 0 hs
  | succ k ih =>
    exact (keeps_keeping _
        ((hbody _).bind fun _ => M.keeps_modify _ fun s hs => State.inv_setVprog s _ hs)).bind fun _ => ih

theorem keeps_recorded (n : Nat) (body : Nat → M Unit) (hbody : ∀ (i : Nat), (body i).Keeps) :
    (recorded n body).Keeps := by
  mvcgen [recorded, keeps_need, keeps_stepsFrom, hbody]

theorem keeps_recordedStep (n : Nat) (body : Nat → M Unit) (hbody : ∀ (i : Nat), (body i).Keeps) :
    (recordedStep n body).Keeps := by
  mvcgen [recordedStep, keeps_keeping, keeps_need, hbody]

theorem keeps_gatherChecks (f : MFields) :
    (gatherChecks f).Keeps := by
  mvcgen [gatherChecks, keeps_needOpen, keeps_tileChecks]

theorem keeps_gatherStep (f : MFields) (s : State) (e : Nat) : (gatherStep f s e).Keeps := by
  mvcgen [gatherStep, keeps_accCheck, keeps_loadElem]

theorem keeps_scatterStep (f : MFields) (s : State) (e : Nat) : (scatterStep f s e).Keeps := by
  mvcgen [scatterStep, keeps_accCheck, keeps_storeElem]

theorem keeps_execVgather (f : MFields) (s : State) (hs : s.Inv) :
    Outcome.Keeps (execVgather f s) := by
  refine keeps_runInstr _ _ s hs ?_
  mvcgen [keeps_gatherChecks, keeps_gatherStep, keeps_recorded]

theorem keeps_execVscatter (f : MFields) (s : State) (hs : s.Inv) :
    Outcome.Keeps (execVscatter f s) := by
  refine keeps_runInstr _ _ s hs ?_
  mvcgen [keeps_gatherChecks, keeps_recorded, keeps_scatterStep]

theorem keeps_segCheck (c : Cap) (kinds : List Kind) (ok : Bool) (step : BitVec 16) (n j : Nat) :
    (segCheck c kinds ok step n j).Keeps := by
  mvcgen [segCheck, keeps_capCheck, keeps_need, M.keeps_forM]

theorem keeps_segment (f : WFields) (u : SweepUse) (p0 : Word) (rounds : Nat → Nat → Nat → Nat → Bool)
    (fn : Nat → Mode → Nat → Nat → Nat → Nat × Flags) (j : Nat) :
    (segment f u p0 rounds fn j).Keeps := by
  mvcgen [segment, keeps_loadRow, keeps_modeIf, keeps_needOpen, keeps_segCheck, keeps_storeRows]

theorem SweepOp.keeps_step (x : SweepOp) (f : WFields) (p0 : Word) (k : Nat) : (x.step f p0 k).Keeps :=
  keeps_segment f x.use p0 x.rounds x.fn k

theorem SweepOp.keeps_run (x : SweepOp) (f : WFields) (p0 : Word) :
    (SweepOp.run x f p0).Keeps := by
  mvcgen [SweepOp.run, SweepOp.keeps_step, keeps_recorded]

theorem keeps_execSwadd (f : WFields) (s : State) (hs : s.Inv) :
    Outcome.Keeps (execSwadd f s) := by
  refine keeps_runInstr _ _ s hs ?_
  mvcgen [SweepOp.keeps_run]

theorem keeps_execSwsub (f : WFields) (s : State) (hs : s.Inv) :
    Outcome.Keeps (execSwsub f s) := by
  refine keeps_runInstr _ _ s hs ?_
  mvcgen [SweepOp.keeps_run]

theorem keeps_execSwmul (f : WFields) (s : State) (hs : s.Inv) :
    Outcome.Keeps (execSwmul f s) := by
  refine keeps_runInstr _ _ s hs ?_
  mvcgen [SweepOp.keeps_run]

theorem keeps_execSwmin (f : WFields) (s : State) (hs : s.Inv) :
    Outcome.Keeps (execSwmin f s) := by
  refine keeps_runInstr _ _ s hs ?_
  mvcgen [SweepOp.keeps_run]

theorem keeps_execSwmax (f : WFields) (s : State) (hs : s.Inv) :
    Outcome.Keeps (execSwmax f s) := by
  refine keeps_runInstr _ _ s hs ?_
  mvcgen [SweepOp.keeps_run]

theorem keeps_execSwfma (f : WFields) (s : State) (hs : s.Inv) :
    Outcome.Keeps (execSwfma f s) := by
  refine keeps_runInstr _ _ s hs ?_
  mvcgen [SweepOp.keeps_run]

theorem keeps_execSwcvt (f : WFields) (s : State) (hs : s.Inv) :
    Outcome.Keeps (execSwcvt f s) := by
  refine keeps_runInstr _ _ s hs ?_
  mvcgen [SweepOp.keeps_run]

theorem keeps_execSwcopy (f : WFields) (s : State) (hs : s.Inv) :
    Outcome.Keeps (execSwcopy f s) := by
  refine keeps_runInstr _ _ s hs ?_
  mvcgen [SweepOp.keeps_run]

theorem keeps_execSwbarq (f : WFields) (s : State) (hs : s.Inv) :
    Outcome.Keeps (execSwbarq f s) := by
  refine keeps_runInstr _ _ s hs ?_
  mvcgen [SweepOp.keeps_run]

/-! ### Engines -/

theorem keeps_stepChecks (begun : Bool) (cs : List Cap) : (stepChecks begun cs).Keeps := by
  induction cs with
  | nil => exact M.keeps_pure ()
  | cons c rest ih => mvcgen [stepChecks, keeps_trap, keeps_need, ih]

theorem keeps_copyFormats (x : Engine) :
    (copyFormats x).Keeps := by
  mvcgen [copyFormats, keeps_need, keeps_needOpen]

theorem keeps_firstChecks (e : Nat) (x : Engine) :
    (firstChecks e x).Keeps := by
  mvcgen [firstChecks, keeps_copyFormats, keeps_needOpen, keeps_stepChecks]

theorem State.inv_beginCommand (s : State) (core e : Nat) (hs : s.Inv) :
    (s.beginCommand core e).Inv := by
  unfold State.beginCommand
  grind [State.inv_dropViews, State.inv_endCommand, State.inv_setCoreAt, keeps_firstChecks]

theorem keeps_attempt {α : Type} (x : M α) (hx : x.Keeps) :
    (attempt x).Keeps := by
  refine M.keeps_iff.2 fun s hs => ?_
  have h := M.keeps_iff.1 hx s hs
  unfold attempt
  grind [State.inv_noted]

theorem keeps_engineElem (c : Cap) (k : Kind) (i : Int × Int) :
    (engineElem c k i).Keeps := by
  mvcgen [engineElem, keeps_capCheck, keeps_elemAddr]

theorem keeps_elemValue (x : Engine) (sa da : Nat) :
    (elemValue x sa da).Keeps := by
  mvcgen [elemValue, keeps_load, keeps_loadCap, keeps_stcTag]

theorem keeps_elemPlace (da : Nat) :
    (elemPlace da).Keeps := by
  mvcgen [elemPlace, keeps_xl]

theorem keeps_moveElem (x : Engine) (k : Nat) (first : Option Nat) :
    (moveElem x k first).Keeps := by
  mvcgen [moveElem, keeps_elemPlace, keeps_elemValue, keeps_engineElem, keeps_load]

theorem keeps_collect (elem : Nat → Option Nat → M (Option Written)) (helem : ∀ i j, (elem i j).Keeps)
    (limit room k : Nat)
    (ms : List Written) : (collect elem limit room k ms).Keeps := by
  induction room generalizing k ms with
  | zero => exact M.keeps_pure _
  | succ room ih => mvcgen [collect, keeps_attempt, helem, ih]

theorem keeps_sendMoves (ms : List Written) :
    (sendMoves ms).Keeps := by
  mvcgen [sendMoves] with grind [State.inv_foldl, State.inv_setQueues]

theorem keeps_engineStep (e : Nat) (x : Engine) (elem : Nat → Option Nat → M (Option Written))
    (start limit size : Nat) (helem : ∀ (i : Nat) (j : Option Nat), (elem i j).Keeps) :
    (engineStep e x elem start limit size).Keeps := by
  mvcgen [engineStep, keeps_attempt, keeps_collect, keeps_sendMoves, keeps_stepChecks, helem]

theorem State.inv_stepCommand (s : State) (core e size : Nat) (after : Engine → Nat → Engine × Bool) (step : M
    (Nat × Option (BitVec 8 × Word))) (hs : s.Inv) (hstep : step.Keeps) :
    (s.stepCommand core e size after step).Inv := by
  unfold State.stepCommand
  have h := M.keeps_iff.1 hstep { s with cur := engineAgent core e } (State.inv_of_memory_eq hs rfl rfl rfl)
  dsimp only
  split <;> rename_i hx <;> rw [hx] at h <;> grind [State.inv_iff, State.inv_awaitPage, State.inv_endCommand,
      State.inv_setCoreAt, State.inv_walked]

theorem State.inv_copyStep (s : State) (core : Nat) (hs : s.Inv) :
    (s.copyStep core).Inv := by
  unfold State.copyStep
  grind [State.inv_stepCommand, keeps_engineStep, keeps_moveElem]

theorem keeps_epilogueElem (core : Nat) (x : Engine) (fmt : Nat) (i : Nat) (first : Option Nat) :
    (epilogueElem core x fmt i first).Keeps := by
  mvcgen [epilogueElem, keeps_elemPlace, keeps_engineElem]

theorem State.inv_epilogueTurn (s : State) (core : Nat) (hs : s.Inv) :
    (s.epilogueTurn core).Inv := by
  have step (x : Engine) (fmt per size : Nat) : M.Keeps (do
      let r ← engineStep 1 x (epilogueElem core x fmt) x.elem per size
      if r.2.isNone && decide (per ≤ x.elem + r.1) then
        modify (fun t => t.setMxAt core { t.mxAt core with galley := (t.mxAt core).galley.advance 1 })
      pure r) := by
    mvcgen [keeps_engineStep, keeps_epilogueElem]
  unfold State.epilogueTurn
  exact State.inv_ite (State.inv_endCommand _ _ _ _ _ _ _ _ hs)
    (State.inv_ite hs (State.inv_stepCommand _ _ _ _ _ _ hs (step _ _ _ _)))

theorem State.inv_engineTurn (s : State) (core e : Nat) (hs : s.Inv) :
    (s.engineTurn core e).Inv := by
  unfold State.engineTurn
  grind [State.inv_beginCommand, State.inv_copyStep, State.inv_epilogueTurn]

theorem State.inv_engineTurns (core e : Nat) (mine : Nat → Bool) (k : Nat) (s : State) (hs : s.Inv) :
    (State.engineTurns core e mine k s).Inv := by
  induction k generalizing s with
  | zero => exact hs
  | succ k ih =>
    unfold State.engineTurns
    grind [State.inv_engineTurn]

theorem keeps_execCopy (core steps : Nat) (s : State) (hs : s.Inv) :
    Outcome.Keeps (execCopy core steps s) := by
  unfold execCopy
  grind [State.inv_engineTurns, Outcome.keeps_next]

theorem keeps_execGather (core steps : Nat) (s : State) (hs : s.Inv) :
    Outcome.Keeps (execGather core steps s) := by
  unfold execGather
  grind [State.inv_engineTurns, Outcome.keeps_next]

theorem keeps_execScatter (core steps : Nat) (s : State) (hs : s.Inv) :
    Outcome.Keeps (execScatter core steps s) := by
  unfold execScatter
  grind [State.inv_engineTurns, Outcome.keeps_next]

theorem keeps_execEpilogueS8 (core steps : Nat) (s : State) (hs : s.Inv) :
    Outcome.Keeps (execEpilogueS8 core steps s) := by
  unfold execEpilogueS8
  grind [State.inv_engineTurns, Outcome.keeps_next]

theorem keeps_execEpilogueZ8 (core steps : Nat) (s : State) (hs : s.Inv) :
    Outcome.Keeps (execEpilogueZ8 core steps s) := by
  unfold execEpilogueZ8
  grind [State.inv_engineTurns, Outcome.keeps_next]

theorem keeps_execEpilogueS16 (core steps : Nat) (s : State) (hs : s.Inv) :
    Outcome.Keeps (execEpilogueS16 core steps s) := by
  unfold execEpilogueS16
  grind [State.inv_engineTurns, Outcome.keeps_next]

theorem keeps_execEpilogueZ16 (core steps : Nat) (s : State) (hs : s.Inv) :
    Outcome.Keeps (execEpilogueZ16 core steps s) := by
  unfold execEpilogueZ16
  grind [State.inv_engineTurns, Outcome.keeps_next]

theorem keeps_execEpilogueS32 (core steps : Nat) (s : State) (hs : s.Inv) :
    Outcome.Keeps (execEpilogueS32 core steps s) := by
  unfold execEpilogueS32
  grind [State.inv_engineTurns, Outcome.keeps_next]

theorem keeps_execEpilogueZ32 (core steps : Nat) (s : State) (hs : s.Inv) :
    Outcome.Keeps (execEpilogueZ32 core steps s) := by
  unfold execEpilogueZ32
  grind [State.inv_engineTurns, Outcome.keeps_next]

theorem keeps_execEpilogueFp16 (core steps : Nat) (s : State) (hs : s.Inv) :
    Outcome.Keeps (execEpilogueFp16 core steps s) := by
  unfold execEpilogueFp16
  grind [State.inv_engineTurns, Outcome.keeps_next]

theorem keeps_execEpilogueBf16 (core steps : Nat) (s : State) (hs : s.Inv) :
    Outcome.Keeps (execEpilogueBf16 core steps s) := by
  unfold execEpilogueBf16
  grind [State.inv_engineTurns, Outcome.keeps_next]

theorem keeps_execEpilogueFp32 (core steps : Nat) (s : State) (hs : s.Inv) :
    Outcome.Keeps (execEpilogueFp32 core steps s) := by
  unfold execEpilogueFp32
  grind [State.inv_engineTurns, Outcome.keeps_next]

theorem keeps_execEpilogueE4m3 (core steps : Nat) (s : State) (hs : s.Inv) :
    Outcome.Keeps (execEpilogueE4m3 core steps s) := by
  unfold execEpilogueE4m3
  grind [State.inv_engineTurns, Outcome.keeps_next]

theorem keeps_execEpilogueE5m2 (core steps : Nat) (s : State) (hs : s.Inv) :
    Outcome.Keeps (execEpilogueE5m2 core steps s) := by
  unfold execEpilogueE5m2
  grind [State.inv_engineTurns, Outcome.keeps_next]

theorem State.inv_failEngine (s : State) (core e : Nat) (va : Word) (hs : s.Inv) :
    (s.failEngine core e va).Inv := by
  unfold State.failEngine
  grind [State.inv_endCommand]
end Sys2Proof.Machine
end

section
/-! The invariant: pages, the front end and launches. -/

namespace Sys2Proof.Machine
set_option Elab.async false
open Std.Do
set_option mvcgen.warning false

/-! ### Pages -/

theorem State.inv_takeEntries (s : State) (k : PageKey) (f : State → Nat → SideEntry → State) (hs : s.Inv) (hf : ∀
    (s : State) (x : Nat) (y : SideEntry), s.Inv → (f s x y).Inv) :
    (s.takeEntries k f).Inv := by
  unfold State.takeEntries
  grind [State.inv_foldl, State.inv_takeFrom]

theorem State.inv_freeAgent (s : State) (a : Agent) (hs : s.Inv) :
    (s.freeAgent a).Inv := by
  unfold State.freeAgent
  grind [State.inv_setCtxOf]

theorem State.inv_releasePage (s : State) (k : PageKey) (hs : s.Inv) :
    (s.releasePage k).Inv := by
  unfold State.releasePage
  grind [State.inv_foldl, State.inv_freeAgent, State.inv_makeReady, State.inv_replayEntry, State.inv_setCoreAt,
      State.inv_takeEntries]

theorem State.inv_failAgent (s : State) (a : Agent) (hs : s.Inv) :
    (s.failAgent a).Inv := by
  unfold State.failAgent
  grind [State.inv_asAgent, State.inv_endRunAt, State.inv_freeAgent, State.inv_takeTrap]

theorem State.inv_setThresh (s : State) (core : Nat) (p : Parked) (x : Word) (hs : s.Inv) :
    (s.setThresh core p x).Inv := by
  unfold State.setThresh
  grind [State.inv_writeThresh]

theorem State.inv_dropParked (s : State) (core : Nat) (p : Parked) (hs : s.Inv) :
    (s.dropParked core p).Inv := by
  unfold State.dropParked
  grind [State.inv_checkArrival, State.inv_dropRecord, State.inv_setCoreAt]

theorem State.inv_failRecord (s : State) (core : Nat) (p : Parked) (hs : s.Inv) :
    (s.failRecord core p).Inv := by
  unfold State.failRecord
  grind [State.inv_dropParked, State.inv_makeReady, State.inv_setThresh]

theorem State.inv_failSaved (s : State) (core : Nat) (sv : SavedCore) (k : PageKey) (hs : s.Inv) :
    (s.failSaved core sv k).Inv := by
  unfold State.failSaved
  grind [State.inv_foldl, State.inv_dropRecord, State.inv_setCoreAt, State.inv_setThresh]

theorem State.inv_failPage (s : State) (k : PageKey) (hs : s.Inv) :
    (s.failPage k).Inv := by
  unfold State.failPage
  grind [State.inv_foldl, State.inv_defer, State.inv_failAgent, State.inv_failEngine, State.inv_failFetches,
      State.inv_failRecord, State.inv_failSaved, State.inv_takeEntries]

theorem State.inv_rekeyRecords (s : State) (k : PageKey) (new : Nat) (hs : s.Inv) :
    (s.rekeyRecords k new).Inv := by
  unfold State.rekeyRecords
  grind [State.inv_foldl, State.inv_setThresh]

theorem State.inv_tableAt (s : State) (tenant e level : Nat) (hs : s.Inv) (x : Nat) (t : State)
    (ht : s.tableAt tenant e level = some (x, t)) : t.Inv := by
  unfold State.tableAt at ht
  grind [State.inv_hwWord, State.inv_setTenant, State.inv_writeBy]

theorem State.inv_leafPlace (s : State) (tenant va : Nat) (hs : s.Inv) (x : Nat) (t : State)
    (ht : s.leafPlace tenant va = some (x, t)) : t.Inv := by
  unfold State.leafPlace at ht
  split at ht
  · cases ht
  · rename_i t2 s1 h1
    have hs1 := State.inv_tableAt s _ _ _ hs _ _ h1
    dsimp only at ht
    split at ht
    · cases ht; exact hs1
    · split at ht
      · cases ht
      · rename_i h2
        cases ht
        exact State.inv_tableAt _ _ _ _ hs1 _ _ h2

theorem State.inv_backPage (s : State) (tenant vpage : Nat) (hs : s.Inv) (t : State)
    (ht : s.backPage tenant vpage = some t) : t.Inv := by
  unfold State.backPage at ht
  grind [State.inv_hwWord, State.inv_leafPlace, State.inv_setTenant]

theorem State.inv_dropRequest (s : State) (epoch : Nat) (hs : s.Inv) :
    (s.dropRequest epoch).Inv :=
  State.inv_of_memory_eq hs rfl rfl rfl

theorem State.inv_discardAnswer (s : State) (hs : s.Inv) :
    (s.discardAnswer).Inv :=
  State.inv_of_memory_eq hs rfl rfl rfl

theorem State.inv_discardRequest (s : State) (r : PageRequest) (hs : s.Inv) :
    (s.discardRequest r).Inv := by
  unfold State.discardRequest
  grind [State.inv_discardAnswer, State.inv_dropRequest, State.inv_raise]

theorem State.inv_renewRequest (s : State) (r : PageRequest) (hs : s.Inv) :
    (s.renewRequest r).Inv := by
  unfold State.renewRequest
  grind [State.inv_iff, State.inv_dropRequest, State.inv_rekeyRecords]

theorem State.inv_answer (s : State) (r : PageRequest) (ok : Bool) (hs : s.Inv) :
    (s.answer r ok).Inv := by
  unfold State.answer
  grind [State.inv_dropRequest, State.inv_failPage, State.inv_releasePage, State.inv_renewRequest]

theorem keeps_execPageAnswer (epoch : Nat) (ok : Bool) (s : State) (hs : s.Inv) :
    Outcome.Keeps (execPageAnswer epoch ok s) := by
  unfold execPageAnswer
  grind [State.inv_answer, State.inv_backPage, State.inv_discardAnswer, State.inv_discardRequest, Outcome.keeps_next]

theorem keeps_execPageRequestTimeout (epoch : Nat) (s : State) (hs : s.Inv) :
    Outcome.Keeps (execPageRequestTimeout epoch s) := by
  unfold execPageRequestTimeout
  grind [State.inv_answer, State.inv_discardRequest, Outcome.keeps_next]

theorem State.inv_settlePage (s : State) (tenant lo hi : Nat) (hs : s.Inv) :
    (s.settlePage tenant lo hi).Inv := by
  unfold State.settlePage
  grind [State.inv_foldl, State.inv_flush]

theorem State.inv_tellShootdown (s : State) (va : Nat) (hs : s.Inv) :
    (s.tellShootdown va).Inv := by
  unfold State.tellShootdown
  grind [State.inv_foldl, State.inv_sendItems]

theorem State.inv_shootDown (s : State) (tenant va : Nat) (hs : s.Inv) :
    (s.shootDown tenant va).Inv := by
  unfold State.shootDown
  grind [State.inv_iff, State.inv_settlePage, State.inv_tellShootdown]

theorem keeps_execShootdown (tenant va : Nat) (s : State) (hs : s.Inv) :
    Outcome.Keeps (execShootdown tenant va s) := by
  unfold execShootdown
  grind [State.inv_shootDown, Outcome.keeps_next]

theorem State.inv_setMigration (s : State) (m : Migration) (next : MigrationPhase) (hs : s.Inv) :
    (s.setMigration m next).Inv :=
  State.inv_of_memory_eq hs rfl rfl rfl

theorem keeps_execPageMigration (tenant va newPage : Nat) (phase : MigrationPhase) (s : State) (hs : s.Inv) :
    Outcome.Keeps (execPageMigration tenant va newPage phase s) := by
  unfold execPageMigration
  grind [State.inv_iff, State.inv_copyPage, State.inv_hwWord, State.inv_releasePage, State.inv_securityEvent,
      State.inv_setMigration, State.inv_shootDown, Outcome.keeps_next]

theorem State.inv_migrateRange (s : State) (run k die poff : Nat) (chmask : BitVec 12) (hs : s.Inv) :
    (s.migrateRange run k die poff chmask).Inv := by
  unfold State.migrateRange
  grind [State.inv_foldl, State.inv_copyPage, State.inv_securityEvent, State.inv_updRun]

theorem keeps_execHotPageList (die chan : Nat) (s : State) (hs : s.Inv) :
    Outcome.Keeps (execHotPageList die chan s) := by
  unfold execHotPageList
  grind [State.inv_iff, State.inv_foldl, State.inv_setSlice, State.inv_writeBy, Outcome.keeps_next]

theorem keeps_execRefreshWindow (die bank : Nat) (s : State) (hs : s.Inv) :
    Outcome.Keeps (execRefreshWindow die bank s) := by
  unfold execRefreshWindow
  grind [State.inv_setDie, Outcome.keeps_next]

theorem keeps_execSliceControl (die slice tenant : Nat) (shared : Bool) (s : State) (hs : s.Inv) :
    Outcome.Keeps (execSliceControl die slice tenant shared s) := by
  unfold execSliceControl
  grind [State.inv_setSlice, Outcome.keeps_next]

theorem State.inv_endOwned (s : State) (e : ErrorReport) (run : Nat) (hs : s.Inv) :
    (s.endOwned e run).Inv := by
  unfold State.endOwned
  grind [State.inv_logError, State.inv_stopRun, State.inv_updRun]

theorem State.inv_retireWay (s : State) (e : ErrorReport) (hs : s.Inv) :
    (s.retireWay e).Inv := by
  unfold State.retireWay
  grind [State.inv_foldl, State.inv_logError, State.inv_setSlice]

theorem State.inv_retirePage (s : State) (addr : Nat) (hs : s.Inv) :
    (s.retirePage addr).Inv := by
  unfold State.retirePage
  grind [State.inv_iff]

theorem State.inv_l2Error (s : State) (e : ErrorReport) (hs : s.Inv) :
    (s.l2Error e).Inv := by
  unfold State.l2Error
  grind [State.inv_foldl, State.inv_endOwned, State.inv_logError, State.inv_retirePage, State.inv_retireWay,
      State.inv_setPoison, State.inv_setSlice]

theorem State.inv_spoil (s : State) (e : ErrorReport) (hs : s.Inv) :
    (s.spoil e).Inv := by
  unfold State.spoil
  split
  · exact State.inv_foldl _ (fun s i h => State.inv_setPoison s _ _ h) _ _ hs
  · exact State.inv_l2Error s e hs
  · exact State.inv_setPoison s _ _ hs
  · exact State.inv_setPoison s _ _ hs
  · exact State.inv_setCoreAt s _ _ hs
  · exact State.inv_endRunAt s _ _ _ _ hs
  · exact hs

theorem keeps_execMemoryError (e : ErrorReport) (s : State) (hs : s.Inv) :
    Outcome.Keeps (execMemoryError e s) := by
  unfold execMemoryError
  grind [State.inv_logError, State.inv_spoil, Outcome.keeps_next]

theorem keeps_execSweepPassBegin (s : State) (hs : s.Inv) :
    Outcome.Keeps (execSweepPassBegin s) := by
  unfold execSweepPassBegin
  grind [State.inv_iff, State.inv_foldl, State.inv_putLease, Outcome.keeps_next]

theorem State.inv_sweepSlice (s : State) (d n : Nat) (ls : List Nat) (hs : s.Inv) :
    (s.sweepSlice d n ls).Inv := by
  unfold State.sweepSlice
  grind [State.inv_foldl, State.inv_refreshHeld, State.inv_setCtxOf, State.inv_setTag, State.inv_sweep, State.inv_touch]

theorem State.inv_sweepPart (s : State) (d n : Nat) (hs : s.Inv) :
    (s.sweepPart d n).Inv := by
  unfold State.sweepPart
  grind [State.inv_iff, State.inv_sweep, State.inv_sweepSlice]

theorem keeps_execSweepPassEnd (s : State) (hs : s.Inv) :
    Outcome.Keeps (execSweepPassEnd s) := by
  unfold execSweepPassEnd
  grind [State.inv_sweep, Outcome.keeps_next]

/-! ### The front end -/

theorem keeps_execQueueShadowWrite (q word : Nat) (value : BitVec 64) (s : State) (hs : s.Inv) :
    Outcome.Keeps (execQueueShadowWrite q word value s) := by
  unfold execQueueShadowWrite
  grind [State.inv_setQueue, Outcome.keeps_next]

theorem keeps_execQueueDestroy (q : Nat) (s : State) (hs : s.Inv) :
    Outcome.Keeps (execQueueDestroy q s) := by
  unfold execQueueDestroy
  grind [State.inv_setQueue, Outcome.keeps_next]

theorem State.inv_queueError (s : State) (q : Nat) (err : Nat) (index : Nat) (hs : s.Inv) :
    (s.queueError q err index).Inv := by
  unfold State.queueError
  grind [State.inv_raise, State.inv_setQueue]

theorem State.inv_guardStop (s : State) (hart addr level : Nat) (hs : s.Inv) :
    (s.guardStop hart addr level).Inv := by
  unfold State.guardStop
  grind [State.inv_setHart]

theorem State.inv_noteMiss (s : State) (k : Client) (e : Miss) (hs : s.Inv) : (s.noteMiss k e).Inv := by
  cases e <;> simp only [State.noteMiss] <;> grind [State.inv_guardStop, State.inv_securityEvent, State.inv_tableError]

theorem State.inv_packetMiss (s : State) (q index : Nat) (e : Miss) (hs : s.Inv) :
    (s.packetMiss q index e).Inv := by
  unfold State.packetMiss
  grind [State.inv_noteMiss, State.inv_queueError]

theorem State.inv_walkedFor (s : State) (k : Client) (va : Nat) (hs : s.Inv) :
    (s.walkedFor k va).Inv := by
  unfold State.walkedFor
  grind [State.inv_foldl, State.inv_touch]

theorem State.inv_readPiece (s : State) (k : Client) (nonAlloc : Bool) (va n : Nat) (hs : s.Inv) (bs : List Byte)
    (b : Bool) (t : State)
    (ht : s.readPiece k nonAlloc va n = .ok (bs, b, t)) : t.Inv := by
  unfold State.readPiece at ht
  grind [State.inv_asksBytes, State.inv_readHome, State.inv_walkedFor]

theorem State.inv_readFor (s : State) (k : Client) (nonAlloc : Bool) (granules n va : Nat) (hs : s.Inv) (bs : List Byte)
    (b : Bool) (t : State) (ht : s.readFor k nonAlloc granules n va = .ok (bs, b, t)) : t.Inv := by
  induction granules generalizing s n va bs b with
  | zero => cases ht; exact hs
  | succ g ih =>
    unfold State.readFor at ht
    grind [State.inv_readPiece]

theorem State.inv_bytesFor (s : State) (k : Client) (n va : Nat) (hs : s.Inv) (bs : List Byte) (t : State)
    (ht : s.bytesFor k n va = .ok (bs, t)) : t.Inv := by
  unfold State.bytesFor at ht
  grind [State.inv_readFor]

theorem State.inv_push (s : State) (p : Piece) (hs : s.Inv) :
    (s.push p).Inv := by
  unfold State.push
  grind [State.inv_setQueues]

theorem State.inv_putFor (s : State) (k : Client) (va pa : Nat) (rpl : Bool) (bs : List Byte) (poison : BitVec 2)
    (hs : s.Inv) :
    (s.putFor k va pa rpl bs poison).Inv := by
  unfold State.putFor
  grind [State.inv_push, State.inv_walkedFor]

theorem State.inv_storeFor (s : State) (k : Client) (va : Nat) (bs : List Byte) (hs : s.Inv) (t : State)
    (ht : s.storeFor k va bs = .ok t) : t.Inv := by
  unfold State.storeFor at ht
  grind [State.inv_putFor, State.inv_take]

theorem State.inv_counterFor (s : State) (k : Client) (va inc : Word) (hs : s.Inv) (t : State)
    (ht : s.counterFor k va inc = .ok t) : t.Inv := by
  unfold State.counterFor at ht
  grind [State.inv_dropPorts, State.inv_flush, State.inv_performCounter, State.inv_walkedFor]

theorem State.inv_queueBytes (s : State) (q n va : Nat) (hs : s.Inv) (bs : List Byte) (t : State)
    (ht : s.queueBytes q n va = .ok (bs, t)) : t.Inv := by
  unfold State.queueBytes at ht
  grind [State.inv_bytesFor]

theorem State.inv_takePacket (s : State) (q slot pa : Nat) (rpl : Bool) (p : Packet) (hs : s.Inv) :
    (s.takePacket q slot pa rpl p).Inv := by
  unfold State.takePacket
  grind [State.inv_putFor, State.inv_setQueue]

theorem State.inv_publish (s : State) (q ridx : Nat) (hs : s.Inv) (t : State)
    (ht : s.publish q ridx = .ok t) : t.Inv := by
  unfold State.publish at ht
  dsimp only at ht
  cases h : s.storeFor (s.client q) ridx (leBytes 8 (s.queue q).ridx.toNat) with
  | error e => rw [h] at ht; cases ht
  | ok u => rw [h] at ht; cases ht; exact State.inv_setQueue _ _ _ (State.inv_storeFor _ _ _ _ hs _ h)

theorem State.inv_loadSlot (s : State) (q slot pa : Nat) (rpl : Bool) (ridx : Nat) (bs : List Byte) (hs : s.Inv) :
    (s.loadSlot q slot pa rpl ridx bs).Inv := by
  unfold State.loadSlot
  grind [State.inv_packetMiss, State.inv_publish, State.inv_queueError, State.inv_setQueue, State.inv_takePacket]

theorem keeps_execPacketLoad (q : Nat) (s : State) (hs : s.Inv) :
    Outcome.Keeps (execPacketLoad q s) := by
  unfold execPacketLoad
  dsimp only
  split
  · exact (Outcome.keeps_next _).2 hs
  split
  · exact (Outcome.keeps_next _).2 (State.inv_packetMiss _ _ _ _ hs)
  rename_i user t hu
  have ht := State.inv_queueBytes _ _ _ _ hs _ _ hu
  split
  · exact (Outcome.keeps_next _).2 (State.inv_queueError _ _ _ _ ht)
  split
  · exact (Outcome.keeps_next _).2 ht
  split
  · exact (Outcome.keeps_next _).2 (State.inv_loadSlot _ _ _ _ _ _ _ (State.inv_queueBytes _ _ _ _ ht _ _ ‹_›))
  · exact (Outcome.keeps_next _).2 (State.inv_packetMiss _ _ _ _ ht)
  · exact (Outcome.keeps_next _).2 (State.inv_packetMiss _ _ _ _ ht)

theorem keeps_execDoorbell (q : Nat) (s : State) (hs : s.Inv) :
    Outcome.Keeps (execDoorbell q s) := by
  unfold execDoorbell
  grind [State.inv_dropPorts, State.inv_flush, State.inv_setQueue, Outcome.keeps_next]

theorem State.inv_completePacket (s : State) (q : Nat) (p : Packet) (hs : s.Inv) :
    (s.completePacket q p).Inv := by
  unfold State.completePacket
  grind [State.inv_raise, State.inv_setQueue]

theorem keeps_execWaitctr (q : Nat) (s : State) (hs : s.Inv) :
    Outcome.Keeps (execWaitctr q s) := by
  unfold execWaitctr
  grind [State.inv_completePacket, State.inv_dropViews, State.inv_packetMiss, State.inv_queueError,
      State.inv_readPiece, Outcome.keeps_next]

theorem keeps_execSignal (q : Nat) (s : State) (hs : s.Inv) :
    Outcome.Keeps (execSignal q s) := by
  unfold execSignal
  grind [State.inv_completePacket, State.inv_counterFor, State.inv_packetMiss, Outcome.keeps_next]

theorem State.inv_copyChunk (s : State) (q : Nat) (p : Packet) (hs : s.Inv) (t : State)
    (ht : s.copyChunk q p = .ok (some t)) : t.Inv := by
  unfold State.copyChunk at ht
  grind [State.inv_putFor, State.inv_readFor, State.inv_setQueue]

theorem State.inv_copyRun (s : State) (q : Nat) (p : Packet) (n : Nat) (hs : s.Inv) : (s.copyRun q p n).1.Inv := by
  induction n generalizing s with
  | zero => exact hs
  | succ n ih =>
    unfold State.copyRun
    grind [State.inv_copyChunk]

theorem State.inv_holdStores (s : State) (q : Nat) (ds : List Nat) (hs : s.Inv) :
    (s.holdStores q ds).Inv := by
  unfold State.holdStores
  grind [State.inv_foldl, State.inv_setDie, State.inv_setQueue]

theorem State.inv_endCopy (s : State) (q : Nat) (p : Packet) (hs : s.Inv) :
    (s.endCopy q p).Inv := by
  unfold State.endCopy
  grind [State.inv_completePacket, State.inv_counterFor, State.inv_flush, State.inv_packetMiss]

theorem State.inv_copyParts (s : State) (q : Nat) (p : Packet) (n : Nat) (hs : s.Inv) :
    (s.copyParts q p n).Inv := by
  unfold State.copyParts
  grind [State.inv_copyRun, State.inv_endCopy, State.inv_holdStores, State.inv_packetMiss]

theorem keeps_execCopyPacket (q : Nat) (s : State) (hs : s.Inv) :
    Outcome.Keeps (execCopyPacket q s) := by
  unfold execCopyPacket
  grind [State.inv_copyParts, Outcome.keeps_next]

theorem State.inv_hartStep (s : State) (hart : Nat) (hs : s.Inv) :
    (s.hartStep hart).Inv := by
  unfold State.hartStep
  grind [State.inv_copyParts]

theorem keeps_execMarker (q : Nat) (s : State) (hs : s.Inv) :
    Outcome.Keeps (execMarker q s) := by
  unfold execMarker
  grind [State.inv_completePacket, State.inv_trace, State.inv_traceWrite, Outcome.keeps_next]

/-! ### Launches -/

theorem State.inv_writeCaps (s : State) (a : Nat) (cs : List Cap) (hs : s.Inv) : (s.writeCaps a cs).Inv := by
  induction cs generalizing s a with
  | nil => exact hs
  | cons c rest ih => exact ih _ _ (State.inv_writeCap s a c hs)

theorem State.inv_launchCore (s : State) (l : LaunchPlan) (id : Word) (prio : BitVec 2) (core : Nat) (hs : s.Inv) :
    (s.launchCore l id prio core).Inv := by
  unfold State.launchCore
  grind [State.inv_foldl, State.inv_setCoreAt, State.inv_setCtxOf, State.inv_writeCaps, State.inv_writeHome]

theorem State.inv_writeColophon (s : State) (k : Client) (colo : Nat) (ws : List Word) (hs : s.Inv) (t : State)
    (ht : s.writeColophon k colo ws = .ok t) : t.Inv := by
  unfold State.writeColophon at ht
  simp only [bind, Except.bind] at ht
  repeat' split at ht
  all_goals cases ht
  rename_i h1 _ _ h2
  exact State.inv_of_memory_eq (State.inv_storeFor _ _ _ _ (State.inv_storeFor _ _ _ _ hs _ h1) _ h2) rfl rfl rfl

theorem State.inv_addDone (s : State) (k : Client) (donectr : Word) (hs : s.Inv) (t : State)
    (ht : s.addDone k donectr = .ok t) : t.Inv := by
  unfold State.addDone at ht
  grind [State.inv_counterFor]

theorem State.inv_orMiss (s : State) (k : Client) (x : Except Miss State) (hs : s.Inv) (hx : ∀ t, x = .ok t → t.Inv) :
    (s.orMiss k x).Inv := by
  cases x with
  | ok t => exact hx t rfl
  | error e => exact State.inv_noteMiss s k e hs

theorem State.inv_report (s : State) (q gen : Nat) (k : Client) (index : Word) (event : Bool) (colo donectr : Word)
    (ws : List Word) (hs : s.Inv) :
    (s.report q gen k index event colo donectr ws).Inv := by
  unfold State.report
  grind [State.inv_addDone, State.inv_orMiss, State.inv_queueError, State.inv_raise, State.inv_setQueue,
      State.inv_writeColophon]

theorem State.inv_refuse (s : State) (q gen : Nat) (k : Client) (p : Packet) (hs : s.Inv) :
    (s.refuse q gen k p).Inv := by
  unfold State.refuse
  grind [State.inv_report]

theorem State.inv_startGateways (s : State) (r : Run) (hs : s.Inv) :
    (s.startGateways r).Inv := by
  unfold State.startGateways
  grind [State.inv_foldl, State.inv_setCtxOf]

theorem State.inv_startRunOn (s : State) (r : Run) (l : LaunchPlan) (hs : s.Inv) :
    (s.startRunOn r l).Inv := by
  unfold State.startRunOn
  grind [State.inv_foldl, State.inv_launchCore, State.inv_startGateways]

theorem State.inv_giveMicrocode (s : State) (run kind va : Nat) (hs : s.Inv) :
    (s.giveMicrocode run kind va).Inv := by
  unfold State.giveMicrocode
  grind [State.inv_foldl, State.inv_noteMiss, State.inv_setCoreAt, State.inv_setCtxOf, State.inv_startGateways,
      State.inv_updRun]

theorem State.inv_readLaunchAt (s : State) (k : Client) (nonAlloc : Bool) (n va : Nat) (hs : s.Inv) :
    (s.readLaunchAt k nonAlloc n va).Inv := by
  unfold State.readLaunchAt
  grind [State.inv_readFor]

theorem State.inv_readLaunch (s : State) (k : Client) (p : Packet) (hs : s.Inv) :
    (s.readLaunch k p).Inv := by
  unfold State.readLaunch
  grind [State.inv_readLaunchAt]

theorem State.inv_refuseLaunch (s : State) (q gen : Nat) (k : Client) (p : Packet) (e : Miss) (hs : s.Inv) :
    (s.refuseLaunch q gen k p e).Inv := by
  unfold State.refuseLaunch
  grind [State.inv_noteMiss, State.inv_readLaunch, State.inv_refuse]

theorem keeps_execLaunch (q : Nat) (s : State) (hs : s.Inv) :
    Outcome.Keeps (execLaunch q s) := by
  unfold execLaunch
  grind [State.inv_iff, State.inv_readLaunch, State.inv_refuseLaunch, State.inv_startRunOn, Outcome.keeps_next]

theorem State.inv_drainRun (s : State) (run : Nat) (hs : s.Inv) :
    (s.drainRun run).Inv := by
  unfold State.drainRun
  grind [State.inv_foldl, State.inv_flush]

theorem State.inv_finishRun (s : State) (r : Run) (status : BitVec 4) (hs : s.Inv) :
    (s.finishRun r status).Inv := by
  unfold State.finishRun
  grind [State.inv_iff, State.inv_drainRun, State.inv_report]

theorem keeps_execRunEnd (run : Nat) (s : State) (hs : s.Inv) :
    Outcome.Keeps (execRunEnd run s) := by
  unfold execRunEnd
  grind [State.inv_finishRun, State.inv_stopRun, Outcome.keeps_next]

theorem keeps_execHostKill (run : Nat) (s : State) (hs : s.Inv) :
    Outcome.Keeps (execHostKill run s) := by
  unfold execHostKill
  grind [State.inv_stopRun, Outcome.keeps_next]
end Sys2Proof.Machine
end

section
/-! The invariant: links, power, monitors, pairs, pre-emption, replay and debug events. -/

namespace Sys2Proof.Machine
set_option Elab.async false
open Std.Do
set_option mvcgen.warning false

/-! ### Links -/

theorem State.inv_setEnds (s : State) (p : Port) (f : Link → Link) (hs : s.Inv) :
    (s.setEnds p f).Inv := by
  unfold State.setEnds
  grind [State.inv_foldl, State.inv_setLink]

theorem State.inv_tellEpochs (s : State) (p : Port) (hs : s.Inv) :
    (s.tellEpochs p).Inv := by
  unfold State.tellEpochs
  grind [State.inv_setEnds]

theorem State.inv_setModule (s : State) (p : Port) (i : BitVec 2) (m : LinkModule) (hs : s.Inv) :
    (s.setModule p i m).Inv := by
  unfold State.setModule
  grind [State.inv_setLink]

theorem State.inv_sendFlit (s : State) (p : Port) (i : BitVec 2) (hs : s.Inv) :
    (s.sendFlit p i).Inv := by
  unfold State.sendFlit
  grind [State.inv_setModule]

theorem State.inv_sortFlit (s : State) (p : Port) (i : BitVec 2) (f : Flit) (hs : s.Inv) :
    (s.sortFlit p i f).Inv := by
  unfold State.sortFlit
  grind [State.inv_iff, State.inv_setLink, State.inv_setModule]

theorem State.inv_askReplay (s : State) (p : Port) (i : BitVec 2) (n : BitVec 12) (hs : s.Inv) :
    (s.askReplay p i n).Inv := by
  unfold State.askReplay
  grind [State.inv_setModule]

theorem keeps_execFlitReceive (p : Port) (x : FlitArrival) (s : State) (hs : s.Inv) :
    Outcome.Keeps (execFlitReceive p x s) := by
  unfold execFlitReceive
  grind [State.inv_askReplay, State.inv_logError, State.inv_setModule, State.inv_sortFlit, Outcome.keeps_next]

theorem State.inv_reaches (s : State) (die : Nat) (x : Arrival) (hs : s.Inv) :
    (s.reaches die x).Inv := by
  unfold State.reaches
  grind [State.inv_setDie]

theorem State.inv_takeRequest (s : State) (p : Port) (hs : s.Inv) :
    (s.takeRequest p).Inv := by
  unfold State.takeRequest
  grind [State.inv_reaches, State.inv_sendItems, State.inv_setLink]

theorem keeps_execLinkRetrain (p : Port) (s : State) (hs : s.Inv) :
    Outcome.Keeps (execLinkRetrain p s) := by
  unfold execLinkRetrain
  grind [State.inv_setEnds, Outcome.keeps_next]

theorem keeps_execLinkRetrainingComplete (p : Port) (s : State) (hs : s.Inv) :
    Outcome.Keeps (execLinkRetrainingComplete p s) := by
  unfold execLinkRetrainingComplete
  grind [State.inv_setEnds, State.inv_tellEpochs, Outcome.keeps_next]

theorem State.inv_setStatus (s : State) (stage : BitVec 3) (code : BitVec 8) (unit : BitVec 16) (hs : s.Inv) :
    (s.setStatus stage code unit).Inv := by
  unfold State.setStatus
  grind [State.inv_iff, State.inv_raise]

theorem State.inv_terminate (s : State) (p : Run → Bool) (hs : s.Inv) :
    (s.terminate p).Inv := by
  unfold State.terminate
  grind [State.inv_foldl, State.inv_stopRun]

theorem keeps_execLinkDown (p : Port) (s : State) (hs : s.Inv) :
    Outcome.Keeps (execLinkDown p s) := by
  unfold execLinkDown
  grind [State.inv_raise, State.inv_setEnds, State.inv_setStatus, State.inv_terminate, Outcome.keeps_next]

theorem State.inv_refuseToward (s : State) (die : Nat) (hs : s.Inv) :
    (s.refuseToward die).Inv := by
  unfold State.refuseToward
  grind [State.inv_iff, State.inv_foldl, State.inv_defer, State.inv_failAtomic, State.inv_securityEvent,
      State.inv_setQueues]

theorem State.inv_resetDie (s : State) (die : Nat) (hs : s.Inv) :
    (s.resetDie die).Inv := by
  unfold State.resetDie
  grind [State.inv_iff, State.inv_foldl, State.inv_dropViews, State.inv_refuseToward, State.inv_setDie,
      State.inv_setEnds, State.inv_tellEpochs, State.inv_wakeWatches]

theorem keeps_execDieReset (die : Nat) (s : State) (hs : s.Inv) :
    Outcome.Keeps (execDieReset die s) := by
  unfold execDieReset
  grind [State.inv_foldl, State.inv_finishStop, State.inv_resetDie, State.inv_terminate, Outcome.keeps_next]

theorem keeps_execAcceptanceWindowWrite (card k : Nat) (w : AcceptWindow) (s : State) (hs : s.Inv) :
    Outcome.Keeps (execAcceptanceWindowWrite card k w s) := by
  unfold execAcceptanceWindowWrite
  grind [State.inv_setCard, Outcome.keeps_next]

theorem keeps_execBlockQueueLimit (p : Port) (limit : BitVec 64) (s : State) (hs : s.Inv) :
    Outcome.Keeps (execBlockQueueLimit p limit s) := by
  unfold execBlockQueueLimit
  grind [State.inv_setBytes, Outcome.keeps_next]

theorem keeps_execBlockQueueTake (p : Port) (s : State) (hs : s.Inv) :
    Outcome.Keeps (execBlockQueueTake p s) := by
  unfold execBlockQueueTake
  grind [State.inv_iff, State.inv_setBytes, Outcome.keeps_next]

/-! ### Power -/

theorem keeps_execPowerCEntry (core : Nat) (s : State) (hs : s.Inv) :
    Outcome.Keeps (execPowerCEntry core s) := by
  unfold execPowerCEntry
  grind [State.inv_setCoreAt, Outcome.keeps_next]

theorem keeps_execPowerCExit (core : Nat) (s : State) (hs : s.Inv) :
    Outcome.Keeps (execPowerCExit core s) := by
  unfold execPowerCExit
  grind [State.inv_setCoreAt, Outcome.keeps_next]

theorem keeps_execPowerSEntry (die : Nat) (s : State) (hs : s.Inv) :
    Outcome.Keeps (execPowerSEntry die s) := by
  unfold execPowerSEntry
  grind [State.inv_setDie, Outcome.keeps_next]

theorem keeps_execPowerSExit (die : Nat) (s : State) (hs : s.Inv) :
    Outcome.Keeps (execPowerSExit die s) := by
  unfold execPowerSExit
  grind [State.inv_setDie, Outcome.keeps_next]

theorem keeps_execPowerDEntry (s : State) (hs : s.Inv) :
    Outcome.Keeps (execPowerDEntry s) := by
  unfold execPowerDEntry
  grind [State.inv_iff, Outcome.keeps_next]

theorem keeps_execClockStepDown (card : Nat) (s : State) (hs : s.Inv) :
    Outcome.Keeps (execClockStepDown card s) := by
  unfold execClockStepDown
  grind [State.inv_setCard, Outcome.keeps_next]

theorem keeps_execClockStepUp (card : Nat) (s : State) (hs : s.Inv) :
    Outcome.Keeps (execClockStepUp card s) := by
  unfold execClockStepUp
  grind [State.inv_setCard, Outcome.keeps_next]

theorem State.inv_setCap (s : State) (card watts : Nat) (hs : s.Inv) :
    (s.setCap card watts).Inv := by
  unfold State.setCap
  grind [State.inv_setCard]

theorem State.inv_setDraw (s : State) (card watts package : Nat) (hs : s.Inv) :
    (s.setDraw card watts package).Inv := by
  unfold State.setDraw
  grind [State.inv_setCard]

theorem keeps_execWatchdogKick (card : Nat) (s : State) (hs : s.Inv) :
    Outcome.Keeps (execWatchdogKick card s) := by
  unfold execWatchdogKick
  grind [State.inv_setCard, Outcome.keeps_next]

theorem State.inv_forget (s : State) (r : Run) (hs : s.Inv) :
    (s.forget r).Inv := by
  unfold State.forget
  grind [State.inv_iff, State.inv_drainRun, State.inv_setQueue, State.inv_stopRun]

theorem keeps_execWatchdogExpiry (card : Nat) (s : State) (hs : s.Inv) :
    Outcome.Keeps (execWatchdogExpiry card s) := by
  unfold execWatchdogExpiry
  grind [State.inv_iff, State.inv_foldl, State.inv_forget, State.inv_raise, State.inv_setCard, Outcome.keeps_next]

theorem State.inv_rebooted (s : State) (keep : Bool) (hs : s.Inv) : (s.rebooted keep).Inv := by
  rw [State.inv_iff] at hs
  refine State.inv_foldl _ (fun s p h => State.inv_tellEpochs s p h) _ _ ((State.inv_iff _).2 ?_)
  exact ⟨Sparse.wf_filter _ _ _ hs.1, Sparse.wf_filter _ _ _ hs.2.1, Sparse.wf_filter _ _ _ hs.2.2⟩

theorem State.inv_verified (s : State) (monitorHere firmwareHere : Bool) (security : Security) (hs : s.Inv) :
    (s.verified monitorHere firmwareHere security).Inv := by
  unfold State.verified
  grind [State.inv_iff, State.inv_setStatus]

theorem keeps_execDeviceReset (monitorOk firmwareOk : Bool) (security : Security) (s : State) (hs : s.Inv) :
    Outcome.Keeps (execDeviceReset monitorOk firmwareOk security s) := by
  unfold execDeviceReset
  grind [State.inv_rebooted, State.inv_setStatus, State.inv_verified, Outcome.keeps_next]

theorem keeps_execPowerDExit (s : State) (hs : s.Inv) :
    Outcome.Keeps (execPowerDExit s) := by
  unfold execPowerDExit
  grind [State.inv_iff, State.inv_rebooted, State.inv_setStatus, Outcome.keeps_next]

theorem State.inv_setBridge (s : State) (x : LinkState) (hs : s.Inv) :
    (s.setBridge x).Inv := by
  unfold State.setBridge
  grind [State.inv_setEnds]

theorem State.inv_setClocks (s : State) (x : Clock) (hs : s.Inv) :
    (s.setClocks x).Inv := by
  unfold State.setClocks
  grind [State.inv_foldl, State.inv_setCard]

theorem splice_wf {α : Type} [DecidableEq α] (d : α) (lo hi : Nat) (xs l : Sparse α) (hlo : lo ≤ hi)
    (hk : ∀ p ∈ xs, lo ≤ p.1 ∧ p.1 < hi) (hx : Sparse.wf d xs = true) (hl : Sparse.wf d l = true) :
    Sparse.wf d (splice lo hi xs l) = true := by
  refine Sparse.wf_append d _ _ (Sparse.wf_append d _ _ (Sparse.wf_filter d l _ hl) hx ?_)
      (Sparse.wf_filter d l _ hl) ?_
  · intro p hp q hq
    have := hk q hq
    simp only [List.mem_filter, decide_eq_true_eq] at hp
    omega
  · intro p hp q hq
    simp only [List.mem_append, List.mem_filter, decide_eq_true_eq] at hp hq
    rcases hp with hp | hp
    · omega
    · have := hk p hp
      omega

theorem freshTable_wf : Sparse.wf 0 freshTable = true := by
  rw [Sparse.wf, Sparse.wfFrom_iff]
  refine ⟨fun p hp => ⟨Nat.zero_le _, ?_⟩, ?_⟩
  · obtain ⟨i, -, hi⟩ := List.mem_flatMap.1 hp
    exact of_decide_eq_true (List.mem_filter.1 hi).2
  · refine List.pairwise_flatMap.2 ⟨fun i _ => List.Pairwise.filter _ (by simp), ?_⟩
    refine List.pairwise_lt_range.imp_of_mem fun {i j} hi hj hij p hp q hq => ?_
    simp only [List.mem_filter, List.mem_cons, List.not_mem_nil, or_false, List.mem_range] at hp hq hi hj
    simp only [leasePlace] at hp hq
    rcases hp.1 with rfl | rfl <;> rcases hq.1 with rfl | rfl <;> dsimp only <;> omega

theorem State.inv_initLeases (s : State) (hs : s.Inv) : s.initLeases.Inv := by
  rw [State.inv_iff] at *
  have none (p : Nat × Bool) (hp : p ∈ ([] : Sparse Bool)) {P : Prop} : P := absurd hp List.not_mem_nil
  exact ⟨splice_wf _ _ _ _ _ (by omega) (fun p => freshTable_keys) freshTable_wf hs.1,
    splice_wf _ _ _ _ _ (by omega) (fun p hp => none p hp) rfl hs.2.1,
    splice_wf _ _ _ _ _ (by omega) (fun p hp => none p hp) rfl hs.2.2⟩

theorem keeps_execReducedService (s : State) (hs : s.Inv) :
    Outcome.Keeps (execReducedService s) := by
  unfold execReducedService
  grind [State.inv_initLeases, State.inv_setBridge, State.inv_setClocks, State.inv_setStatus, freshTable_wf,
      splice_wf, Outcome.keeps_next]

theorem keeps_execTrainingFailure (code unit : Nat) (s : State) (hs : s.Inv) :
    Outcome.Keeps (execTrainingFailure code unit s) := by
  unfold execTrainingFailure
  grind [State.inv_setStatus, Outcome.keeps_next]

theorem State.inv_endService (s : State) (hs : s.Inv) :
    (s.endService).Inv := by
  unfold State.endService
  grind [State.inv_foldl, State.inv_finishRun, State.inv_stopRun]

theorem keeps_execFullService (s : State) (hs : s.Inv) :
    Outcome.Keeps (execFullService s) := by
  unfold execFullService
  grind [State.inv_iff, State.inv_foldl, State.inv_endService, State.inv_initLeases, State.inv_setBridge,
      State.inv_setCard, State.inv_setClocks, State.inv_setDie, State.inv_setStatus, State.inv_writeWord,
      freshTable_wf, splice_wf, Outcome.keeps_next]

theorem keeps_execAttestation (nonce : BitVec 256) (s : State) (hs : s.Inv) :
    Outcome.Keeps (execAttestation nonce s) := by
  unfold execAttestation
  grind [State.inv_iff, State.inv_report, Outcome.keeps_next]

theorem State.inv_charge (s : State) (x : Nat × Nat) (n : Nat) (hs : s.Inv) :
    (s.charge x n).Inv := by
  unfold State.charge
  grind [State.inv_iff, State.inv_updRun]

theorem State.inv_chargeRuns (s : State) (energy sum total : Nat) (held : Sparse Nat) (act : Nat → Nat) (hs : s.Inv) :
    (s.chargeRuns energy sum total held act).Inv := by
  unfold State.chargeRuns
  grind [State.inv_iff, State.inv_foldl, State.inv_charge]

theorem State.inv_dropGone (s : State) (hs : s.Inv) :
    (s.dropGone).Inv :=
  State.inv_of_memory_eq hs rfl rfl rfl

theorem keeps_execEnergyInterval (card nanojoules : Nat) (activity : List (Nat × Nat)) (s : State) (hs : s.Inv) :
    Outcome.Keeps (execEnergyInterval card nanojoules activity s) := by
  unfold execEnergyInterval
  grind [State.inv_foldl, State.inv_chargeRuns, State.inv_dropGone, State.inv_raise, State.inv_setCard,
      Outcome.keeps_next]

theorem keeps_execHostWindowTableWrite (k : Nat) (w : HostWindow) (s : State) (hs : s.Inv) :
    Outcome.Keeps (execHostWindowTableWrite k w s) := by
  unfold execHostWindowTableWrite
  grind [State.inv_setCard, Outcome.keeps_next]

theorem State.inv_settlePlaces (s : State) (lo n : Nat) (hs : s.Inv) :
    (s.settlePlaces lo n).Inv := by
  unfold State.settlePlaces
  grind [State.inv_foldl, State.inv_flush]

theorem keeps_execAtsInvalidation (pasid hostPage : Nat) (s : State) (hs : s.Inv) :
    Outcome.Keeps (execAtsInvalidation pasid hostPage s) := by
  unfold execAtsInvalidation
  grind [State.inv_foldl, State.inv_setCard, State.inv_settlePlaces, Outcome.keeps_next]

theorem State.inv_setBar (s : State) (card log2 : Nat) (hs : s.Inv) :
    (s.setBar card log2).Inv := by
  unfold State.setBar
  grind [State.inv_setCard]

theorem State.inv_hostPiece (s : State) (card pa : Nat) (bs : List Byte) (hs : s.Inv) :
    (s.hostPiece card pa bs).Inv := by
  unfold State.hostPiece
  grind [State.inv_setQueues]

theorem State.inv_hostWrite (s : State) (card pa : Nat) (bs : List Byte) (hs : s.Inv) :
    (s.hostWrite card pa bs).Inv := by
  unfold State.hostWrite
  grind [State.inv_hostPiece, State.inv_take]

theorem keeps_execBar2Access (card offset n : Nat) (write : Option (BitVec 64)) (s : State) (hs : s.Inv) :
    Outcome.Keeps (execBar2Access card offset n write s) := by
  unfold execBar2Access
  grind [State.inv_iff, State.inv_asksBytes, State.inv_hostWrite, State.inv_readHome, State.inv_securityEvent,
      Outcome.keeps_next]

/-! ### Monitors -/

theorem State.inv_reply (s : State) (r : DebugResult) (hs : s.Inv) :
    (s.reply r).Inv :=
  State.inv_of_memory_eq hs rfl rfl rfl

theorem State.inv_wakeDie (s : State) (die : Nat) (hs : s.Inv) :
    (s.wakeDie die).Inv := by
  unfold State.wakeDie
  grind [State.inv_setDie]

theorem State.inv_wake (s : State) (core : Nat) (hs : s.Inv) :
    (s.wake core).Inv := by
  unfold State.wake
  grind [State.inv_setCoreAt, State.inv_wakeDie]

theorem keeps_debugAction (vendor : Bool) (s : State) (f : State → State) (hs : s.Inv) (hf : ∀ (s : State), s.Inv →
    (f s).Inv) :
    Outcome.Keeps (debugAction vendor s f) := by
  unfold debugAction
  grind [State.inv_reply, Outcome.keeps_next]

theorem State.inv_traceLost (s : State) (die : Nat) (hs : s.Inv) :
    (s.traceLost die).Inv := by
  unfold State.traceLost
  grind [State.inv_setDie, State.inv_trace, State.inv_traceWrite]

theorem State.inv_enableTrace (s : State) (die run ring len : Nat) (hs : s.Inv) :
    (s.enableTrace die run ring len).Inv := by
  unfold State.enableTrace
  grind [State.inv_setDie, State.inv_trace, State.inv_traceLost, State.inv_wakeDie]

theorem keeps_execTraceEnable (die run ring len : Nat) (s : State) (hs : s.Inv) :
    Outcome.Keeps (execTraceEnable die run ring len s) := by
  unfold execTraceEnable
  grind [State.inv_enableTrace, State.inv_reply, State.inv_setDie, State.inv_trace,
      keeps_debugAction, Outcome.keeps_next]

theorem State.inv_traceByHyper (s : State) (die run ring len : Nat) (hs : s.Inv) :
    (s.traceByHyper die run ring len).Inv := by
  unfold State.traceByHyper
  grind [State.inv_enableTrace, State.inv_reply, State.inv_trace]

theorem State.inv_traceRead (s : State) (die index : Nat) (hs : s.Inv) :
    (s.traceRead die index).Inv := by
  unfold State.traceRead
  grind [State.inv_setDie, State.inv_trace, State.inv_traceLost]

theorem keeps_execHypervisorClaim (u : MonitorUnit) (s : State) (hs : s.Inv) :
    Outcome.Keeps (execHypervisorClaim u s) := by
  unfold execHypervisorClaim
  grind [State.inv_reply, State.inv_setCoreAt, State.inv_setDie, State.inv_trace, State.inv_wakeDie,
      keeps_debugAction, Outcome.keeps_next]

theorem keeps_execHypervisorRelease (u : MonitorUnit) (s : State) (hs : s.Inv) :
    Outcome.Keeps (execHypervisorRelease u s) := by
  unfold execHypervisorRelease
  grind [State.inv_reply, State.inv_setCoreAt, State.inv_setDie, State.inv_trace, State.inv_wakeDie,
      keeps_debugAction, Outcome.keeps_next]

theorem State.inv_sampleEvery (s : State) (die : Nat) (k : Option (BitVec 5)) (hs : s.Inv) :
    (s.sampleEvery die k).Inv := by
  unfold State.sampleEvery
  grind [State.inv_reply, State.inv_setDie, State.inv_trace]

theorem keeps_execCounterSample (core : Nat) (s : State) (hs : s.Inv) :
    Outcome.Keeps (execCounterSample core s) := by
  unfold execCounterSample
  grind [State.inv_foldl, State.inv_setDie, State.inv_trace, keeps_debugAction, Outcome.keeps_next]

theorem State.inv_gridEnd (s : State) (die k : Nat) (hs : s.Inv) :
    (s.gridEnd die k).Inv := by
  unfold State.gridEnd
  grind [State.inv_setDie, State.inv_writeBy]

theorem keeps_execRouterGridDump (die k : Nat) (s : State) (hs : s.Inv) :
    Outcome.Keeps (execRouterGridDump die k s) := by
  unfold execRouterGridDump
  grind [State.inv_gridEnd, keeps_debugAction, Outcome.keeps_next]

theorem State.inv_setGridRing (s : State) (die base buffers : Nat) (k : BitVec 5) (hs : s.Inv) :
    (s.setGridRing die base buffers k).Inv := by
  unfold State.setGridRing
  grind [State.inv_reply, State.inv_setDie]

theorem State.inv_takeDump (s : State) (die : Nat) (hs : s.Inv) :
    (s.takeDump die).Inv := by
  unfold State.takeDump
  grind [State.inv_setDie]

theorem keeps_execGuardTableRefusal (hart addr level tenant : Nat) (access : GuardAccess) (s : State) (hs : s.Inv) :
    Outcome.Keeps (execGuardTableRefusal hart addr level tenant access s) := by
  unfold execGuardTableRefusal
  grind [State.inv_guardStop, State.inv_setTenant, Outcome.keeps_next]

theorem State.inv_guardWrite (s : State) (hart k : Nat) (w : Option GuardWindow) (hs : s.Inv) :
    (s.guardWrite hart k w).Inv := by
  unfold State.guardWrite
  grind [State.inv_setHart]

theorem State.inv_guardEntry (s : State) (hart level addr : Nat) (hs : s.Inv) :
    (s.guardEntry hart level addr).Inv := by
  unfold State.guardEntry
  grind [State.inv_setHart]

theorem State.inv_enterLevel (s : State) (hart level : Nat) (hs : s.Inv) :
    (s.enterLevel hart level).Inv := by
  unfold State.enterLevel
  grind [State.inv_setHart]

theorem State.inv_resumeCaller (s : State) (hart : Nat) (hs : s.Inv) :
    (s.resumeCaller hart).Inv := by
  unfold State.resumeCaller
  grind [State.inv_setHart]

theorem State.inv_dropLevel (s : State) (hart level addr : Nat) (hs : s.Inv) :
    (s.dropLevel hart level addr).Inv := by
  unfold State.dropLevel
  grind [State.inv_setHart]

/-! ### Pairing -/

theorem State.inv_countPair (s : State) (core : Nat) (d : BitVec 512) (k : Nat) (i : Instr) (hs : s.Inv) :
    (s.countPair core d k i).Inv := by
  unfold State.countPair
  grind [State.inv_count]

/-! ### Pre-emption -/

theorem State.inv_traceDecision (s : State) (id : Word) (v : Run) (hs : s.Inv) :
    (s.traceDecision id v).Inv := by
  unfold State.traceDecision
  grind [State.inv_foldl, State.inv_trace, State.inv_traceWrite]

theorem keeps_execPreemptionDecision (q : Nat) (s : State) (hs : s.Inv) :
    Outcome.Keeps (execPreemptionDecision q s) := by
  unfold execPreemptionDecision
  grind [State.inv_iff, State.inv_foldl, State.inv_refuseLaunch, State.inv_traceDecision, State.inv_updRun,
      Outcome.keeps_next]

theorem State.inv_settleLoad (s : State) (core : Nat) (l : LoadOp) (hs : s.Inv) :
    (s.settleLoad core l).Inv := by
  unfold State.settleLoad
  grind [State.inv_endLoad, State.inv_setCtxOf, State.inv_setMxAt]

theorem State.inv_settleAwaited (s : State) (a : Agent) (hs : s.Inv) :
    (s.settleAwaited a).Inv := by
  unfold State.settleAwaited
  grind [State.inv_foldl, State.inv_deliverWhere]

theorem State.inv_endFlight (s : State) (core : Nat) (hs : s.Inv) :
    (s.endFlight core).Inv := by
  unfold State.endFlight
  grind [State.inv_iff, State.inv_foldl, State.inv_deliverMessage, State.inv_drainWhere, State.inv_setCtxOf,
      State.inv_settleAwaited, State.inv_settleLoad]

theorem keeps_execPreemptBoundary (core : Nat) (s : State) (hs : s.Inv) :
    Outcome.Keeps (execPreemptBoundary core s) := by
  unfold execPreemptBoundary
  grind [State.inv_endFlight, State.inv_setCoreAt, State.inv_stopAt, State.inv_trace,
      Outcome.keeps_next]

theorem State.inv_saveSlot (s : State) (core slot : Nat) (hs : s.Inv) :
    (s.saveSlot core slot).Inv := by
  unfold State.saveSlot
  grind [State.inv_foldl, State.inv_putLocal, State.inv_take]

theorem State.inv_saveCore (s : State) (core : Nat) (hs : s.Inv) :
    (s.saveCore core).Inv := by
  unfold State.saveCore
  grind [State.inv_putLocal]

theorem State.inv_vacate (s : State) (core : Nat) (saved : SavedCore) (hs : s.Inv) :
    (s.vacate core saved).Inv := by
  unfold State.vacate
  grind [State.inv_foldl, State.inv_setCoreAt, State.inv_setCtxOf]

theorem keeps_execSave (core : Nat) (s : State) (hs : s.Inv) :
    Outcome.Keeps (execSave core s) := by
  unfold execSave
  grind [State.inv_foldl, State.inv_asAgent, State.inv_saveCore, State.inv_saveSlot, State.inv_trace,
      State.inv_vacate, Outcome.keeps_next]

theorem keeps_execPreemptingLaunch (q : Nat) (s : State) (hs : s.Inv) :
    Outcome.Keeps (execPreemptingLaunch q s) := by
  unfold execPreemptingLaunch
  grind [State.inv_iff, State.inv_noteMiss, State.inv_refuseLaunch, State.inv_startRunOn, State.inv_updRun,
      Outcome.keeps_next]

theorem State.inv_restoreFrame (s : State) (core slot : Nat) (c : Ctx) (hs : s.Inv) :
    (s.restoreFrame core slot c).Inv := by
  unfold State.restoreFrame
  grind [State.inv_restoreSlot, State.inv_setCtxOf, State.inv_take]

theorem State.inv_unsaveCore (s : State) (core : Nat) (sv : SavedCore) (hs : s.Inv) :
    (s.unsaveCore core sv).Inv := by
  unfold State.unsaveCore
  grind [State.inv_foldl, State.inv_setBytes, State.inv_setCoreAt, State.inv_setCtxOf]

theorem State.inv_rewatch (s : State) (core : Nat) (p : Parked) (hs : s.Inv) :
    (s.rewatch core p).Inv := by
  unfold State.rewatch
  grind [State.inv_addWatch, State.inv_makeReady]

theorem State.inv_endFailed (s : State) (core e : Nat) (hs : s.Inv) :
    (s.endFailed core e).Inv := by
  unfold State.endFailed
  grind [State.inv_failEngine]

theorem State.inv_lateBegin (s : State) (core : Nat) (hs : s.Inv) :
    (s.lateBegin core).Inv := by
  unfold State.lateBegin
  grind [State.inv_beginPhase, State.inv_setCoreAt]

theorem State.inv_runAgain (s : State) (run : Nat) (hs : s.Inv) :
    (s.runAgain run).Inv := by
  unfold State.runAgain
  grind [State.inv_startGateways, State.inv_updRun]

theorem State.inv_restoreSaved (s : State) (core : Nat) (sv : SavedCore) (hs : s.Inv) :
    State.Inv ((List.range 4).foldl (fun s i => match sv.ctxs.getD i none with
      | some c => s.restoreFrame core i c
      | none => s.setCtxOf (.ctx core i) Ctx.reset) s) := by
  refine State.inv_foldl _ (fun s i h => ?_) _ _ hs
  split
  · exact State.inv_restoreFrame s core i _ h
  · exact State.inv_setCtxOf s _ _ h

theorem keeps_execRestore (core : Nat) (s : State) (hs : s.Inv) : Outcome.Keeps (execRestore core s) := by
  unfold execRestore
  split
  · split
    · exact (Outcome.keeps_next _).2 hs
    · exact (Outcome.keeps_next _).2 (State.inv_lateBegin _ _ (State.inv_endFailed _ _ _ (State.inv_endFailed _ _ _
        (State.inv_runAgain _ _ (State.inv_dropViews _ _ (State.inv_foldl _
            (fun s p h => State.inv_rewatch s core p h) _ _
          (State.inv_asAgent _ _ _ (State.inv_unsaveCore _ _ _ hs)
            fun s h => State.inv_restoreSaved s core _ h)))))))
  · exact (Outcome.keeps_next _).2 hs

/-! ### Replay -/

theorem State.inv_logIssued (old new : State) (i : Option Instr) (core slot : Nat) (hnew : new.Inv) :
    (old.logIssued new i core slot).Inv := by
  unfold State.logIssued
  grind [State.inv_count, State.inv_logItem, State.inv_setCoreAt]

theorem State.inv_replayed (old new : State) (core slot : Nat) (hold : old.Inv) (hnew : new.Inv) :
    (old.replayed new core slot).Inv := by
  unfold State.replayed
  grind [State.inv_confine, State.inv_count, State.inv_flush, State.inv_setCoreAt]

theorem State.inv_recorded (old new : State) (i : Option Instr) (hold : old.Inv) (hnew : new.Inv) :
    (old.recorded new i).Inv := by
  unfold State.recorded
  grind [State.inv_logIssued, State.inv_replayed]

theorem State.inv_beginReplay (s : State) (x : Snapshot) (hs : s.Inv) :
    (s.beginReplay x).Inv := by
  unfold State.beginReplay
  grind [State.inv_iff, State.inv_beginPhase, State.inv_confine, State.inv_count, State.inv_loadSnapshot,
      State.inv_setCoreAt]

theorem State.inv_endReplay (s : State) (core : Nat) (hs : s.Inv) :
    (s.endReplay core).Inv := by
  unfold State.endReplay
  grind [State.inv_iff, State.inv_loadSnapshot]

theorem State.inv_applyAnswers (s : State) (core : Nat) (items : List LogItem) (hs : s.Inv) :
    (s.applyAnswers core items).Inv := by
  unfold State.applyAnswers
  grind [State.inv_foldl, State.inv_answer, State.inv_setCtxOf]

theorem State.inv_replayOne (s : State) (core : Nat) (hs : s.Inv) :
    (s.replayOne core).Inv := by
  unfold State.replayOne
  grind [State.inv_iff, State.inv_foldl, State.inv_applyAnswers, State.inv_confine, State.inv_count,
      State.inv_perform, State.inv_setCoreAt, State.inv_setCtxOf]

/-! ### Debug events -/

theorem State.inv_endIdle (s : State) (run core : Nat) (hs : s.Inv) :
    (s.endIdle run core).Inv := by
  unfold State.endIdle
  grind [State.inv_foldl, State.inv_setCtxOf]

theorem keeps_execStopRequest (run level : Nat) (s : State) (hs : s.Inv) :
    Outcome.Keeps (execStopRequest run level s) := by
  unfold execStopRequest
  grind [State.inv_foldl, State.inv_endIdle, State.inv_reply, State.inv_updRun, State.inv_wake,
      keeps_debugAction, Outcome.keeps_next]

theorem State.inv_goOn (s : State) (run core : Nat) (hs : s.Inv) :
    (s.goOn run core).Inv := by
  unfold State.goOn
  grind [State.inv_beginPhase, State.inv_setCoreAt, State.inv_wake]

theorem State.inv_resumeHeld (s : State) (a : Agent) (hs : s.Inv) :
    (s.resumeHeld a).Inv := by
  unfold State.resumeHeld
  grind [State.inv_reply, State.inv_setCtxOf, State.inv_wake]

theorem keeps_execDebugResume (run : Nat) (held : Option Agent) (s : State) (hs : s.Inv) :
    Outcome.Keeps (execDebugResume run held s) := by
  unfold execDebugResume
  grind [State.inv_foldl, State.inv_goOn, State.inv_reply, State.inv_resumeHeld, State.inv_updRun, keeps_debugAction, Outcome.keeps_next]

theorem keeps_execBrkInterception (run : Nat) (armed : Bool) (s : State) (hs : s.Inv) :
    Outcome.Keeps (execBrkInterception run armed s) := by
  unfold execBrkInterception
  grind [State.inv_foldl, State.inv_reply, State.inv_updRun, State.inv_wake, keeps_debugAction,
      Outcome.keeps_next]

theorem State.inv_wakeFor (s : State) (t : DebugTarget) (hs : s.Inv) :
    (s.wakeFor t).Inv := by
  unfold State.wakeFor
  grind [State.inv_wakeDie]

theorem State.inv_debugRead (s : State) (t : DebugTarget) (hs : s.Inv) :
    (s.debugRead t).Inv := by
  unfold State.debugRead
  grind [State.inv_reply, State.inv_wake, State.inv_wakeFor]

theorem keeps_execDebugRead (t : DebugTarget) (s : State) (hs : s.Inv) :
    Outcome.Keeps (execDebugRead t s) := by
  unfold execDebugRead
  grind [State.inv_debugRead, keeps_debugAction, Outcome.keeps_next]

theorem State.inv_debugWrite (s : State) (t : DebugTarget) (core : Nat) (x : BitVec 256) (hs : s.Inv) :
    (s.debugWrite t core x).Inv := by
  unfold State.debugWrite
  grind [State.inv_setCoreAt, State.inv_setCtxOf, State.inv_writeHome]

theorem keeps_execDebugWrite (t : DebugTarget) (value : BitVec 256) (s : State) (hs : s.Inv) :
    Outcome.Keeps (execDebugWrite t value s) := by
  unfold execDebugWrite
  grind [State.inv_debugWrite, State.inv_reply, State.inv_setCoreAt, State.inv_setHart, State.inv_wake,
      State.inv_wakeFor, keeps_debugAction, Outcome.keeps_next]

theorem State.inv_clearLog (s : State) (core : Nat) (hs : s.Inv) :
    (s.clearLog core).Inv := by
  unfold State.clearLog
  grind [State.inv_setCoreAt]

theorem State.inv_setRegions (s : State) (run : Nat) (snaps logs : Option Region) (hs : s.Inv) :
    (s.setRegions run snaps logs).Inv := by
  unfold State.setRegions
  grind [State.inv_foldl, State.inv_clearLog, State.inv_reply, State.inv_updRun]

theorem keeps_execReplayArm (run : Nat) (journal : Bool) (s : State) (hs : s.Inv) :
    Outcome.Keeps (execReplayArm run journal s) := by
  unfold execReplayArm
  grind [State.inv_foldl, State.inv_clearLog, State.inv_reply, State.inv_updRun, State.inv_wake,
      keeps_debugAction, Outcome.keeps_next]

theorem State.inv_replayOn (s : State) (core : Nat) (source : Option Snapshot) (hs : s.Inv) :
    (s.replayOn core source).Inv := by
  unfold State.replayOn
  grind [State.inv_beginReplay, State.inv_reply, State.inv_wake]

theorem keeps_execReplay (core : Nat) (s : State) (hs : s.Inv) :
    Outcome.Keeps (execReplay core s) := by
  unfold execReplay
  grind [State.inv_replayOn, keeps_debugAction, Outcome.keeps_next]

theorem State.inv_replayFrom (s : State) (core : Nat) (count : BitVec 32) (hs : s.Inv) :
    (s.replayFrom core count).Inv := by
  unfold State.replayFrom
  grind [State.inv_count, State.inv_replayOn, State.inv_reply]

theorem keeps_execReplayStep (core : Nat) (s : State) (hs : s.Inv) :
    Outcome.Keeps (execReplayStep core s) := by
  unfold execReplayStep
  grind [State.inv_endReplay, State.inv_replayOne, State.inv_reply, keeps_debugAction, Outcome.keeps_next]

theorem State.inv_hartHalt (s : State) (h : Nat) (halt : Bool) (hs : s.Inv) :
    (s.hartHalt h halt).Inv := by
  unfold State.hartHalt
  grind [State.inv_reply, State.inv_setHart, State.inv_wakeFor]

theorem State.inv_hartStepBy (s : State) (h : Nat) (hs : s.Inv) :
    (s.hartStepBy h).Inv := by
  unfold State.hartStepBy
  grind [State.inv_hartStep, State.inv_reply, State.inv_setHart, State.inv_wakeFor]

/-! ### Actions -/

theorem State.inv_grantFrames (s : State) (tenant : Nat) (frames : List Nat) (hs : s.Inv) :
    (s.grantFrames tenant frames).Inv := by
  unfold State.grantFrames
  grind [State.inv_setTenant]

theorem State.inv_backOnDemand (s : State) (tenant base limit : Nat) (hs : s.Inv) :
    (s.backOnDemand tenant base limit).Inv := by
  unfold State.backOnDemand
  grind [State.inv_setTenant]

theorem State.inv_setPageHost (s : State) (tenant va : Nat) (host : Bool) (hs : s.Inv) :
    (s.setPageHost tenant va host).Inv := by
  unfold State.setPageHost
  grind [State.inv_hwWord, State.inv_leafPlace]

theorem State.inv_setHotInterval (s : State) (die chan : Nat) (k : BitVec 5) (hs : s.Inv) :
    (s.setHotInterval die chan k).Inv := by
  unfold State.setHotInterval
  grind [State.inv_setSlice]

theorem State.inv_readHotList (s : State) (die chan : Nat) (hs : s.Inv) :
    (s.readHotList die chan).Inv := by
  unfold State.readHotList
  grind [State.inv_setSlice]

theorem State.inv_setHostMap (s : State) (pasid page place : Nat) (hs : s.Inv) :
    (s.setHostMap pasid page place).Inv := by
  unfold State.setHostMap
  grind [State.inv_iff]

theorem State.inv_setFlash (s : State) (x : Flash) (hs : s.Inv) :
    (s.setFlash x).Inv :=
  State.inv_of_memory_eq hs rfl rfl rfl

theorem State.inv_act (s : State) (x : Action) (hs : s.Inv) : (s.act x).Inv := by
  cases x <;> simp only [State.act] <;> grind [State.inv_backOnDemand, State.inv_count, State.inv_dropLevel,
      State.inv_enterLevel, State.inv_giveMicrocode, State.inv_grantFrames, State.inv_guardEntry,
      State.inv_guardWrite, State.inv_hartHalt, State.inv_hartStep, State.inv_hartStepBy, State.inv_migrateRange,
      State.inv_readHotList, State.inv_replayFrom, State.inv_resumeCaller, State.inv_sampleEvery,
      State.inv_sendFlit, State.inv_setBar, State.inv_setCap, State.inv_setDraw, State.inv_setFlash,
      State.inv_setGridRing, State.inv_setHostMap, State.inv_setHotInterval, State.inv_setPageHost,
      State.inv_setRegions, State.inv_setTenant, State.inv_sweepPart, State.inv_takeDump, State.inv_takeRequest,
      State.inv_traceByHyper, State.inv_traceRead]
end Sys2Proof.Machine
end

section
/-! The invariant: capabilities, floating point, memory and scalar instructions, system calls. -/

namespace Sys2Proof.Machine
set_option Elab.async false
open Std.Do
set_option mvcgen.warning false

/-! ### Capability instructions -/

theorem keeps_execCmov (d a : BitVec 5) (s : State) (hs : s.Inv) :
    Outcome.Keeps (execCmov d a s) := by
  refine keeps_runInstr _ _ s hs ?_
  mvcgen [step1]

theorem keeps_execCgetb (d a : BitVec 5) (s : State) (hs : s.Inv) :
    Outcome.Keeps (execCgetb d a s) := by
  refine keeps_runInstr _ _ s hs ?_
  mvcgen [step1]

theorem keeps_execCgete (d a k : BitVec 5) (s : State) (hs : s.Inv) :
    Outcome.Keeps (execCgete d a k s) := by
  refine keeps_runInstr _ _ s hs ?_
  mvcgen [step1]

theorem keeps_execCgets (d a k : BitVec 5) (s : State) (hs : s.Inv) :
    Outcome.Keeps (execCgets d a k s) := by
  refine keeps_runInstr _ _ s hs ?_
  mvcgen [step1]

theorem keeps_execCgetf (d a : BitVec 5) (s : State) (hs : s.Inv) :
    Outcome.Keeps (execCgetf d a s) := by
  refine keeps_runInstr _ _ s hs ?_
  mvcgen [step1]

theorem keeps_execCgetp (d a : BitVec 5) (s : State) (hs : s.Inv) :
    Outcome.Keeps (execCgetp d a s) := by
  refine keeps_runInstr _ _ s hs ?_
  mvcgen [step1]

theorem keeps_execCgetl (d a : BitVec 5) (s : State) (hs : s.Inv) :
    Outcome.Keeps (execCgetl d a s) := by
  refine keeps_runInstr _ _ s hs ?_
  mvcgen [step1]

theorem keeps_execCtag (d a : BitVec 5) (s : State) (hs : s.Inv) :
    Outcome.Keeps (execCtag d a s) := by
  refine keeps_runInstr _ _ s hs ?_
  mvcgen [step1]

theorem keeps_execCclr (d : BitVec 5) (s : State) (hs : s.Inv) :
    Outcome.Keeps (execCclr d s) := by
  refine keeps_runInstr _ _ s hs ?_
  mvcgen [step1]

theorem keeps_derivable (c : Cap) :
    (derivable c).Keeps := by
  mvcgen [derivable, keeps_need]

theorem keeps_execCperm (d a b : BitVec 5) (s : State) (hs : s.Inv) :
    Outcome.Keeps (execCperm d a b s) := by
  refine keeps_runInstr _ _ s hs ?_
  mvcgen [keeps_derivable, step1]

theorem keeps_execCfmt (d a b : BitVec 5) (s : State) (hs : s.Inv) :
    Outcome.Keeps (execCfmt d a b s) := by
  refine keeps_runInstr _ _ s hs ?_
  mvcgen [keeps_derivable, keeps_need, step1]

theorem keeps_sealerType (c : Cap) (k : Kind) :
    (sealerType c k).Keeps := by
  mvcgen [sealerType, keeps_capCheck, keeps_need]

theorem keeps_execCshut (d a b : BitVec 5) (s : State) (hs : s.Inv) :
    Outcome.Keeps (execCshut d a b s) := by
  refine keeps_runInstr _ _ s hs ?_
  mvcgen [keeps_derivable, keeps_sealerType, step1]

theorem keeps_execCopen (d a b : BitVec 5) (s : State) (hs : s.Inv) :
    Outcome.Keeps (execCopen d a b s) := by
  refine keeps_runInstr _ _ s hs ?_
  mvcgen [keeps_need, keeps_sealerType, step1]

theorem keeps_moveAligned (c : Cap) (k : Nat) (n : Int) :
    (moveAligned c k n).Keeps := by
  mvcgen [moveAligned, keeps_need, keeps_needOpen]

theorem keeps_sliceCap (d a : BitVec 4) (k : Nat) (start length : Int) :
    (sliceCap d a k start length).Keeps := by
  mvcgen [sliceCap, keeps_derivable, keeps_moveAligned, keeps_need, step1]

theorem keeps_execCslice (f : CFields) (s : State) (hs : s.Inv) :
    Outcome.Keeps (execCslice f s) := by
  refine keeps_runInstr _ _ s hs ?_
  mvcgen [keeps_sliceCap]

theorem keeps_execCslicei (f : CFields) (s : State) (hs : s.Inv) :
    Outcome.Keeps (execCslicei f s) := by
  refine keeps_runInstr _ _ s hs ?_
  mvcgen [keeps_sliceCap]

theorem keeps_shaped (c : Cap) :
    (shaped c).Keeps := by
  mvcgen [shaped, keeps_derivable, keeps_need]

theorem keeps_execCrank (f : CFields) (s : State) (hs : s.Inv) :
    Outcome.Keeps (execCrank f s) := by
  refine keeps_runInstr _ _ s hs ?_
  mvcgen [keeps_moveAligned, keeps_need, keeps_shaped, step1]

theorem keeps_execCstep (f : CFields) (s : State) (hs : s.Inv) :
    Outcome.Keeps (execCstep f s) := by
  refine keeps_runInstr _ _ s hs ?_
  mvcgen [keeps_need, keeps_needOpen, keeps_shaped, step1]

theorem keeps_execCfix (f : CFields) (s : State) (hs : s.Inv) :
    Outcome.Keeps (execCfix f s) := by
  refine keeps_runInstr _ _ s hs ?_
  mvcgen [keeps_moveAligned, keeps_need, keeps_shaped, step1]

theorem keeps_execCfree (f : CFields) (s : State) (hs : s.Inv) :
    Outcome.Keeps (execCfree f s) := by
  refine keeps_runInstr _ _ s hs ?_
  mvcgen [keeps_derivable, keeps_need, step1] with grind [State.inv_revokeAll, State.inv_setG, State.inv_wakeWatches]

theorem State.inv_popLease (s : State) (hs : s.Inv) (x : Nat) (t : State)
    (ht : s.popLease = some (x, t)) : t.Inv := by
  unfold State.popLease at ht
  grind [State.inv_iff]

theorem State.inv_mintLease (s : State) (n : Nat) (lo hi : Int) (owner parent run : BitVec 16) (hs : s.Inv) :
    (s.mintLease n lo hi owner parent run).Inv := by
  unfold State.mintLease
  grind [State.inv_putLease]

theorem keeps_execClease (f : CFields) (s : State) (hs : s.Inv) :
    Outcome.Keeps (execClease f s) := by
  refine keeps_runInstr _ _ s hs (M.Keeps.get fun s hs => ?_)
  dsimp only
  split
  · exact M.keeps_throw _
  · refine (M.keeps_modify _ fun s hs => State.inv_cacheLease s _ hs).bind fun _ => M.Keeps.get fun s hs => ?_
    split
    · exact M.keeps_step1 _ fun s hs => State.inv_setC _ _ _ (State.inv_setG _ _ _ hs)
    · exact M.keeps_step1 _ fun _ _ => State.inv_setG _ _ _ (State.inv_setC _ _ _
        (State.inv_mintLease _ _ _ _ _ _ _ (State.inv_popLease s hs _ _ ‹_›)))

theorem State.inv_zeroWindow (s : State) (hs : s.Inv) :
    (s.zeroWindow).Inv := by
  unfold State.zeroWindow
  grind [State.inv_foldl, State.inv_setCore]

theorem State.inv_enter (s : State) (f : KFields) (nextPc : Word) (hs : s.Inv) :
    (s.enter f nextPc).Inv := by
  unfold State.enter
  grind [State.inv_setCtx, State.inv_zeroWindow]

theorem keeps_execCenter (f : KFields) (s : State) (hs : s.Inv) :
    Outcome.Keeps (execCenter f s) := by
  refine keeps_runInstr _ _ s hs ?_
  mvcgen [keeps_checkTargetM, keeps_need]

/-! ### Binaries -/

theorem State.inv_unlinkLease (s : State) (m fuel prev : Nat) (hs : s.Inv) : (s.unlinkLease m fuel prev).Inv := by
  induction fuel generalizing prev with
  | zero => exact hs
  | succ fuel ih =>
    unfold State.unlinkLease
    exact State.inv_ite (State.inv_putLease s _ _ hs) (State.inv_ite hs (ih _))

theorem State.inv_takeLease (s : State) (m : Nat) (hs : s.Inv) :
    (s.takeLease m).Inv :=
  State.inv_ite (State.inv_of_memory_eq hs rfl rfl rfl) (State.inv_ite hs (State.inv_unlinkLease s m _ _ hs))

theorem State.inv_openTenant (s : State) (t : Nat) (hs : s.Inv) :
    (s.openTenant t).Inv := by
  unfold State.openTenant
  grind [State.inv_setTenant]

theorem State.inv_mapPage (s : State) (t va pa : Nat) (hs : s.Inv) (u : State)
    (ht : s.mapPage t va pa = some u) : u.Inv := by
  unfold State.mapPage at ht
  split at ht
  · split at ht
    · cases ht; exact hs
    · cases ht
  · obtain ⟨r, hr, e⟩ := Option.map_eq_some_iff.1 ht
    cases e
    exact State.inv_hwWord _ _ _ (State.inv_leafPlace s t va hs r.1 r.2 hr)

theorem State.inv_mapPages (s : State) (t va pa n : Nat) (hs : s.Inv) (u : State)
    (hu : s.mapPages t va pa n = some u) : u.Inv := by
  induction n generalizing s va pa with
  | zero => cases hu; exact hs
  | succ n ih =>
    unfold State.mapPages at hu
    grind [State.inv_mapPage]

theorem State.inv_dropL2 (s : State) (a n : Nat) (hs : s.Inv) :
    (s.dropL2 a n).Inv := by
  unfold State.dropL2
  grind [State.inv_foldl, State.inv_setSlice]

theorem State.inv_placeSection (s : State) (t : Nat) (x : Section) (hs : s.Inv) (u : State)
    (ht : s.placeSection t x = some u) : u.Inv := by
  unfold State.placeSection at ht
  obtain ⟨v, hv, e⟩ := Option.map_eq_some_iff.1 ht
  cases e
  have h1 := State.inv_mintLease _ x.lease x.va (sectionEnd x) 0 (BitVec.ofNat 16 x.lease) 0
    (State.inv_takeLease v x.lease (State.inv_mapPages _ _ _ _ _ hs _ hv))
  refine State.inv_touchAll _ _ _ _ _ (State.inv_writeHome _ _ _ ?_)
  grind [State.inv_setTenant, State.inv_dropL2]

theorem State.inv_placeSections (s : State) (t : Nat) (xs : List Section) (hs : s.Inv) (u : State)
    (hu : s.placeSections t xs = some u) : u.Inv := by
  induction xs generalizing s with
  | nil => cases hu; exact hs
  | cons x rest ih =>
    unfold State.placeSections at hu
    grind [State.inv_placeSection]

theorem State.inv_placeConst (s : State) (xs : List Section) (n : Nat) (k : CapConst) (hs : s.Inv) (t : State)
    (ht : s.placeConst xs n k = some t) : t.Inv := by
  unfold State.placeConst at ht
  grind [State.inv_writeCap]

theorem State.inv_placeConsts (s : State) (xs : List Section) (n : Nat) (ks : List CapConst) (hs : s.Inv) (u : State)
    (hu : s.placeConsts xs n ks = some u) : u.Inv := by
  induction ks generalizing s with
  | nil => cases hu; exact hs
  | cons k rest ih =>
    unfold State.placeConsts at hu
    grind [State.inv_placeConst]

theorem State.inv_loadBinary (s : State) (b : BinaryImage) (hs : s.Inv) (t : State)
    (ht : s.loadBinary b = some t) : t.Inv := by
  unfold State.loadBinary at ht
  split at ht
  · split at ht
    · exact State.inv_placeConsts _ _ _ _ (State.inv_placeSections _ _ _ (State.inv_openTenant s _ hs) _ ‹_›) _ ht
    · cases ht
  · cases ht

theorem keeps_execBinaryLoad (b : BinaryImage) (s : State) (hs : s.Inv) :
    Outcome.Keeps (execBinaryLoad b s) := by
  refine (Outcome.keeps_next _).2 ?_
  split
  · exact hs
  · cases h : s.loadBinary b with
    | none => exact hs
    | some t => exact State.inv_loadBinary s b hs t h

theorem keeps_execBinaryUnload (leases : List Nat) (s : State) (hs : s.Inv) :
    Outcome.Keeps (execBinaryUnload leases s) := by
  unfold execBinaryUnload
  grind [State.inv_iff, State.inv_revokeAll, Outcome.keeps_next]

theorem State.inv_dropData (s : State) (tenant : Nat) (hs : s.Inv) :
    (s.dropData tenant).Inv := by
  unfold State.dropData
  grind [State.inv_foldl, State.inv_dropL2]

/-! ### Floating point -/

theorem keeps_checkWins (l : List (Int × Bool)) :
    (checkWins l).Keeps := by
  mvcgen [checkWins, keeps_winCheck, keeps_winEven, M.keeps_forM]

theorem keeps_fpArith (i : Instr) (f : FFields) (op : Mode → FVal → FVal → FX × Flags) :
    (fpArith i f op).Keeps := by
  mvcgen [fpArith, keeps_checkWins, keeps_modeOf, step1] with grind [State.inv_setFlags, State.inv_setWinBits]

theorem keeps_fpFma (i : Instr) (f : FFields) :
    (fpFma i f).Keeps := by
  mvcgen [fpFma, keeps_checkWins, keeps_modeOf, step1] with grind [State.inv_setFlags, State.inv_setWinBits]

theorem keeps_fpSqrt (i : Instr) (f : FFields) :
    (fpSqrt i f).Keeps := by
  mvcgen [fpSqrt, keeps_checkWins, keeps_modeOf, step1] with grind [State.inv_setFlags, State.inv_setWinBits]

theorem keeps_fpMinMax (f : FFields) (wantMax : Bool) :
    (fpMinMax f wantMax).Keeps := by
  mvcgen [fpMinMax, keeps_checkWins, step1] with grind [State.inv_setFlags, State.inv_setWinBits]

theorem keeps_fpCompare (f : FFields) (quiet : Bool) (rel : FVal → FVal → Bool) :
    (fpCompare f quiet rel).Keeps := by
  mvcgen [fpCompare, keeps_checkWins, step1]

theorem keeps_fpClass (f : FFields) :
    (fpClass f).Keeps := by
  mvcgen [fpClass, keeps_checkWins, step1]

theorem keeps_fpSign (f : FFields) (negate : Bool) :
    (fpSign f negate).Keeps := by
  mvcgen [fpSign, keeps_checkWins, step1] with grind [State.inv_setWinBits]

theorem keeps_fpToWindow (f : FFields) :
    (fpToWindow f).Keeps := by
  mvcgen [fpToWindow, keeps_checkWins, step1] with grind [State.inv_setWinBits]

theorem keeps_fpToGeneral (f : FFields) :
    (fpToGeneral f).Keeps := by
  mvcgen [fpToGeneral, keeps_checkWins, step1]

theorem keeps_fpConvert (i : Instr) (f : FFields) :
    (fpConvert i f).Keeps := by
  mvcgen [fpConvert, keeps_checkWins, keeps_modeOf, step1] with grind [State.inv_setFlags, State.inv_setWinBits]

theorem keeps_fpToInt (i : Instr) (f : FFields) :
    (fpToInt i f).Keeps := by
  mvcgen [fpToInt, keeps_checkWins, keeps_modeOf, step1]

theorem keeps_fpFromInt (i : Instr) (f : FFields) :
    (fpFromInt i f).Keeps := by
  mvcgen [fpFromInt, keeps_checkWins, keeps_modeOf, step1] with grind [State.inv_setFlags, State.inv_setWinBits]

theorem keeps_execFadd (dbl : Bool) (d a b : BitVec 5) (s : State) (hs : s.Inv) :
    Outcome.Keeps (execFadd dbl d a b s) := by
  refine keeps_runInstr _ _ s hs ?_
  mvcgen [keeps_fpArith]

theorem keeps_execFsub (dbl : Bool) (d a b : BitVec 5) (s : State) (hs : s.Inv) :
    Outcome.Keeps (execFsub dbl d a b s) := by
  refine keeps_runInstr _ _ s hs ?_
  mvcgen [keeps_fpArith]

theorem keeps_execFmul (dbl : Bool) (d a b : BitVec 5) (s : State) (hs : s.Inv) :
    Outcome.Keeps (execFmul dbl d a b s) := by
  refine keeps_runInstr _ _ s hs ?_
  mvcgen [keeps_fpArith]

theorem keeps_execFdiv (dbl : Bool) (d a b : BitVec 5) (s : State) (hs : s.Inv) :
    Outcome.Keeps (execFdiv dbl d a b s) := by
  refine keeps_runInstr _ _ s hs ?_
  mvcgen [keeps_fpArith]

theorem keeps_execFsqrt (dbl : Bool) (d a : BitVec 5) (s : State) (hs : s.Inv) :
    Outcome.Keeps (execFsqrt dbl d a s) := by
  refine keeps_runInstr _ _ s hs ?_
  mvcgen [keeps_fpSqrt]

theorem keeps_execFmin (dbl : Bool) (d a b : BitVec 5) (s : State) (hs : s.Inv) :
    Outcome.Keeps (execFmin dbl d a b s) := by
  refine keeps_runInstr _ _ s hs ?_
  mvcgen [keeps_fpMinMax]

theorem keeps_execFmax (dbl : Bool) (d a b : BitVec 5) (s : State) (hs : s.Inv) :
    Outcome.Keeps (execFmax dbl d a b s) := by
  refine keeps_runInstr _ _ s hs ?_
  mvcgen [keeps_fpMinMax]

theorem keeps_execFma (dbl : Bool) (d a b : BitVec 5) (s : State) (hs : s.Inv) :
    Outcome.Keeps (execFma dbl d a b s) := by
  refine keeps_runInstr _ _ s hs ?_
  mvcgen [keeps_fpFma]

theorem keeps_execFeq (dbl : Bool) (d a b : BitVec 5) (s : State) (hs : s.Inv) :
    Outcome.Keeps (execFeq dbl d a b s) := by
  refine keeps_runInstr _ _ s hs ?_
  mvcgen [keeps_fpCompare]

theorem keeps_execFlt (dbl : Bool) (d a b : BitVec 5) (s : State) (hs : s.Inv) :
    Outcome.Keeps (execFlt dbl d a b s) := by
  refine keeps_runInstr _ _ s hs ?_
  mvcgen [keeps_fpCompare]

theorem keeps_execFle (dbl : Bool) (d a b : BitVec 5) (s : State) (hs : s.Inv) :
    Outcome.Keeps (execFle dbl d a b s) := by
  refine keeps_runInstr _ _ s hs ?_
  mvcgen [keeps_fpCompare]

theorem keeps_execFclass (dbl : Bool) (d a : BitVec 5) (s : State) (hs : s.Inv) :
    Outcome.Keeps (execFclass dbl d a s) := by
  refine keeps_runInstr _ _ s hs ?_
  mvcgen [keeps_fpClass]

theorem keeps_execFabs (dbl : Bool) (d a : BitVec 5) (s : State) (hs : s.Inv) :
    Outcome.Keeps (execFabs dbl d a s) := by
  refine keeps_runInstr _ _ s hs ?_
  mvcgen [keeps_fpSign]

theorem keeps_execFneg (dbl : Bool) (d a : BitVec 5) (s : State) (hs : s.Inv) :
    Outcome.Keeps (execFneg dbl d a s) := by
  refine keeps_runInstr _ _ s hs ?_
  mvcgen [keeps_fpSign]

theorem keeps_execFmvw (dbl : Bool) (d a : BitVec 5) (s : State) (hs : s.Inv) :
    Outcome.Keeps (execFmvw dbl d a s) := by
  refine keeps_runInstr _ _ s hs ?_
  mvcgen [keeps_fpToWindow]

theorem keeps_execFmvg (dbl : Bool) (d a : BitVec 5) (s : State) (hs : s.Inv) :
    Outcome.Keeps (execFmvg dbl d a s) := by
  refine keeps_runInstr _ _ s hs ?_
  mvcgen [keeps_fpToGeneral]

theorem keeps_execFcvt (dbl : Bool) (d a : BitVec 5) (s : State) (hs : s.Inv) :
    Outcome.Keeps (execFcvt dbl d a s) := by
  refine keeps_runInstr _ _ s hs ?_
  mvcgen [keeps_fpConvert]

theorem keeps_execFcvti (dbl : Bool) (d a : BitVec 5) (s : State) (hs : s.Inv) :
    Outcome.Keeps (execFcvti dbl d a s) := by
  refine keeps_runInstr _ _ s hs ?_
  mvcgen [keeps_fpToInt]

theorem keeps_execFcvtf (dbl : Bool) (d a : BitVec 5) (s : State) (hs : s.Inv) :
    Outcome.Keeps (execFcvtf dbl d a s) := by
  refine keeps_runInstr _ _ s hs ?_
  mvcgen [keeps_fpFromInt]

theorem keeps_execFaddLong (f : FFields) (s : State) (hs : s.Inv) :
    Outcome.Keeps (execFaddLong f s) := by
  refine keeps_runInstr _ _ s hs ?_
  mvcgen [keeps_fpArith]

theorem keeps_execFsubLong (f : FFields) (s : State) (hs : s.Inv) :
    Outcome.Keeps (execFsubLong f s) := by
  refine keeps_runInstr _ _ s hs ?_
  mvcgen [keeps_fpArith]

theorem keeps_execFmulLong (f : FFields) (s : State) (hs : s.Inv) :
    Outcome.Keeps (execFmulLong f s) := by
  refine keeps_runInstr _ _ s hs ?_
  mvcgen [keeps_fpArith]

theorem keeps_execFdivLong (f : FFields) (s : State) (hs : s.Inv) :
    Outcome.Keeps (execFdivLong f s) := by
  refine keeps_runInstr _ _ s hs ?_
  mvcgen [keeps_fpArith]

theorem keeps_execFsqrtLong (f : FFields) (s : State) (hs : s.Inv) :
    Outcome.Keeps (execFsqrtLong f s) := by
  refine keeps_runInstr _ _ s hs ?_
  mvcgen [keeps_fpSqrt]

theorem keeps_execFminLong (f : FFields) (s : State) (hs : s.Inv) :
    Outcome.Keeps (execFminLong f s) := by
  refine keeps_runInstr _ _ s hs ?_
  mvcgen [keeps_fpMinMax]

theorem keeps_execFmaxLong (f : FFields) (s : State) (hs : s.Inv) :
    Outcome.Keeps (execFmaxLong f s) := by
  refine keeps_runInstr _ _ s hs ?_
  mvcgen [keeps_fpMinMax]

theorem keeps_execFmaLong (f : FFields) (s : State) (hs : s.Inv) :
    Outcome.Keeps (execFmaLong f s) := by
  refine keeps_runInstr _ _ s hs ?_
  mvcgen [keeps_fpFma]

theorem keeps_execFeqLong (f : FFields) (s : State) (hs : s.Inv) :
    Outcome.Keeps (execFeqLong f s) := by
  refine keeps_runInstr _ _ s hs ?_
  mvcgen [keeps_fpCompare]

theorem keeps_execFltLong (f : FFields) (s : State) (hs : s.Inv) :
    Outcome.Keeps (execFltLong f s) := by
  refine keeps_runInstr _ _ s hs ?_
  mvcgen [keeps_fpCompare]

theorem keeps_execFleLong (f : FFields) (s : State) (hs : s.Inv) :
    Outcome.Keeps (execFleLong f s) := by
  refine keeps_runInstr _ _ s hs ?_
  mvcgen [keeps_fpCompare]

theorem keeps_execFclassLong (f : FFields) (s : State) (hs : s.Inv) :
    Outcome.Keeps (execFclassLong f s) := by
  refine keeps_runInstr _ _ s hs ?_
  mvcgen [keeps_fpClass]

theorem keeps_execFabsLong (f : FFields) (s : State) (hs : s.Inv) :
    Outcome.Keeps (execFabsLong f s) := by
  refine keeps_runInstr _ _ s hs ?_
  mvcgen [keeps_fpSign]

theorem keeps_execFnegLong (f : FFields) (s : State) (hs : s.Inv) :
    Outcome.Keeps (execFnegLong f s) := by
  refine keeps_runInstr _ _ s hs ?_
  mvcgen [keeps_fpSign]

theorem keeps_execFmvwLong (f : FFields) (s : State) (hs : s.Inv) :
    Outcome.Keeps (execFmvwLong f s) := by
  refine keeps_runInstr _ _ s hs ?_
  mvcgen [keeps_fpToWindow]

theorem keeps_execFmvgLong (f : FFields) (s : State) (hs : s.Inv) :
    Outcome.Keeps (execFmvgLong f s) := by
  refine keeps_runInstr _ _ s hs ?_
  mvcgen [keeps_fpToGeneral]

theorem keeps_execFcvtLong (f : FFields) (s : State) (hs : s.Inv) :
    Outcome.Keeps (execFcvtLong f s) := by
  refine keeps_runInstr _ _ s hs ?_
  mvcgen [keeps_fpConvert]

theorem keeps_execFcvtiLong (f : FFields) (s : State) (hs : s.Inv) :
    Outcome.Keeps (execFcvtiLong f s) := by
  refine keeps_runInstr _ _ s hs ?_
  mvcgen [keeps_fpToInt]

theorem keeps_execFcvtfLong (f : FFields) (s : State) (hs : s.Inv) :
    Outcome.Keeps (execFcvtfLong f s) := by
  refine keeps_runInstr _ _ s hs ?_
  mvcgen [keeps_fpFromInt]

/-! ### Memory instructions -/

theorem keeps_execLd (f : MFields) (s : State) (hs : s.Inv) :
    Outcome.Keeps (execLd f s) := by
  refine keeps_runInstr _ _ s hs ?_
  mvcgen [keeps_accCheck, keeps_loadElem, step1]

theorem keeps_execSt (f : MFields) (s : State) (hs : s.Inv) :
    Outcome.Keeps (execSt f s) := by
  refine keeps_runInstr _ _ s hs ?_
  mvcgen [keeps_accCheck, keeps_storeElem]

theorem keeps_execLdc (f : MFields) (s : State) (hs : s.Inv) :
    Outcome.Keeps (execLdc f s) := by
  refine keeps_runInstr _ _ s hs ?_
  mvcgen [keeps_accCheck, keeps_loadCap, step1]

theorem keeps_execStc (f : MFields) (s : State) (hs : s.Inv) :
    Outcome.Keeps (execStc f s) := by
  refine keeps_runInstr _ _ s hs ?_
  mvcgen [keeps_accCheck, keeps_stcTag, keeps_storeCap]

theorem State.inv_prefetch (s : State) (va ord : Nat) (hs : s.Inv) :
    (s.prefetch va ord).Inv := by
  unfold State.prefetch
  grind [State.inv_refreshView, State.inv_securityEvent, State.inv_touch]

theorem keeps_execPref (f : MFields) (s : State) (hs : s.Inv) :
    Outcome.Keeps (execPref f s) := by
  refine keeps_runInstr _ _ s hs (M.keeps_step1 _ fun s hs => ?_)
  dsimp only
  split
  · exact State.inv_prefetch _ _ _ ((keeps_accCheck _ _ _ _ _ _).ok hs ‹_›)
  · exact hs

theorem keeps_windowOperand (n : Int) (wide : Bool) :
    (windowOperand n wide).Keeps := by
  mvcgen [windowOperand, keeps_winCheck, keeps_winEven]

theorem keeps_execLdw (f : MFields) (s : State) (hs : s.Inv) :
    Outcome.Keeps (execLdw f s) := by
  refine keeps_runInstr _ _ s hs ?_
  mvcgen [keeps_accCheck, keeps_loadElem, keeps_windowOperand, step1] with grind [State.inv_setWinBits]

theorem keeps_execStw (f : MFields) (s : State) (hs : s.Inv) :
    Outcome.Keeps (execStw f s) := by
  refine keeps_runInstr _ _ s hs ?_
  mvcgen [keeps_accCheck, keeps_storeElem, keeps_windowOperand]

theorem keeps_atomicResult (f : MFields) (fn5 : BitVec 5) (a : Nat) (v cmp : Word) :
    (atomicResult f fn5 a v cmp).Keeps := by
  mvcgen [atomicResult, keeps_atomicAt, keeps_xl, step1]

theorem keeps_atomicStore (f : MFields) (fn5 : BitVec 5) (c : Cap) (a : Nat) (v cmp : Word) :
    (atomicStore f fn5 c a v cmp).Keeps := by
  mvcgen [atomicStore, keeps_atomicSend, keeps_logEntry, keeps_sideRoom, keeps_storeTo, keeps_storeTo_logIt]

theorem keeps_atomicOp (f : MFields) (fn5 : BitVec 5) :
    (atomicOp f fn5).Keeps := by
  mvcgen [atomicOp, keeps_accCheck, keeps_atomicResult, keeps_atomicStore, keeps_need]

theorem keeps_execAadd (f : MFields) (s : State) (hs : s.Inv) :
    Outcome.Keeps (execAadd f s) := by
  refine keeps_runInstr _ _ s hs ?_
  mvcgen [keeps_atomicOp]

theorem keeps_execAand (f : MFields) (s : State) (hs : s.Inv) :
    Outcome.Keeps (execAand f s) := by
  refine keeps_runInstr _ _ s hs ?_
  mvcgen [keeps_atomicOp]

theorem keeps_execAor (f : MFields) (s : State) (hs : s.Inv) :
    Outcome.Keeps (execAor f s) := by
  refine keeps_runInstr _ _ s hs ?_
  mvcgen [keeps_atomicOp]

theorem keeps_execAxor (f : MFields) (s : State) (hs : s.Inv) :
    Outcome.Keeps (execAxor f s) := by
  refine keeps_runInstr _ _ s hs ?_
  mvcgen [keeps_atomicOp]

theorem keeps_execAmin (f : MFields) (s : State) (hs : s.Inv) :
    Outcome.Keeps (execAmin f s) := by
  refine keeps_runInstr _ _ s hs ?_
  mvcgen [keeps_atomicOp]

theorem keeps_execAmax (f : MFields) (s : State) (hs : s.Inv) :
    Outcome.Keeps (execAmax f s) := by
  refine keeps_runInstr _ _ s hs ?_
  mvcgen [keeps_atomicOp]

theorem keeps_execAminu (f : MFields) (s : State) (hs : s.Inv) :
    Outcome.Keeps (execAminu f s) := by
  refine keeps_runInstr _ _ s hs ?_
  mvcgen [keeps_atomicOp]

theorem keeps_execAmaxu (f : MFields) (s : State) (hs : s.Inv) :
    Outcome.Keeps (execAmaxu f s) := by
  refine keeps_runInstr _ _ s hs ?_
  mvcgen [keeps_atomicOp]

theorem keeps_execAswap (f : MFields) (s : State) (hs : s.Inv) :
    Outcome.Keeps (execAswap f s) := by
  refine keeps_runInstr _ _ s hs ?_
  mvcgen [keeps_atomicOp]

theorem keeps_execAcas (f : MFields) (s : State) (hs : s.Inv) :
    Outcome.Keeps (execAcas f s) := by
  refine keeps_runInstr _ _ s hs ?_
  mvcgen [keeps_atomicOp]

theorem keeps_execAfadd (f : MFields) (s : State) (hs : s.Inv) :
    Outcome.Keeps (execAfadd f s) := by
  refine keeps_runInstr _ _ s hs ?_
  mvcgen [keeps_atomicOp]

/-! ### Events of the Press -/

theorem keeps_execFetch (a : Agent) (line : BitVec 64) (s : State) (hs : s.Inv) :
    Outcome.Keeps (execFetch a line s) := by
  unfold execFetch
  grind [State.inv_asAgent, State.inv_fetchLine, Outcome.keeps_next]

theorem keeps_execDrain (a : Agent) (k : Nat) (s : State) (hs : s.Inv) :
    Outcome.Keeps (execDrain a k s) := by
  unfold execDrain
  grind [State.inv_drain, Outcome.keeps_next]

theorem keeps_execDeliver (k : Nat) (s : State) (hs : s.Inv) :
    Outcome.Keeps (execDeliver k s) := by
  unfold execDeliver
  grind [State.inv_deliver, Outcome.keeps_next]

theorem keeps_execRefresh (a : Agent) (va pa : Nat) (s : State) (hs : s.Inv) :
    Outcome.Keeps (execRefresh a va pa s) := by
  unfold execRefresh
  grind [State.inv_putView, State.inv_refreshView, State.inv_touch, Outcome.keeps_next]

theorem keeps_execEvict (a : Agent) (ofFetch : Bool) (pa : Nat) (s : State) (hs : s.Inv) :
    Outcome.Keeps (execEvict a ofFetch pa s) := by
  unfold execEvict
  grind [State.inv_dropLines, State.inv_dropViews, Outcome.keeps_next]

theorem keeps_execReplicaPropagation (k : Nat) (s : State) (hs : s.Inv) :
    Outcome.Keeps (execReplicaPropagation k s) := by
  unfold execReplicaPropagation
  grind [State.inv_iff, State.inv_propagate, Outcome.keeps_next]

theorem keeps_execWatchWake (cell : Nat) (s : State) (hs : s.Inv) :
    Outcome.Keeps (execWatchWake cell s) := by
  unfold execWatchWake
  grind [State.inv_wakeWatches, Outcome.keeps_next]

theorem keeps_execWatchRetry (a : Agent) (s : State) (hs : s.Inv) :
    Outcome.Keeps (execWatchRetry a s) := by
  unfold execWatchRetry
  grind [State.inv_makeReady, State.inv_wakeAgent, Outcome.keeps_next]

/-! ### Scalar instructions -/

theorem keeps_branch (cond : Word → Word → Bool) (a b : BitVec 5) (off : BitVec 14) :
    (branch cond a b off).Keeps := by
  mvcgen [branch, keeps_transfer]

theorem keeps_execAdd (d a b : BitVec 5) (s : State) (hs : s.Inv) :
    Outcome.Keeps (execAdd d a b s) := by
  refine keeps_runInstr _ _ s hs ?_
  mvcgen [step1]

theorem keeps_execSub (d a b : BitVec 5) (s : State) (hs : s.Inv) :
    Outcome.Keeps (execSub d a b s) := by
  refine keeps_runInstr _ _ s hs ?_
  mvcgen [step1]

theorem keeps_execAnd (d a b : BitVec 5) (s : State) (hs : s.Inv) :
    Outcome.Keeps (execAnd d a b s) := by
  refine keeps_runInstr _ _ s hs ?_
  mvcgen [step1]

theorem keeps_execOr (d a b : BitVec 5) (s : State) (hs : s.Inv) :
    Outcome.Keeps (execOr d a b s) := by
  refine keeps_runInstr _ _ s hs ?_
  mvcgen [step1]

theorem keeps_execXor (d a b : BitVec 5) (s : State) (hs : s.Inv) :
    Outcome.Keeps (execXor d a b s) := by
  refine keeps_runInstr _ _ s hs ?_
  mvcgen [step1]

theorem keeps_execAndn (d a b : BitVec 5) (s : State) (hs : s.Inv) :
    Outcome.Keeps (execAndn d a b s) := by
  refine keeps_runInstr _ _ s hs ?_
  mvcgen [step1]

theorem keeps_execSll (d a b : BitVec 5) (s : State) (hs : s.Inv) :
    Outcome.Keeps (execSll d a b s) := by
  refine keeps_runInstr _ _ s hs ?_
  mvcgen [step1]

theorem keeps_execSrl (d a b : BitVec 5) (s : State) (hs : s.Inv) :
    Outcome.Keeps (execSrl d a b s) := by
  refine keeps_runInstr _ _ s hs ?_
  mvcgen [step1]

theorem keeps_execSra (d a b : BitVec 5) (s : State) (hs : s.Inv) :
    Outcome.Keeps (execSra d a b s) := by
  refine keeps_runInstr _ _ s hs ?_
  mvcgen [step1]

theorem keeps_execSlt (d a b : BitVec 5) (s : State) (hs : s.Inv) :
    Outcome.Keeps (execSlt d a b s) := by
  refine keeps_runInstr _ _ s hs ?_
  mvcgen [step1]

theorem keeps_execSltu (d a b : BitVec 5) (s : State) (hs : s.Inv) :
    Outcome.Keeps (execSltu d a b s) := by
  refine keeps_runInstr _ _ s hs ?_
  mvcgen [step1]

theorem keeps_execMul (d a b : BitVec 5) (s : State) (hs : s.Inv) :
    Outcome.Keeps (execMul d a b s) := by
  refine keeps_runInstr _ _ s hs ?_
  mvcgen [step1]

theorem keeps_execMulh (d a b : BitVec 5) (s : State) (hs : s.Inv) :
    Outcome.Keeps (execMulh d a b s) := by
  refine keeps_runInstr _ _ s hs ?_
  mvcgen [step1]

theorem keeps_execMulhu (d a b : BitVec 5) (s : State) (hs : s.Inv) :
    Outcome.Keeps (execMulhu d a b s) := by
  refine keeps_runInstr _ _ s hs ?_
  mvcgen [step1]

theorem keeps_execDiv (d a b : BitVec 5) (s : State) (hs : s.Inv) :
    Outcome.Keeps (execDiv d a b s) := by
  refine keeps_runInstr _ _ s hs ?_
  mvcgen [step1]

theorem keeps_execDivu (d a b : BitVec 5) (s : State) (hs : s.Inv) :
    Outcome.Keeps (execDivu d a b s) := by
  refine keeps_runInstr _ _ s hs ?_
  mvcgen [step1]

theorem keeps_execRem (d a b : BitVec 5) (s : State) (hs : s.Inv) :
    Outcome.Keeps (execRem d a b s) := by
  refine keeps_runInstr _ _ s hs ?_
  mvcgen [step1]

theorem keeps_execRemu (d a b : BitVec 5) (s : State) (hs : s.Inv) :
    Outcome.Keeps (execRemu d a b s) := by
  refine keeps_runInstr _ _ s hs ?_
  mvcgen [step1]

theorem keeps_execMin (d a b : BitVec 5) (s : State) (hs : s.Inv) :
    Outcome.Keeps (execMin d a b s) := by
  refine keeps_runInstr _ _ s hs ?_
  mvcgen [step1]

theorem keeps_execMax (d a b : BitVec 5) (s : State) (hs : s.Inv) :
    Outcome.Keeps (execMax d a b s) := by
  refine keeps_runInstr _ _ s hs ?_
  mvcgen [step1]

theorem keeps_execMinu (d a b : BitVec 5) (s : State) (hs : s.Inv) :
    Outcome.Keeps (execMinu d a b s) := by
  refine keeps_runInstr _ _ s hs ?_
  mvcgen [step1]

theorem keeps_execMaxu (d a b : BitVec 5) (s : State) (hs : s.Inv) :
    Outcome.Keeps (execMaxu d a b s) := by
  refine keeps_runInstr _ _ s hs ?_
  mvcgen [step1]

theorem keeps_execClz (d a : BitVec 5) (s : State) (hs : s.Inv) :
    Outcome.Keeps (execClz d a s) := by
  refine keeps_runInstr _ _ s hs ?_
  mvcgen [step1]

theorem keeps_execCtz (d a : BitVec 5) (s : State) (hs : s.Inv) :
    Outcome.Keeps (execCtz d a s) := by
  refine keeps_runInstr _ _ s hs ?_
  mvcgen [step1]

theorem keeps_execPopc (d a : BitVec 5) (s : State) (hs : s.Inv) :
    Outcome.Keeps (execPopc d a s) := by
  refine keeps_runInstr _ _ s hs ?_
  mvcgen [step1]

theorem keeps_execSel (d a b : BitVec 5) (s : State) (hs : s.Inv) :
    Outcome.Keeps (execSel d a b s) := by
  refine keeps_runInstr _ _ s hs ?_
  mvcgen [step1]

theorem keeps_execAddi (d a : BitVec 5) (imm : BitVec 14) (s : State) (hs : s.Inv) :
    Outcome.Keeps (execAddi d a imm s) := by
  refine keeps_runInstr _ _ s hs ?_
  mvcgen [step1]

theorem keeps_execAndi (d a : BitVec 5) (imm : BitVec 14) (s : State) (hs : s.Inv) :
    Outcome.Keeps (execAndi d a imm s) := by
  refine keeps_runInstr _ _ s hs ?_
  mvcgen [step1]

theorem keeps_execOri (d a : BitVec 5) (imm : BitVec 14) (s : State) (hs : s.Inv) :
    Outcome.Keeps (execOri d a imm s) := by
  refine keeps_runInstr _ _ s hs ?_
  mvcgen [step1]

theorem keeps_execXori (d a : BitVec 5) (imm : BitVec 14) (s : State) (hs : s.Inv) :
    Outcome.Keeps (execXori d a imm s) := by
  refine keeps_runInstr _ _ s hs ?_
  mvcgen [step1]

theorem keeps_execSlti (d a : BitVec 5) (imm : BitVec 14) (s : State) (hs : s.Inv) :
    Outcome.Keeps (execSlti d a imm s) := by
  refine keeps_runInstr _ _ s hs ?_
  mvcgen [step1]

theorem keeps_execSltiu (d a : BitVec 5) (imm : BitVec 14) (s : State) (hs : s.Inv) :
    Outcome.Keeps (execSltiu d a imm s) := by
  refine keeps_runInstr _ _ s hs ?_
  mvcgen [step1]

theorem keeps_execSlli (d a : BitVec 5) (amount : BitVec 6) (s : State) (hs : s.Inv) :
    Outcome.Keeps (execSlli d a amount s) := by
  refine keeps_runInstr _ _ s hs ?_
  mvcgen [step1]

theorem keeps_execSrli (d a : BitVec 5) (amount : BitVec 6) (s : State) (hs : s.Inv) :
    Outcome.Keeps (execSrli d a amount s) := by
  refine keeps_runInstr _ _ s hs ?_
  mvcgen [step1]

theorem keeps_execSrai (d a : BitVec 5) (amount : BitVec 6) (s : State) (hs : s.Inv) :
    Outcome.Keeps (execSrai d a amount s) := by
  refine keeps_runInstr _ _ s hs ?_
  mvcgen [step1]

theorem keeps_execAddil (d a : BitVec 5) (imm : BitVec 32) (s : State) (hs : s.Inv) :
    Outcome.Keeps (execAddil d a imm s) := by
  refine keeps_runInstr _ _ s hs ?_
  mvcgen [step1]

theorem keeps_execAndil (d a : BitVec 5) (imm : BitVec 32) (s : State) (hs : s.Inv) :
    Outcome.Keeps (execAndil d a imm s) := by
  refine keeps_runInstr _ _ s hs ?_
  mvcgen [step1]

theorem keeps_execOril (d a : BitVec 5) (imm : BitVec 32) (s : State) (hs : s.Inv) :
    Outcome.Keeps (execOril d a imm s) := by
  refine keeps_runInstr _ _ s hs ?_
  mvcgen [step1]

theorem keeps_execXoril (d a : BitVec 5) (imm : BitVec 32) (s : State) (hs : s.Inv) :
    Outcome.Keeps (execXoril d a imm s) := by
  refine keeps_runInstr _ _ s hs ?_
  mvcgen [step1]

theorem keeps_execLi (d : BitVec 5) (imm : BitVec 32) (s : State) (hs : s.Inv) :
    Outcome.Keeps (execLi d imm s) := by
  refine keeps_runInstr _ _ s hs ?_
  mvcgen [step1]

theorem keeps_execLih (d a : BitVec 5) (imm : BitVec 32) (s : State) (hs : s.Inv) :
    Outcome.Keeps (execLih d a imm s) := by
  refine keeps_runInstr _ _ s hs ?_
  mvcgen [step1]

theorem keeps_execLil (d : BitVec 5) (imm : BitVec 64) (s : State) (hs : s.Inv) :
    Outcome.Keeps (execLil d imm s) := by
  refine keeps_runInstr _ _ s hs ?_
  mvcgen [step1]

theorem keeps_execBeq (a b : BitVec 5) (off : BitVec 14) (s : State) (hs : s.Inv) :
    Outcome.Keeps (execBeq a b off s) := by
  refine keeps_runInstr _ _ s hs ?_
  mvcgen [keeps_branch]

theorem keeps_execBne (a b : BitVec 5) (off : BitVec 14) (s : State) (hs : s.Inv) :
    Outcome.Keeps (execBne a b off s) := by
  refine keeps_runInstr _ _ s hs ?_
  mvcgen [keeps_branch]

theorem keeps_execBlt (a b : BitVec 5) (off : BitVec 14) (s : State) (hs : s.Inv) :
    Outcome.Keeps (execBlt a b off s) := by
  refine keeps_runInstr _ _ s hs ?_
  mvcgen [keeps_branch]

theorem keeps_execBge (a b : BitVec 5) (off : BitVec 14) (s : State) (hs : s.Inv) :
    Outcome.Keeps (execBge a b off s) := by
  refine keeps_runInstr _ _ s hs ?_
  mvcgen [keeps_branch]

theorem keeps_execBltu (a b : BitVec 5) (off : BitVec 14) (s : State) (hs : s.Inv) :
    Outcome.Keeps (execBltu a b off s) := by
  refine keeps_runInstr _ _ s hs ?_
  mvcgen [keeps_branch]

theorem keeps_execBgeu (a b : BitVec 5) (off : BitVec 14) (s : State) (hs : s.Inv) :
    Outcome.Keeps (execBgeu a b off s) := by
  refine keeps_runInstr _ _ s hs ?_
  mvcgen [keeps_branch]

theorem keeps_execJal (d : BitVec 5) (off : BitVec 19) (s : State) (hs : s.Inv) :
    Outcome.Keeps (execJal d off s) := by
  refine keeps_runInstr _ _ s hs ?_
  mvcgen [keeps_transfer]

theorem keeps_execJalr (d a : BitVec 5) (imm : BitVec 14) (s : State) (hs : s.Inv) :
    Outcome.Keeps (execJalr d a imm s) := by
  refine keeps_runInstr _ _ s hs ?_
  mvcgen [keeps_transfer]

theorem keeps_execLoop (a : BitVec 5) (off : BitVec 14) (s : State) (hs : s.Inv) :
    Outcome.Keeps (execLoop a off s) := by
  refine keeps_runInstr _ _ s hs ?_
  mvcgen [keeps_transfer]

theorem keeps_execIllegalInstruction (p0 : BitVec 32) (s : State) (hs : s.Inv) :
    Outcome.Keeps (execIllegalInstruction p0 s) := by
  unfold execIllegalInstruction
  grind [State.inv_takeTrap, Outcome.keeps_next]

theorem keeps_execFmadd2 (dbl : Bool) (d a b : BitVec 5) (s : State) (hs : s.Inv) :
    Outcome.Keeps (execFmadd2 dbl d a b s) := by
  unfold execFmadd2
  grind [State.inv_takeTrap, Outcome.keeps_next]

theorem keeps_execCtwaitx (f : QFields) (s : State) (hs : s.Inv) :
    Outcome.Keeps (execCtwaitx f s) := by
  unfold execCtwaitx
  grind [State.inv_takeTrap, Outcome.keeps_next]

/-! ### System instructions -/

theorem keeps_sysModify (d a : BitVec 5) (num : BitVec 10) (f : Word → Word → Word) :
    (sysModify d a num f).Keeps := by
  mvcgen [sysModify, keeps_sysWrite, step1]

theorem keeps_execSysr (d : BitVec 5) (num : BitVec 10) (s : State) (hs : s.Inv) :
    Outcome.Keeps (execSysr d num s) := by
  refine keeps_runInstr _ _ s hs ?_
  mvcgen [keeps_need, step1]

theorem keeps_execSysw (d a : BitVec 5) (num : BitVec 10) (s : State) (hs : s.Inv) :
    Outcome.Keeps (execSysw d a num s) := by
  refine keeps_runInstr _ _ s hs ?_
  mvcgen [keeps_sysModify]

theorem keeps_execSyss (d a : BitVec 5) (num : BitVec 10) (s : State) (hs : s.Inv) :
    Outcome.Keeps (execSyss d a num s) := by
  refine keeps_runInstr _ _ s hs ?_
  mvcgen [keeps_sysModify]

theorem keeps_execSysc (d a : BitVec 5) (num : BitVec 10) (s : State) (hs : s.Inv) :
    Outcome.Keeps (execSysc d a num s) := by
  refine keeps_runInstr _ _ s hs ?_
  mvcgen [keeps_sysModify]

theorem keeps_execTrap (code : BitVec 10) (s : State) (hs : s.Inv) :
    Outcome.Keeps (execTrap code s) := by
  refine keeps_runInstr _ _ s hs ?_
  mvcgen [keeps_trap]

theorem keeps_execBrk (code : BitVec 10) (s : State) (hs : s.Inv) :
    Outcome.Keeps (execBrk code s) := by
  refine keeps_runInstr _ _ s hs ?_
  mvcgen [keeps_trap]

theorem keeps_execSvc (code : BitVec 10) (s : State) (hs : s.Inv) :
    Outcome.Keeps (execSvc code s) := by
  refine keeps_runInstr _ _ s hs ?_
  mvcgen [keeps_trap]

theorem keeps_execXret (s : State) (hs : s.Inv) :
    Outcome.Keeps (execXret s) := by
  refine keeps_runInstr _ _ s hs ?_
  mvcgen [keeps_checkTargetM, keeps_need]

theorem keeps_execIfence (a : BitVec 5) (s : State) (hs : s.Inv) :
    Outcome.Keeps (execIfence a s) := by
  refine keeps_runInstr _ _ s hs (M.Keeps.get fun s _ => ?_)
  dsimp only
  split
  · exact M.keeps_throw _
  · exact M.keeps_step1 _ fun s hs => State.inv_dropLines _ _ _ (State.inv_cacheLease _ _ hs)

theorem keeps_execPmark (a : BitVec 5) (code : BitVec 10) (s : State) (hs : s.Inv) :
    Outcome.Keeps (execPmark a code s) := by
  refine keeps_runInstr _ _ s hs ?_
  mvcgen [step1] with grind [State.inv_count, State.inv_trace]

theorem keeps_registerWrite (n : Nat) (v : Word) (s : State) (hs : s.Inv) :
    Outcome.Keeps (registerWrite n v s) := by
  unfold registerWrite
  split
  · exact (Outcome.keeps_next _).2 ((keeps_sysWrite n v).ok hs ‹_›)
  · exact (Outcome.keeps_next _).2 (State.inv_afterStop s _ _ hs ((keeps_sysWrite n v).error hs ‹_›))

theorem keeps_execPlansel (value : BitVec 64) (s : State) (hs : s.Inv) :
    Outcome.Keeps (execPlansel value s) := by
  unfold execPlansel
  grind [keeps_registerWrite, Outcome.keeps_next]

theorem keeps_execRxcfg (ring : BitVec 3) (value : BitVec 64) (s : State) (hs : s.Inv) :
    Outcome.Keeps (execRxcfg ring value s) := by
  unfold execRxcfg
  grind [keeps_registerWrite, Outcome.keeps_next]

theorem keeps_execKbin (value : BitVec 64) (s : State) (hs : s.Inv) :
    Outcome.Keeps (execKbin value s) := by
  unfold execKbin
  grind [keeps_registerWrite, Outcome.keeps_next]

theorem keeps_execWalloc (value : BitVec 64) (s : State) (hs : s.Inv) :
    Outcome.Keeps (execWalloc value s) := by
  unfold execWalloc
  grind [keeps_registerWrite, Outcome.keeps_next]

theorem keeps_execPmctl (value : BitVec 64) (s : State) (hs : s.Inv) :
    Outcome.Keeps (execPmctl value s) := by
  unfold execPmctl
  grind [keeps_registerWrite, Outcome.keeps_next]
end Sys2Proof.Machine
end

section
/-! Every step keeps the canonical form of memory. -/

namespace Sys2Proof.Machine
set_option Elab.async false
open Std.Do
set_option mvcgen.warning false

/-! ### Time -/

theorem State.inv_holdCycles (s : State) (card n : Nat) (hs : s.Inv) :
    (s.holdCycles card n).Inv := by
  unfold State.holdCycles
  grind [State.inv_foldl, State.inv_setCard]

theorem State.inv_pass (s : State) (hs : s.Inv) :
    (s.pass).Inv := by
  unfold State.pass
  grind [State.inv_iff, State.inv_foldl, State.inv_holdCycles, State.inv_setDie]

/-! ### Every instruction and every event -/

theorem keeps_exec (i : Instr) (s : State) (hs : s.Inv) : Outcome.Keeps (exec i s) := by
  cases i with
  | add d a b => exact keeps_execAdd d a b s hs
  | sub d a b => exact keeps_execSub d a b s hs
  | and d a b => exact keeps_execAnd d a b s hs
  | or d a b => exact keeps_execOr d a b s hs
  | xor d a b => exact keeps_execXor d a b s hs
  | andn d a b => exact keeps_execAndn d a b s hs
  | sll d a b => exact keeps_execSll d a b s hs
  | srl d a b => exact keeps_execSrl d a b s hs
  | sra d a b => exact keeps_execSra d a b s hs
  | slt d a b => exact keeps_execSlt d a b s hs
  | sltu d a b => exact keeps_execSltu d a b s hs
  | mul d a b => exact keeps_execMul d a b s hs
  | mulh d a b => exact keeps_execMulh d a b s hs
  | mulhu d a b => exact keeps_execMulhu d a b s hs
  | div d a b => exact keeps_execDiv d a b s hs
  | divu d a b => exact keeps_execDivu d a b s hs
  | rem d a b => exact keeps_execRem d a b s hs
  | remu d a b => exact keeps_execRemu d a b s hs
  | min d a b => exact keeps_execMin d a b s hs
  | max d a b => exact keeps_execMax d a b s hs
  | minu d a b => exact keeps_execMinu d a b s hs
  | maxu d a b => exact keeps_execMaxu d a b s hs
  | clz d a => exact keeps_execClz d a s hs
  | ctz d a => exact keeps_execCtz d a s hs
  | popc d a => exact keeps_execPopc d a s hs
  | sel d a b => exact keeps_execSel d a b s hs
  | addi d a imm => exact keeps_execAddi d a imm s hs
  | andi d a imm => exact keeps_execAndi d a imm s hs
  | ori d a imm => exact keeps_execOri d a imm s hs
  | xori d a imm => exact keeps_execXori d a imm s hs
  | slti d a imm => exact keeps_execSlti d a imm s hs
  | sltiu d a imm => exact keeps_execSltiu d a imm s hs
  | slli d a amount => exact keeps_execSlli d a amount s hs
  | srli d a amount => exact keeps_execSrli d a amount s hs
  | srai d a amount => exact keeps_execSrai d a amount s hs
  | beq a b off => exact keeps_execBeq a b off s hs
  | bne a b off => exact keeps_execBne a b off s hs
  | blt a b off => exact keeps_execBlt a b off s hs
  | bge a b off => exact keeps_execBge a b off s hs
  | bltu a b off => exact keeps_execBltu a b off s hs
  | bgeu a b off => exact keeps_execBgeu a b off s hs
  | jal d off => exact keeps_execJal d off s hs
  | jalr d a imm => exact keeps_execJalr d a imm s hs
  | loop a off => exact keeps_execLoop a off s hs
  | fadd dbl d a b => exact keeps_execFadd dbl d a b s hs
  | fsub dbl d a b => exact keeps_execFsub dbl d a b s hs
  | fmul dbl d a b => exact keeps_execFmul dbl d a b s hs
  | fdiv dbl d a b => exact keeps_execFdiv dbl d a b s hs
  | fsqrt dbl d a => exact keeps_execFsqrt dbl d a s hs
  | fmin dbl d a b => exact keeps_execFmin dbl d a b s hs
  | fmax dbl d a b => exact keeps_execFmax dbl d a b s hs
  | fma dbl d a b => exact keeps_execFma dbl d a b s hs
  | feq dbl d a b => exact keeps_execFeq dbl d a b s hs
  | flt dbl d a b => exact keeps_execFlt dbl d a b s hs
  | fle dbl d a b => exact keeps_execFle dbl d a b s hs
  | fclass dbl d a => exact keeps_execFclass dbl d a s hs
  | fabs dbl d a => exact keeps_execFabs dbl d a s hs
  | fneg dbl d a => exact keeps_execFneg dbl d a s hs
  | fmvw dbl d a => exact keeps_execFmvw dbl d a s hs
  | fmvg dbl d a => exact keeps_execFmvg dbl d a s hs
  | fcvt dbl d a => exact keeps_execFcvt dbl d a s hs
  | fcvti dbl d a => exact keeps_execFcvti dbl d a s hs
  | fcvtf dbl d a => exact keeps_execFcvtf dbl d a s hs
  | faddLong f => exact keeps_execFaddLong f s hs
  | fsubLong f => exact keeps_execFsubLong f s hs
  | fmulLong f => exact keeps_execFmulLong f s hs
  | fdivLong f => exact keeps_execFdivLong f s hs
  | fsqrtLong f => exact keeps_execFsqrtLong f s hs
  | fminLong f => exact keeps_execFminLong f s hs
  | fmaxLong f => exact keeps_execFmaxLong f s hs
  | fmaLong f => exact keeps_execFmaLong f s hs
  | feqLong f => exact keeps_execFeqLong f s hs
  | fltLong f => exact keeps_execFltLong f s hs
  | fleLong f => exact keeps_execFleLong f s hs
  | fclassLong f => exact keeps_execFclassLong f s hs
  | fabsLong f => exact keeps_execFabsLong f s hs
  | fnegLong f => exact keeps_execFnegLong f s hs
  | fmvwLong f => exact keeps_execFmvwLong f s hs
  | fmvgLong f => exact keeps_execFmvgLong f s hs
  | fcvtLong f => exact keeps_execFcvtLong f s hs
  | fcvtiLong f => exact keeps_execFcvtiLong f s hs
  | fcvtfLong f => exact keeps_execFcvtfLong f s hs
  | sysr d num => exact keeps_execSysr d num s hs
  | sysw d a num => exact keeps_execSysw d a num s hs
  | syss d a num => exact keeps_execSyss d a num s hs
  | sysc d a num => exact keeps_execSysc d a num s hs
  | trap code => exact keeps_execTrap code s hs
  | brk code => exact keeps_execBrk code s hs
  | xret => exact keeps_execXret s hs
  | idle n => exact keeps_execIdle n s hs
  | ifence a => exact keeps_execIfence a s hs
  | yield => exact keeps_execYield s hs
  | pmark a code => exact keeps_execPmark a code s hs
  | svc code => exact keeps_execSvc code s hs
  | exit d => exact keeps_execExit d s hs
  | cmov d a => exact keeps_execCmov d a s hs
  | cgetb d a => exact keeps_execCgetb d a s hs
  | cgete d a k => exact keeps_execCgete d a k s hs
  | cgets d a k => exact keeps_execCgets d a k s hs
  | cgetf d a => exact keeps_execCgetf d a s hs
  | cgetp d a => exact keeps_execCgetp d a s hs
  | cgetl d a => exact keeps_execCgetl d a s hs
  | ctag d a => exact keeps_execCtag d a s hs
  | cclr d => exact keeps_execCclr d s hs
  | cperm d a b => exact keeps_execCperm d a b s hs
  | cfmt d a b => exact keeps_execCfmt d a b s hs
  | cshut d a b => exact keeps_execCshut d a b s hs
  | copen d a b => exact keeps_execCopen d a b s hs
  | xsync d level => exact keeps_execXsync d level s hs
  | fence mode => exact keeps_execFence mode s hs
  | fmadd2 dbl d a b => exact keeps_execFmadd2 dbl d a b s hs
  | ctwaitx f => exact keeps_execCtwaitx f s hs
  | addil d a imm => exact keeps_execAddil d a imm s hs
  | andil d a imm => exact keeps_execAndil d a imm s hs
  | oril d a imm => exact keeps_execOril d a imm s hs
  | xoril d a imm => exact keeps_execXoril d a imm s hs
  | li d imm => exact keeps_execLi d imm s hs
  | lih d a imm => exact keeps_execLih d a imm s hs
  | lil d imm => exact keeps_execLil d imm s hs
  | ld f => exact keeps_execLd f s hs
  | st f => exact keeps_execSt f s hs
  | ldc f => exact keeps_execLdc f s hs
  | stc f => exact keeps_execStc f s hs
  | pref f => exact keeps_execPref f s hs
  | ldw f => exact keeps_execLdw f s hs
  | stw f => exact keeps_execStw f s hs
  | aadd f => exact keeps_execAadd f s hs
  | aand f => exact keeps_execAand f s hs
  | aor f => exact keeps_execAor f s hs
  | axor f => exact keeps_execAxor f s hs
  | amin f => exact keeps_execAmin f s hs
  | amax f => exact keeps_execAmax f s hs
  | aminu f => exact keeps_execAminu f s hs
  | amaxu f => exact keeps_execAmaxu f s hs
  | aswap f => exact keeps_execAswap f s hs
  | acas f => exact keeps_execAcas f s hs
  | afadd f => exact keeps_execAfadd f s hs
  | ctadd f => exact keeps_execCtadd f s hs
  | ctwait f => exact keeps_execCtwait f s hs
  | ctread f => exact keeps_execCtread f s hs
  | cttry f => exact keeps_execCttry f s hs
  | binit f => exact keeps_execBinit f s hs
  | barrive f => exact keeps_execBarrive f s hs
  | bwait f => exact keeps_execBwait f s hs
  | barwait f => exact keeps_execBarwait f s hs
  | sbind f => exact keeps_execSbind f s hs
  | sunbind f => exact keeps_execSunbind f s hs
  | send f => exact keeps_execSend f s hs
  | recv f => exact keeps_execRecv f s hs
  | recvt f => exact keeps_execRecvt f s hs
  | ksend f => exact keeps_execKsend f s hs
  | radv f => exact keeps_execRadv f s hs
  | nbpost f => exact keeps_execNbpost f s hs
  | nbview f => exact keeps_execNbview f s hs
  | nbinit f => exact keeps_execNbinit f s hs
  | nbslot f => exact keeps_execNbslot f s hs
  | tclaim f => exact keeps_execTclaim f s hs
  | tdone f => exact keeps_execTdone f s hs
  | thand f => exact keeps_execThand f s hs
  | schedw f => exact keeps_execSchedw f s hs
  | schedr f => exact keeps_execSchedr f s hs
  | cslice f => exact keeps_execCslice f s hs
  | cslicei f => exact keeps_execCslicei f s hs
  | crank f => exact keeps_execCrank f s hs
  | cstep f => exact keeps_execCstep f s hs
  | cfix f => exact keeps_execCfix f s hs
  | cfree f => exact keeps_execCfree f s hs
  | clease f => exact keeps_execClease f s hs
  | center f => exact keeps_execCenter f s hs
  | vadd f => exact keeps_execVadd f s hs
  | vsub f => exact keeps_execVsub f s hs
  | vmul f => exact keeps_execVmul f s hs
  | vmin f => exact keeps_execVmin f s hs
  | vmax f => exact keeps_execVmax f s hs
  | vand f => exact keeps_execVand f s hs
  | vor f => exact keeps_execVor f s hs
  | vxor f => exact keeps_execVxor f s hs
  | vshl f => exact keeps_execVshl f s hs
  | vshr f => exact keeps_execVshr f s hs
  | vsra f => exact keeps_execVsra f s hs
  | vfma f => exact keeps_execVfma f s hs
  | vfms f => exact keeps_execVfms f s hs
  | vabs f => exact keeps_execVabs f s hs
  | vneg f => exact keeps_execVneg f s hs
  | vmov f => exact keeps_execVmov f s hs
  | vcvt f => exact keeps_execVcvt f s hs
  | vexp2 f => exact keeps_execVexp2 f s hs
  | vlog2 f => exact keeps_execVlog2 f s hs
  | vrcp f => exact keeps_execVrcp f s hs
  | vrsq f => exact keeps_execVrsq f s hs
  | vtanh f => exact keeps_execVtanh f s hs
  | vcmp f => exact keeps_execVcmp f s hs
  | vsel f => exact keeps_execVsel f s hs
  | vred f => exact keeps_execVred f s hs
  | vscan f => exact keeps_execVscan f s hs
  | vtrans f => exact keeps_execVtrans f s hs
  | vbcast f => exact keeps_execVbcast f s hs
  | vshuf f => exact keeps_execVshuf f s hs
  | vrot f => exact keeps_execVrot f s hs
  | vins f => exact keeps_execVins f s hs
  | vext f => exact keeps_execVext f s hs
  | vmand f => exact keeps_execVmand f s hs
  | vmor f => exact keeps_execVmor f s hs
  | vmnot f => exact keeps_execVmnot f s hs
  | vmpop f => exact keeps_execVmpop f s hs
  | vplanes f => exact keeps_execVplanes f s hs
  | vunplane f => exact keeps_execVunplane f s hs
  | vbarq f => exact keeps_execVbarq f s hs
  | vld f => exact keeps_execVld f s hs
  | vst f => exact keeps_execVst f s hs
  | vgather f => exact keeps_execVgather f s hs
  | vscatter f => exact keeps_execVscatter f s hs
  | vshape d a imm => exact keeps_execVshape d a imm s hs
  | swadd f => exact keeps_execSwadd f s hs
  | swsub f => exact keeps_execSwsub f s hs
  | swmul f => exact keeps_execSwmul f s hs
  | swmin f => exact keeps_execSwmin f s hs
  | swmax f => exact keeps_execSwmax f s hs
  | swfma f => exact keeps_execSwfma f s hs
  | swcvt f => exact keeps_execSwcvt f s hs
  | swcopy f => exact keeps_execSwcopy f s hs
  | swbarq f => exact keeps_execSwbarq f s hs
  | ecmd f => exact keeps_execEcmd f s hs
  | ewait f => exact keeps_execEwait f s hs
  | mwfetch f => exact keeps_execMwfetch f s hs
  | mwload f => exact keeps_execMwload f s hs
  | mwswap f => exact keeps_execMwswap f s hs
  | mgwait f => exact keeps_execMgwait f s hs
  | mgadv f => exact keeps_execMgadv f s hs
  | mgread f => exact keeps_execMgread f s hs
  | mstream f => exact keeps_execMstream f s hs
  | spawn f => exact keeps_execSpawn f s hs
  | xplan f => exact keeps_execXplan f s hs
  | plansel value => exact keeps_execPlansel value s hs
  | rxcfg ring value => exact keeps_execRxcfg ring value s hs
  | kbin value => exact keeps_execKbin value s hs
  | walloc value => exact keeps_execWalloc value s hs
  | pmctl value => exact keeps_execPmctl value s hs
  | fetch a line => exact keeps_execFetch a line s hs
  | drain a k => exact keeps_execDrain a k s hs
  | deliver k => exact keeps_execDeliver k s hs
  | refresh a va pa => exact keeps_execRefresh a va pa s hs
  | evict a ofFetch pa => exact keeps_execEvict a ofFetch pa s hs
  | replicaPropagation k => exact keeps_execReplicaPropagation k s hs
  | watchWake cell => exact keeps_execWatchWake cell s hs
  | watchRetry a => exact keeps_execWatchRetry a s hs
  | pageAnswer epoch ok => exact keeps_execPageAnswer epoch ok s hs
  | pageRequestTimeout epoch => exact keeps_execPageRequestTimeout epoch s hs
  | pageMigration tenant va newPage phase => exact keeps_execPageMigration tenant va newPage phase s hs
  | shootdown tenant va => exact keeps_execShootdown tenant va s hs
  | hotPageList die chan => exact keeps_execHotPageList die chan s hs
  | refreshWindow die bank => exact keeps_execRefreshWindow die bank s hs
  | sliceControl die slice tenant shared => exact keeps_execSliceControl die slice tenant shared s hs
  | memoryError e => exact keeps_execMemoryError e s hs
  | sweepPassBegin => exact keeps_execSweepPassBegin s hs
  | sweepPassEnd => exact keeps_execSweepPassEnd s hs
  | writeBack core => exact keeps_execWriteBack core s hs
  | recordLoad core => exact keeps_execRecordLoad core s hs
  | pickUp core => exact keeps_execPickUp core s hs
  | idleTimeout a => exact keeps_execIdleTimeout a s hs
  | recvtTimeout a => exact keeps_execRecvtTimeout a s hs
  | superstepClose run level core => exact keeps_execSuperstepClose run level core s hs
  | planEntryDepart core => exact keeps_execPlanEntryDepart core s hs
  | planEntryLand k => exact keeps_execPlanEntryLand k s hs
  | messageDelivery a => exact keeps_execMessageDelivery a s hs
  | keyPairApply k => exact keeps_execKeyPairApply k s hs
  | blockQueueLimit p limit => exact keeps_execBlockQueueLimit p limit s hs
  | blockQueueTake p => exact keeps_execBlockQueueTake p s hs
  | weightFetchRead core => exact keeps_execWeightFetchRead core s hs
  | mwloadExpansion core => exact keeps_execMwloadExpansion core s hs
  | quoin core rows => exact keeps_execQuoin core rows s hs
  | streamCompletion core => exact keeps_execStreamCompletion core s hs
  | copy core steps => exact keeps_execCopy core steps s hs
  | gather core steps => exact keeps_execGather core steps s hs
  | scatter core steps => exact keeps_execScatter core steps s hs
  | epilogueS8 core steps => exact keeps_execEpilogueS8 core steps s hs
  | epilogueZ8 core steps => exact keeps_execEpilogueZ8 core steps s hs
  | epilogueS16 core steps => exact keeps_execEpilogueS16 core steps s hs
  | epilogueZ16 core steps => exact keeps_execEpilogueZ16 core steps s hs
  | epilogueS32 core steps => exact keeps_execEpilogueS32 core steps s hs
  | epilogueZ32 core steps => exact keeps_execEpilogueZ32 core steps s hs
  | epilogueFp16 core steps => exact keeps_execEpilogueFp16 core steps s hs
  | epilogueBf16 core steps => exact keeps_execEpilogueBf16 core steps s hs
  | epilogueFp32 core steps => exact keeps_execEpilogueFp32 core steps s hs
  | epilogueE4m3 core steps => exact keeps_execEpilogueE4m3 core steps s hs
  | epilogueE5m2 core steps => exact keeps_execEpilogueE5m2 core steps s hs
  | flitReceive p f => exact keeps_execFlitReceive p f s hs
  | linkRetrain p => exact keeps_execLinkRetrain p s hs
  | linkDown p => exact keeps_execLinkDown p s hs
  | dieReset die => exact keeps_execDieReset die s hs
  | packetLoad q => exact keeps_execPacketLoad q s hs
  | launch q => exact keeps_execLaunch q s hs
  | waitctr q => exact keeps_execWaitctr q s hs
  | signal q => exact keeps_execSignal q s hs
  | copyPacket q => exact keeps_execCopyPacket q s hs
  | marker q => exact keeps_execMarker q s hs
  | doorbell q => exact keeps_execDoorbell q s hs
  | runEnd run => exact keeps_execRunEnd run s hs
  | preemptionDecision q => exact keeps_execPreemptionDecision q s hs
  | preemptBoundary core => exact keeps_execPreemptBoundary core s hs
  | save core => exact keeps_execSave core s hs
  | preemptingLaunch q => exact keeps_execPreemptingLaunch q s hs
  | restore core => exact keeps_execRestore core s hs
  | hostKill run => exact keeps_execHostKill run s hs
  | queueShadowWrite q word value => exact keeps_execQueueShadowWrite q word value s hs
  | queueDestroy q => exact keeps_execQueueDestroy q s hs
  | hostWindowTableWrite k w => exact keeps_execHostWindowTableWrite k w s hs
  | atsInvalidation pasid hostPage => exact keeps_execAtsInvalidation pasid hostPage s hs
  | acceptanceWindowWrite card k w => exact keeps_execAcceptanceWindowWrite card k w s hs
  | bar2Access card offset n write => exact keeps_execBar2Access card offset n write s hs
  | powerCEntry core => exact keeps_execPowerCEntry core s hs
  | powerCExit core => exact keeps_execPowerCExit core s hs
  | powerSEntry die => exact keeps_execPowerSEntry die s hs
  | powerSExit die => exact keeps_execPowerSExit die s hs
  | powerDEntry => exact keeps_execPowerDEntry s hs
  | clockStepDown card => exact keeps_execClockStepDown card s hs
  | clockStepUp card => exact keeps_execClockStepUp card s hs
  | watchdogKick card => exact keeps_execWatchdogKick card s hs
  | watchdogExpiry card => exact keeps_execWatchdogExpiry card s hs
  | deviceReset monitorOk firmwareOk security => exact keeps_execDeviceReset monitorOk firmwareOk security s hs
  | reducedService => exact keeps_execReducedService s hs
  | fullService => exact keeps_execFullService s hs
  | attestation nonce => exact keeps_execAttestation nonce s hs
  | energyInterval card nanojoules activity => exact keeps_execEnergyInterval card nanojoules activity s hs
  | routerGridDump die k => exact keeps_execRouterGridDump die k s hs
  | counterSample core => exact keeps_execCounterSample core s hs
  | stopRequest run level => exact keeps_execStopRequest run level s hs
  | debugResume run held => exact keeps_execDebugResume run held s hs
  | brkInterception run armed => exact keeps_execBrkInterception run armed s hs
  | debugRead t => exact keeps_execDebugRead t s hs
  | debugWrite t value => exact keeps_execDebugWrite t value s hs
  | replay core => exact keeps_execReplay core s hs
  | replayStep core => exact keeps_execReplayStep core s hs
  | traceEnable die run ring len => exact keeps_execTraceEnable die run ring len s hs
  | hypervisorClaim u => exact keeps_execHypervisorClaim u s hs
  | hypervisorRelease u => exact keeps_execHypervisorRelease u s hs
  | illegalInstruction p0 => exact keeps_execIllegalInstruction p0 s hs
  | trainingFailure code unit => exact keeps_execTrainingFailure code unit s hs
  | linkRetrainingComplete p => exact keeps_execLinkRetrainingComplete p s hs
  | powerDExit => exact keeps_execPowerDExit s hs
  | replayArm run journal => exact keeps_execReplayArm run journal s hs
  | binaryLoad b => exact keeps_execBinaryLoad b s hs
  | binaryUnload leases => exact keeps_execBinaryUnload leases s hs
  | guardTableRefusal hart addr level tenant access => exact keeps_execGuardTableRefusal hart addr level tenant access s hs
/-! ### Instructions by parts -/

theorem keeps_atomicPart (f : MFields) (fn5 : BitVec 5) : (atomicPart f fn5).Keeps := by
  mvcgen [atomicPart, keeps_accCheck, keeps_need, keeps_atomicStore, keeps_xl, keeps_atomicSend]

theorem keeps_sweepPart (i : Instr) (f : WFields) (x : SweepOp) (s : State) (hs : s.Inv) :
    Outcome.Keeps (runInstr i (recordedStep f.count.toNat (x.step f i.p0)) s) :=
  keeps_runInstr _ _ s hs (keeps_recordedStep _ _ fun k => SweepOp.keeps_step x f i.p0 k)

theorem keeps_execPart (i : Instr) (s : State) (hs : s.Inv) : Outcome.Keeps (execPart i s) := by
  have atomic (f : MFields) (fn5 : BitVec 5) := keeps_runInstr i _ s hs (keeps_atomicPart f fn5)
  have sweep (f : WFields) (x : SweepOp) := keeps_sweepPart i f x s hs
  unfold execPart
  split
  · exact atomic _ _
  · exact atomic _ _
  · exact atomic _ _
  · exact atomic _ _
  · exact atomic _ _
  · exact atomic _ _
  · exact atomic _ _
  · exact atomic _ _
  · exact atomic _ _
  · exact atomic _ _
  · exact atomic _ _
  · exact keeps_runInstr _ _ s hs (keeps_vldPart _)
  · exact keeps_runInstr _ _ s hs ((keeps_gatherChecks _).bind fun _ =>
      keeps_recordedStep _ _ fun k => keeps_gatherStep _ s k)
  · exact keeps_runInstr _ _ s hs ((keeps_gatherChecks _).bind fun _ =>
      keeps_recordedStep _ _ fun k => keeps_scatterStep _ s k)
  · exact sweep _ _
  · exact sweep _ _
  · exact sweep _ _
  · exact sweep _ _
  · exact sweep _ _
  · exact sweep _ _
  · exact sweep _ _
  · exact sweep _ _
  · exact sweep _ _
  · exact keeps_exec _ s hs

/-! ### What an issue brings -/

theorem State.inv_startClock (s : State) (r : Run) (hs : s.Inv) : (s.startClock r).Inv :=
  State.inv_dropData _ _ (State.inv_updRun _ _ _ hs)

theorem State.inv_restoredIssue (s : State) (core : Nat) (hs : s.Inv) : (s.restoredIssue core).Inv :=
  State.inv_ite (State.inv_trace _ _ _ _ _ _ (State.inv_setCoreAt _ _ _ hs)) hs

theorem State.inv_beginIssue (s : State) (hs : s.Inv) : s.beginIssue.Inv := by
  unfold State.beginIssue
  grind [State.inv_startClock, State.inv_restoredIssue]

theorem State.inv_countIssue (s : State) (i : Instr) (hs : s.Inv) : (s.countIssue i).Inv := by
  unfold State.countIssue
  grind [State.inv_beginIssue, State.inv_countPair]

/-! ### The next instruction of an agent -/

/-- The state that fetching and decoding leave. -/
def Next.left : Next → State
  | .instr _ s | .illegal _ s | .trap _ _ s | .park _ _ s | .held s => s

theorem decodeAt_left (d : BitVec 512) (k : Nat) (s : State) : (decodeAt d k s).left = s := by
  unfold decodeAt
  dsimp only
  split <;> rfl

theorem State.inv_issueFrom (s : State) (l : FetchLine) (k : Nat) (la : Word) (hs : s.Inv) :
    (s.issueFrom l k la).left.Inv := by
  have line (c : BitVec 8) : State.Inv (if c = 0x04 then s.meetLine l.va else s) :=
    State.inv_ite (State.inv_meetLine s _ hs) hs
  unfold State.issueFrom
  dsimp only
  split
  · exact line _
  · split
    · exact line _
    · rw [decodeAt_left]
      exact State.inv_ite (State.inv_setCtx s _ hs) hs

theorem State.inv_nextInstr (s : State) (hs : s.Inv) : s.nextInstr.left.Inv := by
  unfold State.nextInstr
  dsimp only
  split
  · exact State.inv_noted s _ hs
  · split
    · exact hs
    · split
      · exact State.inv_noted s _ hs
      · exact hs
      · exact State.inv_heldBy s (.line _) hs
      · exact State.inv_issueFrom _ _ _ _ (State.inv_cacheLease _ _ (State.inv_fetchLine s _ hs _ _ ‹_›))

/-! ### Issuing -/

theorem keeps_afterIssue (old : State) (i : Option Instr) (x : Host.Outcome State Fault Refusal) (ho : old.Inv)
    (hx : Outcome.Keeps x) : Outcome.Keeps (afterIssue old i x) := by
  cases x with
  | next t => exact (Outcome.keeps_next _).2 (State.inv_recorded old t i ho ((Outcome.keeps_next t).1 hx))
  | fault _ => exact hx
  | refused _ => exact hx

theorem keeps_finish (x : Host.Outcome State Fault Refusal) (hx : Outcome.Keeps x) : Outcome.Keeps (finish x) := by
  cases x with
  | next t => exact (Outcome.keeps_next _).2 (State.inv_pass t ((Outcome.keeps_next t).1 hx))
  | fault _ => exact hx
  | refused _ => exact hx

section
variable (run : Instr → State → Host.Outcome State Fault Refusal) (hrun : ∀ i s, s.Inv → Outcome.Keeps (run i s))
include hrun

theorem keeps_issueNow (s : State) (hs : s.Inv) : Outcome.Keeps (issueNow run s) := by
  unfold issueNow
  split
  · exact keeps_afterIssue s _ _ hs ((Outcome.keeps_next _).2 (State.inv_takeTrap _ _ _ _ (State.inv_setCtx s _ hs)))
  · exact keeps_afterIssue s _ _ hs ((Outcome.keeps_next _).2 (State.inv_takeTrap _ _ _ _ (State.inv_setCtx s _ hs)))
  · have h := State.inv_nextInstr s hs
    split <;> rename_i hn <;> rw [hn] at h
    · exact keeps_afterIssue _ _ _ h (hrun _ _ (State.inv_countIssue _ _ h))
    · exact keeps_afterIssue _ _ _ h (keeps_execIllegalInstruction _ _ (State.inv_beginIssue _ h))
    · exact keeps_afterIssue _ _ _ h ((Outcome.keeps_next _).2 (State.inv_takeTrap _ _ _ _ h))
    · exact keeps_afterIssue _ _ _ h ((Outcome.keeps_next _).2 (State.inv_parkOn _ _ _ _ h))
    · exact (Outcome.keeps_next _).2 h

theorem keeps_issueBy (s : State) (a : Agent) (hs : s.Inv) : Outcome.Keeps (issueBy run s a) := by
  have h := State.inv_settleAwaited s a hs
  unfold issueBy
  dsimp only
  split
  · exact (Outcome.keeps_next _).2 (State.inv_of_memory_eq hs rfl rfl rfl)
  · split
    · exact keeps_issueNow run hrun _ (State.inv_take _ _ h)
    · exact (Outcome.keeps_next _).2 (State.inv_of_memory_eq h rfl rfl rfl)
end

theorem State.inv_issueEarly (s : State) (a : Agent) (hs : s.Inv) (t : State) (ht : s.issueEarly a = some t) : t.Inv := by
  have h := State.inv_nextInstr _ (State.inv_take s a hs)
  unfold State.issueEarly at ht
  dsimp only at ht
  repeat' split at ht
  all_goals cases ht
  rename_i i u hn _ _ he _
  rw [hn] at h
  exact keeps_execPart _ _ (State.inv_countIssue _ _ h) _ he

theorem keeps_issue (s : State) (a : Agent) (hs : s.Inv) : Outcome.Keeps (issue s a) := keeps_issueBy exec keeps_exec s a hs

theorem keeps_issuePart (s : State) (a : Agent) (hs : s.Inv) : Outcome.Keeps (issuePart s a) := by
  unfold issuePart
  dsimp only
  repeat' split
  all_goals grind [keeps_issue, keeps_issueBy, keeps_execPart, State.inv_issueEarly, Outcome.keeps_next]

/-! ### The steps the machine takes of its own -/

theorem State.inv_afterEvent (s : State) (x : Host.Outcome State Fault Refusal) (hs : s.Inv) (hx : Outcome.Keeps x) :
    (s.afterEvent x).Inv := by
  cases x with
  | next t => exact (Outcome.keeps_next t).1 hx
  | fault _ => exact hs
  | refused _ => exact hs

theorem State.inv_of_map {α : Type} {x : Option α} {f : α → State} {t : State} (ht : x.map f = some t)
    (hf : ∀ a, (f a).Inv) : t.Inv := by
  obtain ⟨a, -, rfl⟩ := Option.map_eq_some_iff.1 ht
  exact hf a

theorem State.inv_of_findSome {α : Type} {xs : List α} {f : α → Option State} {t : State} (ht : xs.findSome? f = some t)
    (hf : ∀ a t, f a = some t → t.Inv) : t.Inv := by
  obtain ⟨a, -, h⟩ := List.exists_of_findSome?_eq_some ht
  exact hf a t h

theorem State.inv_of_ite {c : Prop} [Decidable c] {x y : Option State} {t : State} (ht : (if c then x else y) = some t)
    (hx : x = some t → t.Inv) (hy : y = some t → t.Inv) : t.Inv := by
  split at ht
  · exact hx ht
  · exact hy ht

theorem State.inv_lane (s : State) (n : Nat) (hs : s.Inv) (t : State) (ht : s.lane n = some t) : t.Inv := by
  refine State.inv_of_ite ht (fun ht => State.inv_of_map ht fun p => State.inv_deliver s p hs) fun ht => ?_
  refine State.inv_of_ite ht (fun ht => State.inv_of_map ht fun p => State.inv_drain s p hs) fun ht => ?_
  refine State.inv_of_ite ht (fun ht => State.inv_of_map ht fun p =>
    State.inv_propagate _ p (State.inv_of_memory_eq hs rfl rfl rfl)) fun ht => ?_
  refine State.inv_of_ite ht (fun ht => State.inv_of_ite ht (fun ht => Option.some.inj ht ▸ State.inv_wakeWatches s _ hs)
    nofun) fun ht => ?_
  refine State.inv_of_ite ht (fun ht => State.inv_of_map ht fun k => State.inv_recordLoad s k hs) fun ht => ?_
  refine State.inv_of_ite ht (fun ht => State.inv_of_map ht fun k => State.inv_pickUp s k hs) fun ht => ?_
  refine State.inv_of_ite ht (fun ht => State.inv_of_map ht fun k =>
    State.inv_afterEvent s _ hs (keeps_execPreemptBoundary k s hs)) fun ht => ?_
  refine State.inv_of_ite ht (fun ht => State.inv_of_map ht fun k => ?_) fun ht => ?_
  · split
    · exact State.inv_afterEvent s _ hs (keeps_execPlanEntryLand k s hs)
    · exact State.inv_afterEvent s _ hs (keeps_execKeyPairApply k s hs)
  refine State.inv_of_ite ht (fun ht => State.inv_of_findSome ht fun k t h => ?_) fun ht => ?_
  · have close (run level : Nat) := State.inv_afterEvent s _ hs (keeps_execSuperstepClose run level k s hs)
    dsimp only at h
    repeat' split at h
    all_goals cases h
    exact close _ _
  refine State.inv_of_ite ht (fun ht => State.inv_of_map ht fun a => State.inv_deliverMessage s a hs) fun ht => ?_
  refine State.inv_of_ite ht (fun ht => State.inv_of_map ht fun a =>
    State.inv_afterEvent s _ hs (keeps_execRecvtTimeout a s hs)) fun ht => ?_
  refine State.inv_of_ite ht (fun ht => State.inv_of_map ht fun k => State.inv_setCoreAt s k _ hs) fun ht => ?_
  refine State.inv_of_ite ht (fun ht => State.inv_of_map ht fun k =>
    State.inv_afterEvent s _ hs (keeps_execWriteBack k s hs)) fun ht => ?_
  refine State.inv_of_ite ht (fun ht => State.inv_of_findSome ht fun k t h =>
    State.inv_of_map h fun p => State.inv_recvtOver s k _ hs) fun ht => ?_
  exact State.inv_of_ite ht (fun ht => State.inv_of_map ht fun q => State.inv_hartStep s _ hs) fun ht =>
    State.inv_of_map ht fun k => State.inv_sweepPart s _ _ hs

theorem State.inv_drift (s : State) (hs : s.Inv) : s.drift.Inv := by
  unfold State.drift
  cases h : (List.range laneCount).findSome? (fun i => s.lane ((s.tick / 4 + i) % laneCount)) with
  | none => exact hs
  | some t => exact State.inv_of_findSome h fun i t h => State.inv_lane s _ hs t h

/-! ### One step -/

theorem keeps_step (s : State) (hs : s.Inv) : Outcome.Keeps (step s) := by
  have absent : Outcome.Keeps (.fault .absentAgent) := fun _ h => nomatch h
  have rest (xs : List Turn) : State.Inv { s with agenda := xs } := State.inv_of_memory_eq hs rfl rfl rfl
  unfold step
  split
  · exact keeps_finish _ (keeps_exec _ _ (rest _))
  · split
    · exact keeps_finish _ (keeps_issue _ _ (rest _))
    · exact absent
  · exact keeps_finish _ ((Outcome.keeps_next _).2 (State.inv_hartStep _ _ (rest _)))
  · split
    · exact keeps_finish _ (keeps_issuePart _ _ (rest _))
    · exact absent
  · exact keeps_finish _ ((Outcome.keeps_next _).2 (State.inv_act _ _ (rest _)))
  · split
    · exact keeps_finish _ (keeps_issue _ _ hs)
    · exact keeps_finish _ ((Outcome.keeps_next _).2 (State.inv_drift s hs))

/-- Settles O58: every operation on the state keeps the form, hence every body, every instruction and event, and every way a
step comes about. -/
theorem stepKeepsInv : Obligations.StepKeepsInv := fun s t hs h => keeps_step s hs t h

end Sys2Proof.Machine
end

section
/-! What an access or a revocation does to the Press,
    to pages and to those who wait leaves the issuing agent and the registers
of the lease table as they are. -/

namespace Sys2Proof.Machine
set_option Elab.async false

/-- The issuing agent and the registers of the lease table. -/
def State.fixed (s : State) : Agent × Leases := (s.cur, s.leases)

theorem State.fixed_eq (s : State) : s.fixed = (s.cur, s.leases) := rfl
theorem State.cur_of_fixed {s t : State} (h : t.fixed = s.fixed) : t.cur = s.cur := congrArg Prod.fst h
theorem State.leases_of_fixed {s t : State} (h : t.fixed = s.fixed) : t.leases = s.leases := congrArg Prod.snd h

theorem State.fixed_foldl {β : Type} (f : State → β → State) (h : ∀ s x, (f s x).fixed = s.fixed) (xs : List β)
    (s : State) :
    (xs.foldl f s).fixed = s.fixed := foldl_keeps State.fixed f h xs s

theorem State.fixed_setLink (s : State) (p : Port) (x : Link) :
    (s.setLink p x).fixed = s.fixed := rfl

theorem State.fixed_sendItems (s : State) (fromDie dst : Nat) (xs : List LinkItem) :
    (s.sendItems fromDie dst xs).fixed = s.fixed := by
  obtain h | ⟨p, x, h⟩ := s.sendItems_eq fromDie dst xs <;> rw [h]
  rfl

theorem State.fixed_acknowledge (s : State) (p : Piece) :
    (s.acknowledge p).fixed = s.fixed := by
  unfold State.acknowledge
  grind [State.fixed_sendItems]

theorem State.fixed_updRun (s : State) (id : Nat) (f : Run → Run) :
    (s.updRun id f).fixed = s.fixed := by
  unfold State.updRun
  grind [State.fixed_eq]

theorem State.fixed_loseDeferred (s : State) (run : Nat) :
    (s.loseDeferred run).fixed = s.fixed := by
  unfold State.loseDeferred
  grind [State.fixed_updRun]

theorem State.fixed_setCoreAt (s : State) (k : Nat) (c : Core) :
    (s.setCoreAt k c).fixed = s.fixed := rfl

theorem State.fixed_setPoison (s : State) (a : Nat) (t : Bool) :
    (s.setPoison a t).fixed = s.fixed := rfl

theorem State.fixed_clearPoison (s : State) (a n : Nat) :
    (s.clearPoison a n).fixed = s.fixed := by
  unfold State.clearPoison
  grind [State.fixed_foldl, State.fixed_setPoison]

theorem State.fixed_setTag (s : State) (a : Nat) (t : Bool) :
    (s.setTag a t).fixed = s.fixed := rfl

theorem State.fixed_clearTags (s : State) (a n : Nat) :
    (s.clearTags a n).fixed = s.fixed := by
  unfold State.clearTags
  grind [State.fixed_foldl, State.fixed_setTag]

theorem State.fixed_setByte (s : State) (a : Nat) (x : Byte) :
    (s.setByte a x).fixed = s.fixed := rfl

theorem State.fixed_setBytes (s : State) (a : Nat) (bs : List Byte) :
    (s.setBytes a bs).fixed = s.fixed := by
  induction bs generalizing s a with
  | nil => rfl
  | cons b rest ih => exact ih _ _

theorem State.fixed_writeHome (s : State) (a : Nat) (bs : List Byte) :
    (s.writeHome a bs).fixed = s.fixed := by
  unfold State.writeHome
  grind [State.fixed_clearPoison, State.fixed_clearTags, State.fixed_setBytes]

theorem State.fixed_deferSaved (s : State) (core slot : Nat) (sv : SavedCore) (d : Deferred) :
    (s.deferSaved core slot sv d).fixed = s.fixed := by
  unfold State.deferSaved
  grind [State.fixed_loseDeferred, State.fixed_setCoreAt, State.fixed_writeHome]

theorem State.fixed_setCtxOf (s : State) (a : Agent) (c : Ctx) :
    (s.setCtxOf a c).fixed = s.fixed := rfl

theorem State.fixed_defer (s : State) (a : Agent) (run : Nat) (eval : Word) (pc : BitVec 48) :
    (s.defer a run eval pc).fixed = s.fixed := by
  unfold State.defer
  grind [State.fixed_loseDeferred, State.fixed_deferSaved, State.fixed_setCtxOf]

theorem State.fixed_failAtomic (s : State) (p : Piece) (dst : Option (BitVec 5)) (cause : BitVec 8) :
    (s.failAtomic p dst cause).fixed = s.fixed := by
  unfold State.failAtomic
  grind [State.fixed_setCoreAt, State.fixed_setCtxOf, State.fixed_defer]

theorem State.fixed_markForeign (s : State) (agent : Agent) (a : Nat) :
    (s.markForeign agent a).fixed = s.fixed := by
  unfold State.markForeign
  grind [State.fixed_setCoreAt]

theorem State.fixed_noteDelivered (s : State) (agent : Agent) (a : Nat) :
    (s.noteDelivered agent a).fixed = s.fixed := rfl

theorem State.fixed_setViews (s : State) (v : List Sector) :
    (s.setViews v).fixed = s.fixed := rfl

theorem State.fixed_refreshHeld (s : State) (a : Agent) (pa : Nat) :
    (s.refreshHeld a pa).fixed = s.fixed := by
  unfold State.refreshHeld
  grind [State.fixed_setViews]

theorem State.fixed_setDie (s : State) (d : Nat) (x : Die) :
    (s.setDie d x).fixed = s.fixed := rfl

theorem State.fixed_setSlice (s : State) (d n : Nat) (x : Slice) :
    (s.setSlice d n x).fixed = s.fixed := by
  unfold State.setSlice
  grind [State.fixed_setDie]

theorem State.fixed_touchSector (s : State) (a : Nat) (w : Writer) (nonAlloc whole : Bool) :
    (s.touchSector a w nonAlloc whole).fixed = s.fixed := by
  unfold State.touchSector
  grind [State.fixed_setSlice]

theorem State.fixed_touch (s : State) (a : Nat) (w : Writer) (nonAlloc : Bool) :
    (s.touch a w nonAlloc).fixed = s.fixed := by
  unfold State.touch
  grind [State.fixed_touchSector]

theorem State.fixed_written (s : State) (agent : Agent) (run a : Nat) (nonAlloc : Bool) :
    (s.written agent run a nonAlloc).fixed = s.fixed := by
  unfold State.written
  grind [State.fixed_noteDelivered, State.fixed_refreshHeld, State.fixed_touch]

theorem State.fixed_performAtomic (s : State) (agent : Agent) (run : Nat) (a : Nat) (fn5 : BitVec 5) (wide : Bool)
    (operand cmp : Word) :
    (s.performAtomic agent run a fn5 wide operand cmp).2.fixed = s.fixed := by
  unfold State.performAtomic
  grind [State.fixed_clearTags, State.fixed_setBytes, State.fixed_written]

theorem State.fixed_performCounter (s : State) (agent : Agent) (run : Nat) (a : Nat) (inc : Word) :
    (s.performCounter agent run a inc).fixed = s.fixed := by
  unfold State.performCounter
  grind [State.fixed_clearTags, State.fixed_setBytes, State.fixed_written]

theorem State.fixed_securityEvent (s : State) :
    (s.securityEvent).fixed = s.fixed := rfl

theorem State.fixed_setCtx (s : State) (c : Ctx) :
    (s.setCtx c).fixed = s.fixed := by
  unfold State.setCtx
  grind [State.fixed_setCtxOf]

theorem State.fixed_setG (s : State) (n : BitVec 5) (x : Word) :
    (s.setG n x).fixed = s.fixed := by
  unfold State.setG
  grind [State.fixed_setCtx]

theorem State.fixed_startJob (s : State) (p : Piece) :
    (s.startJob p).fixed = s.fixed := by
  unfold State.startJob
  grind [State.fixed_setBytes]

theorem State.fixed_writeLine (s : State) (p : Piece) :
    (s.writeLine p).fixed = s.fixed := by
  unfold State.writeLine
  grind [State.fixed_foldl, State.fixed_setPoison, State.fixed_setTag, State.fixed_setByte]

theorem State.fixed_perform (s : State) (p : Piece) :
    (s.perform p).fixed = s.fixed := by
  unfold State.perform
  grind [State.fixed_setCtxOf, State.fixed_defer, State.fixed_failAtomic, State.fixed_markForeign,
      State.fixed_written, State.fixed_performAtomic, State.fixed_performCounter, State.fixed_securityEvent,
      State.fixed_setG, State.fixed_startJob, State.fixed_writeLine, State.fixed_eq]

theorem State.fixed_setQueues (s : State) (q f : List Piece) :
    (s.setQueues q f).fixed = s.fixed := by
  unfold State.setQueues
  grind [State.fixed_eq]

theorem State.fixed_deliver (s : State) (p : Piece) :
    (s.deliver p).fixed = s.fixed := by
  unfold State.deliver
  grind [State.fixed_acknowledge, State.fixed_perform, State.fixed_setQueues]

theorem State.fixed_deliverWhere (s : State) (a : Agent) (w : Piece → Bool) :
    (s.deliverWhere a w).fixed = s.fixed := by
  unfold State.deliverWhere
  grind [State.fixed_foldl, State.fixed_deliver]

theorem State.fixed_route (s : State) (p : Piece) :
    (s.route p).fixed = s.fixed := State.fixed_sendItems _ _ _ _

theorem State.fixed_drain (s : State) (p : Piece) :
    (s.drain p).fixed = s.fixed := by
  unfold State.drain
  grind [State.fixed_setQueues, State.fixed_route]

theorem State.fixed_drainWhere (s : State) (a : Agent) (w : Piece → Bool) :
    (s.drainWhere a w).fixed = s.fixed := by
  unfold State.drainWhere
  grind [State.fixed_foldl, State.fixed_drain]

theorem State.fixed_propagate (s : State) (p : Propagation) :
    (s.propagate p).fixed = s.fixed := by
  unfold State.propagate
  grind [State.fixed_defer, State.fixed_written, State.fixed_securityEvent, State.fixed_writeLine]

theorem State.fixed_flush (s : State) (a : Agent) :
    (s.flush a).fixed = s.fixed := by
  unfold State.flush
  grind [State.fixed_foldl, State.fixed_deliverWhere, State.fixed_drainWhere, State.fixed_propagate, State.fixed_eq]

theorem State.fixed_landCaps (s : State) (ls : List Nat) :
    (s.landCaps ls).fixed = s.fixed := by
  unfold State.landCaps
  grind [State.fixed_foldl, State.fixed_flush]

theorem State.fixed_tellWake (s : State) (w : Watch) :
    (s.tellWake w).fixed = s.fixed := by
  unfold State.tellWake
  grind [State.fixed_sendItems]

theorem State.fixed_wakeAgent (s : State) (a : Agent) (why : Reason) :
    (s.wakeAgent a why).fixed = s.fixed := by
  unfold State.wakeAgent
  grind [State.fixed_setCtxOf]

theorem State.fixed_checkArrival (s : State) (core : Nat) :
    (s.checkArrival core).fixed = s.fixed := by
  unfold State.checkArrival
  grind [State.fixed_setCoreAt]

theorem State.fixed_logAgain (s : State) (core : Nat) (e : SideEntry) (epoch : Nat) :
    (s.logAgain core e epoch).fixed = s.fixed := by
  unfold State.logAgain
  grind [State.fixed_setCoreAt]

theorem State.fixed_requestPage (s : State) (die tenant va : Nat) :
    (s.requestPage die tenant va).2.fixed = s.fixed := by
  unfold State.requestPage
  grind [State.fixed_eq]

theorem State.fixed_settle (s : State) (a : Agent) (place n : Nat) :
    (s.settle a place n).fixed = s.fixed := by
  unfold State.settle
  grind [State.fixed_deliverWhere, State.fixed_drainWhere]

theorem State.fixed_storeNow (s : State) (p : Piece) :
    (s.storeNow p).fixed = s.fixed := by
  unfold State.storeNow
  grind [State.fixed_perform, State.fixed_settle]

theorem State.fixed_tableError (s : State) :
    (s.tableError).fixed = s.fixed := rfl

theorem State.fixed_holdLeaf (s : State) (a : Agent) (e : Option TlbEntry) :
    (s.holdLeaf a e).fixed = s.fixed := by
  unfold State.holdLeaf
  grind [State.fixed_setCoreAt, State.fixed_setDie]

theorem State.fixed_walked (s : State) (a : Agent) (va : Nat) :
    (s.walked a va).fixed = s.fixed := by
  unfold State.walked
  grind [State.fixed_foldl, State.fixed_touch]

theorem State.fixed_translated (s : State) (a : Agent) (va : Nat) (e : Option TlbEntry) :
    (s.translated a va e).fixed = s.fixed := by
  unfold State.translated
  grind [State.fixed_holdLeaf, State.fixed_walked]

theorem State.fixed_coreStore (s : State) (core run : Nat) (a : Agent) (va : Nat) (x : BitVec 512 × BitVec 512) :
    (s.coreStore core run a va x).fixed = s.fixed := by
  unfold State.coreStore
  grind [State.fixed_defer, State.fixed_setQueues, State.fixed_logAgain, State.fixed_requestPage,
      State.fixed_storeNow, State.fixed_tableError, State.fixed_translated]

theorem State.fixed_writeState (s : State) (core run : Nat) (a : Agent) (rec : Nat) (x : BitVec 4) :
    (s.writeState core run a rec x).fixed = s.fixed := by
  unfold State.writeState
  grind [State.fixed_coreStore]

theorem State.fixed_makeReady (s : State) (core : Nat) (p : Parked) :
    (s.makeReady core p).fixed = s.fixed := by
  unfold State.makeReady
  grind [State.fixed_setCoreAt, State.fixed_setDie, State.fixed_checkArrival, State.fixed_writeState]

theorem State.fixed_wakeRecord (s : State) (core : Nat) (addr : BitVec 48) :
    (s.wakeRecord core addr).fixed = s.fixed := by
  unfold State.wakeRecord
  grind [State.fixed_makeReady]

theorem State.fixed_wakeWaiter (s : State) (w : Waiter) :
    (s.wakeWaiter w).fixed = s.fixed := by
  unfold State.wakeWaiter
  grind [State.fixed_wakeAgent, State.fixed_wakeRecord]

theorem State.fixed_dropLeaseCaches (s : State) (ls : List Nat) :
    (s.dropLeaseCaches ls).fixed = s.fixed := rfl

theorem State.fixed_setLease (s : State) (n : Nat) (x : Lease) :
    (s.setLease n x).fixed = s.fixed := by
  unfold State.setLease
  grind [State.fixed_writeHome]

theorem State.fixed_putLease (s : State) (n : Nat) (x : Lease) :
    (s.putLease n x).fixed = s.fixed := by
  unfold State.putLease
  grind [State.fixed_touch, State.fixed_setLease]

theorem State.fixed_revoke (s : State) (n : Nat) :
    (s.revoke n).fixed = s.fixed := by
  unfold State.revoke
  grind [State.fixed_putLease]

theorem State.fixed_tellRevoked (s : State) (n : Nat) :
    (s.tellRevoked n).fixed = s.fixed := by
  unfold State.tellRevoked
  grind [State.fixed_foldl, State.fixed_sendItems]

theorem State.fixed_setCard (s : State) (c : Nat) (x : Card) :
    (s.setCard c x).fixed = s.fixed := rfl

theorem State.fixed_holdAts (s : State) (a : Agent) (va : Nat) :
    (s.holdAts a va).fixed = s.fixed := by
  unfold State.holdAts
  grind [State.fixed_setCard]

theorem State.fixed_replayEntry (s : State) (core : Nat) (e : SideEntry) :
    (s.replayEntry core e).fixed = s.fixed := by
  unfold State.replayEntry
  grind [State.fixed_defer, State.fixed_logAgain, State.fixed_requestPage, State.fixed_storeNow,
      State.fixed_tableError, State.fixed_translated]

theorem State.fixed_takeFrom (s : State) (core : Nat) (hit : SideEntry → Bool) (f : State → SideEntry → State)
    (hf : ∀ s e, (f s e).fixed = s.fixed) :
    (s.takeFrom core hit f).fixed = s.fixed := by
  unfold State.takeFrom
  grind [State.fixed_foldl, State.fixed_setCoreAt]

theorem State.fixed_replayOwn (s : State) (a : Agent) (va : Nat) :
    (s.replayOwn a va).fixed = s.fixed := by
  unfold State.replayOwn
  grind [State.fixed_foldl, State.fixed_replayEntry, State.fixed_takeFrom]

end Sys2Proof.Machine
end

section
/-! A lease and its live descendants: what the closure along PARENT collects, and what revoking it does to the table
(R66, R67). -/

namespace Sys2Proof.Machine
set_option Elab.async false

/-! ### The leases with a STATE -/

theorem Sparse.mem_of_get_ne {α : Type} {d : α} {l : List (Nat × α)} {k : Nat} (h : Sparse.get d l k ≠ d) :
    (k, Sparse.get d l k) ∈ l := by
  induction l with
  | nil => exact absurd rfl h
  | cons p rest ih =>
    obtain ⟨j, x⟩ := p
    rw [Sparse.get] at h ⊢
    split
    case isTrue e => exact e ▸ List.mem_cons_self
    case isFalse e =>
      rw [if_neg e] at h
      exact List.mem_cons_of_mem _ (ih h)

/-- Bits 56 and 57 of a word are the lowest of its byte 7. -/
theorem State.wordAt_state (s : State) (a : Nat) :
    (s.wordAt a).extractLsb' 56 2 = (s.byteAt (a + 7)).extractLsb' 0 2 := by
  refine BitVec.eq_of_toNat_eq ?_
  have b (i : Nat) := (s.byteAt (a + i)).isLt
  have := b 0; have := b 1; have := b 2; have := b 3; have := b 4; have := b 5; have := b 6; have := b 7
  simp only [State.wordAt, State.bytesAt, show List.range 8 = [0, 1, 2, 3, 4, 5, 6, 7] from rfl, List.map_cons, List.map_nil,
    leNat, BitVec.extractLsb'_toNat, BitVec.toNat_ofNat, Nat.shiftRight_eq_div_pow]
  omega

theorem State.mem_leasesIn_of_live {s : State} {k : Nat} (hk : k < 65536) (h0 : k ≠ 0) (live : (s.lease k).state = 1) :
    k ∈ s.leasesIn 1 := by
  have place : leasePlace k + 7 = Config.leaseTable + 32 * k + 7 := by rw [leasePlace, Nat.mod_eq_of_lt hk]
  have byte : (s.byteAt (leasePlace k + 7)).extractLsb' 0 2 = 1 := by
    rw [State.lease, if_neg h0, leaseOfWords] at live
    exact (s.wordAt_state _).symm.trans live
  have stored := Sparse.mem_of_get_ne (d := (0 : Byte)) (l := s.mem) (k := leasePlace k + 7) fun e => by
    rw [State.byteAt, e] at byte
    exact absurd byte (by decide)
  refine List.mem_filterMap.2 ⟨_, stored, ?_⟩
  have inside : Config.leaseTable ≤ leasePlace k + 7 ∧ leasePlace k + 7 < Config.leaseTable + 0x200000 ∧
      (leasePlace k + 7 - Config.leaseTable) % 32 = 7 ∧ (leasePlace k + 7 - Config.leaseTable) / 32 = k := by omega
  obtain ⟨lo, hi, off, num⟩ := inside
  have byte' : (Sparse.get 0#8 s.mem (leasePlace k + 7)).extractLsb' 0 2 = 1#2 := byte
  simp [lo, hi, off, num, byte']
theorem State.lt_of_mem_leasesIn {s : State} {x : BitVec 2} {k : Nat} (h : k ∈ s.leasesIn x) : k < 65536 := by
  obtain ⟨p, -, hp⟩ := List.mem_filterMap.1 h
  split at hp
  case isTrue c =>
    obtain rfl := Option.some.inj hp
    simp only [Bool.and_eq_true, decide_eq_true_eq] at c
    omega
  case isFalse => cases hp
/-- Memory lists its places in rising order, hence the leases without repetition. -/
theorem State.nodup_leasesIn {s : State} (hs : s.Inv) (x : BitVec 2) : (s.leasesIn x).Nodup := by
  have rising := ((Sparse.wfFrom_iff _ _ _).1 (s.inv_iff.1 hs).1).2
  refine List.Pairwise.filterMap _ (fun p q lt i hi j hj e => ?_) rising
  split at hi
  case isFalse => cases hi
  split at hj
  case isFalse => cases hj
  rename_i cp cq
  obtain rfl := Option.some.inj hi
  obtain rfl := Option.some.inj hj
  simp only [Bool.and_eq_true, decide_eq_true_eq] at cp cq
  omega

/-! ### The closure along PARENT -/

/-- What one round adds: the live leases not yet collected whose parent is. -/
def State.children (s : State) (ls : List Nat) : List Nat :=
  (s.leasesIn 1).filter (fun m => !ls.contains m && ls.contains (s.lease m).parent.toNat)

theorem State.closure_succ (s : State) (fuel : Nat) (ls : List Nat) :
    s.closure (fuel + 1) ls = if (s.children ls).isEmpty then ls else s.closure fuel (ls ++ s.children ls) := rfl
theorem State.mem_children {s : State} {ls : List Nat} {m : Nat} :
    m ∈ s.children ls ↔ m ∈ s.leasesIn 1 ∧ m ∉ ls ∧ (s.lease m).parent.toNat ∈ ls := by
  simp [State.children]

/-- What holds of a list and is kept by every round of the closure holds of the closure. -/
theorem State.closure_induct {s : State} (P : List Nat → Prop) (round : ∀ ls, P ls → P (ls ++ s.children ls))
    (fuel : Nat) {ls : List Nat} (h : P ls) : P (s.closure fuel ls) := by
  induction fuel generalizing ls with
  | zero => exact h
  | succ fuel ih =>
    rw [State.closure_succ]
    split
    · exact h
    · exact ih (round ls h)
theorem State.mem_closure_of_mem {s : State} {k : Nat} (fuel : Nat) {ls : List Nat} (h : k ∈ ls) : k ∈ s.closure fuel ls :=
  s.closure_induct (k ∈ ·) (fun _ h => List.mem_append_left _ h) fuel h

/-- Distinct lease numbers other than 0. -/
def leaseNumbers (ls : List Nat) : Prop := ls.Nodup ∧ ∀ k, k ∈ ls → k < 65536 ∧ k ≠ 0

theorem State.leaseNumbers_closure {s : State} (hs : s.Inv) (fuel : Nat) {ls : List Nat} (h : leaseNumbers ls) :
    leaseNumbers (s.closure fuel ls) := by
  refine s.closure_induct leaseNumbers (fun ls h => ?_) fuel h
  obtain ⟨distinct, bounds⟩ := h
  constructor
  · exact List.Nodup.append distinct ((State.nodup_leasesIn hs 1).filter _) fun k hk hm => (State.mem_children.1 hm).2.1 hk
  · intro k hk
    rcases List.mem_append.1 hk with old | new
    · exact bounds k old
    · obtain ⟨listed, fresh, child⟩ := State.mem_children.1 new
      refine ⟨State.lt_of_mem_leasesIn listed, ?_⟩
      rintro rfl
      exact fresh child

/-- A list covers less of another one than with something of it added. -/
theorem length_filter_append_lt {xs ls more : List Nat} {m : Nat} (hx : m ∈ xs) (hl : m ∉ ls) (hm : m ∈ more) :
    (xs.filter (fun x => !(ls ++ more).contains x)).length < (xs.filter (fun x => !ls.contains x)).length := by
  have split : xs.filter (fun x => !(ls ++ more).contains x) =
      (xs.filter (fun x => !ls.contains x)).filter (fun x => !more.contains x) := by
    rw [List.filter_filter]
    refine List.filter_congr fun x _ => ?_
    rw [List.contains_append, Bool.not_or, Bool.and_comm]
  rw [split]
  exact List.length_filter_lt_length_iff_exists.2 ⟨m, by simp [hx, hl], by simp [hm]⟩

/-- With a round for every lease that is not yet collected, nothing is left outside. -/
theorem State.closure_closed {s : State} (fuel : Nat) {ls : List Nat}
    (enough : ((s.leasesIn 1).filter (fun m => !ls.contains m)).length ≤ fuel) {k : Nat} (listed : k ∈ s.leasesIn 1)
    (child : (s.lease k).parent.toNat ∈ s.closure fuel ls) : k ∈ s.closure fuel ls := by
  induction fuel generalizing ls with
  | zero =>
    have none := List.eq_nil_of_length_eq_zero (Nat.le_zero.1 enough)
    show k ∈ ls
    simpa using List.filter_eq_nil_iff.1 none k listed
  | succ fuel ih =>
    rw [State.closure_succ] at child ⊢
    split at child
    case isTrue done =>
      rw [if_pos done]
      by_contra out
      exact List.eq_nil_iff_forall_not_mem.1 (List.isEmpty_iff.1 done) k (State.mem_children.2 ⟨listed, out, child⟩)
    case isFalse more =>
      rw [if_neg more]
      obtain ⟨m, hm⟩ := List.exists_mem_of_ne_nil _ (mt List.isEmpty_iff.2 more)
      obtain ⟨mListed, fresh, -⟩ := State.mem_children.1 hm
      have := length_filter_append_lt mListed fresh hm
      exact ih (by omega) child

/-! ### A lease and its live descendants -/

theorem State.mem_liveUnder_self {s : State} {n : Nat} (live : (s.lease n).state = 1) : n ∈ s.liveUnder n :=
  List.mem_filter.2 ⟨State.mem_closure_of_mem _ (List.mem_singleton_self n), decide_eq_true live⟩
theorem State.live_of_mem_liveUnder {s : State} {n k : Nat} (h : k ∈ s.liveUnder n) : (s.lease k).state = 1 :=
  of_decide_eq_true (List.mem_filter.1 h).2
theorem State.mem_liveUnder_of_parent {s : State} {n k : Nat} (hk : k < 65536) (h0 : k ≠ 0) (live : (s.lease k).state = 1)
    (child : (s.lease k).parent.toNat ∈ s.liveUnder n) : k ∈ s.liveUnder n :=
  List.mem_filter.2 ⟨State.closure_closed _ (List.length_filter_le _ _) (State.mem_leasesIn_of_live hk h0 live)
    (List.mem_filter.1 child).1, decide_eq_true live⟩
theorem State.leaseNumbers_liveUnder {s : State} (hs : s.Inv) {n : Nat} (hn : n < 65536) (h0 : n ≠ 0) :
    leaseNumbers (s.liveUnder n) := by
  obtain ⟨distinct, bounds⟩ := State.leaseNumbers_closure hs (s.leasesIn 1).length (ls := [n])
    ⟨List.nodup_singleton n, fun k hk => by rw [List.mem_singleton.1 hk]; exact ⟨hn, h0⟩⟩
  exact ⟨distinct.filter _, fun k hk => bounds k (List.mem_filter.1 hk).1⟩

/-! ### Entries of the table -/

/-- Bytes outside an entry are none of another's. -/
theorem State.lease_eq_of_bytes {s t : State} {n k : Nat} (ne : k % 65536 ≠ n % 65536)
    (same : ∀ a, ¬ (leasePlace n ≤ a ∧ a < leasePlace n + 32) → t.byteAt a = s.byteAt a) : t.lease k = s.lease k := by
  have word (j : Nat) (hj : j < 3) : t.wordAt (leasePlace k + 8 * j) = s.wordAt (leasePlace k + 8 * j) := by
    refine congrArg (fun bs => BitVec.ofNat 64 (leNat bs)) (List.map_congr_left fun i hi => same _ ?_)
    have := List.mem_range.1 hi
    simp only [leasePlace]
    omega
  have w0 := word 0 (by decide)
  have w1 := word 1 (by decide)
  have w2 := word 2 (by decide)
  simp only [Nat.mul_zero, Nat.add_zero, Nat.mul_one, Nat.reduceMul] at w0 w1 w2
  rw [State.lease, State.lease, w0, w1, w2]
theorem State.lease_putLease_self (s : State) {n : Nat} (x : Lease) (h : n ≠ 0) : (s.putLease n x).lease n = x := by
  rw [State.putLease, State.lease_of_mem (State.touch_mem _ _ _ _), State.lease_setLease_self, if_neg h]
theorem State.byteAt_putLease_outside (s : State) {n a : Nat} (x : Lease)
    (h : ¬ (leasePlace n ≤ a ∧ a < leasePlace n + 32)) : (s.putLease n x).byteAt a = s.byteAt a := by
  rw [State.putLease, State.byteAt_touch, State.setLease, State.byteAt_writeHome]
  exact if_neg h
theorem State.lease_putLease_other (s : State) {n k : Nat} (x : Lease) (hn : n < 65536) (hk : k < 65536) (ne : k ≠ n) :
    (s.putLease n x).lease k = s.lease k :=
  State.lease_eq_of_bytes (by rwa [Nat.mod_eq_of_lt hk, Nat.mod_eq_of_lt hn]) fun _ h => s.byteAt_putLease_outside x h

/-! ### Revocation -/

/-- A lease that is revoked, in the table. -/
def Lease.revoked (e : Lease) : Lease := { e with state := 2, gen := e.gen + 1 }

theorem State.lease_revoke_other (s : State) {n k : Nat} (hn : n < 65536) (hk : k < 65536) (ne : k ≠ n) :
    (s.revoke n).lease k = s.lease k := s.lease_putLease_other _ hn hk ne
theorem State.lease_foldl_revoke (s : State) {ls : List Nat} (h : leaseNumbers ls) {k : Nat} (hk : k < 65536) :
    (ls.foldl State.revoke s).lease k = if k ∈ ls then (s.lease k).revoked else s.lease k := by
  induction ls generalizing s with
  | nil => rfl
  | cons n rest ih =>
    obtain ⟨distinct, bounds⟩ := h
    obtain ⟨fresh, distinct⟩ := List.nodup_cons.1 distinct
    obtain ⟨hn, n0⟩ := bounds n List.mem_cons_self
    rw [List.foldl_cons, ih _ ⟨distinct, fun k hk => bounds k (List.mem_cons_of_mem _ hk)⟩]
    by_cases e : k = n
    · subst e
      rw [if_neg fresh, if_pos List.mem_cons_self, State.lease_revoke_self _ n0]
      rfl
    · rw [State.lease_revoke_other _ hn hk e]
      simp only [List.mem_cons, e, false_or]
theorem State.lease_revokeAll (s : State) {ls : List Nat} (h : leaseNumbers ls) {k : Nat} (hk : k < 65536) :
    (s.revokeAll ls).lease k = if k ∈ ls then ((s.landCaps ls).lease k).revoked else (s.landCaps ls).lease k := by
  rw [← State.lease_foldl_revoke _ h hk]
  exact State.lease_of_mem (foldl_keeps State.mem _ (State.tellRevoked_keeps State.mem fun _ _ => rfl) ls _) k
/-- No stored capability of the leases on its way: nothing lands. -/
theorem State.landCaps_eq_self {s : State} {ls : List Nat}
    (h : (s.press.queues ++ s.press.fifo ++ s.press.props.map Propagation.piece).all (fun p => !p.carries ls) = true) :
    s.landCaps ls = s := by
  have none : (s.press.queues ++ s.press.fifo ++ s.press.props.map Propagation.piece).filter (fun p => p.carries ls) = [] :=
    List.filter_eq_nil_iff.2 fun p hp => by simpa using List.all_eq_true.1 h p hp
  rw [State.landCaps, none]
  rfl

theorem State.leases_revokeAll (s : State) (ls : List Nat) :
    (s.revokeAll ls).leases = { s.leases with eligible := s.leases.eligible ++ ls } := by
  have told : (ls.foldl State.tellRevoked ((ls.foldl State.revoke (s.landCaps ls)).dropLeaseCaches ls)).fixed = s.fixed :=
    calc _
      _ = ((ls.foldl State.revoke (s.landCaps ls)).dropLeaseCaches ls).fixed :=
        State.fixed_foldl _ State.fixed_tellRevoked ls _
      _ = (s.landCaps ls).fixed := State.fixed_foldl _ State.fixed_revoke ls _
      _ = s.fixed := s.fixed_landCaps ls
  rw [State.revokeAll]
  dsimp only
  rw [State.leases_of_fixed told]
theorem State.leases_wakeWatches (s : State) (p : Watch → Bool) : (s.wakeWatches p).leases = s.leases :=
  State.leases_of_fixed (State.fixed_foldl _ (fun s w => (State.fixed_wakeWaiter _ _).trans (s.fixed_tellWake w)) _ _)

end Sys2Proof.Machine
end

section
/-! CLEASE and CFREE (R66, R67). -/

namespace Sys2Proof.Machine
set_option Elab.async false

/-! ### What caching a lease leaves -/

theorem State.pickup_touch (s : State) (a : Nat) (w : Writer) (b : Bool) (d : Nat) :
    ((s.touch a w b).die d).pickup = (s.die d).pickup := by
  unfold State.touch State.touchSector
  split
  · rw [State.setSlice, State.die_setDie]
    split
    · next same => subst same; rfl
    · rfl
  · rfl

/-- The table, the contexts and the run of every agent stay as they are when a lease is cached. -/
structure State.Caches (s t : State) : Prop where
  shape : ∃ D C, t = { s with dies := D, cores := C }
  pickup : ∀ d, (t.die d).pickup = (s.die d).pickup
  core : ∀ k, ∃ l, t.coreAt k = { s.coreAt k with u := { (s.coreAt k).u with leases := l } }

theorem State.caches_readLease (s : State) (n : Nat) : s.Caches (s.readLease n) := by
  unfold State.readLease
  split
  · exact ⟨⟨s.dies, s.cores, rfl⟩, fun d => rfl, fun k => ⟨(s.coreAt k).u.leases, rfl⟩⟩
  · refine ⟨?_, s.pickup_touch _ _ _, fun k => ⟨(s.coreAt k).u.leases, ?_⟩⟩
    · obtain ⟨D, h⟩ := s.touch_shape (leasePlace n) .read false
      exact ⟨D, s.cores, h⟩
    · obtain ⟨D, h⟩ := s.touch_shape (leasePlace n) .read false
      rw [h]
      rfl
theorem State.caches_cacheLease (s : State) (n : Nat) : s.Caches (s.cacheLease n) := by
  have read := s.caches_readLease n
  unfold State.cacheLease
  dsimp only
  split
  · exact read
  · obtain ⟨D, C, h⟩ := read.shape
    refine ⟨⟨D, (Sparse.put Core.reset C _ _), by rw [h]; rfl⟩, read.pickup, fun k => ?_⟩
    obtain ⟨l, hl⟩ := read.core k
    rw [State.setCore, State.coreAt_setCoreAt]
    split
    · next same => subst same; exact ⟨_, by rw [State.core, hl]⟩
    · exact ⟨l, hl⟩

section
variable {s t : State} (h : s.Caches t)
include h

theorem State.Caches.mem : t.mem = s.mem := by obtain ⟨D, C, rfl⟩ := h.shape; rfl
theorem State.Caches.lease (n : Nat) : t.lease n = s.lease n := State.lease_of_mem h.mem n
theorem State.Caches.leases : t.leases = s.leases := by obtain ⟨D, C, rfl⟩ := h.shape; rfl
theorem State.Caches.cur : t.cur = s.cur := by obtain ⟨D, C, rfl⟩ := h.shape; rfl
theorem State.Caches.ctx : t.ctx = s.ctx := by obtain ⟨D, C, rfl⟩ := h.shape; rfl
theorem State.Caches.runOf (a : Agent) : t.runOf a = s.runOf a := by
  have runs : t.runs = s.runs := by obtain ⟨D, C, rfl⟩ := h.shape; rfl
  have run (k : Nat) : (t.coreAt k).run = (s.coreAt k).run := by obtain ⟨l, hl⟩ := h.core k; rw [hl]
  have cont (k rec : Nat) : t.contRun k rec = s.contRun k rec := by
    obtain ⟨l, hl⟩ := h.core k
    simp only [State.contRun, h.pickup, hl]
  cases a <;> simp only [State.runOf, State.gatewayRun, runs, run, cont]

end

/-! ### CLEASE -/

section
variable {s : State} {f : CFields}

theorem clease_of_pass (wf : (Instr.clease f).wf = true) (pass : s.capFault (s.c f.ca) .L 0x40 0 0 true = none) :
    let c := s.c f.ca
    let t := s.cacheLease c.lease.toNat
    (t.popLease = none →
      s.leaves (.clease f) ((t.setG f.x (BitVec.allOnes 64)).setC f.cd Cap.null)) ∧
    (∀ m u, t.popLease = some (m, u) →
      let v := u.mintLease m c.bounds.1 c.bounds.2 t.ctx.sr.cid c.lease (BitVec.ofNat 16 (t.runOf t.cur))
      s.leaves (.clease f) ((v.setC f.cd { c with lease := BitVec.ofNat 16 m, gen := (v.lease m).gen }).setG f.x
        (BitVec.ofNat 64 m))) := by
  intro c t
  constructor
  · intro empty
    refine State.Runs.leaves ⟨rfl, State.accepts_derive (encode_clease f) wf⟩ ?_
    rw [M.get_bind, pass]
    dsimp only
    rw [M.modify_bind, M.get_bind, empty]
    rfl
  · intro m u popped
    refine State.Runs.leaves ⟨rfl, State.accepts_derive (encode_clease f) wf⟩ ?_
    rw [M.get_bind, pass]
    dsimp only
    rw [M.modify_bind, M.get_bind, popped]
    rfl

/-- The free list without lease `m` at its head. -/
def State.popped (t : State) (m : Nat) : State := { t with leases := { t.leases with head := (t.lease m).next } }

theorem State.popLease_eq_some {t u : State} {m : Nat} (h : t.popLease = some (m, u)) : m ≠ 0 ∧ m < 65536 ∧ u = t.popped m := by
  unfold State.popLease at h
  dsimp only at h
  split at h
  · cases h
  case isFalse some =>
    cases h
    exact ⟨mt (fun e => BitVec.eq_of_toNat_eq e) some, t.leases.head.isLt, rfl⟩

/-- The entry of a lease that is minted. -/
def Lease.minted (e : Lease) (lo hi : Int) (owner parent run : BitVec 16) : Lease :=
  { e with state := 1, base := BitVec.ofInt 48 lo, limit := BitVec.ofInt 48 hi, owner := owner, parent := parent, run := run }

theorem State.mintLease_eq (s : State) (n : Nat) (lo hi : Int) (owner parent run : BitVec 16) :
    s.mintLease n lo hi owner parent run = s.putLease n ((s.lease n).minted lo hi owner parent run) := rfl

/-- The registers have no part in the table. -/
theorem State.c_setG (s : State) (n : BitVec 5) (x : Word) (k : BitVec 4) : (s.setG n x).c k = s.c k := by
  have regs : (s.ctx.setG n x).r.c = s.ctx.r.c := by
    unfold Ctx.setG
    split <;> rfl
  simp only [State.setG, State.c, State.ctx_setCtx, regs]
theorem State.byteAt_setG_setC (s : State) (d : BitVec 4) (c : Cap) (x : BitVec 5) (w : Word) (a : Nat) :
    ((s.setC d c).setG x w).byteAt a = s.byteAt a := rfl
theorem State.lease_setG_setC (s : State) (d : BitVec 4) (c : Cap) (x : BitVec 5) (w : Word) (k : Nat) :
    ((s.setC d c).setG x w).lease k = s.lease k := State.lease_of_mem rfl k
theorem State.leases_setG_setC (s : State) (d : BitVec 4) (c : Cap) (x : BitVec 5) (w : Word) :
    ((s.setC d c).setG x w).leases = s.leases := rfl

theorem clease_mints (wf : (Instr.clease f).wf = true) (pass : s.capFault (s.c f.ca) .L 0x40 0 0 true = none)
    {m : Nat} {l : State} (popped : (s.cacheLease (s.c f.ca).lease.toNat).popLease = some (m, l)) :
    let c := s.c f.ca
    ∃ u, s.leaves (.clease f) u ∧
      u.lease m = (s.lease m).minted c.bounds.1 c.bounds.2 s.ctx.sr.cid c.lease (BitVec.ofNat 16 (s.runOf s.cur)) ∧
      (∀ k, k < 65536 → k ≠ m → u.lease k = s.lease k) ∧ u.leases.head = (s.lease m).next ∧
      (∀ a, (a < leasePlace m ∨ leasePlace m + 32 ≤ a) → u.byteAt a = s.byteAt a) ∧
      u.c f.cd = { c with lease := BitVec.ofNat 16 m, gen := (s.lease m).gen } ∧
      (f.x ≠ 0 → u.g f.x = BitVec.ofNat 64 m) := by
  intro c
  have cached := s.caches_cacheLease c.lease.toNat
  obtain ⟨m0, hm, rfl⟩ := State.popLease_eq_some popped
  have left := (clease_of_pass wf pass).2 m _ popped
  dsimp only at left
  generalize s.cacheLease (s.c f.ca).lease.toNat = t at cached left
  have mem : (t.popped m).mem = s.mem := cached.mem
  have lease (k : Nat) : (t.popped m).lease k = s.lease k := State.lease_of_mem mem k
  have byte (a : Nat) : (t.popped m).byteAt a = s.byteAt a := by rw [State.byteAt, mem, State.byteAt]
  have head : (t.popped m).leases.head = (s.lease m).next := congrArg Lease.next (cached.lease m)
  rw [State.mintLease_eq, lease, cached.ctx, cached.cur, cached.runOf, State.lease_putLease_self _ _ m0] at left
  refine ⟨_, left, ?_, fun k hk ne => ?_, ?_, fun a out => ?_, ?_, fun x0 => ?_⟩
  · rw [State.lease_setG_setC, State.lease_putLease_self _ _ m0]
  · rw [State.lease_setG_setC, State.lease_putLease_other _ _ hm hk ne, lease]
  · rw [State.leases_setG_setC, State.leases_of_fixed (State.fixed_putLease _ _ _), head]
  · rw [State.byteAt_setG_setC, State.byteAt_putLease_outside _ _ (by omega), byte]
  · rw [State.c_setG, State.c_setC_self]
    rfl
  · rw [State.g_setG, if_pos ⟨rfl, x0⟩]

/-! ### CFREE -/

theorem cfree_of_derivable (wf : (Instr.cfree f).wf = true) (tag : (s.c f.ca).tag = true) (unsealed : (s.c f.ca).otype = 0) :
    let c := s.c f.ca
    let n := c.lease.toNat
    let u := s.revokeAll (s.liveUnder n)
    (¬ (n ≠ 0 ∧ c.perm.getLsbD 6 = true) → s.traps (.cfree f) 0x0A 0x40) ∧
    (n ≠ 0 → c.perm.getLsbD 6 = true → ¬ ((s.lease n).state = 1 ∧ (s.lease n).gen = c.gen) →
      s.traps (.cfree f) 0x0B (c.lease.setWidth 64)) ∧
    (n ≠ 0 → c.perm.getLsbD 6 = true → (s.lease n).state = 1 → (s.lease n).gen = c.gen →
      s.leaves (.cfree f) ((u.wakeWatches (fun _ => true)).setG f.x
        (s.leases.sweepep + (if s.leases.passing then 2 else 1)))) := by
  intro c n u
  have allowed : (decide ((s.c f.ca).lease ≠ 0) && (s.c f.ca).perm.getLsbD 6) = true ↔ n ≠ 0 ∧ c.perm.getLsbD 6 = true := by
    rw [Bool.and_eq_true, decide_eq_true_eq, Ne, ← BitVec.toNat_inj]
    rfl
  have epoch : (u.wakeWatches (fun _ => true)).leases = { s.leases with eligible := s.leases.eligible ++ s.liveUnder n } :=
    (u.leases_wakeWatches _).trans (s.leases_revokeAll _)
  refine ⟨fun bad => ?_, fun h0 perm stale => ?_, fun h0 perm live current => ?_⟩
  · refine State.Runs.traps (t := s) ⟨rfl, State.accepts_derive (encode_cfree f) wf⟩ ?_
    rw [M.get_bind, derivable_bind, if_pos tag, if_pos unsealed, M.need_bind, if_neg (mt allowed.1 bad)]
  · refine State.Runs.traps (t := s) ⟨rfl, State.accepts_derive (encode_cfree f) wf⟩ ?_
    rw [M.get_bind, derivable_bind, if_pos tag, if_pos unsealed, M.need_bind, if_pos (allowed.2 ⟨h0, perm⟩),
      M.need_bind, if_neg]
    simpa using stale
  · refine State.Runs.leaves ⟨rfl, State.accepts_derive (encode_cfree f) wf⟩ ?_
    rw [M.get_bind, derivable_bind, if_pos tag, if_pos unsealed, M.need_bind, if_pos (allowed.2 ⟨h0, perm⟩),
      M.need_bind, if_pos (by simp [live, current, c, n])]
    rw [← show (u.wakeWatches (fun _ => true)).leases.sweepep = s.leases.sweepep by rw [epoch],
      ← show (u.wakeWatches (fun _ => true)).leases.passing = s.leases.passing by rw [epoch]]
    rfl

end

/-- Settles O21: caching a lease leaves the table alone, minting writes one entry; the closure along PARENT collects every live
descendant within its rounds, and revoking distinct leases changes their entries only. -/
theorem leaseInstructions : Obligations.LeaseInstructions := by
  unfold Obligations.LeaseInstructions
  intro s f c n
  refine ⟨fun wf pass => ⟨(clease_of_pass wf pass).1, fun m l popped => clease_mints wf pass popped⟩,
    fun cause eval wf fault => clease_of_fault wf fault, fun wf tag unsealed => ?_⟩
  obtain ⟨refused, stale, freed⟩ := cfree_of_derivable wf tag unsealed
  refine ⟨refused, stale, fun h0 perm live current hs => ?_⟩
  have numbers := State.leaseNumbers_liveUnder hs c.lease.isLt h0
  exact ⟨freed h0 perm live current, State.mem_liveUnder_self live, fun k => State.live_of_mem_liveUnder,
    fun k hk k0 => State.mem_liveUnder_of_parent hk k0, fun k hk => s.lease_revokeAll numbers hk, State.landCaps_eq_self⟩

end Sys2Proof.Machine
end

section
/-! The bits of a line under a mask, and what a line written at its home leaves (R57, R111, R142, R145). -/

namespace Sys2Proof.Machine
set_option Elab.async false

/-! ### Bits of a line -/

theorem leNat_leBytes_mod (n v : Nat) : leNat (leBytes n v) = v % 256 ^ n := by
  induction n generalizing v with
  | zero => rw [pow_zero, Nat.mod_one]; rfl
  | succ n ih =>
    have step : v % (256 * 256 ^ n) = v % 256 + 256 * (v / 256 % 256 ^ n) := Nat.mod_mul
    rw [leBytes, leNat, ih, pow_succ', step, BitVec.toNat_ofNat]

theorem length_leBytes (n v : Nat) : (leBytes n v).length = n := by
  induction n generalizing v with
  | zero => rfl
  | succ n ih => rw [leBytes, List.length_cons, ih]

theorem getLsbD_shifted (v k i : Nat) (hi : i < 512) :
    (BitVec.ofNat 512 (v * 2 ^ k)).getLsbD i = (decide (k ≤ i) && v.testBit (i - k)) := by
  rw [BitVec.getLsbD_ofNat, decide_eq_true hi, Bool.true_and, Nat.testBit_mul_two_pow]
/-- `n` bits set from bit `k` on. -/
theorem getLsbD_ones (n k i : Nat) (hi : i < 512) :
    (BitVec.ofNat 512 ((2 ^ n - 1) * 2 ^ k)).getLsbD i = decide (k ≤ i ∧ i < k + n) := by
  rw [getLsbD_shifted _ _ _ hi, Nat.testBit_two_pow_sub_one, Bool.eq_iff_iff]
  simp only [Bool.and_eq_true, decide_eq_true_eq]
  omega

/-- The mask of bytes in a line has all bits of those bytes. -/
theorem lineBits_mask (off : Nat) (bs : List Byte) {j : Nat} (hj : j < 64) :
    (lineBits off bs).2.extractLsb' (8 * j) 8 = if off ≤ j ∧ j < off + bs.length then 0xFF#8 else 0 := by
  refine BitVec.eq_of_getLsbD_eq fun i hi => ?_
  rw [BitVec.getLsbD_extractLsb', decide_eq_true hi, Bool.true_and, lineBits, getLsbD_ones _ _ _ (by omega)]
  by_cases within : off ≤ j ∧ j < off + bs.length
  · rw [if_pos within, decide_eq_true (by omega), show 0xFF#8 = BitVec.allOnes 8 from rfl, BitVec.getLsbD_allOnes,
      decide_eq_true hi]
  · rw [if_neg within, decide_eq_false (by omega)]
    exact BitVec.getLsbD_zero.symm
/-- The data of a value's bytes in a line are those bytes. -/
theorem lineBits_data (off n v : Nat) {j : Nat} (hj : j < n) (inside : off + n ≤ 64) :
    (lineBits off (leBytes n v)).1.extractLsb' (8 * (off + j)) 8 = BitVec.ofNat 8 (v / 256 ^ j) := by
  have power (k : Nat) : 256 ^ k = 2 ^ (8 * k) := by rw [pow_mul]; rfl
  refine BitVec.eq_of_getLsbD_eq fun i hi => ?_
  rw [BitVec.getLsbD_extractLsb', lineBits, getLsbD_shifted _ _ _ (by omega), leNat_leBytes_mod, power, power,
    Nat.testBit_mod_two_pow, BitVec.getLsbD_ofNat, Nat.testBit_div_two_pow, decide_eq_true hi,
    decide_eq_true (show 8 * off ≤ 8 * (off + j) + i by omega),
    decide_eq_true (show 8 * (off + j) + i - 8 * off < 8 * n by omega), Bool.true_and, Bool.true_and, Bool.true_and]
  congr 1
  omega

/-- The mask of a nibble in a line. -/
theorem nibble_mask (a : Nat) (low : Prop) [Decidable low] {j : Nat} (hj : j < 64) :
    (BitVec.ofNat 512 (15 * 2 ^ (8 * a + if low then 0 else 4))).extractLsb' (8 * j) 8 =
      if j = a then (if low then 0x0F#8 else 0xF0#8) else 0 := by
  refine BitVec.eq_of_getLsbD_eq fun i hi => ?_
  rw [BitVec.getLsbD_extractLsb', decide_eq_true hi, Bool.true_and, show (15 : Nat) = 2 ^ 4 - 1 from rfl,
    getLsbD_ones _ _ _ (by omega)]
  by_cases same : j = a
  · subst same
    rw [if_pos rfl]
    by_cases h : low
    · rw [if_pos h, if_pos h]
      interval_cases i <;> simp
    · rw [if_neg h, if_neg h]
      interval_cases i <;> simp
  · rw [if_neg same, decide_eq_false (by split <;> omega)]
    exact BitVec.getLsbD_zero.symm
/-- The data of a nibble in a line. -/
theorem nibble_data (v k : Nat) (hk : k + 4 ≤ 512) :
    (BitVec.ofNat 512 (v % 16 * 2 ^ k)).extractLsb' k 4 = BitVec.ofNat 4 v := by
  refine BitVec.eq_of_getLsbD_eq fun i hi => ?_
  rw [BitVec.getLsbD_extractLsb', getLsbD_shifted _ _ _ (by omega), show (16 : Nat) = 2 ^ 4 from rfl, Nat.testBit_mod_two_pow,
    BitVec.getLsbD_ofNat, decide_eq_true (show k ≤ k + i by omega), Nat.add_sub_cancel_left, decide_eq_true hi, Bool.true_and, Bool.true_and]

/-! ### A line written at its home -/

/-- Byte `i` of a piece written at its home. -/
def State.writePieceByte (p : Piece) (s : State) (i : Nat) : State :=
  let m := maskByte p.mask i
  if m = 0 then s
  else s.setByte (p.line + i) ((s.byteAt (p.line + i) &&& ~~~m) ||| (p.data.extractLsb' (8 * i) 8 &&& m))
/-- The tag and the poison of granule `g` of a piece written at its home. -/
def State.writePieceGranule (p : Piece) (s : State) (g : Nat) : State :=
  let m := p.mask.extractLsb' (256 * g) 256
  if m = 0 then s
  else
    let s := s.setTag (p.line + 32 * g) (p.tags.getLsbD g && taggable p.line)
    if m = BitVec.allOnes 256 then s.setPoison (p.line + 32 * g) (p.poison.getLsbD g)
    else if p.poison.getLsbD g then s.setPoison (p.line + 32 * g) true else s
theorem State.writeLine_eq (s : State) (p : Piece) :
    s.writeLine p = (List.range 2).foldl (State.writePieceGranule p) ((List.range 64).foldl (State.writePieceByte p) s) := rfl

/-- What a byte reads once it is written under the mask. -/
def Piece.over (p : Piece) (i : Nat) (old : Byte) : Byte :=
  (old &&& ~~~(p.mask.extractLsb' (8 * i) 8)) ||| (p.data.extractLsb' (8 * i) 8 &&& p.mask.extractLsb' (8 * i) 8)

theorem State.byteAt_writePieceByte (p : Piece) (s : State) (i x : Nat) :
    (State.writePieceByte p s i).byteAt x = if x = p.line + i then p.over i (s.byteAt x) else s.byteAt x := by
  unfold State.writePieceByte Piece.over maskByte
  dsimp only
  split
  case isTrue none =>
    have same (y d : Byte) : (y &&& ~~~0#8) ||| (d &&& 0#8) = y := by
      rw [BitVec.and_zero, BitVec.or_zero, BitVec.not_zero, BitVec.and_allOnes]
    rw [none]
    split
    · exact (same _ _).symm
    · rfl
  case isFalse =>
    rw [State.byteAt_setByte]
    split
    · next here => rw [here]
    · rfl
theorem State.byteAt_writePieceBytes (p : Piece) (s : State) (n x : Nat) :
    ((List.range n).foldl (State.writePieceByte p) s).byteAt x =
      if p.line ≤ x ∧ x < p.line + n then p.over (x - p.line) (s.byteAt x) else s.byteAt x := by
  induction n with
  | zero => rw [if_neg (by omega)]; rfl
  | succ n ih =>
    rw [List.range_succ, List.foldl_append, List.foldl_cons, List.foldl_nil, State.byteAt_writePieceByte, ih]
    by_cases last : x = p.line + n
    · rw [if_pos last, if_neg (by omega), if_pos (by omega), last, Nat.add_sub_cancel_left]
    · rw [if_neg last]
      exact if_congr (by omega) rfl rfl

theorem State.writePieceGranule_mem (p : Piece) (s : State) (g : Nat) : (State.writePieceGranule p s g).mem = s.mem := by
  unfold State.writePieceGranule
  dsimp only
  repeat' split
  all_goals rfl
theorem State.writePieceByte_tags (p : Piece) (s : State) (i : Nat) : (State.writePieceByte p s i).tags = s.tags := by
  unfold State.writePieceByte
  dsimp only
  split <;> rfl
theorem State.tagAt_writePieceGranule (p : Piece) (s : State) (g x : Nat) :
    (State.writePieceGranule p s g).tagAt x =
      if x / 32 = (p.line + 32 * g) / 32 ∧ p.mask.extractLsb' (256 * g) 256 ≠ 0 then p.tags.getLsbD g && taggable p.line
      else s.tagAt x := by
  unfold State.writePieceGranule
  dsimp only
  split
  case isTrue none => rw [if_neg (fun h => h.2 none)]
  case isFalse some =>
    have set := s.tagAt_setTag (p.line + 32 * g) x (p.tags.getLsbD g && taggable p.line)
    rw [← if_congr (and_iff_left some) rfl rfl] at set
    split
    · exact set
    · split
      · exact set
      · exact set

theorem State.byteAt_writeLine (s : State) (p : Piece) (x : Nat) :
    (s.writeLine p).byteAt x =
      if p.line ≤ x ∧ x < p.line + 64 then p.over (x - p.line) (s.byteAt x) else s.byteAt x := by
  rw [State.writeLine_eq, State.byteAt, foldl_keeps State.mem _ (State.writePieceGranule_mem p), ← State.byteAt,
    State.byteAt_writePieceBytes]
theorem State.tagAt_writeLine (s : State) (p : Piece) (x : Nat) :
    (s.writeLine p).tagAt x =
      if x / 32 = (p.line + 32) / 32 ∧ p.mask.extractLsb' 256 256 ≠ 0 then p.tags.getLsbD 1 && taggable p.line
      else if x / 32 = p.line / 32 ∧ p.mask.extractLsb' 0 256 ≠ 0 then p.tags.getLsbD 0 && taggable p.line
      else s.tagAt x := by
  have bytes := foldl_keeps State.tags _ (State.writePieceByte_tags p) (List.range 64) s
  rw [State.writeLine_eq, show List.range 2 = [0, 1] from rfl, List.foldl_cons, List.foldl_cons, List.foldl_nil,
    State.tagAt_writePieceGranule, State.tagAt_writePieceGranule, State.tagAt, bytes, ← State.tagAt]
  rfl
/-- The tag of a granule of an aligned line that is written. -/
theorem State.tagAt_writeLine_granule (s : State) (p : Piece) (aligned : p.line % 64 = 0) {g : Nat} (hg : g < 2) :
    (s.writeLine p).tagAt (p.line + 32 * g) =
      if p.mask.extractLsb' (256 * g) 256 = 0 then s.tagAt (p.line + 32 * g) else p.tags.getLsbD g && taggable p.line := by
  rw [State.tagAt_writeLine]
  obtain rfl | rfl : g = 0 ∨ g = 1 := by omega
  · rw [if_neg (fun h => by omega)]
    split
    · next here => exact (if_neg here.2).symm
    · next out => exact (if_pos (by_contra fun some => out ⟨rfl, some⟩)).symm
  · split
    · next here => exact (if_neg here.2).symm
    · next out =>
      rw [if_neg (fun h => by omega)]
      exact (if_pos (by_contra fun some => out ⟨rfl, some⟩)).symm
/-- Writing a line changes memory only. -/
theorem State.writeLine_keeps {γ : Type} (g : State → γ)
    (memory : ∀ s m t p, g { s with mem := m, tags := t, poison := p } = g s) (s : State) (p : Piece) :
    g (s.writeLine p) = g s := by
  refine (foldl_keeps g _ (fun s i => ?_) _ _).trans (foldl_keeps g _ (fun s i => ?_) _ _)
  · dsimp only
    repeat' split
    all_goals exact memory s s.mem _ _
  · dsimp only
    split
    · rfl
    · exact memory s _ s.tags s.poison

end Sys2Proof.Machine
end

section
/-! ST, STC and STW put one piece into the store queue (R58, R111, R116, R117, R119, R142). -/

namespace Sys2Proof.Machine
set_option Elab.async false

/-! ### The access check -/

theorem State.Caches.refl (s : State) : s.Caches s := ⟨⟨s.dies, s.cores, rfl⟩, fun _ => rfl, fun k => ⟨(s.coreAt k).u.leases, rfl⟩⟩
theorem State.Caches.trans {s t u : State} (h : s.Caches t) (h' : t.Caches u) : s.Caches u := by
  obtain ⟨D, C, rfl⟩ := h.shape
  obtain ⟨D', C', rfl⟩ := h'.shape
  refine ⟨⟨D', C', rfl⟩, fun d => (h'.pickup d).trans (h.pickup d), fun k => ?_⟩
  obtain ⟨l, hl⟩ := h.core k
  obtain ⟨l', hl'⟩ := h'.core k
  exact ⟨l', by rw [hl', hl]⟩

theorem M.TrapsOr.ok {α : Type} {x : M α} {s t : State} {a : α} {P : α → State → Prop} (h : M.TrapsOr x s P)
    (done : x s = .ok a t) : P a t := by
  rwa [M.TrapsOr, done] at h
theorem M.TrapsOr.elemAddr {c : Cap} {i0 i1 : Int} {s : State} {P : Nat → State → Prop} (h : ∀ a, P a s) :
    M.TrapsOr (elemAddr c i0 i1) s P := by
  unfold Machine.elemAddr
  dsimp only
  split
  · exact ⟨_, _, _, rfl⟩
  · exact h _
/-- An access that passes its check has a type that its format accepts, and has cached at most a lease (R110). -/
theorem accCheck_ok {c : Cap} {k : Kind} {ok : Bool} {n a : Nat} {i0 i1 : Int} {s u : State}
    (h : accCheck c k ok n i0 i1 s = .ok a u) : ok = true ∧ s.Caches u := by
  have once := s.caches_cacheLease c.lease.toNat
  have checked : M.TrapsOr (accCheck c k ok n i0 i1) s fun _ t => ok = true ∧ s.Caches t := by
    unfold accCheck
    refine .capCheck (.need fun accepted => ?_)
    split
    · refine .capCheck (.need fun _ => .elemAddr fun _ => ⟨accepted, once.trans (State.caches_cacheLease _ _)⟩)
    · exact .elemAddr fun _ => ⟨accepted, once⟩
  exact checked.ok h

/-! ### One piece enters the store queue -/

/-- The piece that a store of the issuing agent is. -/
def State.pieceOf (w : State) (a pa : Nat) (d m : BitVec 512) (tags : BitVec 2) (rpl : Bool) (ord : Nat) : Piece :=
  { agent := w.cur, op := .write, line := pa / 64 * 64, va := BitVec.ofNat 48 a, data := d, mask := m, tags := tags, poison := 0,
    replicated := rpl, nonAlloc := ord = 2, run := w.runOf w.cur, pc := w.pc.setWidth 48, ord := ord }
/-- A piece of the issuing agent enters its queue; with ord 1 it is performed at once. -/
def State.stored (w : State) (p : Piece) (ord : Nat) : State :=
  let t := w.setQueues (w.press.queues ++ [p]) w.press.fifo
  if ord = 1 then t.settle t.cur p.place 1 else t

theorem storeBits_place {u : State} {a pa : Nat} {rpl : Bool} {e : Option TlbEntry} (present : u.xlate u.cur a .write = .ok pa rpl e)
    (d m : BitVec 512) (tags : BitVec 2) (c : Cap) (ord : Nat) :
    storeBits a d m tags c ord u = .ok () ((u.reach a e).stored ((u.reach a e).pieceOf a pa d m tags rpl ord) ord) := by
  have place : storeTo a .write u = .ok (.place pa rpl) (u.reach a e) := by
    unfold storeTo
    rw [M.get_bind, present]
    rfl
  unfold storeBits
  rw [M.bind_ok place]
  rfl

/-- `i` completes and has put one piece of `n` bytes of a value into the queue of `w`. -/
def State.Puts (s w : State) (f : MFields) (a pa : Nat) (rpl : Bool) (i : Instr) (n value : Nat) (tags : BitVec 2) : Prop :=
  ∃ t p, s.leaves i t ∧ p.agent = s.cur ∧ p.op = .write ∧ p.line = pa / 64 * 64 ∧ p.va.toNat = a % 2 ^ 48 ∧ p.tags = tags ∧
    p.replicated = rpl ∧ p.nonAlloc = decide (f.ord = 2) ∧ p.pc = w.pc.setWidth 48 ∧
    (∀ j, j < 64 → p.mask.extractLsb' (8 * j) 8 = if a % 64 ≤ j ∧ j < a % 64 + n then 0xFF#8 else 0) ∧
    (∀ j, j < n → a % 64 + n ≤ 64 → p.data.extractLsb' (8 * (a % 64 + j)) 8 = BitVec.ofNat 8 (value / 256 ^ j)) ∧
    (f.ord ≠ 1 → t.press.queues = w.press.queues ++ [p] ∧ t.press.fifo = w.press.fifo ∧ t.mem = w.mem ∧
      t.tags = w.tags ∧ t.ctx = w.ctx ∧ t.core.window = w.core.window) ∧
    (f.ord = 1 → t = (w.setQueues (w.press.queues ++ [p]) w.press.fifo).settle w.cur p.place 1)

theorem ord_eq_iff (x : BitVec 3) (n : Nat) (hn : n < 8) : x.toNat = n ↔ x = BitVec.ofNat 3 n := by
  rw [← BitVec.toNat_inj, BitVec.toNat_ofNat, Nat.mod_eq_of_lt hn]

theorem State.stored_eq_of_ord {w : State} {p : Piece} {f : MFields} (h : f.ord ≠ 1) :
    w.stored p f.ord.toNat = w.setQueues (w.press.queues ++ [p]) w.press.fifo :=
  if_neg (mt (ord_eq_iff f.ord 1 (by decide)).1 h)

/-- An instruction that leaves its piece in the queue puts the piece's bytes there. -/
theorem State.Puts.of_leaves {s w : State} {f : MFields} {a pa : Nat} {rpl : Bool} {i : Instr} {n value : Nat} {tags : BitVec 2}
    (cur : w.cur = s.cur)
    (h : s.leaves i (w.stored (w.pieceOf a pa (lineBits (a % 64) (leBytes n value)).1 (lineBits (a % 64) (leBytes n value)).2
      tags rpl f.ord.toNat) f.ord.toNat)) : s.Puts w f a pa rpl i n value tags := by
  generalize hx : lineBits (a % 64) (leBytes n value) = x at h
  refine ⟨_, w.pieceOf a pa x.1 x.2 tags rpl f.ord.toNat, h, cur, rfl, rfl, BitVec.toNat_ofNat _ _, rfl, rfl,
    decide_eq_decide.2 (ord_eq_iff f.ord 2 (by decide)), rfl, fun j hj => ?_, fun j hj inside => ?_, fun other => ?_,
    fun one => ?_⟩
  · have mask := lineBits_mask (a % 64) (leBytes n value) hj
    rwa [length_leBytes, hx] at mask
  · have data := lineBits_data (a % 64) n value hj inside
    rwa [hx] at data
  · rw [State.stored_eq_of_ord other]
    exact ⟨rfl, rfl, rfl, rfl, rfl, rfl⟩
  · exact if_pos ((ord_eq_iff f.ord 1 (by decide)).2 one)

/-! ### What precedes the piece (R82) -/

theorem State.holdAts_shape (s : State) (a : Agent) (va : Nat) : ∃ C, s.holdAts a va = { s with cards := C } := by
  unfold State.holdAts
  dsimp only
  split
  · split
    · exact ⟨s.cards, rfl⟩
    · exact ⟨_, rfl⟩
  · exact ⟨s.cards, rfl⟩
theorem State.takeFrom_of_empty {s : State} {core : Nat} {hit : SideEntry → Bool} {f : State → SideEntry → State}
    (h : (s.coreAt core).u.sideLog = []) : s.takeFrom core hit f = s := by
  unfold State.takeFrom
  simp only [h, List.filter_nil, List.isEmpty_nil, if_true]
/-- With empty side logs nothing replays. -/
theorem State.replayOwn_of_empty {s : State} (a : Agent) (va : Nat) (h : ∀ k, (s.coreAt k).u.sideLog = []) :
    s.replayOwn a va = s := by
  unfold State.replayOwn
  cases agentCore a with
  | none => rfl
  | some k =>
    have away (js : List Nat) (hit : Nat → SideEntry → Bool) (f : Nat → State → SideEntry → State) :
        js.foldl (fun s j => s.takeFrom j (hit j) (f j)) s = s := by
      induction js with
      | nil => rfl
      | cons j rest ih => rw [List.foldl_cons, State.takeFrom_of_empty (h j), ih]
    dsimp only
    rw [away _ (fun _ => _) (fun j s e => s.replayEntry j e)]
    exact State.takeFrom_of_empty (h k)
theorem State.fixed_reach (s : State) (a : Nat) (e : Option TlbEntry) : (s.reach a e).fixed = s.fixed :=
  (State.fixed_replayOwn _ _ _).trans ((State.fixed_holdAts _ _ _).trans (State.fixed_translated _ _ _ _))
theorem State.reach_of_empty {u : State} (a : Nat) (e : Option TlbEntry) (h : ∀ k, (u.coreAt k).u.sideLog = []) :
    (u.reach a e).mem = u.mem ∧ (u.reach a e).tags = u.tags ∧ (u.reach a e).ctxs = u.ctxs ∧ (u.reach a e).press = u.press := by
  have walked := u.translates_translated u.cur a e
  obtain ⟨C, held⟩ := (u.translated u.cur a e).holdAts_shape u.cur a
  have logs (k : Nat) : (((u.translated u.cur a e).holdAts u.cur a).coreAt k).u.sideLog = [] := by
    obtain ⟨l, hl⟩ := walked.core k
    rw [held]
    exact (congrArg (fun c => c.u.sideLog) hl).trans (h k)
  rw [State.reach, State.replayOwn_of_empty _ _ logs, held]
  exact ⟨walked.mem, walked.tags, walked.ctxs, walked.press⟩

/-! ### The instructions -/

/-- A window operand of the allocation passes its checks (R119, R199, R201). -/
theorem windowOperand_ok {s : State} {n : Int} {wide : Bool} (h : s.winOk n wide) : windowOperand n wide s = .ok () s := by
  obtain ⟨lo, hi, pair⟩ := h
  have inside : (0 ≤ n && n < s.wsize) = true := by simp [lo, hi]
  cases wide with
  | false => simp [windowOperand, winCheck, winIn, lo, hi]
  | true =>
    obtain ⟨even, second⟩ := pair rfl
    have lo' : 0 ≤ n + 1 := by omega
    simp [windowOperand, winEven, winCheck, winIn, lo, hi, even, lo', second]


/-- The loads and stores of scalars and capabilities are of the engine profile (R159). -/
theorem State.accepts_memory {s : State} {i : Instr} {fn5 : BitVec 5} {f : MFields} (words : encode i = Enc.m fn5 1 f)
    (other : fn5 ≠ 5 ∧ fn5 ≠ 6) (wf : i.wf = true) : s.accepts i := by
  refine ⟨fun _ => ?_, wf⟩
  obtain ⟨-, op, -, major, length⟩ := Enc.m_eq_iff.1 (rfl : Enc.m fn5 1 f = [_, _])
  simp only [inProfile, words, Enc.m, parcelInProfile, major, length, op]
  obtain ⟨pair, window⟩ := other
  simp
  exact ⟨pair, window⟩

section
variable {s u : State} {f : MFields} {a pa : Nat} {rpl : Bool} {e : Option TlbEntry}

theorem State.reach_cur (checked : s.Caches u) (a : Nat) (e : Option TlbEntry) : (u.reach a e).cur = s.cur :=
  (State.cur_of_fixed (u.fixed_reach a e)).trans checked.cur

theorem storeElem_bytes {c : Cap} (n ord : Nat) (i0 i1 : Int) (x : Nat) (bytes : c.fmt.toNat ≠ 0x0F) :
    storeElem c n ord i0 i1 a x = storeBits a (lineBits (a % 64) (leBytes n x)).1 (lineBits (a % 64) (leBytes n x)).2 0 Cap.null ord :=
  if_neg bytes
theorem storeElem_nibble {c : Cap} (n ord : Nat) (i0 i1 : Int) (x : Nat) (s4 : c.fmt.toNat = 0x0F) :
    storeElem c n ord i0 i1 a x =
      storeBits a (BitVec.ofNat 512 (x % 16 * 2 ^ (8 * (a % 64) + if c.lin i0 i1 % 2 = 0 then 0 else 4)))
        (BitVec.ofNat 512 (15 * 2 ^ (8 * (a % 64) + if c.lin i0 i1 % 2 = 0 then 0 else 4))) 0 Cap.null ord :=
  if_pos s4
theorem fmt_ne_s4 {c : Cap} (h : c.fmt ≠ 0x0F) : c.fmt.toNat ≠ 0x0F := fun e => h (BitVec.eq_of_toNat_eq e)

/-- The value that STC stores may carry its tag to where it goes (R58). -/
def Cap.mayGo (x c : Cap) : Prop := ¬ (x.scope = 0 ∧ c.scope ≠ 0 ∧ c.perm.getLsbD 7 = false)

theorem stcTag_eq (x c : Cap) (a : Nat) (u : State) (goes : (x.tag && u.alive x) = true → x.mayGo c) :
    stcTag x c a u = .ok (x.tag && u.alive x) u := by
  unfold stcTag
  rw [M.get_bind]
  cases tagged : x.tag && u.alive x with
  | false =>
    rw [if_pos (by rw [← Bool.not_and, tagged]; rfl)]
    rfl
  | true =>
    rw [if_neg (by rw [← Bool.not_and, tagged]; decide), if_neg]
    · rfl
    · simpa [Cap.mayGo, and_assoc] using goes tagged
theorem stcTag_traps {x c : Cap} {a : Nat} {u : State} (tagged : (x.tag && u.alive x) = true) (stays : ¬ x.mayGo c) :
    stcTag x c a u = .error (.trap 0x0A (BitVec.ofNat 64 a) .none) u := by
  unfold stcTag
  rw [M.get_bind, if_neg (by rw [← Bool.not_and, tagged]; decide), if_pos]
  · rfl
  · simpa [Cap.mayGo, and_assoc] using stays

theorem capFormat_iff (x : BitVec 6) : decide (x.toNat = Fmt.cap) = decide (x = 0x20) :=
  decide_eq_decide.2 (BitVec.toNat_inj (y := 0x20))

theorem stc_traps (wf : (Instr.stc f).wf = true)
    (passed : accCheck (s.c f.c) .SC ((s.c f.c).fmt = 0x20) 32 (s.index0 f) (s.index1 f) s = .ok a u)
    (tagged : ((s.c (f.t.setWidth 4)).tag && u.alive (s.c (f.t.setWidth 4))) = true)
    (stays : ¬ (s.c (f.t.setWidth 4)).mayGo (s.c f.c)) : s.traps (.stc f) 0x0A (BitVec.ofNat 64 a) := by
  rw [← capFormat_iff] at passed
  refine State.Runs.traps (t := u) ⟨rfl, State.accepts_memory (encode_stc f) (by decide) wf⟩ ?_
  rw [M.bind_ok passed, M.bind_error (stcTag_traps tagged stays)]
section
variable (present : u.xlate u.cur a .write = .ok pa rpl e)
include present

theorem st_puts (wf : (Instr.st f).wf = true) (bytes : (s.c f.c).fmt ≠ 0x0F)
    (passed : accCheck (s.c f.c) .S (scalarAccepts (s.c f.c).fmt.toNat f.ty.toNat false) (scalarSize f.ty.toNat) (s.index0 f)
      (s.index1 f) s = .ok a u) :
    s.Puts (u.reach a e) f a pa rpl (.st f) (scalarSize f.ty.toNat) (s.g f.t).toNat 0 := by
  refine .of_leaves (State.reach_cur (accCheck_ok passed).2 a e)
    (State.Runs.leaves ⟨rfl, State.accepts_memory (encode_st f) (by decide) wf⟩ ?_)
  rw [M.bind_ok passed, storeElem_bytes _ _ _ _ _ (fmt_ne_s4 bytes), M.bind_ok (storeBits_place present _ _ _ _ _)]
  rfl

/-- ST of an S4 element: the nibble and its mask (R111). -/
theorem st_nibble (wf : (Instr.st f).wf = true) (s4 : (s.c f.c).fmt = 0x0F)
    (passed : accCheck (s.c f.c) .S (scalarAccepts 0x0F f.ty.toNat false) (scalarSize f.ty.toNat) (s.index0 f) (s.index1 f) s =
      .ok a u) :
    ∃ t, s.leaves (.st f) t ∧
      (f.ord ≠ 1 → t.mem = (u.reach a e).mem ∧ t.ctx = (u.reach a e).ctx ∧
        ∃ p, t.press.queues = (u.reach a e).press.queues ++ [p] ∧
        (∀ j, j < 64 → p.mask.extractLsb' (8 * j) 8 =
          if j = a % 64 then (if (s.c f.c).lin (s.index0 f) (s.index1 f) % 2 = 0 then 0x0F#8 else 0xF0#8) else 0) ∧
        p.data.extractLsb' (8 * (a % 64) + (if (s.c f.c).lin (s.index0 f) (s.index1 f) % 2 = 0 then 0 else 4)) 4 =
          (s.g f.t).extractLsb' 0 4) := by
  have s4' : (s.c f.c).fmt.toNat = 0x0F := by rw [s4]; rfl
  rw [← s4'] at passed
  have left := State.Runs.leaves (t := (u.reach a e).stored ((u.reach a e).pieceOf a pa _ _ 0 rpl f.ord.toNat) f.ord.toNat)
    ⟨rfl, State.accepts_memory (encode_st f) (by decide) wf⟩ (by
      rw [M.bind_ok passed, storeElem_nibble _ _ _ _ _ s4', M.bind_ok (storeBits_place present _ _ _ _ _)]
      rfl)
  refine ⟨_, left, fun other => ?_⟩
  rw [State.stored_eq_of_ord other]
  refine ⟨rfl, rfl, _, rfl, fun j hj => nibble_mask _ _ hj, ?_⟩
  refine (nibble_data _ _ (by split <;> omega)).trans ?_
  rw [extractLsb'_zero_eq_setWidth]
  exact (BitVec.ofNat_toNat _ _)

theorem stw_puts (wf : (Instr.stw f).wf = true) (context : isEngine s.cur = false) (window : s.winOk (s.winNum f.t 0) (f.ty == 6))
    (passed : accCheck (s.c f.c) .S (scalarAccepts (s.c f.c).fmt.toNat f.ty.toNat false) (if f.ty == 6 then 8 else 4) (s.index0 f)
      (s.index1 f) s = .ok a u) :
    s.Puts (u.reach a e) f a pa rpl (.stw f) (if f.ty == 6 then 8 else 4) (s.winBits (s.winNum f.t 0) (f.ty == 6)) 0 := by
  refine .of_leaves (State.reach_cur (accCheck_ok passed).2 a e)
    (State.Runs.leaves ⟨rfl, fun engine => absurd engine (by simp [context]), wf⟩ ?_)
  have bytes : (s.c f.c).fmt.toNat ≠ 0x0F := by
    intro s4
    have accepted := (accCheck_ok passed).1
    rw [s4] at accepted
    have ty : f.ty = 4 ∨ f.ty = 6 := by
      have := (Bool.and_eq_true_iff.1 wf).1
      simpa using this
    rcases ty with h | h <;> rw [h] at accepted <;> exact absurd accepted (by decide)
  dsimp only
  rw [M.bind_ok (windowOperand_ok window), M.bind_ok passed, storeElem_bytes _ _ _ _ _ bytes,
    M.bind_ok (storeBits_place present _ _ _ _ _)]
  rfl

theorem stc_puts (wf : (Instr.stc f).wf = true)
    (passed : accCheck (s.c f.c) .SC ((s.c f.c).fmt = 0x20) 32 (s.index0 f) (s.index1 f) s = .ok a u)
    (goes : ((s.c (f.t.setWidth 4)).tag && u.alive (s.c (f.t.setWidth 4))) = true → (s.c (f.t.setWidth 4)).mayGo (s.c f.c)) :
    s.Puts (u.reach a e) f a pa rpl (.stc f) 32 (s.c (f.t.setWidth 4)).bits.toNat
      (if (s.c (f.t.setWidth 4)).tag && u.alive (s.c (f.t.setWidth 4)) then (if a % 64 < 32 then 1 else 2) else 0) := by
  have cur := State.reach_cur (accCheck_ok passed).2 a e
  rw [← capFormat_iff] at passed
  refine .of_leaves cur (State.Runs.leaves ⟨rfl, State.accepts_memory (encode_stc f) (by decide) wf⟩ ?_)
  rw [M.bind_ok passed, M.bind_ok (stcTag_eq _ _ _ _ goes)]
  unfold storeCap
  dsimp only
  rw [M.bind_ok (storeBits_place present _ _ _ _ _)]
  rfl

end

end

/-- Settles O25: a store leaves one piece with the bits of its bytes behind what the access itself replays; a line written under a
mask is written byte by byte and granule by granule. -/
theorem storeResults : Obligations.StoreResults := by
  unfold Obligations.StoreResults
  refine ⟨fun s u f a pa e rpl => ?_, fun s p => ⟨fun x out => ⟨?_, fun aligned => ?_⟩, fun i hi => ?_, fun aligned g hg => ?_, ?_, ?_⟩⟩
  · intro c ty i0 i1 x w puts present
    refine ⟨State.reach_of_empty a e, fun wf bytes passed => st_puts present wf bytes passed,
      fun wf s4 passed => st_nibble present wf s4 passed, fun wf context window passed => stw_puts present wf context window passed,
      fun wf passed => ⟨fun tagged host other closed => ?_, fun goes => ?_⟩⟩
    · exact stc_traps wf passed tagged fun goes => goes ⟨host, other, closed⟩
    · refine stc_puts present wf passed fun tagged ⟨host, other, closed⟩ => ?_
      exact Bool.false_ne_true (closed.symm.trans (goes tagged host other))
  · exact (s.byteAt_writeLine p x).trans (if_neg (by omega))
  · rw [State.tagAt_writeLine, if_neg (fun h => ?_), if_neg (fun h => ?_)] <;> omega
  · refine (s.byteAt_writeLine p _).trans ?_
    rw [if_pos (by omega), Nat.add_sub_cancel_left]
    rfl
  · exact State.tagAt_writeLine_granule s p aligned hg
  · exact State.writeLine_keeps State.ctxs (fun _ _ _ _ => rfl) s p
  · exact State.writeLine_keeps State.cores (fun _ _ _ _ => rfl) s p

end Sys2Proof.Machine
end

section
/-! Loads: where their bytes come from and what each form makes of them (R59, R79, R80, R98, R103, R114, R116 to R119, R143, R285). -/

namespace Sys2Proof.Machine
set_option Elab.async false

/-! ### What a read past the store queue leaves -/

/-- Another state of the dies, the links, the cores and the views. -/
def State.Reads (s t : State) : Prop := ∃ D L C V, t = { s with dies := D, links := L, cores := C, press := { s.press with views := V } }

theorem State.Reads.mem {s t : State} (h : s.Reads t) : t.mem = s.mem := by obtain ⟨D, L, C, V, rfl⟩ := h; rfl
theorem State.Reads.ctxs {s t : State} (h : s.Reads t) : t.ctxs = s.ctxs := by obtain ⟨D, L, C, V, rfl⟩ := h; rfl
theorem State.Reads.trans {s t u : State} (h : s.Reads t) (h' : t.Reads u) : s.Reads u := by
  obtain ⟨D, L, C, V, rfl⟩ := h
  obtain ⟨D', L', C', V', rfl⟩ := h'
  exact ⟨D', L', C', V', rfl⟩

theorem State.reads_touch (s : State) (a : Nat) (w : Writer) (b : Bool) : s.Reads (s.touch a w b) := by
  obtain ⟨D, h⟩ := s.touch_shape a w b
  exact ⟨D, s.links, s.cores, s.press.views, h⟩
theorem State.reads_setViews (s : State) (v : List Sector) : s.Reads (s.setViews v) := ⟨s.dies, s.links, s.cores, v, rfl⟩
theorem State.reads_asks (s : State) (a : Agent) (r : Request) (place : Nat) (answers : List LinkBody) :
    s.Reads (s.asks a r place answers) := by
  obtain ⟨L, h⟩ := s.asks_shape a r place answers
  exact ⟨s.dies, L, s.cores, s.press.views, h⟩
theorem State.missed_shape (s : State) (pa : Nat) : ∃ L C, s.missed pa = { s with links := L, cores := C } := by
  unfold State.missed
  extract_lets t
  obtain ⟨C, ht⟩ : ∃ C, t = { s with cores := C } := by
    unfold t
    split
    · exact ⟨_, rfl⟩
    · exact ⟨s.cores, rfl⟩
  split
  · exact ⟨s.links, C, ht⟩
  · obtain ⟨L, h⟩ := t.asks_shape s.cur (t.plainRequest s.cur 0 4 (pa / 128 * 128) 0 0) pa _
    refine ⟨L, C, ?_⟩
    rw [State.asksSector]
    exact h.trans (by rw [ht])

theorem State.reads_missed (s : State) (pa : Nat) : s.Reads (s.missed pa) := by
  obtain ⟨L, C, h⟩ := s.missed_shape pa
  exact ⟨s.dies, L, C, s.press.views, h⟩

/-- The sector that a cached read of `t` is answered from: what the view cache holds, else a fresh copy (R143). -/
def State.sectorFor (t : State) (va pa : Nat) : Sector :=
  match t.view? t.cur va pa with
  | some x => x
  | none => t.refreshSource t.cur va pa

theorem State.cur_settle (r : State) (a : Agent) (pa n : Nat) : (r.settle a pa n).cur = r.cur :=
  State.cur_of_fixed (r.fixed_settle a pa n)

section
variable (r : State) (va pa n ord : Nat)

theorem State.readPast_reads : (r.settle r.cur pa n).Reads (r.readPast va pa n ord).2 := by
  unfold State.readPast
  extract_lets t
  split
  · split
    · exact ⟨t.dies, t.links, t.cores, t.press.views, rfl⟩
    · refine State.Reads.trans (State.Reads.trans ?_ (State.reads_touch _ _ _ _)) (State.reads_missed _ _)
      split
      · exact ⟨t.dies, t.links, t.cores, t.press.views, rfl⟩
      · exact t.reads_setViews _
  · exact State.Reads.trans (State.Reads.trans (t.reads_touch _ _ _) (State.reads_asks _ _ _ _ _)) (State.reads_setViews _ _)

/-- A cached read is answered from the sector; with ord 2 nothing enters a view cache (R143). -/
theorem State.readPast_cached (cached : ord ≠ 1) (holds : cacheable pa = true) :
    let t := r.settle r.cur pa n
    (r.readPast va pa n ord).1 = (t.sectorFor va pa).got pa n ∧
      ((t.view? t.cur va pa).isSome = true → (r.readPast va pa n ord).2 = t) ∧
      (ord = 2 → (r.readPast va pa n ord).2.press.views = t.press.views) := by
  intro t
  unfold State.readPast
  dsimp only
  rw [if_pos (by simp [cached, holds])]
  split
  · next x found =>
    have sector : t.sectorFor va pa = x := by rw [State.sectorFor, found]
    exact ⟨by rw [sector], fun _ => rfl, fun _ => rfl⟩
  · next none =>
    have sector : t.sectorFor va pa = t.refreshSource t.cur va pa := by rw [State.sectorFor, none]
    refine ⟨by rw [sector], fun some => absurd some (by rw [none]; decide), fun two => ?_⟩
    obtain ⟨L, C, missed⟩ := State.missed_shape ((if ord = 2 then t else t.refreshView t.cur va pa).touch pa .read (ord = 2)) pa
    obtain ⟨D, touched⟩ := t.touch_shape pa .read (ord = 2)
    rw [missed, if_pos two, touched]
/-- Any other read is answered at the home. -/
theorem State.readPast_home (home : ord = 1 ∨ cacheable pa = false) :
    let t := r.settle r.cur pa n
    (r.readPast va pa n ord).1 = t.homeGot pa n := by
  unfold State.readPast
  dsimp only
  rw [if_neg]
  rcases home with h | h <;> simp [h]

/-! ### What a read is answered from -/

theorem State.readAt_forwarded {bs : List (Byte × Bool × Bool)} (early : ord ≠ 1) (all : allSome (r.forward r.cur pa n) = some bs) :
    r.readAt va pa n ord =
      ({ bytes := bs.map Prod.fst, tag := bs.all (fun b => b.2.1), poison := bs.map (fun b => b.2.2) }, r) := by
  unfold State.readAt
  rw [if_neg early, all]
theorem State.readAt_past (past : ord = 1 ∨ allSome (r.forward r.cur pa n) = none) : r.readAt va pa n ord = r.readPast va pa n ord := by
  unfold State.readAt
  rcases past with h | h
  · rw [if_pos h]
  · rw [h, ite_self]

end

/-! ### A load -/

section
variable {s : State} {va n ord : Nat}

theorem load_of_fault {cause : BitVec 8} {t : Bool} (h : s.xlate s.cur va .read = .fault cause t) :
    load va n ord s = .error (.trap cause (BitVec.ofNat 64 va) (.translation va t)) s := by
  unfold load xl
  rw [bind_assoc, M.get_bind, h]
  rfl
theorem load_of_absent (h : s.xlate s.cur va .read = .absent) : load va n ord s = .error (.park va false false) s := by
  unfold load xl
  rw [bind_assoc, M.get_bind, h]
  rfl
theorem load_of_migrating (h : s.xlate s.cur va .read = .migrating) : load va n ord s = .error (.park va true false) s := by
  unfold load xl
  rw [bind_assoc, M.get_bind, h]
  rfl

variable {pa : Nat} {rpl : Bool} {e : Option TlbEntry} (present : s.xlate s.cur va .read = .ok pa rpl e)
include present

/-- With translation the way is checked, then the bytes are read at the place. -/
theorem load_of_present :
    load va n ord s = (pathOk va pa .read >>= fun _ => loadAt va pa n ord) ((s.reach va e).noteRead pa) := by
  unfold load xl
  rw [bind_assoc, M.get_bind, present]
  dsimp only
  rw [bind_assoc, M.set_bind, if_pos (by decide), bind_assoc]
  rfl

end

theorem pathOk_held {r : State} {va pa : Nat} {want : Wants} (held : r.pathHeld r.cur pa = true) : pathOk va pa want r = .error .stall r := by
  unfold pathOk
  rw [M.get_bind, held]
  rfl
theorem pathOk_refused {r : State} {va pa : Nat} {want : Wants} (open_ : r.pathHeld r.cur pa = false)
    (refused : r.refused r.cur (r.runOf r.cur) pa want = true) :
    pathOk va pa want r = .error (.trap 0x12 (BitVec.ofNat 64 va) .securityEvent) r := by
  unfold pathOk
  rw [M.get_bind, open_, refused]
  rfl
theorem pathOk_ok {r : State} {va pa : Nat} {want : Wants} (open_ : r.pathHeld r.cur pa = false)
    (allowed : r.refused r.cur (r.runOf r.cur) pa want = false) : pathOk va pa want r = .ok () r := by
  unfold pathOk
  rw [M.get_bind, open_, allowed]
  rfl

theorem loadAt_refreshing {r : State} {va pa n ord : Nat} (busy : r.refreshLeft pa ≠ 0) :
    loadAt va pa n ord r = .error .again (r.refreshStall r.coreNo pa) := by
  unfold loadAt refreshWait
  rw [bind_assoc, M.get_bind, if_pos busy]
  rfl
theorem loadAt_free {r : State} {va pa n ord : Nat} (free : r.refreshLeft pa = 0) :
    loadAt va pa n ord r =
      if (r.readAt va pa n ord).1.poison.any id = true then .error (.trap 0x22 (BitVec.ofNat 64 va) .none) r
      else .ok ((r.readAt va pa n ord).1.bytes, (r.readAt va pa n ord).1.tag) (r.readAt va pa n ord).2 := by
  unfold loadAt refreshWait
  rw [bind_assoc, M.get_bind, if_neg (by simp [free])]
  show (if _ then _ else _ : M _) r = _
  split
  · rfl
  · rfl

/-! ### The value of a capability (R49, R59) -/

/-- The bits of the capability that 256 bits spell are those. -/
theorem Cap.bits_ofBits (b : BitVec 256) (tag : Bool) : (Cap.ofBits b tag).bits = b := by
  have join {n lo k m : Nat} (h : m = lo + k) : b.extractLsb' m n ++ b.extractLsb' lo k = b.extractLsb' lo (n + k) :=
    BitVec.extractLsb'_append_extractLsb'_eq_extractLsb' h
  simp only [Cap.bits, Cap.ofBits]
  rw [join (show 248 = 232 + 16 from rfl), join (show 232 = 230 + 2 from rfl), join (show 230 = 222 + 8 from rfl),
    join (show 222 = 216 + 6 from rfl), join (show 216 = 192 + 24 from rfl), join (show 160 = 128 + 32 from rfl),
    join (show 192 = 128 + (32 + 32) from rfl), join (show 112 = 96 + 16 from rfl), join (show 96 = 80 + 16 from rfl),
    join (show 80 = 64 + 16 from rfl), join (show 128 = 64 + (16 + 16 + 16 + 16) from rfl), join (show 48 = 0 + 48 from rfl),
    join (show 64 = 0 + (16 + 48) from rfl)]
  exact BitVec.extractLsb'_eq_self

/-- A loaded capability, its tag cleared where its lease is not live at its generation (R59). -/
def State.loaded (w : State) (c : Cap) : Cap := if c.tag && !w.alive c then { c with tag := false } else c
theorem State.loaded_bits (w : State) (c : Cap) : (w.loaded c).bits = c.bits := by
  unfold State.loaded
  split <;> rfl
theorem State.loaded_tag (w : State) (c : Cap) : (w.loaded c).tag = (c.tag && w.alive (w.loaded c)) := by
  unfold State.loaded
  split
  · next dead =>
    obtain ⟨-, late⟩ := Bool.and_eq_true_iff.1 dead
    have same : w.alive { c with tag := false } = w.alive c := rfl
    rw [same, (Bool.not_eq_true' _).mp late, Bool.and_false]
  · next kept =>
    cases tag : c.tag with
    | false => rfl
    | true => simpa [tag] using kept

theorem loadCap_eq {u w : State} {a ord : Nat} {bytes : List Byte} {tag : Bool} (h : load a 32 ord u = .ok (bytes, tag) w) :
    loadCap a ord u = .ok (w.loaded (Cap.ofBits (BitVec.ofNat 256 (leNat bytes)) tag)) w := by
  unfold loadCap
  rw [M.bind_ok h]
  rfl

/-! ### The instructions -/

section
variable {s u w : State} {f : MFields} {a v : Nat}

/-- The value of LD (R116). -/
theorem extendLoad_eq (ty w v : Nat) :
    extendLoad ty w v = if ty = 0 ∨ ty = 2 ∨ ty = 4 then (BitVec.ofNat w v).signExtend 64 else BitVec.ofNat 64 v := by
  unfold extendLoad
  refine if_congr ?_ rfl rfl
  simp [or_assoc]

theorem ld_leaves (wf : (Instr.ld f).wf = true)
    (passed : accCheck (s.c f.c) .L (scalarAccepts (s.c f.c).fmt.toNat f.ty.toNat true) (scalarSize f.ty.toNat) (s.index0 f)
      (s.index1 f) s = .ok a u)
    (loaded : loadElem (s.c f.c) (scalarSize f.ty.toNat) f.ord.toNat (s.index0 f) (s.index1 f) a u = .ok v w) :
    s.leaves (.ld f) (w.setG f.t (extendLoad f.ty.toNat (scalarBits (s.c f.c) (scalarSize f.ty.toNat)) v)) := by
  refine State.Runs.leaves ⟨rfl, State.accepts_memory (encode_ld f) (by decide) wf⟩ ?_
  rw [M.bind_ok passed, M.bind_ok loaded]
  rfl
theorem ld_traps {cause : BitVec 8} {eval : Word} {note : Note} {t : State} (wf : (Instr.ld f).wf = true)
    (failed : accCheck (s.c f.c) .L (scalarAccepts (s.c f.c).fmt.toNat f.ty.toNat true) (scalarSize f.ty.toNat) (s.index0 f)
      (s.index1 f) s = .error (.trap cause eval note) t) : exec (.ld f) s = .next ((s.noted note).takeTrap cause eval 0) :=
  State.Runs.stops ⟨rfl, State.accepts_memory (encode_ld f) (by decide) wf⟩ (by rw [M.bind_error failed])

theorem ldc_leaves {bytes : List Byte} {tag : Bool} (wf : (Instr.ldc f).wf = true)
    (passed : accCheck (s.c f.c) .LC ((s.c f.c).fmt = 0x20) 32 (s.index0 f) (s.index1 f) s = .ok a u)
    (loaded : load a 32 f.ord.toNat u = .ok (bytes, tag) w) :
    s.leaves (.ldc f) (w.setC (f.t.setWidth 4) (w.loaded (Cap.ofBits (BitVec.ofNat 256 (leNat bytes)) tag))) := by
  rw [← capFormat_iff] at passed
  refine State.Runs.leaves ⟨rfl, State.accepts_memory (encode_ldc f) (by decide) wf⟩ ?_
  rw [M.bind_ok passed, M.bind_ok (loadCap_eq loaded)]
  rfl

theorem ldw_leaves (wf : (Instr.ldw f).wf = true) (context : isEngine s.cur = false) (window : s.winOk (s.winNum f.t 0) (f.ty == 6))
    (passed : accCheck (s.c f.c) .L (scalarAccepts (s.c f.c).fmt.toNat f.ty.toNat true) (if f.ty == 6 then 8 else 4) (s.index0 f)
      (s.index1 f) s = .ok a u)
    (loaded : loadElem (s.c f.c) (if f.ty == 6 then 8 else 4) f.ord.toNat (s.index0 f) (s.index1 f) a u = .ok v w) :
    s.leaves (.ldw f) (w.setWinBits (s.winNum f.t 0) (f.ty == 6) v) := by
  refine State.Runs.leaves ⟨rfl, fun engine => absurd engine (by simp [context]), wf⟩ ?_
  dsimp only
  rw [M.bind_ok (windowOperand_ok window), M.bind_ok passed, M.bind_ok loaded]
  rfl
/-- A window operand that is no even pair or lies outside the allocation (R199, R201). -/
theorem windowOperand_traps {s : State} {n : Int} {wide : Bool} :
    (wide = true → n % 2 ≠ 0 → windowOperand n wide s = .error (.trap 0x02 (BitVec.ofInt 64 n) .none) s) ∧
    (¬ (0 ≤ n ∧ n < s.wsize) → (wide = true → n % 2 = 0) →
      windowOperand n wide s = .error (.trap 0x14 ((BitVec.ofInt 32 n).signExtend 64) .none) s) := by
  constructor
  · rintro rfl odd
    simp [windowOperand, winEven, odd, evalOf]
  · intro outside even
    have out : (decide (0 ≤ n) && decide (n < s.wsize)) = false := by simpa using outside
    cases wide with
    | false => simp [windowOperand, winCheck, winIn, out]
    | true => simp [windowOperand, winEven, winCheck, winIn, even rfl, out]
theorem ldw_traps {cause : BitVec 8} {eval : Word} (wf : (Instr.ldw f).wf = true) (context : isEngine s.cur = false)
    (failed : windowOperand (s.winNum f.t 0) (f.ty == 6) s = .error (.trap cause eval .none) s) :
    s.traps (.ldw f) cause eval := by
  refine State.Runs.traps (t := s) ⟨rfl, fun engine => absurd engine (by simp [context]), wf⟩ ?_
  dsimp only
  rw [M.bind_error failed]

theorem State.prefetch_mem (s : State) (va ord : Nat) : (s.prefetch va ord).mem = s.mem := by
  unfold State.prefetch
  split
  · next pa _ _ _ =>
    split
    · rfl
    · split
      · dsimp only
        split
        · exact s.touch_mem pa .read false
        · exact s.touch_mem pa .read false
      · rfl
  · rfl
theorem pref_leaves (wf : (Instr.pref f).wf = true) :
    (∀ a u, accCheck (s.c f.c) .L (scalarAccepts (s.c f.c).fmt.toNat 1 true) 1 (s.index0 f) (s.index1 f) s = .ok a u →
      s.leaves (.pref f) (u.prefetch a f.ord.toNat)) ∧
    (∀ stop t, accCheck (s.c f.c) .L (scalarAccepts (s.c f.c).fmt.toNat 1 true) 1 (s.index0 f) (s.index1 f) s = .error stop t →
      s.leaves (.pref f) s) := by
  have run := exec_pref f s
  unfold execPref at run
  have accepted : s.accepts (.pref f) := State.accepts_memory (encode_pref f) (by decide) wf
  constructor
  · intro a u passed
    refine State.Runs.leaves ⟨run, accepted⟩ ?_
    rw [M.step1_eq]
    dsimp only
    rw [passed]
  · intro stop t failed
    refine State.Runs.leaves ⟨run, accepted⟩ ?_
    rw [M.step1_eq]
    dsimp only
    rw [failed]

end

/-- Settles O24: a translated load checks the way and the refresh window at the state that the access has reached, and is
answered from the queued stores, from a sector or at the home; the forms of loads then set their registers. -/
theorem loadResults : Obligations.LoadResults := by
  unfold Obligations.LoadResults
  refine ⟨fun s va n ord => ⟨fun cause t h => ⟨_, load_of_fault h⟩, load_of_absent, load_of_migrating, fun pa rpl e present => ?_⟩,
    fun s u w f a v => ?_⟩
  · intro r t got x
    have start := load_of_present (n := n) (ord := ord) present
    have cur : t.cur = r.cur := r.cur_settle r.cur pa n
    refine ⟨fun held => ⟨r, ?_⟩, fun open_ refused => ⟨r, ?_⟩, fun open_ allowed => ⟨fun busy => ?_, fun free => ⟨fun clean => ?_,
      fun poisoned => ⟨r, ?_⟩⟩⟩, fun bs early all => ?_, fun past => ?_⟩
    · rw [start, M.bind_error (pathOk_held held)]
    · rw [start, M.bind_error (pathOk_refused open_ refused)]
    · rw [start, M.bind_ok (pathOk_ok open_ allowed), loadAt_refreshing busy]
    · rw [start, M.bind_ok (pathOk_ok open_ allowed), loadAt_free free, if_neg (Bool.not_eq_true _ ▸ clean)]
    · rw [start, M.bind_ok (pathOk_ok open_ allowed), loadAt_free free, if_pos poisoned]
    · have whole : got = _ := r.readAt_forwarded va pa n ord early all
      rw [whole]
      exact ⟨rfl, rfl, rfl⟩
    · have whole : got = r.readPast va pa n ord := r.readAt_past va pa n ord past
      have reads := r.readPast_reads va pa n ord
      rw [whole]
      refine ⟨reads.mem, reads.ctxs, fun cached holds => ?_, fun home => ?_⟩
      · have answer := r.readPast_cached va pa n ord cached holds
        dsimp only at answer
        rw [State.sectorFor, show (r.settle r.cur pa n).cur = r.cur from cur] at answer
        exact answer
      · rw [r.readPast_home va pa n ord home]
        exact ⟨rfl, rfl⟩
  · intro c ty i0 i1 bits
    have width : scalarBits c (scalarSize ty) = bits := if_congr (BitVec.toNat_inj (y := 0x0F)) rfl rfl
    refine ⟨fun wf passed loaded => ?_, fun bytes tag wf passed loaded => ?_, ?_, fun wf => ⟨fun passed => ?_, fun stop t failed => ?_⟩,
      fun cause eval note t wf failed => ld_traps wf failed⟩
    · rw [← width, ← extendLoad_eq]
      exact ld_leaves wf passed loaded
    · exact ⟨_, ldc_leaves wf passed loaded, (State.loaded_bits _ _).trans (Cap.bits_ofBits _ _), State.loaded_tag _ _⟩
    · intro wide n size wf context
      obtain ⟨odd, outside⟩ := windowOperand_traps (s := s) (n := n) (wide := wide)
      exact ⟨fun window passed loaded => ldw_leaves wf context window passed loaded, fun pair h => ldw_traps wf context (odd pair h),
        fun out even => ldw_traps wf context (outside out even)⟩
    · exact ⟨(pref_leaves wf).1 a u passed, (u.prefetch_mem a _).trans (accCheck_ok passed).2.mem⟩
    · exact (pref_leaves wf).2 stop t failed

end Sys2Proof.Machine
end

section
/-! Page answers, migration, shootdowns, hot-page lists, refresh windows, slices, memory errors and sweep passes: what each leaves
where it is enabled (R69, R84, R85, R88 to R91, R98, R103, R344, R346). -/

namespace Sys2Proof.Machine
set_option Elab.async false

/-! ### Slices, and what firmware writes -/

theorem State.slice_setSlice_self (s : State) (d n : Nat) (x : Slice) : (s.setSlice d n x).slice d n = x := by
  rw [State.slice, State.setSlice, State.die_setDie_self]
  exact Sparse.get_put_self _ _ _ _

/-- Firmware's write changes memory and, of the rest, only slices. -/
theorem State.writeBy_shape (s : State) (w : Writer) (a : Nat) (bs : List Byte) :
    ∃ D m t p, s.writeBy w a bs = { s with dies := D, mem := m, tags := t, poison := p } := by
  obtain ⟨m, t, p, h⟩ := s.writeHome_shape a bs
  obtain ⟨D, touched⟩ := State.foldl_dies_shape (fun (s : State) q => s.touchSector q w false (a ≤ q && q + 128 ≤ a + bs.length))
    (fun s q => s.touchSector_shape q w false _) (sectorsOf a bs.length) (s.writeHome a bs)
  refine ⟨D, m, t, p, ?_⟩
  rw [State.writeBy, State.touchAll, touched, h]
theorem State.bytesAt_writeBy_self (s : State) (w : Writer) (a : Nat) (bs : List Byte) :
    (s.writeBy w a bs).bytesAt a bs.length = bs := by
  refine Eq.trans (List.map_congr_left fun i _ => ?_) (s.bytesAt_writeHome_self a bs)
  rw [State.byteAt_writeBy, State.byteAt_writeHome]
theorem State.wordAt_hwWord_self (s : State) (a : Nat) (x : Word) : (s.hwWord a x).wordAt a = x := by
  have bytes : (s.hwWord a x).bytesAt a 8 = leBytes 8 x.toNat := s.bytesAt_writeBy_self .firmware a (leBytes 8 x.toNat)
  rw [State.wordAt, bytes, leNat_leBytes, BitVec.ofNat_toNat, BitVec.setWidth_eq]
theorem State.migrations_hwWord (s : State) (a : Nat) (x : Word) : (s.hwWord a x).migrations = s.migrations := by
  obtain ⟨D, m, t, p, h⟩ := s.writeBy_shape .firmware a (leBytes 8 x.toNat)
  rw [State.hwWord, h]

/-! ### Page answers and timeouts (R84, R85) -/

section
variable {s : State} {epoch : Nat} {r : PageRequest} {ok : Bool}
  (found : s.requests.find? (fun r => r.epoch == epoch) = some r)
include found

theorem pageAnswer_host (wanted : s.stillWanted r.pageKey = true) (host : r.host = true) :
    exec (.pageAnswer epoch ok) s = .next (s.answer r ok) := by
  rw [exec_pageAnswer, execPageAnswer, found]
  dsimp only
  rw [wanted, host]
  rfl
theorem pageAnswer_backed {t : State} (wanted : s.stillWanted r.pageKey = true) (scheduler : r.host = false)
    (absent : s.pagePresent r = false) (backed : s.backPage r.tenant r.vpage = some t) :
    exec (.pageAnswer epoch true) s = .next (t.answer r true) := by
  rw [exec_pageAnswer, execPageAnswer, found]
  dsimp only
  rw [wanted, scheduler, absent, backed]
  rfl
theorem pageRequestTimeout_wanted (wanted : s.stillWanted r.pageKey = true) :
    exec (.pageRequestTimeout epoch) s = .next (s.answer r false) := by
  rw [exec_pageRequestTimeout, execPageRequestTimeout, found]
  dsimp only
  rw [wanted]
  rfl
theorem page_unwanted (unwanted : s.stillWanted r.pageKey = false) :
    exec (.pageAnswer epoch ok) s = .next (s.discardRequest r) ∧
      exec (.pageRequestTimeout epoch) s = .next (s.discardRequest r) := by
  rw [exec_pageAnswer, execPageAnswer, exec_pageRequestTimeout, execPageRequestTimeout, found]
  dsimp only
  rw [unwanted]
  exact ⟨rfl, rfl⟩
theorem discardRequest_effects :
    let t := s.discardRequest r
    t.dev.discardedAnswers = s.dev.discardedAnswers + 1 ∧ t.requests = s.requests.filter (fun r => r.epoch != epoch) ∧
      t.dev.msix = s.dev.msix ++ (if r.host then [3] else []) ∧ t.ctxs = s.ctxs ∧ t.mem = s.mem := by
  have same : r.epoch = epoch := by simpa using List.find?_some found
  subst same
  unfold State.discardRequest
  cases r.host with
  | false => exact ⟨rfl, rfl, (List.append_nil _).symm, rfl, rfl⟩
  | true => exact ⟨rfl, rfl, rfl, rfl, rfl⟩

end

/-! ### Shootdowns (R90) -/

theorem Sparse.get_map {α β : Type} (f : α → β) (d : α) (l : List (Nat × α)) (k : Nat) :
    Sparse.get (f d) (l.map (fun p => (p.1, f p.2))) k = f (Sparse.get d l k) := by
  induction l with
  | nil => rfl
  | cons p rest ih =>
    obtain ⟨j, x⟩ := p
    rw [List.map_cons, Sparse.get, Sparse.get, ih]
    split <;> rfl

/-- A leaf that a shootdown of the page of `va`, `n` bytes of a tenant, leaves where it is held. -/
def TlbEntry.outside (tenant va n : Nat) (e : TlbEntry) : Bool :=
  !(e.tenant = tenant && (if e.big then e.vpage = va / 2 ^ 25
    else va / n * n ≤ e.vpage * 2 ^ 16 && e.vpage * 2 ^ 16 < va / n * n + n))

/-- It translates no address of the page. -/
theorem TlbEntry.outside_iff (tenant va : Nat) (big : Bool) (e : TlbEntry) :
    e.outside tenant va (pageSize big) = true ↔
      ∀ a, va / pageSize big * pageSize big ≤ a → a < va / pageSize big * pageSize big + pageSize big → e.hits tenant a = false := by
  have size : pageSize big = 2 ^ 25 ∨ pageSize big = 2 ^ 16 := by cases big <;> simp [pageSize]
  generalize pageSize big = n at size
  have whole : va / n * n ≤ va ∧ va < va / n * n + n := by rcases size with rfl | rfl <;> omega
  unfold TlbEntry.outside TlbEntry.hits
  by_cases other : e.tenant = tenant
  case neg => simp [other]
  cases wide : e.big with
  | true =>
    simp only [other, if_true, decide_true, Bool.true_and, Bool.not_eq_true', decide_eq_false_iff_not, beq_self_eq_true,
      beq_eq_false_iff_ne]
    refine ⟨fun out a lo hi => ?_, fun out => out va whole.1 whole.2⟩
    rcases size with rfl | rfl <;> omega
  | false =>
    simp only [other, if_false, decide_true, Bool.true_and, Bool.not_eq_true', Bool.and_eq_false_iff, decide_eq_false_iff_not,
      beq_self_eq_true, beq_eq_false_iff_ne, Bool.false_eq_true]
    refine ⟨fun out a lo hi => ?_, fun out => ?_⟩
    · rcases size with rfl | rfl <;> omega
    · by_contra inside
      push Not at inside
      exact out (e.vpage * 2 ^ 16) inside.1 inside.2 (by omega)

/-- The page TLBs and shared translation caches without a page's leaves. -/
def State.dropLeaves (u : State) (keep : TlbEntry → Bool) : State :=
  { u with
    cores := u.cores.map (fun p => (p.1, { p.2 with u := { p.2.u with tlb := p.2.u.tlb.filter keep } }))
    dies := u.dies.map (fun p => (p.1, { p.2 with xcache := p.2.xcache.filter keep })) }
theorem State.shootDown_eq (s : State) (tenant va : Nat) :
    s.shootDown tenant va =
      let n := pageSize (s.bigPage tenant va)
      State.tellShootdown ((s.settlePage tenant (va / n * n) (va / n * n + n)).dropLeaves (TlbEntry.outside tenant va n)) va := rfl
/-- Telling the dies of a shootdown changes nothing but the links. -/
theorem State.tellShootdown_keeps {γ : Type} (g : State → γ) (links : ∀ s l, g { s with links := l } = g s) (s : State) (va : Nat) :
    g (s.tellShootdown va) = g s := by
  have sent (s : State) (d e : Nat) (xs : List LinkItem) : g (s.sendItems d e xs) = g s := by
    obtain ⟨L, h⟩ := s.sendItems_shape d e xs
    rw [h]
    exact links s L
  exact foldl_keeps g _ (fun s d => (sent _ _ _ _).trans (sent _ _ _ _)) _ s
theorem State.tlb_dropLeaves (u : State) (keep : TlbEntry → Bool) (core : Nat) :
    ((u.dropLeaves keep).coreAt core).u.tlb = (u.coreAt core).u.tlb.filter keep :=
  congrArg (fun c => c.u.tlb) (Sparse.get_map (fun c : Core => { c with u := { c.u with tlb := c.u.tlb.filter keep } }) Core.reset u.cores core)
theorem State.xcache_dropLeaves (u : State) (keep : TlbEntry → Bool) (die : Nat) :
    ((u.dropLeaves keep).die die).xcache = (u.die die).xcache.filter keep :=
  congrArg Die.xcache (Sparse.get_map (fun x : Die => { x with xcache := x.xcache.filter keep }) Die.reset u.dies die :)

theorem State.shootDown_effects (s : State) (tenant va : Nat) :
    let n := pageSize (s.bigPage tenant va)
    let lo := va / n * n
    let u := s.settlePage tenant lo (lo + n)
    let t := s.shootDown tenant va
    let misses (x : TlbEntry) : Prop := ∀ a, lo ≤ a → a < lo + n → x.hits tenant a = false
    (∀ core x, x ∈ (t.coreAt core).u.tlb ↔ x ∈ (u.coreAt core).u.tlb ∧ misses x) ∧
    (∀ die x, x ∈ (t.die die).xcache ↔ x ∈ (u.die die).xcache ∧ misses x) ∧
    t.mem = u.mem ∧ t.tags = u.tags ∧ t.ctxs = u.ctxs ∧ t.press = u.press ∧ t.runs = u.runs := by
  intro n lo u t misses
  have kept {γ : Type} (g : State → γ) (links : ∀ s l, g { s with links := l } = g s) :
      g t = g (u.dropLeaves (TlbEntry.outside tenant va n)) :=
    (congrArg g (s.shootDown_eq tenant va)).trans (State.tellShootdown_keeps g links _ va)
  have out (x : TlbEntry) : x.outside tenant va n = true ↔ misses x := x.outside_iff tenant va _
  refine ⟨fun core x => ?_, fun die x => ?_, kept State.mem fun _ _ => rfl, kept State.tags fun _ _ => rfl,
    kept State.ctxs fun _ _ => rfl, kept State.press fun _ _ => rfl, kept State.runs fun _ _ => rfl⟩
  · rw [kept (fun s => (s.coreAt core).u.tlb) fun _ _ => rfl, State.tlb_dropLeaves, List.mem_filter, out]
  · rw [kept (fun s => (s.die die).xcache) fun _ _ => rfl, State.xcache_dropLeaves, List.mem_filter, out]

/-! ### Migration (R89) -/

/-- A migration is that of a page of `n` bytes to a place. -/
def Migration.isOf (tenant va page n : Nat) (m : Migration) : Bool := m.tenant == tenant && m.va / n == va / n && m.newPage == page

section
variable {s : State} {tenant va page p : Nat} {e : Word} {big : Bool} (leaf : s.leafNow tenant va = some (p, e, big))
include leaf

theorem pageMigration_begins (fresh : s.migrations.find? (Migration.isOf tenant va page (pageSize big)) = none)
    (may : s.mayMigrate e big page = true) :
    ∃ t, exec (.pageMigration tenant va page .setMig) s = .next t ∧ t.wordAt p = (e ||| (1#64 <<< 56)) ∧
      ∃ m, t.migrations = s.migrations ++ [m] ∧ m.next = .firstShootdown ∧ m.newPage = page := by
  have run : exec (.pageMigration tenant va page .setMig) s = .next
      { s.hwWord p (e ||| 1#64 <<< 56) with migrations := (s.hwWord p (e ||| 1#64 <<< 56)).migrations ++
        [{ tenant := tenant, va := va, newPage := page, next := .firstShootdown }] } := by
    rw [exec_pageMigration, execPageMigration, leaf]
    dsimp only
    split
    · rw [if_pos may]
    · next some => exact absurd (fresh.symm.trans some) nofun
    · next other => exact absurd rfl other
  refine ⟨_, run, s.wordAt_hwWord_self p _, { tenant := tenant, va := va, newPage := page, next := .firstShootdown }, ?_, rfl, rfl⟩
  rw [State.migrations_hwWord]

variable {m : Migration} (found : s.migrations.find? (Migration.isOf tenant va page (pageSize big)) = some m)
include found

/-- A migration that has begun takes its next step, and no other. -/
theorem pageMigration_step (ph : MigrationPhase) :
    exec (.pageMigration tenant va page ph) s =
      if m.next ≠ ph then .next s
      else
        match ph with
        | .setMig => .next s
        | .firstShootdown => .next ((s.shootDown tenant va).setMigration m .copyPage)
        | .copyPage =>
          if s.copyHeld (frameOf e) page then .next s
          else if s.copyRefused (frameOf e) page then .next s.securityEvent
          else .next ((s.copyPage (frameOf e) page (pageSize big)).setMigration m .writeLeaf)
        | .writeLeaf =>
          .next ((s.hwWord p ((e &&& ~~~(0x3FFFFFFF#64 <<< 16) &&& ~~~(1#64 <<< 56)) ||| BitVec.ofNat 64 page)).setMigration m
            .secondShootdown)
        | .secondShootdown =>
          .next (State.releasePage
            { s.shootDown tenant va with migrations := (s.shootDown tenant va).migrations.filter (fun x => x != m) }
            { epoch := 0, tenant := tenant, lo := va / pageSize big * pageSize big,
              hi := va / pageSize big * pageSize big + pageSize big }) := by
  rw [exec_pageMigration, execPageMigration, leaf]
  dsimp only
  split
  · next none => exact absurd (found.symm.trans none) nofun
  · next m' some =>
    obtain rfl := Option.some.inj (found.symm.trans some)
    rfl
  · next none => exact absurd (found.symm.trans none) nofun

end

/-! ### Hot-page lists, refresh windows, slice control (R88, R98, R103) -/

theorem length_wordBytes (ws : List Word) : (wordBytes ws).length = 8 * ws.length := by
  induction ws with
  | nil => rfl
  | cons w rest ih =>
    have step : wordBytes (w :: rest) = leBytes 8 w.toNat ++ wordBytes rest := rfl
    rw [step, List.length_append, ih, length_leBytes, List.length_cons]
    omega
theorem length_hotWords (die chan : Nat) (interval : Word) (hot : List (Nat × Nat)) :
    72 ≤ (hotWords die chan interval hot).length := by
  simp [hotWords]
  omega
theorem State.bytesAt_take (s : State) (a : Nat) {k n : Nat} (h : k ≤ n) : s.bytesAt a k = (s.bytesAt a n).take k := by
  rw [State.bytesAt, State.bytesAt, ← List.map_take, List.take_range, Nat.min_eq_left h]

/-- The list of a channel in its buffer, or counted as dropped. -/
def State.hotListed (s : State) (die chan : Nat) : State :=
  let l := s.slice die chan
  if l.hotFull then { s with dev := { s.dev with droppedHotLists := s.dev.droppedHotLists + 1 } }
  else s.writeBy .firmware (Config.hotBuffer die chan)
    (wordBytes (hotWords die chan l.interval (l.hot.foldl (fun m x => insertHot x m) [])))

theorem hotPageList_effects {s : State} {die chan : Nat} (ended : s.intervalOver die chan = true) :
    ∃ t, exec (.hotPageList die chan) s = .next t ∧ (t.slice die chan).sketch = [] ∧ (t.slice die chan).hot = [] ∧
      (t.slice die chan).interval = (s.slice die chan).interval + 1 ∧ (t.slice die chan).hotFull = true ∧
      ((s.slice die chan).hotFull = false → t.bytesAt (Config.hotBuffer die chan) 576 = (wordBytes (hotWords die chan
        (s.slice die chan).interval ((s.slice die chan).hot.foldl (fun m x => insertHot x m) []))).take 576) ∧
      ((s.slice die chan).hotFull = true → t.mem = s.mem ∧ t.dev.droppedHotLists = s.dev.droppedHotLists + 1) := by
  have run : exec (.hotPageList die chan) s = .next ((s.hotListed die chan).setSlice die chan
      { (s.hotListed die chan).slice die chan with
        sketch := [], hot := [], interval := (s.slice die chan).interval + 1,
        hotStart := (s.slice die chan).hotStart + BitVec.ofNat 64 (2 ^ (s.slice die chan).hotK.toNat), hotFull := true }) := by
    rw [exec_hotPageList, execHotPageList, ended]
    rfl
  refine ⟨_, run, ?_, ?_, ?_, ?_, fun room => ?_, fun full => ?_⟩
  · rw [State.slice_setSlice_self]
  · rw [State.slice_setSlice_self]
  · rw [State.slice_setSlice_self]
  · rw [State.slice_setSlice_self]
  · generalize hl : wordBytes (hotWords die chan (s.slice die chan).interval ((s.slice die chan).hot.foldl (fun m x => insertHot x m) [])) = l
    have long : 576 ≤ l.length := by
      rw [← hl, length_wordBytes]
      have := length_hotWords die chan (s.slice die chan).interval ((s.slice die chan).hot.foldl (fun m x => insertHot x m) [])
      omega
    have listed : s.hotListed die chan = s.writeBy .firmware (Config.hotBuffer die chan) l := by
      rw [State.hotListed, room, hl]
      rfl
    show (s.hotListed die chan).bytesAt _ 576 = l.take 576
    rw [State.bytesAt_take _ _ long, listed, State.bytesAt_writeBy_self]
  · have listed : s.hotListed die chan = { s with dev := { s.dev with droppedHotLists := s.dev.droppedHotLists + 1 } } := by
      rw [State.hotListed, full]
      rfl
    rw [listed]
    exact ⟨rfl, rfl⟩

theorem refreshWindow_effects {s : State} {die bank : Nat} (full : s.full = true) (hd : die < s.numDies) :
    ∃ t, exec (.refreshWindow die bank) s = .next t ∧ t.mem = s.mem ∧
      (t.die die).refreshing = if (s.die die).window.2.1 = true ∧ (s.die die).window.1 = bank then some (BitVec.ofNat 4 bank) else none := by
  have run : exec (.refreshWindow die bank) s = .next (s.setDie die { s.die die with
      refreshing := if (s.die die).window.2.1 && (s.die die).window.1 = bank then some (BitVec.ofNat 4 bank) else none }) := by
    rw [exec_refreshWindow, execRefreshWindow, if_pos (by simp [full, hd])]
  refine ⟨_, run, rfl, ?_⟩
  rw [State.die_setDie_self]
  exact if_congr (by simp) rfl rfl

theorem sliceControl_effects {s : State} {die slice tenant : Nat} {shared : Bool} (hd : die < s.numDies) (hn : slice < 12)
    (changes : (s.slice die slice).tenant.toNat ≠ tenant ∨ (s.slice die slice).shared ≠ shared) :
    let free := (s.slice die slice).degraded = false ∧ s.tenantResident tenant = false ∧
      ((s.slice die slice).shared = true ∨ s.tenantResident (s.slice die slice).tenant.toNat = false)
    (free → ∃ t, exec (.sliceControl die slice tenant shared) s = .next t ∧ (t.slice die slice).tenant = BitVec.ofNat 16 tenant ∧
      (t.slice die slice).shared = shared ∧ (t.slice die slice).lines = []) ∧
    (¬ free → exec (.sliceControl die slice tenant shared) s = .next s) := by
  intro free
  have change : (decide (die < s.numDies) && decide (slice < 12) &&
      (decide ((s.slice die slice).tenant.toNat ≠ tenant) || decide ((s.slice die slice).shared ≠ shared))) = true := by
    simpa [hd, hn] using changes
  have blocked : ((s.slice die slice).degraded || s.tenantResident tenant ||
      (!(s.slice die slice).shared && s.tenantResident (s.slice die slice).tenant.toNat)) = true ↔ ¬ free := by
    simp only [free, Bool.or_eq_true, Bool.and_eq_true, Bool.not_eq_true', not_and_or, not_or, Bool.not_eq_false, Bool.not_eq_true,
      or_assoc]
  rw [exec_sliceControl, execSliceControl]
  dsimp only
  rw [change, Bool.true_and]
  refine ⟨fun h => ⟨_, by rw [if_neg (fun b => blocked.1 b h), if_pos rfl], ?_, ?_, ?_⟩, fun h => if_pos (blocked.2 h)⟩
  · rw [State.slice_setSlice_self]
  · rw [State.slice_setSlice_self]
  · rw [State.slice_setSlice_self]
    rfl

/-! ### Memory errors (R344, R346) -/

theorem State.logError_effects (s : State) (die event mem addr unit way : Nat) (synd : BitVec 32) (owner : BitVec 16) :
    let t := s.logError die event mem addr unit way synd owner
    (t.die die).log.length = (s.die die).log.length + 1 ∧ t.mem = s.mem := by
  refine ⟨?_, rfl⟩
  have log : ((s.logError die event mem addr unit way synd owner).die die).log = (s.die die).log ++ [_] :=
    congrArg Die.log (s.die_setDie_self die _)
  rw [log, List.length_append]
  rfl

/-! ### Sweep passes (R69) -/

theorem leasePlace_congr {n k : Nat} (h : n % 65536 = k % 65536) : leasePlace n = leasePlace k := by
  rw [leasePlace, h, leasePlace]

/-- A lease becomes sweeping. -/
def State.beginSweep (s : State) (n : Nat) : State := s.putLease n { s.lease n with state := 3 }

theorem State.state_beginSweep (s : State) (n : Nat) {k : Nat} (hk : k ≠ 0) :
    ((s.beginSweep n).lease k).state = if k % 65536 = n % 65536 then 3 else (s.lease k).state := by
  split
  · next same =>
    have put (x : Lease) : s.putLease n x = s.putLease k x := by
      rw [State.putLease, State.setLease, leasePlace_congr same.symm]
      rfl
    rw [State.beginSweep, put, State.lease_putLease_self _ _ hk]
  · next other => rw [State.beginSweep, State.lease_eq_of_bytes other fun _ h => s.byteAt_putLease_outside _ h]
theorem State.state_foldl_beginSweep (s : State) (ls : List Nat) {k : Nat} (hk : k ≠ 0)
    (h : k ∈ ls ∨ (s.lease k).state = 3) : ((ls.foldl State.beginSweep s).lease k).state = 3 := by
  induction ls generalizing s with
  | nil => exact h.resolve_left List.not_mem_nil
  | cons n rest ih =>
    refine ih (s.beginSweep n) ?_
    rcases h with listed | swept
    · rcases List.mem_cons.1 listed with rfl | later
      · exact .inr ((s.state_beginSweep k hk).trans (if_pos rfl))
      · exact .inl later
    · right
      rw [State.state_beginSweep _ _ hk, swept, ite_self]

theorem sweepPassBegin_effects {s : State} (idle : s.leases.passing = false) (some : s.leases.eligible ≠ []) :
    ∃ t, exec .sweepPassBegin s = .next t ∧ t.leases.passing = true ∧ t.leases.eligible = [] ∧
      ∀ n ∈ s.leases.eligible, n ≠ 0 → (t.lease n).state = 3 := by
  let u := s.leases.eligible.foldl State.beginSweep s
  have run : exec .sweepPassBegin s =
      .next { u with leases := { u.leases with eligible := [], passing := true, done := [] } } := by
    rw [exec_sweepPassBegin, execSweepPassBegin, if_neg (by simp [idle, some])]
    rfl
  refine ⟨_, run, rfl, rfl, fun n listed h0 => ?_⟩
  exact (congrArg Lease.state (State.lease_of_mem rfl n)).trans (s.state_foldl_beginSweep _ h0 (.inl listed))

/-- Settles O44, event by event. -/
theorem pageAndSliceEvents : Obligations.PageAndSliceEvents := by
  unfold Obligations.PageAndSliceEvents
  intro s
  refine ⟨fun epoch r ok found wanted host => pageAnswer_host found wanted host, fun epoch r ok found unwanted => ?_,
    fun epoch r t found wanted scheduler absent backed => pageAnswer_backed found wanted scheduler absent backed,
    fun epoch r found wanted => pageRequestTimeout_wanted found wanted, fun tenant va page p e big leaf => ?_,
    fun tenant va => ⟨rfl, s.shootDown_effects tenant va⟩, fun die chan full hd hc ended => hotPageList_effects ?_,
    fun die bank full hd => refreshWindow_effects full hd,
    fun die slice tenant shared hd hn _ changes => sliceControl_effects hd hn changes, fun e here => ?_,
    fun idle some => sweepPassBegin_effects idle some, fun passing => ?_⟩
  · obtain ⟨answered, timedOut⟩ := page_unwanted (ok := ok) found unwanted
    exact ⟨_, answered, timedOut, discardRequest_effects found⟩
  · refine ⟨fun fresh may => pageMigration_begins leaf fresh may, fun m found => ?_⟩
    have step := pageMigration_step leaf found
    refine ⟨fun ph other => (step ph).trans (if_pos other), fun now => ?_, fun now held => ?_, fun now open_ refused => ?_,
      fun now open_ allowed => ?_, fun now => ?_, fun now => ?_⟩
    · exact (step _).trans (if_neg (not_not.2 now))
    · exact ((step _).trans (if_neg (not_not.2 now))).trans (if_pos held)
    · exact ((step _).trans (if_neg (not_not.2 now))).trans ((if_neg (by simp [open_])).trans (if_pos refused))
    · exact ((step _).trans (if_neg (not_not.2 now))).trans ((if_neg (by simp [open_])).trans (if_neg (by simp [allowed])))
    · exact ⟨_, (step _).trans (if_neg (not_not.2 now)), s.migrations_hwWord p _, s.wordAt_hwWord_self p _⟩
    · exact (step _).trans (if_neg (not_not.2 now))
  · simp only [State.intervalOver, full, hd, hc, ended, decide_true, Bool.and_self]
  · obtain ⟨log, mem⟩ := s.logError_effects (errDie e) (if correctable e then 0 else if e.consumed then 1 else 2) (memCode e.mem)
      e.addr (errUnit e) (errWay e) e.synd (s.errorOwner e)
    refine ⟨fun fetch => ?_, fun other => ?_, log, mem⟩
    · rw [exec_memoryError, execMemoryError, if_neg (by simp [here]), if_pos fetch]
    · rw [exec_memoryError, execMemoryError, if_neg (by simp [here]), if_neg other]
  · rw [exec_sweepPassEnd, execSweepPassEnd, if_pos passing]

end Sys2Proof.Machine
end

section
/-! The writes of the control registers as events of their own: who may write, and what each register's own rule makes of the
value (R108, R109, R169, R198, R202, R203, R378). -/

namespace Sys2Proof.Machine
set_option Elab.async false

/-! ### The Write column (R202, R203) -/

/-- A register of the run root's traps in any other compartment; in the run root its own rule decides. -/
theorem sysWrite_root {n : Nat} (column : sysWriteBy n = some .root) (v : Word) (s : State) :
    sysWrite n v s = if s.ctx.sr.cid = 1 then sysPut n v s else .error (.trap 0x0A (BitVec.ofNat 64 n) .none) s := by
  rw [sysWrite, column]
  dsimp only
  rw [M.get_bind, M.need_bind]
  simp only [decide_eq_true_eq]

section
variable {n : Nat} {v : Word} {s t : State} {i : Instr} (event : exec i s = registerWrite n v s)
  (column : sysWriteBy n = some .root)
include event column

theorem traps_of_not_root (other : s.ctx.sr.cid ≠ 1) : s.traps i 0x0A (BitVec.ofNat 64 n) := by
  rw [State.traps, event, registerWrite, sysWrite_root column, if_neg other]
  rfl

variable (root : s.ctx.sr.cid = 1)
include root

theorem exec_of_put (put : sysPut n v s = .ok () t) : exec i s = .next t := by
  rw [event, registerWrite, sysWrite_root column, if_pos root, put]
theorem exec_of_stall (put : sysPut n v s = .error .stall t) : exec i s = .next s := by
  rw [event, registerWrite, sysWrite_root column, if_pos root, put]
  rfl
theorem traps_of_put {eval : Word} (put : sysPut n v s = .error (.trap 0x02 eval .none) t) : s.traps i 0x02 eval := by
  rw [State.traps, event, registerWrite, sysWrite_root column, if_pos root, put]
  rfl

end

/-! ### Each register's own rule -/

theorem State.core_setCore (s : State) (c : Core) : (s.setCore c).core = c := s.coreAt_setCoreAt_self s.coreNo c

/-- PLANSEL with EN 0 keeps the selected window and its counts (R169). -/
theorem sysPut_plansel_clear {v : Word} (clear : v.getLsbD 63 = false) (s : State) :
    sysPut 0x018 v s =
      .ok () (s.setCore { s.core with plan := { s.core.plan with en := false, offset := v.extractLsb' 5 15 } }) := by
  show writePlansel v s = _
  rw [writePlansel, if_neg (Bool.eq_false_iff.1 clear)]
  rfl
/-- PLANSEL with EN 1 reads the header that the own stores have left, and checks it (R169). -/
theorem sysPut_plansel_set {v : Word} {h : PlanHeader} (set : v.getLsbD 63 = true) {s t : State} {off : Nat}
    (place : off = 32 * (v.extractLsb' 5 15).toNat) (settled : t = s.settleLocal off 32)
    (header : t.planHeader t.coreNo off = some h) :
    sysPut 0x018 v s = if t.planOk off h = true then
        .ok () (t.setCore { t.core with plan := { t.core.plan with
          en := true, offset := v.extractLsb' 5 15, wbase := BitVec.ofNat 20 h.wbase, wsize := BitVec.ofNat 20 h.wsize,
          count := BitVec.ofNat 16 h.count } })
      else .error (.trap 0x02 v .none) t := by
  show writePlansel v s = _
  rw [Nat.mul_comm] at place
  rw [writePlansel, if_pos set, ← place, M.modify_bind, M.get_bind, ← settled, header]
  dsimp only
  rw [M.need_bind]
  rfl

theorem sysPut_ring {n : Nat} (lo : 0x020 ≤ n) (hi : n ≤ 0x027) (v : Word) : sysPut n v = writeRxcfg (n - 0x020) v := by
  interval_cases n <;> rfl
theorem sysPut_rxcfg {ring : BitVec 3} {v : Word} {s : State} {new : RxRing}
    (written : (s.core.ring ring.toNat).written v = new) :
    sysPut (0x020 + ring.toNat) v s = if s.ringOk ring.toNat (s.core.ring ring.toNat) new = true then
        .ok () (s.setCore (s.core.setRing ring.toNat new))
      else .error (.trap 0x02 v .none) s := by
  subst written
  rw [sysPut_ring (by omega) (by have := ring.isLt; omega), Nat.add_sub_cancel_left, writeRxcfg, M.get_bind, M.need_bind]
  rfl

theorem sysPut_kbin (v : Word) (s : State) :
    sysPut 0x028 v s = if s.binsOk (KeyBins.ofWord v) = true then
        if s.pairsHeld s.coreNo = true then .error .stall s
        else .ok () ((s.landPairs s.coreNo).setCore { (s.landPairs s.coreNo).core with kbin := KeyBins.ofWord v })
      else .error (.trap 0x02 v .none) s := by
  show writeKbin v s = _
  rw [writeKbin, M.get_bind, M.need_bind, M.get_bind, M.get_bind]
  split
  · split
    · rfl
    · rfl
  · rfl

/-- WALLOC: of the core only the allocation and the window file change (R198). -/
theorem sysPut_walloc {v : Word} {s : State} (ok : s.wallocOk v = true) :
    ∃ w, sysPut 0x006 v s = .ok () (s.setCore { s.core with
      walloc := s.core.walloc.set (s.slot % 4) (v &&& 0x7FFFF) (by omega), window := w }) := by
  have own : sysPut 0x006 v s = writeWalloc v s := rfl
  rw [own, writeWalloc, M.get_bind, M.need_bind, if_pos ok]
  exact ⟨_, rfl⟩
theorem sysPut_walloc_refused {v : Word} {s : State} (bad : s.wallocOk v = false) :
    sysPut 0x006 v s = .error (.trap 0x02 v .none) s := by
  show writeWalloc v s = _
  rw [writeWalloc, M.get_bind, M.need_bind, if_neg (Bool.eq_false_iff.1 bad)]

/-- The event numbers of a PMCTL value all exist (R378). -/
def pmctlOk (v : Word) : Bool := (List.range 8).all (fun i => (v.extractLsb' (6 * i) 6).toNat ≤ 16)
theorem pmctlOk_iff (v : Word) : pmctlOk v = true ↔ ∀ i, i < 8 → (v.extractLsb' (6 * i) 6).toNat ≤ 16 := by
  simp [pmctlOk]
theorem sysPut_pmctl {v : Word} {s : State} (ok : pmctlOk v = true) (own : s.core.frozen = none) :
    sysPut 0x060 v s = .ok () (s.setCore { s.core with perf := { s.core.perf with ctl := v &&& 0x00FFFFFFFFFFFFFF } }) := by
  show writePmctl v s = _
  rw [writePmctl, M.need_bind, M.modify_eq]
  refine (if_pos ok).trans ?_
  dsimp only
  rw [own]
theorem sysPut_pmctl_refused {v : Word} {s : State} (bad : pmctlOk v = false) :
    sysPut 0x060 v s = .error (.trap 0x02 v .none) s := by
  show writePmctl v s = _
  rw [writePmctl, M.need_bind]
  exact if_neg (Bool.eq_false_iff.1 bad)

/-! ### The obligation -/

theorem sysWriteBy_ring (ring : BitVec 3) : sysWriteBy (0x020 + ring.toNat) = some .root := by
  revert ring
  decide
theorem ofNat_ring (ring : BitVec 3) : BitVec.ofNat 64 (0x020 + ring.toNat) = 0x020 + ring.setWidth 64 := by
  revert ring
  decide

/-- A ring after a write, its HEAD as the statement spells it (log 46). -/
theorem RxRing.written_eq (r : RxRing) (v : Word) : r.written v =
    { en := v.getLsbD 63, tail := r.tail, base := v.extractLsb' 6 14, logn := v.extractLsb' 24 4,
      head := if r.en = true ∧ v.getLsbD 63 = false then r.tail else v.extractLsb' 32 12 } := by
  rw [RxRing.written]
  simp only [Bool.and_eq_true, Bool.not_eq_true']

/-- Settles O42: the Write column decides who writes, and each register's own rule what the run root's write does. -/
theorem controlRegisterWrites : Obligations.ControlRegisterWrites := by
  unfold Obligations.ControlRegisterWrites
  intro s v ring
  refine ⟨fun other => ?_, fun root => ⟨fun clear => ?_, fun set h header => ⟨fun ok => ?_, fun bad => ?_⟩, ?_, ?_, fun ok => ?_,
    fun bad => ?_, fun events own => ?_, fun events => ?_⟩⟩
  · simp only [List.forall_mem_cons, List.not_mem_nil, false_implies, implies_true, and_true]
    exact ⟨traps_of_not_root rfl rfl other,
      ofNat_ring ring ▸ traps_of_not_root (n := 0x020 + ring.toNat) rfl (sysWriteBy_ring ring) other,
      traps_of_not_root rfl rfl other, traps_of_not_root rfl rfl other, traps_of_not_root rfl rfl other⟩
  · exact exec_of_put rfl rfl root (sysPut_plansel_clear clear s)
  · refine ⟨_, exec_of_put rfl rfl root ((sysPut_plansel_set set rfl rfl header).trans (if_pos ok)), ?_⟩
    rw [State.core_setCore]
    exact ⟨rfl, rfl, rfl, rfl, rfl⟩
  · exact traps_of_put rfl rfl root ((sysPut_plansel_set set rfl rfl header).trans (if_neg (Bool.eq_false_iff.1 bad)))
  · intro old new
    have put := sysPut_rxcfg (old.written_eq v)
    exact ⟨fun ok => exec_of_put rfl (sysWriteBy_ring ring) root (put.trans (if_pos ok)),
      fun bad => traps_of_put rfl (sysWriteBy_ring ring) root (put.trans (if_neg (Bool.eq_false_iff.1 bad)))⟩
  · intro new
    have put := sysPut_kbin v s
    exact ⟨fun ok held => exec_of_stall rfl rfl root (put.trans ((if_pos ok).trans (if_pos held))),
      fun ok free => exec_of_put rfl rfl root (put.trans ((if_pos ok).trans (if_neg (Bool.eq_false_iff.1 free)))),
      fun bad => traps_of_put rfl rfl root (put.trans (if_neg (Bool.eq_false_iff.1 bad)))⟩
  · obtain ⟨w, put⟩ := sysPut_walloc ok
    refine ⟨_, exec_of_put rfl rfl root put, ?_, rfl, rfl⟩
    show (State.core (s.setCore _)).walloc[s.slot % 4]'_ = _
    simp only [State.core_setCore, Vector.getElem_set_self]
  · exact traps_of_put rfl rfl root (sysPut_walloc_refused bad)
  · exact exec_of_put rfl rfl root (sysPut_pmctl ((pmctlOk_iff v).2 events) own)
  · obtain ⟨i, lt, none_such⟩ := events
    refine traps_of_put rfl rfl root (sysPut_pmctl_refused (Bool.eq_false_iff.2 fun ok => ?_))
    exact absurd ((pmctlOk_iff v).1 ok i lt) (Nat.not_le.2 none_such)

end Sys2Proof.Machine
end

section
/-! Queues and their packets: how a queue stops, what the next slot leads to, and what a packet that may start does (R102, R353,
R356 to R361, R369). -/

namespace Sys2Proof.Machine
set_option Elab.async false

/-! ### Queues (R355, R357) -/

@[simp] theorem State.queue_raise (s : State) (vector : BitVec 3) (q : Nat) : (s.raise vector).queue q = s.queue q := rfl
@[simp] theorem Queue.word_setWord_self (x : Queue) (n : Nat) (v : Word) : (x.setWord n v).word n = v :=
  Vector.getElem_set_self _
theorem exec_queueShadowWrite_word {s : State} {q word : Nat} {value : Word} (below : q < 1024 * (s.numDies / 2)) (lt : word < 8)
    (other : word ≠ 3) : exec (.queueShadowWrite q word value) s =
      .next (s.setQueue q ((s.queue q).setWord word (value &&& shadowMask word))) :=
  (if_neg (by simp [below, lt])).trans (if_neg other)
/-- ERR 0 written to word 3: the queue resumes (R357). -/
theorem exec_queueShadowWrite_resume {s : State} {q : Nat} {value : Word} (below : q < 1024 * (s.numDies / 2))
    (clear : value.extractLsb' 0 8 = 0) : exec (.queueShadowWrite q 3 value) s =
      .next (s.setQueue q { (s.queue q).setWord 3 0 with rung := true }) :=
  (if_neg (by simp [below])).trans ((if_pos rfl).trans (congrArg _ (if_pos clear)))
/-- A queue that stops shows its packet's index and the error in word 3 (R357). -/
theorem State.word_queueError (s : State) (q err : Nat) {index : Nat} (lt : index < 2 ^ 48) :
    ((s.queueError q err index).queue q).word 3 = BitVec.ofNat 64 (2 ^ 16 * index + err) := by
  rw [State.queueError, State.queue_raise, State.queue_setQueue_self, Nat.mod_eq_of_lt lt]
  exact (s.queue q).word_setWord_self 3 _

/-- A queue that holds the weight stores of some dies stands in the list of queues. -/
theorem State.storeWriting_holdStores (s : State) (q : Nat) {ds : List Nat} {d : Nat} (mem : d ∈ ds) :
    (s.holdStores q ds).storeWriting d = true := by
  have holds : ((s.holdStores q ds).queue q).holds = ds := by
    rw [State.holdStores, State.queue_setQueue_self]
  have listed : (q, (s.holdStores q ds).queue q) ∈ (s.holdStores q ds).queues := Sparse.mem_of_get_ne fun reset => by
    rw [State.queue, reset] at holds
    subst holds
    cases mem
  refine List.any_eq_true.2 ⟨_, listed, ?_⟩
  rw [holds]
  exact List.elem_eq_true_of_mem mem

theorem State.pending_completePacket (s : State) (q : Nat) (p : Packet) :
    ((s.completePacket q p).queue q).pending = (s.queue q).pending.filter (fun y => y.index != p.index) := by
  unfold State.completePacket
  dsimp only
  split <;> simp

/-! ### What a command hart's access may meet (R15, R93, R354) -/

/-- No access of a packet reaches a core's local memory. -/
theorem State.placeFor_local {va : Nat} (here : region va = 1) (s : State) (k : Client) (n : Nat) (acc : Access) :
    s.placeFor k va n acc = .error .fault := by
  have look : s.lookFor k va acc = .error .fault := if_pos (by simp [here])
  unfold State.placeFor
  rw [look]
theorem State.waitPlace_refused {s : State} {q va : Nat} {y : Nat × Bool} (look : s.lookFor (s.client q) va .read = .ok y)
    (out : s.reduced = true ∨ y.2 = true) : s.waitPlace q va = .error .fault := by
  rw [State.waitPlace, look]
  exact if_pos (by simpa [or_comm] using out)
theorem State.counterFor_reduced {s : State} {k : Client} {va inc : Word} {y : Nat × Bool}
    (place : s.placeFor k va.toNat 8 .atomic = .ok y) (reduced : s.reduced = true) : s.counterFor k va inc = .error .fault := by
  rw [State.counterFor, place]
  exact if_pos (by simp [reduced])
theorem State.publish_effects {s t : State} {q ridx : Nat} (said : s.publish q ridx = .ok t) :
    (t.queue q).published = (s.queue q).ridx ∧ (t.queue q).sincePublish = 0 := by
  unfold State.publish at said
  dsimp only at said
  cases stored : s.storeFor (s.client q) ridx (leBytes 8 (s.queue q).ridx.toNat) with
  | error e => rw [stored] at said; cases said
  | ok u =>
    rw [stored] at said
    cases said
    simp

/-! ### The next slot (R357, R360) -/

section
variable {s : State} {q slot pa ridx : Nat} {rpl : Bool} {bs : List Byte} {p : Packet}
  (head : p = { index := (s.queue q).ridx, words := (List.range 8).map (wordOf bs) })
include head

theorem State.loadSlot_invalid (invalid : p.type = 0) :
    s.loadSlot q slot pa rpl ridx bs = s.setQueue q { s.queue q with rung := false } := by
  rw [State.loadSlot, ← head]
  exact if_pos invalid

variable (valid : p.type ≠ 0)
include valid

theorem State.loadSlot_bad (bad : (s.checkPacket q p).1 ≠ 0) (other : (s.checkPacket q p).1 ≠ 3) :
    s.loadSlot q slot pa rpl ridx bs = s.queueError q (s.checkPacket q p).1 (s.queue q).ridx.toNat := by
  rw [State.loadSlot, ← head]
  exact (if_neg valid).trans ((if_neg other).trans (if_pos bad))
theorem State.loadSlot_miss (miss : (s.checkPacket q p).1 = 3) :
    s.loadSlot q slot pa rpl ridx bs = s.packetMiss q (s.queue q).ridx.toNat (s.checkPacket q p).2 := by
  rw [State.loadSlot, ← head]
  exact (if_neg valid).trans (if_pos miss)

variable (good : (s.checkPacket q p).1 = 0) {y : State} (taken : s.takePacket q slot pa rpl p = y)
include good taken

theorem State.loadSlot_publish_error {e : Miss} (said : y.publish q ridx = .error e) :
    s.loadSlot q slot pa rpl ridx bs = s.packetMiss q (s.queue q).ridx.toNat e := by
  rw [State.loadSlot, ← head]
  refine (if_neg valid).trans ((if_neg (by simp [good])).trans ((if_neg (by simp [good])).trans ?_))
  dsimp only
  rw [taken, said]
theorem State.loadSlot_taken {t : State} (said : y.publish q ridx = .ok t) :
    s.loadSlot q slot pa rpl ridx bs = if (s.queue q).publishes p = true then t else y := by
  rw [State.loadSlot, ← head]
  refine (if_neg valid).trans ((if_neg (by simp [good])).trans ((if_neg (by simp [good])).trans ?_))
  dsimp only
  rw [taken, said]

end

theorem Queue.publishes_iff (x : Queue) (p : Packet) : x.publishes p = true ↔
    x.isLazy = false ∨ x.lazym1 ≤ x.sincePublish ∨ (p.word 0).getLsbD 9 = true := by
  simp [Queue.publishes, or_assoc]

/-- The hart reads the user half and the next slot, which is read where a byte 0 may be stored (R357). -/
theorem exec_packetLoad_reads {s v u : State} {q pa : Nat} {rpl : Bool} {user bs : List Byte}
    (live : s.queueLive q = true) (rung : (s.queue q).rung = true) (idle : s.headPacket q = none)
    (readUser : s.queueBytes q 2 (s.queue q).uaddr = .ok (user, v)) (userOk : userHalfOk user = true)
    (lo : 4 ≤ (s.queue q).logn) (hi : (s.queue q).logn ≤ 16) (aligned : (s.queue q).rbase % 64 = 0)
    (running : (wordOf user 2).getLsbD 0 = false) {va : Nat}
    (next : va = (s.queue q).rbase + 64 * ((s.queue q).ridx.toNat % 2 ^ (s.queue q).logn))
    (place : v.placeFor (v.client q) va 64 .write = .ok (pa, rpl)) (readSlot : v.queueBytes q 2 va = .ok (bs, u)) :
    exec (.packetLoad q) s = .next (u.loadSlot q va pa rpl (wordOf user 1).toNat bs) := by
  rw [exec_packetLoad, execPacketLoad, if_neg (by simp [live, rung, idle]), readUser]
  dsimp only
  rw [if_neg (by simp [userOk, aligned, lo, hi]), if_neg (Bool.eq_false_iff.1 running), ← next, place, readSlot]

/-! ### The plain packets (R102, R361) -/

theorem exec_waitctr_of_startable {s t : State} {q pa : Nat} {p : Packet} {bs : List Byte} (start : s.startable q 2 = some p)
    (place : s.waitPlace q (p.word 1).toNat = .ok pa)
    (read : s.readPiece (s.client q) false (p.word 1).toNat 8 = .ok (bs, false, t)) :
    exec (.waitctr q) s = if (p.word 2).toNat ≤ (wordOf bs 0).toNat then
        .next ((t.dropViews (fun v => v.agent == (s.client q).agent)).completePacket q p)
      else .next s := by
  rw [exec_waitctr, execWaitctr, start]
  dsimp only
  rw [place, read]
  rfl
theorem exec_signal_ok {s t : State} {q : Nat} {p : Packet} (start : s.startable q 3 = some p)
    (count : s.counterFor (s.client q) (p.word 1) (p.word 2) = .ok t) : exec (.signal q) s = .next (t.completePacket q p) := by
  rw [exec_signal, execSignal, start]
  dsimp only
  rw [count]
theorem exec_signal_error {s : State} {q : Nat} {p : Packet} {e : Miss} (start : s.startable q 3 = some p)
    (count : s.counterFor (s.client q) (p.word 1) (p.word 2) = .error e) :
    exec (.signal q) s = .next (s.packetMiss q p.index.toNat e) := by
  rw [exec_signal, execSignal, start]
  dsimp only
  rw [count]
theorem exec_marker_of_startable {s : State} {q : Nat} {p : Packet} (start : s.startable q 5 = some p) :
    exec (.marker q) s = .next ((if (s.die (2 * queueCard q)).trace.en then
      s.traceWrite (2 * queueCard q) (traceWord 0x7FF 0 1 0) 0x3FF (p.word 1) else s).completePacket q p) := by
  rw [exec_marker, execMarker, start]
theorem exec_copyPacket_of_startable {s : State} {q : Nat} {p : Packet} (start : s.startable q 4 = some p) :
    exec (.copyPacket q) s = .next (s.copyParts q p ((p.word 3).toNat / 16 + 1)) := by
  rw [exec_copyPacket, execCopyPacket, start]

section
variable {s : State} {q n : Nat} {p : Packet}

theorem State.copyParts_busy (busy : ∃ d ∈ s.weightDies q p, s.dieBusy d = true) : s.copyParts q p n = s :=
  if_pos (List.any_eq_true.2 busy)

variable (free : ∀ d ∈ s.weightDies q p, s.dieBusy d = false)
include free

theorem State.copyParts_hold (fresh : (s.queue q).holds ≠ s.weightDies q p) :
    s.copyParts q p n = s.holdStores q (s.weightDies q p) :=
  (if_neg (by simpa using free)).trans (if_pos fresh)

variable (held : (s.queue q).holds = s.weightDies q p)
include held

theorem State.copyParts_miss {e : Miss} (miss : (s.copyRun q p n).2 = some e) :
    s.copyParts q p n = (s.copyRun q p n).1.packetMiss q p.index.toNat e := by
  refine (if_neg (by simpa using free)).trans ((if_neg (not_not.2 held)).trans ?_)
  dsimp only
  rw [miss]
theorem State.copyParts_run (runs : (s.copyRun q p n).2 = none) : s.copyParts q p n =
    if (s.copyRun q p n).1.copied q p = true then (s.copyRun q p n).1.endCopy q p else (s.copyRun q p n).1 := by
  refine (if_neg (by simpa using free)).trans ((if_neg (not_not.2 held)).trans ?_)
  dsimp only
  rw [runs]

end

/-- A COPY that holds no weight store ends with its counter, if it names one (R361). -/
theorem State.endCopy_plain {s : State} {q : Nat} {p : Packet} (none_held : (s.queue q).holds = []) :
    (p.word 4 = 0 → s.endCopy q p = s.completePacket q p) ∧
    (∀ t, p.word 4 ≠ 0 → s.counterFor (s.client q) (p.word 4) 1 = .ok t → s.endCopy q p = t.completePacket q p) := by
  unfold State.endCopy
  dsimp only
  simp only [none_held, List.isEmpty_nil, if_true]
  refine ⟨fun none_named => if_pos none_named, fun t named count => (if_neg named).trans ?_⟩
  rw [count]

/-- A chunk whose source's weight-store bank does not refresh is read at its home and stored, its poison kept (R103, R361). -/
theorem State.copyChunk_moves {s u : State} {q pa src dst n : Nat} {p : Packet} {rpl bad : Bool} {bs : List Byte}
    (from_ : src = (p.word 1).toNat + (s.queue q).copied) (to_ : dst = (p.word 2).toNat + (s.queue q).copied)
    (length : n = min ((p.word 3).toNat - (s.queue q).copied) (32 - dst % 32))
    (place : s.placeFor (s.client q) dst n .copy = .ok (pa, rpl)) (read : s.readFor (s.client q) true 2 n src = .ok (bs, bad, u))
    (quiet : ∀ va ∈ [src, src + n - 1], ∀ y, s.lookFor (s.client q) va .read = .ok y → s.refreshLeft y.1 = 0) :
    s.copyChunk q p = .ok (some ((u.putFor (s.client q) dst pa rpl bs (if bad then 3 else 0)).setQueue q
      { s.queue q with copied := (s.queue q).copied + n })) := by
  rw [State.copyChunk]
  dsimp only
  rw [← from_, ← to_, ← length, place]
  dsimp only
  rw [read]
  dsimp only
  refine if_neg ?_
  rw [Bool.not_eq_true, Bool.or_eq_false_iff]
  constructor
  all_goals
    split
    · next look => exact decide_eq_false (not_not.2 (quiet _ (by simp) _ look))
    · rfl

/-! ### The obligation -/

/-- Settles O49, clause by clause. -/
theorem packetEvents : Obligations.PacketEvents := by
  unfold Obligations.PacketEvents
  intro s q x k
  refine ⟨fun below word value => ⟨fun lt other => exec_queueShadowWrite_word below lt other,
      fun clear => exec_queueShadowWrite_resume below clear⟩, rfl, rfl,
    fun err index _ lt => ⟨s.word_queueError q err lt, rfl⟩,
    fun index => ⟨rfl, rfl, rfl, fun addr => rfl⟩, fun va n acc here => s.placeFor_local here k n acc, ?_,
    fun ridx t said => State.publish_effects said, fun va y look out => State.waitPlace_refused look out,
    fun p pa bs t start place read => ?_,
    fun p start => ⟨fun t count => exec_signal_ok start count, fun e count => exec_signal_error start count⟩,
    fun va inc y place reduced => State.counterFor_reduced place reduced, fun p start => ?_,
    fun ds d mem => s.storeWriting_holdStores q mem, ?_, fun p none_held => State.endCopy_plain none_held,
    fun p start => exec_marker_of_startable start, fun p => s.pending_completePacket q p⟩
  · intro user v pa rpl bs u live rung idle readUser userOk lo hi aligned running va p place readSlot kept err
    have run := exec_packetLoad_reads live rung idle readUser userOk lo hi aligned running rfl place readSlot
    have head : p = { index := (u.queue q).ridx, words := (List.range 8).map (wordOf bs) } := by rw [kept]
    refine ⟨fun invalid => ?_, fun valid bad other => ?_, fun valid miss => ?_, fun valid good => ?_⟩
    · rw [run, State.loadSlot_invalid head invalid, kept]
    · rw [run, State.loadSlot_bad head valid bad other, kept]
    · rw [run, State.loadSlot_miss head valid miss, kept]
    · intro taken y said
      have take : u.takePacket q va pa rpl p = y := by
        unfold State.takePacket
        rw [kept]
      refine ⟨fun t ok still few quiet => ?_, fun t ok due => ?_, fun e error => ?_⟩
      · rw [run, State.loadSlot_taken head valid good take ok, kept, if_neg]
        rw [Queue.publishes_iff, not_or, not_or]
        exact ⟨Bool.not_eq_false _ |>.mpr still, Nat.not_le.2 few, Bool.eq_false_iff.1 quiet⟩
      · rw [run, State.loadSlot_taken head valid good take ok, kept, if_pos ((x.publishes_iff p).2 due)]
      · rw [run, State.loadSlot_publish_error head valid good take error, kept]
  · have run := exec_waitctr_of_startable start place read
    exact ⟨fun reached => run.trans (if_pos reached), fun below => run.trans (if_neg (Nat.not_le.2 below))⟩
  · intro ds r
    rw [exec_copyPacket_of_startable start]
    refine ⟨fun busy => ?_, fun free => ⟨fun fresh => ?_, fun held e miss => ?_, fun held runs more => ?_, fun held runs done => ?_⟩⟩
    · rw [State.copyParts_busy busy]
    · rw [State.copyParts_hold free fresh]
    · rw [State.copyParts_miss free held miss]
    · rw [State.copyParts_run free held runs, if_neg (Bool.eq_false_iff.1 more)]
    · rw [State.copyParts_run free held runs, if_pos done]
  · intro p pa rpl bs bad u src dst n place read quiet
    exact State.copyChunk_moves rfl rfl rfl place read quiet

end Sys2Proof.Machine
end

section
/-! Releases, deferred faults and FENCE (R83, R127, R137, R285, R337). -/

namespace Sys2Proof.Machine
set_option Elab.async false

/-! ### Instructions of the long formats in an engine hart -/

/-- The first parcel of format M or Q, but for major 1, is of the engine profile (R159). -/
theorem inProfile_long {i : Instr} {p : Parcel} {ps : List Parcel} (a : Agent) (words : encode i = p :: ps)
    (length : p.extractLsb' 0 2 = 1#2) (major : p.extractLsb' 2 6 = 2#6 ∨ p.extractLsb' 2 6 = 3#6 ∨ p.extractLsb' 2 6 = 9#6) :
    inProfile a i = true := by
  unfold inProfile
  rw [words]
  unfold parcelInProfile
  dsimp only
  rw [length]
  rcases major with h | h | h <;> rw [h] <;> rfl
/-- Atomics and tile accesses are of the engine profile (R159). -/
theorem State.accepts_formatM {s : State} {i : Instr} {fn5 : BitVec 5} {major : BitVec 6} {f : MFields}
    (words : encode i = Enc.m fn5 major f) (kind : major = 2#6 ∨ major = 9#6) (wf : i.wf = true) : s.accepts i := by
  obtain ⟨-, -, -, field, length⟩ := Enc.m_eq_iff.1 (rfl : Enc.m fn5 major f = [_, _])
  exact ⟨fun _ => inProfile_long s.cur words length (by rw [field]; tauto), wf⟩
/-- Counter and barrier instructions are of the engine profile (R159). -/
theorem State.accepts_formatQ {s : State} {i : Instr} {fn5 : BitVec 5} {f : QFields}
    (words : encode i = Enc.q fn5 3 f) (wf : i.wf = true) : s.accepts i := by
  obtain ⟨-, -, -, field, length⟩ := Enc.q_eq_iff.1 (rfl : Enc.q fn5 3 f = [_, _])
  exact ⟨fun _ => inProfile_long s.cur words length (.inr (.inl field)), wf⟩

/-! ### Releases -/

section
variable {s : State}

theorem takeDeferred_of_none (none : s.ctx.deferred = none) : takeDeferred s = .ok () s := by
  unfold takeDeferred
  rw [M.get_bind, none]
  rfl
theorem takeDeferred_of_some {d : Deferred} (pending : s.ctx.deferred = some d) :
    takeDeferred s = .error (.keep 0x21 d.eval d.pc) (s.setCtx { s.ctx with deferred := none }) := by
  unfold takeDeferred
  rw [M.get_bind, pending]
  rfl

variable {scope : Nat}

theorem release_of_releases {u : State} (h : s.releases scope u) : release scope s = .ok () u := by
  obtain ⟨before, unlogged, free, after, rfl⟩ := h
  unfold release
  rw [M.bind_ok (takeDeferred_of_none before), M.get_bind, if_neg (by simp [unlogged, free])]
  refine (M.bind_ok (takeDeferred_of_none after)).trans ?_
  exact congrArg (fun a => EStateM.Result.ok () ((s.flush s.cur).dropPorts a scope)) (State.cur_of_fixed (s.fixed_flush s.cur))
theorem release_stalls (none : s.ctx.deferred = none) (waits : s.logged = true ∨ s.writesHeld = true) :
    release scope s = .error .stall s := by
  unfold release
  rw [M.bind_ok (takeDeferred_of_none none), M.get_bind, if_pos (Bool.or_eq_true_iff.2 waits)]
  rfl
theorem release_of_deferred {d : Deferred} (pending : s.ctx.deferred = some d) :
    release scope s = .error (.keep 0x21 d.eval d.pc) (s.setCtx { s.ctx with deferred := none }) :=
  M.bind_error (takeDeferred_of_some pending)

end

/-! ### FENCE -/

/-- FENCE is of the engine profile (R159). -/
theorem inProfile_fence (a : Agent) (mode : BitVec 2) : inProfile a (.fence mode) = true := by
  obtain ⟨-, fn4, -, -, major, length⟩ := Enc.s_eq_iff.1 (rfl : Enc.s (0#8 ++ mode) 1 0 0 20 = _)
  simp only [inProfile, encode_fence, parcelInProfile, length, major, fn4]
  rfl

section
variable {s : State} {mode : BitVec 2}

theorem fence_of_bad (bad : mode = 0) : s.traps (.fence mode) 0x02 (Instr.fence mode).p0 :=
  runInstr_operand (fun _ => inProfile_fence s.cur mode) (by subst bad; rfl)

/-- The half of a FENCE that may wait or trap. -/
def fenceFirst (mode : BitVec 2) : M Unit := if mode.getLsbD 0 = true then release 3 else takeDeferred

theorem exec_fence_runs (good : mode ≠ 0) :
    s.Runs (.fence mode) (fenceFirst mode >>= fun _ => step1 fun t => if mode.getLsbD 1 then t.acquireAll else t) := by
  refine State.Runs.congr ⟨exec_fence mode s, fun _ => inProfile_fence s.cur mode, bne_iff_ne.2 good⟩ ?_
  unfold fenceFirst
  dsimp only
  split <;> rfl

theorem fence_leaves {u : State} (good : mode ≠ 0) (first : fenceFirst mode s = .ok () u) :
    s.leaves (.fence mode) (if mode.getLsbD 1 then u.acquireAll else u) :=
  (exec_fence_runs good).leaves (M.bind_ok first)
theorem fence_stops {u : State} {stop : Stop} (good : mode ≠ 0) (first : fenceFirst mode s = .error stop u) :
    exec (.fence mode) s = .next (s.afterStop u stop) := (exec_fence_runs good).stops (M.bind_error first)

theorem fenceFirst_of_release (release_ : mode.getLsbD 0 = true) : fenceFirst mode = release 3 := if_pos release_
theorem fenceFirst_of_deferred {d : Deferred} (pending : s.ctx.deferred = some d) :
    fenceFirst mode s = .error (.keep 0x21 d.eval d.pc) (s.setCtx { s.ctx with deferred := none }) := by
  unfold fenceFirst
  split
  · exact release_of_deferred pending
  · exact takeDeferred_of_some pending

end

/-- Settles O14: the release half decides whether a FENCE goes on; the acquire half only drops sectors. -/
theorem fenceResults : Obligations.FenceResults := by
  unfold Obligations.FenceResults
  intro s mode
  have good (half : mode.getLsbD 0 = true) : mode ≠ 0 := by rintro rfl; cases half
  refine ⟨fence_of_bad, fun u half passed => ?_, ?_, fun half none waits => ?_, fun d good pending => ?_⟩
  · refine fence_leaves (good half) ?_
    rw [fenceFirst_of_release half]
    exact release_of_releases passed
  · rintro rfl none
    exact fence_leaves (by decide) (takeDeferred_of_none none)
  · refine fence_stops (u := s) (stop := .stall) (good half) ?_
    rw [fenceFirst_of_release half]
    exact release_stalls none waits
  · exact fence_stops good (fenceFirst_of_deferred pending)

end Sys2Proof.Machine
end

section
/-! The checks of a memory access, one after the other (R14, R110). -/

namespace Sys2Proof.Machine
set_option Elab.async false

/-- The address of an element lies in the space and in the region of BASE (R14). -/
def Cap.inside (c : Cap) (i0 i1 : Int) : Prop :=
  0 ≤ c.addr i0 i1 ∧ c.addr i0 i1 < 2 ^ 48 ∧ region (c.addr i0 i1).toNat = region c.base.toNat

section
variable {c : Cap} {k : Kind} {ok : Bool} {n : Nat} {i0 i1 : Int} {s u v : State}

theorem elemAddr_of_inside (h : c.inside i0 i1) : elemAddr c i0 i1 s = .ok (c.addr i0 i1).toNat s := by
  obtain ⟨low, high, same⟩ := h
  unfold elemAddr
  rw [if_neg (by simpa [low, same] using high)]
  rfl
theorem elemAddr_of_outside (h : ¬ c.inside i0 i1) :
    elemAddr c i0 i1 s = .error (.trap 0x0D (BitVec.ofInt 64 (c.addr i0 i1)) .none) s := by
  unfold elemAddr
  rw [if_pos]
  · rfl
  · by_contra passed
    simp only [Bool.or_eq_true, decide_eq_true_eq, not_or, not_lt, not_le, ne_eq, not_not] at passed
    exact h ⟨passed.1.1, passed.1.2, passed.2⟩

theorem accCheck_of_capCheck_error {e : Stop} (failed : capCheck c k i0 i1 s = .error e u) :
    accCheck c k ok n i0 i1 s = .error e u := M.bind_error failed

section
variable (passed : capCheck c k i0 i1 s = .ok () u)
include passed

theorem accCheck_of_bad_type (bad : ok = false) :
    accCheck c k ok n i0 i1 s = .error (.trap 0x0E (c.fmt.setWidth 64) .none) u := by
  unfold accCheck
  rw [M.bind_ok passed, M.bind_error (M.need_bad bad)]
/-- Past its format an access of no BYTE goes on to its address. -/
theorem accCheck_of_typed (good : ok = true) (typed : c.fmt ≠ 0) : accCheck c k ok n i0 i1 s = elemAddr c i0 i1 u := by
  unfold accCheck
  rw [M.bind_ok passed, M.bind_ok (M.need_ok good), if_neg typed]
/-- An access of BYTE checks its last byte and its alignment first. -/
theorem accCheck_of_byte (good : ok = true) (byte : c.fmt = 0) : accCheck c k ok n i0 i1 s =
    (capCheck c k (i0 + n - 1) i1 >>= fun _ => need (c.addr i0 i1 % n == 0) 0x18 (evalOf (c.addr i0 i1)) >>= fun _ =>
      elemAddr c i0 i1) u := by
  unfold accCheck
  rw [M.bind_ok passed, M.bind_ok (M.need_ok good), if_pos byte]

end

end

/-- Settles O23: each check fails with its own cause, and the one before it has passed. -/
theorem accessCheck : Obligations.AccessCheck := by
  unfold Obligations.AccessCheck
  intro s u v c k ok n i0 i1 addr trapsBy traps inside
  refine ⟨fun cause eval failed => ⟨s, accCheck_of_capCheck_error failed⟩, fun passed =>
    ⟨fun bad => ⟨u, accCheck_of_bad_type passed bad⟩, fun good typed => ?_, fun good byte => ?_⟩⟩
  · have rest := accCheck_of_typed (n := n) passed good typed
    exact ⟨fun within => rest.trans (elemAddr_of_inside within), fun out => ⟨u, rest.trans (elemAddr_of_outside out)⟩⟩
  · have rest := accCheck_of_byte (n := n) passed good byte
    refine ⟨fun cause eval failed => ⟨u, rest.trans (M.bind_error failed)⟩, fun last => ⟨fun odd => ⟨v, ?_⟩, fun aligned => ?_⟩⟩
    · rw [rest, M.bind_ok last, M.bind_error (M.need_bad (by simpa using odd))]
      rfl
    · have done : accCheck c k ok n i0 i1 s = elemAddr c i0 i1 v := by
        rw [rest, M.bind_ok last, M.bind_ok (M.need_ok (by simpa using aligned))]
      exact ⟨fun within => done.trans (elemAddr_of_inside within), fun out => ⟨v, done.trans (elemAddr_of_outside out)⟩⟩

end Sys2Proof.Machine
end

section
/-! What the Press does to memory and to the links leaves contexts and cores as they are; what it does for one agent leaves the
other contexts and the barrier slots (R142, R145, R155, R337). -/

namespace Sys2Proof.Machine
set_option Elab.async false

/-! ### Memory, links, dies and queues -/

/-- What the agents and their cores hold. -/
def State.held (s : State) : Sparse Ctx × Sparse Core := (s.ctxs, s.cores)

theorem State.held_eq_iff {s t : State} : t.held = s.held ↔ t.ctxs = s.ctxs ∧ t.cores = s.cores := Prod.mk_inj

theorem State.held_writeHome (s : State) (a : Nat) (bs : List Byte) : (s.writeHome a bs).held = s.held :=
  State.writeHome_keeps State.held (fun _ _ _ _ => rfl) s a bs
theorem State.held_setBytes (s : State) (a : Nat) (bs : List Byte) : (s.setBytes a bs).held = s.held := by
  induction bs generalizing s a with
  | nil => rfl
  | cons b rest ih => exact ih _ _
theorem State.held_clearTags (s : State) (a n : Nat) : (s.clearTags a n).held = s.held := by
  unfold State.clearTags
  split
  · rfl
  · exact foldl_keeps State.held (fun s i => s.setTag (a + 32 * i) false) (fun _ _ => rfl) _ s
theorem State.held_writeLine (s : State) (p : Piece) : (s.writeLine p).held = s.held :=
  State.writeLine_keeps State.held (fun _ _ _ _ => rfl) s p
theorem State.held_startJob (s : State) (p : Piece) : (s.startJob p).held = s.held := by
  unfold State.startJob
  split
  · exact s.held_setBytes _ _
  · rfl
theorem State.held_touchSector (s : State) (a : Nat) (w : Writer) (b x : Bool) : (s.touchSector a w b x).held = s.held := by
  obtain ⟨D, h⟩ := s.touchSector_shape a w b x
  rw [h]
  rfl
theorem State.held_touch (s : State) (a : Nat) (w : Writer) (b : Bool) : (s.touch a w b).held = s.held :=
  s.held_touchSector a w b false
theorem State.held_writeBy (s : State) (w : Writer) (a : Nat) (bs : List Byte) : (s.writeBy w a bs).held = s.held :=
  (foldl_keeps State.held _ (fun s p => s.held_touchSector p w false _) _ _).trans (s.held_writeHome a bs)
theorem State.held_setViews (s : State) (v : List Sector) : (s.setViews v).held = s.held := rfl
theorem State.held_refreshHeld (s : State) (a : Agent) (pa : Nat) : (s.refreshHeld a pa).held = s.held := s.held_setViews _
theorem State.held_noteDelivered (s : State) (agent : Agent) (a : Nat) : (s.noteDelivered agent a).held = s.held := rfl
theorem State.held_written (s : State) (agent : Agent) (run a : Nat) (b : Bool) : (s.written agent run a b).held = s.held :=
  (State.held_noteDelivered _ _ _).trans ((State.held_refreshHeld _ _ _).trans (s.held_touch _ _ _))
theorem State.held_performAtomic (s : State) (agent : Agent) (run a : Nat) (fn5 : BitVec 5) (wide : Bool) (x cmp : Word) :
    (s.performAtomic agent run a fn5 wide x cmp).2.held = s.held :=
  (State.held_written _ _ _ _ _).trans ((State.held_clearTags _ _ _).trans (s.held_setBytes _ _))
theorem State.held_performCounter (s : State) (agent : Agent) (run a : Nat) (inc : Word) :
    (s.performCounter agent run a inc).held = s.held :=
  (State.held_written _ _ _ _ _).trans ((State.held_clearTags _ _ _).trans (s.held_setBytes _ _))
theorem State.held_sendItems (s : State) (d e : Nat) (xs : List LinkItem) : (s.sendItems d e xs).held = s.held := by
  obtain ⟨L, h⟩ := s.sendItems_shape d e xs
  rw [h]
  rfl
theorem State.held_acknowledge (s : State) (p : Piece) : (s.acknowledge p).held = s.held := by
  unfold State.acknowledge
  dsimp only
  split
  · rfl
  · exact s.held_sendItems _ _ _
theorem State.held_setQueues (s : State) (q f : List Piece) : (s.setQueues q f).held = s.held := rfl
theorem State.held_route (s : State) (p : Piece) : (s.route p).held = s.held := s.held_sendItems _ _ _
theorem State.held_drain (s : State) (p : Piece) : (s.drain p).held = s.held :=
  (State.held_route _ p).trans (s.held_setQueues _ _)
theorem State.held_drainWhere (s : State) (a : Agent) (w : Piece → Bool) : (s.drainWhere a w).held = s.held :=
  foldl_keeps State.held _ State.held_drain _ s
theorem State.held_securityEvent (s : State) : s.securityEvent.held = s.held := rfl
theorem State.held_loseDeferred (s : State) (run : Nat) : (s.loseDeferred run).held = s.held := rfl
theorem State.held_tableError (s : State) : s.tableError.held = s.held := rfl
theorem State.held_requestPage (s : State) (die tenant va : Nat) : (s.requestPage die tenant va).2.held = s.held := by
  unfold State.requestPage
  split <;> rfl

/-! ### What is done for another agent -/

/-- Slot `n` of core `j` and the context of agent `b`. -/
def State.beside (s : State) (j n : Nat) (b : Agent) : Barrier × Ctx := ((s.coreAt j).barrier n, s.ctxOf b)

theorem State.beside_of_held {s t : State} (h : t.held = s.held) (j n : Nat) (b : Agent) : t.beside j n b = s.beside j n b := by
  obtain ⟨ctxs, cores⟩ := State.held_eq_iff.1 h
  simp only [State.beside, State.coreAt, State.ctxOf, ctxs, cores]

theorem State.beside_setCoreAt (s : State) (k : Nat) (c : Core) (j n : Nat) (b : Agent)
    (same : c.u.barriers = (s.coreAt k).u.barriers) : (s.setCoreAt k c).beside j n b = s.beside j n b := by
  have slot : ((s.setCoreAt k c).coreAt j).barrier n = (s.coreAt j).barrier n := by
    rw [State.coreAt_setCoreAt]
    split
    · next here => subst here; exact congrArg (Sparse.get Barrier.reset · n) same
    · rfl
  exact Prod.mk_inj.2 ⟨slot, rfl⟩

section
variable (s : State) (j n : Nat) {a b : Agent}

theorem State.beside_setCtxOf (c : Ctx) (other : agentKey b ≠ agentKey a) :
    (s.setCtxOf a c).beside j n b = s.beside j n b :=
  Prod.mk_inj.2 ⟨rfl, (s.ctxOf_setCtxOf a b c).trans (if_neg other)⟩

theorem State.beside_deferSaved (core slot : Nat) (sv : SavedCore) (d : Deferred) :
    (s.deferSaved core slot sv d).beside j n b = s.beside j n b := by
  unfold State.deferSaved
  split
  · split
    · exact State.beside_of_held (s.held_loseDeferred _) j n b
    · exact (State.beside_of_held (State.held_writeHome _ _ _) j n b).trans (s.beside_setCoreAt _ _ j n b rfl)
  · exact State.beside_of_held (s.held_loseDeferred _) j n b

theorem State.beside_defer (run : Nat) (eval : Word) (pc : BitVec 48) (other : agentKey b ≠ agentKey a) :
    (s.defer a run eval pc).beside j n b = s.beside j n b := by
  unfold State.defer
  extract_lets c here
  have kept : here.beside j n b = s.beside j n b := by
    unfold here
    split
    · exact s.beside_setCtxOf j n _ other
    · exact State.beside_of_held (s.held_loseDeferred _) j n b
  split
  · split
    · exact kept
    · split
      · split
        · exact s.beside_deferSaved j n _ _ _ _
        · rfl
      · rfl
  · rfl
  · rfl
  · rfl
  · rfl
  · exact kept

theorem State.beside_markForeign (agent : Agent) (p : Nat) : (s.markForeign agent p).beside j n b = s.beside j n b := by
  unfold State.markForeign
  split
  · rfl
  · extract_lets own armed c
    split
    · rfl
    · split
      · rfl
      · exact s.beside_setCoreAt _ _ j n b rfl

variable {p : Piece} (other : agentKey b ≠ agentKey p.agent)
include other

theorem State.beside_failAtomic (dst : Option (BitVec 5)) (cause : BitVec 8) :
    (s.failAtomic p dst cause).beside j n b = s.beside j n b := by
  unfold State.failAtomic
  split
  · exact s.beside_defer j n _ _ _ other
  · dsimp only
    split
    · next k i agent =>
      split
      · exact s.beside_setCtxOf j n _ other
      · split
        · split
          · exact s.beside_setCoreAt _ _ j n b rfl
          · rfl
        · rfl
    · exact s.beside_setCtxOf j n _ other

theorem State.beside_perform : (s.perform p).beside j n b = s.beside j n b := by
  have fails (dst : Option (BitVec 5)) (cause : BitVec 8) := s.beside_failAtomic j n other dst cause
  unfold State.perform
  dsimp only
  split
  · split
    · exact State.beside_defer _ j n _ _ _ other
    · split
      · rfl
      · have written : ((((s.writeLine p).startJob p).written p.agent p.run p.place p.nonAlloc).markForeign p.agent p.place).beside
            j n b = s.beside j n b :=
          (State.beside_markForeign _ j n _ _).trans (State.beside_of_held ((State.held_written _ _ _ _ _).trans
            ((State.held_startJob _ p).trans (s.held_writeLine p))) j n b)
        split
        · exact written
        · exact written
  · next fn5 wide x cmp dst op =>
    generalize (if dst.isSome = true then Wants.both else Wants.write) = want
    split
    · exact State.beside_failAtomic _ j n other dst 0x12
    · split
      · exact fails (some 0) 0x22
      · have done := State.beside_of_held (s.held_performAtomic p.agent p.run p.place fn5 wide x cmp) j n b
        split
        · exact (State.beside_setCtxOf _ j n _ other).trans done
        · exact done
  · split
    · exact State.beside_failAtomic _ j n other (some 0) 0x12
    · split
      · exact fails (some 0) 0x22
      · exact State.beside_of_held (s.held_performCounter _ _ _ _) j n b

theorem State.beside_deliver : (s.deliver p).beside j n b = s.beside j n b :=
  (State.beside_perform _ j n other).trans (State.beside_of_held ((State.held_setQueues _ _ _).trans (s.held_acknowledge p)) j n b)

end

/-- What every element of a list keeps, the fold over the list keeps. -/
theorem foldl_keeps_of_mem {σ β γ : Type} (g : σ → γ) (f : σ → β → σ) (xs : List β) (h : ∀ s, ∀ x ∈ xs, g (f s x) = g s) (s : σ) :
    g (xs.foldl f s) = g s := by
  induction xs generalizing s with
  | nil => rfl
  | cons x rest ih =>
    exact (ih (fun s y hy => h s y (List.mem_cons_of_mem x hy)) _).trans (h s x List.mem_cons_self)

section
variable (s : State) (j n : Nat) {a b : Agent} (other : agentKey b ≠ agentKey a)
include other

theorem State.beside_deliverWhere (w : Piece → Bool) : (s.deliverWhere a w).beside j n b = s.beside j n b := by
  refine foldl_keeps_of_mem (State.beside · j n b) _ _ (fun s p hp => s.beside_deliver j n ?_) s
  obtain ⟨-, mine⟩ := List.mem_filter.1 hp
  rwa [eq_of_beq (Bool.and_eq_true_iff.1 mine).1]
theorem State.beside_settle (place len : Nat) : (s.settle a place len).beside j n b = s.beside j n b := by
  unfold State.settle
  dsimp only
  split
  · exact (State.beside_deliverWhere _ j n other _).trans (State.beside_of_held (s.held_drainWhere a _) j n b)
  · rfl

end

theorem State.beside_storeNow (s : State) (j n : Nat) {b : Agent} {p : Piece} (other : agentKey b ≠ agentKey p.agent) :
    (s.storeNow p).beside j n b = s.beside j n b :=
  (State.beside_perform _ j n other).trans (s.beside_settle j n other _ _)
theorem State.beside_of_translates {s t : State} (h : s.Translates t) (j n : Nat) (b : Agent) :
    t.beside j n b = s.beside j n b := by
  obtain ⟨l, hl⟩ := h.core j
  simp only [State.beside, hl, State.ctxOf, h.ctxs]
  rfl
theorem State.beside_logAgain (s : State) (core : Nat) (e : SideEntry) (epoch : Nat) (j n : Nat) (b : Agent) :
    (s.logAgain core e epoch).beside j n b = s.beside j n b := s.beside_setCoreAt _ _ j n b rfl

section
variable (s : State) (j n : Nat) {a b : Agent} (other : agentKey b ≠ agentKey a)
include other

theorem State.beside_coreStore (core run va : Nat) (x : BitVec 512 × BitVec 512) :
    (s.coreStore core run a va x).beside j n b = s.beside j n b := by
  unfold State.coreStore
  dsimp only
  split
  · have walked := State.beside_of_translates (s.translates_translated (.copy core) va ‹_›) j n b
    split
    · exact (State.beside_of_held (State.held_setQueues _ _ _) j n b).trans walked
    · exact (State.beside_storeNow _ j n (p := { agent := a, .. }) other).trans walked
  · refine (State.beside_defer _ j n _ _ _ other).trans ?_
    split
    · exact State.beside_of_held s.held_tableError j n b
    · rfl
  · exact (State.beside_logAgain _ _ _ _ j n b).trans (State.beside_of_held (s.held_requestPage _ _ _) j n b)
  · exact s.beside_logAgain _ _ _ j n b
theorem State.beside_writeState (core run rec : Nat) (x : BitVec 4) :
    (s.writeState core run a rec x).beside j n b = s.beside j n b := s.beside_coreStore j n other _ _ _ _

end

theorem State.beside_checkArrival (s : State) (core j n : Nat) (b : Agent) :
    (s.checkArrival core).beside j n b = s.beside j n b := by
  unfold State.checkArrival
  dsimp only
  split
  · rfl
  · split
    · exact s.beside_setCoreAt _ _ j n b rfl
    · split
      · split
        · rfl
        · exact s.beside_setCoreAt _ _ j n b rfl
      · rfl

section
variable (s : State) (core j n : Nat) {b : Agent} {p : Parked} (other : agentKey b ≠ agentKey (p.agent core))
include other

theorem State.beside_makeReady : (s.makeReady core p).beside j n b = s.beside j n b := by
  unfold State.makeReady
  extract_lets t e c units u d under c'
  have start : u.beside j n b = s.beside j n b :=
    (t.beside_setCoreAt core _ j n b (by rfl)).trans (s.beside_writeState j n other _ _ _ _)
  split
  · exact (u.beside_setCoreAt core _ j n b (by rfl)).trans start
  · split
    · exact (State.beside_checkArrival _ _ j n b).trans ((State.beside_of_held (s := u) rfl j n b).trans start)
    · split
      · exact (u.beside_setCoreAt core _ j n b (by rfl)).trans start
      · exact (u.beside_setCoreAt core _ j n b (by rfl)).trans start
theorem State.beside_writeImageG (x : Word) : (s.writeImageG core p x).beside j n b = s.beside j n b := by
  unfold State.writeImageG
  split
  · rfl
  · exact s.beside_coreStore j n other _ _ _ _

end

end Sys2Proof.Machine
end

section
/-! Barrier slots: the instructions, and what an arrival does to its slot and to who waits there (R134 to R136). -/

namespace Sys2Proof.Machine
set_option Elab.async false

/-! ### Waking who waits at a slot -/

/-- A context that waits at slot `n` reads the status and waits no more (R135). -/
def Ctx.woken (c : Ctx) (n : Nat) (status : Word) : Ctx :=
  if c.atBarrier n then
    match c.susp with
    | some w => { c with susp := none }.setG w.dst status
    | none => c
  else c
/-- Agent `a` is woken where it waits at slot `n`. -/
def State.wakeAt (n : Nat) (status : Word) (s : State) (a : Agent) : State :=
  let c := s.ctxOf a
  if c.atBarrier n then
    match c.susp with
    | some w => (s.setCtxOf a ({ c with susp := none }.setG w.dst status)).logWake a
    | none => s
  else s
/-- The written-back waiter `p` of core `core` is woken (R294). -/
def State.wakeParked (core : Nat) (status : Word) (s : State) (p : Parked) : State := (s.writeImageG core p status).makeReady core p

theorem State.wakeBarrier_eq (s : State) (core n : Nat) (status : Word) :
    ∃ ps : List Parked, s.wakeBarrier core n status =
      ps.foldl (State.wakeParked core status) ((slotAgents core).foldl (State.wakeAt n status) s) := ⟨_, rfl⟩

theorem Ctx.atBarrier_iff {c : Ctx} {n : Nat} :
    c.atBarrier n = true ↔ ∃ w, c.susp = some w ∧ w.reason = .barrier ∧ w.key.toNat % 256 = n := by
  unfold Ctx.atBarrier
  cases c.susp with
  | none => simp
  | some w => simp
/-- What a waiter reads: it waits no more, and its register holds the status. -/
theorem Ctx.woken_of_susp {c : Ctx} {n : Nat} {status : Word} {w : Susp} (susp : c.susp = some w) (at_ : c.atBarrier n = true) :
    c.woken n status = { c with susp := none }.setG w.dst status := by
  unfold Ctx.woken
  rw [if_pos at_, susp]
theorem Ctx.susp_woken {c : Ctx} {n : Nat} {status : Word} {w : Susp} (susp : c.susp = some w) (at_ : c.atBarrier n = true) :
    (c.woken n status).susp = none := by
  rw [Ctx.woken_of_susp susp at_, Ctx.susp_setG]
theorem Ctx.g_woken {c : Ctx} {n : Nat} {status : Word} {w : Susp} (susp : c.susp = some w) (at_ : c.atBarrier n = true)
    (dst : w.dst ≠ 0) : (c.woken n status).r.g[w.dst.toNat] = status := by
  rw [Ctx.woken_of_susp susp at_]
  unfold Ctx.setG
  simp only [if_neg dst]
  exact Vector.getElem_set_self _
theorem Ctx.woken_woken (c : Ctx) (n : Nat) (status : Word) : (c.woken n status).woken n status = c.woken n status := by
  by_cases at_ : c.atBarrier n = true
  · obtain ⟨w, susp, -, -⟩ := Ctx.atBarrier_iff.1 at_
    refine if_neg (fun again => ?_)
    obtain ⟨w', still, -, -⟩ := Ctx.atBarrier_iff.1 again
    rw [Ctx.susp_woken susp at_] at still
    cases still
  · have same : c.woken n status = c := if_neg at_
    rw [same, same]

theorem State.beside_logItem (s : State) (k : Nat) (x : LogItem) (j n : Nat) (b : Agent) :
    (s.logItem k x).beside j n b = s.beside j n b := by
  unfold State.logItem
  extract_lets c dbg t
  have logged : t.beside j n b = s.beside j n b := s.beside_setCoreAt k _ j n b (by rfl)
  split
  · exact (State.beside_of_held (State.held_writeBy _ _ _ _) j n b).trans logged
  · exact logged
theorem State.beside_logWake (s : State) (a : Agent) (j n : Nat) (b : Agent) :
    (s.logWake a).beside j n b = s.beside j n b := by
  unfold State.logWake
  split
  · split
    · exact s.beside_logItem _ _ j n b
    · rfl
  · rfl

section
variable (s : State) (n : Nat) (status : Word)

theorem State.barrier_wakeAt (a : Agent) (j m : Nat) : ((s.wakeAt n status a).coreAt j).barrier m = (s.coreAt j).barrier m := by
  unfold State.wakeAt
  dsimp only
  split
  · split
    · exact congrArg Prod.fst (State.beside_logWake _ a j m a)
    · rfl
  · rfl
theorem State.ctxOf_wakeAt (a b : Agent) :
    (s.wakeAt n status a).ctxOf b = if agentKey b = agentKey a then (s.ctxOf b).woken n status else s.ctxOf b := by
  have same (h : agentKey b = agentKey a) : s.ctxOf b = s.ctxOf a := by unfold State.ctxOf; rw [h]
  unfold State.wakeAt Ctx.woken
  dsimp only
  by_cases key : agentKey b = agentKey a
  · rw [if_pos key, same key]
    split
    · split
      · refine (congrArg Prod.snd (State.beside_logWake _ a 0 0 b)).trans ?_
        exact (s.ctxOf_setCtxOf a b _).trans (if_pos key)
      · exact same key
    · exact same key
  · rw [if_neg key]
    split
    · split
      · refine (congrArg Prod.snd (State.beside_logWake _ a 0 0 b)).trans ?_
        exact (s.ctxOf_setCtxOf a b _).trans (if_neg key)
      · rfl
    · rfl

theorem State.barrier_foldl_wakeAt (xs : List Agent) (j m : Nat) :
    ((xs.foldl (State.wakeAt n status) s).coreAt j).barrier m = (s.coreAt j).barrier m :=
  foldl_keeps (fun s : State => (s.coreAt j).barrier m) _ (fun s a => s.barrier_wakeAt n status a j m) xs s
/-- Who has been woken stays as it is. -/
theorem State.ctxOf_foldl_wakeAt_of_woken {xs : List Agent} {b : Agent} (woken : (s.ctxOf b).woken n status = s.ctxOf b) :
    (xs.foldl (State.wakeAt n status) s).ctxOf b = s.ctxOf b := by
  induction xs generalizing s with
  | nil => rfl
  | cons a rest ih =>
    have kept : (s.wakeAt n status a).ctxOf b = s.ctxOf b := by rw [State.ctxOf_wakeAt, woken, ite_self]
    rw [List.foldl_cons, ih _ (by rw [kept, woken]), kept]
theorem State.ctxOf_foldl_wakeAt {xs : List Agent} {b : Agent} (mem : b ∈ xs) :
    (xs.foldl (State.wakeAt n status) s).ctxOf b = (s.ctxOf b).woken n status := by
  induction xs generalizing s with
  | nil => cases mem
  | cons a rest ih =>
    rw [List.foldl_cons]
    rcases List.mem_cons.1 mem with rfl | later
    · have first : (s.wakeAt n status b).ctxOf b = (s.ctxOf b).woken n status := by rw [State.ctxOf_wakeAt, if_pos rfl]
      rw [State.ctxOf_foldl_wakeAt_of_woken _ _ _ (by rw [first, Ctx.woken_woken]), first]
    · rw [ih _ later, State.ctxOf_wakeAt]
      split
      · rw [Ctx.woken_woken]
      · rfl

theorem State.beside_foldl_wakeParked (core : Nat) (ps : List Parked) (j m : Nat) (b : Agent) (low : agentKey b < 2 ^ 23) :
    (ps.foldl (State.wakeParked core status) s).beside j m b = s.beside j m b := by
  refine foldl_keeps (State.beside · j m b) _ (fun s p => ?_) ps s
  have other : agentKey b ≠ agentKey (p.agent core) := by
    have : 2 ^ 23 ≤ agentKey (p.agent core) := by simp only [Parked.agent, agentKey]; omega
    omega
  exact (State.beside_makeReady _ core j m other).trans (s.beside_writeImageG core j m other status)

/-- Waking the waiters of a slot changes no slot. -/
theorem State.barrier_wakeBarrier (core j m : Nat) :
    ((s.wakeBarrier core n status).coreAt j).barrier m = (s.coreAt j).barrier m := by
  obtain ⟨ps, h⟩ := s.wakeBarrier_eq core n status
  rw [h]
  have parked := State.beside_foldl_wakeParked ((slotAgents core).foldl (State.wakeAt n status) s) status core ps j m (.ctx 0 0)
    (by decide)
  exact (congrArg Prod.fst parked).trans (s.barrier_foldl_wakeAt n status _ j m)
/-- Every agent of the slot that waits there is woken. -/
theorem State.ctxOf_wakeBarrier {core : Nat} {a : Agent} (mem : a ∈ slotAgents core) (low : agentKey a < 2 ^ 23) :
    (s.wakeBarrier core n status).ctxOf a = (s.ctxOf a).woken n status := by
  obtain ⟨ps, h⟩ := s.wakeBarrier_eq core n status
  rw [h]
  have parked := State.beside_foldl_wakeParked ((slotAgents core).foldl (State.wakeAt n status) s) status core ps 0 0 a low
  exact (congrArg Prod.snd parked).trans (s.ctxOf_foldl_wakeAt n status mem)

end

/-! ### Arrivals -/

theorem Core.barrier_setBarrier (c : Core) (n : Nat) (b : Barrier) : (c.setBarrier n b).barrier n = b := Sparse.get_put_self _ _ _ _
theorem Barrier.status_eq (b : Barrier) : b.status = (b.code.setWidth 64 <<< 8) ||| b.gen.setWidth 64 := by
  unfold Barrier.status
  ext i hi
  simp only [BitVec.getElem_append, BitVec.getElem_or, BitVec.getElem_shiftLeft, BitVec.getElem_setWidth]
  by_cases low : i < 8
  · simp [low]
  · by_cases mid : i - 8 < 8
    · simp [low, mid, BitVec.getLsbD_of_ge b.gen i (by omega)]
    · simp [low, mid, BitVec.getLsbD_of_ge b.gen i (by omega), BitVec.getLsbD_of_ge b.code (i - 8) (by omega)]

/-- A slot that completes with a code (R135). -/
def Barrier.completed (b : Barrier) (code : BitVec 8) : Barrier := { b with code := code, gen := b.gen + 1, cnt := 0 }

section
variable (s : State) (core n : Nat)

theorem State.barrier_completeBarrier (code : BitVec 8) :
    ((s.completeBarrier core n code).coreAt core).barrier n = ((s.coreAt core).barrier n).completed code := by
  unfold State.completeBarrier
  rw [State.barrier_wakeBarrier, State.coreAt_setCoreAt_self, Core.barrier_setBarrier]
  rfl
theorem State.ctxOf_completeBarrier (code : BitVec 8) {a : Agent} (mem : a ∈ slotAgents core) (low : agentKey a < 2 ^ 23) :
    (s.completeBarrier core n code).ctxOf a = (s.ctxOf a).woken n (((s.coreAt core).barrier n).completed code).status :=
  State.ctxOf_wakeBarrier _ n _ mem low

variable {s core n} {k : Nat}

/-- What an arrival makes of a slot below its count, at it and past it (R135). -/
theorem State.arrive_eq : s.arrive core n k =
    if ((s.coreAt core).barrier n).cnt.toNat + k = ((s.coreAt core).barrier n).exp.toNat ∧ ((s.coreAt core).barrier n).exp ≠ 0 then
      s.completeBarrier core n 0
    else if ((s.coreAt core).barrier n).exp.toNat < ((s.coreAt core).barrier n).cnt.toNat + k ∨ ((s.coreAt core).barrier n).exp = 0 then
      s.completeBarrier core n 0x02
    else s.setCoreAt core ((s.coreAt core).setBarrier n
      { (s.coreAt core).barrier n with cnt := BitVec.ofNat 24 (((s.coreAt core).barrier n).cnt.toNat + k) }) := by
  unfold State.arrive
  simp only [Bool.and_eq_true, Bool.or_eq_true, decide_eq_true_eq, BitVec.ofNat_add, BitVec.ofNat_toNat, BitVec.setWidth_eq,
    eq_comm (a := BitVec.toNat _)]

theorem State.arrive_below (below : ((s.coreAt core).barrier n).cnt.toNat + k < ((s.coreAt core).barrier n).exp.toNat) :
    s.arrive core n k = s.setCoreAt core ((s.coreAt core).setBarrier n
      { (s.coreAt core).barrier n with cnt := BitVec.ofNat 24 (((s.coreAt core).barrier n).cnt.toNat + k) }) := by
  rw [State.arrive_eq, if_neg (fun h => by omega), if_neg]
  rintro (past | zero)
  · omega
  · exact absurd (zero ▸ below) (Nat.not_lt_zero _)
theorem State.arrive_reaches (reaches : ((s.coreAt core).barrier n).exp.toNat ≤ ((s.coreAt core).barrier n).cnt.toNat + k) :
    s.arrive core n k = s.completeBarrier core n (if ((s.coreAt core).barrier n).cnt.toNat + k =
      ((s.coreAt core).barrier n).exp.toNat ∧ ((s.coreAt core).barrier n).exp ≠ 0 then 0 else 0x02) := by
  rw [State.arrive_eq]
  split
  · rfl
  · next other =>
    refine if_pos ?_
    by_contra neither
    rw [not_or] at neither
    exact other ⟨by omega, neither.2⟩

end

/-! ### The instructions -/

/-- The number of the slot that a barrier instruction names (R134). -/
def State.slotNo (s : State) (f : QFields) : Nat := (s.g f.x).toNat + (f.imm.extractLsb' 0 8).toNat

section
variable {s u : State} {f : QFields}

theorem barrierSlot_ok (small : s.slotNo f < 256) : barrierSlot f s = .ok (s.slotNo f) s := by
  unfold barrierSlot
  rw [M.get_bind, M.needOpen_bind]
  exact if_pos (decide_eq_true small)
theorem barrierSlot_traps (large : 256 ≤ s.slotNo f) : barrierSlot f s = .error (.trap 0x02 s.openEval .none) s := by
  unfold barrierSlot
  rw [M.get_bind, M.needOpen_bind]
  exact if_neg (by simpa [State.slotNo] using large)
/-- A barrier instruction whose slot does not exist traps (R134). -/
theorem State.Runs.no_slot {i : Instr} {rest : Nat → M (Option Word)} (runs : s.Runs i (barrierSlot f >>= rest))
    (large : 256 ≤ s.slotNo f) : s.traps i 0x02 s.openEval := runs.traps (M.bind_error (barrierSlot_traps large))

theorem binit_leaves (wf : (Instr.binit f).wf = true) (small : s.slotNo f < 256) :
    let t := if (s.core.barrier (s.slotNo f)).cnt ≠ 0 ∨ s.slotWaited s.coreNo (s.slotNo f) = true then
      s.completeBarrier s.coreNo (s.slotNo f) 0x02 else s
    s.leaves (.binit f) ((t.setCore (t.core.setBarrier (s.slotNo f)
      { t.core.barrier (s.slotNo f) with exp := BitVec.ofNat 24 (arrivals f), cnt := 0 })).setG f.d
        ((t.core.barrier (s.slotNo f)).gen.setWidth 64)) := by
  intro t
  have first : (if (s.slotNow (s.slotNo f)).cnt ≠ 0 || s.slotWaited s.coreNo (s.slotNo f) then
      s.completeBarrier s.coreNo (s.slotNo f) 0x02 else s) = t :=
    if_congr ((Bool.or_eq_true_iff).trans (or_congr_left decide_eq_true_iff)) rfl rfl
  refine State.Runs.leaves ⟨rfl, State.accepts_formatQ (encode_binit f) wf⟩ ?_
  rw [M.bind_ok (barrierSlot_ok small), M.step1_eq]
  dsimp only
  rw [first]
  rfl

theorem barrive_leaves (wf : (Instr.barrive f).wf = true) (small : s.slotNo f < 256)
    (released : (f.ob = false ∧ u = s) ∨ (f.ob = true ∧ s.releases 0 u)) :
    s.leaves (.barrive f) ((u.setG f.d ((u.core.barrier (s.slotNo f)).gen.setWidth 64)).arrive u.coreNo (s.slotNo f) (arrivals f)) := by
  refine State.Runs.leaves ⟨rfl, State.accepts_formatQ (encode_barrive f) wf⟩ ?_
  rw [M.bind_ok (barrierSlot_ok small)]
  rcases released with ⟨plain, rfl⟩ | ⟨ordered, passed⟩
  · dsimp only
    rw [if_neg (by simp [plain])]
    rfl
  · dsimp only
    rw [if_pos ordered, M.bind_ok (release_of_releases passed)]
    rfl

theorem bwait_leaves (wf : (Instr.bwait f).wf = true) (small : s.slotNo f < 256) :
    s.leaves (.bwait f) (if (s.core.barrier (s.slotNo f)).gen ≠ (s.g f.d).setWidth 8 then
      s.setG f.d (s.core.barrier (s.slotNo f)).status
      else s.suspend .barrier (BitVec.ofNat 64 (256 * ((s.g f.d).setWidth 8).toNat + s.slotNo f)) 0 f.d none) := by
  refine State.Runs.leaves ⟨rfl, State.accepts_formatQ (encode_bwait f) wf⟩ ?_
  rw [M.bind_ok (barrierSlot_ok small)]
  rfl
theorem bwait_reads (wf : (Instr.bwait f).wf = true) (small : s.slotNo f < 256)
    (moved : (s.core.barrier (s.slotNo f)).gen ≠ (s.g f.d).setWidth 8) :
    s.leaves (.bwait f) (s.setG f.d (s.core.barrier (s.slotNo f)).status) := by
  have done := bwait_leaves wf small
  rwa [if_pos moved] at done
theorem bwait_waits (wf : (Instr.bwait f).wf = true) (small : s.slotNo f < 256)
    (same : (s.core.barrier (s.slotNo f)).gen = (s.g f.d).setWidth 8) :
    s.leaves (.bwait f) (s.suspend .barrier (BitVec.ofNat 64 (256 * (s.core.barrier (s.slotNo f)).gen.toNat + s.slotNo f)) 0 f.d
      none) := by
  have waits := bwait_leaves wf small
  rwa [if_neg (not_not.2 same), ← same] at waits

theorem barwait_leaves (wf : (Instr.barwait f).wf = true) (small : s.slotNo f < 256) (passed : s.releases 0 u) :
    let g := (u.core.barrier (s.slotNo f)).gen
    let v := u.arrive u.coreNo (s.slotNo f) 1
    s.leaves (.barwait f) (if (v.core.barrier (s.slotNo f)).gen ≠ g then v.setG f.d (v.core.barrier (s.slotNo f)).status
      else v.suspend .barrier (BitVec.ofNat 64 (256 * g.toNat + s.slotNo f)) 0 f.d none) := by
  refine State.Runs.leaves ⟨rfl, State.accepts_formatQ (encode_barwait f) wf⟩ ?_
  rw [M.bind_ok (barrierSlot_ok small), M.bind_ok (release_of_releases passed)]
  rfl

end

/-! ### The obligation -/

/-- The agents of a core are those that reach its slots (R134). -/
theorem slotAgents_of_core {core : Nat} (here : core < 1536) :
    slotAgents core = [.ctx core 0, .ctx core 1, .ctx core 2, .ctx core 3, .copy core, .epi core] := if_pos here
theorem agentKey_slotAgents {core : Nat} (here : core < 1536) {a : Agent} (mem : a ∈ slotAgents core) : agentKey a < 2 ^ 23 := by
  rw [slotAgents_of_core here] at mem
  simp only [List.mem_cons, List.not_mem_nil, or_false] at mem
  rcases mem with rfl | rfl | rfl | rfl | rfl | rfl <;> simp only [agentKey] <;> omega

/-- Settles O28: each instruction by its body; a completion wakes who waits and changes no slot but its own. -/
theorem barrierResults : Obligations.BarrierResults := by
  unfold Obligations.BarrierResults
  refine ⟨fun s f => ?_, fun s core n k => ?_⟩
  · intro n k b status
    refine ⟨?_, fun small => ⟨fun wf => binit_leaves wf small, fun u wf released => barrive_leaves wf small released,
      fun wf => ⟨fun moved => ?_, fun same => bwait_waits wf small same⟩, fun u wf passed => barwait_leaves wf small passed⟩⟩
    · intro i mem wf large
      simp only [List.mem_cons, List.not_mem_nil, or_false] at mem
      rcases mem with rfl | rfl | rfl | rfl
      · exact State.Runs.no_slot ⟨rfl, State.accepts_formatQ (encode_binit f) wf⟩ large
      · exact State.Runs.no_slot ⟨rfl, State.accepts_formatQ (encode_barrive f) wf⟩ large
      · exact State.Runs.no_slot ⟨rfl, State.accepts_formatQ (encode_bwait f) wf⟩ large
      · exact State.Runs.no_slot ⟨rfl, State.accepts_formatQ (encode_barwait f) wf⟩ large
    · have done := bwait_reads wf small moved
      rwa [Barrier.status_eq] at done
  · intro b total t b'
    refine ⟨fun below => ?_, fun reaches => ⟨?_, fun a mem here w susp reason key => ?_⟩⟩
    · have left : t = _ := State.arrive_below below
      refine ⟨?_, by rw [left]; rfl, by rw [left]; rfl⟩
      show (t.coreAt core).barrier n = _
      rw [left, State.coreAt_setCoreAt_self, Core.barrier_setBarrier]
    · show (t.coreAt core).barrier n = _
      rw [show t = _ from State.arrive_reaches reaches, State.barrier_completeBarrier]
      rfl
    · have at_ : (s.ctxOf a).atBarrier n = true := Ctx.atBarrier_iff.2 ⟨w, susp, reason, key⟩
      rw [← slotAgents_of_core here] at mem
      have slot : b' = b.completed (if total = b.exp.toNat ∧ b.exp ≠ 0 then 0 else 0x02) := by
        show (t.coreAt core).barrier n = _
        rw [show t = _ from State.arrive_reaches reaches, State.barrier_completeBarrier]
      have woken : t.ctxOf a = (s.ctxOf a).woken n b'.status := by
        rw [slot, show t = _ from State.arrive_reaches reaches, State.ctxOf_completeBarrier s core n _ mem (agentKey_slotAgents here mem)]
      rw [woken, ← Barrier.status_eq]
      exact ⟨Ctx.susp_woken susp at_, fun dst => Ctx.g_woken susp at_ dst⟩

end Sys2Proof.Machine
end

section
/-! The atomics: the value the home takes, the value that returns, and what is left alone (R114, R123, R124, R285, R288). -/

namespace Sys2Proof.Machine
set_option Elab.async false

/-! ### What a home performs -/

theorem leBytes_getD {n j : Nat} (hj : j < n) (v : Nat) : (leBytes n v).getD j 0 = BitVec.ofNat 8 (v / 256 ^ j) := by
  induction n generalizing j v with
  | zero => cases hj
  | succ n ih =>
    cases j with
    | zero => rw [leBytes, List.getD_cons_zero, pow_zero, Nat.div_one]
    | succ j =>
      rw [leBytes, List.getD_cons_succ, ih (Nat.lt_of_succ_lt_succ hj), Nat.div_div_eq_div_mul, pow_succ, Nat.mul_comm]

theorem State.byteAt_written (s : State) (agent : Agent) (run a : Nat) (b : Bool) (x : Nat) :
    (s.written agent run a b).byteAt x = s.byteAt x := s.byteAt_touch a x (writerOf agent run) b

/-- No cell of a block queue lies at the place, where TAKE has a rule of its own (R289). -/
def noTake (pa : Nat) : Prop := ∀ k, blockQueueCell pa ≠ some (k, 40)

/-- The value that a location takes from an atomic of 32 or of 64 bits (R124). -/
def atomicValue (fn5 : BitVec 5) (wide : Bool) (old x cmp : Word) : Word :=
  if wide then atomicNew fn5 old x cmp else (atomicNew fn5 (old.setWidth 32) (x.setWidth 32) (cmp.setWidth 32)).setWidth 64

section
variable (s : State) (agent : Agent) (run pa : Nat) (fn5 : BitVec 5) (wide : Bool) (x cmp : Word)

theorem State.atomicResult_of_noTake (plain : noTake pa) :
    s.atomicResult pa fn5 wide x cmp = (s.atomicOld pa wide, atomicValue fn5 wide (s.atomicOld pa wide) x cmp) := by
  unfold State.atomicResult
  dsimp only
  split
  · next k take => exact absurd take (plain k)
  · rfl

/-- The bytes of the location take the new value, and no other byte changes (R123). -/
theorem State.byteAt_performAtomic (y : Nat) : (s.performAtomic agent run pa fn5 wide x cmp).2.byteAt y =
    if pa ≤ y ∧ y < pa + (if wide then 8 else 4) then
      BitVec.ofNat 8 ((s.atomicResult pa fn5 wide x cmp).2.toNat / 256 ^ (y - pa)) else s.byteAt y := by
  refine (State.byteAt_written _ _ _ _ _ _).trans ((State.byteAt_clearTags _ _ _ _).trans ((State.byteAt_setBytes _ _ _ _).trans ?_))
  rw [length_leBytes]
  generalize (if wide = true then 8 else 4) = n
  by_cases here : pa ≤ y ∧ y < pa + n
  · rw [if_pos here, if_pos here, leBytes_getD (by omega)]
  · rw [if_neg here, if_neg here]

theorem State.fixed_atomicReady (h : State) (a : Agent) (n : Nat) : (h.atomicReady a pa n).fixed = h.fixed :=
  (State.fixed_deliverWhere _ _ _).trans (h.fixed_settle a pa n)

end

/-! ### An atomic with a result, and one without -/

theorem State.ctx_of_held {s t : State} (cur : t.cur = s.cur) (held : t.held = s.held) : t.ctx = s.ctx := by
  rw [State.ctx, State.ctx, State.ctxOf, State.ctxOf, cur, (State.held_eq_iff.1 held).1]

/-- A store or an atomic without a result finds its place (R142). -/
theorem storeTo_place {u : State} {a pa : Nat} {acc : Access} {rpl : Bool} {e : Option TlbEntry}
    (present : u.xlate u.cur a acc = .ok pa rpl e) : storeTo a acc u = .ok (.place pa rpl) (u.reach a e) := by
  unfold storeTo
  rw [M.get_bind, present]
  rfl
/-- With translation the way to a read or an atomic is checked. -/
theorem xl_of_present {u : State} {a pa : Nat} {acc : Access} {rpl : Bool} {e : Option TlbEntry}
    (present : u.xlate u.cur a acc = .ok pa rpl e) (reads : acc ≠ .write) :
    xl a acc u = (pathOk a pa acc.wants >>= fun _ => pure (pa, rpl)) ((u.reach a e).noteRead pa) := by
  unfold xl
  rw [M.get_bind, present]
  dsimp only
  rw [M.set_bind, if_pos reads]

section
variable {h : State} {va pa : Nat} {fn5 : BitVec 5} {wide : Bool} {x cmp : Word}

theorem atomicAt_poisoned (poisoned : (h.atomicReady h.cur pa (if wide then 8 else 4)).poisonAt pa = true) :
    atomicAt va pa fn5 wide x cmp h =
      .error (.trap 0x22 (BitVec.ofNat 64 va) .none) (h.atomicReady h.cur pa (if wide then 8 else 4)) := by
  unfold atomicAt
  rw [M.get_bind]
  dsimp only
  rw [M.modify_bind, M.get_bind, if_pos poisoned]
  rfl
theorem atomicAt_done (clean : (h.atomicReady h.cur pa (if wide then 8 else 4)).poisonAt pa = false) :
    let w := h.atomicReady h.cur pa (if wide then 8 else 4)
    let r := w.performAtomic h.cur (w.runOf h.cur) pa fn5 wide x cmp
    atomicAt va pa fn5 wide x cmp h = .ok r.1 r.2 := by
  unfold atomicAt
  rw [M.get_bind]
  dsimp only
  rw [M.modify_bind, M.get_bind, if_neg (by simp [clean])]
  rfl

/-- The request that enters the FIFO toward a home (R142). -/
def State.requestPiece (w : State) (op : PressOp) (va pa n : Nat) : Piece :=
  { agent := w.cur, op := op, line := pa / 64 * 64, va := BitVec.ofNat 48 va, data := 0,
    mask := (lineBits (pa % 64) (List.replicate n 0)).2, tags := 0, poison := 0, replicated := false, nonAlloc := false,
    run := w.runOf w.cur, pc := w.pc.setWidth 48, ord := 0 }
/-- A request enters the FIFO toward its home and crosses the links (R142, R167). -/
def State.requested (w : State) (p : Piece) : State := (w.setQueues w.press.queues (w.press.fifo ++ [p])).route p

theorem State.requested_shape (w : State) (p : Piece) :
    ∃ L, w.requested p = { w with press := { w.press with fifo := w.press.fifo ++ [p] }, links := L } := by
  obtain ⟨L, sent⟩ := (w.setQueues w.press.queues (w.press.fifo ++ [p])).sendItems_shape (agentDie p.agent)
    (routeDie (agentDie p.agent) p.line) _
  exact ⟨L, sent⟩
/-- A request changes neither memory nor the issuing agent's registers. -/
theorem State.requested_frame (w : State) (p : Piece) : (w.requested p).press.fifo = w.press.fifo ++ [p] ∧
    (w.requested p).mem = w.mem ∧ (w.requested p).ctx = w.ctx := by
  obtain ⟨L, shape⟩ := w.requested_shape p
  rw [shape]
  exact ⟨rfl, rfl, rfl⟩

variable {op : PressOp} {n : Nat}

theorem atomicSend_held (held : h.pathHeld h.cur pa = true) : atomicSend op va pa n h = .error .stall h := by
  unfold atomicSend
  rw [M.get_bind]
  dsimp only
  rw [M.get_bind, if_pos held]
  rfl
theorem atomicSend_poisoned (open_ : h.pathHeld h.cur pa = false) (poisoned : (h.settle h.cur pa n).poisonAt pa = true) :
    atomicSend op va pa n h = .error (.trap 0x22 (BitVec.ofNat 64 va) .none) (h.settle h.cur pa n) := by
  unfold atomicSend
  rw [M.get_bind]
  dsimp only
  rw [M.get_bind, if_neg (by simp [open_]), M.modify_bind, M.get_bind, if_pos poisoned]
  rfl
theorem atomicSend_done (open_ : h.pathHeld h.cur pa = false) (clean : (h.settle h.cur pa n).poisonAt pa = false) :
    let w := h.settle h.cur pa n
    atomicSend op va pa n h = .ok () (w.requested (w.requestPiece op va pa n)) := by
  intro w
  unfold atomicSend
  rw [M.get_bind]
  dsimp only
  rw [M.get_bind, if_neg (by simp [open_]), M.modify_bind, M.get_bind, if_neg (by simp [clean])]
  unfold State.requestPiece
  rw [show w.cur = h.cur from h.cur_settle h.cur pa n]
  rfl

end

/-! ### The instructions -/

/-- `i` is the atomic with function `fn5` and operands `f` (R124). -/
structure Atomic (i : Instr) (f : MFields) (fn5 : BitVec 5) : Prop where
  run : ∀ s, exec i s = runInstr i (atomicOp f fn5) s
  words : encode i = Enc.m fn5 2 f
  size : i.wf = true → f.ty = 4 ∨ f.ty = 6

/-- The bytes of an atomic's location. -/
def atomicSize (f : MFields) : Nat := if (f.ty == 6) = true then 8 else 4

section
variable {s u : State} {i : Instr} {f : MFields} {fn5 : BitVec 5} {a pa : Nat} {e : Option TlbEntry} {rpl : Bool}
  (kind : Atomic i f fn5) (wf : i.wf = true)
  (passed : accCheck (s.c f.c) .A (scalarAccepts (s.c f.c).fmt.toNat f.ty.toNat true) (atomicSize f) (s.index0 f) 0 s = .ok a u)
include kind wf

theorem Atomic.runs : s.Runs i (atomicOp f fn5) := ⟨kind.run s, State.accepts_formatM kind.words (.inl rfl) wf⟩
theorem Atomic.scalarSize_eq : scalarSize f.ty.toNat = atomicSize f := by
  rcases kind.size wf with h | h <;> rw [atomicSize, h] <;> rfl

include passed

/-- Past its check an atomic refuses a host-scope capability, then is sent or performed. -/
theorem Atomic.begins : atomicOp f fn5 s = (need ((s.c f.c).scope ≠ 2) 0x0D (BitVec.ofNat 64 a) >>= fun _ =>
    if f.t = 0 then atomicStore f fn5 (s.c f.c) a (s.g f.y) 0 else atomicResult f fn5 a (s.g f.y) (s.g f.t)) u := by
  rw [← kind.scalarSize_eq wf] at passed
  exact M.bind_ok passed

theorem Atomic.host_traps (host : (s.c f.c).scope = 2) : s.traps i 0x0D (BitVec.ofNat 64 a) := by
  refine (kind.runs wf).traps (t := u) ?_
  rw [kind.begins wf passed, M.bind_error (M.need_bad (by simp [host]))]

variable (device : (s.c f.c).scope ≠ 2) (present : u.xlate u.cur a .atomic = .ok pa rpl e)
include device present

section
variable (result : f.t ≠ 0)
include result

/-- An atomic with a result is performed at its home once the way is open (R123). -/
theorem Atomic.performs : atomicOp f fn5 s = (pathOk a pa .both >>= fun _ =>
    atomicAt a pa fn5 (f.ty == 6) (s.g f.y) (s.g f.t) >>= fun old =>
      step1 (fun t => t.setG f.t (extendOld fn5 (f.ty == 6) old))) ((u.reach a e).noteRead pa) := by
  rw [kind.begins wf passed, M.bind_ok (M.need_ok (by simpa using device)), if_neg result]
  unfold atomicResult
  rw [M.bind_eq, xl_of_present present (by decide)]
  simp only [Access.wants]
  rw [M.bind_eq, M.bind_eq]
  cases pathOk a pa .both ((u.reach a e).noteRead pa) <;> rfl

variable {h w : State} (reached : h = (u.reach a e).noteRead pa)
include reached

theorem Atomic.stalls (held : h.pathHeld h.cur pa = true) : exec i s = .next s := by
  subst reached
  refine (kind.runs wf).stops (stop := .stall) (t := (u.reach a e).noteRead pa) ?_
  rw [kind.performs wf passed device present result, M.bind_error (pathOk_held held)]

variable (open_ : h.pathHeld h.cur pa = false)
include open_

theorem Atomic.refused (refused : h.refused h.cur (h.runOf h.cur) pa .both = true) :
    exec i s = .next (s.securityEvent.takeTrap 0x12 (BitVec.ofNat 64 a) 0) := by
  subst reached
  refine (kind.runs wf).stops (stop := .trap 0x12 (BitVec.ofNat 64 a) .securityEvent) (t := (u.reach a e).noteRead pa) ?_
  rw [kind.performs wf passed device present result, M.bind_error (pathOk_refused open_ refused)]

variable (allowed : h.refused h.cur (h.runOf h.cur) pa .both = false) (ready : w = h.atomicReady h.cur pa (atomicSize f))
include allowed ready

theorem Atomic.poisoned (poisoned : w.poisonAt pa = true) : s.traps i 0x22 (BitVec.ofNat 64 a) := by
  subst ready reached
  exact (kind.runs wf).traps ((kind.performs wf passed device present result).trans
    ((M.bind_ok (pathOk_ok open_ allowed)).trans (M.bind_error (atomicAt_poisoned poisoned))))
theorem Atomic.leaves (clean : w.poisonAt pa = false) :
    s.leaves i ((w.performAtomic w.cur (w.runOf w.cur) pa fn5 (f.ty == 6) (s.g f.y) (s.g f.t)).2.setG f.t
      (extendOld fn5 (f.ty == 6) (w.performAtomic w.cur (w.runOf w.cur) pa fn5 (f.ty == 6) (s.g f.y) (s.g f.t)).1)) := by
  have cur : w.cur = h.cur := by rw [ready]; exact State.cur_of_fixed (State.fixed_atomicReady pa h h.cur _)
  rw [cur]
  subst ready reached
  refine (kind.runs wf).leaves ?_
  rw [kind.performs wf passed device present result, M.bind_ok (pathOk_ok open_ allowed), M.bind_ok (atomicAt_done clean)]
  rfl

end

section
variable (plain : f.t = 0)
include plain

/-- An atomic without a result is sent (R123, R142). -/
theorem Atomic.sends : atomicOp f fn5 s = (atomicSend (.atomic fn5 (f.ty == 6) (s.g f.y) 0 none) a pa (atomicSize f) >>= fun _ =>
    pure none) (u.reach a e) := by
  rw [kind.begins wf passed, M.bind_ok (M.need_ok (by simpa using device)), if_pos plain]
  unfold atomicStore
  dsimp only
  rw [M.bind_ok (storeTo_place present)]
  rfl

variable {h w : State} (reached : h = u.reach a e)
include reached

theorem Atomic.send_stalls (held : h.pathHeld h.cur pa = true) : exec i s = .next s := by
  subst reached
  refine (kind.runs wf).stops (stop := .stall) (t := u.reach a e) ?_
  rw [kind.sends wf passed device present plain, M.bind_error (atomicSend_held held)]

variable (open_ : h.pathHeld h.cur pa = false) (settled : w = h.settle h.cur pa (atomicSize f))
include open_ settled

theorem Atomic.send_poisoned (poisoned : w.poisonAt pa = true) : s.traps i 0x22 (BitVec.ofNat 64 a) := by
  subst settled reached
  exact (kind.runs wf).traps ((kind.sends wf passed device present plain).trans (M.bind_error (atomicSend_poisoned open_ poisoned)))
theorem Atomic.send_leaves (clean : w.poisonAt pa = false) :
    s.leaves i (w.requested (w.requestPiece (.atomic fn5 (f.ty == 6) (s.g f.y) 0 none) a pa (atomicSize f))) := by
  subst settled reached
  refine (kind.runs wf).leaves ?_
  rw [kind.sends wf passed device present plain, M.bind_ok (atomicSend_done open_ clean)]
  rfl

end

end

/-! ### The table -/

theorem leNat_lt (bs : List Byte) : leNat bs < 256 ^ bs.length := by
  induction bs with
  | nil => decide
  | cons b rest ih =>
    have := b.isLt
    rw [leNat, List.length_cons, pow_succ]
    omega
/-- Unsigned and float results of 32 bits are zero-extended: the four bytes as they are (R124). -/
theorem zeroExtend_atomicOld (w : State) (pa : Nat) :
    ((w.atomicOld pa false).setWidth 32).setWidth 64 = w.atomicOld pa false := by
  have small : leNat (w.bytesAt pa 4) < 2 ^ 32 := by
    refine (leNat_lt _).trans_eq ?_
    rw [State.bytesAt, List.length_map, List.length_range]
    rfl
  refine BitVec.eq_of_toNat_eq ?_
  simp only [State.atomicOld, BitVec.toNat_setWidth, BitVec.toNat_ofNat]
  simp only [Bool.false_eq_true, if_false]
  omega

/-- A row of the table: an instruction with the values it makes of old value, operand and comparand, of 64 and of 32 bits. -/
abbrev AtomicRow := Instr × (Word → Word → Word → Word) × (BitVec 32 → BitVec 32 → BitVec 32 → BitVec 32)

/-- The row is what the home does for function `fn5`. -/
structure AtomicRow.Is (r : AtomicRow) (f : MFields) (fn5 : BitVec 5) : Prop where
  kind : Atomic r.1 f fn5
  wide : ∀ old x cmp, r.1.wf = true → f.ty = 6 → atomicNew fn5 old x cmp = r.2.1 old x cmp
  narrow : ∀ old x cmp, atomicNew fn5 old x cmp = r.2.2 old x cmp
  unsigned : (fn5 = 6 ∨ fn5 = 7 ∨ fn5 = 10) ↔ (r.1 = .aminu f ∨ r.1 = .amaxu f ∨ r.1 = .afadd f)

section
variable {r : AtomicRow} {f : MFields} {fn5 : BitVec 5} (row : r.Is f fn5)
include row

theorem AtomicRow.Is.value (wf : r.1.wf = true) (old x cmp : Word) : atomicValue fn5 (f.ty == 6) old x cmp =
    if (f.ty == 6) = true then r.2.1 old x cmp else (r.2.2 (old.setWidth 32) (x.setWidth 32) (cmp.setWidth 32)).setWidth 64 := by
  unfold atomicValue
  split
  · next six => exact row.wide old x cmp wf (eq_of_beq six)
  · rw [row.narrow]
theorem AtomicRow.Is.result (w : State) (pa : Nat) : extendOld fn5 (f.ty == 6) (w.atomicOld pa (f.ty == 6)) =
    if (f.ty == 6) = true then w.atomicOld pa (f.ty == 6) else if r.1 = .aminu f ∨ r.1 = .amaxu f ∨ r.1 = .afadd f then
      w.atomicOld pa (f.ty == 6) else ((w.atomicOld pa (f.ty == 6)).setWidth 32).signExtend 64 := by
  unfold extendOld
  cases six : f.ty == 6 with
  | true => rfl
  | false =>
    rw [if_neg Bool.false_ne_true, if_neg Bool.false_ne_true, zeroExtend_atomicOld]
    refine if_congr (Iff.trans ?_ row.unsigned) rfl rfl
    simp only [Bool.or_eq_true, decide_eq_true_eq, or_assoc]

end

theorem toInt_slt_iff {n : Nat} (x y : BitVec n) : BitVec.slt x y = true ↔ x.toInt < y.toInt := decide_eq_true_iff
theorem toNat_ult_iff {n : Nat} (x y : BitVec n) : BitVec.ult x y = true ↔ x.toNat < y.toNat := decide_eq_true_iff

/-- The eleven rows of the table (R124). -/
def atomicRows (f : MFields) : List AtomicRow :=
  [(.aadd f, fun o v _ => o + v, fun o v _ => o + v), (.aand f, fun o v _ => o &&& v, fun o v _ => o &&& v),
    (.aor f, fun o v _ => o ||| v, fun o v _ => o ||| v), (.axor f, fun o v _ => o ^^^ v, fun o v _ => o ^^^ v),
    (.amin f, fun o v _ => if v.toInt < o.toInt then v else o, fun o v _ => if v.toInt < o.toInt then v else o),
    (.amax f, fun o v _ => if o.toInt < v.toInt then v else o, fun o v _ => if o.toInt < v.toInt then v else o),
    (.aminu f, fun o v _ => if v.toNat < o.toNat then v else o, fun o v _ => if v.toNat < o.toNat then v else o),
    (.amaxu f, fun o v _ => if o.toNat < v.toNat then v else o, fun o v _ => if o.toNat < v.toNat then v else o),
    (.aswap f, fun _ v _ => v, fun _ v _ => v), (.acas f, fun o v k => if o = k then v else o, fun o v k => if o = k then v else o),
    (.afadd f, fun o _ _ => o, fun o v _ => afaddBits o v)]

theorem size_of_atomic {f : MFields} (h : WF.atomic f = true) : f.ty = 4 ∨ f.ty = 6 := by
  simpa using (Bool.and_eq_true_iff.1 h).1
theorem size_of_afadd {f : MFields} (h : WF.afadd f = true) : f.ty = 4 := eq_of_beq (Bool.and_eq_true_iff.1 h).1

theorem atomicRows_is {f : MFields} {r : AtomicRow} (mem : r ∈ atomicRows f) : ∃ fn5, r.Is f fn5 := by
  have minimum {n : Nat} (o v : BitVec n) : (if BitVec.slt v o then v else o) = if v.toInt < o.toInt then v else o :=
    if_congr (toInt_slt_iff v o) rfl rfl
  have maximum {n : Nat} (o v : BitVec n) : (if BitVec.slt o v then v else o) = if o.toInt < v.toInt then v else o :=
    if_congr (toInt_slt_iff o v) rfl rfl
  have minimumU {n : Nat} (o v : BitVec n) : (if BitVec.ult v o then v else o) = if v.toNat < o.toNat then v else o :=
    if_congr (toNat_ult_iff v o) rfl rfl
  have maximumU {n : Nat} (o v : BitVec n) : (if BitVec.ult o v then v else o) = if o.toNat < v.toNat then v else o :=
    if_congr (toNat_ult_iff o v) rfl rfl
  have plain {i : Instr} (other : i ≠ .aminu f ∧ i ≠ .amaxu f ∧ i ≠ .afadd f) (fn5 : BitVec 5) (signed : ¬ (fn5 = 6 ∨ fn5 = 7 ∨ fn5 = 10)) :
      (fn5 = 6 ∨ fn5 = 7 ∨ fn5 = 10) ↔ (i = .aminu f ∨ i = .amaxu f ∨ i = .afadd f) :=
    iff_of_false signed (by tauto)
  simp only [atomicRows, List.mem_cons, List.not_mem_nil, or_false] at mem
  rcases mem with rfl | rfl | rfl | rfl | rfl | rfl | rfl | rfl | rfl | rfl | rfl
  · exact ⟨0, ⟨fun _ => rfl, rfl, size_of_atomic⟩, fun _ _ _ _ _ => rfl, fun _ _ _ => rfl, plain (by simp) 0 (by decide)⟩
  · exact ⟨1, ⟨fun _ => rfl, rfl, size_of_atomic⟩, fun _ _ _ _ _ => rfl, fun _ _ _ => rfl, plain (by simp) 1 (by decide)⟩
  · exact ⟨2, ⟨fun _ => rfl, rfl, size_of_atomic⟩, fun _ _ _ _ _ => rfl, fun _ _ _ => rfl, plain (by simp) 2 (by decide)⟩
  · exact ⟨3, ⟨fun _ => rfl, rfl, size_of_atomic⟩, fun _ _ _ _ _ => rfl, fun _ _ _ => rfl, plain (by simp) 3 (by decide)⟩
  · exact ⟨4, ⟨fun _ => rfl, rfl, size_of_atomic⟩, fun o v _ _ _ => minimum o v, fun o v _ => minimum o v,
      plain (by simp) 4 (by decide)⟩
  · exact ⟨5, ⟨fun _ => rfl, rfl, size_of_atomic⟩, fun o v _ _ _ => maximum o v, fun o v _ => maximum o v,
      plain (by simp) 5 (by decide)⟩
  · exact ⟨6, ⟨fun _ => rfl, rfl, size_of_atomic⟩, fun o v _ _ _ => minimumU o v, fun o v _ => minimumU o v, by simp⟩
  · exact ⟨7, ⟨fun _ => rfl, rfl, size_of_atomic⟩, fun o v _ _ _ => maximumU o v, fun o v _ => maximumU o v, by simp⟩
  · exact ⟨8, ⟨fun _ => rfl, rfl, size_of_atomic⟩, fun _ _ _ _ _ => rfl, fun _ _ _ => rfl, plain (by simp) 8 (by decide)⟩
  · exact ⟨9, ⟨fun _ => rfl, rfl, size_of_atomic⟩, fun _ _ _ _ _ => rfl, fun _ _ _ => rfl, plain (by simp) 9 (by decide)⟩
  · refine ⟨10, ⟨fun _ => rfl, rfl, fun wf => .inl (size_of_afadd wf)⟩, fun _ _ _ wf six => ?_, fun o v _ => ?_, by simp⟩
    · exact absurd (six.symm.trans (size_of_afadd wf)) (by decide)
    · show ((afaddBits (o.setWidth 32) (v.setWidth 32)).setWidth 32) = afaddBits o v
      rw [BitVec.setWidth_eq, BitVec.setWidth_eq, BitVec.setWidth_eq]

/-! ### The obligation -/

/-- What the writing of a result leaves of the registers. -/
theorem State.performed_frame (w : State) (agent : Agent) (run pa : Nat) (fn5 : BitVec 5) (wide : Bool) (x cmp : Word) (d : BitVec 5)
    (y : Word) :
    let t := (w.performAtomic agent run pa fn5 wide x cmp).2.setG d y
    (d ≠ 0 → t.g d = y) ∧ (∀ k, k ≠ d → t.g k = w.g k) ∧ t.ctx.r.c = w.ctx.r.c ∧
      ∀ z, t.byteAt z = (w.performAtomic agent run pa fn5 wide x cmp).2.byteAt z := by
  intro t
  have ctx : (w.performAtomic agent run pa fn5 wide x cmp).2.ctx = w.ctx :=
    State.ctx_of_held (State.cur_of_fixed (w.fixed_performAtomic agent run pa fn5 wide x cmp))
      (w.held_performAtomic agent run pa fn5 wide x cmp)
  refine ⟨fun some => ?_, fun k other => ?_, ?_, fun z => rfl⟩
  · rw [State.g_setG, if_pos ⟨rfl, some⟩]
  · rw [State.g_setG, if_neg (fun h => other h.1), State.g, State.g, ctx]
  · show (State.setCtx _ _).ctx.r.c = _
    rw [State.ctx_setCtx, ctx]
    unfold Ctx.setG
    split <;> rfl

/-- Settles O26: an atomic with a result is performed at its home once the way is open and what precedes it has been, one
without a result enters the FIFO; the table says which value the location takes. -/
theorem atomicResults : Obligations.AtomicResults := by
  unfold Obligations.AtomicResults
  intro s u f a pa e rpl c wide n i0 v cmp r mem wf passed
  obtain ⟨fn5, row⟩ := atomicRows_is (f := f) mem
  have kind := row.kind
  refine ⟨kind.host_traps wf passed, fun device present => ⟨fun result => ?_, fun plain => ?_⟩⟩
  · intro h w
    refine ⟨kind.stalls wf passed device present result rfl, fun open_ => kind.refused wf passed device present result rfl open_,
      fun open_ allowed => kind.poisoned wf passed device present result rfl open_ allowed rfl,
      fun open_ allowed clean noTake => ?_⟩
    intro old new
    have left := kind.leaves wf passed device present result rfl open_ allowed rfl clean
    have values := w.atomicResult_of_noTake pa fn5 wide v cmp noTake
    have bytes := w.byteAt_performAtomic w.cur (w.runOf w.cur) pa fn5 wide v cmp
    obtain ⟨written, others, caps, memory⟩ := w.performed_frame w.cur (w.runOf w.cur) pa fn5 wide v cmp f.t
      (extendOld fn5 wide (w.performAtomic w.cur (w.runOf w.cur) pa fn5 wide v cmp).1)
    refine ⟨_, left, ?_, fun j hj => ?_, fun x outside => ?_, others, caps⟩
    · refine (written result).trans ?_
      show extendOld fn5 wide (w.atomicResult pa fn5 wide v cmp).1 = _
      rw [values]
      refine (row.result w pa).trans ?_
      congr
    · refine (memory _).trans ((bytes _).trans ?_)
      rw [if_pos (by constructor; omega; exact Nat.add_lt_add_left hj pa), values, Nat.add_sub_cancel_left]
      exact congrArg (fun x : Word => BitVec.ofNat 8 (x.toNat / 256 ^ j)) (row.value wf _ _ _)
    · refine (memory _).trans ((bytes _).trans (if_neg ?_))
      rintro ⟨low, high⟩
      rcases outside with below | above
      · omega
      · exact absurd high (Nat.not_lt.2 above)
  · intro h w
    refine ⟨kind.send_stalls wf passed device present plain rfl, fun open_ => kind.send_poisoned wf passed device present plain rfl open_ rfl,
      fun open_ clean => ?_⟩
    have left := kind.send_leaves wf passed device present plain rfl open_ rfl clean
    obtain ⟨fifo, mem, ctx⟩ := w.requested_frame (w.requestPiece (.atomic fn5 wide v 0 none) a pa n)
    exact ⟨_, _, left, fifo, rfl, rfl, mem, ctx⟩

end Sys2Proof.Machine
end

section
/-! Counters and bindings (R125 to R133, R285, R288). -/

namespace Sys2Proof.Machine
set_option Elab.async false

/-! ### The counter's address -/

section
variable {s u : State} {f : QFields} {k : Kind}

/-- What a counter's address needs after its Cap_Check (R125). -/
def counterPlace (s : State) (f : QFields) : M Nat := do
  let a ← elemAddr (s.c f.c) (s.g f.x).toInt 0
  need ((s.c f.c).scope ≠ 2) 0x0D (BitVec.ofNat 64 a)
  pure a

theorem counterAddr_eq : counterAddr f k s = (capCheck (s.c f.c) k (s.g f.x).toInt 0 >>= fun _ => counterPlace s f) s := rfl

theorem counterAddr_of_capCheck_error {stop : Stop} (failed : capCheck (s.c f.c) k (s.g f.x).toInt 0 s = .error stop u) :
    counterAddr f k s = .error stop u := counterAddr_eq.trans (M.bind_error failed)

section
variable (passed : capCheck (s.c f.c) k (s.g f.x).toInt 0 s = .ok () u) (within : (s.c f.c).inside (s.g f.x).toInt 0)
include passed within

theorem counterAddr_of_device (device : (s.c f.c).scope ≠ 2) :
    counterAddr f k s = .ok ((s.c f.c).addr (s.g f.x).toInt 0).toNat u := by
  rw [counterAddr_eq, M.bind_ok passed, counterPlace, M.bind_ok (elemAddr_of_inside within),
    M.bind_ok (M.need_ok (decide_eq_true device))]
  rfl
theorem counterAddr_of_host (host : (s.c f.c).scope = 2) : counterAddr f k s =
    .error (.trap 0x0D (BitVec.ofNat 64 ((s.c f.c).addr (s.g f.x).toInt 0).toNat) .none) u := by
  rw [counterAddr_eq, M.bind_ok passed, counterPlace, M.bind_ok (elemAddr_of_inside within),
    M.bind_error (M.need_bad (by simp [host]))]

end

/-- A counter's address leaves at most a lease cached. -/
theorem counterAddr_caches {va : Nat} (passed : counterAddr f k s = .ok va u) : s.Caches u := by
  have checked : M.TrapsOr (counterAddr f k) s fun _ t => s.Caches t := by
    refine M.TrapsOr.get (.capCheck (.bind (.elemAddr fun _ => .need fun _ => ?_)))
    exact s.caches_cacheLease _
  exact checked.ok passed

/-! ### Reading a counter -/

/-- What a read of a counter leaves at and on the way to its home (R131, R144). -/
def State.counterRead (w : State) (a : Agent) (pa : Nat) : State := ((w.touch pa .read false).asksBytes a pa 8).refreshHeld a pa

variable {va pa : Nat} {e : Option TlbEntry} {rpl : Bool} {t w : State}
  (passed : counterAddr f .CTR s = .ok va u) (present : u.xlate u.cur va .read = .ok pa rpl e) (reached : t = (u.reach va e).noteRead pa)

theorem scopeCheck_ok (reaches : t.scopeReaches t.cur pa f.scope.toNat = true) : scopeCheck f va pa t = .ok () t := by
  unfold scopeCheck
  rw [M.get_bind, M.need_ok reaches]
theorem scopeCheck_traps (short : t.scopeReaches t.cur pa f.scope.toNat = false) :
    scopeCheck f va pa t = .error (.trap 0x0D (BitVec.ofNat 64 va) .none) t := by
  unfold scopeCheck
  rw [M.get_bind, M.need_bad short]

/-- A read of a counter past its address: its home's kind, its scope, then what stands before it (R131). -/
def counterBody (f : QFields) (va pa : Nat) (rpl : Bool) : M (Nat × Nat × Word) := do
  need (!isWeightStore pa && !rpl) 0x12 (BitVec.ofNat 64 va)
  scopeCheck f va pa
  let a := (← get).cur
  modify (fun s => s.atomicReady a pa 8)
  let s ← get
  if s.poisonAt pa then trap 0x22 (BitVec.ofNat 64 va)
  modify (fun s => s.counterRead a pa)
  pure (va, pa, s.wordAt pa)

section
include passed present reached

theorem readCounter_eq : readCounter f s = (pathOk va pa .read >>= fun _ => counterBody f va pa rpl) t := by
  subst reached
  unfold readCounter
  rw [M.bind_ok passed, M.bind_eq, xl_of_present present (by decide)]
  simp only [Access.wants]
  rw [M.bind_eq, M.bind_eq]
  cases pathOk va pa .read ((u.reach va e).noteRead pa) <;> rfl

theorem readCounter_held (held : t.pathHeld t.cur pa = true) : readCounter f s = .error .stall t := by
  rw [readCounter_eq passed present reached, M.bind_error (pathOk_held held)]

variable (open_ : t.pathHeld t.cur pa = false)
include open_

theorem readCounter_refused (refused : t.refused t.cur (t.runOf t.cur) pa .read = true) :
    readCounter f s = .error (.trap 0x12 (BitVec.ofNat 64 va) .securityEvent) t := by
  rw [readCounter_eq passed present reached, M.bind_error (pathOk_refused open_ refused)]

variable (allowed : t.refused t.cur (t.runOf t.cur) pa .read = false)
include allowed

theorem readCounter_unfit (unfit : isWeightStore pa = true ∨ rpl = true) :
    readCounter f s = .error (.trap 0x12 (BitVec.ofNat 64 va) .none) t := by
  rw [readCounter_eq passed present reached, M.bind_ok (pathOk_ok open_ allowed), counterBody, M.bind_error (M.need_bad ?_)]
  rcases unfit with h | h <;> simp [h]

variable (device : isWeightStore pa = false) (single : rpl = false)
include device single

theorem readCounter_fit : readCounter f s = (scopeCheck f va pa >>= fun _ => (get : M State) >>= fun s' =>
    modify (fun s => s.atomicReady s'.cur pa 8) >>= fun _ => (get : M State) >>= fun w =>
      if w.poisonAt pa = true then trap 0x22 (BitVec.ofNat 64 va) else
        modify (fun s => s.counterRead s'.cur pa) >>= fun _ => pure (va, pa, w.wordAt pa)) t := by
  rw [readCounter_eq passed present reached, M.bind_ok (pathOk_ok open_ allowed), counterBody,
    M.bind_ok (M.need_ok (by simp [device, single]))]
  refine congrArg (fun x : M _ => (scopeCheck f va pa >>= fun _ => x) t) ?_
  funext t'
  rw [M.get_bind, M.get_bind]
  dsimp only
  rw [M.modify_bind, M.get_bind, M.modify_bind, M.get_bind]
  split <;> rfl

theorem readCounter_short (short : t.scopeReaches t.cur pa f.scope.toNat = false) :
    readCounter f s = .error (.trap 0x0D (BitVec.ofNat 64 va) .none) t := by
  rw [readCounter_fit passed present reached open_ allowed device single, M.bind_error (scopeCheck_traps short)]

variable (reaches : t.scopeReaches t.cur pa f.scope.toNat = true) (ready : w = t.atomicReady t.cur pa 8)
include reaches ready

theorem readCounter_poisoned (poisoned : w.poisonAt pa = true) :
    readCounter f s = .error (.trap 0x22 (BitVec.ofNat 64 va) .none) w := by
  subst ready
  rw [readCounter_fit passed present reached open_ allowed device single, M.bind_ok (scopeCheck_ok reaches), M.get_bind,
    M.modify_bind, M.get_bind, if_pos poisoned]
  rfl
theorem readCounter_done (clean : w.poisonAt pa = false) :
    readCounter f s = .ok (va, pa, w.wordAt pa) (w.counterRead t.cur pa) := by
  subst ready
  rw [readCounter_fit passed present reached open_ allowed device single, M.bind_ok (scopeCheck_ok reaches), M.get_bind,
    M.modify_bind, M.get_bind, if_neg (by simp [clean])]
  rfl

end

end

end Sys2Proof.Machine
end

section
/-! The counter instructions and the bindings (R127 to R133). -/

namespace Sys2Proof.Machine
set_option Elab.async false

section
variable {s t u w : State} {f : QFields}

/-! ### Thresholds -/

theorem thresholdOf_eq (f : QFields) (x : Word) : thresholdOf f x =
    if x.toNat + f.imm.toNat < 2 ^ 64 then x + f.imm.setWidth 64 else BitVec.allOnes 64 := by
  have wide : (f.imm.setWidth 64).toNat = f.imm.toNat :=
    BitVec.toNat_setWidth_of_le (by decide)
  unfold thresholdOf satAdd
  rw [wide]

/-! ### CTREAD, CTTRY and CTWAIT -/

theorem cttry_runs (wf : (Instr.cttry f).wf = true) : s.Runs (.cttry f) (readCounter f >>= fun r =>
    if (thresholdOf f (s.g f.d)).toNat ≤ r.2.2.toNat then step1 (fun s => (s.acquireIf f.ob r.1).setG f.d 1)
    else step1 (fun s => s.setG f.d 0)) := ⟨exec_cttry f s, State.accepts_formatQ (encode_cttry f) wf⟩
theorem ctwait_runs (wf : (Instr.ctwait f).wf = true) : s.Runs (.ctwait f) (readCounter f >>= fun r =>
    if (thresholdOf f (s.g f.d)).toNat ≤ r.2.2.toNat then step1 (fun s => s.acquireIf f.ob r.1)
    else waitCounter r.2.1 (thresholdOf f (s.g f.d))) := ⟨exec_ctwait f s, State.accepts_formatQ (encode_ctwait f) wf⟩

section
variable {va pa : Nat} {v : Word} (read : readCounter f s = .ok (va, pa, v) u)
include read

theorem ctread_leaves (wf : (Instr.ctread f).wf = true) : s.leaves (.ctread f) ((u.acquireIf f.ob va).setG f.d v) :=
  State.Runs.leaves ⟨exec_ctread f s, State.accepts_formatQ (encode_ctread f) wf⟩ (M.bind_ok read)

theorem cttry_reached (wf : (Instr.cttry f).wf = true) (reached : (thresholdOf f (s.g f.d)).toNat ≤ v.toNat) :
    s.leaves (.cttry f) ((u.acquireIf f.ob va).setG f.d 1) :=
  (cttry_runs wf).leaves ((M.bind_ok read).trans (by rw [if_pos reached]; rfl))
theorem cttry_below (wf : (Instr.cttry f).wf = true) (below : v.toNat < (thresholdOf f (s.g f.d)).toNat) :
    s.leaves (.cttry f) (u.setG f.d 0) :=
  (cttry_runs wf).leaves ((M.bind_ok read).trans (by rw [if_neg (Nat.not_le.2 below)]; rfl))

theorem ctwait_reached (wf : (Instr.ctwait f).wf = true) (reached : (thresholdOf f (s.g f.d)).toNat ≤ v.toNat) :
    s.leaves (.ctwait f) (u.acquireIf f.ob va) :=
  (ctwait_runs wf).leaves ((M.bind_ok read).trans (by rw [if_pos reached]; rfl))

end

/-- A wait at a counter but for its suspension: a watch, the request for it, a count (R129). -/
def State.watched (s : State) (pa : Nat) (thresh : Word) : State :=
  ((s.addWatch { cell := pa, thresh := thresh, who := .agent s.cur }).asks s.cur (s.plainRequest s.cur 17 3 pa thresh 0) pa []).count
    s.coreNo 16 1

theorem State.watched_frame (s : State) (pa : Nat) (thresh : Word) :
    (s.watched pa thresh).ctx = s.ctx ∧ (s.watched pa thresh).mem = s.mem := by
  unfold State.watched
  obtain ⟨L, asked⟩ := (s.addWatch { cell := pa, thresh := thresh, who := .agent s.cur }).asks_shape s.cur
    (s.plainRequest s.cur 17 3 pa thresh 0) pa []
  rw [asked]
  unfold State.addWatch
  split <;> exact ⟨rfl, rfl⟩

theorem State.ctx_suspend (s : State) (r : Reason) (key thresh : Word) (dst : BitVec 5) (limit : Option Nat) :
    (s.suspend r key thresh dst limit).ctx = { s.ctx with susp := some ⟨r, key, thresh, dst, s.tick, limit⟩ } := s.ctx_setCtx _

/-- Below its threshold a CTWAIT waits at its own PC (R129). -/
theorem ctwait_below {va pa : Nat} {v : Word} (read : readCounter f s = .ok (va, pa, v) u) (wf : (Instr.ctwait f).wf = true)
    (below : v.toNat < (thresholdOf f (s.g f.d)).toNat) : ∃ t, exec (.ctwait f) s = .next t ∧ t.pc = u.pc ∧ t.ctx.r = u.ctx.r ∧
      t.mem = u.mem ∧ ∃ z, t.ctx.susp = some z ∧ z.reason = .counter ∧ z.key = BitVec.ofNat 64 pa ∧
        z.thresh = thresholdOf f (s.g f.d) := by
  generalize thr : thresholdOf f (s.g f.d) = thresh at below ⊢
  let x := u.suspend .counter (BitVec.ofNat 64 pa) thresh 0 none
  let y := x.watched pa thresh
  obtain ⟨ctx, mem⟩ := x.watched_frame pa thresh
  have same : y.ctx = { u.ctx with susp := some ⟨.counter, BitVec.ofNat 64 pa, thresh, 0, u.tick, none⟩ } :=
    ctx.trans (u.ctx_suspend _ _ _ _ _)
  have pc : y.pc = u.pc := by
    rw [State.pc, same]
    rfl
  refine ⟨y.setPc y.pc, (ctwait_runs wf).jumps ?_, (y.pc_setPc _).trans pc, ?_, mem, ?_⟩
  · rw [M.bind_ok read, thr, if_neg (Nat.not_le.2 below)]
    rfl
  · rw [State.setPc, State.ctx_setCtx, same]
  · rw [State.setPc, State.ctx_setCtx, same]
    exact ⟨_, rfl, rfl, rfl, rfl⟩

theorem ctread_traps {cause : BitVec 8} {eval : Word} {note : Note} (failed : readCounter f s = .error (.trap cause eval note) t)
    (wf : (Instr.ctread f).wf = true) : exec (.ctread f) s = .next ((s.noted note).takeTrap cause eval 0) :=
  State.Runs.stops ⟨exec_ctread f s, State.accepts_formatQ (encode_ctread f) wf⟩ (M.bind_error failed)

/-! ### CTADD -/

/-- The addition of a CTADD in a page (R130). -/
def ctaddPlace (f : QFields) (inc : Word) (va pa : Nat) : M (Option Word) := do
  scopeCheck f va pa
  pathOk va pa .write
  if f.ob then release f.scope.toNat
  atomicSend (.counter inc) va pa 8
  modify (fun s => s.commandDone pa)
  pure none
/-- The addition of a CTADD on an absent page (R81). -/
def ctaddLog (f : QFields) (c : Cap) (inc : Word) (va e : Nat) : M (Option Word) := do
  let t ← get
  need (f.scope ≠ 0 && !(t.reduced && f.scope = 3)) 0x0D (BitVec.ofNat 64 va)
  if f.ob then release f.scope.toNat
  sideRoom 1
  logEntry (.counter inc f.scope.toNat) va 0 (lineBits (va % 64) (List.replicate 8 0)).2 0 c 0 e
  pure none
/-- A CTADD past its address. -/
def ctaddTo (f : QFields) (c : Cap) (inc : Word) (va : Nat) : StoreTo → M (Option Word)
  | .place pa _ => ctaddPlace f inc va pa
  | .log e => ctaddLog f c inc va e

theorem ctadd_runs (wf : (Instr.ctadd f).wf = true) : s.Runs (.ctadd f) (counterAddr f .CTW >>= fun va => storeTo va .atomic >>=
    ctaddTo f (s.c f.c) (thresholdOf f (s.g f.d)) va) :=
  ⟨exec_ctadd f s, State.accepts_formatQ (encode_ctadd f) wf⟩

section
variable {va pa : Nat} {rpl : Bool} {e : Option TlbEntry} (wf : (Instr.ctadd f).wf = true) (passed : counterAddr f .CTW s = .ok va u)
include wf passed

omit wf passed in
theorem storeTo_logs (plain : isEngine u.cur = false)
    (absent : u.xlate u.cur va .atomic = .absent ∨ u.xlate u.cur va .atomic = .migrating) :
    ∃ e t, storeTo va .atomic u = .ok (.log e) t ∧ t.reduced = u.reduced := by
  have logs (mig : Bool) : ∃ e t, storeTo.logIt va mig u = .ok (.log e) t ∧ t.reduced = u.reduced := by
    refine ⟨_, _, rfl, ?_⟩
    obtain ⟨D, walked⟩ := u.walked_shape u.cur va
    rw [walked]
    unfold State.awaitPage State.requestPage
    split
    · rfl
    · split <;> rfl
  unfold storeTo
  rw [M.get_bind]
  rcases absent with h | h <;> rw [h] <;> dsimp only <;> rw [if_neg (by simp [plain])]
  · exact logs false
  · exact logs true

/-- On an absent page no home could pass an addition of core scope, nor one of system scope in reduced service (R126). -/
theorem ctadd_log_traps (plain : isEngine s.cur = false)
    (absent : u.xlate u.cur va .atomic = .absent ∨ u.xlate u.cur va .atomic = .migrating)
    (short : f.scope = 0 ∨ (s.reduced = true ∧ f.scope = 3)) : s.traps (.ctadd f) 0x0D (BitVec.ofNat 64 va) := by
  have caches := counterAddr_caches passed
  obtain ⟨e, t, logged, reduced⟩ := storeTo_logs (by rw [caches.cur]; exact plain) absent
  have same : t.reduced = s.reduced := by
    obtain ⟨D, C, h⟩ := caches.shape
    rw [reduced, h]
    rfl
  refine (ctadd_runs wf).traps (t := t) ?_
  rw [M.bind_ok passed, M.bind_ok logged, ctaddTo, ctaddLog, M.get_bind, same, M.bind_error (M.need_bad ?_)]
  rcases short with h | ⟨h, h'⟩
  · simp [h]
  · simp [h, h']

variable (present : u.xlate u.cur va .atomic = .ok pa rpl e) (reached : t = u.reach va e)
include present reached

/-- The run of a CTADD whose counter lies in a page. -/
theorem ctadd_begins : s.Runs (.ctadd f) (fun _ => ctaddPlace f (thresholdOf f (s.g f.d)) va pa t) := by
  refine (ctadd_runs wf).congr ?_
  subst reached
  rw [M.bind_ok passed, M.bind_ok (storeTo_place present)]
  rfl

theorem ctadd_short (short : t.scopeReaches t.cur pa f.scope.toNat = false) : s.traps (.ctadd f) 0x0D (BitVec.ofNat 64 va) :=
  (ctadd_begins wf passed present reached).traps (M.bind_error (scopeCheck_traps short))

variable (reaches : t.scopeReaches t.cur pa f.scope.toNat = true)
include reaches

theorem ctadd_held (held : t.pathHeld t.cur pa = true) : exec (.ctadd f) s = .next s :=
  (ctadd_begins wf passed present reached).stops (stop := .stall) ((M.bind_ok (scopeCheck_ok reaches)).trans (M.bind_error (pathOk_held held)))

variable (open_ : t.pathHeld t.cur pa = false)
include open_

theorem ctadd_refused (refused : t.refused t.cur (t.runOf t.cur) pa .write = true) :
    exec (.ctadd f) s = .next (s.securityEvent.takeTrap 0x12 (BitVec.ofNat 64 va) 0) :=
  (ctadd_begins wf passed present reached).stops (stop := .trap 0x12 (BitVec.ofNat 64 va) .securityEvent)
    ((M.bind_ok (scopeCheck_ok reaches)).trans (M.bind_error (pathOk_refused open_ refused)))

variable (allowed : t.refused t.cur (t.runOf t.cur) pa .write = false)
include allowed

/-- The request of a CTADD enters the FIFO once the release its order bit asks for is done (R128, R130). -/
theorem ctadd_leaves {r : State} (released : (f.ob = false ∧ r = t) ∨ (f.ob = true ∧ t.releases f.scope.toNat r))
    (still : r.pathHeld r.cur pa = false) (settled : w = r.settle r.cur pa 8) (clean : w.poisonAt pa = false) :
    s.leaves (.ctadd f) ((w.requested (w.requestPiece (.counter (thresholdOf f (s.g f.d))) va pa 8)).commandDone pa) := by
  subst settled
  have sent : (atomicSend (.counter (thresholdOf f (s.g f.d))) va pa 8 >>= fun _ => modify (fun s => s.commandDone pa) >>= fun _ =>
      (pure none : M (Option Word))) r = .ok none (((r.settle r.cur pa 8).requested ((r.settle r.cur pa 8).requestPiece
        (.counter (thresholdOf f (s.g f.d))) va pa 8)).commandDone pa) :=
    M.bind_ok (atomicSend_done still clean)
  refine (ctadd_begins wf passed present reached).leaves ((M.bind_ok (scopeCheck_ok reaches)).trans
    ((M.bind_ok (pathOk_ok open_ allowed)).trans ?_))
  rcases released with ⟨plain, rfl⟩ | ⟨order, released⟩
  · rw [if_neg (by simp [plain])]
    exact sent
  · rw [if_pos order]
    exact (M.bind_ok (release_of_releases released)).trans sent

end

theorem State.cur_dropPorts (s : State) (a : Agent) (scope : Nat) : (s.dropPorts a scope).cur = s.cur := by
  unfold State.dropPorts
  extract_lets ports mine u
  have dropped : u.cur = s.cur := by
    unfold u
    split <;> rfl
  split
  · exact dropped
  · split <;> exact dropped
theorem State.releases_cur {scope : Nat} (h : s.releases scope u) : u.cur = s.cur := by
  obtain ⟨-, -, -, -, rfl⟩ := h
  exact (State.cur_dropPorts _ _ _).trans (State.cur_of_fixed (s.fixed_flush s.cur))
theorem State.requested_cur (w : State) (p : Piece) : (w.requested p).cur = w.cur := by
  obtain ⟨L, shape⟩ := w.requested_shape p
  rw [shape]
/-- Only the commands of an engine hart end (R161). -/
theorem State.commandDone_of_hart (plain : isEngine s.cur = false) (cell : Nat) : s.commandDone cell = s := by
  unfold State.commandDone
  split
  · next here => rw [here] at plain; cases plain
  · next here => rw [here] at plain; cases plain
  · rfl

/-! ### Bindings -/

/-- The binding that an SBIND writes: its region's bounding range and its counter's address (R133). -/
def bindingOf (s : State) (f : QFields) : Binding :=
  let r := (s.c (f.d.setWidth 4)).bounds
  { v := true, base := BitVec.ofInt 48 r.1, limit := BitVec.ofInt 48 r.2, ctr := BitVec.ofInt 48 ((s.c f.c).addr (s.g f.x).toInt 0) }

theorem sbind_leaves (wf : (Instr.sbind f).wf = true)
    (region : capCheck (s.c (f.d.setWidth 4)) .L 0 0 s = .ok () t) (counter : capCheck (s.c f.c) .CTR (s.g f.x).toInt 0 t = .ok () u) :
    s.leaves (.sbind f) (u.setCtx { u.ctx with r := { u.ctx.r with
      bind := u.ctx.r.bind.set (f.imm.toNat % 8) (bindingOf s f) (by omega) } }) :=
  State.Runs.leaves ⟨exec_sbind f s, State.accepts_formatQ (encode_sbind f) wf⟩ ((M.bind_ok region).trans (M.bind_ok counter))

theorem capCheck_caches {c : Cap} {k : Kind} {i0 i1 : Int} (passed : capCheck c k i0 i1 s = .ok () u) : s.Caches u := by
  have checked : M.TrapsOr (capCheck c k i0 i1 >>= fun _ => (pure () : M Unit)) s fun _ t => s.Caches t :=
    .capCheck (s.caches_cacheLease _)
  exact checked.ok (M.bind_ok passed)

end

/-- Settles O27: a counter passes its checks in order, is read behind the agent's own stores, and an addition enters the FIFO to
its home. -/
theorem counterResults : Obligations.CounterResults := by
  unfold Obligations.CounterResults
  refine ⟨fun s u f k va => ?_, fun s u w f va pa v => ?_⟩
  · intro c i inside
    refine ⟨fun cause eval failed => counterAddr_of_capCheck_error failed,
      fun passed => ⟨counterAddr_of_device passed, counterAddr_of_host passed⟩, fun passed pa rpl e present => ?_⟩
    intro t w stops
    refine ⟨fun held => ⟨_, readCounter_held passed present rfl held⟩,
      fun open_ refused => ⟨_, readCounter_refused passed present rfl open_ refused⟩, fun open_ allowed => ?_⟩
    refine ⟨fun unfit => ⟨_, readCounter_unfit passed present rfl open_ allowed unfit⟩, fun device single => ?_⟩
    refine ⟨fun short => ⟨_, readCounter_short passed present rfl open_ allowed device single short⟩, fun reaches => ?_⟩
    exact ⟨fun poisoned => ⟨_, readCounter_poisoned passed present rfl open_ allowed device single reaches rfl poisoned⟩,
      readCounter_done passed present rfl open_ allowed device single reaches rfl⟩
  · intro thresh acq
    have thr : thresholdOf f (s.g f.d) = thresh := thresholdOf_eq f _
    rw [← thr]
    refine ⟨fun read => ⟨ctread_leaves read, fun wf => ⟨cttry_reached read wf, cttry_below read wf⟩,
      fun wf => ⟨ctwait_reached read wf, ctwait_below read wf⟩⟩, fun _ _ _ _ failed => ctread_traps failed,
      fun passed wf => ctadd_log_traps wf passed, fun rpl e passed wf present => ?_, ?_⟩
    · intro t
      refine ⟨ctadd_short wf passed present rfl, ctadd_held wf passed present rfl, ctadd_refused wf passed present rfl,
        fun reaches open_ allowed settled clean => ?_⟩
      obtain ⟨r, released, still, w_eq⟩ : ∃ r, ((f.ob = false ∧ r = t) ∨ (f.ob = true ∧ t.releases f.scope.toNat r)) ∧
          r.pathHeld r.cur pa = false ∧ w = r.settle r.cur pa 8 := by
        rcases settled with ⟨plain, here⟩ | ⟨order, r, released, still, here⟩
        · exact ⟨t, .inl ⟨plain, rfl⟩, open_, here⟩
        · exact ⟨r, .inr ⟨order, released⟩, still, here⟩
      let p := w.requestPiece (.counter (thresholdOf f (s.g f.d))) va pa 8
      obtain ⟨fifo, mem, ctx⟩ := w.requested_frame p
      refine ⟨w.requested p, p, ctadd_leaves wf passed present rfl reaches open_ allowed released still w_eq clean, fun plain => ?_,
        fifo, rfl, rfl, rfl, mem, ctx⟩
      refine State.commandDone_of_hart ?_ pa
      have cur : r.cur = t.cur := by
        rcases released with ⟨-, rfl⟩ | ⟨-, released⟩
        · rfl
        · exact State.releases_cur released
      have whole : (w.requested p).cur = s.cur := by
        rw [w.requested_cur, w_eq, r.cur_settle, cur]
        exact State.reach_cur (counterAddr_caches passed) va e
      rw [whole]
      exact plain
    · refine ⟨fun t wf region counter => ?_, fun wf => ?_⟩
      · have caches := (capCheck_caches region).trans (capCheck_caches counter)
        exact ⟨_, _, sbind_leaves wf region counter, congrArg Ctx.r (u.ctx_setCtx _), rfl, rfl, rfl, rfl, caches.mem⟩
      · refine ⟨_, _, State.Runs.leaves (t := _) ⟨exec_sunbind f s, State.accepts_formatQ (encode_sunbind f) wf⟩ rfl,
          congrArg Ctx.r (s.ctx_setCtx _), rfl, rfl⟩

end Sys2Proof.Machine
end

section
/-! The steps of the memory model (R129, R142, R150, R156). -/

namespace Sys2Proof.Machine
set_option Elab.async false

section
variable {s t : State} {a : Agent} {k va pa : Nat} {p : Piece}

/-! ### Code lines and sectors leave and enter the caches -/

/-- A line that a fetch returns stands in the fetch buffer (R22). -/
theorem State.mem_fetchBuf_of_fetchLine {la : Nat} {l : FetchLine} (fetched : s.fetchLine la = .line l t) :
    l ∈ t.core.u.fetchBuf := by
  unfold State.fetchLine at fetched
  split at fetched
  · cases fetched
  · cases fetched
  · cases fetched
  · split at fetched
    · next found =>
      cases fetched
      exact List.mem_of_find?_eq_some found
    · split at fetched
      · cases fetched
      · split at fetched
        · cases fetched
        · cases fetched
          rw [State.core_setCore]
          exact List.mem_cons_self

theorem exec_fetch_done {l : FetchLine} {line : BitVec 64} (occupied : (s.ctxOf a).occupied = true)
    (fetched : State.fetchLine { s with cur := a } (line.toNat / 64 * 64) = .line l t) :
    exec (.fetch a line) s = .next { t with cur := s.cur } := by
  rw [exec_fetch, execFetch, if_pos occupied, State.asAgent, fetched]

/-- Dropping a line, and the log of a faulty one, leave memory (R23, R344). -/
theorem State.dropLines_frame (s : State) (core : Nat) (gone : FetchLine → Bool) : (s.dropLines core gone).mem = s.mem ∧
    ((s.dropLines core gone).coreAt core).u.fetchBuf = (s.coreAt core).u.fetchBuf.filter (fun l => !gone l) := by
  have kept := foldl_keeps (fun s : State => (s.mem, s.cores))
    (fun s (l : FetchLine) => s.logError (core / 384 % 4) 2 4 l.pa (if core < 1536 then core else core / 384 % 4 * 384) 0 0 0)
    (fun _ _ => rfl) ((s.coreAt core).u.fetchBuf.filter (fun l => gone l && l.faulty && !l.met))
    (s.setCoreAt core { s.coreAt core with u := { (s.coreAt core).u with
      fetchBuf := (s.coreAt core).u.fetchBuf.filter (fun l => !gone l) } })
  obtain ⟨mem, cores⟩ := Prod.mk_inj.1 kept
  refine ⟨mem, ?_⟩
  have here : (s.dropLines core gone).coreAt core = _ := (congrArg (Sparse.get Core.reset · core) cores).trans
    (s.coreAt_setCoreAt_self core _)
  rw [here]

/-- The sector that a refresh copies (R142). -/
def State.viewSource (s : State) (a : Agent) (va pa : Nat) : Sector :=
  match a with | .port q => s.portSource q pa | _ => s.refreshSource a va pa

theorem State.homeSector_agent (s : State) (a : Agent) (va pa : Nat) : (s.homeSector a va pa).agent = a := rfl
theorem State.homeSector_pa (s : State) (a : Agent) (va pa : Nat) : (s.homeSector a va pa).pa = pa / 128 * 128 := rfl

theorem pa_of_portView {ports : List Port} {x : Sector} (found : ports.findSome? (fun q => s.portView? q pa) = some x) :
    x.pa = pa / 128 * 128 := by
  obtain ⟨q, -, held⟩ := List.exists_of_findSome?_eq_some found
  have same := List.find?_some held
  exact eq_of_beq (Bool.and_eq_true_iff.1 same).2

theorem State.viewSource_place (s : State) (a : Agent) (va pa : Nat) :
    (s.viewSource a va pa).agent = a ∧ (s.viewSource a va pa).pa = pa / 128 * 128 := by
  unfold State.viewSource
  split
  · unfold State.portSource
    split
    · next x found => exact ⟨rfl, pa_of_portView (x := x) found⟩
    · exact ⟨rfl, rfl⟩
  · unfold State.refreshSource
    split
    · next x found => exact ⟨rfl, pa_of_portView (x := x) found⟩
    · exact ⟨rfl, rfl⟩

theorem exec_refresh_done (may : s.mayRefresh a va pa = true) (allowed : s.refused a (s.runOf a) pa .read = false) :
    exec (.refresh a va pa) s = .next ((s.putView (s.viewSource a va pa)).touch pa .read false) := by
  rw [exec_refresh]
  unfold execRefresh State.viewSource
  rw [if_pos (by simp [may, allowed])]
  cases a <;> rfl

/-- What a cache holds after a sector has entered it (R149). -/
theorem State.putView_views (s : State) (x : Sector) : x ∈ (s.putView x).press.views ∧
    (∀ y ∈ (s.putView x).press.views, y.agent = x.agent → y.pa = x.pa → y = { x with va := y.va }) ∧
    ∀ y ∈ s.press.views, ¬ (y.agent = x.agent ∧ y.pa = x.pa) → y ∈ (s.putView x).press.views := by
  refine ⟨List.mem_cons_self, fun y mem agent place => ?_, fun y mem other => ?_⟩
  · rcases List.mem_cons.1 mem with rfl | mem
    · rfl
    · obtain ⟨z, -, renewed⟩ := List.mem_map.1 mem
      split at renewed
      · subst renewed
        rfl
      · next other =>
        subst renewed
        exact absurd (by simp [agent, place]) other
  · refine List.mem_cons_of_mem _ (List.mem_map.2 ⟨y, List.mem_filter.2 ⟨mem, ?_⟩, if_neg ?_⟩)
    · simp only [Bool.not_eq_true', Bool.and_eq_false_iff, beq_eq_false_iff_ne]
      tauto
    · simpa only [Bool.and_eq_true, beq_iff_eq] using other

/-! ### Pieces -/

theorem State.route_shape (s : State) (p : Piece) : ∃ L, s.route p = { s with links := L } := s.sendItems_shape _ _ _
theorem State.drain_frame (s : State) (p : Piece) : (s.drain p).press.queues = s.press.queues.erase p ∧
    (s.drain p).press.fifo = s.press.fifo ++ [p] ∧ (s.drain p).mem = s.mem ∧ (s.drain p).ctxs = s.ctxs := by
  obtain ⟨L, sent⟩ := (s.setQueues (s.press.queues.erase p) (s.press.fifo ++ [p])).route_shape p
  rw [State.drain, sent]
  exact ⟨rfl, rfl, rfl, rfl⟩

theorem State.acknowledge_shape (s : State) (p : Piece) : ∃ L, s.acknowledge p = { s with links := L } := by
  unfold State.acknowledge
  dsimp only
  split
  · exact ⟨s.links, rfl⟩
  · exact s.sendItems_shape _ _ _

theorem exec_drain_done (entry : nthOf a s.press.queues k = some p) (free : s.drainable p = true) :
    exec (.drain a k) s = .next (s.drain p) := by
  rw [exec_drain, execDrain, entry]
  exact congrArg Host.Outcome.next (if_pos free)
theorem exec_deliver_done (entry : s.press.fifo[k]? = some p) (head : s.isHead p s.press.fifo = true)
    (open_ : s.pathHeld p.agent p.line = false) : exec (.deliver k) s = .next (s.deliver p) := by
  rw [exec_deliver, execDeliver, entry]
  exact congrArg Host.Outcome.next (if_pos (by simp [State.mayDeliver, head, open_]))

/-! ### Propagations and waiters -/

theorem exec_replicaPropagation_of {q : Propagation} (entry : s.press.props[k]? = some q) :
    exec (.replicaPropagation k) s = if s.mayPropagate q = true then
      .next (State.propagate { s with press := { s.press with props := dropAt s.press.props k } } q) else .next s := by
  rw [exec_replicaPropagation, execReplicaPropagation, entry]

theorem exec_watchRetry_of_agent {w : Susp} (agent : ∀ core addr, a ≠ .cont core addr) (waits : (s.ctxOf a).susp = some w)
    (counter : w.reason = .counter) : exec (.watchRetry a) s = .next (s.setCtxOf a { s.ctxOf a with susp := none }) := by
  have woken : s.wakeAgent a .counter = s.setCtxOf a { s.ctxOf a with susp := none } := by
    unfold State.wakeAgent
    dsimp only
    rw [waits]
    exact if_pos counter
  rw [exec_watchRetry]
  unfold execWatchRetry
  split
  · next core addr => exact absurd rfl (agent core addr)
  · rw [woken]
theorem exec_watchRetry_of_cont {core addr : Nat} {w : Parked}
    (found : (s.coreAt core).u.waiting.find? (fun w => w.recAddr.toNat == addr && w.susp.reason = .counter) = some w) :
    exec (.watchRetry (.cont core addr)) s = .next (s.makeReady core w) := by
  rw [exec_watchRetry, execWatchRetry, found]

end

/-- Settles O43: one lemma for each step, with what it leaves. -/
theorem memoryModelEvents : Obligations.MemoryModelEvents := by
  unfold Obligations.MemoryModelEvents
  intro s a k va pa p
  refine ⟨fun l t line occupied fetched => ⟨exec_fetch_done occupied fetched, State.mem_fetchBuf_of_fetchLine fetched⟩,
    fun entry free => ⟨_, exec_drain_done entry free, s.drain_frame p⟩, fun entry head open_ => ?_, fun may allowed => ?_, ?_,
    fun core here => ?_, fun q entry => ⟨fun held => ?_, fun free => ?_⟩, rfl, fun w agent => exec_watchRetry_of_agent agent, ?_⟩
  · intro u
    obtain ⟨L, sent⟩ := s.acknowledge_shape p
    refine ⟨exec_deliver_done entry head open_, ?_⟩
    show (s.acknowledge p).press = _ ∧ _
    unfold u
    rw [sent]
    exact ⟨rfl, rfl, rfl, rfl, rfl⟩
  · obtain ⟨agent, place⟩ := s.viewSource_place a va pa
    obtain ⟨enters, renewed, others⟩ := s.putView_views (s.viewSource a va pa)
    refine ⟨_, exec_refresh_done may allowed, ?_⟩
    obtain ⟨D, touched⟩ := (s.putView (s.viewSource a va pa)).touch_shape pa .read false
    rw [touched]
    refine ⟨agent, place, enters, fun y mem same => renewed y mem (same.trans agent.symm), fun y mem other => others y mem ?_, rfl, rfl⟩
    rwa [agent]
  · exact ⟨_, rfl, rfl, rfl, rfl⟩
  · obtain ⟨mem, lines⟩ := s.dropLines_frame core (fun l => l.pa / 64 == pa / 64)
    refine ⟨_, ?_, mem, lines⟩
    rw [exec_evict, execEvict, if_pos rfl, here]
  · rw [exec_replicaPropagation_of entry, if_neg (by simp [held])]
  · rw [exec_replicaPropagation_of entry, if_pos free]
  · rintro core addr w rfl found
    exact exec_watchRetry_of_cont found

end Sys2Proof.Machine
end

section
/-! Tiles in memory (R120 to R122, R222, R223), and instructions that record their progress (R122, R248). -/

namespace Sys2Proof.Machine
set_option Elab.async false

/-! ### Elements of a register -/

section
variable (r : BitVec 16384) {w e e' x j : Nat}

theorem testBit_elemAt (w e j : Nat) : (elemAt r w e).testBit j = (decide (j < w) && r.getLsbD (w * e + j)) := by
  rw [elemAt, Nat.testBit_mod_two_pow, BitVec.testBit_toNat, BitVec.getLsbD_ushiftRight]
theorem getLsbD_setElem (within : j < 16384) : (setElem r w e x).getLsbD j =
    if w * e ≤ j ∧ j - w * e < w then x.testBit (j - w * e) else r.getLsbD j := by
  simp only [setElem, BitVec.getLsbD_or, BitVec.getLsbD_and, BitVec.getLsbD_not, BitVec.getLsbD_shiftLeft, BitVec.getLsbD_ofNat,
    Nat.testBit_two_pow_sub_one, Nat.testBit_mod_two_pow, within, show j - w * e < 16384 by omega]
  by_cases low : j < w * e
  · simp [low, Nat.not_le.2 low]
  · by_cases high : j - w * e < w <;> simp [low, high, Nat.not_lt.1 low]

theorem elemAt_setElem_same (x : Nat) (within : w * (e + 1) ≤ 16384) : elemAt (setElem r w e x) w e = x % 2 ^ w := by
  refine Nat.eq_of_testBit_eq fun j => ?_
  rw [testBit_elemAt, Nat.testBit_mod_two_pow]
  by_cases small : j < w
  · rw [getLsbD_setElem r (by rw [Nat.mul_succ] at within; omega), if_pos (by omega), Nat.add_sub_cancel_left]
  · simp [small]
theorem elemAt_setElem_other (x : Nat) (other : e' ≠ e) : elemAt (setElem r w e x) w e' = elemAt r w e' := by
  refine Nat.eq_of_testBit_eq fun j => ?_
  rw [testBit_elemAt, testBit_elemAt]
  by_cases small : j < w
  · by_cases within : w * e' + j < 16384
    · rw [getLsbD_setElem r within, if_neg ?_]
      rintro ⟨low, high⟩
      rcases Nat.lt_or_gt_of_ne other with before | after
      · have := Nat.mul_le_mul_left w (Nat.succ_le_of_lt before)
        rw [Nat.mul_succ] at this
        omega
      · have := Nat.mul_le_mul_left w (Nat.succ_le_of_lt after)
        rw [Nat.mul_succ] at this
        omega
    · rw [BitVec.getLsbD_of_ge _ _ (Nat.not_lt.1 within), BitVec.getLsbD_of_ge _ _ (Nat.not_lt.1 within)]
  · simp [small]

/-- Elements set one after another at the places of a list keep every other element. -/
theorem elemAt_foldl_other (xs : List (Nat × Nat)) (other : ∀ q ∈ xs, e ≠ q.1) :
    elemAt (xs.foldl (fun v q => setElem v w q.1 q.2) r) w e = elemAt r w e :=
  foldl_keeps_of_mem (elemAt · w e) _ xs (fun v q mem => elemAt_setElem_other v q.2 (other q mem)) r
/-- Elements set one after another at different places hold what was set there. -/
theorem elemAt_foldl (xs : List (Nat × Nat)) (apart : xs.Pairwise (fun p q => p.1 ≠ q.1)) (mem : (e, x) ∈ xs)
    (within : w * (e + 1) ≤ 16384) : elemAt (xs.foldl (fun v q => setElem v w q.1 q.2) r) w e = x % 2 ^ w := by
  induction xs generalizing r with
  | nil => cases mem
  | cons q rest ih =>
    obtain ⟨first, apart⟩ := List.pairwise_cons.1 apart
    rcases List.mem_cons.1 mem with rfl | mem
    · exact (elemAt_foldl_other _ rest first).trans (elemAt_setElem_same r x within)
    · exact ih _ apart mem

end

/-- The elements of a tile that fits lie in the register (R222, R223). -/
theorem regBits_mul_le {ty n m : Nat} (fits : tileBytes ty n ≤ m) : regBits ty * n ≤ 8 * m := by
  unfold tileBytes at fits
  unfold regBits elemBits
  split at fits
  · next s4 =>
    subst s4
    rw [if_neg (by decide), if_pos rfl]
    omega
  · split at fits
    · next bpi =>
      rw [if_pos bpi]
      omega
    · next bytes bpi =>
      rw [if_neg bpi, if_neg bytes, Nat.mul_assoc, Nat.mul_comm _ n]
      omega

theorem State.vbytes_le (s : State) : s.vbytes ≤ 2048 := by
  unfold State.vbytes
  split <;> omega

/-! ### Reading rows -/

theorem length_of_mapM {α β : Type} {g : α → M β} {xs : List α} {ys : List β} {s t : State} (done : xs.mapM g s = .ok ys t) :
    ys.length = xs.length := by
  induction xs generalizing ys s with
  | nil =>
    rw [List.mapM_nil] at done
    cases done
    rfl
  | cons x rest ih =>
    rw [List.mapM_cons, M.bind_eq] at done
    split at done
    · rw [M.bind_eq] at done
      split at done
      · next others =>
        cases done
        exact congrArg Nat.succ (ih others)
      · cases done
    · cases done

/-- The rows of a register that a VLD writes (R121). -/
theorem elemAt_rows (v : BitVec 16384) {w n i y : Nat} {rows : List Nat} (length : rows.length = n) (row : rows[i]? = some y)
    (within : w * n ≤ 16384) : elemAt (((List.range n).zip rows).foldl (fun v x => setElem v w x.1 x.2) v) w i = y % 2 ^ w := by
  obtain ⟨low, rfl⟩ := List.getElem?_eq_some_iff.1 row
  refine elemAt_foldl v _ ?_ ?_ ((Nat.mul_le_mul_left w (by omega)).trans within)
  · have names : ((List.range n).zip rows).map Prod.fst = List.range n := List.map_fst_zip (by rw [List.length_range, length])
    have apart : (((List.range n).zip rows).map Prod.fst).Pairwise (· ≠ ·) := by
      rw [names]
      exact List.nodup_range
    exact List.pairwise_map.1 apart
  · refine List.mem_iff_getElem.2 ⟨i, by simpa [length] using low, ?_⟩
    simp

section
variable {s t u : State} {f : MFields}

/-! ### The checks before the first element -/

theorem tileChecks_large (block : Bool) (i0 : Int) (large : s.vbytes < tileBytes f.ty.toNat s.elems) : tileChecks f block i0 s =
    .error (.trap 0x02 (BitVec.ofNat 64 (tileBytes f.ty.toNat s.elems)) .none) s := by
  have size : checkTile f.ty.toNat s = .error (.trap 0x02 (BitVec.ofNat 64 (tileBytes f.ty.toNat s.elems)) .none) s := by
    unfold checkTile
    rw [M.get_bind, M.need_bad (by simpa using large), evalOf, BitVec.ofInt_natCast]
  unfold tileChecks
  rw [M.get_bind]
  exact M.bind_error size

section
variable (fits : tileBytes f.ty.toNat s.elems ≤ s.vbytes ∧ (Fmt.isBpi f.ty.toNat = true → s.cols % 256 = 0))
include fits

theorem tileChecks_ok {block : Bool} {i0 : Int} (aligned : block = true → Fmt.isBpi f.ty.toNat = true → i0 % 256 = 0) :
    tileChecks f block i0 s = .ok () s := by
  have size : checkTile f.ty.toNat s = .ok () s := by
    unfold checkTile
    rw [M.get_bind, M.need_ok (by simpa using fits.1)]
  unfold tileChecks
  rw [M.get_bind]
  refine (M.bind_ok size).trans ?_
  rw [M.need_bind, if_pos, M.need_eq, if_pos]
  · have := fits.2
    cases block <;> cases bpi : Fmt.isBpi f.ty.toNat <;> simp_all
  · have := fits.2
    cases bpi : Fmt.isBpi f.ty.toNat <;> simp_all

theorem gatherChecks_ok (few : s.elems ≤ 512) (indexes : 4 * s.elems ≤ s.vbytes) : gatherChecks f s = .ok () s := by
  unfold gatherChecks
  rw [M.bind_ok (tileChecks_ok fits (by simp)), M.get_bind]
  exact (M.bind_ok (M.get_eq s)).trans (M.need_ok (by simp [few, indexes]))
theorem gatherChecks_many (many : ¬ (s.elems ≤ 512 ∧ 4 * s.elems ≤ s.vbytes)) :
    gatherChecks f s = .error (.trap 0x02 s.openEval .none) s := by
  unfold gatherChecks
  rw [M.bind_ok (tileChecks_ok fits (by simp)), M.get_bind]
  exact (M.bind_ok (M.get_eq s)).trans (M.need_bad (by simpa using many))

end

theorem gatherChecks_large (large : s.vbytes < tileBytes f.ty.toNat s.elems) : gatherChecks f s =
    .error (.trap 0x02 (BitVec.ofNat 64 (tileBytes f.ty.toNat s.elems)) .none) s := M.bind_error (tileChecks_large false 0 large)

/-! ### Progress -/

section
variable {act : M Unit} {cause : BitVec 8} {eval : Word}

theorem keeping_ok (done : act s = .ok () t) : keeping act s = .ok () t := by
  unfold keeping
  rw [done]
theorem keeping_trap {note : Note} (stopped : act s = .error (.trap cause eval note) t) :
    keeping act s = .error (.keep cause eval 0) (s.noted note) := by
  unfold keeping
  rw [stopped]
theorem keeping_park {va : Nat} {mig kept : Bool} (parked : act s = .error (.park va mig kept) t) :
    keeping act s = .error (.park va mig true) s := by
  unfold keeping
  rw [parked]

end

section
variable {n p k : Nat} {step : Nat → M Unit}

/-- One of `n` steps, and VPROG behind it. -/
def stepOf (step : Nat → M Unit) (e : Nat) : M Unit := keeping (step e >>= fun _ => modify (fun s => s.setVprog (e + 1)))

theorem stepsFrom_succ (h : p + k < n) : stepsFrom n step (n - p - k) = stepOf step (p + k) >>= fun _ => stepsFrom n step (n - p - (k + 1)) := by
  have left : n - p - k = n - p - (k + 1) + 1 := by omega
  have here : n - (n - p - (k + 1) + 1) = p + k := by omega
  rw [left]
  show (stepOf step (n - (n - p - (k + 1) + 1)) >>= _) = _
  rw [here]

/-- What is done once `k` steps have completed is what the others do (R122). -/
theorem stepsFrom_afterSteps (within : p + k ≤ n) (reached : s.afterSteps step p k = some t) :
    stepsFrom n step (n - p) s = stepsFrom n step (n - p - k) t := by
  induction k generalizing t with
  | zero =>
    cases reached
    rfl
  | succ k ih =>
    rw [State.afterSteps] at reached
    split at reached
    · cases reached
    · next u before =>
      split at reached
      · next done =>
        cases reached
        rw [ih (by omega) before, stepsFrom_succ (by omega)]
        exact M.bind_ok (keeping_ok (M.bind_ok done))
      · cases reached

/-- A step that stops ends the instruction (R122). -/
theorem stepsFrom_stops {stop : Stop} (within : p + k < n) (reached : s.afterSteps step p k = some t)
    (stopped : stepOf step (p + k) t = .error stop u) : stepsFrom n step (n - p) s = .error stop u := by
  rw [stepsFrom_afterSteps within.le reached, stepsFrom_succ within]
  exact M.bind_error stopped

theorem recorded_past (past : n ≤ s.vprog) : recorded n step s = .error (.trap 0x02 (BitVec.ofNat 64 s.vprog) .none) s := by
  unfold recorded
  rw [M.get_bind, M.need_bind, if_neg (by simpa using past), evalOf, BitVec.ofInt_natCast]
theorem recorded_of_lt (ahead : s.vprog < n) : recorded n step s = (stepsFrom n step (n - s.vprog) >>= fun _ => pure none) s := by
  unfold recorded
  rw [M.get_bind, M.need_bind, if_pos (by simpa using ahead)]

/-- An instruction whose body is recorded takes its steps (R122, R248). -/
theorem State.Runs.takesSteps {i : Instr} (runs : s.Runs i (Machine.recorded n step)) : s.takesSteps i n step := by
  refine ⟨fun past => runs.traps (recorded_past past), fun ahead => ⟨fun t reached => runs.leaves ?_, fun k t within reached =>
    ⟨fun cause eval note u stopped => ?_, fun va mig kept u parked => ?_⟩⟩⟩
  · rw [recorded_of_lt ahead]
    refine M.bind_ok (a := ()) ((stepsFrom_afterSteps (by omega) reached).trans ?_)
    rw [Nat.sub_self]
    rfl
  · refine runs.stops (stop := .keep cause eval 0) ?_
    rw [recorded_of_lt ahead]
    exact M.bind_error (stepsFrom_stops within reached (keeping_trap (M.bind_error stopped)))
  · refine runs.stops (stop := .park va mig true) (t := t) ?_
    rw [recorded_of_lt ahead]
    exact M.bind_error (stepsFrom_stops within reached (keeping_park (M.bind_error parked)))

end

/-! ### VLD and VST -/

theorem vld_runs (wf : (Instr.vld f).wf = true) : s.Runs (.vld f) (wholeLoad (tileChecks f true (s.index0 f) >>= fun _ =>
    tileCorners .vld f (s.c f.c) (s.index0 f) (s.index1 f) >>= fun _ =>
      (List.range s.rows).mapM (fun r => loadTileRow f (s.c f.c) s.cols (s.index0 f) (s.index1 f + r)) >>= fun rows =>
        step1 (fun t => (t.setV (f.t.setWidth 3) (((List.range s.rows).zip rows).foldl
          (fun v x => setElem v (regBits f.ty.toNat * s.cols) x.1 x.2) (t.v (f.t.setWidth 3)))).noPart))) :=
  ⟨exec_vld f s, State.accepts_formatM (encode_vld f) (.inr rfl) wf⟩
theorem vst_runs (wf : (Instr.vst f).wf = true) : s.Runs (.vst f) (tileChecks f true (s.index0 f) >>= fun _ =>
    tileCorners .vst f (s.c f.c) (s.index0 f) (s.index1 f) >>= fun _ =>
      storeRows (s.c f.c) (regBits f.ty.toNat) s.cols f.ord.toNat (s.index0 f) (s.index1 f)
        ((List.range s.rows).map (elemAt (s.v (f.t.setWidth 3)) (regBits f.ty.toNat * s.cols))) >>= fun _ => pure none) :=
  ⟨exec_vst f s, State.accepts_formatM (encode_vst f) (.inr rfl) wf⟩

theorem wholeLoad_ok {x : M (Option Word)} {a : Option Word} (done : x s = .ok a t) : wholeLoad x s = .ok a t := by
  unfold wholeLoad
  rw [done]
theorem wholeLoad_trap {x : M (Option Word)} {cause : BitVec 8} {eval : Word} {note : Note}
    (stopped : x s = .error (.trap cause eval note) t) : wholeLoad x s = .error (.keep cause eval 0) (s.noted note).noPart := by
  unfold wholeLoad
  rw [stopped]

theorem vld_large (wf : (Instr.vld f).wf = true) (large : s.vbytes < tileBytes f.ty.toNat s.elems) :
    exec (.vld f) s = .next (s.noPart.takeTrap 0x02 (BitVec.ofNat 64 (tileBytes f.ty.toNat s.elems)) 0) :=
  (vld_runs wf).stops (wholeLoad_trap (M.bind_error (tileChecks_large true _ large)))

/-! ### VGATHER and VSCATTER -/

theorem vgather_runs (wf : (Instr.vgather f).wf = true) :
    s.Runs (.vgather f) (gatherChecks f >>= fun _ => recorded s.elems (gatherStep f s)) :=
  ⟨exec_vgather f s, State.accepts_formatM (encode_vgather f) (.inr rfl) wf⟩
theorem vscatter_runs (wf : (Instr.vscatter f).wf = true) :
    s.Runs (.vscatter f) (gatherChecks f >>= fun _ => recorded s.elems (scatterStep f s)) :=
  ⟨exec_vscatter f s, State.accepts_formatM (encode_vscatter f) (.inr rfl) wf⟩

theorem State.gatherIndex_eq (s : State) (f : MFields) (e : Nat) :
    s.gatherIndex f e = ((s.v (f.y.setWidth 3)).extractLsb' (32 * e) 32).toInt := by
  unfold State.gatherIndex elemAt
  congr 1
  refine BitVec.eq_of_toNat_eq ?_
  rw [BitVec.toNat_ofNat, Nat.mod_mod, BitVec.toNat_ushiftRight, BitVec.extractLsb'_toNat]

end

/-- Settles O37: the checks come before the first element, a VLD writes what its rows were read as, and a gather or scatter takes
its steps from VPROG. -/
theorem tileAccessResults : Obligations.TileAccessResults := by
  unfold Obligations.TileAccessResults
  intro s f c ty i0 i1 d w fits
  refine ⟨fun i mem wf large => ?_, vld_large, fun i mem wf here many => ?_, fun rows u v wf here aligned corners read => ?_,
    fun u v wf here aligned corners stored => ?_, fun here few indexes => ?_⟩
  · simp only [List.mem_cons, List.not_mem_nil, or_false] at mem
    rcases mem with rfl | rfl | rfl
    · exact (vst_runs wf).traps (M.bind_error (tileChecks_large true _ large))
    · exact (vgather_runs wf).traps (M.bind_error (gatherChecks_large large))
    · exact (vscatter_runs wf).traps (M.bind_error (gatherChecks_large large))
  · simp only [List.mem_cons, List.not_mem_nil, or_false] at mem
    rcases mem with rfl | rfl
    · exact (vgather_runs wf).traps (M.bind_error (gatherChecks_many here many))
    · exact (vscatter_runs wf).traps (M.bind_error (gatherChecks_many here many))
  · have length : rows.length = s.rows := (length_of_mapM read).trans (by simp)
    have within : w * s.cols * s.rows ≤ 16384 := by
      have fits := (regBits_mul_le here.1).trans (Nat.mul_le_mul_left 8 s.vbytes_le)
      rwa [State.elems, Nat.mul_comm s.rows, ← Nat.mul_assoc] at fits
    refine ⟨_, (vld_runs wf).leaves (wholeLoad_ok ((M.bind_ok (tileChecks_ok here fun _ => aligned)).trans
      ((M.bind_ok corners).trans (M.bind_ok read)))), fun r y row => elemAt_rows _ length row within⟩
  · exact (vst_runs wf).leaves ((M.bind_ok (tileChecks_ok here fun _ => aligned)).trans ((M.bind_ok corners).trans (M.bind_ok stored)))
  · intro at'
    have places : (fun e => s.index0 f + s.gatherIndex f e) = at' := funext fun e => congrArg (s.index0 f + ·) (s.gatherIndex_eq f e)
    rw [← places]
    exact ⟨fun wf => ((vgather_runs wf).congr (M.bind_ok (gatherChecks_ok here few indexes))).takesSteps,
      fun wf => ((vscatter_runs wf).congr (M.bind_ok (gatherChecks_ok here few indexes))).takesSteps⟩

end Sys2Proof.Machine
end

section
/-! Engine events: a turn of a hart, the step of a command, and the end of one (R155, R158, R164, R274, R337). -/

namespace Sys2Proof.Machine
set_option Elab.async false

/-! ### Words as bytes -/

theorem leBytes_add (n m v : Nat) : leBytes (n + m) v = leBytes n v ++ leBytes m (v / 256 ^ n) := by
  induction n generalizing v with
  | zero => rw [Nat.zero_add, pow_zero, Nat.div_one]; rfl
  | succ n ih => rw [Nat.succ_add, leBytes, ih, leBytes, List.cons_append, Nat.div_div_eq_div_mul, pow_succ']
/-- Only the bytes written count. -/
theorem leBytes_mod (n v : Nat) : leBytes n (v % 256 ^ n) = leBytes n v := by
  induction n generalizing v with
  | zero => rfl
  | succ n ih =>
    rw [leBytes, leBytes, pow_succ', Nat.mod_mul_right_div_self, ih]
    congr 1
    refine BitVec.eq_of_toNat_eq ?_
    rw [BitVec.toNat_ofNat, BitVec.toNat_ofNat]
    exact Nat.mod_mul_right_mod v 256 _
theorem leBytes_toNat_ofNat (n v : Nat) : leBytes n (BitVec.ofNat (8 * n) v).toNat = leBytes n v := by
  rw [BitVec.toNat_ofNat, pow_mul]
  exact leBytes_mod n v
/-- The bytes of the lower part come first. -/
theorem leBytes_append {n m : Nat} (hi : BitVec (8 * m)) (lo : BitVec (8 * n)) :
    leBytes (n + m) (hi ++ lo).toNat = leBytes n lo.toNat ++ leBytes m hi.toNat := by
  have below : lo.toNat < 256 ^ n := by
    have := lo.isLt
    rwa [pow_mul] at this
  have sum : (hi ++ lo).toNat = lo.toNat + 256 ^ n * hi.toNat := by
    rw [BitVec.toNat_append, Nat.shiftLeft_eq, Nat.mul_comm, ← Nat.two_pow_add_eq_or_of_lt lo.isLt, Nat.add_comm, pow_mul]
    rfl
  rw [leBytes_add, sum, Nat.add_mul_div_left _ _ (by positivity), Nat.div_eq_of_lt below, Nat.zero_add,
    ← leBytes_mod n (_ + _), Nat.add_mul_mod_self_left, leBytes_mod]

/-- Words that stand in memory one after the other are read back. -/
theorem State.wordAt_of_words {s : State} {a : Nat} {ws : List Word}
    (stand : ∀ i, i < 8 * ws.length → s.byteAt (a + i) = (ws.flatMap fun w => leBytes 8 w.toNat).getD i 0) {j : Nat}
    (hj : j < ws.length) : s.wordAt (a + 8 * j) = ws.getD j 0 := by
  refine State.wordAt_eq fun i hi => ?_
  rw [Nat.add_assoc, stand _ (by omega), wordBytes_getD _ _ _ hi]

/-- A counter's home takes the sum, and no other byte changes (R125). -/
theorem State.byteAt_performCounter (s : State) (agent : Agent) (run a : Nat) (inc : Word) (y : Nat) :
    (s.performCounter agent run a inc).byteAt y =
      if a ≤ y ∧ y < a + 8 then (leBytes 8 (satAdd (s.wordAt a) inc).toNat).getD (y - a) 0 else s.byteAt y :=
  (State.byteAt_written _ _ _ _ _ _).trans ((State.byteAt_clearTags _ _ _ _).trans (State.byteAt_setBytes _ _ _ _))

/-! ### The end of a command -/

/-- Words 2 and 3 of a block whose command has ended (R163, R164). -/
def outcomeWords (done bytes : Nat) (cause : BitVec 8) (eval : Word) : List Word :=
  [BitVec.ofNat 32 bytes ++ BitVec.ofNat 32 done, eval.setWidth 48 ++ cause ++ (if cause = 0 then 1#8 else 2#8)]

/-- The bytes that the end of a command writes are those two words. -/
theorem outcomeWords_bytes (done bytes : Nat) (cause : BitVec 8) (eval : Word) :
    leBytes 4 done ++ leBytes 4 bytes ++ [if cause = 0 then 1 else 2, cause] ++ leBytes 6 eval.toNat =
      (outcomeWords done bytes cause eval).flatMap fun w => leBytes 8 w.toNat := by
  have counts : leBytes 8 (BitVec.ofNat 32 bytes ++ BitVec.ofNat 32 done : Word).toNat = leBytes 4 done ++ leBytes 4 bytes := by
    rw [← leBytes_toNat_ofNat 4 done, ← leBytes_toNat_ofNat 4 bytes]
    exact leBytes_append (n := 4) (m := 4) _ _
  have low : leBytes 6 (eval.setWidth 48).toNat = leBytes 6 eval.toNat := by
    rw [BitVec.toNat_setWidth]
    exact leBytes_mod 6 _
  have byte (x : Byte) : leBytes 1 x.toNat = [x] := by simp [leBytes]
  have kind (x : Byte) : leBytes 8 (eval.setWidth 48 ++ cause ++ x : Word).toNat = [x, cause] ++ leBytes 6 eval.toNat := by
    have outer : leBytes 8 (eval.setWidth 48 ++ cause ++ x : Word).toNat = _ :=
      leBytes_append (n := 1) (m := 7) (eval.setWidth 48 ++ cause) x
    have inner : leBytes 7 (eval.setWidth 48 ++ cause).toNat = _ := leBytes_append (n := 1) (m := 6) (eval.setWidth 48) cause
    rw [outer, inner, low, byte, byte]
    rfl
  rw [outcomeWords, List.flatMap_cons, List.flatMap_cons, List.flatMap_nil, counts, kind, List.append_nil, List.append_assoc]
  rfl

theorem length_outcomeWords (done bytes : Nat) (cause : BitVec 8) (eval : Word) :
    ((outcomeWords done bytes cause eval).flatMap fun w => leBytes 8 w.toNat).length = 16 := by
  rw [← outcomeWords_bytes]
  simp only [List.length_append, length_leBytes, List.length_cons, List.length_nil]

/-- An engine whose command has ended: its block leaves the FIFO (R164). -/
def Engine.ended (x : Engine) (rest : List (BitVec 48)) : Engine :=
  { x with fifo := rest, busy := false, w0 := 0, n := 0, done := 0, src := Cap.null, dst := Cap.null, idx := Cap.null,
           before := x.before - 1, tile := 0, elem := 0, parked := none, epoch := 0, pageFail := none }

/-- A deferred store fault that a command finds at its end (R337). -/
def State.lateFault (s : State) (a : Agent) (cause : BitVec 8) : Option Deferred :=
  if cause = 0 then ((s.flush a).ctxOf a).deferred else none

/-- What the end of a command that arrives at no slot leaves of memory: its outcome in the block, one more in the mailbox (R164). -/
def State.reported (s : State) (core e pa : Nat) (a : Agent) (done bytes : Nat) (cause : BitVec 8) (eval : Word) : State :=
  let s := s.flush a
  let s := s.setCtxOf a { s.ctxOf a with deferred := none }
  let s := (s.writeBy (writerOf a (s.runOf a)) (pa + 16) ((outcomeWords done bytes cause eval).flatMap fun w => leBytes 8 w.toNat)).clearTags pa 32
  s.performCounter a (s.runOf a) (mailCell core e) 1

theorem State.wordAt_setCoreAt (s : State) (k : Nat) (c : Core) (a : Nat) : (s.setCoreAt k c).wordAt a = s.wordAt a := rfl

section
variable (s : State) {core pa : Nat} (e : Nat) (inside : pa + 64 ≤ windowCell core 0) (a : Agent) (done bytes : Nat)
  (cause : BitVec 8) (eval : Word)
include inside

/-- The mailboxes stand past the block (R161). -/
theorem State.wordAt_reported {j : Nat} (hj : j < 2) :
    (s.reported core e pa a done bytes cause eval).wordAt (pa + 16 + 8 * j) = (outcomeWords done bytes cause eval).getD j 0 := by
  refine State.wordAt_of_words (fun i hi => ?_) hj
  have hi : i < 16 := hi
  have below : ¬ (mailCell core e ≤ pa + 16 + i ∧ pa + 16 + i < mailCell core e + 8) := by
    unfold mailCell windowCell at *
    omega
  unfold State.reported
  dsimp only
  rw [State.byteAt_performCounter, if_neg below, State.byteAt_clearTags, State.byteAt_writeBy, length_outcomeWords,
    if_pos (by omega), Nat.add_sub_cancel_left]
/-- Word 2 of the block: DONE and BYTES (R163). -/
theorem State.reported_counts : (s.reported core e pa a done bytes cause eval).wordAt (pa + 16) =
    BitVec.ofNat 32 bytes ++ BitVec.ofNat 32 done := by
  have word := s.wordAt_reported e inside a done bytes cause eval (j := 0) (by decide)
  rwa [Nat.mul_zero, Nat.add_zero] at word
/-- Word 3: STATE, CAUSE and EVAL (R163). -/
theorem State.reported_kind : (s.reported core e pa a done bytes cause eval).wordAt (pa + 24) =
    eval.setWidth 48 ++ cause ++ (if cause = 0 then 1#8 else 2#8) := by
  have word := s.wordAt_reported e inside a done bytes cause eval (j := 1) (by decide)
  rwa [Nat.mul_one, Nat.add_assoc] at word

end

section
variable {s : State} {core e : Nat} {blk : BitVec 48} {rest : List (BitVec 48)}
  (head : ((s.coreAt core).engine e).fifo = blk :: rest) (busy : ((s.coreAt core).engine e).busy = true)
  (silent : ((s.coreAt core).engine e).w0.getLsbD 24 = false) (done bytes : Nat)
include head busy silent

theorem State.endCommand_of_silent (cause : BitVec 8) (eval : Word) :
    let x := (s.coreAt core).engine e
    let late := s.lateFault (engineAgent core e) cause
    let count := match late with | some d => x.doneBefore done d.eval | none => done
    let t := s.reported core e blk.toNat (engineAgent core e) count
      (if late.isSome then count * (if done = 0 then 0 else bytes / done) else bytes)
      (if late.isSome then 0x21 else cause) (match late with | some d => d.eval | none => eval)
    s.endCommand core e done bytes cause eval true = t.setCoreAt core ((t.coreAt core).setEngine e (x.ended rest)) := by
  intro x late count t
  have quiet (w : Word) : (true && (if x.busy = true then x.w0 else w).getLsbD 24) = false := by rw [if_pos busy, silent]; rfl
  unfold State.endCommand
  extract_lets a u1 late' cause' eval' size done' bytes' old u2
  rw [show x.fifo = blk :: rest from head]
  dsimp -zeta only
  extract_lets pa w0 u3 u4 u5 c
  have same : u4 = u3 := if_neg (by rw [quiet]; decide)
  have left : u5 = t := by
    unfold u5 t State.reported
    rw [same, ← outcomeWords_bytes]
    rfl
  show u5.setCoreAt core ((u5.coreAt core).setEngine e (x.ended rest)) = _
  rw [left]

/-- The end of a command without a late fault (R164). -/
theorem State.endCommand_plain {cause : BitVec 8} (plain : s.lateFault (engineAgent core e) cause = none) (eval : Word) :
    let t := s.reported core e blk.toNat (engineAgent core e) done bytes cause eval
    s.endCommand core e done bytes cause eval true =
      t.setCoreAt core ((t.coreAt core).setEngine e (((s.coreAt core).engine e).ended rest)) := by
  have ends := State.endCommand_of_silent head busy silent done bytes cause eval
  rw [plain] at ends
  exact ends
/-- The end of a command that finds a refused store of its own (R337). -/
theorem State.endCommand_late {d : Deferred} {cause : BitVec 8} (late : s.lateFault (engineAgent core e) cause = some d) (eval : Word) :
    let x := (s.coreAt core).engine e
    let t := s.reported core e blk.toNat (engineAgent core e) (x.doneBefore done d.eval)
      (x.doneBefore done d.eval * (if done = 0 then 0 else bytes / done)) 0x21 d.eval
    s.endCommand core e done bytes cause eval true = t.setCoreAt core ((t.coreAt core).setEngine e (x.ended rest)) := by
  have ends := State.endCommand_of_silent head busy silent done bytes cause eval
  rw [late] at ends
  exact ends

end

/-! ### Turns and steps -/

/-- One turn, where the command at the head of the FIFO is of the event's kind (R158). -/
theorem State.engineTurns_one {s : State} {core e op : Nat} {mine : Nat → Bool} (head : s.headOp core e = some op)
    (kind : mine op = true) (runs : s.engineRuns core e = true) : s.engineTurns core e mine 1 = s.engineTurn core e := by
  rw [State.engineTurns, head]
  exact if_pos (by simp [kind, runs])

section
variable {s : State} {core : Nat}

theorem State.engineTurn_copy (busy : ((s.coreAt core).engine 0).busy = true) : s.engineTurn core 0 = s.copyStep core := by
  unfold State.engineTurn
  rw [if_pos busy, if_pos busy]
  rfl
theorem State.engineTurn_epilogue (busy : ((s.coreAt core).engine 1).busy = true) : s.engineTurn core 1 = s.epilogueTurn core := by
  unfold State.engineTurn
  rw [if_pos busy, if_pos busy]
  rfl

variable {e size k : Nat} {after : Engine → Nat → Engine × Bool} {step : M (Nat × Option (BitVec 8 × Word))} {t : State}

/-- A step that faults ends its command with what was moved (R164). -/
theorem State.stepCommand_faults {cause : BitVec 8} {eval : Word}
    (done : step { s with cur := engineAgent core e } = .ok (k, some (cause, eval)) t) :
    let x := (s.coreAt core).engine e
    s.stepCommand core e size after step =
      State.endCommand { t with cur := s.cur } core e (x.done + k) ((x.done + k) * size) cause eval true := by
  unfold State.stepCommand
  dsimp only
  rw [done]
/-- A step that does not fault goes on with the command, or ends it with its last elements (R164). -/
theorem State.stepCommand_moves (done : step { s with cur := engineAgent core e } = .ok (k, none) t) :
    let x := (s.coreAt core).engine e
    let u : State := { t with cur := s.cur }
    s.stepCommand core e size after step =
      if (after x k).2 = true then u.endCommand core e (x.done + k) ((x.done + k) * size) 0 0 true
      else u.setCoreAt core ((u.coreAt core).setEngine e { (after x k).1 with done := x.done + k }) := by
  unfold State.stepCommand
  dsimp only
  rw [done]

end

section
variable {s t : State} {core k : Nat}

theorem State.copyStep_moves (done : let x := (s.coreAt core).engine 0
      engineStep 0 x (moveElem x) x.done x.n (Fmt.size x.dst.fmt.toNat) { s with cur := .copy core } = .ok (k, none) t) :
    let x := (s.coreAt core).engine 0
    let u : State := { t with cur := s.cur }
    s.copyStep core =
      if x.done + k = x.n then u.endCommand core 0 (x.done + k) ((x.done + k) * Fmt.size x.dst.fmt.toNat) 0 0 true
      else u.setCoreAt core ((u.coreAt core).setEngine 0 { x with done := x.done + k }) := by
  intro x u
  unfold State.copyStep
  refine (State.stepCommand_moves (e := 0) done).trans ?_
  simp only [decide_eq_true_eq]
  rfl
theorem State.copyStep_faults {cause : BitVec 8} {eval : Word} (done : let x := (s.coreAt core).engine 0
      engineStep 0 x (moveElem x) x.done x.n (Fmt.size x.dst.fmt.toNat) { s with cur := .copy core } = .ok (k, some (cause, eval)) t) :
    let x := (s.coreAt core).engine 0
    s.copyStep core =
      State.endCommand { t with cur := s.cur } core 0 (x.done + k) ((x.done + k) * Fmt.size x.dst.fmt.toNat) cause eval true := by
  unfold State.copyStep
  exact State.stepCommand_faults (e := 0) done

end

/-! ### The epilogue (R272, R274) -/

/-- A step of an epilogue command, which frees the tile whose last element it has written (R274). -/
def epilogueStep (core : Nat) (x : Engine) (per size : Nat) (elem : Nat → Option Nat → M (Option Written)) :
    M (Nat × Option (BitVec 8 × Word)) := do
  let r ← engineStep 1 x elem x.elem per size
  if r.2.isNone && decide (per ≤ x.elem + r.1) then
    modify (fun t => t.setMxAt core { t.mxAt core with galley := (t.mxAt core).galley.advance 1 })
  pure r

section
variable {s t : State} {core : Nat}

theorem State.epilogueTurn_express (express : ∃ r, s.runOn core = some r ∧ r.express ≠ none) :
    let x := (s.coreAt core).engine 1
    s.epilogueTurn core =
      s.endCommand core 1 x.done (x.done * Fmt.size (epilogueFmt (x.w0.extractLsb' 0 8).toNat)) 0x0D s.openEval true := by
  obtain ⟨r, on, express⟩ := express
  unfold State.epilogueTurn
  dsimp only
  rw [on]
  exact if_pos (Option.isSome_iff_ne_none.2 express)
theorem State.epilogueTurn_of_tiles (plain : ∀ r, s.runOn core = some r → r.express = none)
    (tiles : (s.mxAt core).galley.tiles ≠ 0) :
    let x := (s.coreAt core).engine 1
    let fmt := epilogueFmt (x.w0.extractLsb' 0 8).toNat
    let per := 32 * (s.mxAt core).galley.n
    s.epilogueTurn core = s.stepCommand core 1 (Fmt.size fmt) (fun x n => x.tileAfter per n)
      (epilogueStep core x per (Fmt.size fmt) (epilogueElem core x fmt)) := by
  have resident : (match s.runOn core with | some r => r.express.isSome | none => false) = false := by
    cases on : s.runOn core with
    | none => rfl
    | some r => exact Option.isSome_eq_false_iff.2 (Option.isNone_iff_eq_none.2 (plain r on))
  unfold State.epilogueTurn
  extract_lets x g fmt size per
  refine (if_neg ?_).trans (if_neg tiles)
  exact fun h => Bool.false_ne_true (resident.symm.trans h)

theorem epilogueStep_ok {x : Engine} {per size k : Nat} {elem : Nat → Option Nat → M (Option Written)}
    {fault : Option (BitVec 8 × Word)} (done : engineStep 1 x elem x.elem per size s = .ok (k, fault) t) :
    epilogueStep core x per size elem s = .ok (k, fault) (if fault = none ∧ per ≤ x.elem + k then
      t.setMxAt core { t.mxAt core with galley := (t.mxAt core).galley.advance 1 } else t) := by
  unfold epilogueStep
  rw [M.bind_ok done]
  by_cases last : fault = none ∧ per ≤ x.elem + k
  · rw [if_pos last, if_pos (by simp [last])]
    rfl
  · rw [if_neg last, if_neg (by simpa using last)]
    rfl

end

theorem Engine.tileAfter_last {x : Engine} {per n : Nat} (last : per ≤ x.elem + n) :
    x.tileAfter per n = ({ x with tile := x.tile + 1, elem := 0 }, decide (x.tile + 1 = x.n)) := if_pos last
theorem Engine.tileAfter_within {x : Engine} {per n : Nat} (within : ¬ per ≤ x.elem + n) :
    x.tileAfter per n = ({ x with elem := x.elem + n }, false) := if_neg within

/-! ### Two stores of a copy hart that are one line (R155) -/

theorem length_replaceLast (l new : Piece) (q : List Piece) : (replaceLast l new q).length = q.length := by
  induction q with
  | nil => rfl
  | cons y ys ih =>
    rw [replaceLast]
    split
    · rfl
    · rw [List.length_cons, ih, List.length_cons]
theorem mem_replaceLast {l : Piece} (new : Piece) {q : List Piece} (mem : l ∈ q) : new ∈ replaceLast l new q := by
  induction q with
  | nil => cases mem
  | cons y ys ih =>
    rw [replaceLast]
    by_cases later : l ∈ ys
    · rw [if_neg (by simp [later])]
      exact List.mem_cons_of_mem _ (ih later)
    · obtain rfl : l = y := (List.mem_cons.1 mem).resolve_right later
      rw [if_pos (by simp [later])]
      exact List.mem_cons_self

section
variable {p l : Piece} {q : List Piece} (last : (q.filter (fun y => y.agent == p.agent)).getLast? = some l)
include last

theorem joinPair_apart (other : l.mask ≠ BitVec.ofNat 512 (2 ^ 256 - 1)) : joinPair p q = q ++ [p] := by
  unfold joinPair
  rw [last]
  exact if_neg (by simp only [decide_eq_false other, Bool.and_false, Bool.false_and, Bool.false_eq_true, not_false_eq_true])
theorem joinPair_joins {core : Nat} (copy : p.agent = .copy core) (write : l.op = .write) (line : l.line = p.line)
    (replicated : l.replicated = p.replicated) (low : l.mask = BitVec.ofNat 512 (2 ^ 256 - 1))
    (high : p.mask = ~~~BitVec.ofNat 512 (2 ^ 256 - 1)) : joinPair p q =
      replaceLast l { l with data := l.data ||| p.data, mask := l.mask ||| p.mask, tags := l.tags ||| p.tags } q := by
  unfold joinPair
  rw [last]
  exact if_pos (by simp only [copy, write, line, replicated, low, high]; rfl)

end

/-! ### The obligation -/

theorem Core.engine_setEngine (c : Core) {e : Nat} (x : Engine) : (c.setEngine e x).engine e = x := by
  unfold Core.setEngine Core.engine
  split <;> rfl

/-- Settles O46: a turn of a busy hart is a step of its command; the end of a command reports in its block, with the refused store
that it finds at its end. -/
theorem engineEvents : Obligations.EngineEvents := by
  unfold Obligations.EngineEvents
  refine ⟨fun s core op r mem head kind runs => ?_, fun s t core k fault => ?_, fun p l q => ?_, fun s t core k fault => ?_,
    fun s core e done bytes cause eval blk rest => ?_⟩
  · have one {mine : Nat → Bool} {e : Nat} (h : s.headOp core e = some op) (m : mine op = true) (g : s.engineRuns core e = true) :
        Host.Outcome.next (s.engineTurns core e mine 1) = (.next (s.engineTurn core e) : Host.Outcome State Fault Refusal) :=
      congrArg _ (State.engineTurns_one h m g)
    simp only [List.mem_cons, List.not_mem_nil, or_false] at mem
    rcases mem with rfl | rfl | rfl | rfl | rfl | rfl | rfl | rfl | rfl | rfl | rfl | rfl | rfl | rfl <;>
      exact one head (by simpa using kind) runs
  · intro x size busy
    refine ⟨State.engineTurn_copy busy, fun done => ?_⟩
    intro u
    refine ⟨?_, ?_, ?_⟩
    · rintro rfl more
      exact (State.copyStep_moves done).trans (if_neg more)
    · rintro rfl all
      exact (State.copyStep_moves done).trans (if_pos all)
    · rintro cause eval rfl
      exact State.copyStep_faults done
  · intro low last
    refine ⟨joinPair_apart last, fun core copy write line replicated full high => ?_⟩
    have mem : l ∈ q := (List.mem_filter.1 (List.mem_of_getLast? last)).1
    rw [joinPair_joins last copy write line replicated full high]
    exact ⟨length_replaceLast _ _ _, mem_replaceLast _ mem⟩
  · intro x g per fmt size busy
    refine ⟨fun express => (State.engineTurn_epilogue busy).trans (State.epilogueTurn_express express),
      fun plain tiles done => ?_⟩
    intro last freed u goesOn ends
    have turn := (State.engineTurn_epilogue busy).trans (State.epilogueTurn_of_tiles plain tiles)
    have step := epilogueStep_ok (core := core) done
    refine ⟨?_, ?_, ?_, ?_⟩
    · rintro rfl within
      refine turn.trans ((State.stepCommand_moves step).trans ?_)
      rw [Engine.tileAfter_within within]
      exact if_neg Bool.false_ne_true
    · rintro rfl last more
      refine turn.trans ((State.stepCommand_moves step).trans ?_)
      rw [Engine.tileAfter_last last]
      exact if_neg (by simpa using more)
    · rintro rfl last all
      refine turn.trans ((State.stepCommand_moves step).trans ?_)
      rw [Engine.tileAfter_last last]
      exact if_pos (by simpa using all)
    · rintro cause eval rfl
      exact turn.trans (State.stepCommand_faults step)
  · intro x a small head busy silent inside t
    have words {count n : Nat} {c : BitVec 8} {v : Word}
        (ends : let u := s.reported core e blk.toNat a count n c v
          t = u.setCoreAt core ((u.coreAt core).setEngine e (x.ended rest))) :
        (t.coreAt core).engine e = x.ended rest ∧
        t.wordAt (blk.toNat + 16) = (BitVec.ofNat 32 n ++ BitVec.ofNat 32 count : Word) ∧
        t.wordAt (blk.toNat + 24) = (v.setWidth 48 ++ c ++ (if c = 0 then 1#8 else 2#8) : Word) := by
      rw [ends, State.coreAt_setCoreAt_self, State.wordAt_setCoreAt, State.wordAt_setCoreAt, s.reported_counts e inside,
        s.reported_kind e inside]
      exact ⟨Core.engine_setEngine _ _, rfl, rfl⟩
    have plain (none : s.lateFault a cause = none) :=
      words (State.endCommand_plain head busy silent done bytes none eval)
    have late {d : Deferred} (some : s.lateFault a cause = some d) :=
      words (State.endCommand_late head busy silent done bytes some eval)
    refine ⟨?_, fun none => ?_, fun d zero some => ?_⟩
    · cases found : s.lateFault a cause with
      | none => exact (plain found).1
      | some d => exact (late found).1
    · refine (plain ?_).2
      unfold State.lateFault
      split
      · next zero => exact none zero
      · rfl
    · obtain ⟨-, counts, kind⟩ := late ((if_pos zero).trans some)
      refine ⟨?_, kind⟩
      rw [counts]
      exact BitVec.setWidth_append_eq_right

end Sys2Proof.Machine
end

section
/-! A plan entry whose source is where its own fault record will stand (R170, R173, R174; O45). -/

namespace Sys2Proof.Machine
set_option Elab.async false

/-! ### What O45 leaves out

Of an entry that a destination refuses, the statement says that its bytes depart as they stood before the entry's fault record was
written. The model writes the record first and reads the source after it: where the source lies over the record, the bytes of
the record depart. -/

/-- An entry of 32 bytes, from offset 0x40 of core 0 to offset 0x20 of its window. -/
def overlapEntry : PlanEntry := { w0 := 0x2000000000, w1 := 0x40, w2 := 0, w3 := 0x20 }
/-- The plan of that one entry at offset 0: its fault record stands at offset 0x40. Of the window only 32 bytes are there. -/
def overlapPlan : Plan :=
  { Plan.reset with en := true, wbase := 0x8000, wsize := 0x20, count := 1, entries := [overlapEntry], next := some 0 }
/-- Core 0 as the exchange phase of that plan begins. -/
def overlapState : State :=
  State.setCoreAt { State.reset with runs := [placedRun] } 0 { Core.reset with run := some 1, arrived := some 0, plan := overlapPlan }
/-- Its part in the close. -/
def overlapStand : Stand :=
  { plan := overlapPlan, kbin := KeyBins.reset, arrived := some 0, finished := true, strictLeft := false, halted := false }
/-- The machine as the entry departs: the next one is entry 1. -/
def overlapNext : State := overlapState.setPlanAt 1 0 { overlapPlan with next := some 1 }

/-- The entry passes its source checks, and its destination, the core itself, has too small a window (R173). -/
theorem overlapEntry_refused :
    overlapNext.sourceFault 1 0 (overlapNext.members placedRun.domain 0 0) placedRun.area (entryMove overlapEntry) = none ∧
    (entryMove overlapEntry).dests.findSome? (overlapNext.destFault 1 (entryMove overlapEntry)) =
      some (0x09, localBase 0 + 0x8020) := by decide +kernel
/-- The bytes that depart are the fault record's, not the zeros that stood there. -/
theorem overlapEntry_departs :
    (overlapState.departEntry 1 0).press.exchange ≠ overlapState.press.exchange ++ overlapNext.transfers 1 0 0 (entryMove overlapEntry) := by
  decide +kernel

/-- Refutes O45: the entry of `overlapState` departs with the bytes of its fault record. -/
theorem not_continuationEvents : ¬ Obligations.ContinuationEvents := by
  unfold Obligations.ContinuationEvents
  intro h
  obtain ⟨-, -, -, -, -, -, -, -, -, -, -, departs, -⟩ := h overlapState (.copy 0) 0 0
  obtain ⟨source, refused⟩ := overlapEntry_refused
  have entry := (departs 1 overlapStand placedRun 0 0 (by decide) (by decide) (by decide) (by decide)).2 overlapEntry (by decide)
  exact overlapEntry_departs (entry.2.1 source _ refused).1

end Sys2Proof.Machine
end

section
/-! ECMD and EWAIT (R166). -/

namespace Sys2Proof.Machine
set_option Elab.async false

section
variable {s t u v : State} {f : QFields}

theorem State.Runs.stalls {i : Instr} {body : M (Option Word)} (h : s.Runs i body) (stalled : body s = .error .stall t) :
    exec i s = .next s := h.stops stalled

/-! ### ECMD -/

/-- What ECMD leaves of the machine once its release has passed: the block in the FIFO of engine `e`, one more kick, and the count
in g[d] (R166). -/
def State.queuesCommand (t : State) (e a : Nat) (d : BitVec 5) : State :=
  let x := t.core.engine e
  let q := t.setCore (t.core.setEngine e { x with fifo := x.fifo ++ [BitVec.ofNat 48 a] })
  let b := if x.fifo.isEmpty then q.handBlock q.coreNo e else q
  let k := b.performCounter b.cur (b.runOf b.cur) (kickCell b.coreNo e) 1
  k.setG d (k.wordAt (kickCell k.coreNo e))

/-- ECMD past its capability checks: where its block may lie (R166). -/
def ecmdPlace (f : QFields) (s : State) : M (Option Word) := do
  let c := s.c f.c
  need (c.fmt = 0) 0x0E (c.fmt.setWidth 64)
  need (s.ownLocal c) 0x0D (c.base.setWidth 64)
  let a ← elemAddr c (s.g f.x).toInt 0
  need (a % 128 = 0) 0x18 (BitVec.ofNat 64 a)
  if 8 ≤ (s.core.engine (engineOf f)).fifo.length then throw .stall
  release 0
  step1 (fun t => t.queuesCommand (engineOf f) a f.d)

theorem ecmd_runs (wf : (Instr.ecmd f).wf = true) (plain : isEngine s.cur = false) :
    s.Runs (.ecmd f) (capCheck (s.c f.c) .LC (s.g f.x).toInt 0 >>= fun _ => capCheck (s.c f.c) .S ((s.g f.x).toInt + 127) 0 >>=
      fun _ => ecmdPlace f s) :=
  ⟨exec_ecmd f s, fun engine => absurd (plain.symm.trans engine) Bool.false_ne_true, wf⟩

/-- Handing a block over changes the registers of an engine hart alone (R161). -/
theorem State.handBlock_frame (s : State) (core e : Nat) :
    (s.handBlock core e).cur = s.cur ∧ (s.handBlock core e).cores = s.cores ∧ (s.handBlock core e).mem = s.mem := by
  simp only [State.handBlock]
  split_ifs <;> exact ⟨rfl, rfl, rfl⟩

theorem State.core_setG (s : State) (d : BitVec 5) (x : Word) : (s.setG d x).core = s.core := rfl
theorem State.wordAt_setG (s : State) (d : BitVec 5) (x : Word) (a : Nat) : (s.setG d x).wordAt a = s.wordAt a := rfl
theorem State.wordAt_of_mem (h : t.mem = s.mem) (a : Nat) : t.wordAt a = s.wordAt a := by
  unfold State.wordAt State.bytesAt State.byteAt
  rw [h]
theorem State.coreNo_of_cur (h : t.cur = s.cur) : t.coreNo = s.coreNo := by
  unfold State.coreNo
  rw [h]
theorem State.core_of_same (cur : t.cur = s.cur) (cores : t.cores = s.cores) : t.core = s.core := by
  unfold State.core State.coreAt
  rw [cores, State.coreNo_of_cur cur]

/-- A counter's home takes the sum (R125). -/
theorem State.wordAt_performCounter (s : State) (agent : Agent) (run a : Nat) (inc : Word) :
    (s.performCounter agent run a inc).wordAt a = satAdd (s.wordAt a) inc :=
  State.wordAt_eq fun i hi => by rw [State.byteAt_performCounter, if_pos (by omega), Nat.add_sub_cancel_left]

theorem State.queuesCommand_spec (t : State) (e a : Nat) (d : BitVec 5) :
    ((t.queuesCommand e a d).core.engine e).fifo = (t.core.engine e).fifo ++ [BitVec.ofNat 48 a] ∧
    (t.queuesCommand e a d).wordAt (kickCell t.coreNo e) = satAdd (t.wordAt (kickCell t.coreNo e)) 1 ∧
    (d ≠ 0 → (t.queuesCommand e a d).g d = (t.queuesCommand e a d).wordAt (kickCell t.coreNo e)) := by
  unfold State.queuesCommand
  extract_lets x q b k
  obtain ⟨curB, coresB, memB⟩ : b.cur = t.cur ∧ b.cores = q.cores ∧ b.mem = t.mem := by
    unfold b
    split
    · exact q.handBlock_frame q.coreNo e
    · exact ⟨rfl, rfl, rfl⟩
  have coreB : b.coreNo = t.coreNo := State.coreNo_of_cur curB
  have curK : k.cur = b.cur := State.cur_of_fixed (State.fixed_performCounter _ _ _ _ _)
  have coreK : k.coreNo = t.coreNo := (State.coreNo_of_cur curK).trans coreB
  have coresK : k.cores = b.cores := (State.held_eq_iff.1 (State.held_performCounter _ _ _ _ _)).2
  rw [State.core_setG, State.wordAt_setG, coreK]
  refine ⟨?_, ?_, fun nonzero => (State.g_setG _ _ _ _).trans (if_pos ⟨rfl, nonzero⟩)⟩
  · have core : k.core = t.core.setEngine e { x with fifo := x.fifo ++ [BitVec.ofNat 48 a] } :=
      (State.core_of_same (curK.trans curB : k.cur = q.cur) (coresK.trans coresB)).trans (t.core_setCore _)
    rw [core, Core.engine_setEngine]
  · unfold k
    rw [coreB, State.wordAt_performCounter, State.wordAt_of_mem memB]

section
variable (formed : (s.c f.c).fmt = 0)
include formed

theorem ecmdPlace_elsewhere (far : s.ownLocal (s.c f.c) = false) :
    ecmdPlace f s v = .error (.trap 0x0D ((s.c f.c).base.setWidth 64) .none) v := by
  simp only [ecmdPlace, M.need_bind, formed, far, decide_true, if_true, Bool.false_eq_true, if_false]

variable (own : s.ownLocal (s.c f.c) = true) {a : Nat} (placed : elemAddr (s.c f.c) (s.g f.x).toInt 0 v = .ok a v)
include own placed

theorem ecmdPlace_bind : ecmdPlace f s v = (do
    need (a % 128 = 0) 0x18 (BitVec.ofNat 64 a)
    if 8 ≤ (s.core.engine (engineOf f)).fifo.length then throw .stall
    release 0
    step1 (fun t => t.queuesCommand (engineOf f) a f.d) : M (Option Word)) v := by
  unfold ecmdPlace
  rw [M.need_bind, if_pos (by simpa using formed), M.need_bind, if_pos own]
  exact M.bind_ok placed

theorem ecmdPlace_misaligned (off : a % 128 ≠ 0) : ecmdPlace f s v = .error (.trap 0x18 (BitVec.ofNat 64 a) .none) v := by
  rw [ecmdPlace_bind formed own placed, M.need_bind, if_neg (by simpa using off)]

variable (aligned : a % 128 = 0)
include aligned

theorem ecmdPlace_full (full : 8 ≤ (s.core.engine (engineOf f)).fifo.length) : ecmdPlace f s v = .error .stall v := by
  rw [ecmdPlace_bind formed own placed, M.need_bind, if_pos (by simpa using aligned), if_pos full]
  rfl

theorem ecmdPlace_queues (free : (s.core.engine (engineOf f)).fifo.length < 8) (released : v.releases 0 t) :
    ecmdPlace f s v = .ok none (t.queuesCommand (engineOf f) a f.d) := by
  rw [ecmdPlace_bind formed own placed, M.need_bind, if_pos (by simpa using aligned), if_neg (Nat.not_le.2 free)]
  exact M.bind_ok (release_of_releases released)

end

/-! ### EWAIT -/

theorem ewait_runs (wf : (Instr.ewait f).wf = true) (plain : isEngine s.cur = false) :
    s.Runs (.ewait f) (if (s.wordAt (mailCell s.coreNo (engineOf f))).toNat < (s.g f.d).toNat then
        waitCounter (mailCell s.coreNo (engineOf f)) (s.g f.d)
      else step1 fun u => (if f.ob then u.acquireAll else u).setG f.d (s.wordAt (mailCell s.coreNo (engineOf f)))) :=
  ⟨exec_ewait f s, fun engine => absurd (plain.symm.trans engine) Bool.false_ne_true, wf⟩

/-- A wait at a counter leaves the context at its own PC with its registers as they were (R129). -/
theorem waitCounter_waits (s : State) (pa : Nat) (thresh : Word) : ∃ t, waitCounter pa thresh s = .ok (some s.pc) t ∧
    t.ctx = { s.ctx with susp := some ⟨.counter, BitVec.ofNat 64 pa, thresh, 0, s.tick, none⟩ } := by
  let x := s.suspend .counter (BitVec.ofNat 64 pa) thresh 0 none
  have same : (x.watched pa thresh).ctx = { s.ctx with susp := some ⟨.counter, BitVec.ofNat 64 pa, thresh, 0, s.tick, none⟩ } :=
    (x.watched_frame pa thresh).1.trans (s.ctx_suspend _ _ _ _ _)
  have pc : (x.watched pa thresh).pc = s.pc := by
    rw [State.pc, same]
    rfl
  refine ⟨x.watched pa thresh, ?_, same⟩
  rw [← pc]
  rfl

theorem ewait_reached (wf : (Instr.ewait f).wf = true) (plain : isEngine s.cur = false)
    (reached : (s.g f.d).toNat ≤ (s.wordAt (mailCell s.coreNo (engineOf f))).toNat) :
    s.leaves (.ewait f) ((if f.ob then s.acquireAll else s).setG f.d (s.wordAt (mailCell s.coreNo (engineOf f)))) :=
  (ewait_runs wf plain).leaves (by rw [if_neg (Nat.not_lt.2 reached)]; rfl)
theorem ewait_below (wf : (Instr.ewait f).wf = true) (plain : isEngine s.cur = false)
    (below : (s.wordAt (mailCell s.coreNo (engineOf f))).toNat < (s.g f.d).toNat) : ∃ t, exec (.ewait f) s = .next t ∧
      t.pc = s.pc ∧ t.ctx.r = s.ctx.r ∧ ∃ z, t.ctx.susp = some z ∧ z.reason = .counter ∧ z.thresh = s.g f.d := by
  obtain ⟨t, waits, same⟩ := waitCounter_waits s (mailCell s.coreNo (engineOf f)) (s.g f.d)
  have ctx : (t.setPc s.pc).ctx = { t.ctx with pc := s.pc } := t.ctx_setCtx _
  refine ⟨t.setPc s.pc, (ewait_runs wf plain).jumps (by rw [if_pos below]; exact waits), t.pc_setPc _, ?_, ?_⟩
  · rw [ctx, same]
  · rw [ctx, same]
    exact ⟨_, rfl, rfl, rfl⟩

end

/-- Settles O29: a block that passes the checks enters the FIFO after a release; EWAIT compares the mailbox with its ticket. -/
theorem engineCommandResults : Obligations.EngineCommandResults := by
  intro s f plain c i e a
  refine ⟨fun u v wf loads stores => ?_, fun wf => ⟨ewait_reached wf plain, ewait_below wf plain⟩⟩
  have runs : s.Runs (.ecmd f) fun _ => ecmdPlace f s v :=
    (ecmd_runs wf plain).congr ((M.bind_ok loads).trans (M.bind_ok stores))
  refine ⟨fun shaped => runs.traps ((M.need_bind _ _ _ _ _).trans (if_neg (by simpa using shaped))),
    fun formed far => runs.traps (ecmdPlace_elsewhere formed ?_), fun formed scope core placed => ?_⟩
  · simpa [State.ownLocal] using far
  · have own : s.ownLocal c = true := by simp [State.ownLocal, scope, core]
    exact ⟨fun off => runs.traps (ecmdPlace_misaligned formed own placed off),
      fun aligned full => runs.stalls (ecmdPlace_full formed own placed aligned full),
      fun t aligned free released => ⟨t.queuesCommand e a f.d,
        runs.leaves (ecmdPlace_queues formed own placed aligned free released), t.queuesCommand_spec e a f.d⟩⟩

end Sys2Proof.Machine
end

section
/-! SEND, the ring instructions and KSEND (R176 to R178), the delivery of a message (R175, R176) and a pair at its bins (R178). -/

namespace Sys2Proof.Machine
set_option Elab.async false

section
variable {s u v w : State} {f : QFields}

/-- The message instructions are of the engine profile (R159). -/
theorem State.accepts_message {i : Instr} {fn5 : BitVec 5} (words : encode i = Enc.q fn5 4 f) (wf : i.wf = true) : s.accepts i := by
  obtain ⟨-, -, -, major, length⟩ := Enc.q_eq_iff.1 (rfl : Enc.q fn5 4 f = [_, _])
  refine ⟨fun _ => ?_, wf⟩
  unfold inProfile
  rw [words]
  unfold Enc.q parcelInProfile
  dsimp only
  rw [length, major]
  rfl

/-! ### Rings -/

/-- The ring that an instruction names (R177). -/
def namedRing (f : QFields) : Nat := (f.imm.extractLsb' 0 3).toNat

theorem ringCheck_strict (strict : s.strict = true) (n : Nat) : ringCheck n s = .error (.trap 0x0D s.openEval .none) s := by
  simp only [ringCheck, M.get_bind, M.needOpen_bind, strict, Bool.not_true, Bool.false_eq_true, if_false]
theorem ringCheck_disabled {n : Nat} (loose : s.strict = false) (off : (s.core.ring n).en = false) :
    ringCheck n s = .error (.trap 0x02 s.openEval .none) s := by
  simp only [ringCheck, M.get_bind, M.needOpen_bind, loose, off, Bool.not_false, Bool.false_eq_true, if_false, if_true]
theorem ringCheck_enabled {n : Nat} (loose : s.strict = false) (on : (s.core.ring n).en = true) :
    ringCheck n s = .ok (s.core.ring n) s := by
  simp only [ringCheck, M.get_bind, M.needOpen_bind, loose, on, Bool.not_false, if_true]
  rfl

/-- What RECV does with its ring (R177). -/
def recvFrom (f : QFields) (s : State) (r : RxRing) : M (Option Word) :=
  if r.occupied ≠ 0 then step1 (fun t => t.setG f.d r.oldest)
  else do
    modify (fun t => t.suspend .message (BitVec.ofNat 64 (namedRing f)) 0 0 none)
    pure (some s.pc)
/-- What RECVT does with its ring (R177). -/
def recvtFrom (f : QFields) (s : State) (r : RxRing) : M (Option Word) :=
  if r.occupied ≠ 0 then step1 (fun t => t.setG f.d r.oldest)
  else if (f.imm.extractLsb' 8 24).toNat = 0 then step1 (fun t => t.setG f.d (BitVec.allOnes 64))
  else do
    modify (fun t => t.suspend .message (BitVec.ofNat 64 (namedRing f)) 0 f.d (some (f.imm.extractLsb' 8 24).toNat))
    pure (some s.pc)
/-- What RADV does with its ring (R177). -/
def radvOf (f : QFields) (r : RxRing) : M (Option Word) := do
  needOpen ((f.imm.extractLsb' 8 13).toNat ≤ r.occupied) 0x02
  step1 (fun t => t.setCore (t.core.setRing (namedRing f)
    { r with head := BitVec.ofNat 12 ((r.head.toNat + (f.imm.extractLsb' 8 13).toNat) % r.slots) }))

theorem recv_runs (wf : (Instr.recv f).wf = true) : s.Runs (.recv f) (ringCheck (namedRing f) >>= recvFrom f s) :=
  ⟨rfl, State.accepts_message (rfl : encode (.recv f) = Enc.q 1 4 f) wf⟩
theorem recvt_runs (wf : (Instr.recvt f).wf = true) : s.Runs (.recvt f) (ringCheck (namedRing f) >>= recvtFrom f s) :=
  ⟨rfl, State.accepts_message (rfl : encode (.recvt f) = Enc.q 2 4 f) wf⟩
theorem radv_runs (wf : (Instr.radv f).wf = true) : s.Runs (.radv f) (ringCheck (namedRing f) >>= radvOf f) :=
  ⟨rfl, State.accepts_message (rfl : encode (.radv f) = Enc.q 4 4 f) wf⟩

/-- All three begin with the check of their ring. -/
theorem ring_runs {i : Instr} (kind : i ∈ [Instr.recv f, .recvt f, .radv f]) (wf : i.wf = true) :
    ∃ body, s.Runs i (ringCheck (namedRing f) >>= body) := by
  simp only [List.mem_cons, List.not_mem_nil, or_false] at kind
  rcases kind with rfl | rfl | rfl
  · exact ⟨_, recv_runs wf⟩
  · exact ⟨_, recvt_runs wf⟩
  · exact ⟨_, radv_runs wf⟩
theorem ring_traps {i : Instr} {cause : BitVec 8} {eval : Word} (kind : i ∈ [Instr.recv f, .recvt f, .radv f]) (wf : i.wf = true)
    (failed : ringCheck (namedRing f) s = .error (.trap cause eval .none) s) : s.traps i cause eval := by
  obtain ⟨body, runs⟩ := ring_runs (s := s) kind wf
  exact runs.traps (M.bind_error failed)

section
variable {r : RxRing} (checked : ringCheck (namedRing f) s = .ok r s)
include checked

theorem recv_reads (wf : (Instr.recv f).wf = true) (held : r.occupied ≠ 0) : s.writesG (.recv f) f.d r.oldest :=
  (recv_runs wf).leaves ((M.bind_ok checked).trans (by rw [recvFrom, if_pos held]; rfl))
theorem recvt_reads (wf : (Instr.recvt f).wf = true) (held : r.occupied ≠ 0) : s.writesG (.recvt f) f.d r.oldest :=
  (recvt_runs wf).leaves ((M.bind_ok checked).trans (by rw [recvtFrom, if_pos held]; rfl))

theorem recv_waits (wf : (Instr.recv f).wf = true) (empty : r.occupied = 0) :
    exec (.recv f) s = .next ((s.suspend .message (BitVec.ofNat 64 (namedRing f)) 0 0 none).setPc s.pc) :=
  (recv_runs wf).jumps ((M.bind_ok checked).trans (by rw [recvFrom, if_neg (not_not.2 empty)]; rfl))
theorem recvt_ends (wf : (Instr.recvt f).wf = true) (empty : r.occupied = 0) (now : f.imm.extractLsb' 8 24 = 0) :
    s.writesG (.recvt f) f.d (BitVec.allOnes 64) :=
  (recvt_runs wf).leaves ((M.bind_ok checked).trans (by rw [recvtFrom, if_neg (not_not.2 empty), if_pos (by rw [now]; rfl)]; rfl))
theorem recvt_waits (wf : (Instr.recvt f).wf = true) (empty : r.occupied = 0) (later : f.imm.extractLsb' 8 24 ≠ 0) :
    exec (.recvt f) s = .next ((s.suspend .message (BitVec.ofNat 64 (namedRing f)) 0 f.d
      (some (f.imm.extractLsb' 8 24).toNat)).setPc s.pc) := by
  have cycles : (f.imm.extractLsb' 8 24).toNat ≠ 0 := fun h => later (BitVec.eq_of_toNat_eq h)
  exact (recvt_runs wf).jumps ((M.bind_ok checked).trans (by rw [recvtFrom, if_neg (not_not.2 empty), if_neg cycles]; rfl))

theorem radv_moves (wf : (Instr.radv f).wf = true) (within : (f.imm.extractLsb' 8 13).toNat ≤ r.occupied) :
    s.leaves (.radv f) (s.setCore (s.core.setRing (namedRing f)
      { r with head := BitVec.ofNat 12 ((r.head.toNat + (f.imm.extractLsb' 8 13).toNat) % r.slots) })) :=
  (radv_runs wf).leaves ((M.bind_ok checked).trans (by rw [radvOf, M.needOpen_bind, if_pos (by simpa using within)]; rfl))
theorem radv_refuses (wf : (Instr.radv f).wf = true) (above : r.occupied < (f.imm.extractLsb' 8 13).toNat) :
    s.traps (.radv f) 0x02 s.openEval :=
  (radv_runs wf).traps ((M.bind_ok checked).trans (by rw [radvOf, M.needOpen_bind, if_neg (by simpa using above)]))

end

/-! ### KSEND -/

/-- The pair of a KSEND on its way to `dst` (R178). -/
def State.sendsPair (t : State) (f : QFields) (run core dst : Nat) : State :=
  let u : State := { t with press := { t.press with exchange := t.press.exchange ++
    [.pair run core dst (BitVec.ofNat 3 f.imm.toNat) (t.g f.x) (t.g f.d)] } }
  u.tells t.cur dst [t.plainRequest t.cur 20 4 (localBase dst) 0 ((t.g f.d ++ t.g f.x).setWidth 256)]

/-- The owner of a key among the members of a level (R178). -/
def State.pairOwner (s : State) (f : QFields) (d : Domain) (core : Nat) : Nat :=
  (s.members d f.imm.toNat core).getD (keyOwner (s.g f.x) (s.members d f.imm.toNat core).length) core

/-- What KSEND does once its level is one at all (R178). -/
def ksendOn (f : QFields) (s : State) : M (Option Word) :=
  match agentCore s.cur, (agentCore s.cur).bind s.runOn with
  | some core, some r => do
    need (f.imm.toNat ≤ r.domain.level.toNat) 0x0D (BitVec.ofNat 64 f.imm.toNat)
    step1 fun t => t.sendsPair f r.id.toNat core (s.pairOwner f r.domain core)
  | _, _ => trap 0x0D (BitVec.ofNat 64 f.imm.toNat)

theorem ksend_runs (wf : (Instr.ksend f).wf = true) :
    s.Runs (.ksend f) (need (f.imm.toNat ≤ 4) 0x02 (f.imm.setWidth 64) >>= fun _ => ksendOn f s) :=
  ⟨rfl, State.accepts_message (rfl : encode (.ksend f) = Enc.q 3 4 f) wf⟩

theorem ksend_above (wf : (Instr.ksend f).wf = true) (above : 4 < f.imm.toNat) : s.traps (.ksend f) 0x02 (f.imm.setWidth 64) :=
  (ksend_runs wf).traps ((M.need_bind _ _ _ _ _).trans (if_neg (by simpa using above)))

section
variable {core : Nat} {run : Run} (here : agentCore s.cur = some core) (runs : s.runOn core = some run)
include here runs

theorem ksendOn_eq : ksendOn f s = (do
    need (f.imm.toNat ≤ run.domain.level.toNat) 0x0D (BitVec.ofNat 64 f.imm.toNat)
    step1 fun t => t.sendsPair f run.id.toNat core (s.pairOwner f run.domain core)) := by
  have found : (agentCore s.cur).bind s.runOn = some run := by rw [here]; exact runs
  rw [ksendOn, here, ← here, found, here]

variable (level : f.imm.toNat ≤ 4)
include level

theorem ksend_beyond (wf : (Instr.ksend f).wf = true) (beyond : run.domain.level.toNat < f.imm.toNat) :
    s.traps (.ksend f) 0x0D (f.imm.setWidth 64) := by
  refine (ksend_runs wf).traps (t := s) ((M.need_bind _ _ _ _ _).trans ((if_pos (by simpa using level)).trans ?_))
  rw [ksendOn_eq here runs, M.need_bind, if_neg (by simpa using beyond), BitVec.ofNat_toNat]
theorem ksend_sends (wf : (Instr.ksend f).wf = true) (within : f.imm.toNat ≤ run.domain.level.toNat) :
    s.leaves (.ksend f) (s.sendsPair f run.id.toNat core (s.pairOwner f run.domain core)) := by
  refine (ksend_runs wf).leaves ((M.need_bind _ _ _ _ _).trans ((if_pos (by simpa using level)).trans ?_))
  rw [ksendOn_eq here runs, M.need_bind, if_pos (by simpa using within)]
  rfl

end

/-! ### SEND -/

/-- The destination that SEND names (R176). -/
def namedCore (s : State) (f : QFields) : BitVec 11 := (s.g f.d).extractLsb' 0 11
/-- The bytes that SEND sends (R176). -/
def sendBytes (f : QFields) : Nat := (f.imm.extractLsb' 0 6).toNat
/-- The bytes of an element of SEND's source (R176). -/
def sendSize (s : State) (f : QFields) : Nat := Fmt.size (s.c f.c).fmt.toNat

/-- The fields of g[d] that must be 0 are (R176). -/
def sendFields (s : State) (f : QFields) : Prop := (s.g f.d).extractLsb' 19 45 = 0 ∧ (s.g f.d).extractLsb' 11 5 = 0
/-- The length is 1 to 56 bytes of whole elements (R176). -/
def sendWhole (s : State) (f : QFields) : Prop :=
  sendBytes f ≠ 0 ∧ sendBytes f ≤ 56 ∧ sendSize s f ≠ 0 ∧ sendBytes f % sendSize s f = 0

section
variable {α : Type} (k : Nat → M α)

theorem sendLength_strict (strict : s.strict = true) : (sendLength f >>= k) s = .error (.trap 0x0D 0 .none) s := by
  simp only [sendLength, bind_assoc, M.get_bind, M.need_bind, strict, Bool.not_true, Bool.false_eq_true, if_false]
variable (loose : s.strict = false)
include loose
theorem sendLength_fields (bad : ¬ sendFields s f) : (sendLength f >>= k) s = .error (.trap 0x02 (s.g f.d) .none) s := by
  have refused : ¬ (decide ((s.g f.d).extractLsb' 19 45 = 0) && decide ((s.g f.d).extractLsb' 11 5 = 0)) = true := by
    simpa [sendFields] using bad
  simp only [sendLength, bind_assoc, M.get_bind, M.need_bind, loose, Bool.not_false, if_true, if_neg refused]
variable (good : sendFields s f)
include good
theorem sendLength_eq : (sendLength f >>= k) s =
    (need (sendBytes f ≠ 0 && sendBytes f ≤ 56 && sendSize s f ≠ 0 && sendBytes f % sendSize s f = 0) 0x02
      (BitVec.ofNat 64 (sendBytes f)) >>= fun _ => k (sendBytes f)) s := by
  have passed : (decide ((s.g f.d).extractLsb' 19 45 = 0) && decide ((s.g f.d).extractLsb' 11 5 = 0)) = true := by
    simpa [sendFields] using good
  simp only [sendLength, bind_assoc, M.get_bind, M.need_bind, loose, Bool.not_false, if_true, if_pos passed]
  rfl
theorem sendLength_length (bad : ¬ sendWhole s f) :
    (sendLength f >>= k) s = .error (.trap 0x02 (BitVec.ofNat 64 (sendBytes f)) .none) s := by
  rw [sendLength_eq k loose good, M.need_bind, if_neg (by simpa [sendWhole, and_assoc] using bad)]
theorem sendLength_passes (whole : sendWhole s f) : (sendLength f >>= k) s = k (sendBytes f) s := by
  rw [sendLength_eq k loose good, M.need_bind, if_pos (by simpa [sendWhole, and_assoc] using whole)]

end

/-- The message of a SEND that read these elements (R176, R345). -/
def sentMessage (s : State) (f : QFields) (parts : List Got) : Message :=
  { dst := namedCore s f, ring := (s.g f.d).extractLsb' 16 3, payload := parts.flatMap Got.bytes, poison := parts.flatMap Got.poison }

/-- A message on its way, for whose status the context waits (R176). -/
def State.sends (t : State) (d : BitVec 5) (m : Message) : State :=
  let u := t.suspend .message (0x100#64 ||| m.ring.setWidth 64) 0 d none
  (u.setCtx { u.ctx with sending := some m }).tells u.cur m.dst.toNat (u.messageRecords u.cur m)

/-- SEND past its capability checks (R176). -/
def sendFrom (f : QFields) (s : State) (n : Nat) : M (Option Word) := do
  need (s.ownLocal (s.c f.c)) 0x0D ((s.c f.c).base.setWidth 64)
  need (scopeOfCores s.coreName (namedCore s f).toNat ≤ f.scope.toNat) 0x0D ((namedCore s f).setWidth 64)
  needOpen (!(s.reduced && f.scope = 3)) 0x0D
  let a ← elemAddr (s.c f.c) (s.g f.x).toInt 0
  let parts ← (List.range (n / sendSize s f)).mapM (fun k => loadAny (a + k * sendSize s f) (sendSize s f))
  step1 (fun t => t.sends f.d (sentMessage s f parts))

theorem send_runs (wf : (Instr.send f).wf = true) : s.Runs (.send f) (sendLength f >>= fun n =>
    capCheck (s.c f.c) .L (s.g f.x).toInt 0 >>= fun _ => capCheck (s.c f.c) .L ((s.g f.x).toInt + n / sendSize s f - 1) 0 >>= fun _ =>
      sendFrom f s n) :=
  ⟨rfl, State.accepts_message (rfl : encode (.send f) = Enc.q 0 4 f) wf⟩

theorem State.tells_shape (s : State) (a : Agent) (core : Nat) (rs : List Request) : ∃ L, s.tells a core rs = { s with links := L } :=
  s.sendItems_shape _ _ _

/-- The context waits with its message, and its registers and memory stay (R176). -/
theorem State.sends_frame (t : State) (d : BitVec 5) (m : Message) : (t.sends d m).mem = t.mem ∧
    (t.sends d m).ctx = { t.ctx with
      susp := some ⟨.message, 0x100#64 ||| m.ring.setWidth 64, 0, d, t.tick, none⟩, sending := some m } := by
  unfold State.sends
  extract_lets u
  obtain ⟨L, shape⟩ := (u.setCtx { u.ctx with sending := some m }).tells_shape u.cur m.dst.toNat (u.messageRecords u.cur m)
  rw [shape]
  refine ⟨rfl, (u.ctx_setCtx _).trans ?_⟩
  rw [t.ctx_suspend]

section
variable (wf : (Instr.send f).wf = true)
include wf

theorem send_strict (strict : s.strict = true) : s.traps (.send f) 0x0D 0 := (send_runs wf).traps (sendLength_strict _ strict)

variable (loose : s.strict = false)
include loose
theorem send_fields (bad : ¬ sendFields s f) : s.traps (.send f) 0x02 (s.g f.d) :=
  (send_runs wf).traps (sendLength_fields _ loose bad)
variable (good : sendFields s f)
include good
theorem send_length (bad : ¬ sendWhole s f) : s.traps (.send f) 0x02 (BitVec.ofNat 64 (sendBytes f)) :=
  (send_runs wf).traps (sendLength_length _ loose good bad)

variable (whole : sendWhole s f) (first : capCheck (s.c f.c) .L (s.g f.x).toInt 0 s = .ok () u)
  (last : capCheck (s.c f.c) .L ((s.g f.x).toInt + sendBytes f / sendSize s f - 1) 0 u = .ok () v)
include whole first last
/-- Past its capability checks SEND does what `sendFrom` says. -/
theorem send_checked : s.Runs (.send f) fun _ => sendFrom f s (sendBytes f) v :=
  (send_runs wf).congr ((sendLength_passes _ loose good whole).trans ((M.bind_ok first).trans (M.bind_ok last)))

end

theorem State.ownLocal_iff (s : State) {c : Cap} :
    s.ownLocal c = true ↔ c.scope = 0 ∧ agentCore s.cur = some (localCore c.base.toNat) := by simp [State.ownLocal]

theorem sendFrom_elsewhere (n : Nat) (far : s.ownLocal (s.c f.c) = false) :
    sendFrom f s n v = .error (.trap 0x0D ((s.c f.c).base.setWidth 64) .none) v := by
  simp only [sendFrom, M.need_bind, far, Bool.false_eq_true, if_false]

section
variable (own : s.ownLocal (s.c f.c) = true)
include own
theorem sendFrom_unreached (n : Nat) (beyond : ¬ scopeOfCores s.coreName (namedCore s f).toNat ≤ f.scope.toNat) :
    sendFrom f s n v = .error (.trap 0x0D ((namedCore s f).setWidth 64) .none) v := by
  rw [sendFrom, M.need_bind, if_pos own, M.need_bind, if_neg (by simpa using beyond)]

variable (reached : scopeOfCores s.coreName (namedCore s f).toNat ≤ f.scope.toNat) (whole : s.reduced = false ∨ f.scope ≠ 3)
  {n a : Nat} (placed : elemAddr (s.c f.c) (s.g f.x).toInt 0 v = .ok a v) {parts : List Got}
  (read : (List.range (n / sendSize s f)).mapM (fun k => loadAny (a + k * sendSize s f) (sendSize s f)) v = .ok parts w)
include reached whole placed read
theorem sendFrom_sends : sendFrom f s n v = .ok none (w.sends f.d (sentMessage s f parts)) := by
  have allowed : (!(s.reduced && decide (f.scope = 3))) = true := by simpa [imp_iff_not_or] using whole
  rw [sendFrom, M.need_bind, if_pos own, M.need_bind, if_pos (by simpa using reached), M.needOpen_bind, if_pos allowed]
  exact (M.bind_ok placed).trans (M.bind_ok read)

end

end

/-! ### What keeps the rings -/

/-- The rings of core `j`. -/
def State.rings (s : State) (j : Nat) : Vector RxRing 8 := (s.coreAt j).rx

section
variable (s : State) (j : Nat)

theorem State.rings_of_held {s t : State} (h : t.held = s.held) (j : Nat) : t.rings j = s.rings j := by
  simp only [State.rings, State.coreAt, (State.held_eq_iff.1 h).2]
theorem State.rings_of_translates {s t : State} (h : s.Translates t) (j : Nat) : t.rings j = s.rings j := by
  obtain ⟨l, shape⟩ := h.core j
  rw [State.rings, shape]
  rfl
theorem State.rings_setCoreAt (k : Nat) (c : Core) (same : c.rx = (s.coreAt k).rx) : (s.setCoreAt k c).rings j = s.rings j := by
  rw [State.rings, State.coreAt_setCoreAt]
  split
  · next here => subst here; exact same
  · rfl

theorem State.rings_deferSaved (core slot : Nat) (sv : SavedCore) (d : Deferred) :
    (s.deferSaved core slot sv d).rings j = s.rings j := by
  unfold State.deferSaved
  split
  · split
    · rfl
    · exact (State.rings_of_held (State.held_writeHome _ _ _) j).trans (s.rings_setCoreAt j _ _ rfl)
  · rfl
theorem State.rings_defer (a : Agent) (run : Nat) (eval : Word) (pc : BitVec 48) : (s.defer a run eval pc).rings j = s.rings j := by
  unfold State.defer
  extract_lets c here
  have kept : here.rings j = s.rings j := by
    unfold here
    split <;> rfl
  cases a with
  | ctx k n =>
    dsimp only
    split_ifs
    · exact kept
    · cases (s.coreAt k).saved with
      | none => rfl
      | some sv =>
        dsimp only
        split_ifs
        · exact s.rings_deferSaved j _ _ _ _
        · rfl
  | sweep | command | port | host => rfl
  | copy | epi | cont | gateway => exact kept

/-- A granule becomes foreign in its core's debug state alone (R375). -/
theorem State.markForeign_eq (a : Agent) (p : Nat) : s.markForeign a p = s ∨
    ∃ k d, s.markForeign a p = s.setCoreAt k { s.coreAt k with dbg := d } := by
  unfold State.markForeign
  dsimp only
  split
  · exact .inl rfl
  · split_ifs
    · exact .inl rfl
    · exact .inl rfl
    · exact .inr ⟨_, _, rfl⟩
theorem State.rings_markForeign (a : Agent) (p : Nat) : (s.markForeign a p).rings j = s.rings j := by
  obtain same | ⟨k, d, marked⟩ := s.markForeign_eq a p
  · rw [same]
  · rw [marked]
    exact s.rings_setCoreAt j k _ rfl

theorem State.rings_failAtomic (p : Piece) (dst : Option (BitVec 5)) (cause : BitVec 8) :
    (s.failAtomic p dst cause).rings j = s.rings j := by
  unfold State.failAtomic
  dsimp only
  split
  · exact s.rings_defer j _ _ _ _
  · split
    · split_ifs
      · rfl
      · split
        · split_ifs
          · exact s.rings_setCoreAt j _ _ rfl
          · rfl
        · rfl
    · rfl

theorem State.rings_perform (p : Piece) : (s.perform p).rings j = s.rings j := by
  unfold State.perform
  dsimp only
  split
  · have written : ((((s.writeLine p).startJob p).written p.agent p.run p.place p.nonAlloc).markForeign p.agent p.place).rings j =
        s.rings j := (State.rings_markForeign _ j _ _).trans (State.rings_of_held ((State.held_written _ _ _ _ _).trans
          ((State.held_startJob _ p).trans (s.held_writeLine p))) j)
    split_ifs
    · exact State.rings_defer _ j _ _ _ _
    · rfl
    · exact written
    · exact written
  · next fn5 wide x cmp dst op =>
    have done := State.rings_of_held (s.held_performAtomic p.agent p.run p.place fn5 wide x cmp) j
    generalize (if dst.isSome = true then Wants.both else Wants.write) = want
    split_ifs
    · exact State.rings_failAtomic _ j _ _ _
    · exact s.rings_failAtomic j _ _ _
    · split
      · exact done
      · exact done
  · split_ifs
    · exact State.rings_failAtomic _ j _ _ _
    · exact s.rings_failAtomic j _ _ _
    · exact State.rings_of_held (s.held_performCounter _ _ _ _) j

theorem State.rings_deliver (p : Piece) : (s.deliver p).rings j = s.rings j :=
  (State.rings_perform _ j _).trans (State.rings_of_held ((State.held_setQueues _ _ _).trans (s.held_acknowledge p)) j)
theorem State.rings_settle (a : Agent) (place len : Nat) : (s.settle a place len).rings j = s.rings j := by
  unfold State.settle
  dsimp only
  split
  · exact (foldl_keeps (State.rings · j) State.deliver (fun s p => s.rings_deliver j p) _ _).trans
      (State.rings_of_held (s.held_drainWhere a _) j)
  · rfl
theorem State.rings_logAgain (core : Nat) (e : SideEntry) (epoch : Nat) : (s.logAgain core e epoch).rings j = s.rings j :=
  s.rings_setCoreAt j _ _ rfl
theorem State.rings_coreStore (core run : Nat) (a : Agent) (va : Nat) (x : BitVec 512 × BitVec 512) :
    (s.coreStore core run a va x).rings j = s.rings j := by
  unfold State.coreStore
  dsimp only
  split
  · have walked := State.rings_of_translates (s.translates_translated (.copy core) va ‹_›) j
    split_ifs
    · exact walked
    · exact (State.rings_perform _ j _).trans ((State.rings_settle _ j _ _ _).trans walked)
  · refine (State.rings_defer _ j _ _ _ _).trans ?_
    split_ifs <;> rfl
  · exact (State.rings_logAgain _ j _ _ _).trans (State.rings_of_held (s.held_requestPage _ _ _) j)
  · exact s.rings_logAgain j _ _ _
theorem State.rings_checkArrival (core : Nat) : (s.checkArrival core).rings j = s.rings j := by
  unfold State.checkArrival
  dsimp only
  split
  · rfl
  · split
    · exact s.rings_setCoreAt j _ _ rfl
    · split
      · split
        · rfl
        · exact s.rings_setCoreAt j _ _ rfl
      · rfl
theorem State.rings_makeReady (core : Nat) (p : Parked) : (s.makeReady core p).rings j = s.rings j := by
  unfold State.makeReady
  extract_lets t e c units u d under c'
  have start : u.rings j = s.rings j := (t.rings_setCoreAt j core _ (by rfl)).trans (s.rings_coreStore j _ _ _ _ _)
  split_ifs
  · exact (u.rings_setCoreAt j core _ (by rfl)).trans start
  · exact (State.rings_checkArrival _ j _).trans start
  · exact (u.rings_setCoreAt j core _ (by rfl)).trans start
  · exact (u.rings_setCoreAt j core _ (by rfl)).trans start

/-- A resident that waits for a message in ring `n` waits no more, and its IDLE is over (R177, R313). -/
def State.wakesResident (n : Nat) (s : State) (a : Agent) : State :=
  let c := s.ctxOf a
  let w := match c.susp with | some w => if w.onRing n then none else some w | none => none
  s.setCtxOf a { c with susp := w, idle := none }
/-- All residents of a core are woken so. -/
def State.residentsWoken (s : State) (core n : Nat) : State :=
  [Agent.ctx core 0, .ctx core 1, .ctx core 2, .ctx core 3, .copy core, .epi core].foldl (State.wakesResident n) s
theorem State.tailMoved_eq (core n : Nat) : s.tailMoved core n =
    (((s.residentsWoken core n).coreAt core).u.waiting.filter (fun p => p.susp.onRing n)).foldl (fun s p => s.makeReady core p)
      (s.residentsWoken core n) := rfl
theorem State.foldl_wakesResident_shape (n : Nat) (as : List Agent) (s : State) :
    ∃ c, as.foldl (State.wakesResident n) s = { s with ctxs := c } := by
  induction as generalizing s with
  | nil => exact ⟨s.ctxs, rfl⟩
  | cons a rest ih => exact ih (s.wakesResident n a)
theorem State.residentsWoken_shape (core n : Nat) : ∃ c, s.residentsWoken core n = { s with ctxs := c } :=
  State.foldl_wakesResident_shape n _ s
theorem State.rings_tailMoved (core n : Nat) : (s.tailMoved core n).rings j = s.rings j := by
  obtain ⟨c, shape⟩ := s.residentsWoken_shape core n
  rw [State.tailMoved_eq]
  refine (foldl_keeps (State.rings · j) _ (fun s p => s.rings_makeReady j core p) _ _).trans ?_
  rw [shape]
  rfl
/-- Where no written-back continuation waits for the ring, only contexts change. -/
theorem State.tailMoved_shape {core n : Nat} (idle : (s.coreAt core).u.waiting.all (fun p => !p.susp.onRing n) = true) :
    ∃ c, s.tailMoved core n = { s with ctxs := c } := by
  obtain ⟨c, shape⟩ := s.residentsWoken_shape core n
  have nobody : ((s.residentsWoken core n).coreAt core).u.waiting.filter (fun p => p.susp.onRing n) = [] := by
    rw [shape]
    exact List.filter_eq_nil_iff.2 fun p waits => by simpa using List.all_eq_true.1 idle p waits
  exact ⟨c, by rw [State.tailMoved_eq, nobody, List.foldl_nil, shape]⟩

end

/-! ### The delivery of a message -/

section
variable (s : State)

theorem State.mem_markForeign (a : Agent) (p : Nat) :
    (s.markForeign a p).mem = s.mem ∧ (s.markForeign a p).tags = s.tags := by
  obtain same | ⟨k, d, marked⟩ := s.markForeign_eq a p
  · rw [same]
    exact ⟨rfl, rfl⟩
  · rw [marked]
    exact ⟨rfl, rfl⟩
theorem State.waiting_markForeign (a : Agent) (p k : Nat) :
    ((s.markForeign a p).coreAt k).u.waiting = (s.coreAt k).u.waiting := by
  obtain same | ⟨j, d, marked⟩ := s.markForeign_eq a p
  · rw [same]
  · rw [marked, State.coreAt_setCoreAt]
    split
    · next here => subst here; rfl
    · rfl

/-- The granules named lose their tags, and no other does (R57). -/
theorem State.tagAt_foldl_setTag (a n x : Nat) : ((List.range n).foldl (fun s i => s.setTag (a + 32 * i) false) s).tagAt x =
    if a / 32 ≤ x / 32 ∧ x / 32 < a / 32 + n then false else s.tagAt x := by
  induction n with
  | zero => rw [if_neg (by omega)]; rfl
  | succ n ih =>
    rw [List.range_succ, List.foldl_append, List.foldl_cons, List.foldl_nil, State.tagAt_setTag, ih]
    by_cases last : x / 32 = a / 32 + n
    · rw [if_pos (by omega), if_pos (by omega)]
    · rw [if_neg (by omega)]
      exact if_congr (by omega) rfl rfl
theorem State.tagAt_writeHome {a x : Nat} {bs : List Byte} (low : a ≤ x) (high : x < a + bs.length) :
    (s.writeHome a bs).tagAt x = false := by
  have poison : (s.writeHome a bs).tags = ((s.setBytes a bs).clearTags a bs.length).tags := by
    refine foldl_keeps State.tags _ (fun t i => ?_) _ _
    dsimp only
    split <;> rfl
  rw [State.tagAt, poison, ← State.tagAt, State.clearTags, if_neg (by omega), State.tagAt_foldl_setTag, if_pos (by omega)]

end

section
variable (m : Message) (scid : BitVec 16) (sender : Nat) (short : m.payload.length ≤ 56)
include short

theorem slotBytes_length : (slotBytes m scid sender).length = 64 := by
  simp only [slotBytes, List.length_append, List.length_replicate, length_leBytes]
  omega
theorem slotBytes_payload {j : Nat} (hj : j < 56) : (slotBytes m scid sender).getD j 0 = m.payload.getD j 0 := by
  have room : (m.payload ++ List.replicate (56 - m.payload.length) (0 : Byte)).length = 56 := by
    rw [List.length_append, List.length_replicate]
    omega
  rw [slotBytes, List.getD_append _ _ _ _ (by omega)]
  by_cases inside : j < m.payload.length
  · rw [List.getD_append _ _ _ _ inside]
  · rw [List.getD_append_right _ _ _ _ (by omega), List.getD_replicate _ (by omega), List.getD_eq_default _ _ (by omega)]
theorem slotBytes_header {j : Nat} (hj : j < 8) : (slotBytes m scid sender).getD (56 + j) 0 =
    BitVec.ofNat 8 ((scid.toNat * 2 ^ 32 + m.payload.length * 2 ^ 16 + sender) / 256 ^ j) := by
  have room : (m.payload ++ List.replicate (56 - m.payload.length) (0 : Byte)).length = 56 := by
    rw [List.length_append, List.length_replicate]
    omega
  rw [slotBytes, List.getD_append_right _ _ _ _ (by omega), room, Nat.add_sub_cancel_left, leBytes_getD hj]

end

/-- The slot of a message written at its place, foreign to the core, its poison with it (R175, R345, R375). -/
def State.slotLands (s : State) (scid : BitVec 16) (sender : Nat) (m : Message) (a : Nat) : State :=
  [0, 32].foldl (fun s o => if ((m.poison.drop o).take 32).any id then s.setPoison (a + o) true else s)
    ((s.writeHome a (slotBytes m scid sender)).markForeign (.copy sender) a)

theorem State.slotLands_frame (s : State) (scid : BitVec 16) (sender : Nat) (m : Message) (a : Nat) :
    (s.slotLands scid sender m a).mem = (s.writeHome a (slotBytes m scid sender)).mem ∧
    (s.slotLands scid sender m a).tags = (s.writeHome a (slotBytes m scid sender)).tags ∧
    ∀ k, ((s.slotLands scid sender m a).coreAt k).u.waiting = (s.coreAt k).u.waiting := by
  let w := (s.writeHome a (slotBytes m scid sender)).markForeign (.copy sender) a
  obtain ⟨p, shape⟩ : ∃ p, s.slotLands scid sender m a = { w with poison := p } := by
    unfold State.slotLands
    rw [List.foldl_cons, List.foldl_cons, List.foldl_nil]
    split_ifs <;> exact ⟨_, rfl⟩
  obtain ⟨mem, tags⟩ := (s.writeHome a (slotBytes m scid sender)).mem_markForeign (.copy sender) a
  rw [shape]
  refine ⟨mem, tags, fun k => (State.waiting_markForeign _ _ _ k).trans ?_⟩
  have cores := (State.held_eq_iff.1 (s.held_writeHome a (slotBytes m scid sender))).2
  rw [State.coreAt, cores]
  rfl

theorem Core.ring_setRing (c : Core) (n : Nat) (r : RxRing) : (c.setRing n r).ring n = r := by
  simp [Core.ring, Core.setRing]

/-- Where a message lands in ring `r` of core `dst` (R175). -/
def RxRing.landing (r : RxRing) (dst : Nat) : Nat := localBase dst + r.base.toNat * 64 + 64 * (r.tail.toNat % r.slots)

/-- TAIL one slot on (R176). -/
def RxRing.advanced (r : RxRing) : RxRing := { r with tail := BitVec.ofNat 12 ((r.tail.toNat % r.slots + 1) % r.slots) }

/-- A message that its destination takes: the slot, TAIL, and who waited for it (R175, R176). -/
def State.takesMessage (s : State) (scid : BitVec 16) (sender : Nat) (m : Message) : State :=
  let dst := m.dst.toNat
  let r := (s.coreAt dst).ring m.ring.toNat
  let t := s.slotLands scid sender m (r.landing dst)
  (t.setCoreAt dst ((t.coreAt dst).setRing m.ring.toNat r.advanced)).tailMoved dst m.ring.toNat

section
variable {s : State} {run sender : Nat} {scid : BitVec 16} {m : Message}

theorem State.deliverTo_absent (absent : s.numCores ≤ m.dst.toNat) : s.deliverTo run scid sender m = (0x1202, s) := if_pos absent

variable (there : m.dst.toNat < s.numCores)
include there
theorem State.deliverTo_foreign (foreign : (s.coreAt m.dst.toNat).run ≠ some run) : s.deliverTo run scid sender m = (0x0D02, s) :=
  (if_neg (Nat.not_le.2 there)).trans (if_pos foreign)
variable (same : (s.coreAt m.dst.toNat).run = some run)
include same
theorem State.deliverTo_disabled (off : ((s.coreAt m.dst.toNat).ring m.ring.toNat).en = false) :
    s.deliverTo run scid sender m = (0x0202, s) :=
  (if_neg (Nat.not_le.2 there)).trans ((if_neg (not_not.2 same)).trans (if_pos (by rw [off]; rfl)))
variable (on : ((s.coreAt m.dst.toNat).ring m.ring.toNat).en = true)
include on
theorem State.deliverTo_full (full : ((s.coreAt m.dst.toNat).ring m.ring.toNat).occupied + 1 =
    ((s.coreAt m.dst.toNat).ring m.ring.toNat).slots) : s.deliverTo run scid sender m = (1, s) :=
  (if_neg (Nat.not_le.2 there)).trans ((if_neg (not_not.2 same)).trans ((if_neg (by rw [on]; decide)).trans (if_pos full)))
theorem State.deliverTo_takes (free : ((s.coreAt m.dst.toNat).ring m.ring.toNat).occupied + 1 ≠
    ((s.coreAt m.dst.toNat).ring m.ring.toNat).slots) : s.deliverTo run scid sender m =
      (BitVec.ofNat 64 (2 ^ 16 * (((s.coreAt m.dst.toNat).ring m.ring.toNat).tail.toNat %
        ((s.coreAt m.dst.toNat).ring m.ring.toNat).slots)), s.takesMessage scid sender m) := by
  unfold State.deliverTo State.takesMessage State.slotLands
  extract_lets dst r
  rw [if_neg (Nat.not_le.2 there), if_neg (not_not.2 same), if_neg (by rw [on]; decide), if_neg free]
  rfl

end

section
variable (s : State) (scid : BitVec 16) (sender : Nat) (m : Message)

theorem State.takesMessage_ring : ((s.takesMessage scid sender m).coreAt m.dst.toNat).ring m.ring.toNat =
    ((s.coreAt m.dst.toNat).ring m.ring.toNat).advanced := by
  unfold State.takesMessage
  extract_lets dst r t
  have kept : (((t.setCoreAt dst ((t.coreAt dst).setRing m.ring.toNat r.advanced)).tailMoved dst m.ring.toNat).coreAt dst).rx =
      ((t.coreAt dst).setRing m.ring.toNat r.advanced).rx :=
    (State.rings_tailMoved _ dst _ _).trans (congrArg Core.rx (t.coreAt_setCoreAt_self dst _))
  exact (congrArg (fun v : Vector RxRing 8 => v[m.ring.toNat % 8]'(by omega)) kept).trans (Core.ring_setRing _ _ _)

/-- Where no written-back continuation waits for the ring, the slot is all that changes in memory. -/
theorem State.takesMessage_memory
    (idle : (s.coreAt m.dst.toNat).u.waiting.all (fun p => !p.susp.onRing m.ring.toNat) = true) :
    (s.takesMessage scid sender m).mem =
      (s.writeHome (((s.coreAt m.dst.toNat).ring m.ring.toNat).landing m.dst.toNat) (slotBytes m scid sender)).mem ∧
    (s.takesMessage scid sender m).tags =
      (s.writeHome (((s.coreAt m.dst.toNat).ring m.ring.toNat).landing m.dst.toNat) (slotBytes m scid sender)).tags := by
  unfold State.takesMessage
  extract_lets dst r t
  obtain ⟨mem, tags, waiting⟩ := s.slotLands_frame scid sender m (r.landing dst)
  have nobody : ((t.setCoreAt dst ((t.coreAt dst).setRing m.ring.toNat r.advanced)).coreAt dst).u.waiting.all
      (fun p => !p.susp.onRing m.ring.toNat) = true := by
    rw [State.coreAt_setCoreAt_self]
    exact (congrArg (fun l => List.all l fun p => !p.susp.onRing m.ring.toNat) (waiting dst)).trans idle
  obtain ⟨c, shape⟩ := State.tailMoved_shape _ nobody
  rw [shape]
  exact ⟨mem, tags⟩

end

/-- A slot written at its home, byte by byte (R175). -/
theorem slot_stands {s t : State} {m : Message} {scid : BitVec 16} {sender a : Nat}
    (mem : t.mem = (s.writeHome a (slotBytes m scid sender)).mem) (tags : t.tags = (s.writeHome a (slotBytes m scid sender)).tags)
    (short : m.payload.length ≤ 56) :
    (∀ j, j < 56 → t.byteAt (a + j) = m.payload.getD j 0) ∧
    (∀ j, j < 8 → t.byteAt (a + 56 + j) =
      BitVec.ofNat 8 ((scid.toNat * 2 ^ 32 + m.payload.length * 2 ^ 16 + sender) / 256 ^ j)) ∧
    (∀ x, (x < a ∨ a + 64 ≤ x) → t.byteAt x = s.byteAt x) ∧ t.tagAt a = false ∧ t.tagAt (a + 32) = false := by
  have length := slotBytes_length m scid sender short
  have byte (x : Nat) : t.byteAt x = if a ≤ x ∧ x < a + 64 then (slotBytes m scid sender).getD (x - a) 0 else s.byteAt x := by
    rw [State.byteAt, mem, ← State.byteAt, State.byteAt_writeHome, length]
  have tag {x : Nat} (low : a ≤ x) (high : x < a + 64) : t.tagAt x = false := by
    rw [State.tagAt, tags]
    exact s.tagAt_writeHome low (by rwa [length])
  refine ⟨fun j hj => ?_, fun j hj => ?_, fun x out => (byte x).trans (if_neg (by omega)), tag (by omega) (by omega),
    tag (by omega) (by omega)⟩
  · rw [byte, if_pos (by omega), Nat.add_sub_cancel_left, slotBytes_payload m scid sender short hj]
  · rw [byte, if_pos (by omega), Nat.add_assoc, Nat.add_sub_cancel_left, slotBytes_header m scid sender short hj]

/-! ### A pair at its bins -/

/-- A pair's bin takes the value of R178's table. -/
theorem toNat_binValue (op : BitVec 3) (old : Nat) (value : Word) (small : old < 256 ^ binSize op) :
    (binValue op (BitVec.ofNat 64 old) value).toNat = if op = 0 then (old + value.toNat) % 2 ^ 32
      else if op = 3 then max old value.toNat else (old + value.toNat) % 2 ^ 64 := by
  have below : old < 2 ^ 64 := small.trans_le (by unfold binSize; split <;> decide)
  unfold binValue
  split_ifs with add32 largest less
  · rw [BitVec.toNat_setWidth, BitVec.toNat_add, BitVec.toNat_setWidth, BitVec.toNat_setWidth, BitVec.toNat_ofNat]
    omega
  · rw [BitVec.ult_iff_lt, BitVec.lt_def, BitVec.toNat_ofNat, Nat.mod_eq_of_lt below] at less
    exact (Nat.max_eq_right less.le).symm
  · rw [BitVec.ult_iff_lt, BitVec.lt_def, BitVec.toNat_ofNat, Nat.mod_eq_of_lt below] at less
    rw [BitVec.toNat_ofNat, Nat.mod_eq_of_lt below, Nat.max_eq_left (Nat.not_lt.1 less)]
  · rw [BitVec.toNat_add, BitVec.toNat_ofNat, Nat.mod_eq_of_lt below]

/-- The place of a key's bin (R178). -/
def KeyBins.place (b : KeyBins) (dst : Nat) (key : Word) : Nat :=
  localBase dst + b.base.toNat * 8 + binSize b.op * (key.toNat % (b.nbm1.toNat + 1))

section
variable (s : State) {b : KeyBins} (src dst : Nat) (key value : Word)

theorem State.applyPairIn_disabled (off : b.en = false) : s.applyPairIn b src dst key value = s.count dst 7 1 :=
  if_pos (by rw [off]; rfl)
theorem State.byteAt_applyPairIn (on : b.en = true) (x : Nat) : (s.applyPairIn b src dst key value).byteAt x =
    if b.place dst key ≤ x ∧ x < b.place dst key + binSize b.op then
      (leBytes (binSize b.op) (binValue b.op (BitVec.ofNat 64 (leNat (s.bytesAt (b.place dst key) (binSize b.op)))) value).toNat).getD
        (x - b.place dst key) 0
    else s.byteAt x := by
  unfold State.applyPairIn
  rw [if_neg (by rw [on]; decide)]
  extract_lets n a old
  rw [State.byteAt, (State.mem_markForeign _ _ _).1, ← State.byteAt, State.byteAt_clearTags, State.byteAt_setBytes, length_leBytes]
  rfl

/-- At enabled bins the key's bin takes its value, and no other byte changes (R178). -/
theorem State.bin_stands (on : b.en = true) :
    let n := binSize b.op
    let a := b.place dst key
    let old := leNat (s.bytesAt a n)
    let new := if b.op = 0 then (old + value.toNat) % 2 ^ 32 else if b.op = 3 then max old value.toNat
      else (old + value.toNat) % 2 ^ 64
    (∀ j, j < n → (s.applyPairIn b src dst key value).byteAt (a + j) = BitVec.ofNat 8 (new / 256 ^ j)) ∧
    (∀ x, (x < a ∨ a + n ≤ x) → (s.applyPairIn b src dst key value).byteAt x = s.byteAt x) := by
  intro n a old new
  have length : (s.bytesAt a n).length = n := by rw [State.bytesAt, List.length_map, List.length_range]
  have small : old < 256 ^ n := length ▸ leNat_lt (s.bytesAt a n)
  refine ⟨fun j hj => ?_, fun x out => (s.byteAt_applyPairIn src dst key value on x).trans (if_neg (by omega))⟩
  rw [s.byteAt_applyPairIn src dst key value on, if_pos (by omega), Nat.add_sub_cancel_left, leBytes_getD hj,
    toNat_binValue b.op old value small]

end

/-- Settles O30: each instruction by the lemmas about its checks; a delivery by its frame, a pair by its bytes. -/
theorem messageResults : Obligations.MessageResults := by
  refine ⟨fun s f => ?_, fun s f => ⟨fun i kind wf => ⟨fun strict => ?_, fun loose off => ?_⟩, fun loose on => ?_⟩, fun s f wf => ?_,
    fun s run scid sender m => ?_, fun s b src dst key value => ?_⟩
  · intro c i n size dst fields length wf
    refine ⟨send_strict wf, send_fields wf, send_length wf, fun u v loose good whole first last => ?_⟩
    intro own reaches
    have checked := send_checked wf loose good whole first last
    refine ⟨fun far => checked.traps (sendFrom_elsewhere _ ?_), fun here beyond => checked.traps (sendFrom_unreached ?_ _ beyond),
      fun w a parts here reached wide placed read => ⟨w.sends f.d (sentMessage s f parts),
        checked.leaves (sendFrom_sends ?_ reached wide placed read), ?_⟩⟩
    · exact Bool.eq_false_iff.2 (mt s.ownLocal_iff.1 far)
    · exact s.ownLocal_iff.2 here
    · exact s.ownLocal_iff.2 here
    · obtain ⟨mem, ctx⟩ := w.sends_frame f.d (sentMessage s f parts)
      rw [ctx]
      exact ⟨rfl, mem, ⟨_, rfl, rfl, rfl⟩, rfl⟩
  · exact ring_traps kind wf (ringCheck_strict strict _)
  · exact ring_traps kind wf (ringCheck_disabled loose off)
  · have checked : ringCheck (namedRing f) s = .ok (s.core.ring (namedRing f)) s := ringCheck_enabled loose on
    exact ⟨fun held => ⟨fun wf => recv_reads checked wf held, fun wf => recvt_reads checked wf held⟩,
      fun empty => ⟨fun wf => recv_waits checked wf empty, fun wf => ⟨recvt_ends checked wf empty, recvt_waits checked wf empty⟩⟩,
      fun wf => ⟨radv_moves checked wf, radv_refuses checked wf⟩⟩
  · exact ⟨ksend_above wf, fun core run level here runs => ⟨ksend_beyond here runs level wf, ksend_sends here runs level wf⟩⟩
  · intro dst k r slots n used d
    refine ⟨State.deliverTo_absent, State.deliverTo_foreign, fun there same => ⟨State.deliverTo_disabled there same,
      State.deliverTo_full there same, fun on free => ?_⟩⟩
    have takes : d = (BitVec.ofNat 64 (2 ^ 16 * n), s.takesMessage scid sender m) := State.deliverTo_takes there same on free
    have ring := s.takesMessage_ring scid sender m
    rw [takes]
    refine ⟨rfl, congrArg RxRing.tail ring, (congrArg RxRing.head ring :), fun nobody short => ?_⟩
    obtain ⟨mem, tags⟩ := s.takesMessage_memory scid sender m nobody
    exact slot_stands mem tags short
  · exact ⟨s.applyPairIn_disabled src dst key value, fun on => s.bin_stands src dst key value on⟩

end Sys2Proof.Machine
end

section
/-! What an operation on one element computes: exact integers that wrap or saturate, floating-point values rounded once (O34;
R182, R183, R189, R236, R237). -/

namespace Sys2Proof.Machine
set_option Elab.async false

/-! ### Integer formats (R183) -/

theorem isF_of_isI {ty : Nat} (integer : Fmt.isI ty = true) : Fmt.isF ty = false := by
  simp only [Fmt.isI, Fmt.isF, Bool.or_eq_true, Bool.and_eq_true, decide_eq_true_eq, beq_iff_eq, Bool.and_eq_false_iff,
    decide_eq_false_iff_not] at integer ⊢
  omega

/-- Only codes that name no element of whole bytes, S4 apart, have no bits. -/
theorem elemBits_pos {ty : Nat} (integer : Fmt.isI ty = true) : 0 < elemBits ty := by
  have codes : ty ≤ 0x0F := by
    simp only [Fmt.isI, Bool.or_eq_true, Bool.and_eq_true, decide_eq_true_eq, beq_iff_eq] at integer
    omega
  revert integer
  interval_cases ty <;> decide

theorem intMin_nonpos (ty : Nat) : intMin ty ≤ 0 := by
  unfold intMin
  split
  · exact le_rfl
  · exact neg_nonpos.2 (by positivity)

theorem intMax_nonneg (ty : Nat) : 0 ≤ intMax ty := by
  unfold intMax
  split
  · exact sub_nonneg.2 (one_le_pow₀ (by norm_num))
  · exact sub_nonneg.2 (one_le_pow₀ (by norm_num))

/-- What is read of bits lies between the bounds of its format. -/
theorem intRead_mem (ty b : Nat) : intMin ty ≤ intRead ty b ∧ intRead ty b ≤ intMax ty := by
  unfold intMin intMax intRead
  split
  · have below : b % 2 ^ elemBits ty < 2 ^ elemBits ty := Nat.mod_lt _ (by positivity)
    exact ⟨Int.natCast_nonneg _, Int.le_sub_one_of_lt (by exact_mod_cast below)⟩
  · exact ⟨BitVec.le_toInt _, BitVec.toInt_le⟩

/-- An integer of the format's range is read back from its bits. -/
theorem intRead_intBits {ty : Nat} (integer : Fmt.isI ty = true) {n : Int} (lo : intMin ty ≤ n) (hi : n ≤ intMax ty) :
    intRead ty (intBits ty n) = n := by
  unfold intMin at lo
  unfold intMax at hi
  unfold intRead intBits
  split at lo
  · next unsigned =>
    rw [if_pos unsigned] at hi ⊢
    rw [Nat.mod_eq_of_lt (BitVec.isLt _), BitVec.toNat_ofInt, Int.emod_eq_of_lt lo (by push_cast; omega), Int.toNat_of_nonneg lo]
  · next signed =>
    rw [if_neg signed] at hi ⊢
    rw [BitVec.ofNat_toNat, BitVec.setWidth_eq, BitVec.toInt_ofInt_eq_self (elemBits_pos integer) lo (by omega)]

/-! ### Wrapping and saturating (R189) -/

theorem intTail_inside {ty : Nat} {n : Int} (inside : intMin ty ≤ n ∧ n ≤ intMax ty) (sat : Bool) :
    intTail ty sat n = (intBits ty n, {}) := by
  rw [intTail, if_pos (by simpa using inside)]

theorem intTail_outside {ty : Nat} {n : Int} (outside : ¬ (intMin ty ≤ n ∧ n ≤ intMax ty)) (sat : Bool) :
    intTail ty sat n =
      if sat then (intBits ty (if n < intMin ty then intMin ty else intMax ty), { sat := true }) else (intBits ty n, {}) := by
  have low := intMin_nonpos ty
  have high := intMax_nonneg ty
  have below : n < 0 ↔ n < intMin ty := by omega
  rw [intTail, if_neg (by simpa using outside)]
  simp only [below]

/-- An integer in range is its own bits; any other wraps, or with sat becomes the nearest bound and sets SAT. -/
theorem intTail_eq (ty : Nat) (sat : Bool) (n : Int) : intTail ty sat n =
    if intMin ty ≤ n ∧ n ≤ intMax ty then (intBits ty n, {})
    else if sat then (intBits ty (if n < intMin ty then intMin ty else intMax ty), { sat := true })
    else (intBits ty n, {}) := by
  split
  · next inside => exact intTail_inside inside sat
  · next outside => exact intTail_outside outside sat

theorem intRead_intTail {ty : Nat} (integer : Fmt.isI ty = true) (sat : Bool) {n : Int} (lo : intMin ty ≤ n) (hi : n ≤ intMax ty) :
    intRead ty (intTail ty sat n).1 = n := by
  rw [intTail_inside ⟨lo, hi⟩]
  exact intRead_intBits integer lo hi

/-! ### The operations on integers (R236 to R238) -/

/-- The operations of R236 that are not on bit patterns. -/
def VOp.arithmetic : VOp → Bool
  | .add | .sub | .mul | .min | .max => true
  | .and | .or | .xor | .shl | .shr | .sra => false

theorem VOp.elem_int {op : VOp} (arithmetic : op.arithmetic = true) {ty : Nat} (integer : Fmt.isI ty = true) (mode : Mode)
    (sat : Bool) (a b : Nat) : op.elem ty mode sat a b = intTail ty sat (op.int (intRead ty a) (intRead ty b)) := by
  cases op with
  | add | sub | mul | min | max => simp [VOp.elem, isF_of_isI integer]
  | and | or | xor | shl | shr | sra => exact absurd arithmetic Bool.false_ne_true

/-- An exact result in range is what the result's bits read as. -/
theorem intRead_elem {op : VOp} (arithmetic : op.arithmetic = true) {ty : Nat} (integer : Fmt.isI ty = true) (mode : Mode)
    (sat : Bool) {a b : Nat} {n : Int} (result : op.int (intRead ty a) (intRead ty b) = n) (lo : intMin ty ≤ n)
    (hi : n ≤ intMax ty) : intRead ty (op.elem ty mode sat a b).1 = n := by
  rw [VOp.elem_int arithmetic integer, result, intRead_intTail integer sat lo hi]

theorem fusedElem_int {ty : Nat} (integer : Fmt.isI ty = true) (minus : Bool) (mode : Mode) (sat : Bool) (a b c : Nat) :
    fusedElem minus ty mode sat a b c = intTail ty sat (if minus then intRead ty a * intRead ty b - intRead ty c
      else intRead ty a * intRead ty b + intRead ty c) := by
  rw [fusedElem, if_neg (Bool.eq_false_iff.1 (isF_of_isI integer))]

theorem signElem_int {ty : Nat} (integer : Fmt.isI ty = true) (neg sat : Bool) (a : Nat) :
    signElem neg ty sat a = intTail ty sat (if neg then -intRead ty a else |intRead ty a|) := by
  rw [signElem, if_neg (Bool.eq_false_iff.1 (isF_of_isI integer)), Int.abs_eq_natAbs]

/-! ### The operations on floating-point values (R182, R236, R237) -/

/-- An exact result rounded once, its flags with those of the operands (R182, R194). -/
def roundedElem (ty : Nat) (mode : Mode) (sat : Bool) (v : FX × Flags) : Nat × Flags :=
  ((floatTail ty mode sat v.1).1, v.2.join (floatTail ty mode sat v.1).2)

/-- The operations of R236 that round (R233). -/
theorem VOp.elem_rounds {op : VOp} {ty : Nat} (rounds : op.rounds ty = true) (mode : Mode) (sat : Bool) (a b : Nat) :
    op.elem ty mode sat a b = roundedElem ty mode sat (op.flt mode ((floatFmt ty).unpack a) ((floatFmt ty).unpack b)) := by
  obtain ⟨float, kind⟩ := Bool.and_eq_true_iff.1 rounds
  cases op with
  | add | sub | mul => simp [VOp.elem, float, roundedElem]
  | min | max | and | or | xor | shl | shr | sra => exact absurd kind Bool.false_ne_true

theorem fusedElem_flt {ty : Nat} (float : Fmt.isF ty = true) (minus : Bool) (mode : Mode) (sat : Bool) (a b c : Nat) :
    fusedElem minus ty mode sat a b c = roundedElem ty mode sat (fmaF mode ((floatFmt ty).unpack a) ((floatFmt ty).unpack b)
      (if minus then ((floatFmt ty).unpack c).neg else (floatFmt ty).unpack c)) := by
  rw [fusedElem, if_pos float]
  rfl

theorem VOp.elem_min {ty : Nat} (float : Fmt.isF ty = true) (mode : Mode) (sat : Bool) (a b : Nat) :
    VOp.min.elem ty mode sat a b =
      let r := minMaxF false ((floatFmt ty).unpack a) ((floatFmt ty).unpack b)
      ((floatFmt ty).pack r.1, r.2) := by
  simp [VOp.elem, float]

/-- The minimum with a NaN is the other operand, or the canonical NaN (R220). -/
theorem minMaxF_nan_left {p : FVal} (nan : p.isNan = true) (wantMax : Bool) (q : FVal) :
    minMaxF wantMax p q = (if q.isNan then .nan false else q, opFlags [p, q]) := by
  rw [minMaxF, nan]
  cases q.isNan <;> rfl

/-! ### The obligation -/

/-- Settles O34: the integer forms by what a sum, a product or a sign makes of integers that are read, the floating-point ones
as one rounding of an exact result. -/
theorem elementArithmetic : Obligations.ElementArithmetic := by
  unfold Obligations.ElementArithmetic
  intro ty mode sat a b c x y z
  refine ⟨fun integer => ?_, fun float => ?_⟩
  · obtain ⟨loX, hiX⟩ := intRead_mem ty a
    obtain ⟨loY, hiY⟩ := intRead_mem ty b
    exact ⟨intTail_eq ty sat, fun n => intRead_intTail integer sat, VOp.elem_int rfl integer mode sat a b,
      VOp.elem_int rfl integer mode sat a b, VOp.elem_int rfl integer mode sat a b,
      intRead_elem rfl integer mode sat (min_def x y).symm (le_min loX loY) (min_le_of_left_le hiX),
      intRead_elem rfl integer mode sat (max_def x y).symm (le_max_of_le_left loX) (max_le hiX hiY),
      fusedElem_int integer false mode sat a b c, fusedElem_int integer true mode sat a b c,
      signElem_int integer true sat a, signElem_int integer false sat a⟩
  · intro p q r rounded
    have rounds {op : VOp} (h : op = .add ∨ op = .sub ∨ op = .mul) : op.rounds ty = true := by
      rcases h with rfl | rfl | rfl <;> simp [VOp.rounds, float]
    refine ⟨VOp.elem_rounds (rounds (.inl rfl)) mode sat a b, VOp.elem_rounds (rounds (.inr (.inl rfl))) mode sat a b,
      VOp.elem_rounds (rounds (.inr (.inr rfl))) mode sat a b, fusedElem_flt float false mode sat a b c,
      fusedElem_flt float true mode sat a b c, fun nan => ?_⟩
    rw [VOp.elem_min float, minMaxF_nan_left nan]

end Sys2Proof.Machine
end

section
/-! What a written system register reads as, and what its own rule refuses (O9; R186, R197, R198, R221, R269, R270, R304, R334, R335,
R378). -/

namespace Sys2Proof.Machine
set_option Elab.async false

/-! ### What a write leaves (R203) -/

/-- The rest of the machine that no write of a system register changes: memory, the registers of the issuing agent, its PC and
its CID. -/
def State.KeepsRegisters (s t : State) : Prop :=
  t.mem = s.mem ∧ t.ctx.r = s.ctx.r ∧ t.pc = s.pc ∧ t.ctx.sr.cid = s.ctx.sr.cid

theorem State.ctx_setSr (s : State) (x : SysRegs) : (s.setSr x).ctx = { s.ctx with sr := x } := s.ctx_setCtx _
theorem State.keepsRegisters_setSr (s : State) {x : SysRegs} (cid : x.cid = s.ctx.sr.cid) : s.KeepsRegisters (s.setSr x) := by
  rw [State.KeepsRegisters, State.pc, State.ctx_setSr]
  exact ⟨rfl, rfl, rfl, cid⟩
theorem State.keepsRegisters_setCore (s : State) (c : Core) : s.KeepsRegisters (s.setCore c) := ⟨rfl, rfl, rfl, rfl⟩

/-- SR[n] takes `v`, reads `x` then, and nothing else that the agent reads of itself changes. -/
def State.WritesSr (s : State) (n : Nat) (v x : Word) : Prop :=
  ∃ t, sysPut n v s = .ok () t ∧ t.sysGet n = x ∧ s.KeepsRegisters t

/-- A register of the context reads the field that its write has set. -/
theorem State.writesSr_of_setSr {s : State} {n : Nat} {v x : Word} {r : SysRegs} (field : SysRegs → Word)
    (put : sysPut n v s = .ok () (s.setSr r)) (read : ∀ t : State, t.sysGet n = field t.ctx.sr) (value : field r = x)
    (cid : r.cid = s.ctx.sr.cid) : s.WritesSr n v x :=
  ⟨_, put, by rw [read, State.ctx_setSr, value], s.keepsRegisters_setSr cid⟩

/-- A register of the core reads what its write has made of the core. -/
theorem State.writesSr_of_setCore {s : State} {n : Nat} {v x : Word} {c : Core} (field : Core → Word)
    (put : sysPut n v s = .ok () (s.setCore c)) (read : ∀ t : State, t.sysGet n = field t.core) (value : field c = x) : s.WritesSr n v x :=
  ⟨_, put, by rw [read, State.core_setCore, value], s.keepsRegisters_setCore c⟩

/-! ### The low bits of a value -/

/-- A field of the low `n` bits reads as the value with the others cleared. -/
theorem setWidth_extractLsb'_zero (v : Word) (n : Nat) :
    (v.extractLsb' 0 n).setWidth 64 = v &&& BitVec.ofNat 64 (2 ^ n - 1) := by
  refine BitVec.eq_of_getLsbD_eq fun i hi => ?_
  simp only [BitVec.getLsbD_setWidth, BitVec.getLsbD_extractLsb', BitVec.getLsbD_and, BitVec.getLsbD_ofNat,
    Nat.testBit_two_pow_sub_one, hi, Nat.zero_add, decide_true, Bool.true_and, Bool.and_comm]

/-- XNEXT at bit 1 and XMODE at bit 0 (R304). -/
theorem xmode_word (v : Word) (xnext xmode : Bool) : (0#62 ++ BitVec.ofBool (v.getLsbD 1) ++ BitVec.ofBool xmode : Word) =
    (v &&& 2) ||| ((0#62 ++ BitVec.ofBool xnext ++ BitVec.ofBool xmode) &&& 1) := by
  rw [show v &&& 2 = if v.getLsbD 1 then 2 else 0 from BitVec.and_twoPow v 1]
  cases v.getLsbD 1 <;> cases xnext <;> cases xmode <;> rfl

/-! ### Registers with a check of their own -/

/-- TVEC with EN and an address that is no multiple of 4 (R334). -/
def tvecBad (v : Word) : Bool := v.getLsbD 63 && v.extractLsb' 0 2 ≠ 0
theorem tvecBad_iff (v : Word) : tvecBad v = true ↔ v.getLsbD 63 = true ∧ v.extractLsb' 0 2 ≠ 0 := by simp [tvecBad]
theorem sysPut_tvec (v : Word) (s : State) : sysPut 0x004 v s = if (!tvecBad v) = true then
      .ok () (s.setSr { s.ctx.sr with tvec := v &&& 0x8000FFFFFFFFFFFF })
    else .error (.trap 0x02 v .none) s :=
  M.need_bind _ _ _ _ _

/-- The elements of the shape that a VSHAPE value names (R221). -/
def shapeElems (v : Word) : Nat := ((v.extractLsb' 0 6).toNat + 1) * ((v.extractLsb' 6 8).toNat + 1)
theorem sysPut_vshape (v : Word) (s : State) : sysPut 0x007 v s = if shapeElems v ≤ s.vbytes then
      .ok () (s.setSr { s.ctx.sr with vshape := v &&& 0x3FFF })
    else .error (.trap 0x02 v .none) s := by
  show writeVshape v s = _
  rw [writeVshape, M.get_bind, M.need_bind]
  simp only [decide_eq_true_eq]
  rfl

/-! ### Counters (R378, R380) -/

/-- A counter written in the bank that the guest reads. -/
def Core.setPmc (k : Core) (n : Nat) (v : Word) : Core :=
  match k.frozen with
  | none => { k with perf := { k.perf with pmc := k.perf.pmc.set (n % 8) v (by omega) } }
  | some b => { k with frozen := some { b with pmc := b.pmc.set (n % 8) v (by omega) } }

theorem sysPut_pmc {i : Nat} (lt : i < 8) (v : Word) (s : State) :
    sysPut (0x061 + i) v s = .ok () (s.setCore (s.core.setPmc i v)) := by
  have put : sysPut (0x061 + i) v = writePmc i v := by interval_cases i <;> rfl
  rw [put, writePmc, M.modify_eq, Core.setPmc]
  cases held : s.core.frozen <;> simp only [held]

theorem Core.guestPerf_setPmc {i : Nat} (lt : i < 8) (k : Core) (v : Word) : (k.setPmc i v).guestPerf.pmc[i] = v := by
  have own : i % 8 = i := Nat.mod_eq_of_lt lt
  unfold Core.setPmc
  split
  · next held => simp [Core.guestPerf, held, own]
  · simp [Core.guestPerf, own]

theorem State.sysGet_pmc {i : Nat} (lt : i < 8) (s : State) : s.sysGet (0x061 + i) = s.core.guestPerf.pmc[i] := by
  interval_cases i <;> rfl

/-! ### WALLOC (R197, R198) -/

/-- Clearing keys from `a` up, but for those to keep. -/
theorem Sparse.get_foldl_clear (keep : Nat → Bool) (l : Sparse (BitVec 32)) (a n j : Nat) :
    Sparse.get 0 ((List.range n).foldl (fun w i => if keep (a + i) then w else Sparse.put 0 w (a + i) 0) l) j =
      if (a ≤ j ∧ j < a + n) ∧ keep j = false then 0 else Sparse.get 0 l j := by
  induction n with
  | zero => exact (if_neg (by omega)).symm
  | succ n ih =>
    rw [List.range_succ, List.foldl_append, List.foldl_cons, List.foldl_nil]
    have more : (a ≤ j ∧ j < a + (n + 1)) ↔ j = a + n ∨ (a ≤ j ∧ j < a + n) := by omega
    by_cases last : j = a + n
    · subst last
      cases kept : keep (a + n) with
      | false => simp
      | true => simpa [kept] using ih
    · have other (w : Sparse (BitVec 32)) :
          Sparse.get 0 (if keep (a + n) then w else Sparse.put 0 w (a + n) 0) j = Sparse.get 0 w j := by
        split
        · rfl
        · exact Sparse.get_put_other _ _ _ last
      rw [other, ih]
      simp [more, last]

/-- The window file after a new allocation: the entries that it adds are zero (R198). -/
def reallocated (old new : Nat × Nat) (w : Sparse (BitVec 32)) : Sparse (BitVec 32) :=
  (List.range (new.2 - new.1)).foldl (fun w i =>
    if decide (old.1 ≤ new.1 + i) && decide (new.1 + i < old.2) then w else Sparse.put 0 w (new.1 + i) 0) w

theorem get_reallocated {old new : Nat × Nat} (w : Sparse (BitVec 32)) {e : Nat} (lo : new.1 ≤ e) (hi : e < new.2) :
    Sparse.get 0 (reallocated old new w) e = if old.1 ≤ e ∧ e < old.2 then Sparse.get 0 w e else 0 := by
  refine (Sparse.get_foldl_clear (fun e => decide (old.1 ≤ e) && decide (e < old.2)) w new.1 _ e).trans ?_
  by_cases kept : old.1 ≤ e ∧ e < old.2
  · rw [if_pos kept, if_neg (by simp [kept])]
  · rw [if_neg kept, if_pos ⟨⟨lo, by omega⟩, by simpa using kept⟩]

/-- The core after a write of WALLOC. -/
def State.reallocatedCore (s : State) (v : Word) : Core :=
  { s.core with
    walloc := s.core.walloc.set (s.slot % 4) (v &&& 0x7FFFF) (by omega),
    window := reallocated (s.wbase, s.wbase + s.wsize) (wallocSpan v) s.core.window }

/-- The allocation that a context holds, as the register's fields give it (R197). -/
theorem State.wallocSpan_own (s : State) :
    wallocSpan (s.core.walloc[s.slot % 4]'(by omega)) = (s.wbase, s.wbase + s.wsize) := by
  simp [wallocSpan, State.wbase, State.wsize, Nat.shiftRight_eq_div_pow]

theorem sysPut_walloc_core {v : Word} {s : State} (ok : s.wallocOk v = true) :
    sysPut 0x006 v s = .ok () (s.setCore (s.reallocatedCore v)) := by
  show writeWalloc v s = _
  rw [writeWalloc, M.get_bind, M.need_bind, if_pos ok, s.wallocSpan_own]
  rfl

/-! ### The obligation -/

/-- Settles O9: each register by what its write makes of the context or of the core, and what its number reads of it. -/
theorem sysRegisterWrites : Obligations.SysRegisterWrites := by
  unfold Obligations.SysRegisterWrites
  intro s v kept reads refuses
  refine ⟨rfl, ?cause, ?epc, ?eval, fun ok => ?tvec, fun enabled odd => ?tvecBad, fun small => ?vshape, fun large => ?vshapeBad,
    ?fcsr, ?vprog, ?mflags, ?xmode, rfl, fun i lt => ?pmc, fun bad => ⟨s, sysPut_walloc_refused bad⟩, fun ok => ?walloc⟩
  case cause => exact State.writesSr_of_setSr SysRegs.cause rfl (fun _ => rfl) rfl rfl
  case epc => exact State.writesSr_of_setSr (fun r => r.epc.setWidth 64) rfl (fun _ => rfl) (setWidth_extractLsb'_zero v 48) rfl
  case eval => exact State.writesSr_of_setSr SysRegs.eval rfl (fun _ => rfl) rfl rfl
  case tvec =>
    have put := (sysPut_tvec v s).trans (if_pos (by simpa using mt (tvecBad_iff v).1 ok))
    exact State.writesSr_of_setSr SysRegs.tvec put (fun _ => rfl) rfl rfl
  case tvecBad => exact ⟨s, (sysPut_tvec v s).trans (if_neg (by simpa using (tvecBad_iff v).2 ⟨enabled, odd⟩))⟩
  case vshape => exact State.writesSr_of_setSr SysRegs.vshape ((sysPut_vshape v s).trans (if_pos small)) (fun _ => rfl) rfl rfl
  case vshapeBad => exact ⟨s, (sysPut_vshape v s).trans (if_neg large)⟩
  case fcsr => exact State.writesSr_of_setSr SysRegs.fcsr rfl (fun _ => rfl) rfl rfl
  case vprog => exact State.writesSr_of_setSr (fun r => r.vprog.setWidth 64) rfl (fun _ => rfl) (setWidth_extractLsb'_zero v 16) rfl
  case mflags => exact State.writesSr_of_setSr (fun r => r.mflags.setWidth 64) rfl (fun _ => rfl) (setWidth_extractLsb'_zero v 3) rfl
  case xmode =>
    exact State.writesSr_of_setCore (fun k => 0#62 ++ BitVec.ofBool k.xnext ++ BitVec.ofBool k.xmode) rfl (fun _ => rfl)
      (xmode_word v s.core.xnext s.core.xmode)
  case pmc =>
    exact State.writesSr_of_setCore (fun k => k.guestPerf.pmc[i]) (sysPut_pmc lt v s) (State.sysGet_pmc lt)
      (Core.guestPerf_setPmc lt s.core v)
  case walloc =>
    refine ⟨_, sysPut_walloc_core ok, ?_, s.keepsRegisters_setCore _, fun e lo hi => ?_⟩
    · show (s.setCore (s.reallocatedCore v)).core.walloc[s.slot % 4]'_ = _
      simp only [State.core_setCore, State.reallocatedCore, Vector.getElem_set_self]
    · show Sparse.get 0 (s.setCore (s.reallocatedCore v)).core.window e = _
      rw [State.core_setCore]
      exact get_reallocated s.core.window lo hi

end Sys2Proof.Machine
end

section
/-! The words that decoding refuses for a field, the scalar instructions that write one register, and the values of the integer
instructions (O1, O2; R18, R30, R159, R208 to R213). -/

namespace Sys2Proof.Machine
set_option Elab.async false

/-! ### Words that decoding refuses (R30) -/

theorem lineFrom_cons (line : BitVec 512) {k : Nat} (inside : k < 16) :
    lineFrom line k = lineWord line k :: lineFrom line (k + 1) := by
  have one : 16 - k = 1 + (16 - (k + 1)) := by omega
  rw [lineFrom, one, List.range_add, List.map_append, List.map_map]
  simp [lineFrom, Function.comp_def, Nat.add_assoc]

theorem length_lineFrom (line : BitVec 512) (k : Nat) : (lineFrom line k).length = 16 - k := by simp [lineFrom]

section
variable {p : Parcel}

/-- A first parcel and what follows it on its line, where the line holds all that the length field asks for. -/
theorem lineFrom_of_word {line : BitVec 512} {k : Nat} (inside : k + (p.extractLsb' 0 2).toNat < 16) (here : lineWord line k = p) :
    ∃ ps, lineFrom line k = p :: ps ∧ (p.extractLsb' 0 2).toNat ≤ ps.length :=
  ⟨lineFrom line (k + 1), by rw [lineFrom_cons line (by omega), here], by rw [length_lineFrom]; omega⟩

/-- A zero field or an unused operand field that is not 0 traps with cause 0x02. -/
theorem trapsAtDecode_of_operand
    (refused : ∀ ps, (p.extractLsb' 0 2).toNat ≤ ps.length → decode (p :: ps) = .error .operand) : TrapsAtDecode p 0x02 := by
  intro line k s context inside here
  obtain ⟨ps, words, enough⟩ := lineFrom_of_word inside here
  refine .inl ?_
  simp only [decodeAt, words, refused ps enough, here, context]
  rfl

/-- A sub-code that the map does not assign traps with cause 0x01 outside the legacy majors. -/
theorem trapsAtDecode_of_unassigned (small : (p.extractLsb' 2 6).toNat < 40)
    (refused : ∀ ps, (p.extractLsb' 0 2).toNat ≤ ps.length → decode (p :: ps) = .error .unassigned) : TrapsAtDecode p 0x01 := by
  intro line k s context inside here
  obtain ⟨ps, words, enough⟩ := lineFrom_of_word inside here
  refine .inr ⟨by simp only [decodeAt, words, refused ps enough, here], ?_⟩
  have current : ¬ 40 ≤ (p.extractLsb' 2 6).toNat := by omega
  simp only [execIllegalInstruction, current, decide_false, Bool.and_false, Bool.false_and]
  rfl

/-- A word of one parcel, whatever follows it. -/
theorem trapsAtDecode_of_one (length : p.extractLsb' 0 2 = 0#2) (refused : Dec.one p = .error .operand) : TrapsAtDecode p 0x02 :=
  trapsAtDecode_of_operand fun ps _ => by rw [← List.singleton_append, decode_of_one ps length, refused]; rfl

end

/-- CLZ, CTZ and POPC have no second source (R208). -/
theorem alu_refuses_b {fn : Nat} (lo : 0x16 ≤ fn) (hi : fn ≤ 0x18) (d a : BitVec 5) {b : BitVec 5} (used : b ≠ 0) :
    Dec.alu fn d a b = .error .operand := by
  have unused : (b == 0) = false := beq_false_of_ne used
  interval_cases fn <;> simp only [Dec.alu, Dec.when, unused] <;> rfl

theorem trapsAtDecode_alu {fn9 : BitVec 9} {b a d : BitVec 5} (refused : Dec.alu fn9.toNat d a b = .error .operand) :
    TrapsAtDecode (Enc.a fn9 b a d 0) 0x02 :=
  trapsAtDecode_of_operand fun ps _ => (decode_alu d a b ps fn9).trans (by rw [refused]; rfl)

/-! ### Instructions that write one general register -/

section
variable {s : State} {i : Instr}

/-- The words of one parcel up to major 16 are of the engine profile (R159). -/
theorem inProfile_one {x : BitVec 24} {major : BitVec 6} (a : Agent) (words : encode i = [x ++ major ++ 0#2])
    (small : major.toNat ≤ 16) : inProfile a i = true :=
  inProfile_scalar a words (parcel_len _ _) (by rwa [parcel_major])

theorem State.accepts_one {x : BitVec 24} {major : BitVec 6} (words : encode i = [x ++ major ++ 0#2]) (small : major.toNat ≤ 16)
    (wf : i.wf = true) : s.accepts i :=
  ⟨fun _ => inProfile_one s.cur words small, wf⟩

variable {d : BitVec 5} {f : State → Word} {x : Word}

theorem State.Runs.writesG (h : s.Runs i (step1 fun t => t.setG d (f t))) (value : f s = x) : s.writesG i d x := by
  subst value
  exact h.leaves rfl

theorem writesG_one {y : BitVec 24} {major : BitVec 6} (words : encode i = [y ++ major ++ 0#2])
    (run : exec i s = runInstr i (step1 fun t => t.setG d (f t)) s) (value : f s = x) (small : major.toNat ≤ 16 := by decide)
    (wf : i.wf = true := by rfl) : s.writesG i d x :=
  State.Runs.writesG ⟨run, State.accepts_one words small wf⟩ value

/-- The wide immediates are of the engine profile too (R159, R212). -/
theorem writesG_wide {fn9 : BitVec 9} {y b a : BitVec 5} {p : Parcel} (words : encode i = [Enc.x fn9 y b a 0, p])
    (run : exec i s = runInstr i (step1 fun t => t.setG d (f t)) s) (value : f s = x) (wf : i.wf = true := by rfl) :
    s.writesG i d x := by
  refine State.Runs.writesG ⟨run, fun _ => ?_, wf⟩ value
  obtain ⟨-, -, -, -, major, length⟩ := Enc.x_eq_iff.1 (rfl : Enc.x fn9 y b a 0 = _)
  simp only [inProfile, words, parcelInProfile, major, length]
  rfl

end

/-! ### What the integer instructions compute (R208, R209) -/

/-- A shift takes the low six bits of its second operand. -/
theorem toNat_mod_64 (b : Word) : b.toNat % 64 = (b.extractLsb' 0 6).toNat := by simp

theorem flag_slt (a b : Word) : flag (a.slt b) = if a.toInt < b.toInt then 1 else 0 := if_congr (toInt_slt_iff a b) rfl rfl
theorem flag_ult (a b : Word) : flag (a.ult b) = if a.toNat < b.toNat then 1 else 0 := if_congr (toNat_ult_iff a b) rfl rfl

theorem mul_eq_ofNat (a b : Word) : a * b = BitVec.ofNat 64 (a.toNat * b.toNat) := by
  rw [BitVec.ofNat_mul, BitVec.ofNat_toNat, BitVec.ofNat_toNat, BitVec.setWidth_eq, BitVec.setWidth_eq]

/-- The high half of 128 bits, of the number that they hold. -/
theorem high_eq_ofNat (x : BitVec 128) : x.extractLsb' 64 64 = BitVec.ofNat 64 (x.toNat / 2 ^ 64) := by
  apply BitVec.eq_of_toNat_eq
  rw [BitVec.extractLsb'_toNat, Nat.shiftRight_eq_div_pow, BitVec.toNat_ofNat]

/-- The high half of 128 bits, of the signed number that they hold: its sign moves it by a multiple of 2^64. -/
theorem high_eq_ofInt (x : BitVec 128) : x.extractLsb' 64 64 = BitVec.ofInt 64 (x.toInt / 2 ^ 64) := by
  have small := x.isLt
  rw [high_eq_ofNat]
  apply BitVec.eq_of_toNat_eq
  rw [BitVec.toNat_ofNat, BitVec.toNat_ofInt, BitVec.toInt_eq_toNat_cond]
  omega

theorem mulh_eq (a b : Word) :
    BitVec.ofInt 64 (a.toInt * b.toInt / 2 ^ 64) = (a.signExtend 128 * b.signExtend 128).extractLsb' 64 64 := by
  have lo := BitVec.le_toInt_mul_toInt (x := a) (y := b)
  have hi := BitVec.toInt_mul_toInt_le (x := a) (y := b)
  have whole : (a.signExtend 128 * b.signExtend 128).toInt = a.toInt * b.toInt := by
    rw [BitVec.toInt_mul, BitVec.toInt_signExtend_of_le (by decide), BitVec.toInt_signExtend_of_le (by decide)]
    exact Int.bmod_eq_of_le (by omega) (by omega)
  rw [high_eq_ofInt, whole]

theorem mulhu_eq (a b : Word) :
    BitVec.ofNat 64 (a.toNat * b.toNat / 2 ^ 64) = (a.setWidth 128 * b.setWidth 128).extractLsb' 64 64 := by
  have whole : (a.setWidth 128 * b.setWidth 128).toNat = a.toNat * b.toNat := by
    rw [BitVec.toNat_mul, BitVec.toNat_setWidth_of_le (by decide), BitVec.toNat_setWidth_of_le (by decide)]
    exact Nat.mod_eq_of_lt ((Nat.mul_lt_mul'' a.isLt b.isLt).trans_eq (by norm_num))
  rw [high_eq_ofNat, whole]

theorem slt_zero_iff (a : Word) : a.slt 0 = true ↔ a.toInt < 0 := toInt_slt_iff a 0

/-- The one signed quotient that does not fit. -/
theorem quotientOverflows_iff (a b : Word) : (decide (a = BitVec.intMin 64) && decide (b = BitVec.allOnes 64)) = true ↔
    a.toInt = -2 ^ 63 ∧ b.toInt = -1 := by
  rw [Bool.and_eq_true, decide_eq_true_eq, decide_eq_true_eq, ← BitVec.toInt_inj, ← BitVec.toInt_inj]
  rfl

theorem divS_eq (a b : Word) : divS a b = BitVec.ofInt 64 (if b = 0 then (if a.toInt < 0 then -2 ^ 63 else 2 ^ 63 - 1)
    else if a.toInt = -2 ^ 63 ∧ b.toInt = -1 then 2 ^ 63 - 1 else a.toInt.tdiv b.toInt) := by
  simp only [divS, slt_zero_iff, quotientOverflows_iff]
  split_ifs with zero negative overflow
  · rfl
  · rfl
  · rfl
  · have fits : a ≠ BitVec.intMin 64 ∨ b ≠ -1 := by
      rw [← not_and_or]
      exact fun both => overflow ((quotientOverflows_iff a b).1 (by simpa using both))
    rw [← BitVec.toInt_sdiv_of_ne_or_ne a b fits, BitVec.ofInt_toInt]

theorem remS_eq (a b : Word) : remS a b = BitVec.ofInt 64 (if b = 0 then a.toInt
    else if a.toInt = -2 ^ 63 ∧ b.toInt = -1 then -1 else a.toInt.tmod b.toInt) := by
  simp only [remS, quotientOverflows_iff]
  split_ifs with zero overflow
  · exact BitVec.ofInt_toInt.symm
  · rfl
  · rw [← BitVec.toInt_srem, BitVec.ofInt_toInt]

theorem divU_eq (a b : Word) : (if b = 0 then BitVec.allOnes 64 else a / b) =
    BitVec.ofNat 64 (if b = 0 then 2 ^ 64 - 1 else a.toNat / b.toNat) := by
  split
  · rfl
  · rw [← BitVec.toNat_udiv, BitVec.ofNat_toNat, BitVec.setWidth_eq]
theorem remU_eq (a b : Word) : (if b = 0 then a else a % b) = if b = 0 then a else BitVec.ofNat 64 (a.toNat % b.toNat) := by
  rw [← BitVec.toNat_umod, BitVec.ofNat_toNat, BitVec.setWidth_eq]

/-! ### Counts of bits -/

theorem lt_two_pow_bitLen (n : Nat) : n < 2 ^ bitLen n := by
  unfold bitLen
  split
  · next zero => simp [zero]
  · exact Nat.lt_log2_self
theorem testBit_bitLen {n : Nat} (nonzero : n ≠ 0) : n.testBit (bitLen n - 1) = true := by
  rw [bitLen, if_neg nonzero]
  exact Nat.testBit_log2 nonzero
theorem bitLen_le {n w : Nat} (h : n < 2 ^ w) : bitLen n ≤ w := by
  unfold bitLen
  split
  · exact Nat.zero_le w
  · next nonzero => exact (Nat.log2_lt nonzero).2 h

theorem leadingZeros_spec (x : Word) : ∃ k : Nat, k ≤ 64 ∧ (∀ i, i < k → x.getLsbD (63 - i) = false) ∧
    (k < 64 → x.getLsbD (63 - k) = true) ∧ leadingZeros x = BitVec.ofNat 64 k := by
  have le : bitLen x.toNat ≤ 64 := bitLen_le x.isLt
  refine ⟨64 - bitLen x.toNat, Nat.sub_le .., fun i lt => ?_, fun lt => ?_, rfl⟩
  · exact Nat.testBit_lt_two_pow ((lt_two_pow_bitLen _).trans_le (Nat.pow_le_pow_right (by decide) (by omega)))
  · have nonzero : x.toNat ≠ 0 := fun zero => by simp [zero, bitLen] at lt
    have last : 63 - (64 - bitLen x.toNat) = bitLen x.toNat - 1 := by omega
    rw [last]
    exact testBit_bitLen nonzero

theorem trailingZeros_spec (x : Word) : ∃ k : Nat, k ≤ 64 ∧ (∀ i, i < k → x.getLsbD i = false) ∧
    (k < 64 → x.getLsbD k = true) ∧ trailingZeros x = BitVec.ofNat 64 k := by
  unfold trailingZeros
  cases found : (List.range 64).find? (fun i => x.getLsbD i) with
  | none =>
    have clear := List.find?_range_eq_none.1 found
    exact ⟨64, le_rfl, by simpa using clear, fun lt => absurd lt (lt_irrefl _), rfl⟩
  | some k =>
    obtain ⟨set, inside, clear⟩ := List.find?_range_eq_some.1 found
    exact ⟨k, by simpa using (List.mem_range.1 inside).le, by simpa using clear, fun _ => set, rfl⟩

theorem onesOf_eq (x : Word) : onesOf x = BitVec.ofNat 64 ((List.range 64).countP x.getLsbD) := by
  rw [onesOf, List.countP_eq_length_filter]

theorem minS_eq (a b : Word) : (if b.slt a then b else a) = if a.toInt ≤ b.toInt then a else b := by
  simp only [toInt_slt_iff, ← not_lt, ite_not]
theorem minU_eq (a b : Word) : (if b.ult a then b else a) = if a.toNat ≤ b.toNat then a else b := by
  simp only [toNat_ult_iff, ← not_lt, ite_not]
/-- Of operands that read alike, which are the same word, it does not matter which is taken. -/
theorem ite_lt_eq_ite_le {α : Type} [LinearOrder α] {read : Word → α} (same : Function.Injective read) (a b : Word) :
    (if read a < read b then b else a) = if read a ≤ read b then b else a := by
  rcases lt_trichotomy (read a) (read b) with less | equal | more
  · rw [if_pos less, if_pos less.le]
  · rw [same equal, ite_self, ite_self]
  · rw [if_neg more.not_gt, if_neg more.not_ge]
theorem maxS_eq (a b : Word) : (if a.slt b then b else a) = if a.toInt ≤ b.toInt then b else a := by
  simp only [toInt_slt_iff]
  exact ite_lt_eq_ite_le (fun _ _ => BitVec.eq_of_toInt_eq) a b
theorem maxU_eq (a b : Word) : (if a.ult b then b else a) = if a.toNat ≤ b.toNat then b else a := by
  simp only [toNat_ult_iff]
  exact ite_lt_eq_ite_le (fun _ _ => BitVec.eq_of_toNat_eq) a b

/-! ### The register instructions -/

/-- Settles O1: every row by the value that its body writes. -/
theorem integerResults : Obligations.IntegerResults := by
  unfold Obligations.IntegerResults
  refine ⟨fun s d a b => ?_, fun fn9 b a d lo hi used => trapsAtDecode_alu (alu_refuses_b lo hi d a used)⟩
  intro A B n ovf
  obtain ⟨lead, leadLe, leadClear, leadSet, leadEq⟩ := leadingZeros_spec A
  obtain ⟨trail, trailLe, trailClear, trailSet, trailEq⟩ := trailingZeros_spec A
  exact ⟨writesG_one (encode_add d a b) (exec_add d a b s) rfl, writesG_one (encode_sub d a b) (exec_sub d a b s) rfl,
    writesG_one (encode_and d a b) (exec_and d a b s) rfl, writesG_one (encode_or d a b) (exec_or d a b s) rfl,
    writesG_one (encode_xor d a b) (exec_xor d a b s) rfl, writesG_one (encode_andn d a b) (exec_andn d a b s) rfl,
    writesG_one (encode_sll d a b) (exec_sll d a b s) (congrArg (A <<< ·) (toNat_mod_64 B)),
    writesG_one (encode_srl d a b) (exec_srl d a b s) (congrArg (A >>> ·) (toNat_mod_64 B)),
    writesG_one (encode_sra d a b) (exec_sra d a b s) (congrArg A.sshiftRight (toNat_mod_64 B)),
    writesG_one (encode_slt d a b) (exec_slt d a b s) (flag_slt A B),
    writesG_one (encode_sltu d a b) (exec_sltu d a b s) (flag_ult A B),
    writesG_one (encode_mul d a b) (exec_mul d a b s) (mul_eq_ofNat A B),
    writesG_one (encode_mulh d a b) (exec_mulh d a b s) (mulh_eq A B),
    writesG_one (encode_mulhu d a b) (exec_mulhu d a b s) (mulhu_eq A B),
    writesG_one (encode_div d a b) (exec_div d a b s) (divS_eq A B),
    writesG_one (encode_divu d a b) (exec_divu d a b s) (divU_eq A B),
    writesG_one (encode_rem d a b) (exec_rem d a b s) (remS_eq A B),
    writesG_one (encode_remu d a b) (exec_remu d a b s) (remU_eq A B),
    writesG_one (encode_min d a b) (exec_min d a b s) (minS_eq A B),
    writesG_one (encode_max d a b) (exec_max d a b s) (maxS_eq A B),
    writesG_one (encode_minu d a b) (exec_minu d a b s) (minU_eq A B),
    writesG_one (encode_maxu d a b) (exec_maxu d a b s) (maxU_eq A B),
    ⟨lead, leadLe, leadClear, leadSet, writesG_one (encode_clz d a) (exec_clz d a s) leadEq⟩,
    ⟨trail, trailLe, trailClear, trailSet, writesG_one (encode_ctz d a) (exec_ctz d a s) trailEq⟩,
    writesG_one (encode_popc d a) (exec_popc d a s) (onesOf_eq A),
    writesG_one (encode_sel d a b) (exec_sel d a b s) (ite_not ..)⟩

/-! ### Immediates (R210 to R213) -/

/-- A shift whose kind the map does not assign, or whose fields above it are not zero (R211). -/
theorem trapsAtDecode_shift (imm : BitVec 14) (a d : BitVec 5) :
    (imm.extractLsb' 6 2 = 3 → TrapsAtDecode (Enc.i imm a d 7) 0x01) ∧
    (imm.extractLsb' 6 2 ≠ 3 → imm.extractLsb' 8 6 ≠ 0 → TrapsAtDecode (Enc.i imm a d 7) 0x02) := by
  obtain ⟨field, -, -, major, length⟩ := Enc.i_eq_iff.1 (rfl : Enc.i imm a d 7 = _)
  refine ⟨fun other => trapsAtDecode_of_unassigned (by rw [major]; decide) fun ps _ => ?_, fun kind used =>
    trapsAtDecode_of_one length ?_⟩
  · rw [← List.singleton_append, decode_of_one ps length]
    simp only [Dec.one, field, major, other]
    rfl
  · have kinds : ∀ k : BitVec 2, k ≠ 3 → k = 0 ∨ k = 1 ∨ k = 2 := by decide
    have unused : (imm.extractLsb' 8 6 == 0) = false := beq_false_of_ne used
    simp only [Dec.one, field, major, Dec.when, unused]
    rcases kinds _ kind with k | k | k <;> rw [k] <;> rfl

/-- The wide immediates have no second source, and LI none at all (R212). -/
theorem wide_refuses {fn9 : BitVec 9} {b a : BitVec 5} (small : fn9.toNat ≤ 5) (used : b ≠ 0 ∨ (fn9 = 4 ∧ a ≠ 0)) (d : BitVec 5)
    (imm : Parcel) : Dec.wide 0 fn9.toNat b a d imm = .error .operand := by
  rcases used with used | ⟨rfl, used⟩
  · have unused : (b == 0) = false := beq_false_of_ne used
    generalize fn9.toNat = fn at small
    interval_cases fn <;> simp only [Dec.wide, Dec.when, unused, Bool.false_and] <;> rfl
  · have unused : (a == 0) = false := beq_false_of_ne used
    show Dec.wide 0 4 b a d imm = _
    simp only [Dec.wide, Dec.when, unused, Bool.and_false]
    rfl

theorem trapsAtDecode_wide {fn9 : BitVec 9} {b a d : BitVec 5}
    (refused : ∀ imm, Dec.wide 0 fn9.toNat b a d imm = .error .operand) : TrapsAtDecode (Enc.x fn9 b a d 0) 0x02 := by
  obtain ⟨-, -, -, -, -, length⟩ := Enc.x_eq_iff.1 (rfl : Enc.x fn9 b a d 0 = _)
  refine trapsAtDecode_of_operand fun ps enough => ?_
  rw [length] at enough
  obtain ⟨imm, rest, rfl⟩ := List.exists_cons_of_length_pos enough
  exact (decode_wide d a b rest fn9 imm).trans (by rw [refused]; rfl)

/-- The first parcel of LIL has no field but its destination (R213). -/
theorem trapsAtDecode_lil {z : BitVec 19} {d : BitVec 5} (used : z ≠ 0) : TrapsAtDecode (z ++ d ++ 0#6 ++ 2#2) 0x02 := by
  obtain ⟨fields, length⟩ := append_eq_iff.1 (rfl : z ++ d ++ 0#6 ++ 2#2 = _)
  obtain ⟨operands, major⟩ := extract_eq_append_iff.1 fields
  obtain ⟨zero, -⟩ := extract_eq_append_iff.1 operands
  have unused : (z == 0) = false := beq_false_of_ne used
  refine trapsAtDecode_of_operand fun ps enough => ?_
  rw [length] at enough
  obtain ⟨p1, ps, rfl⟩ := List.exists_cons_of_length_pos (Nat.lt_of_lt_of_le (by decide) enough)
  obtain ⟨p2, rest, rfl⟩ := List.exists_cons_of_length_pos (Nat.le_of_succ_le_succ enough)
  refine (decode_of_three rest length).trans ?_
  simp only [Dec.three, major, zero, Dec.when, unused]
  rfl

/-- LIL is of the engine profile (R159, R213). -/
theorem inProfile_lil (a : Agent) (d : BitVec 5) (imm : BitVec 64) : inProfile a (.lil d imm) = true := by
  obtain ⟨-, -, -, major, length⟩ := Enc.l_eq_iff.1 (rfl : Enc.l d imm = _)
  simp only [inProfile, encode_lil, Enc.l, parcelInProfile, major, length]
  rfl

/-- The words of LIL, whose immediate is its second and third parcel (R213). -/
theorem encode_lil_append (d : BitVec 5) (p1 p2 : Parcel) : Enc.l d (p2 ++ p1) = [0#19 ++ d ++ 0#6 ++ 2#2, p1, p2] := by
  obtain ⟨hd, -, zero, major, length⟩ := Enc.l_eq_iff.1 (rfl : Enc.l d (p2 ++ p1) = _)
  exact Enc.l_eq_iff.2 ⟨hd, rfl, zero, major, length⟩

/-- LIH puts its immediate above the low half of its source (R212). -/
theorem lih_word (a : Word) (imm : BitVec 32) : imm ++ a.extractLsb' 0 32 = (imm.setWidth 64 <<< 32) ||| (a &&& 0xFFFFFFFF) := by
  rw [← BitVec.setWidth_eq (imm ++ a.extractLsb' 0 32), BitVec.setWidth_append_eq_shiftLeft_setWidth_or, setWidth_extractLsb'_zero]
  rfl

/-- Settles O2: as for the register forms, with the decoder's refusals of a kind and of fields. -/
theorem immediateResults : Obligations.ImmediateResults := by
  unfold Obligations.ImmediateResults
  refine ⟨fun s d a imm => ?_, fun s d a n => ?_, fun imm a d => trapsAtDecode_shift imm a d, fun s d a imm => ?_,
    fun fn9 b a d small used => trapsAtDecode_wide (wide_refuses small used d), fun s d p1 p2 => ⟨?_, fun rest => ?_⟩,
    fun z d => trapsAtDecode_lil⟩
  · intro A K
    exact ⟨writesG_one (encode_addi d a imm) (exec_addi d a imm s) rfl,
      writesG_one (encode_andi d a imm) (exec_andi d a imm s) rfl,
      writesG_one (encode_ori d a imm) (exec_ori d a imm s) rfl,
      writesG_one (encode_xori d a imm) (exec_xori d a imm s) rfl,
      writesG_one (encode_slti d a imm) (exec_slti d a imm s) (flag_slt A K),
      writesG_one (encode_sltiu d a imm) (exec_sltiu d a imm s) (flag_ult A K)⟩
  · exact ⟨writesG_one (encode_slli d a n) (exec_slli d a n s) rfl, writesG_one (encode_srli d a n) (exec_srli d a n s) rfl,
      writesG_one (encode_srai d a n) (exec_srai d a n s) rfl⟩
  · intro A K
    exact ⟨writesG_wide (encode_addil d a imm) (exec_addil d a imm s) rfl,
      writesG_wide (encode_andil d a imm) (exec_andil d a imm s) rfl,
      writesG_wide (encode_oril d a imm) (exec_oril d a imm s) rfl,
      writesG_wide (encode_xoril d a imm) (exec_xoril d a imm s) rfl,
      writesG_wide (encode_li d imm) (exec_li d imm s) rfl,
      writesG_wide (encode_lih d a imm) (exec_lih d a imm s) (lih_word A imm)⟩
  · exact State.Runs.writesG ⟨exec_lil d (p2 ++ p1) s, fun _ => inProfile_lil s.cur d (p2 ++ p1), rfl⟩ rfl
  · exact (congrArg (fun ps => decode (ps ++ rest)) (encode_lil_append d p1 p2)).symm.trans (decode_lil d (p2 ++ p1) rest)

end Sys2Proof.Machine
end

section
/-! Branches, jumps and LOOP: a transfer by what the check of its target answers (O3; R20, R21, R214 to R217). -/

namespace Sys2Proof.Machine
set_option Elab.async false

section
variable {s u : State} {t : Word} {i : Instr}

theorem transfer_ok (may : s.mayEnter t u) : transfer t s = .ok (some t) u := by
  obtain ⟨outside, rfl⟩ | ⟨inside, passed⟩ := may
  · rw [transfer, M.get_bind, if_neg (by simp [outside])]
    rfl
  · rw [transfer, M.get_bind, if_pos inside, M.bind_ok (checkTargetM_ok passed)]
    rfl
theorem transfer_bad {cause : BitVec 8} {eval : Word} (inside : s.ctx.fcap.covers t.toNat = true)
    (bad : s.checkTarget t true = .bad cause eval) : transfer t s = .error (.trap cause eval (s.targetNote t cause)) s := by
  rw [transfer, M.get_bind, if_pos inside, M.bind_error (checkTargetM_bad bad)]

theorem State.Runs.trapsAt {body : M (Option Word)} {cause : BitVec 8} {eval : Word} (h : s.Runs i body)
    (stopped : body s = .error (.trap cause eval (s.targetNote t cause)) s) : s.trapsAt i cause eval t := h.stops stopped

/-- A transfer that then writes a register: JAL, JALR, LOOP. -/
def transferWriting (t : Word) (d : BitVec 5) (x : Word) : M (Option Word) := do
  let r ← transfer t
  modify (fun u => u.setG d x)
  pure r

section
variable {d : BitVec 5} {x : Word}

theorem State.Runs.transfersWriting (h : s.Runs i (transferWriting t d x)) :
    (∀ u, s.mayEnter t u → exec i s = .next ((u.setG d x).setPc t)) ∧
    (∀ cause eval, s.ctx.fcap.covers t.toNat = true → s.checkTarget t true = .bad cause eval → s.trapsAt i cause eval t) :=
  ⟨fun _ may => h.jumps (M.bind_ok (transfer_ok may)), fun _ _ inside bad => h.trapsAt (M.bind_error (transfer_bad inside bad))⟩
end

end

/-! ### Branches -/

section
variable {s : State} {cond : Word → Word → Bool} {a b : BitVec 5} {off : BitVec 14} {i : Instr} {major : BitVec 6}

/-- What R214 and R215 say of a branch whose condition is `p`. -/
def State.Branches (s : State) (i : Instr) (p : Prop) (t : Word) : Prop :=
  (¬ p → exec i s = .next (s.setPc (s.nextPc i))) ∧
  (∀ u, p → s.mayEnter t u → exec i s = .next (u.setPc t)) ∧
  (∀ cause eval, p → s.ctx.fcap.covers t.toNat = true → s.checkTarget t true = .bad cause eval → s.trapsAt i cause eval t)

theorem branches_of_cond {p : Prop} (words : encode i = [Enc.i off b a major]) (run : exec i s = runInstr i (branch cond a b off) s)
    (decides : cond (s.g a) (s.g b) = true ↔ p) (small : major.toNat ≤ 16 := by decide) (wf : i.wf = true := by rfl) :
    s.Branches i p (s.pc + 4 * off.signExtend 64) := by
  have runs : s.Runs i (branch cond a b off) := ⟨run, State.accepts_one words small wf⟩
  have taken (holds : p) : branch cond a b off s = transfer (s.pc + 4 * off.signExtend 64) s := by
    rw [branch, M.get_bind, if_pos (decides.2 holds)]
  refine ⟨fun fails => runs.leaves ?_, fun u holds may => runs.jumps ((taken holds).trans (transfer_ok may)),
    fun cause eval holds inside bad => runs.trapsAt ((taken holds).trans (transfer_bad inside bad))⟩
  rw [branch, M.get_bind, if_neg (mt decides.1 fails)]
  rfl

end

/-! The conditions that are the negation of another. -/

theorem not_slt_iff (a b : Word) : (!a.slt b) = true ↔ b.toInt ≤ a.toInt := by
  rw [Bool.not_eq_true', ← Bool.not_eq_true, toInt_slt_iff, not_lt]
theorem not_ult_iff (a b : Word) : (!a.ult b) = true ↔ b.toNat ≤ a.toNat := by
  rw [Bool.not_eq_true', ← Bool.not_eq_true, toNat_ult_iff, not_lt]

/-! ### JAL and JALR -/

section
variable {s : State}

theorem jal_runs (d : BitVec 5) (off : BitVec 19) :
    s.Runs (.jal d off) (transferWriting (s.pc + 4 * off.signExtend 64) d (((s.nextPc (.jal d off)).setWidth 48).setWidth 64)) :=
  State.Runs.congr ⟨exec_jal d off s, State.accepts_one (encode_jal d off) (by decide) rfl⟩ rfl
theorem jalr_runs (d a : BitVec 5) (imm : BitVec 14) :
    s.Runs (.jalr d a imm) (transferWriting (s.g a + 4 * imm.signExtend 64) d (((s.nextPc (.jalr d a imm)).setWidth 48).setWidth 64)) :=
  State.Runs.congr ⟨exec_jalr d a imm s, State.accepts_one (encode_jalr d a imm) (by decide) rfl⟩ rfl

end

/-! ### LOOP -/

section
variable {s : State} {a : BitVec 5} {off : BitVec 14}

theorem accepts_loop (named : a ≠ 0) : s.accepts (.loop a off) :=
  State.accepts_one (encode_loop a off) (by decide) (bne_iff_ne.2 named)

theorem loop_of_zero (zero : a = 0) : exec (.loop a off) s = .next (s.takeTrap 0x02 (Instr.loop a off).p0 0) :=
  runInstr_operand (fun _ => inProfile_one s.cur (encode_loop a off) (by decide)) (by subst zero; rfl)

theorem loop_last (named : a ≠ 0) (last : s.g a = 1) : exec (.loop a off) s = .next (s.after (.loop a off) (s.setG a 0)) := by
  have runs : s.Runs (.loop a off) _ := ⟨exec_loop a off s, accepts_loop named⟩
  refine runs.leaves ?_
  simp only [M.get_bind, last]
  rfl

theorem loop_runs (named : a ≠ 0) (more : s.g a ≠ 1) :
    s.Runs (.loop a off) (transferWriting (s.pc + 4 * off.signExtend 64) a (s.g a - 1)) := by
  have left : s.g a - 1 ≠ 0 := fun zero => more (by rw [← BitVec.sub_add_cancel (s.g a) 1, zero]; rfl)
  refine State.Runs.congr ⟨exec_loop a off s, accepts_loop named⟩ ?_
  rw [M.get_bind]
  dsimp only
  rw [if_pos left]
  rfl

theorem trapsAtDecode_loop {b : BitVec 5} (used : b ≠ 0) : TrapsAtDecode (Enc.i off b a 16) 0x02 := by
  obtain ⟨-, field, -, major, length⟩ := Enc.i_eq_iff.1 (rfl : Enc.i off b a 16 = _)
  have unused : (b == 0) = false := beq_false_of_ne used
  refine trapsAtDecode_of_one length ?_
  simp only [Dec.one, field, major, Dec.when, unused]
  rfl

end

/-! ### The obligation -/

/-- Settles O3: six branches by their conditions, three jumps as a transfer that then writes a register. -/
theorem branchAndJumpResults : Obligations.BranchAndJumpResults := by
  unfold Obligations.BranchAndJumpResults
  refine ⟨fun s a b off => ?branches, fun s d a off imm => ?jumps, fun s a off => ?loop⟩
  case branches =>
    intro A B t r row
    simp only [List.mem_cons, List.not_mem_nil, or_false] at row
    rcases row with rfl | rfl | rfl | rfl | rfl | rfl
    · exact branches_of_cond (encode_beq a b off) (exec_beq a b off s) beq_iff_eq
    · exact branches_of_cond (encode_bne a b off) (exec_bne a b off s) bne_iff_ne
    · exact branches_of_cond (encode_blt a b off) (exec_blt a b off s) (toInt_slt_iff A B)
    · exact branches_of_cond (encode_bge a b off) (exec_bge a b off s) (not_slt_iff A B)
    · exact branches_of_cond (encode_bltu a b off) (exec_bltu a b off s) (toNat_ult_iff A B)
    · exact branches_of_cond (encode_bgeu a b off) (exec_bgeu a b off s) (not_ult_iff A B)
  case jumps =>
    intro r row
    simp only [List.mem_cons, List.not_mem_nil, or_false] at row
    rcases row with rfl | rfl
    · exact (jal_runs d off).transfersWriting
    · exact (jalr_runs d a imm).transfersWriting
  case loop =>
    intro t
    exact ⟨loop_of_zero, loop_last, fun u named more => (loop_runs named more).transfersWriting.1 u,
      fun cause eval named more => (loop_runs named more).transfersWriting.2 cause eval, fun b => trapsAtDecode_loop⟩

end Sys2Proof.Machine
end

section
/-! SYSR and the three instructions that write a system register (O8; R159, R202, R203, R348). -/

namespace Sys2Proof.Machine
set_option Elab.async false

/-! ### The Write column (R202) -/

theorem sysWriteBy_of_large {n : Nat} (large : 0x70 < n) : sysWriteBy n = none := by
  unfold sysWriteBy
  simp only [Bool.or_eq_true, Bool.and_eq_true, decide_eq_true_eq]
  repeat rw [if_neg (by omega)]

/-- A class of the column is a list of numbers, which all lie in the table. -/
theorem sysWriteBy_iff {w : WriteBy} {l : List Nat} (table : ∀ n < 0x71, sysWriteBy n = some w ↔ n ∈ l)
    (within : ∀ n ∈ l, n < 0x71) (n : Nat) : sysWriteBy n = some w ↔ n ∈ l := by
  by_cases small : n < 0x71
  · exact table n small
  · rw [sysWriteBy_of_large (by omega)]
    exact iff_of_false (by simp) (fun mem => small (within n mem))

theorem sysWrite_undefined {n : Nat} (column : sysWriteBy n = none) (v : Word) (s : State) :
    sysWrite n v s = .error (.trap 0x01 (BitVec.ofNat 64 n) .none) s := by
  rw [sysWrite, column]
  rfl
theorem sysWrite_nobody {n : Nat} (column : sysWriteBy n = some .nobody) (v : Word) (s : State) :
    sysWrite n v s = .error (.trap 0x02 (BitVec.ofNat 64 n) .none) s := by
  rw [sysWrite, column]
  rfl
/-- A register that the issuing agent may write: its own rule decides (R203). -/
theorem sysWrite_allowed {n : Nat} {s : State}
    (allowed : (sysWriteBy n = some .root ∧ s.ctx.sr.cid = 1) ∨ sysWriteBy n = some .anyone) (v : Word) :
    sysWrite n v s = sysPut n v s := by
  obtain ⟨column, root⟩ | column := allowed
  · rw [sysWrite_root column, if_pos root]
  · rw [sysWrite, column]

/-! ### SYSR -/

section
variable {s : State} {d a : BitVec 5} {num : BitVec 10}

/-- Engine microcode may read system registers and write none (R159). -/
theorem inProfile_sys {i : Instr} {fn4 : BitVec 4} (g : Agent) (words : encode i = [Enc.s num fn4 a d 18]) :
    inProfile g i = (fn4 = 0 || fn4 = 8 || fn4 = 10) := by
  obtain ⟨-, fn, -, -, major, length⟩ := Enc.s_eq_iff.1 (rfl : Enc.s num fn4 a d 18 = _)
  simp only [inProfile, words, parcelInProfile, major, length, fn]
  simp

theorem sysr_runs : s.Runs (.sysr d num) (need (sysWriteBy num.toNat).isSome 0x01 (num.setWidth 64) >>= fun _ =>
    step1 (fun t => t.setG d (t.sysRead num.toNat))) :=
  ⟨exec_sysr d num s, fun _ => inProfile_sys s.cur (encode_sysr d num), rfl⟩

theorem sysr_reads (defined : sysWriteBy num.toNat ≠ none) : s.writesG (.sysr d num) d (s.sysRead num.toNat) := by
  refine sysr_runs.leaves ?_
  rw [M.need_bind, if_pos (Option.isSome_iff_ne_none.2 defined)]
  rfl
theorem sysr_traps (undefined : sysWriteBy num.toNat = none) : s.traps (.sysr d num) 0x01 (num.setWidth 64) := by
  refine sysr_runs.traps (t := s) ?_
  rw [M.need_bind, undefined]
  rfl

/-! ### SYSW, SYSS, SYSC -/

/-- What an instruction does that writes `v` to SR[num] and reads the old value into g[d] (R203, R348). -/
def State.WritesSys (s : State) (i : Instr) (d : BitVec 5) (num : BitVec 10) (v : Word) : Prop :=
  (isEngine s.cur = true → s.traps i 0x01 i.p0) ∧
  (isEngine s.cur = false →
    (sysWriteBy num.toNat = none → s.traps i 0x01 (num.setWidth 64)) ∧
    (sysWriteBy num.toNat = some .nobody → s.traps i 0x02 (num.setWidth 64)) ∧
    (sysWriteBy num.toNat = some .root → s.ctx.sr.cid ≠ 1 → s.traps i 0x0A (num.setWidth 64)) ∧
    ((sysWriteBy num.toNat = some .root ∧ s.ctx.sr.cid = 1) ∨ sysWriteBy num.toNat = some .anyone →
      (∀ t, sysPut num.toNat v s = .ok () t → exec i s = .next (s.after i (t.setG d (s.sysRead num.toNat)))) ∧
      (∀ stop t, sysPut num.toNat v s = .error stop t → exec i s = .next (s.afterStop t stop))))

theorem sysModify_writes {i : Instr} {fn4 : BitVec 4} {f : Word → Word → Word} (words : encode i = [Enc.s num fn4 a d 18])
    (run : exec i s = runInstr i (sysModify d a num f) s) (writes : (fn4 = 0 || fn4 = 8 || fn4 = 10) = false := by decide)
    (wf : i.wf = true := by rfl) : s.WritesSys i d num (f (s.sysRead num.toNat) (s.g a)) := by
  refine ⟨fun engine => run.trans (runInstr_profile engine ((inProfile_sys s.cur words).trans writes)), fun context => ?_⟩
  have runs : s.Runs i (sysWrite num.toNat (f (s.sysRead num.toNat) (s.g a)) >>= fun _ =>
      step1 (fun t => t.setG d (s.sysRead num.toNat))) :=
    State.Runs.congr ⟨run, fun engine => absurd (context.symm.trans engine) Bool.false_ne_true, wf⟩ rfl
  have trap {cause : BitVec 8} (stops : sysWrite num.toNat (f (s.sysRead num.toNat) (s.g a)) s =
      .error (.trap cause (BitVec.ofNat 64 num.toNat) .none) s) : s.traps i cause (num.setWidth 64) := by
    rw [← BitVec.ofNat_toNat]
    exact runs.traps (M.bind_error stops)
  refine ⟨fun column => trap (sysWrite_undefined column _ s), fun column => trap (sysWrite_nobody column _ s),
    fun column other => trap ((sysWrite_root column _ s).trans (if_neg other)), fun allowed => ⟨fun t put => ?_, fun stop t put => ?_⟩⟩
  · exact runs.leaves (M.bind_ok ((sysWrite_allowed allowed _).trans put))
  · exact runs.stops (M.bind_error ((sysWrite_allowed allowed _).trans put))

end

/-! ### The obligation -/

/-- Settles O8: the column by its table, each of the three writers as the same operation on the old value and g[a]. -/
theorem sysRegisterAccess : Obligations.SysRegisterAccess := by
  unfold Obligations.SysRegisterAccess
  refine ⟨sysWriteBy_iff (by decide) (by decide), sysWriteBy_iff (by decide) (by decide),
    sysWriteBy_iff (by decide) (by decide),
    fun s d num => ⟨sysr_reads, sysr_traps⟩, fun s d a num r row => ?_⟩
  simp only [List.mem_cons, List.not_mem_nil, or_false] at row
  rcases row with rfl | rfl | rfl
  · exact sysModify_writes (f := fun _ x => x) (encode_sysw d a num) (exec_sysw d a num s)
  · exact sysModify_writes (f := fun old x => old ||| x) (encode_syss d a num) (exec_syss d a num s)
  · exact sysModify_writes (f := fun old x => old &&& ~~~x) (encode_sysc d a num) (exec_sysc d a num s)

end Sys2Proof.Machine
end

section
/-! What an instruction that writes one general register leaves unchanged, and where control goes (O60; R19, R196). -/

namespace Sys2Proof.Machine
set_option Elab.async false

/-- The registers beside g. -/
theorem Ctx.setG_frame (c : Ctx) (n : BitVec 5) (x : Word) : (c.setG n x).r.c = c.r.c ∧ (c.setG n x).r.v = c.r.v ∧
    (c.setG n x).r.m = c.r.m ∧ (c.setG n x).r.vw = c.r.vw ∧ (c.setG n x).fcap = c.fcap := by
  unfold Ctx.setG
  split <;> exact ⟨rfl, rfl, rfl, rfl, rfl⟩

section
variable (s : State) (i : Instr) (d : BitVec 5) (x : Word)

theorem State.ctx_after_setG : (s.after i (s.setG d x)).ctx = { s.ctx.setG d x with pc := s.nextPc i } := by
  rw [State.after, State.setPc, State.ctx_setCtx, State.setG, State.ctx_setCtx]
theorem State.g_after_setG (n : BitVec 5) : (s.after i (s.setG d x)).g n = if n = d ∧ d ≠ 0 then x else s.g n := by
  rw [State.after, State.g_setPc, State.g_setG]
theorem State.ctxOf_after_setG {a : Agent} (other : agentKey a ≠ agentKey s.cur) :
    (s.after i (s.setG d x)).ctxOf a = s.ctxOf a := by
  show ((s.setCtxOf s.cur _).setCtxOf s.cur _).ctxOf a = _
  rw [State.ctxOf_setCtxOf, if_neg other, State.ctxOf_setCtxOf, if_neg other]
theorem State.g_zero : s.g 0 = 0 := if_pos rfl

end

theorem extractLsb'_six_eq_zero_iff (q : Word) : q.extractLsb' 0 6 = 0 ↔ q.toNat % 64 = 0 := by
  rw [← BitVec.toNat_inj]
  simp

/-- The next address is aligned as the last was, and never word 0 of a line (R19). -/
theorem seqPc_aligned {pc : Word} (n : Nat) (aligned : pc.toNat % 4 = 0) :
    (seqPc pc n).toNat % 4 = 0 ∧ (seqPc pc n).toNat % 64 ≠ 0 := by
  have step : (pc + BitVec.ofNat 64 (4 * n)).toNat % 4 = 0 := by
    rw [BitVec.toNat_add, BitVec.toNat_ofNat]
    omega
  unfold seqPc
  dsimp only
  simp only [extractLsb'_six_eq_zero_iff]
  generalize pc + BitVec.ofNat 64 (4 * n) = q at step
  split
  · next first =>
    rw [BitVec.toNat_add, show (4 : Word).toNat = 4 from rfl]
    omega
  · next later => exact ⟨step, later⟩

/-- Settles O60: such an instruction leaves `s.after i (s.setG d x)`, which is read field by field. -/
theorem registerFrame : Obligations.RegisterFrame := by
  unfold Obligations.RegisterFrame
  refine ⟨fun s i d x t writes run => ?_, fun s i _ aligned _ _ => seqPc_aligned i.parcels aligned⟩
  obtain rfl : s.after i (s.setG d x) = t := Host.Outcome.next.inj (writes.symm.trans run)
  obtain ⟨caps, vectors, masks, windows, fcap⟩ := s.ctx.setG_frame d x
  refine ⟨State.g_zero _, fun nonzero => ?_, fun n other => ?_, ?_, ?_, ?_, ?_, ?_, ?_, rfl, rfl, rfl, rfl, rfl,
    fun a other => s.ctxOf_after_setG i d x other, State.pc_setPc _ _⟩
  · rw [State.g_after_setG, if_pos ⟨rfl, nonzero⟩]
  · rw [State.g_after_setG, if_neg (fun same => other same.1)]
  · rw [State.ctx_after_setG]; exact caps
  · rw [State.ctx_after_setG]; exact vectors
  · rw [State.ctx_after_setG]; exact masks
  · rw [State.ctx_after_setG]; exact windows
  · rw [State.ctx_after_setG]; exact s.ctx.sr_setG d x
  · rw [State.ctx_after_setG]; exact fcap

end Sys2Proof.Machine
end

section
/-! The checks of window operands and of the rounding mode, and window instructions that fail them (O5; R186, R199, R201, R218). -/

namespace Sys2Proof.Machine
set_option Elab.async false

/-! ### A check of each element of a list -/

section
variable {α : Type} {check : α → M PUnit} {s : State}

theorem forM_ok {l : List α} (passes : ∀ x ∈ l, check x s = .ok () s) : l.forM check s = .ok () s := by
  induction l with
  | nil => rfl
  | cons x xs ih =>
    rw [List.forM_eq_forM, List.forM_cons, M.bind_ok (passes x List.mem_cons_self)]
    exact ih fun y mem => passes y (List.mem_cons_of_mem x mem)

/-- The first element that fails decides. -/
theorem forM_error {p q : List α} {x : α} {e : Stop} (before : ∀ y ∈ p, check y s = .ok () s) (stops : check x s = .error e s) :
    (p ++ x :: q).forM check s = .error e s := by
  induction p with
  | nil => exact M.bind_error stops
  | cons y ys ih =>
    rw [List.forM_eq_forM, List.cons_append, List.forM_cons, M.bind_ok (before y List.mem_cons_self)]
    exact ih fun z mem => before z (List.mem_cons_of_mem y mem)

end

/-! ### Window operands (R199, R201) -/

section
variable {s : State} {n : Int} {wide : Bool}

/-- The even-pair check of an operand with its width. -/
def evenCheck (x : Int × Bool) : M Unit := if x.2 then winEven x.1 else pure ()

theorem evenCheck_ok {x : Int × Bool} (even : x.2 = true → x.1 % 2 = 0) : evenCheck x s = .ok () s := by
  unfold evenCheck
  split
  · next pair => exact M.need_ok (beq_iff_eq.2 (even pair))
  · rfl
theorem evenCheck_odd (odd : n % 2 ≠ 0) : evenCheck (n, true) s = .error (.trap 0x02 (BitVec.ofInt 64 n) .none) s :=
  M.need_bad (beq_false_of_ne odd)

theorem winIn_ok (lo : 0 ≤ n) (hi : n < s.wsize) : winIn n s = .ok () s := by
  rw [winIn, M.get_bind, M.need_ok (by simp [lo, hi])]
theorem winIn_outside (out : ¬ (0 ≤ n ∧ n < s.wsize)) :
    winIn n s = .error (.trap 0x14 ((BitVec.ofInt 32 n).signExtend 64) .none) s := by
  rw [winIn, M.get_bind, M.need_bad (by simpa using out)]

theorem winCheck_ok (ok : s.winOk n wide) : winCheck n wide s = .ok () s := by
  obtain ⟨lo, hi, pair⟩ := ok
  unfold winCheck
  rw [M.bind_ok (winIn_ok lo hi)]
  split
  · next both => exact winIn_ok (by omega) (pair both).2
  · rfl
theorem winCheck_outside (out : ¬ (0 ≤ n ∧ n < s.wsize)) :
    winCheck n wide s = .error (.trap 0x14 ((BitVec.ofInt 32 n).signExtend 64) .none) s :=
  M.bind_error (winIn_outside out)
/-- Of a pair the upper half may lie outside alone. -/
theorem winCheck_half (lo : 0 ≤ n) (hi : n < s.wsize) (out : ¬ n + 1 < s.wsize) :
    winCheck n true s = .error (.trap 0x14 ((BitVec.ofInt 32 (n + 1)).signExtend 64) .none) s := by
  unfold winCheck
  rw [M.bind_ok (winIn_ok lo hi)]
  exact winIn_outside fun inside => out inside.2

end

section
variable {s : State} {l : List (Int × Bool)}

theorem checkWins_eq (l : List (Int × Bool)) : checkWins l = (l.forM evenCheck >>= fun _ => l.forM fun x => winCheck x.1 x.2) := rfl

theorem checkWins_ok (ok : ∀ x ∈ l, s.winOk x.1 x.2) : checkWins l s = .ok () s := by
  rw [checkWins_eq, M.bind_ok (forM_ok fun x mem => evenCheck_ok fun pair => ((ok x mem).2.2 pair).1)]
  exact forM_ok fun x mem => winCheck_ok (ok x mem)

variable {p q : List (Int × Bool)} {n : Int}

theorem checkWins_odd (before : ∀ y ∈ p, y.2 = true → y.1 % 2 = 0) (odd : n % 2 ≠ 0) :
    checkWins (p ++ (n, true) :: q) s = .error (.trap 0x02 (BitVec.ofInt 64 n) .none) s :=
  M.bind_error (forM_error (fun y mem => evenCheck_ok (before y mem)) (evenCheck_odd odd))

/-- Once all pairs are even, the first operand that does not pass its bounds decides. -/
theorem checkWins_stops {wide : Bool} {e : Stop} (even : ∀ y ∈ p ++ (n, wide) :: q, y.2 = true → y.1 % 2 = 0)
    (before : ∀ y ∈ p, s.winOk y.1 y.2) (stops : winCheck n wide s = .error e s) :
    checkWins (p ++ (n, wide) :: q) s = .error e s := by
  rw [checkWins_eq, M.bind_ok (forM_ok fun y mem => evenCheck_ok (even y mem))]
  exact forM_error (fun y mem => winCheck_ok (before y mem)) stops

/-! ### The rounding mode (R186) -/

theorem toNat_mode_eq_seven_iff (s : State) : (s.ctx.sr.fcsr.extractLsb' 0 3).toNat = 7 ↔ ¬ s.modeOk := by
  rw [State.modeOk, ne_eq, not_not, ← BitVec.toNat_inj]
  rfl
theorem modeOf_ok (known : s.modeOk) (p0 : Word) : modeOf 7 p0 s = .ok s.mode s := by
  rw [modeOf, if_pos rfl, M.get_bind]
  rw [if_neg (mt (toNat_mode_eq_seven_iff s).1 (not_not.2 known))]
  rfl
theorem modeOf_bad (unknown : ¬ s.modeOk) (p0 : Word) : modeOf 7 p0 s = .error (.trap 0x02 p0 .none) s := by
  rw [modeOf, if_pos rfl, M.get_bind]
  rw [if_pos ((toNat_mode_eq_seven_iff s).2 unknown)]
  rfl

end

/-! ### Bodies that begin with both checks -/

/-- The operands `l` and the rounding mode are checked, then the state changes. -/
def afterMode (l : List (Int × Bool)) (p0 : Word) (g : Mode → State → State) : M (Option Word) := do
  checkWins l
  let mode ← modeOf 7 p0
  step1 (g mode)

section
variable {s : State} {i : Instr} {l : List (Int × Bool)}

/-- Contexts execute every instruction (R159). -/
theorem State.accepts_context (context : isEngine s.cur = false) (wf : i.wf = true) : s.accepts i :=
  ⟨fun engine => absurd (context.symm.trans engine) Bool.false_ne_true, wf⟩

variable {g : Mode → State → State}

theorem State.Runs.passes (h : s.Runs i (afterMode l i.p0 g)) (ok : ∀ x ∈ l, s.winOk x.1 x.2) (known : s.modeOk) :
    s.leaves i (g s.mode s) :=
  h.leaves ((M.bind_ok (checkWins_ok ok)).trans (M.bind_ok (modeOf_ok known i.p0)))
theorem State.Runs.wins_refused {cause : BitVec 8} {eval : Word} (h : s.Runs i (afterMode l i.p0 g))
    (failed : checkWins l s = .error (.trap cause eval .none) s) : s.traps i cause eval := h.traps (M.bind_error failed)
theorem State.Runs.mode_refused (h : s.Runs i (afterMode l i.p0 g)) (ok : ∀ x ∈ l, s.winOk x.1 x.2) (unknown : ¬ s.modeOk) :
    s.traps i 0x02 i.p0 := h.traps ((M.bind_ok (checkWins_ok ok)).trans (M.bind_error (modeOf_bad unknown i.p0)))

end

/-! ### Arithmetic (R218) -/

/-- w[d] takes an exact result rounded once, and FCSR its flags (R200). -/
def State.rounded (t s : State) (f : FFields) (mode : Mode) (r : FX × Flags) : State :=
  (t.setWinBits (s.wd f) f.dbl (floatTail (fpFmt f.dbl) mode false r.1).1).setFlags
    (r.2.join (floatTail (fpFmt f.dbl) mode false r.1).2)

section
variable {s : State} {i : Instr} {f g : FFields} (accepted : s.accepts i) (same : g = f)
include accepted same

theorem arith_runs {op : Mode → FVal → FVal → FX × Flags} (run : exec i s = runInstr i (fpArith i g op) s) :
    s.Runs i (afterMode [(s.wd f, f.dbl), (s.wa f, f.dbl), (s.wb f, f.dbl)] i.p0 fun mode t =>
      t.rounded s f mode (op mode (s.winVal (s.wa f) f.dbl) (s.winVal (s.wb f) f.dbl))) := by
  subst same
  exact State.Runs.congr ⟨run, accepted⟩ rfl
theorem fma_runs (run : exec i s = runInstr i (fpFma i g) s) :
    s.Runs i (afterMode [(s.wd f, f.dbl), (s.wa f, f.dbl), (s.wb f, f.dbl)] i.p0 fun mode t =>
      t.rounded s f mode (fmaF mode (s.winVal (s.wa f) f.dbl) (s.winVal (s.wb f) f.dbl) (s.winVal (s.wd f) f.dbl))) := by
  subst same
  exact State.Runs.congr ⟨run, accepted⟩ rfl
theorem sqrt_runs (run : exec i s = runInstr i (fpSqrt i g) s) :
    s.Runs i (afterMode [(s.wd f, f.dbl), (s.wa f, f.dbl)] i.p0 fun mode t =>
      t.rounded s f mode (sqrtF (s.winVal (s.wa f) f.dbl))) := by
  subst same
  exact State.Runs.congr ⟨run, accepted⟩ rfl

end

section
variable {s : State} {n m k : Int} {v w x : Bool} (okN : s.winOk n v)
include okN

theorem winOk_one : ∀ y ∈ [(n, v)], s.winOk y.1 y.2 := by simpa using okN
theorem winOk_two (okM : s.winOk m w) : ∀ y ∈ [(n, v), (m, w)], s.winOk y.1 y.2 := by simpa using ⟨okN, okM⟩
theorem winOk_three (okM : s.winOk m w) (okK : s.winOk k x) : ∀ y ∈ [(n, v), (m, w), (k, x)], s.winOk y.1 y.2 := by
  simpa using ⟨okN, okM, okK⟩

end

/-! ### The obligation -/

/-- Settles O5: the two passes over the operands, then FADD and FMA as bodies that begin with both. -/
theorem windowOperandChecks : Obligations.WindowOperandChecks := by
  unfold Obligations.WindowOperandChecks
  intro s l
  refine ⟨checkWins_ok, ?odd, ?bounds, ?operands, ?mode⟩
  case odd =>
    rintro p n q rfl before odd
    exact checkWins_odd before odd
  case bounds =>
    rintro p n wide q rfl even before
    exact ⟨fun out => checkWins_stops even before (winCheck_outside out),
      fun lo hi pair out => checkWins_stops even before (by subst pair; exact winCheck_half lo hi out)⟩
  case operands =>
    intro f cause eval context failed
    have accepts {i : Instr} (wf : i.wf = true) : s.accepts i := State.accepts_context context wf
    exact ⟨(arith_runs (accepts rfl) rfl (exec_faddLong f s)).wins_refused failed,
      (fma_runs (accepts rfl) rfl (exec_fmaLong f s)).wins_refused failed,
      fun short => ⟨(fma_runs (accepts rfl) short.symm (exec_fma f.dbl f.d f.a f.b s)).wins_refused failed,
        (arith_runs (accepts rfl) short.symm (exec_fadd f.dbl f.d f.a f.b s)).wins_refused failed⟩⟩
  case mode =>
    intro f context okD okA okB unknown
    have accepts {i : Instr} (wf : i.wf = true) : s.accepts i := State.accepts_context context wf
    have ok := winOk_three okD okA okB
    exact ⟨(arith_runs (accepts rfl) rfl (exec_faddLong f s)).mode_refused ok unknown,
      (fma_runs (accepts rfl) rfl (exec_fmaLong f s)).mode_refused ok unknown,
      fun short => ⟨(arith_runs (accepts rfl) short.symm (exec_fadd f.dbl f.d f.a f.b s)).mode_refused ok unknown,
        (fma_runs (accepts rfl) short.symm (exec_fma f.dbl f.d f.a f.b s)).mode_refused ok unknown⟩⟩

end Sys2Proof.Machine
end

section
/-! Window arithmetic that completes, and the exact results of special operands (O6; R182, R200, R218). -/

namespace Sys2Proof.Machine
set_option Elab.async false

/-! ### The operands that an instruction does not have, and its short form -/

/-- A short form is its long form with offsets 0 (R200). -/
theorem shortF_eq {f : FFields} (short : f.od = 0 ∧ f.oa = 0 ∧ f.ob = 0) : shortF f.dbl f.d f.a f.b = f := by
  obtain ⟨dbl, d, a, b, od, oa, ob⟩ := f
  obtain ⟨rfl, rfl, rfl⟩ := short
  rfl
theorem shortF_eq_of_one {f : FFields} (one : f.b = 0) (short : f.od = 0 ∧ f.oa = 0 ∧ f.ob = 0) : shortF f.dbl f.d f.a 0 = f :=
  (congrArg (shortF f.dbl f.d f.a) one.symm).trans (shortF_eq short)

/-- The fields of a long form that its instruction leaves zero (R218). -/
theorem WF.long_of_zero {f : FFields} {gd ga usesB : Bool} (d : gd = true → f.od = 0) (a : ga = true → f.oa = 0)
    (b : usesB = false → f.b = 0 ∧ f.ob = 0) : WF.long f gd ga usesB = true := by
  simp only [WF.long, Bool.and_eq_true, Bool.or_eq_true, Bool.not_eq_true', beq_iff_eq]
  exact ⟨⟨gd.eq_false_or_eq_true.symm.imp_right d, ga.eq_false_or_eq_true.symm.imp_right a⟩, usesB.eq_false_or_eq_true.imp_right b⟩

/-! ### Special operands (R182, R218) -/

section
variable (mode : Mode) (n k : Bool) (e : Int) (c : FVal)

/-- A NaN as first addend gives one whatever the other is. -/
theorem addF_nan (sig : Bool) : (addF mode (.nan sig) c).1 = .nan := rfl
theorem fmaF_invalid {a b : FVal} (product : mulV a b = (.nan false, { nv := true })) :
    (fmaF mode a b c).1 = .nan ∧ (fmaF mode a b c).2.nv = true := by
  rw [fmaF, product]
  exact ⟨addF_nan mode c false, Bool.or_true _⟩
theorem mulV_inf_zero : mulV (.inf n) (.fin k 0 e) = (.nan false, { nv := true }) := rfl
theorem mulV_zero_inf : mulV (.fin k 0 e) (.inf n) = (.nan false, { nv := true }) := rfl
theorem sqrtF_negative {m : Nat} (nonzero : m ≠ 0) : sqrtF (.fin true m e) = (.nan, { nv := true }) := by
  simp only [sqrtF, if_neg nonzero]
  rfl
theorem divF_by_zero {m : Nat} (nonzero : m ≠ 0) (e' : Int) : divF (.fin n m e) (.fin k 0 e') = (.inf (n != k), {}) := by
  simp only [divF, if_neg nonzero]
  rfl

end

/-! ### The obligation -/

/-- Settles O6: each instruction rounds the exact result that its body names, and that result where operands are special. -/
theorem floatArithmeticResults : Obligations.FloatArithmeticResults := by
  unfold Obligations.FloatArithmeticResults
  refine ⟨fun s f context known okD okA => ?_, fun mode n k m e c => ?_⟩
  · intro result d a b short
    have accepts {i : Instr} (wf : i.wf = true) : s.accepts i := State.accepts_context context wf
    refine ⟨fun okB => ?_, fun noB noOb => ?_⟩
    · have ok := winOk_three okD okA okB
      have arith {i : Instr} {g : FFields} {op : Mode → FVal → FVal → FX × Flags} (run : exec i s = runInstr i (fpArith i g op) s)
          (same : g = f) (wf : i.wf = true) : result i (op s.mode a b) := (arith_runs (accepts wf) same run).passes ok known
      have fma {i : Instr} {g : FFields} (run : exec i s = runInstr i (fpFma i g) s) (same : g = f) (wf : i.wf = true) :
          result i (fmaF s.mode a b d) := (fma_runs (accepts wf) same run).passes ok known
      exact ⟨arith (exec_faddLong f s) rfl rfl, arith (op := subF) (exec_fsubLong f s) rfl rfl,
        arith (op := fun _ => mulF) (exec_fmulLong f s) rfl rfl, arith (op := fun _ => divF) (exec_fdivLong f s) rfl rfl,
        fma (exec_fmaLong f s) rfl rfl, fun offsets =>
          ⟨arith (exec_fadd f.dbl f.d f.a f.b s) (shortF_eq offsets) rfl,
            arith (op := subF) (exec_fsub f.dbl f.d f.a f.b s) (shortF_eq offsets) rfl,
            arith (op := fun _ => mulF) (exec_fmul f.dbl f.d f.a f.b s) (shortF_eq offsets) rfl,
            arith (op := fun _ => divF) (exec_fdiv f.dbl f.d f.a f.b s) (shortF_eq offsets) rfl,
            fma (exec_fma f.dbl f.d f.a f.b s) (shortF_eq offsets) rfl⟩⟩
    · have sqrt {i : Instr} {g : FFields} (run : exec i s = runInstr i (fpSqrt i g) s) (same : g = f) (wf : i.wf = true) :
          result i (sqrtF a) :=
        (sqrt_runs (accepts wf) same run).passes (winOk_two okD okA) known
      exact ⟨sqrt (exec_fsqrtLong f s) rfl (WF.long_of_zero nofun nofun fun _ => ⟨noB, noOb⟩),
        fun offsets => sqrt (exec_fsqrt f.dbl f.d f.a s) (shortF_eq_of_one noB offsets) rfl⟩
  · obtain ⟨left, leftFlag⟩ := fmaF_invalid mode c (mulV_inf_zero n k e)
    obtain ⟨right, rightFlag⟩ := fmaF_invalid mode c (mulV_zero_inf n k e)
    exact ⟨left, leftFlag, right, rightFlag, rfl, fun nonzero => ⟨sqrtF_negative e nonzero, rfl⟩,
      fun e' nonzero => divF_by_zero n k e nonzero e', fun dbl sat => rfl, by decide, by decide⟩

end Sys2Proof.Machine
end

section
/-! Window instructions that compare, classify, move and convert (O7; R182, R200, R219, R220). -/

namespace Sys2Proof.Machine
set_option Elab.async false

/-- FMIN and FMAX give the flags of their operands, whichever they choose (R220). -/
theorem minMaxF_flags (wantMax : Bool) (a b : FVal) : (minMaxF wantMax a b).2 = opFlags [a, b] := by
  unfold minMaxF
  cases a.isNan <;> cases b.isNan <;> rfl

/-- The truth of a comparison: 0 where an operand is a NaN (R220). -/
theorem compare_truth (a b : FVal) (p : Bool) : (!a.isNan && !b.isNan && p) = (p && !(a.isNan || b.isNan)) := by
  rw [Bool.not_or, Bool.and_comm]
theorem eqF_of_numbers {a b : FVal} : (!a.isNan && !b.isNan && eqF a b) = (!ltF a b && !ltF b a && !(a.isNan || b.isNan)) := by
  rw [← compare_truth, eqF]
  cases a.isNan <;> cases b.isNan <;> rfl

/-! ### What each body leaves once its operands pass -/

/-- `i` completes: w[d] takes bits and FCSR flags. -/
def State.writesWin (s : State) (f : FFields) (i : Instr) (x : Nat) (fl : Flags) : Prop :=
  s.leaves i ((s.setWinBits (s.wd f) f.dbl x).setFlags fl)
/-- `i` completes: g[d] takes a value and FCSR flags. -/
def State.writesGFlags (s : State) (f : FFields) (i : Instr) (x : Word) (fl : Flags) : Prop :=
  s.leaves i ((s.setG f.d x).setFlags fl)

section
variable {s : State} {i : Instr} {f g : FFields}

theorem minMax_writes {wantMax : Bool} (run : exec i s = runInstr i (fpMinMax g wantMax) s) (same : g = f) (accepted : s.accepts i)
    (okD : s.winOk (s.wd f) f.dbl) (okA : s.winOk (s.wa f) f.dbl) (okB : s.winOk (s.wb f) f.dbl) :
    s.writesWin f i ((floatFmt (fpFmt f.dbl)).pack (minMaxF wantMax (s.winVal (s.wa f) f.dbl) (s.winVal (s.wb f) f.dbl)).1)
      (opFlags [s.winVal (s.wa f) f.dbl, s.winVal (s.wb f) f.dbl]) := by
  subst same
  rw [← minMaxF_flags wantMax]
  refine State.Runs.leaves ⟨run, accepted⟩ ?_
  rw [fpMinMax, M.get_bind, M.bind_ok (checkWins_ok (winOk_three okD okA okB))]
  rfl

/-- A comparison whose relation holds of numbers exactly where `p` does. -/
theorem compare_writes {quiet : Bool} {rel : FVal → FVal → Bool} {p : Bool}
    (run : exec i s = runInstr i (fpCompare g quiet rel) s) (same : g = f) (accepted : s.accepts i)
    (okA : s.winOk (s.wa f) f.dbl) (okB : s.winOk (s.wb f) f.dbl) {fl : Flags}
    (holds : (!(s.winVal (s.wa f) f.dbl).isNan && !(s.winVal (s.wb f) f.dbl).isNan &&
      rel (s.winVal (s.wa f) f.dbl) (s.winVal (s.wb f) f.dbl)) = p)
    (flags : (if quiet then opFlags [s.winVal (s.wa f) f.dbl, s.winVal (s.wb f) f.dbl]
      else { nv := (s.winVal (s.wa f) f.dbl).isNan || (s.winVal (s.wb f) f.dbl).isNan }) = fl) :
    s.writesGFlags f i (if p then 1 else 0) fl := by
  subst same holds flags
  refine State.Runs.leaves ⟨run, accepted⟩ ?_
  rw [fpCompare, M.get_bind, M.bind_ok (checkWins_ok (winOk_two okA okB))]
  rfl

theorem class_writes (run : exec i s = runInstr i (fpClass g) s) (same : g = f) (accepted : s.accepts i)
    (okA : s.winOk (s.wa f) f.dbl) : s.writesG i f.d (classWord (floatFmt (fpFmt f.dbl)) (s.winBits (s.wa f) f.dbl)) := by
  subst same
  refine State.Runs.leaves ⟨run, accepted⟩ ?_
  rw [fpClass, M.get_bind, M.bind_ok (checkWins_ok (winOk_one okA))]
  rfl
theorem toGeneral_writes (run : exec i s = runInstr i (fpToGeneral g) s) (same : g = f) (accepted : s.accepts i)
    (okA : s.winOk (s.wa f) f.dbl) : s.writesG i f.d (BitVec.ofNat 64 (s.winBits (s.wa f) f.dbl)) := by
  subst same
  refine State.Runs.leaves ⟨run, accepted⟩ ?_
  rw [fpToGeneral, M.get_bind, M.bind_ok (checkWins_ok (winOk_one okA))]
  rfl
theorem sign_leaves {negate : Bool} (run : exec i s = runInstr i (fpSign g negate) s) (same : g = f) (accepted : s.accepts i)
    (okD : s.winOk (s.wd f) f.dbl) (okA : s.winOk (s.wa f) f.dbl) :
    s.leaves i (s.setWinBits (s.wd f) f.dbl (signBits (floatFmt (fpFmt f.dbl)) negate (s.winBits (s.wa f) f.dbl))) := by
  subst same
  refine State.Runs.leaves ⟨run, accepted⟩ ?_
  rw [fpSign, M.get_bind, M.bind_ok (checkWins_ok (winOk_two okD okA))]
  rfl
theorem toWindow_leaves (run : exec i s = runInstr i (fpToWindow g) s) (same : g = f) (accepted : s.accepts i)
    (okD : s.winOk (s.wd f) f.dbl) : s.leaves i (s.setWinBits (s.wd f) f.dbl (s.g f.a).toNat) := by
  subst same
  refine State.Runs.leaves ⟨run, accepted⟩ ?_
  rw [fpToWindow, M.get_bind, M.bind_ok (checkWins_ok (winOk_one okD))]
  rfl

/-! The conversions, whose mode exists too (R219). -/

theorem convert_writes (run : exec i s = runInstr i (fpConvert i g) s) (same : g = f) (accepted : s.accepts i)
    (known : s.modeOk) (okD : s.winOk (s.wd f) f.dbl) (okA : s.winOk (s.wa f) (!f.dbl)) :
    s.writesWin f i (convNum (.flt (s.winVal (s.wa f) (!f.dbl))) (fpFmt f.dbl) s.mode false).1
      (convNum (.flt (s.winVal (s.wa f) (!f.dbl))) (fpFmt f.dbl) s.mode false).2 := by
  subst same
  refine State.Runs.leaves ⟨run, accepted⟩ ?_
  rw [fpConvert, M.get_bind, M.bind_ok (checkWins_ok (winOk_two okD okA)), M.bind_ok (modeOf_ok known i.p0)]
  rfl
theorem toInt_writes (run : exec i s = runInstr i (fpToInt i g) s) (same : g = f) (accepted : s.accepts i)
    (known : s.modeOk) (okA : s.winOk (s.wa f) f.dbl) :
    s.writesGFlags f i (BitVec.ofNat 64 (convNum (.flt (s.winVal (s.wa f) f.dbl)) Fmt.s64 s.mode false).1)
      (convNum (.flt (s.winVal (s.wa f) f.dbl)) Fmt.s64 s.mode false).2 := by
  subst same
  refine State.Runs.leaves ⟨run, accepted⟩ ?_
  rw [fpToInt, M.get_bind, M.bind_ok (checkWins_ok (winOk_one okA)), M.bind_ok (modeOf_ok known i.p0)]
  rfl
theorem fromInt_writes (run : exec i s = runInstr i (fpFromInt i g) s) (same : g = f) (accepted : s.accepts i)
    (known : s.modeOk) (okD : s.winOk (s.wd f) f.dbl) :
    s.writesWin f i (convNum (.int (s.g f.a).toInt) (fpFmt f.dbl) s.mode false).1
      (convNum (.int (s.g f.a).toInt) (fpFmt f.dbl) s.mode false).2 := by
  subst same
  refine State.Runs.leaves ⟨run, accepted⟩ ?_
  rw [fpFromInt, M.get_bind, M.bind_ok (checkWins_ok (winOk_one okD)), M.bind_ok (modeOf_ok known i.p0)]
  rfl

end

/-! ### The obligation -/

/-- Settles O7: each pair of a long and a short form by the body that they share. -/
theorem floatMoveResults : Obligations.FloatMoveResults := by
  unfold Obligations.FloatMoveResults
  intro s f context fmt a b nan nv toW toG truth short okD okA okB one
  have accepts {i : Instr} (wf : i.wf = true) : s.accepts i := State.accepts_context context wf
  refine ⟨fun dOk aOk bOk => ⟨?longMinMax, ?shortMinMax⟩, fun aOk bOk noD => ?compare, fun aOk noD unused => ?toGeneral,
    fun dOk aOk unused => ?sign, fun dOk noA unused => ?toWindow, fun known unused => ?convert⟩
  case longMinMax =>
    simp only [List.mem_cons, List.not_mem_nil, or_false, Prod.mk.injEq]
    rintro wantMax i (⟨rfl, rfl⟩ | ⟨rfl, rfl⟩)
    · exact minMax_writes (exec_fminLong f s) rfl (accepts rfl) dOk aOk bOk
    · exact minMax_writes (exec_fmaxLong f s) rfl (accepts rfl) dOk aOk bOk
  case shortMinMax =>
    simp only [List.mem_cons, List.not_mem_nil, or_false, Prod.mk.injEq]
    rintro offsets wantMax i (⟨rfl, rfl⟩ | ⟨rfl, rfl⟩)
    · exact minMax_writes (exec_fmin f.dbl f.d f.a f.b s) (shortF_eq offsets) (accepts rfl) dOk aOk bOk
    · exact minMax_writes (exec_fmax f.dbl f.d f.a f.b s) (shortF_eq offsets) (accepts rfl) dOk aOk bOk
  case compare =>
    have long : WF.long f true false true = true := WF.long_of_zero (fun _ => noD) nofun nofun
    exact ⟨compare_writes (exec_feqLong f s) rfl (accepts long) aOk bOk eqF_of_numbers rfl,
      compare_writes (exec_fltLong f s) rfl (accepts long) aOk bOk (compare_truth _ _ _) rfl,
      compare_writes (exec_fleLong f s) rfl (accepts long) aOk bOk (compare_truth _ _ _) rfl, fun offsets =>
        ⟨compare_writes (exec_feq f.dbl f.d f.a f.b s) (shortF_eq offsets) (accepts rfl) aOk bOk eqF_of_numbers rfl,
          compare_writes (exec_flt f.dbl f.d f.a f.b s) (shortF_eq offsets) (accepts rfl) aOk bOk (compare_truth _ _ _) rfl,
          compare_writes (exec_fle f.dbl f.d f.a f.b s) (shortF_eq offsets) (accepts rfl) aOk bOk (compare_truth _ _ _) rfl⟩⟩
  case toGeneral =>
    have long : WF.long f true false false = true := WF.long_of_zero (fun _ => noD) nofun fun _ => unused
    exact ⟨class_writes (exec_fclassLong f s) rfl (accepts long) aOk, toGeneral_writes (exec_fmvgLong f s) rfl (accepts long) aOk,
      fun offsets => ⟨class_writes (exec_fclass f.dbl f.d f.a s) (shortF_eq_of_one unused.1 offsets) (accepts rfl) aOk,
        toGeneral_writes (exec_fmvg f.dbl f.d f.a s) (shortF_eq_of_one unused.1 offsets) (accepts rfl) aOk⟩⟩
  case sign =>
    have long : WF.long f false false false = true := WF.long_of_zero nofun nofun fun _ => unused
    simp only [List.mem_cons, List.not_mem_nil, or_false, Prod.mk.injEq]
    rintro i negate ((⟨rfl, rfl⟩ | ⟨rfl, rfl⟩) | ⟨offsets, ⟨rfl, rfl⟩ | ⟨rfl, rfl⟩⟩)
    · exact sign_leaves (exec_fabsLong f s) rfl (accepts long) dOk aOk
    · exact sign_leaves (exec_fnegLong f s) rfl (accepts long) dOk aOk
    · exact sign_leaves (exec_fabs f.dbl f.d f.a s) (shortF_eq_of_one unused.1 offsets) (accepts rfl) dOk aOk
    · exact sign_leaves (exec_fneg f.dbl f.d f.a s) (shortF_eq_of_one unused.1 offsets) (accepts rfl) dOk aOk
  case toWindow =>
    have long : WF.long f false true false = true := WF.long_of_zero nofun (fun _ => noA) fun _ => unused
    rintro i (rfl | ⟨offsets, rfl⟩)
    · exact toWindow_leaves (exec_fmvwLong f s) rfl (accepts long) dOk
    · exact toWindow_leaves (exec_fmvw f.dbl f.d f.a s) (shortF_eq_of_one unused.1 offsets) (accepts rfl) dOk
  case convert =>
    refine ⟨?_, ?_, ?_⟩
    · rintro i dOk aOk (rfl | ⟨offsets, rfl⟩)
      · exact convert_writes (exec_fcvtLong f s) rfl (accepts (WF.long_of_zero nofun nofun fun _ => unused)) known dOk aOk
      · exact convert_writes (exec_fcvt f.dbl f.d f.a s) (shortF_eq_of_one unused.1 offsets) (accepts rfl) known dOk aOk
    · rintro i aOk noD (rfl | ⟨offsets, rfl⟩)
      · exact toInt_writes (exec_fcvtiLong f s) rfl (accepts (WF.long_of_zero (fun _ => noD) nofun fun _ => unused)) known aOk
      · exact toInt_writes (exec_fcvti f.dbl f.d f.a s) (shortF_eq_of_one unused.1 offsets) (accepts rfl) known aOk
    · rintro i dOk noA (rfl | ⟨offsets, rfl⟩)
      · exact fromInt_writes (exec_fcvtfLong f s) rfl (accepts (WF.long_of_zero nofun (fun _ => noA) fun _ => unused)) known dOk
      · exact fromInt_writes (exec_fcvtf f.dbl f.d f.a s) (shortF_eq_of_one unused.1 offsets) (accepts rfl) known dOk

end Sys2Proof.Machine
end
